-- ==== Sys2Proof/Word.lean ====
section
/-!
DEFINITION. The word and byte types of the register pages and memories, and the plainest arithmetic on counts.
-/
namespace Sys2Proof

/-- A register word: register pages hold 32-bit registers (02_architecture.md, R62). -/
abbrev Word := BitVec 32

/-- A byte of a memory. -/
abbrev Byte := BitVec 8

/-- A partition identifier: six bits in every place the spec holds one (03_register_pages.md, R76). -/
abbrev Pid := Fin 64

/-- `a + b`, held at `m`: the saturating counters of the spec. -/
def satAdd (m a b : Nat) : Nat := min m (a + b)

/-- Little-endian bytes of a number. -/
def leBytes : Nat → Nat → List Byte
  | 0, _ => []
  | n + 1, v => BitVec.ofNat 8 v :: leBytes n (v / 256)

/-- The number that little-endian bytes spell. -/
def leValue : List Byte → Nat
  | [] => 0
  | b :: bs => b.toNat + 256 * leValue bs

end Sys2Proof
end

