-- ==== Sys2Proof/Syntax.lean ====
section
/-!
DEFINITION. The commands of the block: one constructor for each row of spec/opcode_table.json, with the operands the row's
rule speaks of. Measured quantities (currents, voltages, temperatures, frame contents) are operands; register writes carry
the writer's PID and the written value.
-/
namespace Sys2Proof

/-- The slow part of a channel's sample (R293): output voltage against the sense ground and filtered input voltage V_bat, in
10 mV, and junction temperature, °C plus 64. -/
structure SlowSample where
  vOut : Fin 65536
  vBat : Fin 65536
  tj : Fin 256
  deriving DecidableEq, Repr

/-- What a module reset's boot meets outside the state (R31, R162, R163): the level of HOSTSEL; the entropy source passes its start-up tests; programming the Heartwood key completes (0), or power fails before its valid marker (1) or
before the fuse of Manufacturing (2); reading the Heartwood bank meets no error (0), a corrected bit (1), an uncorrectable word (2). -/
structure BootIn where
  host : Bool
  entropy : Bool
  prog : Fin 3
  ecc : Fin 3
  deriving DecidableEq, Repr

/-- An access to the DMI registers of the debug authentication (R185): a word of the record to AUTH_DATA; at AUTH_CTRL the start of the
check, the result, a word of the nonce. -/
inductive DbgAuth where
  | data (w : Word)
  | start
  | result
  | nonce (i : Fin 8)
  deriving DecidableEq, Repr

/-- One sample of a load channel (R293): the 14-bit current code, whether the limit loop regulates, and every 10 µs the slow
part. -/
structure LoadSample where
  code : Fin 16384
  limit : Bool
  slow : Option SlowSample
  deriving DecidableEq, Repr

/-- The header of a CAN frame on the bus (R363, R390): format 0 CC, 1 FD, 2 XL. -/
structure CanFrame where
  fmt : Fin 3
  ext : Bool
  rmt : Bool
  id : Fin 536870912
  dlc : Fin 2048
  brs : Bool
  esi : Bool
  sec : Bool
  sdt : Fin 256
  vcid : Fin 256
  af : Word
  deriving DecidableEq, Repr

/-- What a sleeping transceiver sees on its bus (R547): the wake-up pattern, a correct frame, an erroneous frame. -/
inductive SwkEvent where
  | pattern
  | frame (f : CanFrame)
  | badFrame
  deriving DecidableEq, Repr

/-- An error of a CAN attempt or of a received frame (R375, R386): its LAST_ERR code 1 to 6, whether it fell in a data phase,
whether error signalling was off there, whether the ISO rules raise the counter by their larger step (8; a receiver's smaller
step is 1, a transmitter's smaller step the exception of a stuff error during arbitration), and whether a dominant bit was seen
in a passive error flag (R377). -/
structure CanError where
  code : Fin 7
  dataPhase : Bool
  unsignalled : Bool
  heavy : Bool
  dominant : Bool
  deriving DecidableEq, Repr


/-- A management packet of the Finza link (R568 type 5, R572, R576, R594): an offered device number, the size reported by the
Tail and whether the ring is closed, the reachable set that is broadcast at the end of an enumeration or after a break, the loss of a posted write, words 0 to 3 of a late-write record. -/
inductive Mgmt where
  | enum (n : Nat)
  | size (n : Nat) (ring : Bool)
  | chain (done : Bool) (lo hi : Nat) (ring : Bool)
  | lost (instV : Bool) (inst wseq : Nat)
  | writeFault (w0 w1 w2 w3 : Nat)
  deriving DecidableEq, Repr

/-- A packet of the Finza link (R567): its header fields, its payload, and what a management packet says. `w2` is ADDR or STATUS
and CAUSE. -/
structure Pkt where
  type : Nat
  vc : Nat
  bcast : Bool := false
  srcHost : Bool := false
  dstHost : Bool := false
  instV : Bool := false
  dst : Nat := 0
  src : Nat := 0
  pid : Nat := 0
  tag : Nat := 0
  len : Nat := 0
  w2 : Nat := 0
  wseq : Nat := 0
  inst : Nat := 0
  addrHi : Nat := 0
  data : List Byte := []
  mgmt : Option Mgmt := none
  deriving DecidableEq, Repr

/-- What arrives at a Finza port: a link control packet with an acknowledged LSEQ, the last LSEQ accepted that a NAK names, and
credits returned by pool; or a sequenced packet with its LSEQ and how its CRC reads: 0 correct, 1 wrong, 2 inverted, 3 an
uncorrectable error in the receive buffer (R569, R570, R580). -/
inductive FinzaIn where
  | control (ack nak : Option (Fin 4096)) (credits : List (Nat × Nat))
  | packet (p : Pkt) (lseq : Fin 4096) (crc : Fin 4)
  deriving DecidableEq, Repr

/-- A request at the fabric (R62, R63): its context, address, kind (0 read, 1 write, 2 atomic), length in bytes, the bytes it writes, the atomic operation,
what the memory returns with it and what the Canopy caches did on the way: 0 no error, 1 a corrected one, 2 an uncorrectable one; whether
a transfer already granted occupies the interconnect it enters at, so that it waits there for its grant (R45, R47). -/
structure FabReq where
  ctx : Fin 512
  addr : Fin 1099511627776
  kind : Fin 3
  len : Fin 257
  data : List Byte
  op : Fin 9
  ecc : Fin 3
  cache : Fin 3
  contended : Bool
  deriving DecidableEq, Repr

/-- One constructor per row of spec/opcode_table.json. -/
inductive Instr where
  /-- FABRIC_REQUEST (R63). A requester's transaction reaches the fabric and is checked for isolation, decode, firewall, size and access code, then served or refused. -/
  | fabricRequest (q : FabReq)
  /-- AGE_PROMOTION (R46). A bulk or background request that waited longer than AGE_LIMIT is promoted to real-time. -/
  | agePromotion (r : Fin 4)
  /-- BW_PERIOD_START (R49). A new bandwidth regulation period begins and every partition budget is refilled. -/
  | bwPeriodStart
  /-- ISOLATION_RESPONSE_TIMEOUT (R65). A request accepted before region isolation gets no response within 10 µs and is completed with cause isolated. -/
  | isolationResponseTimeout (tag : Fin 256)
  /-- REGISTER_WRITE (R78). A write to a register that has no row of its own takes effect field by field under its access codes and ownership. -/
  | registerWrite (pid : Pid) (a : Fin 1099511627776) (v : Word)
  /-- CLEAR_ON_READ (R80). A read of an RC counter or clear-on-read field returns its value and clears it, latching the high half of a 64-bit counter. -/
  | clearOnRead (pid : Pid) (a : Fin 1099511627776)
  /-- BLOCK_ENABLE (R81). BLK_CTRL.EN written 1 lets the block accept work, after any draining ends. -/
  | blockEnable (pid : Pid) (k : Fin 28)
  /-- BLOCK_DISABLE (R81). BLK_CTRL.EN written 0 stops new work and drains work in flight to its element boundary. -/
  | blockDisable (pid : Pid) (k : Fin 28)
  /-- BLOCK_SOFT_RESET (R81). BLK_CTRL.SOFT_RST written 1 disables the block and returns its registers to reset values once draining ends. -/
  | blockSoftReset (pid : Pid) (k : Fin 28)
  /-- BLOCK_ISOLATE (R71). BLK_CTRL.ISOLATE written 1 stops the block issuing requests and restricts its page to the header. -/
  | blockIsolate (pid : Pid) (k : Fin 28) (on : Bool)
  /-- DRAIN_COMPLETE (R81). Work in flight of a disabled, resetting or retiring block or cell reaches its element boundary and DRAINING clears. -/
  | drainComplete (k : Fin 23) (c : Option (Fin 512))
  /-- CELL_ENABLE (R81). CELL_CTRL.EN written 1 lets the cell accept work, after the block's own enable checks. -/
  | cellEnable (pid : Pid) (k : Fin 23) (c : Fin 512)
  /-- CELL_DISABLE (R81). CELL_CTRL.EN written 0 stops new work in the cell and drains its work in flight. -/
  | cellDisable (pid : Pid) (k : Fin 23) (c : Fin 512)
  /-- CELL_RESET (R77). CELL_CTRL.CELL_RST written 1 disables the cell and resets its registers once draining ends. -/
  | cellReset (pid : Pid) (k : Fin 23) (c : Fin 512)
  /-- CELL_RETIRE_WRITE (R263). PID 1 writes CELL_RETIRE.RETIRE and the cell is retired as a PM fault. -/
  | cellRetireWrite (pid : Pid) (k : Fin 23) (c : Fin 512)
  /-- CELL_REARM (R264). PID 1 writes CELL_RETIRE.REARM and the retired cell is returned to service or the request is denied. -/
  | cellRearm (pid : Pid) (k : Fin 23) (c : Fin 512)
  /-- IRQ_SET (R73). A write to BLK_IRQ_SET sets the named block interrupt status bits for test. -/
  | irqSet (pid : Pid) (k : Fin 28) (v : Word)
  /-- CONFIG_LOCK (R76). BLK_LOCK.CFG_LOCK written 1 makes the covered registers read only until module reset. -/
  | configLock (pid : Pid) (k : Fin 28)
  /-- ERR_INJ_ARM (R274). PID 1 arms BLK_ERR_INJ to inject one fault of a class into a cell or block. -/
  | errInjArm (pid : Pid) (k : Fin 28) (c : Fin 4096) (cls : Fin 4)
  /-- ERR_INJ_TIMEOUT (R274). 1 ms passes after ARM without an operation and the fault is injected. -/
  | errInjTimeout (k : Fin 28)
  /-- LEVEL_DECAY_TICK (R262). The block's decay tick lowers every cell LEVEL above 0 by 1. -/
  | levelDecayTick (k : Fin 23)
  /-- HEARTBEAT_MISS (R271). A power die misses the FCU heartbeat for 5 µs and puts its channels into their safe state. -/
  | heartbeatMiss (d : Fin 4)
  /-- HEARTBEAT_RESUME (R271). The heartbeat is received again, the die reports an FT fault and the missed-heartbeat cause ends. -/
  | heartbeatResume (d : Fin 4)
  /-- SAFE_EXIT (R272). PID 1 writes MSU_SAFE_CTRL with the key and EXIT to leave the safe state, or the request is refused. -/
  | safeExit (pid : Pid) (key : Fin 256)
  /-- WDOG_KICK (R273). A write to MSU_WDOG_KICK is judged as a correct kick or an expiry. -/
  | wdogKick (pid : Pid) (w : Fin 4) (key : Fin 256)
  /-- WDOG_EXPIRY (R273). MAX_MS passes without a correct kick, the watchdog source becomes pending and the watchdog restarts. -/
  | wdogExpiry (i : Fin 4)
  /-- PROT_LOCK (R147). PID 0 sets MSU_PROT_LOCK: the set-up is checked and applied, triplets leave reset, PAR is enabled and FAULT_N is released. -/
  | protLock (pid : Pid)
  /-- PWR_STATE_REQUEST (R95). A write of MSU_PWR_STATE.REQ requests a power state and is refused or starts a transition. -/
  | pwrStateRequest (pid : Pid) (t : Fin 8)
  /-- TRANSITION_DONE (R96). A transition between Run and Reduced completes and REQ is set to the new STATE. -/
  | transitionDone
  /-- TRANSITION_LOADS_OFF (R97). The last channel of a power-down is off and the transition proceeds to the point of no return. -/
  | transitionLoadsOff (commit : Bool)
  /-- POWER_DOWN_COMPLETE (R97). The compute and PHY dice are powered down and Glade takes over in the target sleep state. -/
  | powerDownComplete (samples : List (Fin 1024)) (fail : Bool)
  /-- SUSPEND_MAX_EXPIRY (R96). PSM_CFG.SUSPEND_MAX minutes pass in Suspend and the module moves to Watch. -/
  | suspendMaxExpiry
  /-- DIE_ENABLE (R718). A write of PSM_DIE_EN enables a power die, which releases its gate-locks when conditions hold. -/
  | dieEnable (pid : Pid) (d : Fin 4)
  /-- SURGE_ENTER (R86). V_LOGIC rises above 18.5 V for 20 µs and surge handling begins. -/
  | surgeEnter
  /-- SURGE_EXIT (R86). V_LOGIC falls below 18.0 V for 1 ms and surge handling ends. -/
  | surgeExit
  /-- OV_LONG (R88). SURGE stays set for 400 ms and every channel is switched off through its clamp. -/
  | ovLong
  /-- OV_LONG_RELEASE (R88). SURGE has been clear for 100 ms and channels may return by the restart rules. -/
  | ovLongRelease
  /-- LOWV_ENTER (R87). V_LOGIC falls below 8.7 V for 100 µs: Canopy clock-stopped and U, X, G PHYs in low power. -/
  | lowvEnter
  /-- LOWV_EXIT (R87). V_LOGIC rises above 9.0 V for 1 ms: Canopy restarts and Ethernet links retrain. -/
  | lowvExit
  /-- BROWNOUT (R89). V_LOGIC falls below 6.0 V for 20 µs: channels off and the module held in reset except PSM and Glade. -/
  | brownout
  /-- BROWNOUT_RECOVERY (R89). V_LOGIC rises above 6.5 V for 1 ms and a cold boot with cause brown-out starts. -/
  | brownoutRecovery
  /-- RETENTION_LOSS (R89). V_LOGIC falls below RETAIN in Suspend or Watch and all retained state is discarded. -/
  | retentionLoss
  /-- POR_ASSERT (R89). V_LOGIC falls below the POR threshold and all state is lost. -/
  | porAssert
  /-- POWER_ON_RESET (R138). The rising crossing of POR resets the whole module and starts a cold boot. -/
  | powerOnReset
  /-- REVERSAL_END (R90). A supply reversal ends and the module starts as at power-on. -/
  | reversalEnd
  /-- KL30_LOST (R91). One logic supply falls below KL30_OK and a CE fault of PSM is reported. -/
  | kl30Lost (i : Fin 2)
  /-- KL30_RESTORED (R86). A logic supply rises above KL30_OK for 1 ms and its OK flag sets. -/
  | kl30Restored (i : Fin 2)
  /-- BAT_LOST (R91). A battery stud falls below BAT_OK and the channels of its two dice are held off. -/
  | batLost (i : Fin 2)
  /-- BAT_RESTORED (R91). A battery stud returns above BAT_OK and its dice accept commands again. -/
  | batRestored (i : Fin 2)
  /-- GND_LOSS (R91). Ground offset exceeds 1.0 V for 20 µs: MODULE_SAFE and every channel off until module reset. -/
  | gndLoss
  /-- WAKE_COMPARATOR_EVENT (R101). A WAKE, IGN or FL_WAKE comparator rises through its active level after its filter. -/
  | wakeComparatorEvent (i : Fin 10) (rise : Bool) (samples : List (Fin 1024)) (fail : Bool)
  /-- DS_MASK_REARM (R99). A masked Deep Standby wake source has been inactive for 1 ms and is armed again. -/
  | dsMaskRearm (i : Fin 10)
  /-- GLADE_SAMPLE_DUE (R113). An enabled Glade sample cell falls due and takes a wetted sample, updates its filter and state. -/
  | gladeSampleDue (c : Fin 32) (v : Fin 1024) (late : Bool) (fail : Bool)
  /-- GLADE_CONVERSION_TIMEOUT (R117). A Glade conversion does not complete within 40 µs and is a TR fault of the cell. -/
  | gladeConversionTimeout (c : Fin 32)
  /-- FLASH_TOGGLE (R124). A flashing slot reaches the end of its on or off phase and the channel toggles. -/
  | flashToggle (k : Fin 8)
  /-- MAX_ON_EXPIRY (R124). MAX_ON seconds pass since a slot's last start and Glade switches the channel off. -/
  | maxOnExpiry (k : Fin 8)
  /-- DLOAD_RETURN (R125). After a brown-out or stud loss clears and the gate passes, a slot that was on returns by itself. -/
  | dloadReturn (k : Fin 8)
  /-- GLADE_SERVICE_END (R125). Every designated channel is off with no start pending and Glade powers region P down. -/
  | gladeServiceEnd
  /-- WATCH_MAX_EXPIRY (R126). GLD_CFG.WATCH_MAX minutes pass in Watch and Glade enters Deep Standby. -/
  | watchMaxExpiry
  /-- GLADE_SEQ_WDOG (R110). The Glade sequencer does not refresh its watchdog within 100 ms and is reset alone. -/
  | gladeSeqWdog
  /-- WAKE_REASON_CLEAR (R136). Writing VALID = 1 to GLD_WAKE_REASON clears every field. -/
  | wakeReasonClear (pid : Pid)
  /-- GLD_WAKE_ACK (R129). A write to GLD_WAKE_ACK validates the current wake for VALIDATE 3. -/
  | gldWakeAck (pid : Pid)
  /-- VALIDATION_WINDOW_EXPIRY (R130). The validation window ends without a validating event and the source's false-wake count rises. -/
  | validationWindowExpiry
  /-- FW_DIS_CLEAR (R130). Writing 1 to a bit of GLD_FW_DIS_LO or _HI re-enables that source at once. -/
  | fwDisClear (pid : Pid) (hi : Bool) (v : Word)
  /-- GLADE_STORE_SAVE (R132). GLD_STORE_CTRL.SAVE written 1 starts writing both records to the older store copy. -/
  | gladeStoreSave (pid : Pid)
  /-- GLADE_SAVE_DONE (R132). A Glade store save completes and SAVE_RES reports the outcome. -/
  | gladeSaveDone (ok : Bool)
  /-- MODULE_RESET_RELEASE (R143). A module reset ends and hart 0 runs the boot ROM through verification of P0 to the jump. -/
  | moduleResetRelease (x : BootIn) (recA recB okA okB : Bool)
  /-- BOOT_TIMEOUT (R148). MSU_PROT_LOCK is not set within 500 ms of the jump to P0 and a module reset with cause 6 follows. -/
  | bootTimeout
  /-- SOFTWARE_RESET (R159). A write of MSU_RST_CTRL with key 0x5A and REQ starts a module reset with cause 5. -/
  | softwareReset (pid : Pid) (key : Fin 256)
  /-- DEBUG_RESET (R138). A debug non-debug-module reset while debug is unlocked starts a module reset with cause 7. -/
  | debugReset
  /-- LOOP_CNT_CLEAR (R141). 60 s in Run or Reduced since the lock without a module reset clears LOOP_CNT. -/
  | loopCntClear
  /-- PERST_ASSERT (R140). PE_PERST_N goes low and the PCIe link, configuration and host traffic are reset. -/
  | perstAssert
  /-- PERST_DEASSERT (R140). PE_PERST_N rises and the PCIe link trains again. -/
  | perstDeassert
  /-- TEST_ACCESS_RESET (R138). TRST_N low resets the J9 test access port. -/
  | testAccessReset
  /-- SLOT_WRITE (R173). VLT_SLOT_CTRL WRITE fills a slot from VLT_KEY_DATA. -/
  | slotWrite (pid : Pid) (slot : Fin 512)
  /-- SLOT_GENERATE (R173). VLT_SLOT_CTRL GENERATE fills a slot from the DRBG, re-keying a partition for slots 64 to 127. -/
  | slotGenerate (pid : Pid) (slot : Fin 512)
  /-- SLOT_DERIVE (R174). VLT_SLOT_CTRL DERIVE creates a child key by SP 800-108 from a parent slot. -/
  | slotDerive (pid : Pid) (slot : Fin 512)
  /-- SLOT_INVALIDATE (R175). VLT_SLOT_CTRL INVALIDATE advances a slot's GEN and starts or extends the purge pass. -/
  | slotInvalidate (pid : Pid) (slot : Fin 512)
  /-- SLOT_ERASE (R175). VLT_SLOT_CTRL ERASE erases a slot and advances its GEN. -/
  | slotErase (pid : Pid) (slot : Fin 512)
  /-- PURGE_VISIT (R176). The purge pass visits the next slot and zeroes it if it is an orphan. -/
  | purgeVisit
  /-- TRNG_HEALTH_FAIL (R164). A TRNG health test fails, restarting the start-up tests, and three in 1 s become a PM fault. -/
  | trngHealthFail
  /-- DRBG_RESEED (R162). The DRBG is reseeded after 65,536 requests or one second. -/
  | drbgReseed
  /-- LIFECYCLE_COMMAND (R166). A write of VLT_LC_CMD with key 0xA5 requests an unsigned lifecycle change. -/
  | lifecycleCommand (pid : Pid) (key : Fin 256) (target : Fin 8)
  /-- LIFECYCLE_FUSE_BLOWN (R166). A lifecycle fuse group is blown and the new state takes effect. -/
  | lifecycleFuseBlown
  /-- VLT_RING_DOORBELL (R179). A write of VLT_RING_TAIL makes new descriptors of a job ring available. -/
  | vltRingDoorbell (pid : Pid) (r : Fin 32) (tail : Fin 1024)
  /-- JOB_CIPHER (R181). A CIPHER job encrypts or decrypts data with a slot key. -/
  | jobCipher (bad : Bool := false)
  /-- JOB_MAC (R181). A MAC job computes or verifies a CMAC or HMAC tag. -/
  | jobMac (bad : Bool := false)
  /-- JOB_HASH (R181). A HASH job computes a digest. -/
  | jobHash
  /-- JOB_SIGN (R181). A SIGN job signs a message or digest with a slot key. -/
  | jobSign (bad : Bool := false)
  /-- JOB_VERIFY (R181). A VERIFY job checks a signature against a public key. -/
  | jobVerify (bad : Bool := false)
  /-- JOB_AGREE (R181). An AGREE job performs ECDH or ML-KEM and places the secret in a slot. -/
  | jobAgree (bad : Bool := false)
  /-- JOB_DERIVE (R174). A ring DERIVE job derives a child key into OUT_SLOT. -/
  | jobDerive (bad : Bool := false)
  /-- JOB_PUBKEY (R181). A PUBKEY job writes the public key of a private slot. -/
  | jobPubkey (bad : Bool := false)
  /-- JOB_RANDOM (R181). A RANDOM job writes DRBG output. -/
  | jobRandom
  /-- JOB_QUOTE (R184). A QUOTE job writes a signed quote of measurement registers. -/
  | jobQuote (bad : Bool := false)
  /-- JOB_AUTH (R169). An AUTH job checks an authorisation record and carries out its command. -/
  | jobAuth
  /-- JOB_ARB (R168). An ARB job raises an anti-rollback counter. -/
  | jobArb
  /-- JOB_OTP_AUTH (R181). An OTP_AUTH job programs an authority record in Manufacturing. -/
  | jobOtpAuth
  /-- JOB_ERASE (R181). A ring ERASE job erases a slot the ring owner owns. -/
  | jobErase
  /-- MEAS_EXTEND (R183). VLT_MEAS_CTRL.GO extends a measurement register with VLT_MEAS_DIG. -/
  | measExtend (pid : Pid) (m : Fin 16)
  /-- MEAS_R0_CLOSE (R183). VLT_MEAS_CTRL.R0_CLOSE closes measurement register 0 until module reset. -/
  | measR0Close (pid : Pid)
  /-- DEBUG_AUTH (R185). An authorisation record submitted through AUTH_CTRL on the debug port is checked. -/
  | debugAuth (op : DbgAuth)
  /-- HVPID_WRITE (R193). A write of the hvpid CSR selects the PID of a hart's VS-mode context; with no value, a read of it. -/
  | hvpidWrite (h : Fin 12) (mode : Fin 5) (v : Option (BitVec 64))
  /-- SPEC_BAR (R197). The SPEC.BAR instruction waits until every earlier instruction has retired. -/
  | specBar (h : Fin 12)
  /-- CBO_FLUSH (R194). A cache-block management instruction completes once the line is in the DRAM controller's queue. -/
  | cboFlush (h : Fin 12) (addr : BitVec 64)
  /-- CLUSTER_CLOCK_CHANGE (R189). A write of CNP_CLU_CLK starts a cluster frequency change. -/
  | clusterClockChange (pid : Pid) (k : Fin 3) (v : Word)
  /-- CLOCK_CHANGE_DONE (R189). A cluster frequency change ends and CLK_DONE is raised. -/
  | clockChangeDone (k : Fin 3)
  /-- HART_RUN (R213). A bit of CNP_HART_EN written 1 starts a hart from its vector, or holds it in Reduced. -/
  | hartRun (pid : Pid) (h : Fin 12)
  /-- HART_STOP (R213). A bit of CNP_HART_EN written 0 stops the hart at its next instruction boundary. -/
  | hartStop (pid : Pid) (h : Fin 12)
  /-- PAGE_RETIRE_DONE (R205). A page copy ends, the spare mapping is entered and RETIRED is raised. -/
  | pageRetireDone
  /-- SCRUB_STEP (R204). The patrol scrub reads its next line, correcting and reporting errors. -/
  | scrubStep (ecc : Fin 3)
  /-- REKEY_DONE (R209). A partition key swap in the DRAM controller completes. -/
  | rekeyDone
  /-- IW_VOTE (R223). The voter and comparator judge the three copies of a core output in one vote cycle. -/
  | iwVote (x : Fin 2) (v : Fin 5) (c : Fin 5) (part : Fin 5) (tcm : Option (Fin 131072 × Bool))
  /-- RESYNC_DONE (R224). A resynchronisation or re-arm completes and the first three-core vote is taken. -/
  | resyncDone (x : Fin 2) (ok : Bool)
  /-- IW_CORE_RETIRE_CMD (R225). A write of IWx_CORE_CTRL.RETIRE retires a core, or is refused. -/
  | iwCoreRetireCmd (pid : Pid) (x : Fin 2) (k : Fin 3)
  /-- IW_CORE_REARM (R226). A write of IWx_CORE_CTRL.REARM returns a retired core, or is refused. -/
  | iwCoreRearm (pid : Pid) (x : Fin 2) (k : Fin 3)
  /-- IW_DECAY_TICK (R225). The triplet decay tick lowers each core level above 0 by 1. -/
  | iwDecayTick (x : Fin 2)
  /-- VOTER_SELFTEST_INJECT (R229). The 10 ms tick injects a deliberate mismatch into the voter and comparator rails. -/
  | voterSelftestInject (x : Fin 2) (ok : Bool)
  /-- STARTUP_SELFTEST_DONE (R231). The start-up self-test ends and the triplet starts in the configuration its results allow. -/
  | startupSelftestDone (x : Fin 2) (fails : Fin 8)
  /-- TRIPLET_RESTART (R231). PID 1 writes SOFT_RST of IWx and the triplet restarts with a self-test. -/
  | tripletRestart (pid : Pid) (x : Fin 2)
  /-- IRQ_CLAIM (R233). A read of IWx_IRQ_CLAIM returns and masks the lowest pending enabled source. -/
  | irqClaim (pid : Pid) (x : Fin 2) (c : Fin 2)
  /-- IRQ_COMPLETE (R233). A write of a claimed number to IWx_IRQ_CLAIM unmasks that source. -/
  | irqComplete (pid : Pid) (x : Fin 2) (c : Fin 2) (n : Fin 256)
  /-- MACHINE_TIMER_INTERRUPT (R234). Device time reaches IWx_TIMECMP and the core's timer interrupt is asserted. -/
  | machineTimerInterrupt (x : Fin 2) (c : Fin 2)
  /-- IW_DMA_START (R235). IWx_DMA_CTRL.GO starts a DMA channel copying LEN bytes. -/
  | iwDmaStart (pid : Pid) (x : Fin 2) (ch : Fin 4) (irq : Bool)
  /-- IW_DMA_DONE (R235). A DMA channel ends, done or in error. -/
  | iwDmaDone (x : Fin 2) (ch : Fin 4)
  /-- DEBUG_HALT (R691). A debug halt request stops a hart, split core or whole voted triplet. -/
  | debugHalt (t : Fin 18)
  /-- DEBUG_RESUME (R691). A halted core resumes; a voted triplet must rejoin the pair. -/
  | debugResume (t : Fin 18)
  /-- CYCLE_BOUNDARY (R240). A control cycle boundary: snapshot latched, a vector applied or not, pair state decided. -/
  | cycleBoundary (ok : Fin 32)
  /-- SNAPSHOT_READY (R241). The input snapshot is written into both TCMs and SNAP_READY is raised. -/
  | snapshotReady
  /-- COMPARE_POINT (R243). CMP_LEAD before a boundary, PAR reads, grades and compares both vectors. -/
  | comparePoint
  /-- MM_DECAY_TICK (R249). MM_DECAY cycles pass and the mismatch level falls by 1. -/
  | mmDecayTick
  /-- ST_UNIT_START (R247). The standby's vector is complete and a self-test unit starts, or the cycle counts as skipped. -/
  | stUnitStart (go : Bool)
  /-- ST_UNIT_END (R247). A self-test slice and march complete and the progress counters advance. -/
  | stUnitEnd (slice : Bool) (march : Bool)
  /-- CHANNEL_COMMAND (R281). A write of LSW_CH_CMD replaces a channel's command subject to its condition. -/
  | channelCommand (pid : Pid) (g : Fin 64) (w : Word)
  /-- CHANNEL_CONFIG_WRITE (R286). A write changing MODE or PAIR is accepted only while the channel is not active. -/
  | channelConfigWrite (pid : Pid) (g : Fin 64) (w : Word)
  /-- PWM_PERIOD_START (R289). Device time reaches a channel's aligned PWM period start and its on-phase begins. -/
  | pwmPeriodStart (g : Fin 64) (t : Nat)
  /-- PWM_ON_PHASE_END (R281). The on-time of a PWM period ends and the channel switches off for the off-phase. -/
  | pwmOnPhaseEnd (g : Fin 64) (t : Nat) (uj : Nat)
  /-- MOTOR_RAMP_STEP (R287). Each millisecond a Motor channel's effective duty moves by at most RAMP. -/
  | motorRampStep (g : Fin 64)
  /-- MOTOR_START_WINDOW_END (R287). START_MS passes and the motor start window closes. -/
  | motorStartWindowEnd (g : Fin 64)
  /-- VALVE_PEAK_END (R288). The valve peak phase ends on PEAK_I or PEAK_MS and hold PWM follows. -/
  | valvePeakEnd (g : Fin 64)
  /-- CURRENT_SAMPLE (R293). A channel takes a current sample and compares it for overcurrent and limit. -/
  | currentSample (g : Fin 64) (x : LoadSample)
  /-- CHANNEL_PUBLISH (R295). PERIOD_MS passes and a channel publishes current, voltage and temperature as signals. -/
  | channelPublish (g : Fin 64)
  /-- BOUND_SIGNAL_UPDATE (R296). A bound signal update reaches the die and replaces the channel command. -/
  | boundSignalUpdate (g : Fin 64)
  /-- BIND_TIMEOUT (R297). TO_MS passes without an accepted update and TO_ACT applies. -/
  | bindTimeout (g : Fin 64)
  /-- GOVERNOR_EVAL (R298). Every 100 µs the governor sums accounted currents and restores at most one channel. -/
  | governorEval
  /-- GOVERNOR_OVERRUN_SHED (R300). A sum stays above its budget for OVR_MS and one channel is shed. -/
  | governorOverrunShed (b : Fin 3)
  /-- TURN_OFF_COMPLETE (R303). A channel's current falls below 1 % or its soft ramp ends, reaching the element boundary. -/
  | turnOffComplete (g : Fin 64) (uj : Nat) (vClamp : Nat) (tNs : Nat)
  /-- LIMIT_TIME_TRIP (R309). Time in current limit reaches its allowance and the channel trips. -/
  | limitTimeTrip (g : Fin 64)
  /-- WIRE_MODEL_STEP (R312). Every 1 ms the wire model updates the modelled wire temperature. -/
  | wireModelStep (g : Fin 64)
  /-- THERMAL_SHUTDOWN (R316). Junction temperature reaches 175 °C and the channel switches off and latches. -/
  | thermalShutdown (g : Fin 64)
  /-- THERMAL_LATCH_CLEAR (R317). A thermal latch cause clears by cooling. -/
  | thermalLatchClear (g : Fin 64) (wire : Bool)
  /-- DIE_TEMP_CHANGE (R318). T_DIE crosses DIE_WARN or DIE_SHED with hysteresis. -/
  | dieTempChange (d : Fin 4) (t : Fin 256)
  /-- DIE_SHED_STEP (R318). Each 1 ms at or above DIE_SHED, one conducting channel is shed. -/
  | dieShedStep (d : Fin 4)
  /-- DIE_UV_SET (R319). The stud voltage is below UV for 10 µs and window timers pause. -/
  | dieUvSet (d : Fin 4)
  /-- DIE_UV_CLEAR (R319). The stud voltage is above UV + 0.5 V for 100 µs and UV clears. -/
  | dieUvClear (d : Fin 4)
  /-- CLAMP_BUDGET_EXCEEDED (R321). The integrated clamp energy reaches the budget before the current decays. -/
  | clampBudgetExceeded (g : Fin 64)
  /-- SOFT_RAMP_HOT (R323). Tj reaches 165 °C during a soft ramp and the slope doubles. -/
  | softRampHot (g : Fin 64)
  /-- REPETITIVE_CLAMP_TRIP (R325). E_rep exceeds its limit, or an off-edge exceeds the budget, and the channel trips with cause 5. -/
  | repetitiveClampTrip (g : Fin 64)
  /-- RETRY_DELAY_EXPIRY (R326). A tripped channel's retry delay ends and it restarts or enters a cooling wait. -/
  | retryDelayExpiry (g : Fin 64)
  /-- RETRY_BUDGET_REFILL (R326). RETRY_CLR_MS of conduction after a restart refills RETRY_LEFT. -/
  | retryBudgetRefill (g : Fin 64)
  /-- COOL_WAIT_EXPIRY (R327). COOL_MAX passes in a cooling wait and the cell is retired. -/
  | coolWaitExpiry (g : Fin 64)
  /-- OFFSTATE_TEST_START (R341). The die firmware starts a due off-state test by connecting the pull-up source. -/
  | offstateTestStart (g : Fin 64) (t : Nat)
  /-- OFFSTATE_TEST_DONE (R337). An off-state test completes with a result and verdicts update. -/
  | offstateTestDone (g : Fin 64) (v : Fin 4096)
  /-- OLON_DETECT (R343). The on-state current stays below OLON_I for OLON_T and OLON sets. -/
  | olonDetect (g : Fin 64)
  /-- OLON_CLEAR (R343). Writing 1 to a latched OLON while current is at or above OLON_I clears it. -/
  | olonClear (pid : Pid) (g : Fin 64)
  /-- LAMP_COMP_UPDATE (R346). Every 100 µs EFF_DUTY is recomputed for supply compensation. -/
  | lampCompUpdate (g : Fin 64)
  /-- INRUSH_WINDOW_END (R347). INR_MS passes and a Lamp channel's inrush window closes. -/
  | inrushWindowEnd (g : Fin 64)
  /-- DG_FW_STOP (R341). The die firmware stops or fails its check and off-state tests cease. -/
  | dgFwStop (d : Fin 4)
  /-- SNI_SAMPLE_DUE (R354). A sense input falls due and is sampled, filtered and its STATE updated. -/
  | sniSampleDue (n : Fin 48) (raw : Fin 4096) (late : Bool)
  /-- SNI_CONV_TIMEOUT (R355). A conversion does not complete within 20 µs and is a TR fault. -/
  | sniConvTimeout (n : Fin 48)
  /-- SNI_PUBLISH (R360). An input publishes its word as a signal periodically or on change. -/
  | sniPublish (n : Fin 48)
  /-- SNI_CONFIG_WRITE (R361). A write of input configuration takes effect at the next due sample and may restart the filter. -/
  | sniConfigWrite (pid : Pid) (n : Fin 48) (r : Fin 4) (w : Word)
  /-- CAN_INTEGRATED (R369). An enabled CAN channel sees 11 recessive bits and joins the bus. -/
  | canIntegrated (c : Fin 16)
  /-- CAN_TXBUF_REQUEST (R370). Writing CAN_TXBUF_GO makes dedicated buffers pending. -/
  | canTxbufRequest (pid : Pid) (c : Fin 16) (v : Word)
  /-- CAN_TXBUF_CANCEL (R372). Writing CAN_TXBUF_STOP cancels dedicated buffers. -/
  | canTxbufCancel (pid : Pid) (c : Fin 16) (v : Word)
  /-- CAN_ARBITRATION (R370). At an arbitration opportunity the channel offers its highest-priority pending element. -/
  | canArbitration (c : Fin 16) (ecc : Fin 3) (word : Nat)
  /-- CAN_TX_SUCCESS (R376). A transmitted frame is acknowledged and its element ends SENT. -/
  | canTxSuccess (c : Fin 16) (dly : Option (Fin 128))
  /-- CAN_TX_ERROR (R373). A transmission attempt ends in error or lost arbitration, consuming a retry. -/
  | canTxError (c : Fin 16) (e : Option CanError) (dly : Option (Fin 128))
  /-- CAN_BO_DELAY_EXPIRY (R379). BO_DELAY_MS passes with AUTO = 1 and recovery starts. -/
  | canBoDelayExpiry (c : Fin 16)
  /-- CAN_RECOVER (R379). A write of CAN_BO_CTRL.RECOVER starts recovery from bus-off. -/
  | canRecover (pid : Pid) (c : Fin 16)
  /-- CAN_RECOVERY_DONE (R379). The 128th 11-recessive-bit sequence ends recovery and the channel is error-active. -/
  | canRecoveryDone (c : Fin 16)
  /-- CAN_BO_DISCARD_WRITE (R378). A write setting DISCARD during bus-off ends every pending element. -/
  | canBoDiscardWrite (pid : Pid) (c : Fin 16)
  /-- CAN_ERROR_DETECTED (R375). A received frame ends in error and the error counters change. -/
  | canErrorDetected (c : Fin 16) (e : CanError) (exc : Bool)
  /-- CAN_DOM_TIMEOUT (R382). The TXD dominant time-out releases the bus and is a TR fault. -/
  | canDomTimeout (c : Fin 16)
  /-- CAN_TS_WRAP (R383). CAN_TS_CNT wraps to 0 and TS_WRAP is raised. -/
  | canTsWrap (c : Fin 16)
  /-- CAN_TS_SYNC (R383). A write of CAN_TS_SYNC zeroes the counters of the named channels. -/
  | canTsSync (pid : Pid) (v : Fin 65536)
  /-- CAN_ARB_FIELD_FILTER (R393). A received frame's arbitration field is complete and the filter list decides its action. -/
  | canArbFieldFilter (c : Fin 16) (f : CanFrame) (ago : Nat) (ecc : Fin 3) (word : Nat)
  /-- CAN_FRAME_VALID (R396). A received frame becomes valid and is stored, passed to the router or discarded. -/
  | canFrameValid (c : Fin 16) (data : List Byte)
  /-- CAN_LOCK_READ (R397). A read of word 0 of a get element or new buffer locks it. -/
  | canLockRead (pid : Pid) (c : Fin 16) (sec : Fin 4) (buf : Fin 64)
  /-- CAN_RELEASE_READ (R397). A read of the last word by the locking PID releases and advances. -/
  | canReleaseRead (pid : Pid) (c : Fin 16) (sec : Fin 4) (buf : Fin 64)
  /-- CAN_LOCK_TIMEOUT (R398). A lock lasts TO_US and is dropped without advancing. -/
  | canLockTimeout (c : Fin 16) (sec : Fin 4)
  /-- CAN_RX_RELEASE (R398). A write of CAN_RX_RELEASE releases or consumes a target. -/
  | canRxRelease (pid : Pid) (c : Fin 16) (ack : Bool) (target : Fin 4) (buf : Fin 64)
  /-- CAN_RXBUF_NEW_CLEAR (R398). Writing 1 to CAN_RXBUF_NEW acts as a release with ACK of that buffer. -/
  | canRxbufNewClear (pid : Pid) (c : Fin 16) (hi : Bool) (v : Word)
  /-- CAN_TXQ_PUSH (R400). A write of CAN_TXQ_PUSH makes the queue slot at PUT pending. -/
  | canTxqPush (pid : Pid) (c : Fin 16)
  /-- CAN_TXQ_CANCEL (R400). A write of CAN_TXQ_STOP cancels queue slots. -/
  | canTxqCancel (pid : Pid) (c : Fin 16) (v : Word)
  /-- LIN_SLOT_START (R410). A master's schedule slot starts and its header is sent. -/
  | linSlotStart (n : Fin 12) (bad : Bool)
  /-- LIN_HEADER_RECEIVED (R407). A slave receives a break, sync and protected identifier. -/
  | linHeaderReceived (n : Fin 12) (sync : Bool) (pid : Fin 256) (bad : Bool)
  /-- LIN_FRAME_END (R411). A LIN frame ends with a result and the frame table entry is updated. -/
  | linFrameEnd (n : Fin 12) (res : Fin 7) (data : List Byte)
  /-- LIN_RESPONSE_TIMEOUT (R411). The response timeout elapses and the frame ends with no or incomplete response. -/
  | linResponseTimeout (n : Fin 12) (any : Bool)
  /-- LIN_SCHED_RUN (R410). A write of LIN_SCHED_CTRL.RUN starts or stops the schedule. -/
  | linSchedRun (pid : Pid) (n : Fin 12) (run : Bool) (start : Fin 64)
  /-- LIN_SCHED_SWITCH (R410). LIN_SCHED_CTRL.SWITCH makes NEXT the first entry from the end of the slot. -/
  | linSchedSwitch (pid : Pid) (n : Fin 12) (next : Fin 64)
  /-- LIN_SLEEP (R414). LIN_CH_CTRL.SLEEP puts the channel to sleep at the end of the frame. -/
  | linSleep (pid : Pid) (n : Fin 12)
  /-- LIN_WAKE_TX (R414). LIN_CH_CTRL.WAKE_TX sends a 1 ms wake pulse and leaves sleep. -/
  | linWakeTx (pid : Pid) (n : Fin 12)
  /-- LIN_WAKE_PULSE (R414). A sleeping channel recognises a wake pulse and leaves sleep. -/
  | linWakePulse (n : Fin 12) (fail : Bool)
  /-- LIN_IDLE_4S (R414). A slave's bus has been recessive for 4 s and IDLE_4S is raised. -/
  | linIdle4s (n : Fin 12)
  /-- LIN_WAKE_HOLD_END (R414). 100 ms after a wake pulse the master resumes its schedule at START. -/
  | linWakeHoldEnd (n : Fin 12)
  /-- LIN_DOM_TIMEOUT (R413). The TXD dominant time-out releases the bus and is a TR fault. -/
  | linDomTimeout (n : Fin 12)
  /-- LIN_BUS_STUCK (R413). The bus is held dominant for 100 ms and a TR fault is reported. -/
  | linBusStuck (n : Fin 12)
  /-- ETH_LINK_CHANGE (R418). A port's link goes up or down and LINK_CHG is raised. -/
  | ethLinkChange (p : Fin 20) (up : Bool) (master : Bool) (sqi : Fin 8) (capable : Bool) (twMin : Fin 16384)
  /-- ETH_FRAME_RX (R420). A received frame passes or fails the MAC checks and MACsec verification. -/
  | ethFrameRx (p : Fin 25) (f : List Byte) (phyErr : Bool) (fcsErr : Bool) (ago : Nat) (ce : Bool) (saBad : Option (Fin 20))
  /-- ETH_DROP_INTERVAL (R421). A 1 ms interval ends with at least DROP_TH drops and DROP_TH is raised. -/
  | ethDropInterval (p : Fin 25)
  /-- MAC_TX_START (R423). A MAC takes its next copy and starts sending once its start threshold is reached. -/
  | macTxStart (p : Fin 25) (fail : Fin 6) (ago : Nat)
  /-- MAC_UNDERRUN (R424). A byte to send is missing and the frame ends with an inverted FCS. -/
  | macUnderrun (p : Fin 25) (late : Nat)
  /-- TX_THR_WRITE (R423). A write of ETP_TX_THR.START sets CUR. -/
  | txThrWrite (pid : Pid) (p : Fin 25) (step : Fin 256) (start : Fin 256)
  /-- C_TX_TAIL_WRITE (R426). A write of ETP_QTX_TAIL hands new TX descriptors to a C port ring. -/
  | cTxTailWrite (pid : Pid) (p : Fin 2) (q : Fin 8) (tail : Fin 4096)
  /-- C_PORT_SEND (R427). A C port send is read, segmented, checksummed and written back. -/
  | cPortSend (x : Fin 2) (stop : Fin 3) (n : Nat)
  /-- C_RX_TAIL_WRITE (R431). A write of ETP_QRX_TAIL adds RX descriptors and lets waiting frames flow. -/
  | cRxTailWrite (pid : Pid) (p : Fin 2) (q : Fin 8) (tail : Fin 4096)
  /-- LPI_ENTER (R432). The transmit side is idle for IDLE_US and enters low-power idle. -/
  | lpiEnter (p : Fin 18)
  /-- LPI_EXIT (R432). A frame wakes the PHY and is sent after TW_TX_US. -/
  | lpiExit (p : Fin 18)
  /-- MACSEC_SA_ENABLE (R434). SA_EN written 1 asks the vault to load the SA key. -/
  | macsecSaEnable (pid : Pid) (p : Fin 25) (e : Fin 20) (slot : Fin 512)
  /-- PHY_FW_STOP (R437). The PHY firmware stops and every U, X and G link goes down. -/
  | phyFwStop
  /-- SWITCH_DECISION (R445). The switch decides a frame's outputs, TC, colour and plane once at ingress. -/
  | switchDecision (p : Fin 25) (head : List Byte) (ecc : Option (Nat × Nat)) (ce : Bool)
  /-- CELL_TIME_MATCH (R447). Each 20 ns cell time a plane matches inputs to outputs and moves cells. -/
  | cellTimeMatch (plane : Fin 2)
  /-- PMAP_WRITE (R449). A write to SWC_PMAP or SWC_HASH_CFG sets PENDING. -/
  | pmapWrite (pid : Pid) (j : Fin 9) (v : Word)
  /-- PMAP_APPLY (R449). No staged cell of an older decision remains and the new map applies. -/
  | pmapApply
  /-- TBL_READ (R451). A read command returns a table entry. -/
  | tblRead (pid : Pid) (table : Fin 16) (index : Fin 65536)
  /-- TBL_WRITE (R459). A write command stores or holds a table entry and may advance the version. -/
  | tblWrite (pid : Pid) (table : Fin 16) (index : Fin 65536) (hold : Bool)
  /-- TBL_DELETE (R459). A delete command removes or holds removal of a table entry. -/
  | tblDelete (pid : Pid) (table : Fin 16) (index : Fin 65536) (hold : Bool)
  /-- TBL_SEARCH (R451). A search command finds an FDB entry by key. -/
  | tblSearch (pid : Pid) (table : Fin 16) (index : Fin 65536)
  /-- FDB_AGE_OUT (R450). A dynamic FDB entry unused for AGE_S is removed. -/
  | fdbAgeOut (i : Fin 32768)
  /-- WRED_AVG_TICK (R454). Every 1 µs an empty queue's WRED average is updated. -/
  | wredAvgTick (p : Fin 25) (t : Fin 8)
  /-- QUEUE_HOLD_EXPIRY (R456). Copies held HOLD_MS after link loss are discarded. -/
  | queueHoldExpiry (p : Fin 25)
  /-- GATE_FIT_DROP (R456). A head copy has not fitted its gate for a full cycle and is discarded. -/
  | gateFitDrop (p : Fin 25) (t : Fin 8)
  /-- SWC_DRAIN_REQUEST (R461). A write of SWC_DRAIN_CTRL.REQ starts a drain barrier. -/
  | swcDrainRequest (pid : Pid) (tmo : Fin 65536)
  /-- SWC_DRAIN_DONE (R461). No older frame remains and the switch barrier ends with DONE. -/
  | swcDrainDone
  /-- SWC_DRAIN_TIMEOUT (R461). TO_MS passes and the switch barrier ends with TIMEOUT. -/
  | swcDrainTimeout
  /-- GCL_CHANGE_REQUEST (R462). SWC_GCL_CTRL.CHANGE fixes a change time and sets PENDING. -/
  | gclChangeRequest (pid : Pid) (p : Fin 25)
  /-- GCL_CHANGE (R462). Device time reaches the change time and the gate list banks swap. -/
  | gclChange (p : Fin 25)
  /-- GCL_ENTRY_ADVANCE (R462). A gate list entry's interval or cycle ends and the next gate state applies. -/
  | gclEntryAdvance (p : Fin 25)
  /-- TMB_RATE_WRITE (R468). A write of TMB_RATE changes the rate of device time. -/
  | tmbRateWrite (pid : Pid) (v : Word)
  /-- TMB_ADJ_WRITE (R469). A write of TMB_ADJ starts, replaces or ends a slew. -/
  | tmbAdjWrite (pid : Pid) (v : Word)
  /-- SLEW_DONE (R469). The slew offset is used up and SLEW_DONE is raised. -/
  | slewDone
  /-- TMB_STEP (R470). TMB_STEP_CTRL.GO adds the step offset to device time. -/
  | tmbStep (pid : Pid)
  /-- DIE_TIME_UPDATE (R473). Every 1 µs device time is sent to each powered die. -/
  | dieTimeUpdate (got : Fin 16)
  /-- DIE_UNSYNC (R473). A die misses 4 updates, runs on alone and reports a TR fault. -/
  | dieUnsync (d : Fin 4)
  /-- TS_POP (R475). A write of TMB_TS_POP discards the head stamp. -/
  | tsPop (pid : Pid)
  /-- PTP_TX (R476). TMB_PTP_TX.GO injects an event message into TC 7 of a port. -/
  | ptpTx (pid : Pid) (port : Fin 32) (len : Fin 256)
  /-- PPS_PULSE (R477). Device time reaches a whole second and the driving module raises FL_SYNC. -/
  | ppsPulse
  /-- PPS_PULSE_END (R477). 10 ms after its rise the module releases FL_SYNC. -/
  | ppsPulseEnd
  /-- PPS_CAPTURE (R478). A rising edge of FL_SYNC is captured and, with FOLLOW, corrected by slew. -/
  | ppsCapture
  /-- CAN_CAPTURE (R479). TMB_CAN_CAP.GO captures a CAN counter and device time together. -/
  | canCapture (pid : Pid) (ch : Fin 16)
  /-- CAN_CAPTURE_AUTO (R479). AUTO_MS passes and the capture is repeated. -/
  | canCaptureAuto
  /-- PDU_INGRESS (R487). A PDU from CAN, LIN or port SR enters the router and is classified, extracted and checked. -/
  | pduIngress (commit : Option Nat) (ecc : Option Nat) (ce : Bool)
  /-- PDU_RX_TIMEOUT (R497). TIME_MS passes without a written PDU and every field's signal becomes STALE. -/
  | pduRxTimeout (d : Fin 65536)
  /-- SIG_WRITE (R501). A write of SRT_SIG_WR turns the staged value into a signal update. -/
  | sigWrite (pid : Pid) (addr : Fin 2147483648)
  /-- SIG_READ (R501). A write of SRT_SIG_RD_ADDR starts a read of a store slot. -/
  | sigRead (pid : Pid) (addr : Fin 2147483648)
  /-- CYCLIC_SEND_DUE (R502). TIME_MS passes and a cyclic transmit descriptor falls due. -/
  | cyclicSendDue (d : Fin 65536)
  /-- MIN_GAP_END (R502). MIN_GAP ends and a held send is built. -/
  | minGapEnd (d : Fin 65536)
  /-- HELD_SEND_RELEASE (R503). A destination queue slot or buffer frees and the held send is delivered. -/
  | heldSendRelease (d : Fin 65536)
  /-- SR_BUNDLE_EXPIRY (R488). BUNDLE_US passes and the bundled SR frame is sent. -/
  | srBundleExpiry
  /-- SRT_KEY_ENABLE (R495). SRT_KEY EN written 1 loads a MAC key from the vault. -/
  | srtKeyEnable (pid : Pid) (i : Fin 64) (slot : Fin 512)
  /-- REMOTE_SIGNAL_IN (R498). A signal update from another device enters the router as a direct write. -/
  | remoteSignalIn (pid : Pid) (addr : Fin 2147483648) (v : Nat)
  /-- SHD_PUT (R524). A write of SRT_SHD_PUT stages an entry in the fill bank. -/
  | shdPut (pid : Pid)
  /-- SHD_CLEAR (R524). A write of SRT_SHD_CLEAR empties the fill bank. -/
  | shdClear (pid : Pid)
  /-- EPOCH_COMMIT (R525). SRT_EPOCH.COMMIT seals the fill bank and sets PENDING. -/
  | epochCommit (pid : Pid)
  /-- EPOCH_TAKES_EFFECT (R525). At a PDU boundary the epoch advances and the sealed bank starts applying. -/
  | epochTakesEffect
  /-- BANK_APPLY_DONE (R526). The last entry of an applying bank is written and APPLY_DONE is raised. -/
  | bankApplyDone
  /-- SRT_DRAIN_REQUEST (R529). A write of SRT_DRAIN_CTRL.REQ starts an epoch barrier. -/
  | srtDrainRequest (pid : Pid) (tmo : Fin 65536)
  /-- SRT_DRAIN_DONE (R529). No older update remains and the router barrier ends with DONE. -/
  | srtDrainDone
  /-- SRT_DRAIN_TIMEOUT (R529). TO_MS passes and the router barrier ends with TIMEOUT. -/
  | srtDrainTimeout
  /-- RC_PRELOAD (R526). SRT_RC_PRELOAD.GO starts filling route cache entries. -/
  | rcPreload (pid : Pid) (start : Fin 33554432)
  /-- RC_PRELOAD_DONE (R526). A preload ends and PRELOAD_DONE is raised. -/
  | rcPreloadDone
  /-- RC_INVALIDATE (R526). A write of SRT_RC_INV empties the route cache. -/
  | rcInvalidate (pid : Pid)
  /-- RT_READ (R538). A write of SRT_RT_RD_GSID reads the route entry in force. -/
  | rtRead (pid : Pid) (gsid : Fin 33554432)
  /-- NM_MSG_CYCLE (R542). MSG_CYCLE_MS passes and an NM PDU is sent. -/
  | nmMsgCycle (c : Fin 36)
  /-- NM_REPEAT_EXPIRY (R544). REPEAT_MS passes in Repeat Message and the channel moves to Normal or Ready. -/
  | nmRepeatExpiry (c : Fin 36)
  /-- NM_TIMER_EXPIRY (R544). The NM timer expires in Ready and the channel enters Prepare Sleep. -/
  | nmTimerExpiry (c : Fin 36)
  /-- NM_WAIT_SLEEP_EXPIRY (R544). WAIT_SLEEP_MS passes and the channel enters Bus-Sleep. -/
  | nmWaitSleepExpiry (c : Fin 36)
  /-- NM_SW_REQUEST (R544). A write of NMC_CH_REQ.SW sets or clears the local request. -/
  | nmSwRequest (pid : Pid) (c : Fin 36) (on : Bool)
  /-- NM_RMR_REQUEST (R544). NMC_CH_REQ.RMR moves a channel to Repeat Message. -/
  | nmRmrRequest (pid : Pid) (c : Fin 36)
  /-- NM_SAFE_REQUEST (R543). A write of NMC_CH_SREQ.SAFE sets or clears the safety request. -/
  | nmSafeRequest (pid : Pid) (c : Fin 36) (on : Bool)
  /-- T1_SLEEP_HANDSHAKE_FAIL (R546). A T1 partner does not complete the sleep handshake within 16 ms. -/
  | t1SleepHandshakeFail (p : Fin 18)
  /-- T1_PARTNER_SLEEP_REQ (R546). A T1 partner requests sleep and it is accepted or refused. -/
  | t1PartnerSleepReq (p : Fin 18)
  /-- SELECTIVE_WAKE (R547). A sleeping transceiver detects a wake-up pattern, wake-up frame or error count. -/
  | selectiveWake (c : Fin 8) (e : SwkEvent) (data : List Byte) (fail : Bool)
  /-- TRX_WAKE (R548). A transceiver wakes in Run or Reduced and the channel enters Repeat Message or Ready. -/
  | trxWake (c : Fin 36) (id : Option (Fin 4294967296)) (tx : Bool)
  /-- MAX_AWAKE_REACHED (R549). The awake counter reaches MAX_AWAKE and sources are ignored or logged. -/
  | maxAwakeReached (c : Fin 36)
  /-- IGN_CLEAR (R549). A write of NMC_CH_IGN_CLR empties the ignore list. -/
  | ignClear (pid : Pid) (c : Fin 36)
  /-- ISO_REQUEST (R555). PID 1 writes NMC_ISO_CTRL.ISO with the key and isolates the gateway. -/
  | isoRequest (pid : Pid) (key : Fin 256)
  /-- ISO_RELEASE (R555). PID 1 writes NMC_ISO_CTRL.REL with the key to release isolation. -/
  | isoRelease (pid : Pid) (key : Fin 256)
  /-- ISO_RELEASE3 (R555). A write of NMC_ISO_REL3 releases isolation when both triplets are split. -/
  | isoRelease3 (pid : Pid) (key : Fin 256)
  /-- NM_LOG_POP (R556). A write of NMC_LOG_POP discards the oldest log entry. -/
  | nmLogPop (pid : Pid)
  /-- FL_WAKE_DRIVE_END (R553). 1 ms after it began the FL_WAKE drive ends. -/
  | flWakeDriveEnd
  /-- FINZA_TRAINED (R565). A Finza port completes lock, deskew and credit initialisation and is Up. -/
  | finzaTrained (c : Fin 2) (width : Fin 3) (host : Bool) (isUp : Bool) (mode : Fin 4) (dev : Option (Fin 64))
  /-- FINZA_RETRAIN (R565). FLK_LINK_CTRL.RETRAIN or replay failure retrains the link. -/
  | finzaRetrain (pid : Pid) (c : Fin 2)
  /-- FINZA_TRAIN_TIMEOUT (R565). A retrain does not finish within 10 ms and the link goes Down. -/
  | finzaTrainTimeout (c : Fin 2)
  /-- FINZA_DOWN_RETRY (R565). Every 10 ms a Down link restarts lock seeking. -/
  | finzaDownRetry (c : Fin 2)
  /-- FINZA_WIDTH_RETRY (R565). Every 1 s a degraded link tries a full-width retrain. -/
  | finzaWidthRetry (c : Fin 2)
  /-- FINZA_PACKET_RX (R567). A Finza packet arrives and is accepted, forwarded, delivered or NAKed. -/
  | finzaPacketRx (c : Fin 2) (i : FinzaIn)
  /-- FINZA_REPLAY_TIMEOUT (R569). 2 µs pass without an ACK and the sender replays. -/
  | finzaReplayTimeout (c : Fin 2)
  /-- FINZA_RX_TIMEOUT (R569). A packet's bytes stop for RX_TO and it is dropped. -/
  | finzaRxTimeout (c : Fin 2)
  /-- ENUM_TAIL_TIMEOUT (R572). No module partner on DN within 10 ms and the module reports itself Tail. -/
  | enumTailTimeout
  /-- ENUM_RESTART (R572). FLK_ENUM_CTRL.START on the Head runs enumeration again. -/
  | enumRestart (pid : Pid)
  /-- FINZA_LINK_DOWN (R576). A chain link goes Down, reachable sets shrink and undeliverable packets are resolved. -/
  | finzaLinkDown (c : Fin 2)
  /-- CHAIN_READ_TIMEOUT (R577). A module's own chain read gets no completion within CPL_TO_US. -/
  | chainReadTimeout (tag : Fin 256)
  /-- TUNNEL_REASM_TIMEOUT (R578). A tunnel frame's next segment does not arrive within REASM_TO_US. -/
  | tunnelReasmTimeout (src : Fin 64)
  /-- TUNNEL_AGE_OUT (R578). A tunnel learning entry unused for AGE_S is removed. -/
  | tunnelAgeOut (mac : Fin 281474976710656) (bad : Bool)
  /-- SIDEBAND_IRQ_FALL (R579). FL_IRQ_N falls while the module does not drive it and SB_IRQ_SEEN is raised. -/
  | sidebandIrqFall
  /-- SIDEBAND_FAULT_LOW (R269). FL_FAULT_N is seen low while FAULT_N is released, a TR fault of the sideband unit. -/
  | sidebandFaultLow
  /-- HOST_WRITE (R593). A host posted write is accepted into the bridge queue and forwarded. -/
  | hostWrite (fn : Fin 64) (bar2 : Bool) (off : Fin 17179869184) (data : List Byte) (err : Fin 4)
  /-- HOST_READ (R593). A host read takes a tracker and is forwarded. -/
  | hostRead (fn : Fin 64) (bar2 : Bool) (off : Fin 17179869184) (len : Fin 4097) (atomic : Option (Fin 3 × List Byte)) (err : Fin 4)
  /-- HOST_READ_TIMEOUT (R599). A host read has no data after RD_TO_US and completes with Completer Abort. -/
  | hostReadTimeout (i : Nat) (barrier : Bool)
  /-- DEV_READ_TIMEOUT (R599). A module read towards the host has no completion after DEV_CPL_TO_US. -/
  | devReadTimeout (i : Nat)
  /-- WRITE_FAULT_RX (R594). A write-fault packet reports a failed posted write. -/
  | writeFaultRx (w0 : Word) (w1 : Word) (w2 : Word) (w3 : Word)
  /-- LOST_PACKET_RX (R576). A LOST management packet reports a write lost at a break. -/
  | lostPacketRx (instV : Bool) (inst : Fin 256) (wseq : Fin 65536)
  /-- WSYNC_BARRIER (R597). A read of a write-sync word starts a barrier over the initiator's posted writes. -/
  | wsyncBarrier (pid : Pid) (n : Fin 257)
  /-- WSYNC_DONE (R597). Every covered write is accounted for and the barrier returns its result. -/
  | wsyncDone (n : Fin 257)
  /-- BACKOFF_RETRY (R601). A withdrawn module request is presented again after its back-off. -/
  | backoffRetry (i : Nat)
  /-- SEM_TAKE (R602). A write of HBR_SEM.HELD takes a free semaphore. -/
  | semTake (pid : Pid) (i : Fin 64)
  /-- SEM_RELEASE (R602). The owner writes REL and frees the semaphore. -/
  | semRelease (pid : Pid) (i : Fin 64)
  /-- SEM_TIMEOUT (R602). A semaphore held for SEM_TO_US is freed. -/
  | semTimeout (i : Fin 64)
  /-- FUNCTION_LEVEL_RESET (R605). An FLR of the PF or a VF resets its traffic and instances. -/
  | functionLevelReset (fn : Fin 64)
  /-- INST_BIND (R611). A write of IOM_INST_BIND binds an instance after its checks. -/
  | instBind (pid : Pid) (n : Fin 256) (kind : Fin 16) (arg : Fin 16777216)
  /-- INST_REMOVE (R628). A write of KIND = 0 resets and unbinds an instance. -/
  | instRemove (pid : Pid) (n : Fin 256)
  /-- MB_SEND (R618). The owner writes IOM_IP_DB.SEND and the message goes to the manager. -/
  | mbSend (n : Fin 256)
  /-- MGR_ACK (R618). The manager writes IOM_INST_CTRL.ACK and the owner's mailbox frees. -/
  | mgrAck (pid : Pid) (n : Fin 256)
  /-- MGR_RING (R619). The manager writes IOM_INST_CTRL.RING and the message goes to the owner. -/
  | mgrRing (pid : Pid) (n : Fin 256)
  /-- MB_ACK (R619). The owner writes IOM_IP_DB.ACK and the manager's mailbox frees. -/
  | mbAck (n : Fin 256)
  /-- FUNC_DOORBELL (R616). A write of IOM_IP_FUNC_DB writes a ring tail of the bound function. -/
  | funcDoorbell (n : Fin 256) (v : Word)
  /-- FUNC_WINDOW_ACCESS (R615). An access to the function window is performed at its target with the instance's PID. -/
  | funcWindowAccess (n : Fin 256) (w : Fin 2048) (v : Option Word)
  /-- DELIVERY_UNMASK (R621). Clearing MASK of a delivery entry sends its pending vector. -/
  | deliveryUnmask (pid : Pid) (n : Fin 256) (k : Fin 4)
  /-- INST_RESET (R626). An instance reset begins and its bound function is resolved. -/
  | instReset (n : Fin 256)
  /-- INST_RESET_DONE (R627). The bound functions reach their boundary, mailboxes are zeroed and GEN increments. -/
  | instResetDone (n : Fin 256)
  /-- MIG_FREEZE (R637). FREEZE stops new work of an instance and waits for its element in flight. -/
  | migFreeze (pid : Pid) (n : Fin 256)
  /-- MIG_FROZEN (R637). The last bound function reaches its boundary and the instance is FROZEN. -/
  | migFrozen (n : Fin 256)
  /-- MIG_SAVE (R638). SAVE writes the Instance State Block. -/
  | migSave (pid : Pid) (n : Fin 256) (jrnl : Bool)
  /-- MIG_SAVE_DONE (R648). The ISB and any journal record are committed and the instance is SAVED. -/
  | migSaveDone
  /-- MIG_RESTORE (R641). RESTORE checks and applies an ISB to a bound instance. -/
  | migRestore (pid : Pid) (n : Fin 256)
  /-- MIG_RESUME (R642). RESUME releases a frozen or saved instance to RUNNING. -/
  | migResume (pid : Pid) (n : Fin 256)
  /-- MIG_LOG_ON (R644). LOG_ON starts dirty logging for the selected instance. -/
  | migLogOn (pid : Pid)
  /-- MIG_LOG_OFF (R635). LOG_OFF stops dirty logging once logged writes complete. -/
  | migLogOff (pid : Pid)
  /-- MIG_SWAP (R645). SWAP exchanges the dirty bitmap atomically. -/
  | migSwap (pid : Pid)
  /-- MIG_COPY (R646). COPY moves bytes to a device over the chain as bulk packets. -/
  | migCopy (pid : Pid)
  /-- MIG_COPY_DONE (R647). The closing zero-length read completes and COPY ends. -/
  | migCopyDone
  /-- MIG_RECOVER (R649). RECOVER copies the journalled ISB to IOM_MIG_BUF. -/
  | migRecover (pid : Pid)
  /-- UPD_OPEN (R664). OPEN checks chunk 0 of a container and starts receiving. -/
  | updOpen (pid : Pid)
  /-- UPD_CHUNK (R665). CHUNK checks and stages the next data chunk. -/
  | updChunk (pid : Pid)
  /-- RELAY_CHUNK_RX (R667). A relayed chunk from the UP partner is checked, staged and forwarded. -/
  | relayChunkRx
  /-- UPD_COMMIT (R672). COMMIT starts installing the staged parts in order. -/
  | updCommit (pid : Pid)
  /-- COMMIT_STEP_DONE (R672). One part's slot is written, verified and made active. -/
  | commitStepDone (res : Fin 3)
  /-- UPD_ABORT (R665). ABORT discards a receiving or staged container. -/
  | updAbort (pid : Pid)
  /-- UPD_FALLBACK (R676). FALLBACK in Trial restores the previous set of images. -/
  | updFallback (pid : Pid)
  /-- UPD_TXN_BEGIN (R680). TXN_BEGIN journals an open transaction. -/
  | updTxnBegin (pid : Pid)
  /-- UPD_TXN_END (R680). TXN_END closes the open transaction. -/
  | updTxnEnd (pid : Pid)
  /-- UPD_TXN_READ (R680). TXN_READ writes the open transaction's payload to the buffer. -/
  | updTxnRead (pid : Pid)
  /-- UPD_CONFIRM (R675). A write of MEM_UPD_CONFIRM confirms the trial once the required fields are set. -/
  | updConfirm (pid : Pid) (health : Bool) (safe : Bool)
  /-- CONFIRM_WINDOW_EXPIRY (R676). The confirmation window ends without confirmation and the module falls back. -/
  | confirmWindowExpiry
  /-- RT_REGULATOR_PERIOD (R53). Every RT_PERIOD microseconds a region's real-time regulator is refilled with RT_TOKENS units. -/
  | rtRegulatorPeriod (r : Fin 4)
  /-- FINZA_ACK_TIMER (R569). 256 ns after the last acknowledgement the receiver sends an ACK for the packets accepted in order. -/
  | finzaAckTimer (c : Fin 2)
  /-- PCIE_LINK_CHANGE (R605). The PCIe link goes down, takes a hot reset, or completes training and comes up, with LINK_CHG raised. -/
  | pcieLinkChange (up : Bool) (speed : Fin 5) (width : Fin 8)
  /-- CONFIGURATION_REQUEST (R708). A PCIe configuration request from the host is answered, with Retry Status before PHASE 3 or 4, and can enable VFs or change power state. -/
  | configurationRequest (fn : Fin 64) (numVf : Option (Fin 64)) (msix : Option Bool)
  /-- RX_LPI_CHANGE (R432). The link partner enters or leaves low-power idle, RX_LPI changes and LPI_CHG is raised. -/
  | rxLpiChange (p : Fin 18) (v : Bool)
  /-- T1_WAKE_SIGNALLING (R97). In Suspend, sleep/wake signalling on a T1 Ethernet port arrives as Glade source 22 and resumes the module. -/
  | t1WakeSignalling (p : Fin 18) (fail : Bool)
  /-- DIE_CLOCK_LOSS (R100). A power die's oscillator stops, CLK_OK clears and the die may no longer hold its gate-locks released. -/
  | dieClockLoss (d : Fin 4)
  deriving DecidableEq, Repr

end Sys2Proof
end

