-- ==== Sys2Proof/Config.lean ====
section
/-!
DEFINITION. The values the spec leaves open, as constants without a body, and the cryptographic functions whose
definition is another standard's. Nothing in Lean can evaluate them: a statement that mentions one holds for every value.
-/
namespace Sys2Proof.Config

/-- FREE VALUE. The n-th value the machine takes that the spec does not state (notes/assumptions/1.md). -/
opaque freeValue : Nat → BitVec 64

/-- The cryptographic algorithms of 07_vault_and_keys.md (R178) by name. -/
inductive Alg where
  | sha2 | sha3 | hmac | aesEcb | aesCbc | aesCtr | aesGcm | aesCmac | aesXts
  | ecdsa | ed25519 | mlDsa | ecdh | mlKem | publicKey
  deriving DecidableEq, Repr

/-- The byte string an algorithm computes from its mode number, its key bytes and its input bytes
(notes/assumptions/2.md: the algorithms are standards outside the spec). -/
opaque crypto : Alg → Nat → List Byte → List Byte → List Byte

/-- Whether an authentication tag or a signature verifies (notes/assumptions/2.md). -/
opaque verifies : Alg → Nat → List Byte → List Byte → List Byte → Bool

/-- FREE VALUE. A byte that a line of DRAM reads as under another key than the one it was written under (R209; notes/assumptions/80.md):
of the two keys, the line as written and the place in it. -/
opaque wrongKey : Nat → Nat → List Byte → Nat → Byte

/-- FREE VALUE. The digest of the protection set-up that measurement register 8 takes in (R150, R183): the spec does not state in which
order its registers are hashed (notes/assumptions/98.md). -/
opaque setupDigest : List (Nat × Nat) → List Byte

/-- What the unit was made with: the words of its serial number (R188), the digests of authority record 0 (R167) (notes/assumptions/14.md). -/
opaque unitSerial : Nat → BitVec 32
opaque haldoraDigest : Bool → List Byte

/-- The exponential decays of the spec's models, scaled by 2^32: `decay num den` stands for 2^32 · 2^(−num/den)
(notes/assumptions/3.md). -/
opaque decay : Nat → Nat → Nat

/-- The natural exponential of R314, scaled by 2^32: `expDecay num den` stands for 2^32 · e^(−num/den)
(notes/assumptions/3.md). -/
opaque expDecay : Nat → Nat → Nat

/-- FREE VALUE. The set of the tunnel's learning table that a MAC address falls in (R578: 1,024 entries of 4 ways, no set
function stated; notes/assumptions/1.md). -/
opaque tunnelSet : Nat → BitVec 8

/-- What the unit shipped with in its slots: the versions MIN and MAX of part `j` that part `i` accepts (R669; notes/assumptions/14.md). -/
opaque shippedCompat : Nat → Nat → Nat × Nat

end Sys2Proof.Config
end

