-- ==== Sys2Proof/Machine/RegTable.lean ====
section
/-!
DEFINITION. The register map: every register of every page with its fields, their access codes and reset values, from
the register tables of spec/ (02 to 29), and the decoding of a fabric address into a page and a register (R50, R59, R68).
-/
namespace Sys2Proof.Machine

/-- The access codes of 03_register_pages.md (R78), with the halves of a 64-bit clear-on-read counter (R80). -/
inductive Acc where
  | ro | rw | w1c | w1s | rc | rc64Lo | rc64Hi | wo | sc | sp | spSc | spW1s | bl
  deriving DecidableEq, Repr

/-- A field of a register: bits `hi:lo`, its access code, its reset value, and the reset values of class M and class L
load channels where the spec gives one per class (R278). -/
structure FSpec where
  hi : Nat
  lo : Nat
  acc : Acc
  rst : Nat
  cls : Option (Nat × Nat)
  deriving DecidableEq, Repr

/-- A register, or an array of registers: its offset, the (count, stride) of each index, whether BLK_LOCK.CFG_LOCK
covers it (R76), and its fields. -/
structure Row where
  off : Nat
  dims : List (Nat × Nat)
  lock : Bool
  fs : List FSpec
  deriving DecidableEq, Repr

/-- Registers of `rg` pages, from the spec's register tables. -/
def rgRows : List Row :=
  [⟨0x100, [], false, [⟨23, 16, .bl, 0x40, none⟩, ⟨11, 8, .bl, 1, none⟩, ⟨3, 0, .bl, 3, none⟩]⟩,
   ⟨0x104, [], false, [⟨31, 16, .bl, 0, none⟩, ⟨7, 0, .bl, 1, none⟩]⟩,
   ⟨0x110, [], false, [⟨31, 0, .rc, 0, none⟩]⟩,
   ⟨0x114, [], false, [⟨31, 0, .rc, 0, none⟩]⟩,
   ⟨0x118, [], false, [⟨31, 0, .rc, 0, none⟩]⟩,
   ⟨0x11C, [], false, [⟨31, 0, .rc, 0, none⟩]⟩,
   ⟨0x120, [], false, [⟨31, 0, .rc, 0, none⟩]⟩,
   ⟨0x124, [], false, [⟨31, 0, .rc, 0, none⟩]⟩,
   ⟨0x130, [], false, [⟨31, 0, .ro, 0, none⟩]⟩,
   ⟨0x134, [], false, [⟨31, 28, .ro, 0, none⟩, ⟨27, 22, .ro, 0, none⟩, ⟨8, 8, .ro, 0, none⟩, ⟨7, 0, .ro, 0, none⟩]⟩,
   ⟨0x1000, [(256, 16)], false, [⟨31, 12, .bl, 0, none⟩, ⟨7, 0, .bl, 0, none⟩]⟩,
   ⟨0x1004, [(256, 16)], false, [⟨31, 12, .bl, 0, none⟩, ⟨7, 0, .bl, 0, none⟩]⟩,
   ⟨0x1008, [(256, 16)], false, [⟨31, 31, .bl, 0, none⟩, ⟨29, 24, .bl, 0, none⟩, ⟨21, 16, .bl, 0, none⟩, ⟨13, 8, .bl, 0, none⟩, ⟨5, 0, .bl, 0, none⟩]⟩,
   ⟨0x100C, [(256, 16)], false, [⟨31, 31, .bl, 0, none⟩, ⟨30, 30, .bl, 0, none⟩, ⟨29, 24, .bl, 0, none⟩, ⟨23, 23, .bl, 0, none⟩, ⟨22, 22, .bl, 0, none⟩, ⟨21, 16, .bl, 0, none⟩]⟩]

/-- Registers of `msu` pages, from the spec's register tables. -/
def msuRows : List Row :=
  [⟨0x100, [], false, [⟨5, 4, .bl, 0, none⟩, ⟨2, 2, .ro, 0, none⟩, ⟨1, 1, .bl, 0, none⟩, ⟨0, 0, .bl, 0, none⟩]⟩,
   ⟨0x104, [], false, [⟨0, 0, .w1s, 0, none⟩]⟩,
   ⟨0x108, [], false, [⟨10, 8, .rw, 0, none⟩, ⟨2, 0, .ro, 0, none⟩]⟩,
   ⟨0x110, [], false, [⟨31, 31, .ro, 0, none⟩, ⟨30, 30, .ro, 0, none⟩, ⟨24, 16, .ro, 0, none⟩, ⟨3, 3, .w1c, 0, none⟩, ⟨2, 2, .w1c, 0, none⟩, ⟨1, 1, .w1c, 0, none⟩, ⟨0, 0, .w1c, 0, none⟩]⟩,
   ⟨0x114, [], false, [⟨15, 12, .bl, 6, none⟩, ⟨11, 8, .bl, 3, none⟩, ⟨7, 4, .bl, 2, none⟩, ⟨3, 0, .bl, 1, none⟩]⟩,
   ⟨0x118, [], false, [⟨2, 0, .ro, 0, none⟩]⟩,
   ⟨0x120, [], false, [⟨7, 0, .bl, 10, none⟩]⟩,
   ⟨0x130, [], false, [⟨31, 0, .ro, 0, none⟩]⟩,
   ⟨0x134, [], false, [⟨31, 28, .ro, 0, none⟩, ⟨27, 22, .ro, 0, none⟩, ⟨8, 8, .ro, 0, none⟩, ⟨7, 0, .ro, 0, none⟩]⟩,
   ⟨0x138, [], false, [⟨31, 0, .rc, 0, none⟩]⟩,
   ⟨0x200, [(64, 4)], false, [⟨23, 0, .bl, 0, none⟩]⟩,
   ⟨0x140, [], false, [⟨31, 24, .ro, 0, none⟩, ⟨19, 16, .ro, 0, none⟩, ⟨4, 4, .ro, 0, none⟩, ⟨3, 0, .ro, 0, none⟩]⟩,
   ⟨0x144, [], false, [⟨15, 8, .wo, 0, none⟩, ⟨0, 0, .wo, 0, none⟩]⟩,
   ⟨0x148, [], false, [⟨31, 28, .ro, 0, none⟩, ⟨23, 16, .ro, 0, none⟩, ⟨7, 7, .ro, 0, none⟩, ⟨6, 6, .ro, 0, none⟩, ⟨5, 5, .ro, 0, none⟩, ⟨4, 4, .ro, 0, none⟩, ⟨0, 0, .ro, 0, none⟩]⟩,
   ⟨0x400, [(512, 4)], false, [⟨31, 31, .bl, 0, none⟩, ⟨30, 30, .bl, 0, none⟩, ⟨29, 28, .bl, 0, none⟩, ⟨21, 16, .bl, 0, none⟩, ⟨5, 0, .bl, 0, none⟩]⟩,
   ⟨0x14C, [], false, [⟨15, 8, .sp, 0, none⟩, ⟨0, 0, .spSc, 0, none⟩]⟩,
   ⟨0x150, [], false, [⟨24, 16, .ro, 0, none⟩, ⟨15, 8, .ro, 0, none⟩, ⟨1, 0, .ro, 0, none⟩]⟩,
   ⟨0x154, [], false, [⟨31, 31, .ro, 0, none⟩, ⟨0, 0, .sp, 0, none⟩]⟩,
   ⟨0x158, [], false, [⟨31, 31, .w1c, 0, none⟩, ⟨8, 0, .ro, 0, none⟩]⟩,
   ⟨0x15C, [], false, [⟨0, 0, .bl, 0, none⟩]⟩,
   ⟨0x160, [(4, 16)], false, [⟨31, 31, .bl, 0, none⟩, ⟨30, 30, .bl, 0, none⟩, ⟨29, 24, .bl, 0, none⟩, ⟨23, 12, .bl, 0, none⟩, ⟨11, 0, .bl, 100, none⟩]⟩,
   ⟨0x164, [(4, 16)], false, [⟨7, 0, .wo, 0, none⟩]⟩,
   ⟨0x168, [(4, 16)], false, [⟨31, 31, .ro, 0, none⟩, ⟨23, 16, .ro, 0, none⟩, ⟨7, 0, .ro, 0x5A, none⟩]⟩,
   ⟨0x300, [(23, 4)], false, [⟨31, 16, .bl, 1000, none⟩, ⟨15, 12, .bl, 2, none⟩, ⟨11, 8, .bl, 3, none⟩, ⟨7, 0, .bl, 4, none⟩]⟩,
   ⟨0xC00, [(16, 4)], false, [⟨31, 0, .w1c, 0, none⟩]⟩]

/-- Registers of `psm` pages, from the spec's register tables. -/
def psmRows : List Row :=
  [⟨0x100, [], false, [⟨11, 8, .ro, 0xF, none⟩, ⟨7, 7, .ro, 0, none⟩, ⟨6, 6, .ro, 0, none⟩, ⟨5, 5, .ro, 0, none⟩, ⟨4, 4, .ro, 1, none⟩, ⟨3, 3, .ro, 0, none⟩, ⟨2, 2, .ro, 0, none⟩, ⟨1, 1, .ro, 0, none⟩, ⟨0, 0, .ro, 0, none⟩]⟩,
   ⟨0x104, [], false, [⟨31, 16, .ro, 0, none⟩, ⟨15, 0, .ro, 0, none⟩]⟩,
   ⟨0x108, [], false, [⟨31, 16, .ro, 0, none⟩, ⟨15, 0, .ro, 0, none⟩]⟩,
   ⟨0x10C, [], false, [⟨31, 28, .ro, 0, none⟩, ⟨3, 0, .ro, 0, none⟩]⟩,
   ⟨0x110, [], false, [⟨0, 0, .sp, 0, none⟩]⟩,
   ⟨0x114, [], true, [⟨15, 0, .rw, 0, none⟩]⟩,
   ⟨0x118, [], true, [⟨9, 0, .rw, 0x3FF, none⟩]⟩,
   ⟨0x11C, [], false, [⟨9, 0, .ro, 0, none⟩]⟩,
   ⟨0x120, [], false, [⟨31, 24, .rc, 0, none⟩, ⟨23, 16, .rc, 0, none⟩, ⟨15, 8, .rc, 0, none⟩, ⟨7, 0, .rc, 0, none⟩]⟩,
   ⟨0x124, [], false, [⟨3, 0, .w1s, 0, none⟩]⟩]

/-- Registers of `gld` pages, from the spec's register tables. -/
def gldRows : List Row :=
  [⟨0x100, [], true, [⟨31, 16, .rw, 0, none⟩, ⟨11, 8, .rw, 4, none⟩, ⟨7, 0, .rw, 50, none⟩]⟩,
   ⟨0x104, [], false, [⟨31, 31, .w1c, 0, none⟩, ⟨30, 30, .ro, 0, none⟩, ⟨29, 28, .ro, 0, none⟩, ⟨27, 22, .ro, 0, none⟩, ⟨21, 17, .ro, 0, none⟩, ⟨15, 8, .ro, 0, none⟩, ⟨7, 0, .ro, 0, none⟩]⟩,
   ⟨0x108, [], false, [⟨31, 31, .ro, 0, none⟩, ⟨28, 0, .ro, 0, none⟩]⟩,
   ⟨0x10C, [], false, [⟨0, 0, .wo, 0, none⟩]⟩,
   ⟨0x110, [], false, [⟨31, 0, .w1c, 0, none⟩]⟩,
   ⟨0x114, [], false, [⟨31, 0, .ro, 0, none⟩]⟩,
   ⟨0x118, [], false, [⟨31, 0, .w1c, 0, none⟩]⟩,
   ⟨0x11C, [], false, [⟨31, 0, .w1c, 0, none⟩]⟩,
   ⟨0x120, [], false, [⟨31, 31, .sc, 0, none⟩, ⟨7, 4, .ro, 0, none⟩, ⟨1, 0, .ro, 0, none⟩]⟩,
   ⟨0x124, [], false, [⟨31, 31, .ro, 0, none⟩, ⟨15, 8, .ro, 0, none⟩]⟩,
   ⟨0x128, [], false, [⟨31, 0, .rc, 0, none⟩]⟩,
   ⟨0x130, [], true, [⟨31, 0, .ro, 0, none⟩]⟩,
   ⟨0x200, [(8, 16)], true, [⟨31, 31, .sp, 0, none⟩, ⟨30, 28, .sp, 0, none⟩, ⟨27, 24, .sp, 0, none⟩, ⟨21, 16, .sp, 0, none⟩, ⟨15, 0, .sp, 0, none⟩]⟩,
   ⟨0x204, [(8, 16)], true, [⟨31, 16, .sp, 0, none⟩, ⟨15, 0, .sp, 0, none⟩]⟩,
   ⟨0x400, [(32, 16)], true, [⟨31, 0, .rw, 0, none⟩]⟩,
   ⟨0x404, [(32, 16)], true, [⟨31, 0, .rw, 0, none⟩]⟩,
   ⟨0x408, [(32, 16)], true, [⟨31, 0, .rw, 0, none⟩]⟩,
   ⟨0x40C, [(32, 16)], true, [⟨31, 31, .rw, 0, none⟩, ⟨30, 30, .rw, 0, none⟩, ⟨29, 29, .rw, 0, none⟩, ⟨28, 27, .rw, 0, none⟩, ⟨26, 24, .rw, 0, none⟩, ⟨23, 16, .rw, 0, none⟩, ⟨7, 0, .rw, 0, none⟩]⟩]

/-- Registers of `gld` cell pages, from the spec's register tables. -/
def gldCellRows : List Row :=
  [⟨0x20, [], false, [⟨15, 14, .rw, 0, none⟩, ⟨13, 13, .rw, 0, none⟩, ⟨11, 8, .rw, 0, none⟩, ⟨5, 0, .rw, 0, none⟩]⟩,
   ⟨0x24, [], false, [⟨31, 24, .rw, 0, none⟩, ⟨13, 0, .rw, 100, none⟩]⟩,
   ⟨0x28, [], false, [⟨31, 31, .rw, 0, none⟩, ⟨25, 16, .rw, 0x3FF, none⟩, ⟨9, 0, .rw, 0, none⟩]⟩,
   ⟨0x2C, [], false, [⟨17, 16, .rw, 0, none⟩, ⟨3, 0, .rw, 1, none⟩]⟩,
   ⟨0x30, [], false, [⟨31, 31, .ro, 0, none⟩, ⟨25, 16, .ro, 0, none⟩, ⟨9, 0, .ro, 0, none⟩]⟩]

/-- Registers of `vlt` pages, from the spec's register tables. -/
def vltRows : List Row :=
  [⟨0x100, [], false, [⟨31, 31, .sc, 0, none⟩, ⟨26, 24, .rw, 0, none⟩, ⟨8, 0, .rw, 0, none⟩]⟩,
   ⟨0x104, [], false, [⟨31, 31, .ro, 0, none⟩, ⟨7, 0, .ro, 0, none⟩]⟩,
   ⟨0x108, [], false, [⟨27, 22, .rw, 0, none⟩, ⟨14, 8, .rw, 0, none⟩, ⟨4, 0, .rw, 0, none⟩]⟩,
   ⟨0x10C, [], false, [⟨8, 0, .rw, 0, none⟩]⟩,
   ⟨0x110, [(4, 4)], false, [⟨31, 0, .rw, 0, none⟩]⟩,
   ⟨0x120, [(6, 4)], false, [⟨31, 0, .rw, 0, none⟩]⟩,
   ⟨0x140, [(16, 4)], false, [⟨31, 0, .wo, 0, none⟩]⟩,
   ⟨0x180, [], false, [⟨31, 31, .ro, 0, none⟩, ⟨30, 30, .ro, 0, none⟩, ⟨7, 0, .ro, 0, none⟩]⟩,
   ⟨0x188, [], false, [⟨31, 0, .rc, 0, none⟩]⟩,
   ⟨0x190, [], false, [⟨31, 24, .wo, 0, none⟩, ⟨23, 23, .ro, 0, none⟩, ⟨22, 20, .ro, 0, none⟩, ⟨2, 0, .wo, 0, none⟩]⟩,
   ⟨0x1A0, [(4, 4)], false, [⟨31, 0, .ro, 0, none⟩]⟩,
   ⟨0x1B0, [], false, [⟨31, 0, .ro, 0, none⟩]⟩,
   ⟨0x1B4, [], false, [⟨31, 31, .ro, 0, none⟩, ⟨10, 8, .ro, 0, none⟩, ⟨1, 0, .ro, 0, none⟩]⟩,
   ⟨0x1C0, [(8, 4)], false, [⟨31, 0, .ro, 0, none⟩]⟩,
   ⟨0x1E0, [(4, 4)], false, [⟨31, 0, .ro, 0, none⟩]⟩,
   ⟨0x200, [], false, [⟨31, 31, .sc, 0, none⟩, ⟨30, 30, .w1s, 0, none⟩, ⟨29, 28, .ro, 0, none⟩, ⟨3, 0, .rw, 0, none⟩]⟩,
   ⟨0x240, [(12, 4)], false, [⟨31, 0, .wo, 0, none⟩]⟩,
   ⟨0x400, [(32, 32)], true, [⟨31, 6, .rw, 0, none⟩]⟩,
   ⟨0x404, [(32, 32)], true, [⟨7, 0, .rw, 0, none⟩]⟩,
   ⟨0x408, [(32, 32)], true, [⟨31, 31, .rw, 0, none⟩, ⟨27, 24, .rw, 4, none⟩, ⟨19, 16, .rw, 1, none⟩, ⟨5, 0, .rw, 0, none⟩]⟩,
   ⟨0x40C, [(32, 32)], false, [⟨9, 0, .ro, 0, none⟩]⟩,
   ⟨0x410, [(32, 32)], false, [⟨9, 0, .rw, 0, none⟩]⟩,
   ⟨0x414, [(32, 32)], true, [⟨27, 0, .rw, 0, none⟩]⟩,
   ⟨0x418, [(32, 32)], true, [⟨27, 0, .rw, 0, none⟩]⟩,
   ⟨0x41C, [(32, 32)], false, [⟨31, 31, .ro, 0, none⟩, ⟨0, 0, .w1c, 0, none⟩]⟩,
   ⟨0x800, [(16, 48), (12, 4)], false, [⟨31, 0, .ro, 0, none⟩]⟩]

/-- Registers of `vlt` cell pages, from the spec's register tables. -/
def vltCellRows : List Row :=
  [⟨0x20, [], false, [⟨31, 29, .ro, 0, none⟩, ⟨28, 28, .ro, 0, none⟩, ⟨27, 22, .ro, 0, none⟩, ⟨14, 8, .ro, 0, none⟩, ⟨4, 0, .ro, 0, none⟩]⟩,
   ⟨0x24, [], false, [⟨31, 24, .ro, 0, none⟩, ⟨23, 23, .ro, 0, none⟩, ⟨8, 0, .ro, 0, none⟩]⟩,
   ⟨0x28, [], false, [⟨10, 8, .ro, 0, none⟩, ⟨7, 0, .ro, 0, none⟩]⟩]

/-- Registers of `cnp` pages, from the spec's register tables. -/
def cnpRows : List Row :=
  [⟨0x100, [(3, 4)], false, [⟨31, 31, .ro, 0, none⟩, ⟨11, 0, .rw, 1200, none⟩]⟩,
   ⟨0x110, [], false, [⟨11, 0, .rw, 0x001, none⟩]⟩,
   ⟨0x114, [], false, [⟨27, 16, .ro, 0, none⟩, ⟨11, 0, .ro, 0x001, none⟩]⟩,
   ⟨0x200, [(12, 16)], false, [⟨3, 3, .rw, 0, none⟩, ⟨2, 2, .rw, 0, none⟩, ⟨1, 1, .rw, 0, none⟩, ⟨0, 0, .rw, 0, none⟩]⟩,
   ⟨0x204, [(12, 16)], false, [⟨31, 31, .ro, 0, none⟩, ⟨5, 0, .ro, 0, none⟩]⟩,
   ⟨0x208, [(12, 16)], true, [⟨31, 2, .rw, 0, none⟩]⟩,
   ⟨0x20C, [(12, 16)], true, [⟨7, 0, .rw, 0, none⟩]⟩]

/-- Registers of `mem` pages, from the spec's register tables. -/
def memRows : List Row :=
  [⟨0x100, [], false, [⟨31, 31, .ro, 0, none⟩, ⟨30, 30, .ro, 0, none⟩, ⟨15, 0, .ro, 15871, none⟩]⟩,
   ⟨0x104, [], true, [⟨31, 24, .rw, 8, none⟩, ⟨23, 16, .rw, 24, none⟩, ⟨15, 15, .rw, 1, none⟩, ⟨7, 0, .rw, 24, none⟩]⟩,
   ⟨0x108, [], false, [⟨31, 0, .rc, 0, none⟩]⟩,
   ⟨0x10C, [], false, [⟨31, 0, .rc, 0, none⟩]⟩,
   ⟨0x110, [], false, [⟨31, 0, .ro, 0, none⟩]⟩,
   ⟨0x114, [], false, [⟨31, 28, .ro, 0, none⟩, ⟨27, 22, .ro, 0, none⟩, ⟨7, 0, .ro, 0, none⟩]⟩,
   ⟨0x118, [], false, [⟨24, 16, .ro, 256, none⟩, ⟨8, 0, .ro, 0, none⟩]⟩,
   ⟨0x11C, [], false, [⟨31, 31, .ro, 0, none⟩, ⟨15, 0, .ro, 0, none⟩]⟩,
   ⟨0x180, [], true, [⟨1, 1, .rw, 1, none⟩, ⟨0, 0, .rw, 1, none⟩]⟩,
   ⟨0x184, [], false, [⟨3, 3, .ro, 0, none⟩, ⟨2, 2, .ro, 0, none⟩, ⟨1, 1, .ro, 0, none⟩, ⟨0, 0, .ro, 0, none⟩]⟩,
   ⟨0x400, [(64, 16)], false, [⟨31, 12, .bl, 0, none⟩, ⟨7, 0, .bl, 0, none⟩]⟩,
   ⟨0x404, [(64, 16)], false, [⟨31, 12, .bl, 0, none⟩, ⟨7, 0, .bl, 0, none⟩]⟩,
   ⟨0x408, [(64, 16)], false, [⟨31, 31, .bl, 0, none⟩, ⟨29, 24, .bl, 0, none⟩, ⟨21, 16, .bl, 0, none⟩, ⟨13, 8, .bl, 0, none⟩, ⟨5, 0, .bl, 0, none⟩]⟩,
   ⟨0x40C, [(64, 16)], false, [⟨5, 0, .bl, 0, none⟩]⟩,
   ⟨0xC00, [(256, 4)], false, [⟨31, 31, .ro, 0, none⟩, ⟨27, 0, .ro, 0, none⟩]⟩,
   ⟨0x200, [], false, [⟨31, 31, .sc, 0, none⟩, ⟨27, 24, .rw, 0, none⟩]⟩,
   ⟨0x204, [], false, [⟨31, 31, .ro, 0, none⟩, ⟨30, 28, .ro, 0, none⟩, ⟨27, 24, .ro, 0, none⟩, ⟨23, 20, .ro, 0xF, none⟩, ⟨11, 8, .ro, 0, none⟩, ⟨3, 0, .ro, 0, none⟩]⟩,
   ⟨0x208, [], false, [⟨31, 6, .rw, 0, none⟩]⟩,
   ⟨0x20C, [], false, [⟨7, 0, .rw, 0, none⟩]⟩,
   ⟨0x210, [], false, [⟨16, 0, .rw, 0, none⟩]⟩,
   ⟨0x214, [], true, [⟨31, 31, .rw, 1, none⟩, ⟨30, 30, .rw, 0, none⟩, ⟨29, 29, .rw, 0, none⟩, ⟨28, 28, .rw, 0, none⟩, ⟨27, 26, .bl, 0, none⟩, ⟨24, 16, .rw, 0, none⟩, ⟨9, 0, .rw, 120, none⟩]⟩,
   ⟨0x218, [], false, [⟨1, 1, .spW1s, 0, none⟩, ⟨0, 0, .w1s, 0, none⟩]⟩,
   ⟨0x21C, [], false, [⟨23, 0, .ro, 0, none⟩]⟩,
   ⟨0x220, [], false, [⟨25, 24, .ro, 0, none⟩, ⟨9, 0, .ro, 0, none⟩]⟩,
   ⟨0x224, [], false, [⟨31, 31, .ro, 0, none⟩, ⟨12, 0, .ro, 0, none⟩]⟩,
   ⟨0x230, [(4, 4)], false, [⟨31, 0, .ro, 0, none⟩]⟩]

/-- Registers of `iw` pages, from the spec's register tables. -/
def iwRows : List Row :=
  [⟨0x100, [], false, [⟨31, 29, .ro, 0, none⟩, ⟨28, 28, .ro, 0, none⟩, ⟨27, 27, .ro, 0, none⟩, ⟨26, 26, .ro, 0, none⟩, ⟨10, 8, .ro, 0, none⟩, ⟨2, 0, .ro, 0, none⟩]⟩,
   ⟨0x104, [], true, [⟨31, 16, .sp, 1000, none⟩, ⟨7, 0, .sp, 3, none⟩]⟩,
   ⟨0x108, [], false, [⟨29, 28, .ro, 0, none⟩, ⟨27, 26, .ro, 0, none⟩, ⟨25, 24, .ro, 0, none⟩, ⟨23, 16, .ro, 0, none⟩, ⟨15, 8, .ro, 0, none⟩, ⟨7, 0, .ro, 0, none⟩]⟩,
   ⟨0x10C, [], false, [⟨31, 31, .ro, 0, none⟩, ⟨6, 4, .spSc, 0, none⟩, ⟨2, 0, .spW1s, 0, none⟩]⟩,
   ⟨0x110, [], false, [⟨23, 16, .rc, 0, none⟩, ⟨15, 8, .rc, 0, none⟩, ⟨7, 0, .rc, 0, none⟩]⟩,
   ⟨0x114, [], false, [⟨31, 31, .ro, 0, none⟩, ⟨3, 0, .ro, 0, none⟩]⟩,
   ⟨0x118, [], false, [⟨31, 16, .ro, 0, none⟩, ⟨15, 0, .ro, 0, none⟩]⟩,
   ⟨0x11C, [], false, [⟨31, 30, .ro, 0, none⟩, ⟨29, 29, .ro, 0, none⟩, ⟨18, 2, .ro, 0, none⟩]⟩,
   ⟨0x120, [], false, [⟨31, 1, .bl, 0x07800000, none⟩]⟩,
   ⟨0x124, [], false, [⟨31, 1, .bl, 0x07800000, none⟩]⟩,
   ⟨0x128, [], false, [⟨31, 1, .sp, 0, none⟩]⟩,
   ⟨0x12C, [], false, [⟨31, 1, .sp, 0, none⟩]⟩,
   ⟨0x130, [], false, [⟨31, 31, .bl, 0, none⟩, ⟨8, 0, .bl, 0x020, none⟩]⟩,
   ⟨0x140, [(2, 256), (8, 4)], false, [⟨31, 0, .rw, 0, none⟩]⟩,
   ⟨0x160, [(2, 256), (8, 4)], false, [⟨31, 0, .ro, 0, none⟩]⟩,
   ⟨0x180, [(2, 256)], false, [⟨7, 0, .rw, 0, none⟩]⟩,
   ⟨0x188, [(2, 256)], false, [⟨31, 0, .rw, 0xFFFFFFFF, none⟩]⟩,
   ⟨0x18C, [(2, 256)], false, [⟨31, 0, .rw, 0xFFFFFFFF, none⟩]⟩,
   ⟨0x400, [(4, 32)], false, [⟨31, 0, .rw, 0, none⟩]⟩,
   ⟨0x404, [(4, 32)], false, [⟨7, 0, .rw, 0, none⟩]⟩,
   ⟨0x408, [(4, 32)], false, [⟨31, 0, .rw, 0, none⟩]⟩,
   ⟨0x40C, [(4, 32)], false, [⟨7, 0, .rw, 0, none⟩]⟩,
   ⟨0x410, [(4, 32)], false, [⟨23, 0, .rw, 0, none⟩]⟩,
   ⟨0x414, [(4, 32)], false, [⟨31, 31, .sc, 0, none⟩, ⟨0, 0, .rw, 0, none⟩]⟩,
   ⟨0x418, [(4, 32)], false, [⟨31, 31, .ro, 0, none⟩, ⟨1, 1, .w1c, 0, none⟩, ⟨0, 0, .w1c, 0, none⟩]⟩]

/-- Registers of `par` pages, from the spec's register tables. -/
def parRows : List Row :=
  [⟨0x100, [], false, [⟨8, 8, .sp, 1, none⟩, ⟨4, 4, .sp, 1, none⟩, ⟨2, 2, .sp, 0, none⟩, ⟨1, 0, .sp, 2, none⟩]⟩,
   ⟨0x104, [], false, [⟨9, 8, .ro, 3, none⟩, ⟨1, 0, .ro, 3, none⟩]⟩,
   ⟨0x108, [], false, [⟨31, 24, .sp, 16, none⟩, ⟨15, 0, .sp, 5000, none⟩]⟩,
   ⟨0x10C, [], true, [⟨31, 16, .sp, 4000, none⟩, ⟨15, 8, .sp, 4, none⟩, ⟨7, 0, .sp, 20, none⟩]⟩,
   ⟨0x110, [], true, [⟨26, 16, .sp, 0x7F0, none⟩, ⟨10, 0, .sp, 0x7E0, none⟩]⟩,
   ⟨0x114, [], true, [⟨22, 16, .sp, 0, none⟩, ⟨10, 0, .sp, 0x780, none⟩]⟩,
   ⟨0x118, [], false, [⟨31, 0, .sp, 0, none⟩]⟩,
   ⟨0x11C, [], false, [⟨31, 0, .sp, 0, none⟩]⟩,
   ⟨0x120, [], false, [⟨31, 30, .ro, 0, none⟩, ⟨29, 29, .ro, 0, none⟩, ⟨28, 28, .ro, 0, none⟩, ⟨27, 27, .ro, 0, none⟩, ⟨15, 0, .ro, 0, none⟩]⟩,
   ⟨0x124, [], false, [⟨31, 30, .ro, 0, none⟩, ⟨29, 29, .ro, 0, none⟩, ⟨28, 28, .ro, 0, none⟩, ⟨27, 27, .ro, 0, none⟩, ⟨15, 0, .ro, 0, none⟩]⟩,
   ⟨0x128, [], false, [⟨31, 0, .ro, 0, none⟩]⟩,
   ⟨0x12C, [], false, [⟨31, 0, .ro, 0, none⟩]⟩,
   ⟨0x130, [], false, [⟨31, 24, .ro, 0, none⟩, ⟨8, 0, .ro, 0, none⟩]⟩,
   ⟨0x134, [], false, [⟨31, 24, .rc, 0, none⟩, ⟨23, 16, .rc, 0, none⟩, ⟨15, 8, .rc, 0, none⟩, ⟨7, 0, .rc, 0, none⟩]⟩,
   ⟨0x138, [], false, [⟨31, 24, .ro, 0, none⟩, ⟨23, 16, .ro, 0, none⟩, ⟨15, 8, .ro, 0, none⟩, ⟨7, 0, .ro, 0, none⟩]⟩,
   ⟨0x13C, [], false, [⟨31, 0, .ro, 0, none⟩]⟩,
   ⟨0x200, [(16, 8)], true, [⟨31, 31, .sp, 0, none⟩, ⟨30, 30, .sp, 0, none⟩, ⟨28, 24, .sp, 0, none⟩, ⟨20, 16, .sp, 0, none⟩, ⟨8, 0, .sp, 0, none⟩]⟩,
   ⟨0x204, [(16, 8)], true, [⟨15, 0, .sp, 0, none⟩]⟩,
   ⟨0x800, [(320, 4)], true, [⟨31, 0, .sp, 0xFFFFFFFF, none⟩]⟩,
   ⟨0xD00, [(128, 4)], true, [⟨31, 31, .sp, 0, none⟩, ⟨30, 25, .sp, 0, none⟩, ⟨24, 0, .sp, 0, none⟩]⟩]

/-- Registers of `lsw` pages, from the spec's register tables. -/
def lswRows : List Row :=
  [⟨0x100, [], false, [⟨31, 24, .ro, 0, none⟩, ⟨23, 23, .ro, 0, none⟩, ⟨22, 22, .ro, 0, none⟩, ⟨21, 21, .ro, 1, none⟩, ⟨20, 20, .ro, 0, none⟩, ⟨15, 0, .ro, 0, none⟩]⟩,
   ⟨0x104, [], false, [⟨15, 0, .ro, 0, none⟩]⟩,
   ⟨0x108, [], false, [⟨15, 0, .ro, 0, none⟩]⟩,
   ⟨0x180, [], false, [⟨31, 24, .bl, 10, none⟩, ⟨23, 16, .bl, 20, none⟩, ⟨15, 0, .bl, 100, none⟩]⟩,
   ⟨0x184, [], false, [⟨29, 20, .bl, 800, none⟩, ⟨19, 10, .bl, 500, none⟩, ⟨9, 0, .bl, 500, none⟩]⟩,
   ⟨0x188, [], false, [⟨29, 20, .ro, 0, none⟩, ⟨19, 10, .ro, 0, none⟩, ⟨9, 0, .ro, 0, none⟩]⟩,
   ⟨0x18C, [], false, [⟨31, 16, .rc, 0, none⟩, ⟨15, 0, .rc, 0, none⟩]⟩,
   ⟨0x200, [], true, [⟨31, 24, .sp, 204, none⟩, ⟨23, 16, .sp, 214, none⟩, ⟨7, 0, .sp, 80, none⟩]⟩,
   ⟨0x204, [], false, [⟨31, 31, .ro, 0, none⟩, ⟨30, 30, .ro, 0, none⟩, ⟨29, 29, .ro, 0, none⟩, ⟨15, 0, .ro, 0, none⟩]⟩,
   ⟨0x208, [], false, [⟨31, 24, .rc, 0, none⟩, ⟨23, 16, .rc, 0, none⟩, ⟨15, 8, .rc, 0, none⟩, ⟨7, 0, .rc, 0, none⟩]⟩,
   ⟨0x300, [], true, [⟨15, 0, .rw, 10, none⟩]⟩,
   ⟨0x304, [], false, [⟨31, 31, .ro, 0, none⟩, ⟨23, 16, .ro, 0, none⟩, ⟨15, 0, .ro, 0, none⟩]⟩,
   ⟨0x308, [], false, [⟨31, 16, .rc, 0, none⟩, ⟨15, 8, .rc, 0, none⟩, ⟨7, 0, .rc, 0, none⟩]⟩]

/-- Registers of `lsw` cell pages, from the spec's register tables. -/
def lswCellRows : List Row :=
  [⟨0x20, [], false, [⟨15, 15, .rw, 0, none⟩, ⟨14, 14, .rw, 0, none⟩, ⟨2, 0, .rw, 0, none⟩]⟩,
   ⟨0x24, [], false, [⟨31, 31, .rw, 0, none⟩, ⟨30, 30, .rw, 0, none⟩, ⟨11, 0, .rw, 0, none⟩]⟩,
   ⟨0x28, [], false, [⟨31, 24, .rw, 0, none⟩, ⟨23, 0, .rw, 1000000, none⟩]⟩,
   ⟨0x2C, [], false, [⟨31, 16, .rw, 100, none⟩, ⟨15, 0, .rw, 0, none⟩]⟩,
   ⟨0x30, [], false, [⟨31, 20, .rw, 0x400, none⟩, ⟨17, 17, .rw, 1, none⟩, ⟨15, 8, .rw, 0, none⟩, ⟨7, 0, .rw, 50, none⟩]⟩,
   ⟨0x34, [], true, [⟨31, 31, .rw, 0, none⟩, ⟨30, 25, .rw, 0, none⟩, ⟨24, 0, .rw, 0, none⟩]⟩,
   ⟨0x38, [], true, [⟨31, 30, .rw, 0, none⟩, ⟨29, 28, .rw, 1, none⟩, ⟨15, 0, .rw, 0, none⟩]⟩,
   ⟨0x3C, [], false, [⟨31, 31, .sp, 0, none⟩, ⟨29, 28, .sp, 0, none⟩, ⟨11, 0, .sp, 0, none⟩]⟩,
   ⟨0x40, [], false, [⟨31, 29, .ro, 7, none⟩, ⟨28, 28, .ro, 0, none⟩, ⟨27, 27, .ro, 0, none⟩, ⟨26, 26, .ro, 0, none⟩, ⟨25, 25, .ro, 0, none⟩, ⟨24, 24, .ro, 0, none⟩, ⟨7, 6, .ro, 0, none⟩, ⟨23, 23, .ro, 0, none⟩, ⟨22, 22, .ro, 0, none⟩, ⟨21, 21, .ro, 0, none⟩, ⟨20, 20, .ro, 0, none⟩, ⟨19, 19, .ro, 0, none⟩, ⟨18, 18, .ro, 0, none⟩, ⟨17, 17, .ro, 0, none⟩, ⟨16, 16, .ro, 0, none⟩, ⟨15, 15, .ro, 0, none⟩, ⟨14, 14, .ro, 0, none⟩, ⟨13, 13, .ro, 0, none⟩, ⟨12, 12, .ro, 0, none⟩, ⟨11, 11, .ro, 0, none⟩, ⟨10, 8, .ro, 0, none⟩]⟩,
   ⟨0x44, [], false, [⟨31, 16, .ro, 0, none⟩, ⟨15, 0, .ro, 0, none⟩]⟩,
   ⟨0x48, [], false, [⟨31, 16, .ro, 0, none⟩, ⟨15, 8, .ro, 0, none⟩, ⟨7, 0, .ro, 0, none⟩]⟩,
   ⟨0x4C, [], false, [⟨31, 20, .ro, 0, none⟩, ⟨19, 16, .ro, 3, none⟩, ⟨15, 12, .ro, 0, none⟩, ⟨11, 0, .ro, 0, none⟩]⟩,
   ⟨0x50, [], true, [⟨31, 31, .rw, 0, none⟩, ⟨30, 30, .rw, 0, none⟩, ⟨29, 29, .rw, 0, none⟩, ⟨24, 0, .rw, 0, none⟩]⟩,
   ⟨0x54, [], false, [⟨15, 0, .rw, 100, none⟩]⟩,
   ⟨0x58, [], true, [⟨10, 8, .rw, 3, none⟩, ⟨7, 0, .rw, 120, some (40, 12)⟩]⟩,
   ⟨0x5C, [], false, [⟨31, 31, .ro, 0, none⟩, ⟨13, 0, .ro, 0, none⟩]⟩,
   ⟨0x60, [], false, [⟨25, 16, .sp, 320, some (120, 36)⟩, ⟨15, 8, .sp, 50, none⟩, ⟨7, 0, .sp, 50, none⟩]⟩,
   ⟨0x64, [], true, [⟨31, 24, .sp, 169, none⟩, ⟨23, 16, .sp, 149, none⟩, ⟨15, 8, .sp, 129, none⟩, ⟨7, 7, .sp, 1, none⟩, ⟨3, 0, .sp, 0, none⟩]⟩,
   ⟨0x68, [], true, [⟨31, 16, .sp, 52000, none⟩, ⟨7, 0, .sp, 189, none⟩]⟩,
   ⟨0x6C, [], true, [⟨9, 0, .sp, 40, none⟩]⟩,
   ⟨0x70, [], false, [⟨31, 24, .sp, 184, none⟩, ⟨15, 0, .sp, 600, none⟩]⟩,
   ⟨0x74, [], false, [⟨31, 28, .sp, 3, none⟩, ⟨27, 16, .sp, 100, none⟩, ⟨15, 0, .sp, 1000, none⟩]⟩,
   ⟨0x78, [], false, [⟨31, 30, .sp, 2, none⟩, ⟨23, 16, .sp, 50, some (20, 10)⟩, ⟨15, 0, .sp, 0, none⟩]⟩,
   ⟨0x7C, [], false, [⟨31, 31, .ro, 0, none⟩, ⟨30, 30, .ro, 0, none⟩, ⟨29, 29, .ro, 0, none⟩, ⟨15, 0, .ro, 0, none⟩]⟩,
   ⟨0x80, [], false, [⟨31, 16, .ro, 0, none⟩, ⟨15, 0, .ro, 0, none⟩]⟩,
   ⟨0x84, [], false, [⟨31, 0, .ro, 0, none⟩]⟩,
   ⟨0x88, [], false, [⟨31, 31, .ro, 0, none⟩, ⟨15, 0, .ro, 0, none⟩]⟩,
   ⟨0x8C, [], false, [⟨31, 24, .rc, 0, none⟩, ⟨23, 16, .rc, 0, none⟩, ⟨15, 8, .rc, 0, none⟩, ⟨7, 0, .rc, 0, none⟩]⟩,
   ⟨0xA0, [], false, [⟨31, 31, .rw, 0, none⟩, ⟨30, 30, .rw, 0, none⟩, ⟨29, 28, .rw, 1, none⟩, ⟨27, 24, .rw, 3, none⟩, ⟨23, 16, .rw, 10, none⟩, ⟨15, 0, .rw, 100, none⟩]⟩,
   ⟨0xA4, [], false, [⟨27, 16, .rw, 600, none⟩, ⟨11, 0, .rw, 200, none⟩]⟩,
   ⟨0xA8, [], false, [⟨31, 31, .rw, 0, none⟩, ⟨30, 30, .rw, 0, none⟩, ⟨23, 16, .rw, 10, none⟩, ⟨11, 0, .rw, 0, none⟩]⟩,
   ⟨0xAC, [], false, [⟨31, 31, .w1c, 0, none⟩, ⟨15, 0, .ro, 0, none⟩]⟩,
   ⟨0xB0, [], false, [⟨15, 0, .rw, 1350, none⟩]⟩,
   ⟨0xB4, [], false, [⟨31, 22, .sp, 480, some (180, 56)⟩, ⟨15, 8, .sp, 10, some (6, 4)⟩, ⟨7, 0, .sp, 60, some (40, 30)⟩]⟩,
   ⟨0xB8, [], false, [⟨31, 29, .ro, 0, none⟩, ⟨27, 16, .ro, 0, none⟩, ⟨15, 0, .ro, 0xFFFF, none⟩]⟩,
   ⟨0xBC, [], false, [⟨31, 24, .rc, 0, none⟩, ⟨23, 16, .rc, 0, none⟩, ⟨15, 8, .rc, 0, none⟩, ⟨7, 0, .rc, 0, none⟩]⟩]

/-- Registers of `sni` pages, from the spec's register tables. -/
def sniRows : List Row :=
  [⟨0x100, [], false, [⟨31, 0, .ro, 0, none⟩]⟩,
   ⟨0x104, [], false, [⟨15, 0, .ro, 0, none⟩]⟩,
   ⟨0x108, [], false, [⟨31, 0, .w1c, 0, none⟩]⟩,
   ⟨0x10C, [], false, [⟨15, 0, .w1c, 0, none⟩]⟩,
   ⟨0x110, [], false, [⟨31, 0, .rw, 0, none⟩]⟩,
   ⟨0x114, [], false, [⟨15, 0, .rw, 0, none⟩]⟩,
   ⟨0x118, [], false, [⟨31, 0, .rc, 0, none⟩]⟩,
   ⟨0x400, [(48, 32)], false, [⟨31, 31, .rw, 0, none⟩, ⟨15, 14, .rw, 0, none⟩, ⟨13, 13, .rw, 0, none⟩, ⟨11, 8, .rw, 0, none⟩]⟩,
   ⟨0x404, [(48, 32)], false, [⟨31, 24, .rw, 0, none⟩, ⟨13, 0, .rw, 100, none⟩]⟩,
   ⟨0x408, [(48, 32)], false, [⟨31, 31, .rw, 0, none⟩, ⟨27, 16, .rw, 0xFFF, none⟩, ⟨11, 0, .rw, 0, none⟩]⟩,
   ⟨0x40C, [(48, 32)], false, [⟨17, 16, .rw, 0, none⟩, ⟨3, 0, .rw, 1, none⟩]⟩,
   ⟨0x410, [(48, 32)], false, [⟨31, 31, .ro, 0, none⟩, ⟨16, 16, .ro, 0, none⟩, ⟨11, 0, .ro, 0, none⟩]⟩,
   ⟨0x414, [(48, 32)], false, [⟨11, 0, .ro, 0, none⟩]⟩,
   ⟨0x418, [(48, 32)], true, [⟨31, 31, .rw, 0, none⟩, ⟨30, 30, .rw, 0, none⟩, ⟨24, 0, .rw, 0, none⟩]⟩,
   ⟨0x41C, [(48, 32)], false, [⟨15, 0, .rw, 0, none⟩]⟩]

/-- Registers of `can` pages, from the spec's register tables. -/
def canRows : List Row :=
  [⟨0x100, [], false, [⟨15, 0, .ro, 0, none⟩]⟩,
   ⟨0x104, [], false, [⟨15, 0, .ro, 0, none⟩]⟩,
   ⟨0x108, [], false, [⟨15, 0, .wo, 0, none⟩]⟩]

/-- Registers of `can` cell pages, from the spec's register tables. -/
def canCellRows : List Row :=
  [⟨0x20, [], false, [⟨13, 13, .rw, 0, none⟩, ⟨12, 12, .rw, 0, none⟩, ⟨9, 8, .rw, 0, none⟩, ⟨5, 5, .rw, 0, none⟩, ⟨4, 4, .rw, 0, none⟩, ⟨3, 3, .rw, 0, none⟩, ⟨2, 2, .rw, 0, none⟩, ⟨1, 1, .rw, 0, none⟩, ⟨0, 0, .rw, 0, none⟩]⟩,
   ⟨0x24, [], false, [⟨30, 24, .rw, 0x1F, none⟩, ⟨22, 16, .rw, 0x1F, none⟩, ⟨15, 8, .rw, 0x7E, none⟩, ⟨7, 0, .rw, 0x01, none⟩]⟩,
   ⟨0x28, [], false, [⟨31, 31, .rw, 0, none⟩, ⟨27, 24, .rw, 0x7, none⟩, ⟨19, 16, .rw, 0x7, none⟩, ⟨12, 8, .rw, 0x1E, none⟩, ⟨4, 0, .rw, 0x01, none⟩]⟩,
   ⟨0x2C, [], false, [⟨31, 31, .rw, 0, none⟩, ⟨28, 24, .rw, 0x03, none⟩, ⟨20, 16, .rw, 0x03, none⟩, ⟨13, 8, .rw, 0x0A, none⟩, ⟨4, 0, .rw, 0x00, none⟩]⟩,
   ⟨0x30, [], false, [⟨22, 16, .rw, 0, none⟩, ⟨6, 0, .rw, 0, none⟩]⟩,
   ⟨0x34, [], false, [⟨21, 16, .rw, 0, none⟩, ⟨13, 8, .rw, 0x03, none⟩, ⟨5, 0, .rw, 0x0B, none⟩]⟩,
   ⟨0x38, [], false, [⟨1, 0, .rw, 1, none⟩]⟩,
   ⟨0x3C, [], false, [⟨31, 31, .rw, 0, none⟩, ⟨30, 30, .rw, 0, none⟩, ⟨7, 0, .rw, 0, none⟩]⟩,
   ⟨0x40, [], false, [⟨31, 0, .ro, 0, none⟩]⟩,
   ⟨0x44, [], false, [⟨31, 29, .ro, 0, none⟩, ⟨28, 28, .ro, 0, none⟩, ⟨27, 27, .ro, 0, none⟩, ⟨26, 26, .ro, 0, none⟩, ⟨25, 24, .ro, 0, none⟩, ⟨23, 23, .ro, 0, none⟩, ⟨22, 16, .ro, 0, none⟩, ⟨6, 4, .ro, 0, none⟩, ⟨2, 0, .ro, 0, none⟩]⟩,
   ⟨0x48, [], false, [⟨24, 16, .ro, 0, none⟩, ⟨7, 0, .ro, 0, none⟩]⟩,
   ⟨0x4C, [], false, [⟨31, 24, .rc, 0, none⟩, ⟨23, 16, .rc, 0, none⟩, ⟨15, 8, .rc, 0, none⟩, ⟨7, 0, .rc, 0, none⟩]⟩,
   ⟨0x50, [], true, [⟨31, 31, .rw, 1, none⟩, ⟨30, 30, .rw, 0, none⟩, ⟨27, 24, .rw, 8, none⟩, ⟨23, 16, .rw, 60, none⟩, ⟨15, 0, .rw, 10, none⟩]⟩,
   ⟨0x54, [], false, [⟨0, 0, .sc, 0, none⟩]⟩,
   ⟨0x58, [], false, [⟨31, 24, .ro, 0, none⟩, ⟨23, 16, .ro, 0, none⟩, ⟨7, 0, .ro, 0, none⟩]⟩,
   ⟨0x5C, [], true, [⟨0, 0, .rw, 0, none⟩]⟩,
   ⟨0x60, [], false, [⟨31, 0, .ro, 0, none⟩]⟩,
   ⟨0x64, [], false, [⟨31, 0, .w1s, 0, none⟩]⟩,
   ⟨0x68, [], false, [⟨31, 0, .w1s, 0, none⟩]⟩,
   ⟨0x6C, [], false, [⟨31, 0, .w1c, 0, none⟩]⟩,
   ⟨0x70, [(4, 4)], false, [⟨31, 0, .ro, 0, none⟩]⟩,
   ⟨0xA0, [], false, [⟨31, 17, .rw, 0, none⟩, ⟨14, 14, .rw, 0, none⟩, ⟨13, 13, .rw, 0, none⟩, ⟨12, 11, .rw, 0, none⟩, ⟨10, 9, .rw, 0, none⟩, ⟨8, 0, .rw, 0, none⟩]⟩,
   ⟨0xA4, [], false, [⟨31, 17, .rw, 0, none⟩, ⟨16, 8, .rw, 15, none⟩, ⟨7, 7, .rw, 0, none⟩, ⟨6, 0, .rw, 0, none⟩]⟩,
   ⟨0xA8, [], false, [⟨31, 17, .rw, 0, none⟩, ⟨16, 8, .rw, 15, none⟩, ⟨7, 7, .rw, 0, none⟩, ⟨6, 0, .rw, 0, none⟩]⟩,
   ⟨0xAC, [], false, [⟨31, 17, .rw, 0, none⟩, ⟨16, 8, .rw, 15, none⟩, ⟨6, 0, .rw, 0, none⟩]⟩,
   ⟨0xB0, [], false, [⟨31, 17, .rw, 0, none⟩, ⟨13, 8, .rw, 0, none⟩, ⟨5, 0, .rw, 0, none⟩]⟩,
   ⟨0xB4, [], false, [⟨31, 17, .rw, 0, none⟩, ⟨13, 8, .rw, 0, none⟩, ⟨5, 0, .rw, 0, none⟩]⟩,
   ⟨0xB8, [], false, [⟨14, 8, .rw, 0, none⟩, ⟨6, 0, .rw, 0, none⟩]⟩,
   ⟨0xBC, [], false, [⟨15, 0, .rw, 100, none⟩]⟩,
   ⟨0xC0, [], false, [⟨31, 31, .ro, 0, none⟩, ⟨30, 30, .ro, 0, none⟩, ⟨22, 16, .ro, 0, none⟩, ⟨13, 8, .ro, 0, none⟩, ⟨5, 0, .ro, 0, none⟩]⟩,
   ⟨0xC4, [], false, [⟨31, 31, .ro, 0, none⟩, ⟨30, 30, .ro, 0, none⟩, ⟨22, 16, .ro, 0, none⟩, ⟨13, 8, .ro, 0, none⟩, ⟨5, 0, .ro, 0, none⟩]⟩,
   ⟨0xC8, [], false, [⟨31, 31, .ro, 0, none⟩, ⟨30, 30, .ro, 0, none⟩, ⟨22, 16, .ro, 0, none⟩, ⟨13, 8, .ro, 0, none⟩, ⟨5, 0, .ro, 0, none⟩]⟩,
   ⟨0xCC, [], false, [⟨31, 0, .w1c, 0, none⟩]⟩,
   ⟨0xD0, [], false, [⟨31, 0, .w1c, 0, none⟩]⟩,
   ⟨0xD4, [], false, [⟨30, 30, .ro, 0, none⟩, ⟨21, 16, .ro, 0, none⟩, ⟨13, 8, .ro, 0, none⟩]⟩,
   ⟨0xD8, [], false, [⟨31, 0, .ro, 0, none⟩]⟩,
   ⟨0xDC, [], false, [⟨31, 0, .wo, 0, none⟩]⟩,
   ⟨0xE0, [], false, [⟨31, 0, .w1s, 0, none⟩]⟩,
   ⟨0xE4, [], false, [⟨31, 31, .wo, 0, none⟩, ⟨9, 8, .wo, 0, none⟩, ⟨5, 0, .wo, 0, none⟩]⟩,
   ⟨0xE8, [], false, [⟨13, 8, .ro, 0, none⟩, ⟨3, 0, .ro, 0, none⟩]⟩] ++
  [⟨0xEC, [], false, [⟨31, 31, .ro, 0, none⟩, ⟨23, 16, .ro, 0, none⟩, ⟨9, 8, .ro, 0, none⟩, ⟨5, 0, .ro, 0, none⟩]⟩,
   ⟨0xF0, [], false, [⟨31, 24, .rc, 0, none⟩, ⟨23, 16, .rc, 0, none⟩, ⟨15, 8, .rc, 0, none⟩, ⟨7, 0, .rc, 0, none⟩]⟩,
   ⟨0xF4, [], false, [⟨31, 24, .rc, 0, none⟩, ⟨23, 16, .rc, 0, none⟩, ⟨15, 8, .rc, 0, none⟩, ⟨7, 0, .rc, 0, none⟩]⟩,
   ⟨0xF8, [], false, [⟨31, 30, .ro, 0, none⟩, ⟨29, 29, .ro, 0, none⟩, ⟨14, 0, .ro, 0, none⟩]⟩,
   ⟨0xFC, [], false, [⟨8, 0, .rw, 15, none⟩]⟩]

/-- Registers of `lin` cell pages, from the spec's register tables. -/
def linCellRows : List Row :=
  [⟨0x20, [], true, [⟨31, 31, .rw, 0, none⟩, ⟨30, 30, .rw, 1, none⟩, ⟨20, 16, .rw, 13, none⟩, ⟨15, 15, .rw, 0, none⟩, ⟨13, 8, .rw, 0, none⟩, ⟨5, 0, .rw, 0, none⟩]⟩,
   ⟨0x24, [], true, [⟨15, 0, .rw, 19200, none⟩]⟩,
   ⟨0x28, [], false, [⟨31, 31, .rw, 0, none⟩, ⟨30, 30, .sc, 0, none⟩, ⟨13, 8, .rw, 0, none⟩, ⟨5, 0, .rw, 0, none⟩]⟩,
   ⟨0x2C, [], false, [⟨1, 1, .sc, 0, none⟩, ⟨0, 0, .sc, 0, none⟩]⟩,
   ⟨0x30, [], false, [⟨31, 29, .ro, 0, none⟩, ⟨28, 28, .ro, 0, none⟩, ⟨27, 22, .ro, 0, none⟩, ⟨21, 16, .ro, 0, none⟩, ⟨3, 0, .ro, 0, none⟩]⟩,
   ⟨0x34, [], false, [⟨31, 0, .w1s, 0, none⟩]⟩,
   ⟨0x38, [], false, [⟨31, 0, .w1s, 0, none⟩]⟩,
   ⟨0x3C, [], false, [⟨31, 24, .rc, 0, none⟩, ⟨23, 16, .rc, 0, none⟩, ⟨15, 8, .rc, 0, none⟩, ⟨7, 0, .rc, 0, none⟩]⟩]

/-- Registers of `etp` pages, from the spec's register tables. -/
def etpRows : List Row :=
  [⟨0x100, [], false, [⟨24, 0, .ro, 0, none⟩]⟩,
   ⟨0x104, [], false, [⟨31, 31, .ro, 0, none⟩, ⟨15, 0, .ro, 0, none⟩]⟩]

/-- Registers of `etp` cell pages, from the spec's register tables. -/
def etpCellRows : List Row :=
  [⟨0x20, [], false, [⟨29, 16, .rw, 9216, none⟩, ⟨15, 0, .rw, 0, none⟩]⟩,
   ⟨0x24, [], true, [⟨1, 0, .rw, 0, none⟩]⟩,
   ⟨0x28, [], false, [⟨31, 31, .ro, 0, none⟩, ⟨30, 30, .ro, 0, none⟩, ⟨29, 27, .ro, 0, none⟩, ⟨26, 26, .ro, 0, none⟩, ⟨25, 25, .ro, 0, none⟩, ⟨15, 0, .ro, 0, none⟩]⟩,
   ⟨0x2C, [], false, [⟨31, 24, .ro, 4, none⟩, ⟨15, 8, .rw, 2, none⟩, ⟨7, 0, .rw, 4, none⟩]⟩,
   ⟨0x30, [], false, [⟨31, 31, .rw, 0, none⟩, ⟨29, 16, .rw, 0, none⟩, ⟨15, 0, .rw, 100, none⟩]⟩,
   ⟨0x34, [], true, [⟨31, 31, .rw, 0, none⟩, ⟨23, 16, .rw, 255, none⟩, ⟨15, 8, .rw, 8, none⟩, ⟨7, 0, .rw, 32, none⟩]⟩,
   ⟨0x3C, [], true, [⟨15, 8, .rw, 0, none⟩, ⟨7, 0, .rw, 128, none⟩]⟩,
   ⟨0x40, [], false, [⟨31, 31, .rw, 0, none⟩, ⟨30, 30, .rw, 0, none⟩, ⟨29, 29, .rw, 1, none⟩, ⟨28, 27, .rw, 0, none⟩, ⟨26, 26, .rw, 1, none⟩, ⟨25, 24, .rw, 2, none⟩, ⟨23, 23, .rw, 1, none⟩, ⟨22, 22, .rw, 1, none⟩, ⟨21, 21, .rw, 0, none⟩, ⟨20, 20, .rw, 0, none⟩, ⟨19, 16, .rw, 0, none⟩, ⟨15, 0, .rw, 0, none⟩]⟩,
   ⟨0x44, [], false, [⟨31, 0, .rw, 0, none⟩]⟩,
   ⟨0x48, [], false, [⟨31, 0, .rw, 0, none⟩]⟩,
   ⟨0x4C, [], false, [⟨31, 0, .rw, 0, none⟩]⟩,
   ⟨0x50, [], false, [⟨1, 0, .rw, 0, none⟩]⟩,
   ⟨0x54, [], false, [⟨31, 31, .ro, 0, none⟩, ⟨29, 16, .ro, 0, none⟩]⟩,
   ⟨0x60, [(4, 0), (4, 8)], false, [⟨31, 0, .rw, 0, none⟩]⟩,
   ⟨0x64, [(4, 0), (4, 8)], false, [⟨31, 0, .rw, 0, none⟩]⟩,
   ⟨0x80, [], false, [⟨15, 8, .ro, 0, none⟩, ⟨7, 0, .ro, 0, none⟩]⟩,
   ⟨0x200, [(20, 0), (20, 32)], false, [⟨31, 31, .rw, 0, none⟩, ⟨30, 30, .ro, 0, none⟩, ⟨29, 28, .ro, 0, none⟩, ⟨8, 0, .rw, 0, none⟩]⟩,
   ⟨0x204, [(20, 0), (20, 32)], false, [⟨31, 0, .rw, 0, none⟩]⟩,
   ⟨0x208, [(20, 32), (3, 4)], false, [⟨31, 0, .rw, 0, none⟩]⟩,
   ⟨0x214, [(20, 0), (20, 32)], false, [⟨31, 0, .rw, 0, none⟩]⟩,
   ⟨0x218, [(20, 0), (20, 32)], false, [⟨31, 0, .rw, 0, none⟩]⟩,
   ⟨0x500, [(8, 0), (8, 32)], false, [⟨31, 5, .rw, 0, none⟩]⟩,
   ⟨0x504, [(8, 0), (8, 32)], false, [⟨31, 31, .rw, 0, none⟩, ⟨27, 24, .rw, 4, none⟩, ⟨7, 0, .rw, 0, none⟩]⟩,
   ⟨0x508, [(8, 0), (8, 32)], false, [⟨11, 0, .rw, 0, none⟩]⟩,
   ⟨0x50C, [(8, 0), (8, 32)], false, [⟨11, 0, .ro, 0, none⟩]⟩,
   ⟨0x510, [(8, 0), (8, 32)], false, [⟨31, 5, .rw, 0, none⟩]⟩,
   ⟨0x514, [(8, 0), (8, 32)], false, [⟨31, 31, .rw, 0, none⟩, ⟨27, 24, .rw, 4, none⟩, ⟨7, 0, .rw, 0, none⟩]⟩,
   ⟨0x518, [(8, 0), (8, 32)], false, [⟨11, 0, .rw, 0, none⟩]⟩,
   ⟨0x51C, [(8, 0), (8, 32)], false, [⟨11, 0, .ro, 0, none⟩]⟩,
   ⟨0x100, [], false, [⟨31, 0, .rc64Lo, 0, none⟩]⟩,
   ⟨0x104, [], false, [⟨31, 0, .rc64Hi, 0, none⟩]⟩,
   ⟨0x108, [], false, [⟨31, 0, .rc64Lo, 0, none⟩]⟩,
   ⟨0x10C, [], false, [⟨31, 0, .rc64Hi, 0, none⟩]⟩,
   ⟨0x110, [], false, [⟨31, 0, .rc64Lo, 0, none⟩]⟩,
   ⟨0x114, [], false, [⟨31, 0, .rc64Hi, 0, none⟩]⟩,
   ⟨0x118, [], false, [⟨31, 0, .rc64Lo, 0, none⟩]⟩,
   ⟨0x11C, [], false, [⟨31, 0, .rc64Hi, 0, none⟩]⟩,
   ⟨0x120, [], false, [⟨31, 0, .rc64Lo, 0, none⟩]⟩,
   ⟨0x124, [], false, [⟨31, 0, .rc64Hi, 0, none⟩]⟩,
   ⟨0x128, [], false, [⟨31, 0, .rc64Lo, 0, none⟩]⟩] ++
  [⟨0x12C, [], false, [⟨31, 0, .rc64Hi, 0, none⟩]⟩,
   ⟨0x130, [], false, [⟨31, 0, .rc64Lo, 0, none⟩]⟩,
   ⟨0x134, [], false, [⟨31, 0, .rc64Hi, 0, none⟩]⟩,
   ⟨0x138, [], false, [⟨31, 0, .rc64Lo, 0, none⟩]⟩,
   ⟨0x13C, [], false, [⟨31, 0, .rc64Hi, 0, none⟩]⟩,
   ⟨0x140, [], false, [⟨31, 0, .rc64Lo, 0, none⟩]⟩,
   ⟨0x144, [], false, [⟨31, 0, .rc64Hi, 0, none⟩]⟩,
   ⟨0x148, [], false, [⟨31, 0, .rc64Lo, 0, none⟩]⟩,
   ⟨0x14C, [], false, [⟨31, 0, .rc64Hi, 0, none⟩]⟩,
   ⟨0x150, [], false, [⟨31, 0, .rc64Lo, 0, none⟩]⟩,
   ⟨0x154, [], false, [⟨31, 0, .rc64Hi, 0, none⟩]⟩,
   ⟨0x158, [], false, [⟨31, 0, .rc64Lo, 0, none⟩]⟩,
   ⟨0x15C, [], false, [⟨31, 0, .rc64Hi, 0, none⟩]⟩,
   ⟨0x160, [], false, [⟨31, 0, .rc64Lo, 0, none⟩]⟩,
   ⟨0x164, [], false, [⟨31, 0, .rc64Hi, 0, none⟩]⟩,
   ⟨0x168, [], false, [⟨31, 0, .rc64Lo, 0, none⟩]⟩,
   ⟨0x16C, [], false, [⟨31, 0, .rc64Hi, 0, none⟩]⟩,
   ⟨0x170, [], false, [⟨31, 0, .rc64Lo, 0, none⟩]⟩,
   ⟨0x174, [], false, [⟨31, 0, .rc64Hi, 0, none⟩]⟩,
   ⟨0x178, [], false, [⟨31, 0, .rc64Lo, 0, none⟩]⟩,
   ⟨0x17C, [], false, [⟨31, 0, .rc64Hi, 0, none⟩]⟩,
   ⟨0x180, [], false, [⟨31, 0, .rc64Lo, 0, none⟩]⟩,
   ⟨0x184, [], false, [⟨31, 0, .rc64Hi, 0, none⟩]⟩,
   ⟨0x188, [], false, [⟨31, 0, .rc64Lo, 0, none⟩]⟩,
   ⟨0x18C, [], false, [⟨31, 0, .rc64Hi, 0, none⟩]⟩,
   ⟨0x190, [], false, [⟨31, 0, .rc64Lo, 0, none⟩]⟩,
   ⟨0x194, [], false, [⟨31, 0, .rc64Hi, 0, none⟩]⟩,
   ⟨0x198, [], false, [⟨31, 0, .rc64Lo, 0, none⟩]⟩,
   ⟨0x19C, [], false, [⟨31, 0, .rc64Hi, 0, none⟩]⟩,
   ⟨0x1A0, [], false, [⟨31, 0, .rc64Lo, 0, none⟩]⟩,
   ⟨0x1A4, [], false, [⟨31, 0, .rc64Hi, 0, none⟩]⟩,
   ⟨0x1A8, [], false, [⟨31, 0, .rc64Lo, 0, none⟩]⟩,
   ⟨0x1AC, [], false, [⟨31, 0, .rc64Hi, 0, none⟩]⟩,
   ⟨0x1B0, [], false, [⟨31, 0, .rc64Lo, 0, none⟩]⟩,
   ⟨0x1B4, [], false, [⟨31, 0, .rc64Hi, 0, none⟩]⟩,
   ⟨0x1B8, [], false, [⟨31, 0, .rc64Lo, 0, none⟩]⟩,
   ⟨0x1BC, [], false, [⟨31, 0, .rc64Hi, 0, none⟩]⟩,
   ⟨0x1C0, [], false, [⟨31, 0, .rc64Lo, 0, none⟩]⟩,
   ⟨0x1C4, [], false, [⟨31, 0, .rc64Hi, 0, none⟩]⟩,
   ⟨0x1C8, [], false, [⟨31, 0, .rc64Lo, 0, none⟩]⟩] ++
  [⟨0x1CC, [], false, [⟨31, 0, .rc64Hi, 0, none⟩]⟩,
   ⟨0x1D0, [], false, [⟨31, 0, .rc64Lo, 0, none⟩]⟩,
   ⟨0x1D4, [], false, [⟨31, 0, .rc64Hi, 0, none⟩]⟩,
   ⟨0x1D8, [], false, [⟨31, 0, .rc64Lo, 0, none⟩]⟩,
   ⟨0x1DC, [], false, [⟨31, 0, .rc64Hi, 0, none⟩]⟩,
   ⟨0x1E0, [], false, [⟨31, 0, .rc64Lo, 0, none⟩]⟩,
   ⟨0x1E4, [], false, [⟨31, 0, .rc64Hi, 0, none⟩]⟩,
   ⟨0x1E8, [], false, [⟨31, 0, .rc64Lo, 0, none⟩]⟩,
   ⟨0x1EC, [], false, [⟨31, 0, .rc64Hi, 0, none⟩]⟩,
   ⟨0x1F0, [], false, [⟨31, 0, .rc64Lo, 0, none⟩]⟩,
   ⟨0x1F4, [], false, [⟨31, 0, .rc64Hi, 0, none⟩]⟩,
   ⟨0x1F8, [], false, [⟨31, 0, .rc64Lo, 0, none⟩]⟩,
   ⟨0x1FC, [], false, [⟨31, 0, .rc64Hi, 0, none⟩]⟩,
   ⟨0x38, [], false, [⟨31, 31, .rw, 0, none⟩, ⟨30, 30, .rw, 0, none⟩, ⟨29, 28, .ro, 0, none⟩]⟩]

/-- Registers of `swc` pages, from the spec's register tables. -/
def swcRows : List Row :=
  [⟨0x100, [], false, [⟨31, 0, .ro, 0, none⟩]⟩,
   ⟨0x104, [], false, [⟨31, 31, .sc, 0, none⟩, ⟨30, 30, .rw, 0, none⟩, ⟨29, 28, .rw, 0, none⟩, ⟨27, 24, .rw, 0, none⟩, ⟨15, 0, .rw, 0, none⟩]⟩,
   ⟨0x108, [], false, [⟨31, 31, .ro, 0, none⟩, ⟨27, 24, .ro, 0, none⟩, ⟨20, 16, .ro, 0, none⟩, ⟨15, 0, .ro, 0, none⟩]⟩,
   ⟨0x10C, [], false, [⟨31, 0, .rw, 0, none⟩]⟩,
   ⟨0x110, [(4, 4)], false, [⟨31, 0, .rw, 0, none⟩]⟩,
   ⟨0x120, [], false, [⟨31, 31, .sc, 0, none⟩, ⟨15, 0, .rw, 0, none⟩]⟩,
   ⟨0x124, [], false, [⟨31, 31, .ro, 0, none⟩, ⟨30, 30, .ro, 0, none⟩, ⟨29, 29, .ro, 0, none⟩, ⟨28, 24, .ro, 0, none⟩]⟩,
   ⟨0x128, [], false, [⟨16, 0, .ro, 98304, none⟩]⟩,
   ⟨0x12C, [], true, [⟨7, 1, .rw, 0x7F, none⟩]⟩,
   ⟨0x130, [], true, [⟨15, 0, .rw, 300, none⟩]⟩,
   ⟨0x134, [], false, [⟨31, 31, .ro, 0, none⟩]⟩,
   ⟨0x138, [], false, [⟨31, 31, .ro, 1, none⟩]⟩,
   ⟨0x13C, [], false, [⟨31, 16, .rc, 0, none⟩, ⟨15, 0, .rc, 0, none⟩]⟩,
   ⟨0x140, [(8, 4)], false, [⟨31, 0, .rw, 0, none⟩]⟩,
   ⟨0x200, [(25, 16)], false, [⟨31, 31, .rw, 1, none⟩, ⟨30, 30, .rw, 1, none⟩, ⟨29, 29, .rw, 0, none⟩, ⟨28, 28, .rw, 0, none⟩, ⟨27, 27, .rw, 1, none⟩, ⟨26, 26, .rw, 0, none⟩, ⟨25, 16, .rw, 0, none⟩, ⟨15, 0, .rw, 10, none⟩]⟩,
   ⟨0x204, [(25, 16)], false, [⟨26, 24, .rw, 0, none⟩, ⟨23, 0, .rw, 0xFAC688, none⟩]⟩,
   ⟨0x208, [(25, 16)], false, [⟨11, 0, .rw, 1, none⟩]⟩,
   ⟨0xB00, [(25, 32)], false, [⟨31, 31, .rw, 0, none⟩, ⟨8, 0, .rw, 1, none⟩]⟩,
   ⟨0xB04, [(25, 32)], false, [⟨31, 0, .rw, 0, none⟩]⟩,
   ⟨0xB08, [(25, 32)], false, [⟨31, 0, .rw, 0, none⟩]⟩,
   ⟨0xB0C, [(25, 32)], false, [⟨31, 0, .rw, 1000000, none⟩]⟩,
   ⟨0xB10, [(25, 32)], false, [⟨0, 0, .sc, 0, none⟩]⟩,
   ⟨0xB14, [(25, 32)], false, [⟨31, 31, .ro, 0, none⟩, ⟨30, 30, .ro, 0, none⟩, ⟨29, 29, .ro, 0, none⟩, ⟨7, 0, .ro, 0, none⟩]⟩,
   ⟨0x400, [(25, 64)], false, [⟨31, 0, .rc, 0, none⟩]⟩,
   ⟨0x404, [(25, 64)], false, [⟨31, 0, .rc, 0, none⟩]⟩,
   ⟨0x408, [(25, 64)], false, [⟨31, 0, .rc, 0, none⟩]⟩,
   ⟨0x40C, [(25, 64)], false, [⟨31, 0, .rc, 0, none⟩]⟩,
   ⟨0x410, [(25, 64)], false, [⟨31, 0, .rc, 0, none⟩]⟩,
   ⟨0x414, [(25, 64)], false, [⟨31, 0, .rc, 0, none⟩]⟩,
   ⟨0x418, [(25, 64)], false, [⟨31, 0, .rc, 0, none⟩]⟩,
   ⟨0x41C, [(25, 64)], false, [⟨31, 0, .rc, 0, none⟩]⟩,
   ⟨0x420, [(25, 64)], false, [⟨31, 0, .rc, 0, none⟩]⟩,
   ⟨0x424, [(25, 64)], false, [⟨31, 0, .rc, 0, none⟩]⟩,
   ⟨0x428, [(25, 64)], false, [⟨31, 0, .rc, 0, none⟩]⟩,
   ⟨0x42C, [(25, 64)], false, [⟨31, 0, .rc, 0, none⟩]⟩,
   ⟨0x430, [(25, 64)], false, [⟨31, 0, .rc, 0, none⟩]⟩,
   ⟨0x434, [(25, 64)], false, [⟨31, 0, .rc, 0, none⟩]⟩,
   ⟨0x438, [(25, 64)], false, [⟨31, 0, .rc, 0, none⟩]⟩,
   ⟨0x43C, [(25, 64)], false, [⟨31, 0, .rc, 0, none⟩]⟩]

/-- Registers of `tmb` pages, from the spec's register tables. -/
def tmbRows : List Row :=
  [⟨0x100, [], false, [⟨31, 0, .ro, 0, none⟩]⟩,
   ⟨0x104, [], false, [⟨31, 0, .ro, 0, none⟩]⟩,
   ⟨0x108, [], true, [⟨9, 0, .rw, 100, none⟩]⟩,
   ⟨0x10C, [], false, [⟨31, 0, .rw, 0, none⟩]⟩,
   ⟨0x110, [], false, [⟨31, 0, .rw, 0, none⟩]⟩,
   ⟨0x114, [], false, [⟨31, 31, .ro, 0, none⟩, ⟨30, 30, .ro, 0, none⟩, ⟨19, 16, .ro, 0, none⟩, ⟨3, 0, .ro, 0, none⟩]⟩,
   ⟨0x118, [], false, [⟨31, 0, .sp, 0, none⟩]⟩,
   ⟨0x11C, [], false, [⟨31, 0, .sp, 0, none⟩]⟩,
   ⟨0x120, [], false, [⟨0, 0, .spSc, 0, none⟩]⟩,
   ⟨0x124, [], false, [⟨19, 0, .rw, 0, none⟩]⟩,
   ⟨0x128, [], true, [⟨31, 31, .rw, 0, none⟩, ⟨30, 30, .rw, 0, none⟩, ⟨15, 0, .rw, 0, none⟩]⟩,
   ⟨0x12C, [], false, [⟨31, 0, .ro, 0, none⟩]⟩,
   ⟨0x130, [], false, [⟨31, 0, .ro, 0, none⟩]⟩,
   ⟨0x134, [], false, [⟨31, 31, .sc, 0, none⟩, ⟨19, 16, .rw, 0, none⟩, ⟨15, 0, .rw, 0, none⟩]⟩,
   ⟨0x138, [], false, [⟨31, 0, .ro, 0, none⟩]⟩,
   ⟨0x13C, [], false, [⟨31, 0, .ro, 0, none⟩]⟩,
   ⟨0x140, [], false, [⟨31, 0, .ro, 0, none⟩]⟩,
   ⟨0x144, [], false, [⟨31, 0, .ro, 0, none⟩]⟩,
   ⟨0x148, [(4, 4)], false, [⟨31, 0, .ro, 0, none⟩]⟩,
   ⟨0x158, [], false, [⟨31, 0, .wo, 0, none⟩]⟩,
   ⟨0x15C, [], false, [⟨31, 0, .rc, 0, none⟩]⟩,
   ⟨0x160, [], false, [⟨31, 31, .sc, 0, none⟩, ⟨28, 24, .rw, 0, none⟩, ⟨7, 0, .rw, 44, none⟩]⟩,
   ⟨0x164, [], false, [⟨31, 31, .ro, 0, none⟩, ⟨1, 0, .ro, 0, none⟩]⟩,
   ⟨0x200, [(32, 4)], false, [⟨31, 0, .rw, 0, none⟩]⟩]

/-- Registers of `srt` pages, from the spec's register tables. -/
def srtRows : List Row :=
  [⟨0x100, [], true, [⟨31, 24, .rw, 0, none⟩]⟩,
   ⟨0x104, [], true, [⟨7, 0, .rw, 0x10, none⟩]⟩,
   ⟨0x108, [], true, [⟨31, 16, .rw, 0, none⟩, ⟨11, 0, .rw, 0, none⟩]⟩,
   ⟨0x10C, [], true, [⟨31, 31, .rw, 0, none⟩, ⟨30, 30, .rw, 0, none⟩, ⟨26, 24, .rw, 0, none⟩, ⟨23, 16, .rw, 0, none⟩, ⟨15, 0, .rw, 0x88B5, none⟩]⟩,
   ⟨0x110, [], false, [⟨11, 0, .rw, 1, none⟩]⟩,
   ⟨0x114, [], false, [⟨31, 0, .rw, 0, none⟩]⟩,
   ⟨0x118, [], false, [⟨15, 0, .rw, 0, none⟩]⟩,
   ⟨0x11C, [], false, [⟨31, 0, .rw, 0, none⟩]⟩,
   ⟨0x120, [], false, [⟨15, 0, .rw, 0, none⟩]⟩,
   ⟨0x130, [], false, [⟨31, 0, .rw, 0, none⟩]⟩,
   ⟨0x134, [], false, [⟨31, 0, .rw, 0, none⟩]⟩,
   ⟨0x138, [], false, [⟨30, 25, .wo, 0, none⟩, ⟨24, 0, .wo, 0, none⟩]⟩,
   ⟨0x13C, [], false, [⟨30, 25, .rw, 0, none⟩, ⟨24, 0, .rw, 0, none⟩]⟩,
   ⟨0x140, [(4, 4)], false, [⟨31, 0, .ro, 0, none⟩]⟩,
   ⟨0x150, [], false, [⟨31, 28, .ro, 0, none⟩, ⟨15, 0, .ro, 0, none⟩]⟩,
   ⟨0x400, [(64, 4)], false, [⟨31, 31, .rw, 0, none⟩, ⟨30, 30, .ro, 0, none⟩, ⟨29, 28, .ro, 0, none⟩, ⟨8, 0, .rw, 0, none⟩]⟩,
   ⟨0x200, [], true, [⟨10, 0, .rw, 0x09D, none⟩]⟩,
   ⟨0x204, [], true, [⟨31, 12, .rw, 0x9F000, none⟩]⟩,
   ⟨0x208, [], true, [⟨7, 0, .rw, 0x13, none⟩]⟩,
   ⟨0x20C, [], true, [⟨7, 0, .rw, 16, none⟩]⟩,
   ⟨0x210, [], false, [⟨31, 31, .sc, 0, none⟩, ⟨30, 30, .ro, 0, none⟩, ⟨29, 29, .ro, 0, none⟩, ⟨28, 28, .ro, 0, none⟩, ⟨15, 0, .ro, 0, none⟩]⟩,
   ⟨0x214, [], false, [⟨24, 0, .rw, 0, none⟩]⟩,
   ⟨0x218, [(4, 4)], false, [⟨31, 0, .rw, 0, none⟩]⟩,
   ⟨0x228, [], false, [⟨31, 0, .wo, 0, none⟩]⟩,
   ⟨0x22C, [], false, [⟨31, 31, .ro, 0, none⟩, ⟨25, 24, .ro, 0, none⟩, ⟨12, 0, .ro, 0, none⟩]⟩,
   ⟨0x230, [], false, [⟨31, 0, .wo, 0, none⟩]⟩,
   ⟨0x240, [], false, [⟨15, 0, .rw, 0, none⟩]⟩,
   ⟨0x244, [], false, [⟨31, 31, .sc, 0, none⟩, ⟨15, 0, .rw, 0, none⟩]⟩,
   ⟨0x248, [], false, [⟨31, 31, .ro, 0, none⟩, ⟨30, 30, .ro, 0, none⟩, ⟨29, 29, .ro, 0, none⟩, ⟨15, 0, .ro, 0, none⟩]⟩,
   ⟨0x250, [], false, [⟨31, 31, .sc, 0, none⟩, ⟨24, 0, .rw, 0, none⟩]⟩,
   ⟨0x254, [], false, [⟨16, 0, .rw, 1, none⟩]⟩,
   ⟨0x258, [], false, [⟨31, 31, .ro, 0, none⟩, ⟨15, 0, .ro, 0, none⟩]⟩,
   ⟨0x25C, [], false, [⟨31, 0, .wo, 0, none⟩]⟩,
   ⟨0x260, [], false, [⟨31, 30, .ro, 0, none⟩, ⟨24, 0, .ro, 0, none⟩]⟩,
   ⟨0x2A0, [], false, [⟨31, 31, .ro, 0, none⟩, ⟨24, 0, .rw, 0, none⟩]⟩,
   ⟨0x2A4, [(4, 4)], false, [⟨31, 0, .ro, 0, none⟩]⟩,
   ⟨0x180, [], false, [⟨31, 0, .rc, 0, none⟩]⟩,
   ⟨0x184, [], false, [⟨31, 0, .rc, 0, none⟩]⟩,
   ⟨0x188, [], false, [⟨31, 0, .rc, 0, none⟩]⟩,
   ⟨0x18C, [], false, [⟨31, 0, .rc, 0, none⟩]⟩] ++
  [⟨0x190, [], false, [⟨31, 0, .rc, 0, none⟩]⟩,
   ⟨0x194, [], false, [⟨31, 0, .rc, 0, none⟩]⟩,
   ⟨0x198, [], false, [⟨31, 0, .rc, 0, none⟩]⟩,
   ⟨0x19C, [], false, [⟨31, 0, .rc, 0, none⟩]⟩,
   ⟨0x1A0, [], false, [⟨31, 0, .rc, 0, none⟩]⟩,
   ⟨0x1A4, [], false, [⟨31, 0, .rc, 0, none⟩]⟩,
   ⟨0x1A8, [], false, [⟨31, 0, .rc, 0, none⟩]⟩,
   ⟨0x1AC, [], false, [⟨31, 0, .rc, 0, none⟩]⟩,
   ⟨0x1B0, [], false, [⟨31, 0, .rc, 0, none⟩]⟩,
   ⟨0x1B4, [], false, [⟨31, 0, .rc, 0, none⟩]⟩,
   ⟨0x1B8, [], false, [⟨31, 0, .rc, 0, none⟩]⟩,
   ⟨0x1BC, [], false, [⟨31, 0, .rc, 0, none⟩]⟩,
   ⟨0x280, [], false, [⟨31, 0, .rc, 0, none⟩]⟩,
   ⟨0x284, [], false, [⟨31, 0, .rc, 0, none⟩]⟩,
   ⟨0x288, [], false, [⟨31, 0, .rc, 0, none⟩]⟩,
   ⟨0x28C, [], false, [⟨31, 0, .rc, 0, none⟩]⟩,
   ⟨0x290, [], false, [⟨31, 0, .rc, 0, none⟩]⟩,
   ⟨0x294, [], false, [⟨31, 0, .rc, 0, none⟩]⟩,
   ⟨0x298, [], false, [⟨31, 0, .rc, 0, none⟩]⟩,
   ⟨0x29C, [], false, [⟨31, 0, .rc, 0, none⟩]⟩]

/-- Registers of `nmc` pages, from the spec's register tables. -/
def nmcRows : List Row :=
  [⟨0x100, [], false, [⟨31, 16, .rw, 0, none⟩, ⟨15, 15, .rw, 0, none⟩, ⟨14, 12, .rw, 3, none⟩, ⟨11, 11, .rw, 0, none⟩]⟩,
   ⟨0x104, [], false, [⟨31, 31, .ro, 0, none⟩, ⟨30, 30, .ro, 1, none⟩, ⟨29, 29, .ro, 0, none⟩]⟩,
   ⟨0x108, [], false, [⟨15, 8, .sp, 0, none⟩, ⟨1, 1, .spSc, 0, none⟩, ⟨0, 0, .spSc, 0, none⟩]⟩,
   ⟨0x10C, [], false, [⟨15, 8, .wo, 0, none⟩, ⟨0, 0, .wo, 0, none⟩]⟩,
   ⟨0x110, [], false, [⟨31, 31, .ro, 1, none⟩, ⟨27, 24, .ro, 1, none⟩, ⟨1, 0, .ro, 0, none⟩]⟩,
   ⟨0x114, [], false, [⟨0, 0, .sp, 0, none⟩]⟩,
   ⟨0x118, [], false, [⟨31, 0, .rc, 0, none⟩]⟩,
   ⟨0x120, [], true, [⟨31, 31, .rw, 1, none⟩, ⟨15, 0, .rw, 0x88B6, none⟩]⟩,
   ⟨0x124, [], true, [⟨31, 0, .rw, 0, none⟩]⟩,
   ⟨0x128, [], true, [⟨15, 0, .rw, 0, none⟩]⟩,
   ⟨0x12C, [], true, [⟨31, 0, .rw, 0, none⟩]⟩,
   ⟨0x130, [], true, [⟨15, 0, .rw, 0, none⟩]⟩,
   ⟨0x140, [], false, [⟨31, 31, .ro, 0, none⟩, ⟨5, 0, .ro, 0, none⟩]⟩,
   ⟨0x144, [], false, [⟨31, 0, .wo, 0, none⟩]⟩,
   ⟨0x148, [(4, 4)], false, [⟨31, 0, .ro, 0, none⟩]⟩,
   ⟨0x160, [], false, [⟨31, 0, .ro, 0, none⟩]⟩,
   ⟨0x164, [], false, [⟨3, 0, .ro, 0, none⟩]⟩,
   ⟨0x300, [(64, 4)], false, [⟨31, 31, .ro, 0, none⟩, ⟨7, 0, .ro, 0, none⟩]⟩,
   ⟨0x400, [(36, 64)], false, [⟨31, 31, .rw, 0, none⟩, ⟨30, 30, .rw, 0, none⟩, ⟨29, 29, .rw, 1, none⟩, ⟨27, 24, .rw, 8, none⟩, ⟨20, 20, .rw, 0, none⟩, ⟨19, 15, .rw, 0, none⟩, ⟨7, 0, .rw, 0, none⟩]⟩,
   ⟨0x404, [(36, 64)], false, [⟨31, 16, .rw, 2000, none⟩, ⟨15, 0, .rw, 1500, none⟩]⟩,
   ⟨0x408, [(36, 64)], false, [⟨31, 16, .rw, 2000, none⟩, ⟨15, 0, .rw, 100, none⟩]⟩,
   ⟨0x40C, [(36, 64)], false, [⟨31, 31, .rw, 0, none⟩, ⟨28, 0, .rw, 0x500, none⟩]⟩,
   ⟨0x410, [(36, 64)], false, [⟨28, 0, .rw, 0x1FFFFF00, none⟩]⟩,
   ⟨0x414, [(36, 64)], false, [⟨1, 1, .sc, 0, none⟩, ⟨0, 0, .rw, 0, none⟩]⟩,
   ⟨0x418, [(36, 64)], false, [⟨0, 0, .sp, 0, none⟩]⟩,
   ⟨0x41C, [(36, 64)], false, [⟨31, 29, .ro, 7, none⟩, ⟨28, 28, .ro, 0, none⟩, ⟨27, 27, .ro, 0, none⟩, ⟨26, 26, .ro, 0, none⟩, ⟨25, 25, .ro, 0, none⟩, ⟨24, 22, .ro, 0, none⟩, ⟨15, 8, .ro, 0, none⟩]⟩,
   ⟨0x420, [(36, 64)], false, [⟨31, 0, .rw, 0, none⟩]⟩,
   ⟨0x424, [(36, 64)], false, [⟨23, 16, .rw, 0, none⟩, ⟨15, 0, .rw, 0, none⟩]⟩,
   ⟨0x428, [(36, 64)], false, [⟨31, 0, .ro, 0, none⟩]⟩,
   ⟨0x42C, [(36, 64)], false, [⟨31, 0, .ro, 0, none⟩]⟩,
   ⟨0x430, [(36, 64)], false, [⟨31, 0, .ro, 0, none⟩]⟩,
   ⟨0x434, [(36, 64)], false, [⟨31, 0, .ro, 0, none⟩]⟩,
   ⟨0x438, [(36, 64)], false, [⟨31, 0, .wo, 0, none⟩]⟩,
   ⟨0x43C, [(36, 64)], false, [⟨31, 24, .rc, 0, none⟩, ⟨23, 16, .rc, 0, none⟩, ⟨15, 8, .rc, 0, none⟩, ⟨7, 0, .rc, 0, none⟩]⟩,
   ⟨0xE00, [(8, 32)], false, [⟨31, 30, .rw, 0, none⟩, ⟨29, 29, .rw, 0, none⟩, ⟨28, 28, .rw, 1, none⟩, ⟨27, 27, .rw, 0, none⟩, ⟨25, 24, .rw, 2, none⟩, ⟨3, 0, .rw, 0, none⟩]⟩,
   ⟨0xE04, [(8, 32)], false, [⟨31, 31, .rw, 0, none⟩, ⟨28, 0, .rw, 0, none⟩]⟩,
   ⟨0xE08, [(8, 32)], false, [⟨28, 0, .rw, 0x1FFFFFFF, none⟩]⟩,
   ⟨0xE0C, [(8, 32)], false, [⟨31, 0, .rw, 0, none⟩]⟩,
   ⟨0xE10, [(8, 32)], false, [⟨31, 0, .rw, 0, none⟩]⟩,
   ⟨0xE14, [(8, 32)], false, [⟨31, 31, .ro, 0, none⟩, ⟨30, 30, .ro, 0, none⟩, ⟨5, 0, .ro, 0, none⟩]⟩]

/-- Registers of `flk` pages, from the spec's register tables. -/
def flkRows : List Row :=
  [⟨0x100, [], false, [⟨31, 31, .ro, 0, none⟩, ⟨30, 28, .ro, 0, none⟩, ⟨5, 0, .ro, 0, none⟩]⟩,
   ⟨0x104, [], false, [⟨31, 31, .ro, 0, none⟩, ⟨30, 30, .ro, 0, none⟩, ⟨29, 29, .ro, 0, none⟩, ⟨28, 28, .ro, 0, none⟩, ⟨22, 16, .ro, 1, none⟩]⟩,
   ⟨0x108, [], false, [⟨31, 0, .ro, 0, none⟩]⟩,
   ⟨0x10C, [], false, [⟨31, 0, .ro, 0, none⟩]⟩,
   ⟨0x110, [], true, [⟨23, 16, .rw, 10, none⟩, ⟨15, 0, .rw, 1000, none⟩]⟩,
   ⟨0x114, [], false, [⟨11, 8, .rw, 4, none⟩, ⟨7, 4, .rw, 4, none⟩, ⟨3, 0, .rw, 1, none⟩]⟩,
   ⟨0x118, [], true, [⟨31, 31, .rw, 0, none⟩, ⟨12, 0, .rw, 0x200, none⟩]⟩,
   ⟨0x11C, [], false, [⟨0, 0, .sc, 0, none⟩]⟩,
   ⟨0x120, [], false, [⟨31, 31, .rw, 0, none⟩, ⟨30, 30, .rw, 0, none⟩, ⟨29, 29, .rw, 1, none⟩]⟩,
   ⟨0x124, [], false, [⟨31, 31, .ro, 0, none⟩, ⟨3, 3, .ro, 0, none⟩, ⟨2, 2, .ro, 0, none⟩, ⟨1, 1, .ro, 0, none⟩, ⟨0, 0, .ro, 0, none⟩]⟩,
   ⟨0x128, [], true, [⟨31, 31, .rw, 0, none⟩, ⟨23, 16, .rw, 100, none⟩, ⟨15, 0, .rw, 300, none⟩]⟩,
   ⟨0x12C, [], false, [⟨31, 28, .ro, 0, none⟩, ⟨27, 22, .ro, 0, none⟩, ⟨15, 0, .ro, 0, none⟩]⟩,
   ⟨0x130, [], false, [⟨31, 16, .rc, 0, none⟩, ⟨15, 0, .rc, 0, none⟩]⟩]

/-- Registers of `flk` cell pages, from the spec's register tables. -/
def flkCellRows : List Row :=
  [⟨0x20, [], false, [⟨1, 0, .rw, 0x3, none⟩]⟩,
   ⟨0x24, [], false, [⟨0, 0, .sc, 0, none⟩]⟩,
   ⟨0x28, [], false, [⟨31, 29, .ro, 0, none⟩, ⟨28, 27, .ro, 0, none⟩, ⟨26, 26, .ro, 0, none⟩, ⟨25, 25, .ro, 0, none⟩, ⟨21, 16, .ro, 0, none⟩]⟩,
   ⟨0x40, [], false, [⟨31, 0, .rc, 0, none⟩]⟩,
   ⟨0x44, [], false, [⟨31, 0, .rc, 0, none⟩]⟩,
   ⟨0x48, [], false, [⟨31, 0, .rc, 0, none⟩]⟩,
   ⟨0x4C, [], false, [⟨31, 0, .rc, 0, none⟩]⟩,
   ⟨0x50, [], false, [⟨31, 0, .rc, 0, none⟩]⟩,
   ⟨0x54, [], false, [⟨31, 0, .rc, 0, none⟩]⟩,
   ⟨0x58, [], false, [⟨31, 0, .rc, 0, none⟩]⟩,
   ⟨0x5C, [], false, [⟨31, 0, .rc, 0, none⟩]⟩]

/-- Registers of `hbr` pages, from the spec's register tables. -/
def hbrRows : List Row :=
  [⟨0x100, [], true, [⟨21, 16, .rw, 16, none⟩, ⟨15, 0, .rw, 1000, none⟩]⟩,
   ⟨0x104, [], true, [⟨31, 16, .rw, 1000, none⟩, ⟨15, 8, .rw, 50, none⟩, ⟨7, 0, .rw, 0, none⟩]⟩,
   ⟨0x108, [], false, [⟨15, 0, .rw, 1000, none⟩]⟩,
   ⟨0x10C, [], false, [⟨31, 31, .ro, 0, none⟩, ⟨30, 30, .ro, 0, none⟩, ⟨18, 16, .ro, 0, none⟩, ⟨10, 8, .ro, 0, none⟩, ⟨5, 0, .ro, 0, none⟩]⟩,
   ⟨0x110, [], false, [⟨31, 16, .ro, 0x9664, none⟩, ⟨15, 0, .ro, 0x9665, none⟩]⟩,
   ⟨0x114, [], false, [⟨22, 16, .ro, 0, none⟩, ⟨6, 0, .ro, 0, none⟩]⟩,
   ⟨0x118, [], false, [⟨31, 28, .ro, 0, none⟩, ⟨21, 16, .ro, 0, none⟩, ⟨15, 0, .ro, 0, none⟩]⟩,
   ⟨0x120, [], false, [⟨31, 31, .ro, 0, none⟩, ⟨30, 30, .ro, 0, none⟩, ⟨29, 29, .ro, 0, none⟩, ⟨15, 0, .ro, 0, none⟩]⟩,
   ⟨0x124, [], false, [⟨15, 0, .rw, 100, none⟩]⟩,
   ⟨0x200, [(64, 4)], false, [⟨31, 31, .w1s, 0, none⟩, ⟨30, 30, .ro, 0, none⟩, ⟨29, 29, .wo, 0, none⟩, ⟨15, 14, .ro, 0, none⟩, ⟨13, 8, .ro, 0, none⟩, ⟨7, 0, .ro, 0, none⟩]⟩,
   ⟨0x300, [(64, 8)], false, [⟨31, 6, .rw, 0, none⟩]⟩,
   ⟨0x304, [(64, 8)], false, [⟨7, 0, .rw, 0, none⟩]⟩,
   ⟨0x700, [(257, 8)], false, [⟨31, 6, .rw, 0, none⟩, ⟨5, 5, .rw, 0, none⟩, ⟨4, 4, .w1c, 0, none⟩, ⟨3, 0, .rw, 4, none⟩]⟩,
   ⟨0x704, [(257, 8)], false, [⟨31, 22, .rw, 0, none⟩, ⟨21, 12, .ro, 0, none⟩, ⟨11, 11, .ro, 0, none⟩, ⟨7, 0, .rw, 0, none⟩]⟩,
   ⟨0x180, [], false, [⟨31, 0, .rc, 0, none⟩]⟩,
   ⟨0x184, [], false, [⟨31, 0, .rc, 0, none⟩]⟩,
   ⟨0x188, [], false, [⟨31, 0, .rc, 0, none⟩]⟩,
   ⟨0x18C, [], false, [⟨31, 0, .rc, 0, none⟩]⟩,
   ⟨0x190, [], false, [⟨31, 0, .rc, 0, none⟩]⟩,
   ⟨0x194, [], false, [⟨31, 0, .rc, 0, none⟩]⟩,
   ⟨0x198, [], false, [⟨31, 0, .rc, 0, none⟩]⟩,
   ⟨0x19C, [], false, [⟨31, 0, .rc, 0, none⟩]⟩]

/-- Registers of `iomPage` pages, from the spec's register tables. -/
def iomPageRows : List Row :=
  [⟨0x0, [(16, 4)], false, [⟨31, 0, .rw, 0, none⟩]⟩,
   ⟨0x40, [(16, 4)], false, [⟨31, 0, .ro, 0, none⟩]⟩,
   ⟨0x80, [], false, [⟨1, 1, .wo, 0, none⟩, ⟨0, 0, .wo, 0, none⟩]⟩,
   ⟨0x84, [], false, [⟨31, 31, .ro, 0, none⟩, ⟨30, 27, .ro, 0, none⟩, ⟨26, 26, .ro, 0, none⟩, ⟨25, 25, .ro, 0, none⟩, ⟨24, 24, .ro, 0, none⟩, ⟨23, 23, .ro, 0, none⟩, ⟨15, 8, .ro, 0, none⟩, ⟨7, 0, .ro, 0, none⟩]⟩,
   ⟨0x88, [], false, [⟨4, 0, .rw, 0, none⟩]⟩,
   ⟨0x8C, [], false, [⟨31, 0, .wo, 0, none⟩]⟩,
   ⟨0x90, [], false, [⟨31, 0, .ro, 0, none⟩]⟩,
   ⟨0x94, [], false, [⟨31, 0, .rw, 0, none⟩]⟩,
   ⟨0x98, [], false, [⟨31, 0, .rw, 0, none⟩]⟩]

/-- Registers of `iom` pages, from the spec's register tables. -/
def iomRows : List Row :=
  [⟨0x100, [], true, [⟨31, 31, .rw, 0, none⟩]⟩,
   ⟨0x110, [(8, 4)], false, [⟨31, 0, .ro, 0, none⟩]⟩,
   ⟨0x130, [(8, 4)], false, [⟨31, 0, .w1c, 0, none⟩]⟩,
   ⟨0x150, [], false, [⟨8, 0, .ro, 0, none⟩]⟩,
   ⟨0x800, [], false, [⟨31, 31, .sc, 0, none⟩, ⟨27, 24, .rw, 0, none⟩, ⟨20, 20, .rw, 0, none⟩, ⟨7, 0, .rw, 0, none⟩]⟩,
   ⟨0x804, [], false, [⟨31, 31, .ro, 0, none⟩, ⟨27, 24, .ro, 0, none⟩, ⟨19, 16, .ro, 0, none⟩, ⟨7, 0, .ro, 0, none⟩]⟩,
   ⟨0x808, [], false, [⟨31, 0, .rw, 0, none⟩]⟩,
   ⟨0x80C, [], false, [⟨7, 0, .rw, 0, none⟩]⟩,
   ⟨0x810, [], false, [⟨24, 0, .rw, 0, none⟩]⟩,
   ⟨0x814, [], false, [⟨5, 0, .rw, 0, none⟩]⟩,
   ⟨0x818, [], false, [⟨31, 0, .rw, 0, none⟩]⟩,
   ⟨0x81C, [], false, [⟨7, 0, .rw, 0, none⟩]⟩,
   ⟨0x820, [], false, [⟨7, 0, .rw, 0, none⟩]⟩,
   ⟨0x824, [], false, [⟨23, 0, .rw, 0, none⟩]⟩,
   ⟨0x828, [], false, [⟨31, 12, .rw, 0, none⟩]⟩,
   ⟨0x82C, [], false, [⟨7, 0, .rw, 0, none⟩]⟩,
   ⟨0x830, [], false, [⟨31, 6, .ro, 0, none⟩]⟩,
   ⟨0x834, [], false, [⟨7, 0, .ro, 0, none⟩]⟩,
   ⟨0x838, [], false, [⟨31, 6, .rw, 0, none⟩]⟩,
   ⟨0x83C, [], false, [⟨7, 0, .rw, 0, none⟩]⟩,
   ⟨0x840, [], false, [⟨31, 31, .ro, 0, none⟩, ⟨30, 30, .ro, 0, none⟩, ⟨29, 29, .ro, 0, none⟩, ⟨28, 28, .ro, 0, none⟩, ⟨27, 27, .ro, 0, none⟩]⟩,
   ⟨0x844, [], false, [⟨31, 31, .ro, 0, none⟩, ⟨27, 22, .ro, 0, none⟩, ⟨21, 14, .ro, 0, none⟩, ⟨12, 0, .ro, 0, none⟩]⟩]

/-- Registers of `iom` cell pages, from the spec's register tables. -/
def iomCellRows : List Row :=
  [⟨0x20, [], false, [⟨31, 28, .rw, 0, none⟩, ⟨23, 0, .rw, 0, none⟩]⟩,
   ⟨0x24, [], false, [⟨31, 30, .rw, 0, none⟩, ⟨21, 16, .rw, 0, none⟩, ⟨13, 8, .rw, 0, none⟩]⟩,
   ⟨0x28, [], false, [⟨5, 0, .rw, 4, none⟩]⟩,
   ⟨0x2C, [], false, [⟨7, 0, .ro, 0, none⟩]⟩,
   ⟨0x30, [], false, [⟨31, 31, .ro, 0, none⟩, ⟨30, 28, .ro, 0, none⟩, ⟨27, 27, .ro, 0, none⟩, ⟨26, 26, .ro, 0, none⟩, ⟨25, 25, .ro, 0, none⟩, ⟨24, 24, .ro, 0, none⟩, ⟨23, 23, .ro, 0, none⟩, ⟨3, 0, .ro, 0, none⟩]⟩,
   ⟨0x34, [], false, [⟨1, 1, .sc, 0, none⟩, ⟨0, 0, .sc, 0, none⟩]⟩,
   ⟨0x38, [], false, [⟨31, 0, .rc, 0, none⟩]⟩,
   ⟨0x40, [(16, 4)], false, [⟨31, 0, .ro, 0, none⟩]⟩,
   ⟨0x80, [(16, 4)], false, [⟨31, 0, .rw, 0, none⟩]⟩]

/-- Registers of `iomDeliv` pages, from the spec's register tables. -/
def iomDelivRows : List Row :=
  [⟨0x0, [(4, 16)], false, [⟨31, 0, .rw, 0, none⟩]⟩,
   ⟨0x4, [(4, 16)], false, [⟨31, 31, .rw, 0, none⟩, ⟨30, 30, .rw, 0, none⟩, ⟨29, 29, .ro, 0, none⟩, ⟨20, 16, .rw, 0, none⟩, ⟨7, 0, .rw, 0, none⟩]⟩,
   ⟨0x8, [(4, 16)], false, [⟨31, 0, .rw, 0, none⟩]⟩,
   ⟨0x40, [], false, [⟨31, 6, .rw, 0, none⟩]⟩,
   ⟨0x44, [], false, [⟨7, 0, .rw, 0, none⟩]⟩]

/-- The defined interrupt bits of each unit's BLK_IRQ_STAT below bit 30, as the block chapters list them. -/
def irqBits : Nat → List (Nat × Nat)
  | 0 => [(1, 0)] | 1 => [(6, 0)] | 2 => [(6, 0)] | 3 => [(7, 0)] | 4 => [(5, 0)] | 5 => [(7, 0)] | 6 => [(6, 0)]
  | 7 => [(0, 0)] | 8 => [(4, 0)] | 11 => [(7, 0), (22, 16)] | 12 => [(7, 0)] | 13 => [(5, 0)] | 14 => [(6, 0)]
  | 15 => [(7, 0)] | 16 => [(5, 0), (15, 8), (21, 16)] | 17 => [(5, 0), (15, 8), (21, 16)]
  | 18 => [(5, 0), (15, 8), (21, 16)] | 19 => [(5, 0), (15, 8), (21, 16)] | 20 => [(2, 0)] | 21 => [(12, 0)]
  | 22 => [(5, 0)] | _ => []

/-- The defined interrupt bits of each unit's CELL_IRQ_STAT below bit 31. -/
def cellIrqBits : Nat → List (Nat × Nat)
  | 6 => [(6, 0)] | 7 => [(12, 0), (19, 16)] | 9 => [(10, 0), (30, 16)] | 10 => [(7, 0)] | 13 => [(3, 0)]
  | 16 => [(5, 0), (15, 8), (20, 16)] | 17 => [(5, 0), (15, 8), (20, 16)] | 18 => [(5, 0), (15, 8), (20, 16)]
  | 19 => [(5, 0), (15, 8), (20, 16)] | _ => []

/-- The block-specific read-only bits of CELL_STAT: GLD STATE and FW_DIS (R135), LSW conducting (R304). -/
def cellStatBits : Nat → List (Nat × Nat)
  | 22 => [(9, 8)] | 16 => [(8, 8)] | 17 => [(8, 8)] | 18 => [(8, 8)] | 19 => [(8, 8)] | _ => []

/-- Single-code fields without class resets. -/
def plain (a : Acc) (bs : List (Nat × Nat)) : List FSpec := bs.map fun (h, l) => ⟨h, l, a, 0, none⟩

/-- The page header of R68 for unit `k`. On region pages and the MSU page EN, SOFT_RST and OWNER do not take writes and
ISOLATE is read-only (R71, R76). BLK_LOCK has no covered registers on those pages. -/
def headerRows (k : Nat) : List Row :=
  let top := 23 ≤ k
  [⟨0x000, [], false, [⟨31, 0, .ro, 0, none⟩]⟩,
   ⟨0x004, [], false, [⟨31, 0, .ro, 0, none⟩]⟩,
   ⟨0x008, [], false, if top then [⟨2, 2, .ro, 0, none⟩]
      else [⟨2, 2, .rw, 0, none⟩, ⟨1, 1, .sc, 0, none⟩, ⟨0, 0, .rw, 0, none⟩]⟩,
   ⟨0x00C, [], false, [⟨31, 16, .ro, 0, none⟩, ⟨4, 4, .ro, 0, none⟩, ⟨3, 3, .ro, 0, none⟩, ⟨2, 2, .ro, 0, none⟩,
      ⟨1, 1, .ro, 0, none⟩, ⟨0, 0, .ro, 0, none⟩]⟩,
   ⟨0x010, [], false, plain .w1c ((31, 31) :: (30, 30) :: irqBits k)⟩,
   ⟨0x014, [], false, plain .rw ((31, 31) :: (30, 30) :: irqBits k)⟩,
   ⟨0x018, [], false, plain .wo ((31, 31) :: (30, 30) :: irqBits k)⟩,
   ⟨0x020, [], false, plain .w1c [(3, 3), (2, 2), (1, 1), (0, 0)]⟩,
   ⟨0x024, [], false, plain .rc [(31, 24), (23, 16), (15, 8), (7, 0)]⟩,
   ⟨0x028, [], false, [⟨31, 31, .spSc, 0, none⟩, ⟨27, 16, .sp, 0xFFF, none⟩, ⟨1, 0, .sp, 0, none⟩]⟩,
   ⟨0x02C, [], false, [⟨15, 12, .bl, 6, none⟩, ⟨11, 8, .bl, 3, none⟩, ⟨7, 4, .bl, 2, none⟩, ⟨3, 0, .bl, 1, none⟩]⟩,
   ⟨0x030, [], false, [⟨5, 0, if top then .ro else .bl, 3, none⟩]⟩,
   ⟨0x034, [], false, [⟨0, 0, .w1s, 0, none⟩]⟩]

/-- The cell page header of R77 for unit `k`. -/
def cellHeaderRows (k : Nat) : List Row :=
  [⟨0x00, [], false, [⟨1, 1, .sc, 0, none⟩, ⟨0, 0, .rw, 0, none⟩]⟩,
   ⟨0x04, [], false, plain .ro ([(3, 3), (2, 2), (1, 1), (0, 0)] ++ cellStatBits k)⟩,
   ⟨0x08, [], false, plain .w1c ((31, 31) :: cellIrqBits k)⟩,
   ⟨0x0C, [], false, plain .rw ((31, 31) :: cellIrqBits k)⟩,
   ⟨0x10, [], false, plain .w1c [(3, 3), (2, 2), (1, 1), (0, 0)]⟩,
   ⟨0x14, [], false, plain .ro [(31, 16), (15, 8), (7, 0)]⟩,
   ⟨0x18, [], false, [⟨2, 2, .ro, 0, none⟩, ⟨1, 1, .spSc, 0, none⟩, ⟨0, 0, .spW1s, 0, none⟩]⟩]

/-- The registers of unit `k`'s page below its cell pages. Units are the FCU's numbers (R269), 32 the instance pages of
IOM's memory window (R614) and 33 its delivery entries (R621). -/
def unitRows : Nat → List Row
  | 0 => cnpRows | 1 => iwRows | 2 => iwRows | 3 => parRows | 4 => memRows | 5 => vltRows | 6 => iomRows
  | 7 => etpRows | 8 => swcRows | 9 => canRows | 10 => [] | 11 => srtRows | 12 => tmbRows | 13 => flkRows
  | 14 => hbrRows | 15 => nmcRows | 16 => lswRows | 17 => lswRows | 18 => lswRows | 19 => lswRows | 20 => sniRows
  | 21 => psmRows | 22 => gldRows | 23 => rgRows | 24 => rgRows | 25 => rgRows | 26 => rgRows | 27 => msuRows
  | 32 => iomPageRows | 33 => iomDelivRows | _ => []

/-- The registers of unit `k`'s cell pages beyond the cell header. -/
def unitCellRows : Nat → List Row
  | 5 => vltCellRows | 6 => iomCellRows | 7 => etpCellRows | 9 => canCellRows | 10 => linCellRows | 13 => flkCellRows
  | 16 => lswCellRows | 17 => lswCellRows | 18 => lswCellRows | 19 => lswCellRows | 22 => gldCellRows | _ => []

/-- Number of cells and cell stride in bytes of unit `k` (R50, and the register map of each block chapter). -/
def unitCells : Nat → Nat × Nat
  | 5 => (512, 64) | 6 => (256, 192) | 7 => (25, 2048) | 9 => (16, 512) | 10 => (12, 256) | 13 => (2, 128)
  | 16 => (16, 256) | 17 => (16, 256) | 18 => (16, 256) | 19 => (16, 256) | 22 => (32, 64) | _ => (0, 64)

/-- The base of unit `k`'s register page (R50, R51, R58). -/
def unitBase (k : Nat) : Nat :=
  if k ≤ 6 then 0x20000000 + 0x100000 * k
  else if k ≤ 15 then 0x30000000 + 0x100000 * (k - 7)
  else if k ≤ 21 then 0x40000000 + 0x100000 * (k - 16)
  else if k = 22 then 0x50000000
  else if k ≤ 26 then 0x20000000 + 0x10000000 * (k - 23) + 0xF00000
  else if k = 27 then 0x10000000
  else if k = 32 then 0x2B000000
  else 0x2B401000

/-- The cell page of cell `c` of unit `k` (R68). -/
def cellBase (k c : Nat) : Nat := unitBase k + 0x1000 + (unitCells k).2 * c

/-- The cell page of load channel `g`, counted 16 per die: cell `g % 16` of LSW `g / 16` (R280). -/
def lswCell (g : Nat) : Nat := cellBase (16 + g / 16) (g % 16)

/-- The unit whose register page holds address `a`, with the offset in the page (R59). -/
def unitOf (a : Nat) : Option (Nat × Nat) :=
  let r := a / 0x10000000
  let b := a % 0x10000000 / 0x100000
  let o := a % 0x100000
  if a / 0x400000 = 0x2B000000 / 0x400000 then some (32, a % 0x4000)
  else if 0x2B401000 ≤ a ∧ a < 0x2B401000 + 256 * 0x80 then some (33, (a - 0x2B401000) % 0x80)
  else if 0x10000 ≤ o then none
  else if a / 0x10000 = 0x1000 then some (27, o)
  else if 2 ≤ r ∧ r ≤ 5 ∧ b = 15 then some (23 + (r - 2), o)
  else if r = 2 ∧ b ≤ 6 then some (b, o)
  else if r = 3 ∧ b ≤ 8 then some (7 + b, o)
  else if r = 4 ∧ b ≤ 5 then some (16 + b, o)
  else if r = 5 ∧ b = 0 then some (22, o)
  else none

/-- Whether offset `d` inside an array is one of its registers. -/
def dimsHit : List (Nat × Nat) → Nat → Bool
  | [], d => d == 0
  | (n, s) :: r, d => decide (d / s < n) && dimsHit r (d % s)

/-- The row of `rows` that holds offset `o`. -/
def rowAt : List Row → Nat → Option Row
  | [], _ => none
  | r :: rs, o => if r.off ≤ o && dimsHit r.dims (o - r.off) then some r else rowAt rs o

/-- A located register: its unit, its cell where it stands on a cell page, and its row. -/
structure Loc where
  unit : Nat
  cell : Option Nat
  off : Nat
  row : Row
  deriving DecidableEq, Repr

/-- The register at fabric address `a`, if a chapter assigns one there. -/
def locate (a : Nat) : Option Loc :=
  if a % 4 ≠ 0 then none else
  match unitOf a with
  | none => none
  | some (k, o) =>
    let (n, st) := unitCells k
    if 0 < n ∧ 0x1000 ≤ o then
      let c := (o - 0x1000) / st
      let q := (o - 0x1000) % st
      if c < n then (rowAt (cellHeaderRows k ++ unitCellRows k) q).map fun r => ⟨k, some c, q, r⟩ else none
    else (rowAt ((if k ≤ 27 then headerRows k else []) ++ unitRows k) o).map fun r => ⟨k, none, o, r⟩

/-- The class of a load channel's cell on its die: 0 for H, 1 for M, 2 for L (R280). -/
def lswClass (c : Nat) : Nat := if c < 2 then 0 else if c < 8 then 1 else 2

/-- The reset value of a field on cell `c`. -/
def FSpec.resetOn (f : FSpec) (c : Option Nat) : Nat :=
  match f.cls, c with
  | some (m, l), some c => if lswClass c = 0 then f.rst else if lswClass c = 1 then m else l
  | _, _ => f.rst

/-- The bits of a row that any field defines, as a mask; every other bit is reserved and reads 0. -/
def Row.mask (r : Row) : Nat := r.fs.foldl (fun m f => m ||| ((2 ^ (f.hi - f.lo + 1) - 1) <<< f.lo)) 0

/-- The identity and capability words of R69 and R70, the option bits of R238 and R304, and the resets that differ from
cell to cell: ETP_PHY_CFG.ROLE on G ports (R441), SWC_PORT_CFG.SAF (R467), IOM_IP_STAT.INST (R633). -/
def specialReset (a : Nat) (l : Loc) : Option Nat :=
  let k := l.unit
  if l.cell = none ∧ k ≤ 27 ∧ l.off = 0 then
    some ((if k ≤ 6 then 0x0100 + k else if k ≤ 15 then 0x0200 + (k - 7) else if k ≤ 21 then 0x0300 + (k - 16)
      else if k = 22 then 0x0400 else if k ≤ 26 then 0x0100 * (k - 22) + 0xF0 else 0) * 0x10000 + 0x0100)
  else if l.cell = none ∧ k ≤ 27 ∧ l.off = 4 then
    some ((if k = 16 then 0x01000000 else 0)
      + (if (unitCells k).1 = 0 then 0 else (unitCells k).2 / 64 * 0x10000) + (unitCells k).1)
  else if k = 7 ∧ l.off = 0x24 then l.cell.map fun p => if 6 ≤ p ∧ p < 18 then 2 else 0
  else if k = 8 ∧ 0x200 ≤ l.off ∧ l.off < 0x400 ∧ l.off % 16 = 0 then
    let p := (l.off - 0x200) / 16
    some (if 6 ≤ p ∧ p ≤ 19 then 0xE800000A else 0xC800000A)
  else if k = 32 ∧ l.off = 0x84 then some (a % 0x400000 / 0x4000)
  else none

/-- The reset value of the register at address `a`; 0 where no register stands. -/
def regReset (a : Nat) : Nat :=
  match locate a with
  | none => 0
  | some l =>
    match specialReset a l with
    | some v => v
    | none => l.row.fs.foldl (fun v f => v ||| (f.resetOn l.cell <<< f.lo)) 0

/-- The defined bits of the register at address `a`. -/
def regMask (a : Nat) : Nat :=
  match locate a with
  | none => 0
  | some l => l.row.mask

end Sys2Proof.Machine
end

