-- ==== Sys2Proof/Machine/RegNames.lean ====
section
/-!
DEFINITION. The spec's names of registers (their fabric addresses) and of their fields, from the register tables of
spec/ (02 to 29). Index arguments: k unit, c cell, r region 0-3 (C, N, P, A), x Ironwood block 0-1, d die, g load channel
(16 per die), n instance, i and j array indices.
-/
namespace Sys2Proof.Machine

/-- A named field: the register's address and the field's bits. -/
structure Fld where
  reg : Nat
  hi : Nat
  lo : Nat
  deriving DecidableEq, Repr

abbrev BLK_ID (k : Nat) : Nat := unitBase k + 0x0
abbrev BLK_ID_CODE (k : Nat) : Fld := ⟨BLK_ID k, 31, 16⟩
abbrev BLK_ID_MAJOR (k : Nat) : Fld := ⟨BLK_ID k, 15, 8⟩
abbrev BLK_ID_MINOR (k : Nat) : Fld := ⟨BLK_ID k, 7, 0⟩
abbrev BLK_CAP (k : Nat) : Nat := unitBase k + 0x4
abbrev BLK_CAP_OPTIONS (k : Nat) : Fld := ⟨BLK_CAP k, 31, 24⟩
abbrev BLK_CAP_STRIDE (k : Nat) : Fld := ⟨BLK_CAP k, 23, 16⟩
abbrev BLK_CAP_CELLS (k : Nat) : Fld := ⟨BLK_CAP k, 15, 0⟩
abbrev BLK_CTRL (k : Nat) : Nat := unitBase k + 0x8
abbrev BLK_CTRL_ISOLATE (k : Nat) : Fld := ⟨BLK_CTRL k, 2, 2⟩
abbrev BLK_CTRL_SOFT_RST (k : Nat) : Fld := ⟨BLK_CTRL k, 1, 1⟩
abbrev BLK_CTRL_EN (k : Nat) : Fld := ⟨BLK_CTRL k, 0, 0⟩
abbrev BLK_STAT (k : Nat) : Nat := unitBase k + 0xC
abbrev BLK_STAT_RETIRED (k : Nat) : Fld := ⟨BLK_STAT k, 31, 16⟩
abbrev BLK_STAT_LOCKED (k : Nat) : Fld := ⟨BLK_STAT k, 4, 4⟩
abbrev BLK_STAT_DRAINING (k : Nat) : Fld := ⟨BLK_STAT k, 3, 3⟩
abbrev BLK_STAT_ISOLATED (k : Nat) : Fld := ⟨BLK_STAT k, 2, 2⟩
abbrev BLK_STAT_RST_BUSY (k : Nat) : Fld := ⟨BLK_STAT k, 1, 1⟩
abbrev BLK_STAT_ENABLED (k : Nat) : Fld := ⟨BLK_STAT k, 0, 0⟩
abbrev BLK_IRQ_STAT (k : Nat) : Nat := unitBase k + 0x10
abbrev BLK_IRQ_EN (k : Nat) : Nat := unitBase k + 0x14
abbrev BLK_IRQ_SET (k : Nat) : Nat := unitBase k + 0x18
abbrev BLK_ERR_STAT (k : Nat) : Nat := unitBase k + 0x20
abbrev BLK_ERR_STAT_FT (k : Nat) : Fld := ⟨BLK_ERR_STAT k, 3, 3⟩
abbrev BLK_ERR_STAT_PM (k : Nat) : Fld := ⟨BLK_ERR_STAT k, 2, 2⟩
abbrev BLK_ERR_STAT_TR (k : Nat) : Fld := ⟨BLK_ERR_STAT k, 1, 1⟩
abbrev BLK_ERR_STAT_CE (k : Nat) : Fld := ⟨BLK_ERR_STAT k, 0, 0⟩
abbrev BLK_ERR_CNT (k : Nat) : Nat := unitBase k + 0x24
abbrev BLK_ERR_CNT_FT_CNT (k : Nat) : Fld := ⟨BLK_ERR_CNT k, 31, 24⟩
abbrev BLK_ERR_CNT_PM_CNT (k : Nat) : Fld := ⟨BLK_ERR_CNT k, 23, 16⟩
abbrev BLK_ERR_CNT_TR_CNT (k : Nat) : Fld := ⟨BLK_ERR_CNT k, 15, 8⟩
abbrev BLK_ERR_CNT_CE_CNT (k : Nat) : Fld := ⟨BLK_ERR_CNT k, 7, 0⟩
abbrev BLK_ERR_INJ (k : Nat) : Nat := unitBase k + 0x28
abbrev BLK_ERR_INJ_ARM (k : Nat) : Fld := ⟨BLK_ERR_INJ k, 31, 31⟩
abbrev BLK_ERR_INJ_CELL (k : Nat) : Fld := ⟨BLK_ERR_INJ k, 27, 16⟩
abbrev BLK_ERR_INJ_CLASS (k : Nat) : Fld := ⟨BLK_ERR_INJ k, 1, 0⟩
abbrev BLK_ERR_REACT (k : Nat) : Nat := unitBase k + 0x2C
abbrev BLK_ERR_REACT_FT_REACT (k : Nat) : Fld := ⟨BLK_ERR_REACT k, 15, 12⟩
abbrev BLK_ERR_REACT_PM_REACT (k : Nat) : Fld := ⟨BLK_ERR_REACT k, 11, 8⟩
abbrev BLK_ERR_REACT_TR_REACT (k : Nat) : Fld := ⟨BLK_ERR_REACT k, 7, 4⟩
abbrev BLK_ERR_REACT_CE_REACT (k : Nat) : Fld := ⟨BLK_ERR_REACT k, 3, 0⟩
abbrev BLK_OWNER (k : Nat) : Nat := unitBase k + 0x30
abbrev BLK_LOCK (k : Nat) : Nat := unitBase k + 0x34
abbrev CELL_CTRL (k c : Nat) : Nat := cellBase k c + 0x00
abbrev CELL_CTRL_CELL_RST (k c : Nat) : Fld := ⟨CELL_CTRL k c, 1, 1⟩
abbrev CELL_CTRL_EN (k c : Nat) : Fld := ⟨CELL_CTRL k c, 0, 0⟩
abbrev CELL_STAT (k c : Nat) : Nat := cellBase k c + 0x04
abbrev CELL_STAT_FAULT (k c : Nat) : Fld := ⟨CELL_STAT k c, 3, 3⟩
abbrev CELL_STAT_DRAINING (k c : Nat) : Fld := ⟨CELL_STAT k c, 2, 2⟩
abbrev CELL_STAT_RETIRED (k c : Nat) : Fld := ⟨CELL_STAT k c, 1, 1⟩
abbrev CELL_STAT_ENABLED (k c : Nat) : Fld := ⟨CELL_STAT k c, 0, 0⟩
abbrev CELL_IRQ_STAT (k c : Nat) : Nat := cellBase k c + 0x08
abbrev CELL_IRQ_STAT_ERR (k c : Nat) : Fld := ⟨CELL_IRQ_STAT k c, 31, 31⟩
abbrev CELL_IRQ_EN (k c : Nat) : Nat := cellBase k c + 0x0C
abbrev CELL_IRQ_EN_ERR (k c : Nat) : Fld := ⟨CELL_IRQ_EN k c, 31, 31⟩
abbrev CELL_ERR_STAT (k c : Nat) : Nat := cellBase k c + 0x10
abbrev CELL_ERR_STAT_FT (k c : Nat) : Fld := ⟨CELL_ERR_STAT k c, 3, 3⟩
abbrev CELL_ERR_STAT_PM (k c : Nat) : Fld := ⟨CELL_ERR_STAT k c, 2, 2⟩
abbrev CELL_ERR_STAT_TR (k c : Nat) : Fld := ⟨CELL_ERR_STAT k c, 1, 1⟩
abbrev CELL_ERR_STAT_CE (k c : Nat) : Fld := ⟨CELL_ERR_STAT k c, 0, 0⟩
abbrev CELL_FAULT_CNT (k c : Nat) : Nat := cellBase k c + 0x14
abbrev CELL_FAULT_CNT_TOTAL (k c : Nat) : Fld := ⟨CELL_FAULT_CNT k c, 31, 16⟩
abbrev CELL_FAULT_CNT_REARMS (k c : Nat) : Fld := ⟨CELL_FAULT_CNT k c, 15, 8⟩
abbrev CELL_FAULT_CNT_LEVEL (k c : Nat) : Fld := ⟨CELL_FAULT_CNT k c, 7, 0⟩
abbrev CELL_RETIRE (k c : Nat) : Nat := cellBase k c + 0x18
abbrev CELL_RETIRE_REARM_DENIED (k c : Nat) : Fld := ⟨CELL_RETIRE k c, 2, 2⟩
abbrev CELL_RETIRE_REARM (k c : Nat) : Fld := ⟨CELL_RETIRE k c, 1, 1⟩
abbrev CELL_RETIRE_RETIRE (k c : Nat) : Fld := ⟨CELL_RETIRE k c, 0, 0⟩
abbrev RG_QOS_CFG (r : Nat) : Nat := unitBase (23 + r) + 0x100
abbrev RG_QOS_CFG_AGE_LIMIT (r : Nat) : Fld := ⟨(RG_QOS_CFG r), 23, 16⟩
abbrev RG_QOS_CFG_BG_WT (r : Nat) : Fld := ⟨(RG_QOS_CFG r), 11, 8⟩
abbrev RG_QOS_CFG_BULK_WT (r : Nat) : Fld := ⟨(RG_QOS_CFG r), 3, 0⟩
abbrev RG_RT_REG (r : Nat) : Nat := unitBase (23 + r) + 0x104
abbrev RG_RT_REG_RT_TOKENS (r : Nat) : Fld := ⟨(RG_RT_REG r), 31, 16⟩
abbrev RG_RT_REG_RT_PERIOD (r : Nat) : Fld := ⟨(RG_RT_REG r), 7, 0⟩
abbrev RG_GRANT_SAFE (r : Nat) : Nat := unitBase (23 + r) + 0x110
abbrev RG_GRANT_RT (r : Nat) : Nat := unitBase (23 + r) + 0x114
abbrev RG_GRANT_BULK (r : Nat) : Nat := unitBase (23 + r) + 0x118
abbrev RG_GRANT_BG (r : Nat) : Nat := unitBase (23 + r) + 0x11C
abbrev RG_DEMOTE_CNT (r : Nat) : Nat := unitBase (23 + r) + 0x120
abbrev RG_PROMOTE_CNT (r : Nat) : Nat := unitBase (23 + r) + 0x124
abbrev RG_DECERR_ADDR_LO (r : Nat) : Nat := unitBase (23 + r) + 0x130
abbrev RG_DECERR_ADDR_HI (r : Nat) : Nat := unitBase (23 + r) + 0x134
abbrev RG_DECERR_ADDR_HI_CAUSE (r : Nat) : Fld := ⟨(RG_DECERR_ADDR_HI r), 31, 28⟩
abbrev RG_DECERR_ADDR_HI_PID (r : Nat) : Fld := ⟨(RG_DECERR_ADDR_HI r), 27, 22⟩
abbrev RG_DECERR_ADDR_HI_WRITE (r : Nat) : Fld := ⟨(RG_DECERR_ADDR_HI r), 8, 8⟩
abbrev RG_DECERR_ADDR_HI_ADDR_HI (r : Nat) : Fld := ⟨(RG_DECERR_ADDR_HI r), 7, 0⟩
abbrev MSU_BOOT_CFG : Nat := unitBase 27 + 0x100
abbrev MSU_BOOT_CFG_CHAIN_MODE : Fld := ⟨MSU_BOOT_CFG, 5, 4⟩
abbrev MSU_BOOT_CFG_HOST_PORT_SEL : Fld := ⟨MSU_BOOT_CFG, 2, 2⟩
abbrev MSU_BOOT_CFG_IW_SPLIT_B : Fld := ⟨MSU_BOOT_CFG, 1, 1⟩
abbrev MSU_BOOT_CFG_IW_SPLIT_A : Fld := ⟨MSU_BOOT_CFG, 0, 0⟩
abbrev MSU_PROT_LOCK : Nat := unitBase 27 + 0x104
abbrev MSU_PROT_LOCK_LOCK : Fld := ⟨MSU_PROT_LOCK, 0, 0⟩
abbrev MSU_PWR_STATE : Nat := unitBase 27 + 0x108
abbrev MSU_PWR_STATE_REQ : Fld := ⟨MSU_PWR_STATE, 10, 8⟩
abbrev MSU_PWR_STATE_STATE : Fld := ⟨MSU_PWR_STATE, 2, 0⟩
abbrev MSU_FAULT_STAT : Nat := unitBase 27 + 0x110
abbrev MSU_FAULT_STAT_SAFE : Fld := ⟨MSU_FAULT_STAT, 31, 31⟩
abbrev MSU_FAULT_STAT_FAULT_N : Fld := ⟨MSU_FAULT_STAT, 30, 30⟩
abbrev MSU_FAULT_STAT_LAST_SRC : Fld := ⟨MSU_FAULT_STAT, 24, 16⟩
abbrev MSU_FAULT_STAT_FT : Fld := ⟨MSU_FAULT_STAT, 3, 3⟩
abbrev MSU_FAULT_STAT_PM : Fld := ⟨MSU_FAULT_STAT, 2, 2⟩
abbrev MSU_FAULT_STAT_TR : Fld := ⟨MSU_FAULT_STAT, 1, 1⟩
abbrev MSU_FAULT_STAT_CE : Fld := ⟨MSU_FAULT_STAT, 0, 0⟩
abbrev MSU_FAULT_REACT : Nat := unitBase 27 + 0x114
abbrev MSU_FAULT_REACT_FT_REACT : Fld := ⟨MSU_FAULT_REACT, 15, 12⟩
abbrev MSU_FAULT_REACT_PM_REACT : Fld := ⟨MSU_FAULT_REACT, 11, 8⟩
abbrev MSU_FAULT_REACT_TR_REACT : Fld := ⟨MSU_FAULT_REACT, 7, 4⟩
abbrev MSU_FAULT_REACT_CE_REACT : Fld := ⟨MSU_FAULT_REACT, 3, 0⟩
abbrev MSU_LIFECYCLE : Nat := unitBase 27 + 0x118
abbrev MSU_LIFECYCLE_STATE : Fld := ⟨MSU_LIFECYCLE, 2, 0⟩
abbrev MSU_BW_PERIOD : Nat := unitBase 27 + 0x120
abbrev MSU_BW_PERIOD_PERIOD_US : Fld := ⟨MSU_BW_PERIOD, 7, 0⟩
abbrev MSU_ACC_VIOL_ADDR_LO : Nat := unitBase 27 + 0x130
abbrev MSU_ACC_VIOL_ADDR_HI : Nat := unitBase 27 + 0x134
abbrev MSU_ACC_VIOL_ADDR_HI_CAUSE : Fld := ⟨MSU_ACC_VIOL_ADDR_HI, 31, 28⟩
abbrev MSU_ACC_VIOL_ADDR_HI_PID : Fld := ⟨MSU_ACC_VIOL_ADDR_HI, 27, 22⟩
abbrev MSU_ACC_VIOL_ADDR_HI_WRITE : Fld := ⟨MSU_ACC_VIOL_ADDR_HI, 8, 8⟩
abbrev MSU_ACC_VIOL_ADDR_HI_ADDR_HI : Fld := ⟨MSU_ACC_VIOL_ADDR_HI, 7, 0⟩
abbrev MSU_ACC_VIOL_CNT : Nat := unitBase 27 + 0x138
abbrev MSU_BW_BUDGET (i : Nat) : Nat := unitBase 27 + 0x200 + 4 * i
abbrev MSU_BW_BUDGET_UNITS (i : Nat) : Fld := ⟨(MSU_BW_BUDGET i), 23, 0⟩
abbrev PSM_STAT : Nat := unitBase 21 + 0x100
abbrev PSM_STAT_GATELOCK : Fld := ⟨PSM_STAT, 11, 8⟩
abbrev PSM_STAT_P_SERVICE : Fld := ⟨PSM_STAT, 7, 7⟩
abbrev PSM_STAT_SURGE : Fld := ⟨PSM_STAT, 6, 6⟩
abbrev PSM_STAT_LOWV : Fld := ⟨PSM_STAT, 5, 5⟩
abbrev PSM_STAT_GND_OK : Fld := ⟨PSM_STAT, 4, 4⟩
abbrev PSM_STAT_BAT2_OK : Fld := ⟨PSM_STAT, 3, 3⟩
abbrev PSM_STAT_BAT1_OK : Fld := ⟨PSM_STAT, 2, 2⟩
abbrev PSM_STAT_KL30_2_OK : Fld := ⟨PSM_STAT, 1, 1⟩
abbrev PSM_STAT_KL30_1_OK : Fld := ⟨PSM_STAT, 0, 0⟩
abbrev PSM_V_KL30 : Nat := unitBase 21 + 0x104
abbrev PSM_V_KL30_KL30_2 : Fld := ⟨PSM_V_KL30, 31, 16⟩
abbrev PSM_V_KL30_KL30_1 : Fld := ⟨PSM_V_KL30, 15, 0⟩
abbrev PSM_V_BAT : Nat := unitBase 21 + 0x108
abbrev PSM_V_BAT_BAT2 : Fld := ⟨PSM_V_BAT, 31, 16⟩
abbrev PSM_V_BAT_BAT1 : Fld := ⟨PSM_V_BAT, 15, 0⟩
abbrev PSM_TRANS_STAT : Nat := unitBase 21 + 0x10C
abbrev PSM_TRANS_STAT_REFUSE_CAUSE : Fld := ⟨PSM_TRANS_STAT, 31, 28⟩
abbrev PSM_TRANS_STAT_PHASE : Fld := ⟨PSM_TRANS_STAT, 3, 0⟩
abbrev PSM_SLEEP_CONSENT : Nat := unitBase 21 + 0x110
abbrev PSM_SLEEP_CONSENT_SAFE_OK : Fld := ⟨PSM_SLEEP_CONSENT, 0, 0⟩
abbrev PSM_CFG : Nat := unitBase 21 + 0x114
abbrev PSM_CFG_SUSPEND_MAX : Fld := ⟨PSM_CFG, 15, 0⟩
abbrev PSM_DS_WAKE_EN : Nat := unitBase 21 + 0x118
abbrev PSM_DS_MASKED : Nat := unitBase 21 + 0x11C
abbrev PSM_EVT_CNT : Nat := unitBase 21 + 0x120
abbrev PSM_EVT_CNT_BROWNOUT : Fld := ⟨PSM_EVT_CNT, 31, 24⟩
abbrev PSM_EVT_CNT_SURGE : Fld := ⟨PSM_EVT_CNT, 23, 16⟩
abbrev PSM_EVT_CNT_LOWV : Fld := ⟨PSM_EVT_CNT, 15, 8⟩
abbrev PSM_EVT_CNT_RET_LOST : Fld := ⟨PSM_EVT_CNT, 7, 0⟩
abbrev PSM_DIE_EN : Nat := unitBase 21 + 0x124
abbrev GLD_CFG : Nat := unitBase 22 + 0x100
abbrev GLD_CFG_WATCH_MAX : Fld := ⟨GLD_CFG, 31, 16⟩
abbrev GLD_CFG_FW_TH : Fld := ⟨GLD_CFG, 11, 8⟩
abbrev GLD_CFG_VALID_WIN : Fld := ⟨GLD_CFG, 7, 0⟩
abbrev GLD_WAKE_REASON : Nat := unitBase 22 + 0x104
abbrev GLD_WAKE_REASON_VALID : Fld := ⟨GLD_WAKE_REASON, 31, 31⟩
abbrev GLD_WAKE_REASON_ID_VALID : Fld := ⟨GLD_WAKE_REASON, 30, 30⟩
abbrev GLD_WAKE_REASON_KIND : Fld := ⟨GLD_WAKE_REASON, 29, 28⟩
abbrev GLD_WAKE_REASON_SOURCE : Fld := ⟨GLD_WAKE_REASON, 27, 22⟩
abbrev GLD_WAKE_REASON_ENTRY : Fld := ⟨GLD_WAKE_REASON, 21, 17⟩
abbrev GLD_WAKE_REASON_EXTRA : Fld := ⟨GLD_WAKE_REASON, 15, 8⟩
abbrev GLD_WAKE_REASON_CODE : Fld := ⟨GLD_WAKE_REASON, 7, 0⟩
abbrev GLD_WAKE_ID : Nat := unitBase 22 + 0x108
abbrev GLD_WAKE_ID_EXT : Fld := ⟨GLD_WAKE_ID, 31, 31⟩
abbrev GLD_WAKE_ID_ID : Fld := ⟨GLD_WAKE_ID, 28, 0⟩
abbrev GLD_WAKE_ACK : Nat := unitBase 22 + 0x10C
abbrev GLD_WAKE_ACK_ACK : Fld := ⟨GLD_WAKE_ACK, 0, 0⟩
abbrev GLD_FIRED : Nat := unitBase 22 + 0x110
abbrev GLD_CELL_STATE : Nat := unitBase 22 + 0x114
abbrev GLD_FW_DIS_LO : Nat := unitBase 22 + 0x118
abbrev GLD_FW_DIS_HI : Nat := unitBase 22 + 0x11C
abbrev GLD_STORE_CTRL : Nat := unitBase 22 + 0x120
abbrev GLD_STORE_CTRL_SAVE : Fld := ⟨GLD_STORE_CTRL, 31, 31⟩
abbrev GLD_STORE_CTRL_RESTORE : Fld := ⟨GLD_STORE_CTRL, 7, 4⟩
abbrev GLD_STORE_CTRL_SAVE_RES : Fld := ⟨GLD_STORE_CTRL, 1, 0⟩
abbrev GLD_SEQ_STAT : Nat := unitBase 22 + 0x124
abbrev GLD_SEQ_STAT_RUN : Fld := ⟨GLD_SEQ_STAT, 31, 31⟩
abbrev GLD_SEQ_STAT_WDOG_CNT : Fld := ⟨GLD_SEQ_STAT, 15, 8⟩
abbrev GLD_OVERRUN : Nat := unitBase 22 + 0x128
abbrev GLD_DLOAD_STAT : Nat := unitBase 22 + 0x130
abbrev GLD_DLOAD_STAT_SLOTS : Fld := ⟨GLD_DLOAD_STAT, 31, 0⟩
abbrev GLD_DLOAD_CFG (i : Nat) : Nat := unitBase 22 + 0x200 + 16 * i
abbrev GLD_DLOAD_CFG_EN (i : Nat) : Fld := ⟨(GLD_DLOAD_CFG i), 31, 31⟩
abbrev GLD_DLOAD_CFG_MODE (i : Nat) : Fld := ⟨(GLD_DLOAD_CFG i), 30, 28⟩
abbrev GLD_DLOAD_CFG_WIRE (i : Nat) : Fld := ⟨(GLD_DLOAD_CFG i), 27, 24⟩
abbrev GLD_DLOAD_CFG_CH (i : Nat) : Fld := ⟨(GLD_DLOAD_CFG i), 21, 16⟩
abbrev GLD_DLOAD_CFG_MAX_ON (i : Nat) : Fld := ⟨(GLD_DLOAD_CFG i), 15, 0⟩
abbrev GLD_DLOAD_FLASH (i : Nat) : Nat := unitBase 22 + 0x204 + 16 * i
abbrev GLD_DLOAD_FLASH_PERIOD (i : Nat) : Fld := ⟨(GLD_DLOAD_FLASH i), 31, 16⟩
abbrev GLD_DLOAD_FLASH_ON (i : Nat) : Fld := ⟨(GLD_DLOAD_FLASH i), 15, 0⟩
abbrev GLD_DT_MASK (i : Nat) : Nat := unitBase 22 + 0x400 + 16 * i
abbrev GLD_DT_MATCH (i : Nat) : Nat := unitBase 22 + 0x404 + 16 * i
abbrev GLD_DT_EVT (i : Nat) : Nat := unitBase 22 + 0x408 + 16 * i
abbrev GLD_DT_ACT (i : Nat) : Nat := unitBase 22 + 0x40C + 16 * i
abbrev GLD_DT_ACT_EN (i : Nat) : Fld := ⟨(GLD_DT_ACT i), 31, 31⟩
abbrev GLD_DT_ACT_FULL (i : Nat) : Fld := ⟨(GLD_DT_ACT i), 30, 30⟩
abbrev GLD_DT_ACT_DEEP (i : Nat) : Fld := ⟨(GLD_DT_ACT i), 29, 29⟩
abbrev GLD_DT_ACT_SVC_CMD (i : Nat) : Fld := ⟨(GLD_DT_ACT i), 28, 27⟩
abbrev GLD_DT_ACT_VALIDATE (i : Nat) : Fld := ⟨(GLD_DT_ACT i), 26, 24⟩
abbrev GLD_DT_ACT_SVC_MASK (i : Nat) : Fld := ⟨(GLD_DT_ACT i), 23, 16⟩
abbrev GLD_DT_ACT_CODE (i : Nat) : Fld := ⟨(GLD_DT_ACT i), 7, 0⟩
abbrev GLD_CELL_SRC (c : Nat) : Nat := cellBase 22 c + 0x20
abbrev GLD_CELL_SRC_FRONT (c : Nat) : Fld := ⟨(GLD_CELL_SRC c), 15, 14⟩
abbrev GLD_CELL_SRC_RANGE (c : Nat) : Fld := ⟨(GLD_CELL_SRC c), 13, 13⟩
abbrev GLD_CELL_SRC_WET (c : Nat) : Fld := ⟨(GLD_CELL_SRC c), 11, 8⟩
abbrev GLD_CELL_SRC_SRC (c : Nat) : Fld := ⟨(GLD_CELL_SRC c), 5, 0⟩
abbrev GLD_CELL_TIME (c : Nat) : Nat := cellBase 22 c + 0x24
abbrev GLD_CELL_TIME_SETTLE (c : Nat) : Fld := ⟨(GLD_CELL_TIME c), 31, 24⟩
abbrev GLD_CELL_TIME_PERIOD (c : Nat) : Fld := ⟨(GLD_CELL_TIME c), 13, 0⟩
abbrev GLD_CELL_THR (c : Nat) : Nat := cellBase 22 c + 0x28
abbrev GLD_CELL_THR_INVERT (c : Nat) : Fld := ⟨(GLD_CELL_THR c), 31, 31⟩
abbrev GLD_CELL_THR_THR_HI (c : Nat) : Fld := ⟨(GLD_CELL_THR c), 25, 16⟩
abbrev GLD_CELL_THR_THR_LO (c : Nat) : Fld := ⟨(GLD_CELL_THR c), 9, 0⟩
abbrev GLD_CELL_FILT (c : Nat) : Nat := cellBase 22 c + 0x2C
abbrev GLD_CELL_FILT_FILT (c : Nat) : Fld := ⟨(GLD_CELL_FILT c), 17, 16⟩
abbrev GLD_CELL_FILT_FPARAM (c : Nat) : Fld := ⟨(GLD_CELL_FILT c), 3, 0⟩
abbrev GLD_CELL_VAL (c : Nat) : Nat := cellBase 22 c + 0x30
abbrev GLD_CELL_VAL_STATE (c : Nat) : Fld := ⟨(GLD_CELL_VAL c), 31, 31⟩
abbrev GLD_CELL_VAL_FILTERED (c : Nat) : Fld := ⟨(GLD_CELL_VAL c), 25, 16⟩
abbrev GLD_CELL_VAL_LAST (c : Nat) : Fld := ⟨(GLD_CELL_VAL c), 9, 0⟩
abbrev MSU_RST_CAUSE : Nat := unitBase 27 + 0x140
abbrev MSU_RST_CAUSE_LOOP_CNT : Fld := ⟨MSU_RST_CAUSE, 31, 24⟩
abbrev MSU_RST_CAUSE_PREV : Fld := ⟨MSU_RST_CAUSE, 19, 16⟩
abbrev MSU_RST_CAUSE_RESUMED : Fld := ⟨MSU_RST_CAUSE, 4, 4⟩
abbrev MSU_RST_CAUSE_CAUSE : Fld := ⟨MSU_RST_CAUSE, 3, 0⟩
abbrev MSU_RST_CTRL : Nat := unitBase 27 + 0x144
abbrev MSU_RST_CTRL_KEY : Fld := ⟨MSU_RST_CTRL, 15, 8⟩
abbrev MSU_RST_CTRL_REQ : Fld := ⟨MSU_RST_CTRL, 0, 0⟩
abbrev MSU_BOOT_STAT : Nat := unitBase 27 + 0x148
abbrev MSU_BOOT_STAT_PHASE : Fld := ⟨MSU_BOOT_STAT, 31, 28⟩
abbrev MSU_BOOT_STAT_LOCK_FIX : Fld := ⟨MSU_BOOT_STAT, 23, 16⟩
abbrev MSU_BOOT_STAT_FALLBACK : Fld := ⟨MSU_BOOT_STAT, 7, 7⟩
abbrev MSU_BOOT_STAT_RECORD_BAD : Fld := ⟨MSU_BOOT_STAT, 6, 6⟩
abbrev MSU_BOOT_STAT_SLOT_B_FAIL : Fld := ⟨MSU_BOOT_STAT, 5, 5⟩
abbrev MSU_BOOT_STAT_SLOT_A_FAIL : Fld := ⟨MSU_BOOT_STAT, 4, 4⟩
abbrev MSU_BOOT_STAT_P0_SLOT : Fld := ⟨MSU_BOOT_STAT, 0, 0⟩
abbrev MSU_PID_CTX (i : Nat) : Nat := unitBase 27 + 0x400 + 4 * i
abbrev MSU_PID_CTX_VALID (i : Nat) : Fld := ⟨(MSU_PID_CTX i), 31, 31⟩
abbrev MSU_PID_CTX_RANGE (i : Nat) : Fld := ⟨(MSU_PID_CTX i), 30, 30⟩
abbrev MSU_PID_CTX_QOS (i : Nat) : Fld := ⟨(MSU_PID_CTX i), 29, 28⟩
abbrev MSU_PID_CTX_PID_HI (i : Nat) : Fld := ⟨(MSU_PID_CTX i), 21, 16⟩
abbrev MSU_PID_CTX_PID_LO (i : Nat) : Fld := ⟨(MSU_PID_CTX i), 5, 0⟩
abbrev VLT_SLOT_CTRL : Nat := unitBase 5 + 0x100
abbrev VLT_SLOT_CTRL_GO : Fld := ⟨VLT_SLOT_CTRL, 31, 31⟩
abbrev VLT_SLOT_CTRL_OP : Fld := ⟨VLT_SLOT_CTRL, 26, 24⟩
abbrev VLT_SLOT_CTRL_SLOT : Fld := ⟨VLT_SLOT_CTRL, 8, 0⟩
abbrev VLT_SLOT_RES : Nat := unitBase 5 + 0x104
abbrev VLT_SLOT_RES_BUSY : Fld := ⟨VLT_SLOT_RES, 31, 31⟩
abbrev VLT_SLOT_RES_CODE : Fld := ⟨VLT_SLOT_RES, 7, 0⟩
abbrev VLT_SLOT_ARG0 : Nat := unitBase 5 + 0x108
abbrev VLT_SLOT_ARG0_OWNER : Fld := ⟨VLT_SLOT_ARG0, 27, 22⟩
abbrev VLT_SLOT_ARG0_USAGE : Fld := ⟨VLT_SLOT_ARG0, 14, 8⟩
abbrev VLT_SLOT_ARG0_TYPE : Fld := ⟨VLT_SLOT_ARG0, 4, 0⟩
abbrev VLT_SLOT_ARG1 : Nat := unitBase 5 + 0x10C
abbrev VLT_KDF_LABEL (i : Nat) : Nat := unitBase 5 + 0x110 + 4 * i
abbrev VLT_KDF_CTX (i : Nat) : Nat := unitBase 5 + 0x120 + 4 * i
abbrev VLT_KEY_DATA (i : Nat) : Nat := unitBase 5 + 0x140 + 4 * i
abbrev VLT_TRNG_STAT : Nat := unitBase 5 + 0x180
abbrev VLT_TRNG_STAT_OK : Fld := ⟨VLT_TRNG_STAT, 31, 31⟩
abbrev VLT_TRNG_STAT_FAILED : Fld := ⟨VLT_TRNG_STAT, 30, 30⟩
abbrev VLT_TRNG_STAT_FAIL_CNT : Fld := ⟨VLT_TRNG_STAT, 7, 0⟩
abbrev VLT_ORPHAN_CNT : Nat := unitBase 5 + 0x188
abbrev VLT_LC_CMD : Nat := unitBase 5 + 0x190
abbrev VLT_LC_CMD_KEY : Fld := ⟨VLT_LC_CMD, 31, 24⟩
abbrev VLT_LC_CMD_BUSY : Fld := ⟨VLT_LC_CMD, 23, 23⟩
abbrev VLT_LC_CMD_RES : Fld := ⟨VLT_LC_CMD, 22, 20⟩
abbrev VLT_LC_CMD_TARGET : Fld := ⟨VLT_LC_CMD, 2, 0⟩
abbrev VLT_UNIT_SN (i : Nat) : Nat := unitBase 5 + 0x1A0 + 4 * i
abbrev VLT_AUTH_STAT : Nat := unitBase 5 + 0x1B0
abbrev VLT_AUTH_STAT_VALUE : Fld := ⟨VLT_AUTH_STAT, 31, 0⟩
abbrev VLT_DBG_STAT : Nat := unitBase 5 + 0x1B4
abbrev VLT_DBG_STAT_UNLOCKED : Fld := ⟨VLT_DBG_STAT, 31, 31⟩
abbrev VLT_DBG_STAT_SCOPE : Fld := ⟨VLT_DBG_STAT, 10, 8⟩
abbrev VLT_DBG_STAT_REJECTS : Fld := ⟨VLT_DBG_STAT, 1, 0⟩
abbrev VLT_AUTH_NONCE (i : Nat) : Nat := unitBase 5 + 0x1C0 + 4 * i
abbrev VLT_ARB_CNT (i : Nat) : Nat := unitBase 5 + 0x1E0 + 4 * i
abbrev VLT_MEAS_CTRL : Nat := unitBase 5 + 0x200
abbrev VLT_MEAS_CTRL_GO : Fld := ⟨VLT_MEAS_CTRL, 31, 31⟩
abbrev VLT_MEAS_CTRL_R0_CLOSE : Fld := ⟨VLT_MEAS_CTRL, 30, 30⟩
abbrev VLT_MEAS_CTRL_RES : Fld := ⟨VLT_MEAS_CTRL, 29, 28⟩
abbrev VLT_MEAS_CTRL_INDEX : Fld := ⟨VLT_MEAS_CTRL, 3, 0⟩
abbrev VLT_MEAS_DIG (i : Nat) : Nat := unitBase 5 + 0x240 + 4 * i
abbrev VLT_RING_BASE_LO (i : Nat) : Nat := unitBase 5 + 0x400 + 32 * i
abbrev VLT_RING_BASE_HI (i : Nat) : Nat := unitBase 5 + 0x404 + 32 * i
abbrev VLT_RING_CFG (i : Nat) : Nat := unitBase 5 + 0x408 + 32 * i
abbrev VLT_RING_CFG_EN (i : Nat) : Fld := ⟨(VLT_RING_CFG i), 31, 31⟩
abbrev VLT_RING_CFG_SIZE (i : Nat) : Fld := ⟨(VLT_RING_CFG i), 27, 24⟩
abbrev VLT_RING_CFG_WT (i : Nat) : Fld := ⟨(VLT_RING_CFG i), 19, 16⟩
abbrev VLT_RING_CFG_OWNER (i : Nat) : Fld := ⟨(VLT_RING_CFG i), 5, 0⟩
abbrev VLT_RING_HEAD (i : Nat) : Nat := unitBase 5 + 0x40C + 32 * i
abbrev VLT_RING_HEAD_INDEX (i : Nat) : Fld := ⟨(VLT_RING_HEAD i), 9, 0⟩
abbrev VLT_RING_TAIL (i : Nat) : Nat := unitBase 5 + 0x410 + 32 * i
abbrev VLT_RING_TAIL_INDEX (i : Nat) : Fld := ⟨(VLT_RING_TAIL i), 9, 0⟩
abbrev VLT_RING_WIN_BASE (i : Nat) : Nat := unitBase 5 + 0x414 + 32 * i
abbrev VLT_RING_WIN_LAST (i : Nat) : Nat := unitBase 5 + 0x418 + 32 * i
abbrev VLT_RING_STAT (i : Nat) : Nat := unitBase 5 + 0x41C + 32 * i
abbrev VLT_RING_STAT_HALT (i : Nat) : Fld := ⟨(VLT_RING_STAT i), 31, 31⟩
abbrev VLT_RING_STAT_DONE (i : Nat) : Fld := ⟨(VLT_RING_STAT i), 0, 0⟩
abbrev VLT_MEAS (i j : Nat) : Nat := unitBase 5 + 0x800 + 48 * i + 4 * j
abbrev VLT_SLOT_ATTR (c : Nat) : Nat := cellBase 5 c + 0x20
abbrev VLT_SLOT_ATTR_STATE (c : Nat) : Fld := ⟨(VLT_SLOT_ATTR c), 31, 29⟩
abbrev VLT_SLOT_ATTR_PURGED (c : Nat) : Fld := ⟨(VLT_SLOT_ATTR c), 28, 28⟩
abbrev VLT_SLOT_ATTR_OWNER (c : Nat) : Fld := ⟨(VLT_SLOT_ATTR c), 27, 22⟩
abbrev VLT_SLOT_ATTR_USAGE (c : Nat) : Fld := ⟨(VLT_SLOT_ATTR c), 14, 8⟩
abbrev VLT_SLOT_ATTR_TYPE (c : Nat) : Fld := ⟨(VLT_SLOT_ATTR c), 4, 0⟩
abbrev VLT_SLOT_LINK (c : Nat) : Nat := cellBase 5 c + 0x24
abbrev VLT_SLOT_LINK_PGEN (c : Nat) : Fld := ⟨(VLT_SLOT_LINK c), 31, 24⟩
abbrev VLT_SLOT_LINK_HAS_PARENT (c : Nat) : Fld := ⟨(VLT_SLOT_LINK c), 23, 23⟩
abbrev VLT_SLOT_LINK_PARENT (c : Nat) : Fld := ⟨(VLT_SLOT_LINK c), 8, 0⟩
abbrev VLT_SLOT_GEN (c : Nat) : Nat := cellBase 5 c + 0x28
abbrev VLT_SLOT_GEN_DEPTH (c : Nat) : Fld := ⟨(VLT_SLOT_GEN c), 10, 8⟩
abbrev VLT_SLOT_GEN_GEN (c : Nat) : Fld := ⟨(VLT_SLOT_GEN c), 7, 0⟩
abbrev CNP_CLU_CLK (i : Nat) : Nat := unitBase 0 + 0x100 + 4 * i
abbrev CNP_CLU_CLK_BUSY (i : Nat) : Fld := ⟨(CNP_CLU_CLK i), 31, 31⟩
abbrev CNP_CLU_CLK_MHZ (i : Nat) : Fld := ⟨(CNP_CLU_CLK i), 11, 0⟩
abbrev CNP_HART_EN : Nat := unitBase 0 + 0x110
abbrev CNP_HART_EN_RUN : Fld := ⟨CNP_HART_EN, 11, 0⟩
abbrev CNP_HART_STAT : Nat := unitBase 0 + 0x114
abbrev CNP_HART_STAT_HELD : Fld := ⟨CNP_HART_STAT, 27, 16⟩
abbrev CNP_HART_STAT_RUNNING : Fld := ⟨CNP_HART_STAT, 11, 0⟩
abbrev CNP_HART_SPEC (i : Nat) : Nat := unitBase 0 + 0x200 + 16 * i
abbrev CNP_HART_SPEC_LD_WAIT (i : Nat) : Fld := ⟨(CNP_HART_SPEC i), 3, 3⟩
abbrev CNP_HART_SPEC_SSBD (i : Nat) : Fld := ⟨(CNP_HART_SPEC i), 2, 2⟩
abbrev CNP_HART_SPEC_BP_STATIC (i : Nat) : Fld := ⟨(CNP_HART_SPEC i), 1, 1⟩
abbrev CNP_HART_SPEC_PF_DIS (i : Nat) : Fld := ⟨(CNP_HART_SPEC i), 0, 0⟩
abbrev CNP_HART_PID (i : Nat) : Nat := unitBase 0 + 0x204 + 16 * i
abbrev CNP_HART_PID_VALID (i : Nat) : Fld := ⟨(CNP_HART_PID i), 31, 31⟩
abbrev CNP_HART_PID_PID (i : Nat) : Fld := ⟨(CNP_HART_PID i), 5, 0⟩
abbrev CNP_HART_VEC_LO (i : Nat) : Nat := unitBase 0 + 0x208 + 16 * i
abbrev CNP_HART_VEC_LO_ADDR (i : Nat) : Fld := ⟨(CNP_HART_VEC_LO i), 31, 2⟩
abbrev CNP_HART_VEC_HI (i : Nat) : Nat := unitBase 0 + 0x20C + 16 * i
abbrev CNP_HART_VEC_HI_ADDR (i : Nat) : Fld := ⟨(CNP_HART_VEC_HI i), 7, 0⟩
abbrev MEM_DRAM_STAT : Nat := unitBase 4 + 0x100
abbrev MEM_DRAM_STAT_READY : Fld := ⟨MEM_DRAM_STAT, 31, 31⟩
abbrev MEM_DRAM_STAT_SELFREF : Fld := ⟨MEM_DRAM_STAT, 30, 30⟩
abbrev MEM_DRAM_STAT_USABLE_MIB : Fld := ⟨MEM_DRAM_STAT, 15, 0⟩
abbrev MEM_ECC_CFG : Nat := unitBase 4 + 0x104
abbrev MEM_ECC_CFG_CE_TH : Fld := ⟨MEM_ECC_CFG, 31, 24⟩
abbrev MEM_ECC_CFG_CE_WIN : Fld := ⟨MEM_ECC_CFG, 23, 16⟩
abbrev MEM_ECC_CFG_SCRUB_EN : Fld := ⟨MEM_ECC_CFG, 15, 15⟩
abbrev MEM_ECC_CFG_SCRUB_H : Fld := ⟨MEM_ECC_CFG, 7, 0⟩
abbrev MEM_CE_CNT : Nat := unitBase 4 + 0x108
abbrev MEM_UE_CNT : Nat := unitBase 4 + 0x10C
abbrev MEM_ERR_ADDR_LO : Nat := unitBase 4 + 0x110
abbrev MEM_ERR_ADDR_HI : Nat := unitBase 4 + 0x114
abbrev MEM_ERR_ADDR_HI_KIND : Fld := ⟨MEM_ERR_ADDR_HI, 31, 28⟩
abbrev MEM_ERR_ADDR_HI_PID : Fld := ⟨MEM_ERR_ADDR_HI, 27, 22⟩
abbrev MEM_ERR_ADDR_HI_ADDR_HI : Fld := ⟨MEM_ERR_ADDR_HI, 7, 0⟩
abbrev MEM_RETIRE_STAT : Nat := unitBase 4 + 0x118
abbrev MEM_RETIRE_STAT_SPARE_LEFT : Fld := ⟨MEM_RETIRE_STAT, 24, 16⟩
abbrev MEM_RETIRE_STAT_SPARE_USED : Fld := ⟨MEM_RETIRE_STAT, 8, 0⟩
abbrev MEM_SCRUB_STAT : Nat := unitBase 4 + 0x11C
abbrev MEM_SCRUB_STAT_RUNNING : Fld := ⟨MEM_SCRUB_STAT, 31, 31⟩
abbrev MEM_SCRUB_STAT_PASSES : Fld := ⟨MEM_SCRUB_STAT, 15, 0⟩
abbrev MEM_NOR_CTRL : Nat := unitBase 4 + 0x180
abbrev MEM_NOR_CTRL_WP_B : Fld := ⟨MEM_NOR_CTRL, 1, 1⟩
abbrev MEM_NOR_CTRL_WP_A : Fld := ⟨MEM_NOR_CTRL, 0, 0⟩
abbrev MEM_NOR_STAT : Nat := unitBase 4 + 0x184
abbrev MEM_NOR_STAT_BUSY_B : Fld := ⟨MEM_NOR_STAT, 3, 3⟩
abbrev MEM_NOR_STAT_BUSY_A : Fld := ⟨MEM_NOR_STAT, 2, 2⟩
abbrev MEM_NOR_STAT_PRESENT_B : Fld := ⟨MEM_NOR_STAT, 1, 1⟩
abbrev MEM_NOR_STAT_PRESENT_A : Fld := ⟨MEM_NOR_STAT, 0, 0⟩
abbrev MEM_DW_BASE (i : Nat) : Nat := unitBase 4 + 0x400 + 16 * i
abbrev MEM_DW_BASE_BASE_L (i : Nat) : Fld := ⟨(MEM_DW_BASE i), 31, 12⟩
abbrev MEM_DW_BASE_BASE_H (i : Nat) : Fld := ⟨(MEM_DW_BASE i), 7, 0⟩
abbrev MEM_DW_LAST (i : Nat) : Nat := unitBase 4 + 0x404 + 16 * i
abbrev MEM_DW_LAST_LAST_L (i : Nat) : Fld := ⟨(MEM_DW_LAST i), 31, 12⟩
abbrev MEM_DW_LAST_LAST_H (i : Nat) : Fld := ⟨(MEM_DW_LAST i), 7, 0⟩
abbrev MEM_DW_PERM (i : Nat) : Nat := unitBase 4 + 0x408 + 16 * i
abbrev MEM_DW_PERM_EN (i : Nat) : Fld := ⟨(MEM_DW_PERM i), 31, 31⟩
abbrev MEM_DW_PERM_WR_HI (i : Nat) : Fld := ⟨(MEM_DW_PERM i), 29, 24⟩
abbrev MEM_DW_PERM_WR_LO (i : Nat) : Fld := ⟨(MEM_DW_PERM i), 21, 16⟩
abbrev MEM_DW_PERM_RD_HI (i : Nat) : Fld := ⟨(MEM_DW_PERM i), 13, 8⟩
abbrev MEM_DW_PERM_RD_LO (i : Nat) : Fld := ⟨(MEM_DW_PERM i), 5, 0⟩
abbrev MEM_DW_KEY (i : Nat) : Nat := unitBase 4 + 0x40C + 16 * i
abbrev MEM_DW_KEY_KEY_PID (i : Nat) : Fld := ⟨(MEM_DW_KEY i), 5, 0⟩
abbrev MEM_SPARE_MAP (i : Nat) : Nat := unitBase 4 + 0xC00 + 4 * i
abbrev MEM_SPARE_MAP_VALID (i : Nat) : Fld := ⟨(MEM_SPARE_MAP i), 31, 31⟩
abbrev MEM_SPARE_MAP_PAGE (i : Nat) : Fld := ⟨(MEM_SPARE_MAP i), 27, 0⟩
abbrev IW_STAT (x : Nat) : Nat := unitBase (1 + x) + 0x100
abbrev IW_STAT_STATE (x : Nat) : Fld := ⟨(IW_STAT x), 31, 29⟩
abbrev IW_STAT_SPLIT (x : Nat) : Fld := ⟨(IW_STAT x), 28, 28⟩
abbrev IW_STAT_DMR (x : Nat) : Fld := ⟨(IW_STAT x), 27, 27⟩
abbrev IW_STAT_SPARE_USED (x : Nat) : Fld := ⟨(IW_STAT x), 26, 26⟩
abbrev IW_STAT_RETIRED (x : Nat) : Fld := ⟨(IW_STAT x), 10, 8⟩
abbrev IW_STAT_RUNNING (x : Nat) : Fld := ⟨(IW_STAT x), 2, 0⟩
abbrev IW_FLT_CFG (x : Nat) : Nat := unitBase (1 + x) + 0x104
abbrev IW_FLT_CFG_DECAY (x : Nat) : Fld := ⟨(IW_FLT_CFG x), 31, 16⟩
abbrev IW_FLT_CFG_PERM_TH (x : Nat) : Fld := ⟨(IW_FLT_CFG x), 7, 0⟩
abbrev IW_CORE_FLT (x : Nat) : Nat := unitBase (1 + x) + 0x108
abbrev IW_CORE_FLT_REARMS2 (x : Nat) : Fld := ⟨(IW_CORE_FLT x), 29, 28⟩
abbrev IW_CORE_FLT_REARMS1 (x : Nat) : Fld := ⟨(IW_CORE_FLT x), 27, 26⟩
abbrev IW_CORE_FLT_REARMS0 (x : Nat) : Fld := ⟨(IW_CORE_FLT x), 25, 24⟩
abbrev IW_CORE_FLT_LEVEL2 (x : Nat) : Fld := ⟨(IW_CORE_FLT x), 23, 16⟩
abbrev IW_CORE_FLT_LEVEL1 (x : Nat) : Fld := ⟨(IW_CORE_FLT x), 15, 8⟩
abbrev IW_CORE_FLT_LEVEL0 (x : Nat) : Fld := ⟨(IW_CORE_FLT x), 7, 0⟩
abbrev IW_CORE_CTRL (x : Nat) : Nat := unitBase (1 + x) + 0x10C
abbrev IW_CORE_CTRL_CMD_DENIED (x : Nat) : Fld := ⟨(IW_CORE_CTRL x), 31, 31⟩
abbrev IW_CORE_CTRL_REARM (x : Nat) : Fld := ⟨(IW_CORE_CTRL x), 6, 4⟩
abbrev IW_CORE_CTRL_RETIRE (x : Nat) : Fld := ⟨(IW_CORE_CTRL x), 2, 0⟩
abbrev IW_RESYNC_CNT (x : Nat) : Nat := unitBase (1 + x) + 0x110
abbrev IW_RESYNC_CNT_CORE2 (x : Nat) : Fld := ⟨(IW_RESYNC_CNT x), 23, 16⟩
abbrev IW_RESYNC_CNT_CORE1 (x : Nat) : Fld := ⟨(IW_RESYNC_CNT x), 15, 8⟩
abbrev IW_RESYNC_CNT_CORE0 (x : Nat) : Fld := ⟨(IW_RESYNC_CNT x), 7, 0⟩
abbrev IW_FATAL_CAUSE (x : Nat) : Nat := unitBase (1 + x) + 0x114
abbrev IW_FATAL_CAUSE_VALID (x : Nat) : Fld := ⟨(IW_FATAL_CAUSE x), 31, 31⟩
abbrev IW_FATAL_CAUSE_CAUSE (x : Nat) : Fld := ⟨(IW_FATAL_CAUSE x), 3, 0⟩
abbrev IW_SELFTEST_STAT (x : Nat) : Nat := unitBase (1 + x) + 0x118
abbrev IW_SELFTEST_STAT_INJECTIONS (x : Nat) : Fld := ⟨(IW_SELFTEST_STAT x), 31, 16⟩
abbrev IW_SELFTEST_STAT_SWEEPS (x : Nat) : Fld := ⟨(IW_SELFTEST_STAT x), 15, 0⟩
abbrev IW_TCM_ERR (x : Nat) : Nat := unitBase (1 + x) + 0x11C
abbrev IW_TCM_ERR_KIND (x : Nat) : Fld := ⟨(IW_TCM_ERR x), 31, 30⟩
abbrev IW_TCM_ERR_PORT (x : Nat) : Fld := ⟨(IW_TCM_ERR x), 29, 29⟩
abbrev IW_TCM_ERR_WORD (x : Nat) : Fld := ⟨(IW_TCM_ERR x), 18, 2⟩
abbrev IW_RESET_VEC0 (x : Nat) : Nat := unitBase (1 + x) + 0x120
abbrev IW_RESET_VEC0_ADDR (x : Nat) : Fld := ⟨(IW_RESET_VEC0 x), 31, 1⟩
abbrev IW_RESET_VEC1 (x : Nat) : Nat := unitBase (1 + x) + 0x124
abbrev IW_RESET_VEC1_ADDR (x : Nat) : Fld := ⟨(IW_RESET_VEC1 x), 31, 1⟩
abbrev IW_RESUME_VEC0 (x : Nat) : Nat := unitBase (1 + x) + 0x128
abbrev IW_RESUME_VEC0_ADDR (x : Nat) : Fld := ⟨(IW_RESUME_VEC0 x), 31, 1⟩
abbrev IW_RESUME_VEC1 (x : Nat) : Nat := unitBase (1 + x) + 0x12C
abbrev IW_RESUME_VEC1_ADDR (x : Nat) : Fld := ⟨(IW_RESUME_VEC1 x), 31, 1⟩
abbrev IW_DRAM_WIN (x : Nat) : Nat := unitBase (1 + x) + 0x130
abbrev IW_DRAM_WIN_EN (x : Nat) : Fld := ⟨(IW_DRAM_WIN x), 31, 31⟩
abbrev IW_DRAM_WIN_BASE (x : Nat) : Fld := ⟨(IW_DRAM_WIN x), 8, 0⟩
abbrev IW_IRQ_EN (x i j : Nat) : Nat := unitBase (1 + x) + 0x140 + 256 * i + 4 * j
abbrev IW_IRQ_PEND (x i j : Nat) : Nat := unitBase (1 + x) + 0x160 + 256 * i + 4 * j
abbrev IW_IRQ_CLAIM (x i : Nat) : Nat := unitBase (1 + x) + 0x180 + 256 * i
abbrev IW_IRQ_CLAIM_ID (x i : Nat) : Fld := ⟨(IW_IRQ_CLAIM x i), 7, 0⟩
abbrev IW_TIMECMP_LO (x i : Nat) : Nat := unitBase (1 + x) + 0x188 + 256 * i
abbrev IW_TIMECMP_LO_CMP (x i : Nat) : Fld := ⟨(IW_TIMECMP_LO x i), 31, 0⟩
abbrev IW_TIMECMP_HI (x i : Nat) : Nat := unitBase (1 + x) + 0x18C + 256 * i
abbrev IW_TIMECMP_HI_CMP (x i : Nat) : Fld := ⟨(IW_TIMECMP_HI x i), 31, 0⟩
abbrev IW_DMA_SRC_LO (x i : Nat) : Nat := unitBase (1 + x) + 0x400 + 32 * i
abbrev IW_DMA_SRC_HI (x i : Nat) : Nat := unitBase (1 + x) + 0x404 + 32 * i
abbrev IW_DMA_DST_LO (x i : Nat) : Nat := unitBase (1 + x) + 0x408 + 32 * i
abbrev IW_DMA_DST_HI (x i : Nat) : Nat := unitBase (1 + x) + 0x40C + 32 * i
abbrev IW_DMA_LEN (x i : Nat) : Nat := unitBase (1 + x) + 0x410 + 32 * i
abbrev IW_DMA_CTRL (x i : Nat) : Nat := unitBase (1 + x) + 0x414 + 32 * i
abbrev IW_DMA_CTRL_GO (x i : Nat) : Fld := ⟨(IW_DMA_CTRL x i), 31, 31⟩
abbrev IW_DMA_CTRL_IRQ_EN (x i : Nat) : Fld := ⟨(IW_DMA_CTRL x i), 0, 0⟩
abbrev IW_DMA_STAT (x i : Nat) : Nat := unitBase (1 + x) + 0x418 + 32 * i
abbrev IW_DMA_STAT_BUSY (x i : Nat) : Fld := ⟨(IW_DMA_STAT x i), 31, 31⟩
abbrev IW_DMA_STAT_ERR (x i : Nat) : Fld := ⟨(IW_DMA_STAT x i), 1, 1⟩
abbrev IW_DMA_STAT_DONE (x i : Nat) : Fld := ⟨(IW_DMA_STAT x i), 0, 0⟩
abbrev PAR_MODE : Nat := unitBase 3 + 0x100
abbrev PAR_MODE_ST_EN : Fld := ⟨PAR_MODE, 8, 8⟩
abbrev PAR_MODE_EN_REVERT : Fld := ⟨PAR_MODE, 4, 4⟩
abbrev PAR_MODE_PRIMARY : Fld := ⟨PAR_MODE, 2, 2⟩
abbrev PAR_MODE_CYCLE : Fld := ⟨PAR_MODE, 1, 0⟩
abbrev PAR_ACTIVE : Nat := unitBase 3 + 0x104
abbrev PAR_ACTIVE_PAIR_STATE : Fld := ⟨PAR_ACTIVE, 9, 8⟩
abbrev PAR_ACTIVE_ACTIVE : Fld := ⟨PAR_ACTIVE, 1, 0⟩
abbrev PAR_REVERT_HOLD : Nat := unitBase 3 + 0x108
abbrev PAR_REVERT_HOLD_MATCH_N : Fld := ⟨PAR_REVERT_HOLD, 31, 24⟩
abbrev PAR_REVERT_HOLD_HOLD_MS : Fld := ⟨PAR_REVERT_HOLD, 15, 0⟩
abbrev PAR_CFG : Nat := unitBase 3 + 0x10C
abbrev PAR_CFG_MM_DECAY : Fld := ⟨PAR_CFG, 31, 16⟩
abbrev PAR_CFG_MM_TH : Fld := ⟨PAR_CFG, 15, 8⟩
abbrev PAR_CFG_CMP_LEAD : Fld := ⟨PAR_CFG, 7, 0⟩
abbrev PAR_TCM_MAP : Nat := unitBase 3 + 0x110
abbrev PAR_TCM_MAP_OUT : Fld := ⟨PAR_TCM_MAP, 26, 16⟩
abbrev PAR_TCM_MAP_SNAP : Fld := ⟨PAR_TCM_MAP, 10, 0⟩
abbrev PAR_STATE_MAP : Nat := unitBase 3 + 0x114
abbrev PAR_STATE_MAP_LEN : Fld := ⟨PAR_STATE_MAP, 22, 16⟩
abbrev PAR_STATE_MAP_OFS : Fld := ⟨PAR_STATE_MAP, 10, 0⟩
abbrev PAR_LOAD_EN_LO : Nat := unitBase 3 + 0x118
abbrev PAR_LOAD_EN_HI : Nat := unitBase 3 + 0x11C
abbrev PAR_HEALTH_A : Nat := unitBase 3 + 0x120
abbrev PAR_HEALTH_A_GRADE : Fld := ⟨PAR_HEALTH_A, 31, 30⟩
abbrev PAR_HEALTH_A_SYNCED : Fld := ⟨PAR_HEALTH_A, 29, 29⟩
abbrev PAR_HEALTH_A_MARCH_FAIL : Fld := ⟨PAR_HEALTH_A, 28, 28⟩
abbrev PAR_HEALTH_A_VEC_INVALID : Fld := ⟨PAR_HEALTH_A, 27, 27⟩
abbrev PAR_HEALTH_A_GOOD_MS : Fld := ⟨PAR_HEALTH_A, 15, 0⟩
abbrev PAR_HEALTH_B : Nat := unitBase 3 + 0x124
abbrev PAR_HEALTH_B_GRADE : Fld := ⟨PAR_HEALTH_B, 31, 30⟩
abbrev PAR_HEALTH_B_SYNCED : Fld := ⟨PAR_HEALTH_B, 29, 29⟩
abbrev PAR_HEALTH_B_MARCH_FAIL : Fld := ⟨PAR_HEALTH_B, 28, 28⟩
abbrev PAR_HEALTH_B_VEC_INVALID : Fld := ⟨PAR_HEALTH_B, 27, 27⟩
abbrev PAR_HEALTH_B_GOOD_MS : Fld := ⟨PAR_HEALTH_B, 15, 0⟩
abbrev PAR_HWORD_A : Nat := unitBase 3 + 0x128
abbrev PAR_HWORD_B : Nat := unitBase 3 + 0x12C
abbrev PAR_MM_STAT : Nat := unitBase 3 + 0x130
abbrev PAR_MM_STAT_LEVEL : Fld := ⟨PAR_MM_STAT, 31, 24⟩
abbrev PAR_MM_STAT_WORD : Fld := ⟨PAR_MM_STAT, 8, 0⟩
abbrev PAR_EVT_CNT : Nat := unitBase 3 + 0x134
abbrev PAR_EVT_CNT_FAILOVER : Fld := ⟨PAR_EVT_CNT, 31, 24⟩
abbrev PAR_EVT_CNT_REVERT : Fld := ⟨PAR_EVT_CNT, 23, 16⟩
abbrev PAR_EVT_CNT_MISMATCH : Fld := ⟨PAR_EVT_CNT, 15, 8⟩
abbrev PAR_EVT_CNT_DEADLINE : Fld := ⟨PAR_EVT_CNT, 7, 0⟩
abbrev PAR_ST_STAT : Nat := unitBase 3 + 0x138
abbrev PAR_ST_STAT_SKIPPED : Fld := ⟨PAR_ST_STAT, 31, 24⟩
abbrev PAR_ST_STAT_SLICE : Fld := ⟨PAR_ST_STAT, 23, 16⟩
abbrev PAR_ST_STAT_MARCH : Fld := ⟨PAR_ST_STAT, 15, 8⟩
abbrev PAR_ST_STAT_PASSES : Fld := ⟨PAR_ST_STAT, 7, 0⟩
abbrev PAR_SEQ : Nat := unitBase 3 + 0x13C
abbrev PAR_TOL_SEL (i : Nat) : Nat := unitBase 3 + 0x200 + 8 * i
abbrev PAR_TOL_SEL_EN (i : Nat) : Fld := ⟨(PAR_TOL_SEL i), 31, 31⟩
abbrev PAR_TOL_SEL_SIGNED (i : Nat) : Fld := ⟨(PAR_TOL_SEL i), 30, 30⟩
abbrev PAR_TOL_SEL_LSB (i : Nat) : Fld := ⟨(PAR_TOL_SEL i), 28, 24⟩
abbrev PAR_TOL_SEL_WIDTHM1 (i : Nat) : Fld := ⟨(PAR_TOL_SEL i), 20, 16⟩
abbrev PAR_TOL_SEL_WORD (i : Nat) : Fld := ⟨(PAR_TOL_SEL i), 8, 0⟩
abbrev PAR_TOL_MAX (i : Nat) : Nat := unitBase 3 + 0x204 + 8 * i
abbrev PAR_MASK (i : Nat) : Nat := unitBase 3 + 0x800 + 4 * i
abbrev PAR_MASK_MASK (i : Nat) : Fld := ⟨(PAR_MASK i), 31, 0⟩
abbrev PAR_SUB (i : Nat) : Nat := unitBase 3 + 0xD00 + 4 * i
abbrev PAR_SUB_EN (i : Nat) : Fld := ⟨(PAR_SUB i), 31, 31⟩
abbrev PAR_SUB_DEV (i : Nat) : Fld := ⟨(PAR_SUB i), 30, 25⟩
abbrev PAR_SUB_GSID (i : Nat) : Fld := ⟨(PAR_SUB i), 24, 0⟩
abbrev MSU_SAFE_CTRL : Nat := unitBase 27 + 0x14C
abbrev MSU_SAFE_CTRL_KEY : Fld := ⟨MSU_SAFE_CTRL, 15, 8⟩
abbrev MSU_SAFE_CTRL_EXIT : Fld := ⟨MSU_SAFE_CTRL, 0, 0⟩
abbrev MSU_SAFE_STAT : Nat := unitBase 27 + 0x150
abbrev MSU_SAFE_STAT_CAUSE_SRC : Fld := ⟨MSU_SAFE_STAT, 24, 16⟩
abbrev MSU_SAFE_STAT_EXITS : Fld := ⟨MSU_SAFE_STAT, 15, 8⟩
abbrev MSU_SAFE_STAT_REFUSE : Fld := ⟨MSU_SAFE_STAT, 1, 0⟩
abbrev MSU_INJ_CTRL : Nat := unitBase 27 + 0x154
abbrev MSU_INJ_CTRL_LAST_INJ : Fld := ⟨MSU_INJ_CTRL, 31, 31⟩
abbrev MSU_INJ_CTRL_DRY : Fld := ⟨MSU_INJ_CTRL, 0, 0⟩
abbrev MSU_FCU_FIRST : Nat := unitBase 27 + 0x158
abbrev MSU_FCU_FIRST_VALID : Fld := ⟨MSU_FCU_FIRST, 31, 31⟩
abbrev MSU_FCU_FIRST_SRC : Fld := ⟨MSU_FCU_FIRST, 8, 0⟩
abbrev MSU_FAULT_CFG : Nat := unitBase 27 + 0x15C
abbrev MSU_FAULT_CFG_FAULTN_ALL_FT : Fld := ⟨MSU_FAULT_CFG, 0, 0⟩
abbrev MSU_WDOG_CFG (i : Nat) : Nat := unitBase 27 + 0x160 + 16 * i
abbrev MSU_WDOG_CFG_EN (i : Nat) : Fld := ⟨(MSU_WDOG_CFG i), 31, 31⟩
abbrev MSU_WDOG_CFG_FT (i : Nat) : Fld := ⟨(MSU_WDOG_CFG i), 30, 30⟩
abbrev MSU_WDOG_CFG_PID (i : Nat) : Fld := ⟨(MSU_WDOG_CFG i), 29, 24⟩
abbrev MSU_WDOG_CFG_MIN_MS (i : Nat) : Fld := ⟨(MSU_WDOG_CFG i), 23, 12⟩
abbrev MSU_WDOG_CFG_MAX_MS (i : Nat) : Fld := ⟨(MSU_WDOG_CFG i), 11, 0⟩
abbrev MSU_WDOG_KICK (i : Nat) : Nat := unitBase 27 + 0x164 + 16 * i
abbrev MSU_WDOG_KICK_KEY (i : Nat) : Fld := ⟨(MSU_WDOG_KICK i), 7, 0⟩
abbrev MSU_WDOG_STAT (i : Nat) : Nat := unitBase 27 + 0x168 + 16 * i
abbrev MSU_WDOG_STAT_RUNNING (i : Nat) : Fld := ⟨(MSU_WDOG_STAT i), 31, 31⟩
abbrev MSU_WDOG_STAT_EXPIRED (i : Nat) : Fld := ⟨(MSU_WDOG_STAT i), 23, 16⟩
abbrev MSU_WDOG_STAT_NEXT_KEY (i : Nat) : Fld := ⟨(MSU_WDOG_STAT i), 7, 0⟩
abbrev MSU_FLT_CFG (i : Nat) : Nat := unitBase 27 + 0x300 + 4 * i
abbrev MSU_FLT_CFG_DECAY_MS (i : Nat) : Fld := ⟨(MSU_FLT_CFG i), 31, 16⟩
abbrev MSU_FLT_CFG_REARM_MAX (i : Nat) : Fld := ⟨(MSU_FLT_CFG i), 15, 12⟩
abbrev MSU_FLT_CFG_RST_MAX (i : Nat) : Fld := ⟨(MSU_FLT_CFG i), 11, 8⟩
abbrev MSU_FLT_CFG_PERM_TH (i : Nat) : Fld := ⟨(MSU_FLT_CFG i), 7, 0⟩
abbrev MSU_FCU_PEND (i : Nat) : Nat := unitBase 27 + 0xC00 + 4 * i
abbrev LSW_DIE_STAT (d : Nat) : Nat := unitBase (16 + d) + 0x100
abbrev LSW_DIE_STAT_T_DIE (d : Nat) : Fld := ⟨(LSW_DIE_STAT d), 31, 24⟩
abbrev LSW_DIE_STAT_CLK_OK (d : Nat) : Fld := ⟨(LSW_DIE_STAT d), 23, 23⟩
abbrev LSW_DIE_STAT_HB_LOST (d : Nat) : Fld := ⟨(LSW_DIE_STAT d), 22, 22⟩
abbrev LSW_DIE_STAT_GATELOCK (d : Nat) : Fld := ⟨(LSW_DIE_STAT d), 21, 21⟩
abbrev LSW_DIE_STAT_SAFE_LINE (d : Nat) : Fld := ⟨(LSW_DIE_STAT d), 20, 20⟩
abbrev LSW_DIE_STAT_V_STUD (d : Nat) : Fld := ⟨(LSW_DIE_STAT d), 15, 0⟩
abbrev LSW_DIE_ON (d : Nat) : Nat := unitBase (16 + d) + 0x104
abbrev LSW_DIE_ON_CELLS (d : Nat) : Fld := ⟨(LSW_DIE_ON d), 15, 0⟩
abbrev LSW_DIE_SHED (d : Nat) : Nat := unitBase (16 + d) + 0x108
abbrev LSW_DIE_SHED_CELLS (d : Nat) : Fld := ⟨(LSW_DIE_SHED d), 15, 0⟩
abbrev LSW_GOV_CFG (d : Nat) : Nat := unitBase (16 + d) + 0x180
abbrev LSW_GOV_CFG_OVR_MS (d : Nat) : Fld := ⟨(LSW_GOV_CFG d), 31, 24⟩
abbrev LSW_GOV_CFG_HYST (d : Nat) : Fld := ⟨(LSW_GOV_CFG d), 23, 16⟩
abbrev LSW_GOV_CFG_HOLD_MS (d : Nat) : Fld := ⟨(LSW_GOV_CFG d), 15, 0⟩
abbrev LSW_GOV_BUD (d : Nat) : Nat := unitBase (16 + d) + 0x184
abbrev LSW_GOV_BUD_MOD (d : Nat) : Fld := ⟨(LSW_GOV_BUD d), 29, 20⟩
abbrev LSW_GOV_BUD_BAT2 (d : Nat) : Fld := ⟨(LSW_GOV_BUD d), 19, 10⟩
abbrev LSW_GOV_BUD_BAT1 (d : Nat) : Fld := ⟨(LSW_GOV_BUD d), 9, 0⟩
abbrev LSW_GOV_SUM (d : Nat) : Nat := unitBase (16 + d) + 0x188
abbrev LSW_GOV_SUM_MOD (d : Nat) : Fld := ⟨(LSW_GOV_SUM d), 29, 20⟩
abbrev LSW_GOV_SUM_BAT2 (d : Nat) : Fld := ⟨(LSW_GOV_SUM d), 19, 10⟩
abbrev LSW_GOV_SUM_BAT1 (d : Nat) : Fld := ⟨(LSW_GOV_SUM d), 9, 0⟩
abbrev LSW_GOV_CNT (d : Nat) : Nat := unitBase (16 + d) + 0x18C
abbrev LSW_GOV_CNT_SHED (d : Nat) : Fld := ⟨(LSW_GOV_CNT d), 31, 16⟩
abbrev LSW_GOV_CNT_HELD (d : Nat) : Fld := ⟨(LSW_GOV_CNT d), 15, 0⟩
abbrev LSW_CH_CFG (g : Nat) : Nat := lswCell g + 0x20
abbrev LSW_CH_CFG_PAIR (g : Nat) : Fld := ⟨(LSW_CH_CFG g), 15, 15⟩
abbrev LSW_CH_CFG_SOFT_STOP (g : Nat) : Fld := ⟨(LSW_CH_CFG g), 14, 14⟩
abbrev LSW_CH_CFG_MODE (g : Nat) : Fld := ⟨(LSW_CH_CFG g), 2, 0⟩
abbrev LSW_CH_CMD (g : Nat) : Nat := lswCell g + 0x24
abbrev LSW_CH_CMD_ON (g : Nat) : Fld := ⟨(LSW_CH_CMD g), 31, 31⟩
abbrev LSW_CH_CMD_SOFT_OFF (g : Nat) : Fld := ⟨(LSW_CH_CMD g), 30, 30⟩
abbrev LSW_CH_CMD_DUTY (g : Nat) : Fld := ⟨(LSW_CH_CMD g), 11, 0⟩
abbrev LSW_CH_PWM (g : Nat) : Nat := lswCell g + 0x28
abbrev LSW_CH_PWM_PHASE (g : Nat) : Fld := ⟨(LSW_CH_PWM g), 31, 24⟩
abbrev LSW_CH_PWM_PERIOD (g : Nat) : Fld := ⟨(LSW_CH_PWM g), 23, 0⟩
abbrev LSW_CH_MOTOR (g : Nat) : Nat := lswCell g + 0x2C
abbrev LSW_CH_MOTOR_START_MS (g : Nat) : Fld := ⟨(LSW_CH_MOTOR g), 31, 16⟩
abbrev LSW_CH_MOTOR_RAMP (g : Nat) : Fld := ⟨(LSW_CH_MOTOR g), 15, 0⟩
abbrev LSW_CH_VALVE (g : Nat) : Nat := lswCell g + 0x30
abbrev LSW_CH_VALVE_HOLD_DUTY (g : Nat) : Fld := ⟨(LSW_CH_VALVE g), 31, 20⟩
abbrev LSW_CH_VALVE_HOLD_COMP (g : Nat) : Fld := ⟨(LSW_CH_VALVE g), 17, 17⟩
abbrev LSW_CH_VALVE_PEAK_I (g : Nat) : Fld := ⟨(LSW_CH_VALVE g), 15, 8⟩
abbrev LSW_CH_VALVE_PEAK_MS (g : Nat) : Fld := ⟨(LSW_CH_VALVE g), 7, 0⟩
abbrev LSW_CH_BIND (g : Nat) : Nat := lswCell g + 0x34
abbrev LSW_CH_BIND_EN (g : Nat) : Fld := ⟨(LSW_CH_BIND g), 31, 31⟩
abbrev LSW_CH_BIND_DEV (g : Nat) : Fld := ⟨(LSW_CH_BIND g), 30, 25⟩
abbrev LSW_CH_BIND_GSID (g : Nat) : Fld := ⟨(LSW_CH_BIND g), 24, 0⟩
abbrev LSW_CH_BIND_MAP (g : Nat) : Nat := lswCell g + 0x38
abbrev LSW_CH_BIND_MAP_FORMAT (g : Nat) : Fld := ⟨(LSW_CH_BIND_MAP g), 31, 30⟩
abbrev LSW_CH_BIND_MAP_TO_ACT (g : Nat) : Fld := ⟨(LSW_CH_BIND_MAP g), 29, 28⟩
abbrev LSW_CH_BIND_MAP_TO_MS (g : Nat) : Fld := ⟨(LSW_CH_BIND_MAP g), 15, 0⟩
abbrev LSW_CH_SAFETY (g : Nat) : Nat := lswCell g + 0x3C
abbrev LSW_CH_SAFETY_SAFETY (g : Nat) : Fld := ⟨(LSW_CH_SAFETY g), 31, 31⟩
abbrev LSW_CH_SAFETY_SAFE_SEL (g : Nat) : Fld := ⟨(LSW_CH_SAFETY g), 29, 28⟩
abbrev LSW_CH_SAFETY_SAFE_DUTY (g : Nat) : Fld := ⟨(LSW_CH_SAFETY g), 11, 0⟩
abbrev LSW_CH_STATUS0 (g : Nat) : Nat := lswCell g + 0x40
abbrev LSW_CH_STATUS0_STATE (g : Nat) : Fld := ⟨(LSW_CH_STATUS0 g), 31, 29⟩
abbrev LSW_CH_STATUS0_PWM_ON (g : Nat) : Fld := ⟨(LSW_CH_STATUS0 g), 28, 28⟩
abbrev LSW_CH_STATUS0_PEAK (g : Nat) : Fld := ⟨(LSW_CH_STATUS0 g), 27, 27⟩
abbrev LSW_CH_STATUS0_COMP_SAT (g : Nat) : Fld := ⟨(LSW_CH_STATUS0 g), 26, 26⟩
abbrev LSW_CH_STATUS0_CFG_REJ (g : Nat) : Fld := ⟨(LSW_CH_STATUS0 g), 25, 25⟩
abbrev LSW_CH_STATUS0_BIND_STALE (g : Nat) : Fld := ⟨(LSW_CH_STATUS0 g), 24, 24⟩
abbrev LSW_CH_STATUS0_PROT_FLAGS (g : Nat) : Fld := ⟨(LSW_CH_STATUS0 g), 23, 16⟩
abbrev LSW_CH_STATUS0_DIAG_FLAGS (g : Nat) : Fld := ⟨(LSW_CH_STATUS0 g), 15, 8⟩
abbrev LSW_CH_STATUS0_CMD_SRC (g : Nat) : Fld := ⟨(LSW_CH_STATUS0 g), 7, 6⟩
abbrev LSW_CH_STATUS0_LIMIT (g : Nat) : Fld := ⟨(LSW_CH_STATUS0 g), 23, 23⟩
abbrev LSW_CH_STATUS0_LATCH (g : Nat) : Fld := ⟨(LSW_CH_STATUS0 g), 22, 22⟩
abbrev LSW_CH_STATUS0_RESTART_WAIT (g : Nat) : Fld := ⟨(LSW_CH_STATUS0 g), 21, 21⟩
abbrev LSW_CH_STATUS0_COOL_WAIT (g : Nat) : Fld := ⟨(LSW_CH_STATUS0 g), 20, 20⟩
abbrev LSW_CH_STATUS0_CLAMPING (g : Nat) : Fld := ⟨(LSW_CH_STATUS0 g), 19, 19⟩
abbrev LSW_CH_STATUS0_SOFT_RAMP (g : Nat) : Fld := ⟨(LSW_CH_STATUS0 g), 18, 18⟩
abbrev LSW_CH_STATUS0_UV_PAUSE (g : Nat) : Fld := ⟨(LSW_CH_STATUS0 g), 17, 17⟩
abbrev LSW_CH_STATUS0_WIRE_WARN (g : Nat) : Fld := ⟨(LSW_CH_STATUS0 g), 16, 16⟩
abbrev LSW_CH_STATUS0_OL_OFF (g : Nat) : Fld := ⟨(LSW_CH_STATUS0 g), 15, 15⟩
abbrev LSW_CH_STATUS0_SB (g : Nat) : Fld := ⟨(LSW_CH_STATUS0 g), 14, 14⟩
abbrev LSW_CH_STATUS0_OL_ON (g : Nat) : Fld := ⟨(LSW_CH_STATUS0 g), 13, 13⟩
abbrev LSW_CH_STATUS0_INRUSH (g : Nat) : Fld := ⟨(LSW_CH_STATUS0 g), 12, 12⟩
abbrev LSW_CH_STATUS0_DG_BUSY (g : Nat) : Fld := ⟨(LSW_CH_STATUS0 g), 11, 11⟩
abbrev LSW_CH_STATUS0_DG_LAST (g : Nat) : Fld := ⟨(LSW_CH_STATUS0 g), 10, 8⟩
abbrev LSW_CH_STATUS1 (g : Nat) : Nat := lswCell g + 0x44
abbrev LSW_CH_STATUS1_I_AVG (g : Nat) : Fld := ⟨(LSW_CH_STATUS1 g), 31, 16⟩
abbrev LSW_CH_STATUS1_V_OUT (g : Nat) : Fld := ⟨(LSW_CH_STATUS1 g), 15, 0⟩
abbrev LSW_CH_STATUS2 (g : Nat) : Nat := lswCell g + 0x48
abbrev LSW_CH_STATUS2_V_BAT (g : Nat) : Fld := ⟨(LSW_CH_STATUS2 g), 31, 16⟩
abbrev LSW_CH_STATUS2_T_J (g : Nat) : Fld := ⟨(LSW_CH_STATUS2 g), 15, 8⟩
abbrev LSW_CH_STATUS2_T_WIRE (g : Nat) : Fld := ⟨(LSW_CH_STATUS2 g), 7, 0⟩
abbrev LSW_CH_STATUS3 (g : Nat) : Nat := lswCell g + 0x4C
abbrev LSW_CH_STATUS3_EFF_DUTY (g : Nat) : Fld := ⟨(LSW_CH_STATUS3 g), 31, 20⟩
abbrev LSW_CH_STATUS3_PROT_STAT (g : Nat) : Fld := ⟨(LSW_CH_STATUS3 g), 19, 0⟩
abbrev LSW_CH_STATUS3_RETRY_LEFT (g : Nat) : Fld := ⟨(LSW_CH_STATUS3 g), 19, 16⟩
abbrev LSW_CH_STATUS3_TRIP_CAUSE (g : Nat) : Fld := ⟨(LSW_CH_STATUS3 g), 15, 12⟩
abbrev LSW_CH_STATUS3_E_LAST (g : Nat) : Fld := ⟨(LSW_CH_STATUS3 g), 11, 0⟩
abbrev LSW_CH_PUBLISH (g : Nat) : Nat := lswCell g + 0x50
abbrev LSW_CH_PUBLISH_EN_I (g : Nat) : Fld := ⟨(LSW_CH_PUBLISH g), 31, 31⟩
abbrev LSW_CH_PUBLISH_EN_V (g : Nat) : Fld := ⟨(LSW_CH_PUBLISH g), 30, 30⟩
abbrev LSW_CH_PUBLISH_EN_T (g : Nat) : Fld := ⟨(LSW_CH_PUBLISH g), 29, 29⟩
abbrev LSW_CH_PUBLISH_GSID_BASE (g : Nat) : Fld := ⟨(LSW_CH_PUBLISH g), 24, 0⟩
abbrev LSW_CH_PUB_CFG (g : Nat) : Nat := lswCell g + 0x54
abbrev LSW_CH_PUB_CFG_PERIOD_MS (g : Nat) : Fld := ⟨(LSW_CH_PUB_CFG g), 15, 0⟩
abbrev LSW_CH_GOV (g : Nat) : Nat := lswCell g + 0x58
abbrev LSW_CH_GOV_PRIO (g : Nat) : Fld := ⟨(LSW_CH_GOV g), 10, 8⟩
abbrev LSW_CH_GOV_I_EXP (g : Nat) : Fld := ⟨(LSW_CH_GOV g), 7, 0⟩
abbrev LSW_CH_MEAS_RAW (g : Nat) : Nat := lswCell g + 0x5C
abbrev LSW_CH_MEAS_RAW_VALID (g : Nat) : Fld := ⟨(LSW_CH_MEAS_RAW g), 31, 31⟩
abbrev LSW_CH_MEAS_RAW_SAMPLE (g : Nat) : Fld := ⟨(LSW_CH_MEAS_RAW g), 13, 0⟩
abbrev LSW_PR_DIE_CFG (d : Nat) : Nat := unitBase (16 + d) + 0x200
abbrev LSW_PR_DIE_CFG_DIE_WARN (d : Nat) : Fld := ⟨(LSW_PR_DIE_CFG d), 31, 24⟩
abbrev LSW_PR_DIE_CFG_DIE_SHED (d : Nat) : Fld := ⟨(LSW_PR_DIE_CFG d), 23, 16⟩
abbrev LSW_PR_DIE_CFG_UV (d : Nat) : Fld := ⟨(LSW_PR_DIE_CFG d), 7, 0⟩
abbrev LSW_PR_DIE_STAT (d : Nat) : Nat := unitBase (16 + d) + 0x204
abbrev LSW_PR_DIE_STAT_HOT (d : Nat) : Fld := ⟨(LSW_PR_DIE_STAT d), 31, 31⟩
abbrev LSW_PR_DIE_STAT_SHEDDING (d : Nat) : Fld := ⟨(LSW_PR_DIE_STAT d), 30, 30⟩
abbrev LSW_PR_DIE_STAT_UV (d : Nat) : Fld := ⟨(LSW_PR_DIE_STAT d), 29, 29⟩
abbrev LSW_PR_DIE_STAT_THERM_SHED (d : Nat) : Fld := ⟨(LSW_PR_DIE_STAT d), 15, 0⟩
abbrev LSW_PR_EVT_CNT (d : Nat) : Nat := unitBase (16 + d) + 0x208
abbrev LSW_PR_EVT_CNT_TRIPS (d : Nat) : Fld := ⟨(LSW_PR_EVT_CNT d), 31, 24⟩
abbrev LSW_PR_EVT_CNT_SOFT_RAMPS (d : Nat) : Fld := ⟨(LSW_PR_EVT_CNT d), 23, 16⟩
abbrev LSW_PR_EVT_CNT_HOT_ENTRIES (d : Nat) : Fld := ⟨(LSW_PR_EVT_CNT d), 15, 8⟩
abbrev LSW_PR_EVT_CNT_UV_ENTRIES (d : Nat) : Fld := ⟨(LSW_PR_EVT_CNT d), 7, 0⟩
abbrev LSW_PR_TRIP (g : Nat) : Nat := lswCell g + 0x60
abbrev LSW_PR_TRIP_TRIP_I (g : Nat) : Fld := ⟨(LSW_PR_TRIP g), 25, 16⟩
abbrev LSW_PR_TRIP_LIM_US (g : Nat) : Fld := ⟨(LSW_PR_TRIP g), 15, 8⟩
abbrev LSW_PR_TRIP_WIN_LIM_MS (g : Nat) : Fld := ⟨(LSW_PR_TRIP g), 7, 0⟩
abbrev LSW_PR_WIRE (g : Nat) : Nat := lswCell g + 0x64
abbrev LSW_PR_WIRE_T_TRIP (g : Nat) : Fld := ⟨(LSW_PR_WIRE g), 31, 24⟩
abbrev LSW_PR_WIRE_T_REL (g : Nat) : Fld := ⟨(LSW_PR_WIRE g), 23, 16⟩
abbrev LSW_PR_WIRE_T_AMB (g : Nat) : Fld := ⟨(LSW_PR_WIRE g), 15, 8⟩
abbrev LSW_PR_WIRE_AMB_SRC (g : Nat) : Fld := ⟨(LSW_PR_WIRE g), 7, 7⟩
abbrev LSW_PR_WIRE_CODE (g : Nat) : Fld := ⟨(LSW_PR_WIRE g), 3, 0⟩
abbrev LSW_PR_WIRE_CUST0 (g : Nat) : Nat := lswCell g + 0x68
abbrev LSW_PR_WIRE_CUST0_RW20 (g : Nat) : Fld := ⟨(LSW_PR_WIRE_CUST0 g), 31, 16⟩
abbrev LSW_PR_WIRE_CUST0_RTH (g : Nat) : Fld := ⟨(LSW_PR_WIRE_CUST0 g), 7, 0⟩
abbrev LSW_PR_WIRE_CUST1 (g : Nat) : Nat := lswCell g + 0x6C
abbrev LSW_PR_WIRE_CUST1_TAU (g : Nat) : Fld := ⟨(LSW_PR_WIRE_CUST1 g), 9, 0⟩
abbrev LSW_PR_THERM (g : Nat) : Nat := lswCell g + 0x70
abbrev LSW_PR_THERM_T_RESTART (g : Nat) : Fld := ⟨(LSW_PR_THERM g), 31, 24⟩
abbrev LSW_PR_THERM_COOL_MAX (g : Nat) : Fld := ⟨(LSW_PR_THERM g), 15, 0⟩
abbrev LSW_PR_RETRY (g : Nat) : Nat := lswCell g + 0x74
abbrev LSW_PR_RETRY_RETRY_MAX (g : Nat) : Fld := ⟨(LSW_PR_RETRY g), 31, 28⟩
abbrev LSW_PR_RETRY_RETRY_MS (g : Nat) : Fld := ⟨(LSW_PR_RETRY g), 27, 16⟩
abbrev LSW_PR_RETRY_RETRY_CLR_MS (g : Nat) : Fld := ⟨(LSW_PR_RETRY g), 15, 0⟩
abbrev LSW_PR_CLAMP (g : Nat) : Nat := lswCell g + 0x78
abbrev LSW_PR_CLAMP_L_SRC (g : Nat) : Fld := ⟨(LSW_PR_CLAMP g), 31, 30⟩
abbrev LSW_PR_CLAMP_SOFT_MS (g : Nat) : Fld := ⟨(LSW_PR_CLAMP g), 23, 16⟩
abbrev LSW_PR_CLAMP_L_EST (g : Nat) : Fld := ⟨(LSW_PR_CLAMP g), 15, 0⟩
abbrev LSW_PR_STAT (g : Nat) : Nat := lswCell g + 0x7C
abbrev LSW_PR_STAT_LATCH_TJ (g : Nat) : Fld := ⟨(LSW_PR_STAT g), 31, 31⟩
abbrev LSW_PR_STAT_LATCH_WIRE (g : Nat) : Fld := ⟨(LSW_PR_STAT g), 30, 30⟩
abbrev LSW_PR_STAT_PENDING (g : Nat) : Fld := ⟨(LSW_PR_STAT g), 29, 29⟩
abbrev LSW_PR_STAT_COOL_LEFT (g : Nat) : Fld := ⟨(LSW_PR_STAT g), 15, 0⟩
abbrev LSW_PR_ENERGY (g : Nat) : Nat := lswCell g + 0x80
abbrev LSW_PR_ENERGY_E_PRED (g : Nat) : Fld := ⟨(LSW_PR_ENERGY g), 31, 16⟩
abbrev LSW_PR_ENERGY_E_REP (g : Nat) : Fld := ⟨(LSW_PR_ENERGY g), 15, 0⟩
abbrev LSW_PR_CLAMP_TOT (g : Nat) : Nat := lswCell g + 0x84
abbrev LSW_PR_CLAMP_TOT_E_TOTAL (g : Nat) : Fld := ⟨(LSW_PR_CLAMP_TOT g), 31, 0⟩
abbrev LSW_PR_L_MEAS (g : Nat) : Nat := lswCell g + 0x88
abbrev LSW_PR_L_MEAS_VALID (g : Nat) : Fld := ⟨(LSW_PR_L_MEAS g), 31, 31⟩
abbrev LSW_PR_L_MEAS_L (g : Nat) : Fld := ⟨(LSW_PR_L_MEAS g), 15, 0⟩
abbrev LSW_PR_TRIP_CNT (g : Nat) : Nat := lswCell g + 0x8C
abbrev LSW_PR_TRIP_CNT_OVERCURRENT (g : Nat) : Fld := ⟨(LSW_PR_TRIP_CNT g), 31, 24⟩
abbrev LSW_PR_TRIP_CNT_THERMAL (g : Nat) : Fld := ⟨(LSW_PR_TRIP_CNT g), 23, 16⟩
abbrev LSW_PR_TRIP_CNT_WIRE (g : Nat) : Fld := ⟨(LSW_PR_TRIP_CNT g), 15, 8⟩
abbrev LSW_PR_TRIP_CNT_CLAMP (g : Nat) : Fld := ⟨(LSW_PR_TRIP_CNT g), 7, 0⟩
abbrev LSW_DG_SCHED (d : Nat) : Nat := unitBase (16 + d) + 0x300
abbrev LSW_DG_SCHED_SPACING (d : Nat) : Fld := ⟨(LSW_DG_SCHED d), 15, 0⟩
abbrev LSW_DG_STAT (d : Nat) : Nat := unitBase (16 + d) + 0x304
abbrev LSW_DG_STAT_FW_RUN (d : Nat) : Fld := ⟨(LSW_DG_STAT d), 31, 31⟩
abbrev LSW_DG_STAT_FW_VER (d : Nat) : Fld := ⟨(LSW_DG_STAT d), 23, 16⟩
abbrev LSW_DG_STAT_ACTIVE (d : Nat) : Fld := ⟨(LSW_DG_STAT d), 15, 0⟩
abbrev LSW_DG_CNT (d : Nat) : Nat := unitBase (16 + d) + 0x308
abbrev LSW_DG_CNT_TESTS (d : Nat) : Fld := ⟨(LSW_DG_CNT d), 31, 16⟩
abbrev LSW_DG_CNT_ABANDONED (d : Nat) : Fld := ⟨(LSW_DG_CNT d), 15, 8⟩
abbrev LSW_DG_CNT_SKIPPED (d : Nat) : Fld := ⟨(LSW_DG_CNT d), 7, 0⟩
abbrev LSW_DG_OFF_CFG (g : Nat) : Nat := lswCell g + 0xA0
abbrev LSW_DG_OFF_CFG_EN (g : Nat) : Fld := ⟨(LSW_DG_OFF_CFG g), 31, 31⟩
abbrev LSW_DG_OFF_CFG_PWM_EN (g : Nat) : Fld := ⟨(LSW_DG_OFF_CFG g), 30, 30⟩
abbrev LSW_DG_OFF_CFG_IPU (g : Nat) : Fld := ⟨(LSW_DG_OFF_CFG g), 29, 28⟩
abbrev LSW_DG_OFF_CFG_DEB (g : Nat) : Fld := ⟨(LSW_DG_OFF_CFG g), 27, 24⟩
abbrev LSW_DG_OFF_CFG_SETTLE (g : Nat) : Fld := ⟨(LSW_DG_OFF_CFG g), 23, 16⟩
abbrev LSW_DG_OFF_CFG_PERIOD_MS (g : Nat) : Fld := ⟨(LSW_DG_OFF_CFG g), 15, 0⟩
abbrev LSW_DG_THR (g : Nat) : Nat := lswCell g + 0xA4
abbrev LSW_DG_THR_SB_TH (g : Nat) : Fld := ⟨(LSW_DG_THR g), 27, 16⟩
abbrev LSW_DG_THR_OL_TH (g : Nat) : Fld := ⟨(LSW_DG_THR g), 11, 0⟩
abbrev LSW_DG_OLON_CFG (g : Nat) : Nat := lswCell g + 0xA8
abbrev LSW_DG_OLON_CFG_OLON_EN (g : Nat) : Fld := ⟨(LSW_DG_OLON_CFG g), 31, 31⟩
abbrev LSW_DG_OLON_CFG_OLON_LATCH (g : Nat) : Fld := ⟨(LSW_DG_OLON_CFG g), 30, 30⟩
abbrev LSW_DG_OLON_CFG_OLON_T (g : Nat) : Fld := ⟨(LSW_DG_OLON_CFG g), 23, 16⟩
abbrev LSW_DG_OLON_CFG_OLON_I (g : Nat) : Fld := ⟨(LSW_DG_OLON_CFG g), 11, 0⟩
abbrev LSW_DG_OLON_STAT (g : Nat) : Nat := lswCell g + 0xAC
abbrev LSW_DG_OLON_STAT_OLON (g : Nat) : Fld := ⟨(LSW_DG_OLON_STAT g), 31, 31⟩
abbrev LSW_DG_OLON_STAT_OLON_CNT (g : Nat) : Fld := ⟨(LSW_DG_OLON_STAT g), 15, 0⟩
abbrev LSW_DG_LAMP (g : Nat) : Nat := lswCell g + 0xB0
abbrev LSW_DG_LAMP_V_NOM (g : Nat) : Fld := ⟨(LSW_DG_LAMP g), 15, 0⟩
abbrev LSW_DG_INRUSH (g : Nat) : Nat := lswCell g + 0xB4
abbrev LSW_DG_INRUSH_I_PK (g : Nat) : Fld := ⟨(LSW_DG_INRUSH g), 31, 22⟩
abbrev LSW_DG_INRUSH_T_HALF (g : Nat) : Fld := ⟨(LSW_DG_INRUSH g), 15, 8⟩
abbrev LSW_DG_INRUSH_INR_MS (g : Nat) : Fld := ⟨(LSW_DG_INRUSH g), 7, 0⟩
abbrev LSW_DG_RESULT (g : Nat) : Nat := lswCell g + 0xB8
abbrev LSW_DG_RESULT_LAST (g : Nat) : Fld := ⟨(LSW_DG_RESULT g), 31, 29⟩
abbrev LSW_DG_RESULT_V_TEST (g : Nat) : Fld := ⟨(LSW_DG_RESULT g), 27, 16⟩
abbrev LSW_DG_RESULT_AGE_MS (g : Nat) : Fld := ⟨(LSW_DG_RESULT g), 15, 0⟩
abbrev LSW_DG_EVT_CNT (g : Nat) : Nat := lswCell g + 0xBC
abbrev LSW_DG_EVT_CNT_OL (g : Nat) : Fld := ⟨(LSW_DG_EVT_CNT g), 31, 24⟩
abbrev LSW_DG_EVT_CNT_SB (g : Nat) : Fld := ⟨(LSW_DG_EVT_CNT g), 23, 16⟩
abbrev LSW_DG_EVT_CNT_OLON (g : Nat) : Fld := ⟨(LSW_DG_EVT_CNT g), 15, 8⟩
abbrev LSW_DG_EVT_CNT_ABANDON (g : Nat) : Fld := ⟨(LSW_DG_EVT_CNT g), 7, 0⟩
abbrev SNI_STATE_LO : Nat := unitBase 20 + 0x100
abbrev SNI_STATE_HI : Nat := unitBase 20 + 0x104
abbrev SNI_CHG_LO : Nat := unitBase 20 + 0x108
abbrev SNI_CHG_HI : Nat := unitBase 20 + 0x10C
abbrev SNI_CHG_EN_LO : Nat := unitBase 20 + 0x110
abbrev SNI_CHG_EN_HI : Nat := unitBase 20 + 0x114
abbrev SNI_OVERRUN : Nat := unitBase 20 + 0x118
abbrev SNI_IN_CFG (i : Nat) : Nat := unitBase 20 + 0x400 + 32 * i
abbrev SNI_IN_CFG_EN (i : Nat) : Fld := ⟨(SNI_IN_CFG i), 31, 31⟩
abbrev SNI_IN_CFG_FRONT (i : Nat) : Fld := ⟨(SNI_IN_CFG i), 15, 14⟩
abbrev SNI_IN_CFG_RANGE (i : Nat) : Fld := ⟨(SNI_IN_CFG i), 13, 13⟩
abbrev SNI_IN_CFG_WET (i : Nat) : Fld := ⟨(SNI_IN_CFG i), 11, 8⟩
abbrev SNI_IN_TIME (i : Nat) : Nat := unitBase 20 + 0x404 + 32 * i
abbrev SNI_IN_TIME_SETTLE (i : Nat) : Fld := ⟨(SNI_IN_TIME i), 31, 24⟩
abbrev SNI_IN_TIME_PERIOD (i : Nat) : Fld := ⟨(SNI_IN_TIME i), 13, 0⟩
abbrev SNI_IN_THR (i : Nat) : Nat := unitBase 20 + 0x408 + 32 * i
abbrev SNI_IN_THR_INVERT (i : Nat) : Fld := ⟨(SNI_IN_THR i), 31, 31⟩
abbrev SNI_IN_THR_THR_HI (i : Nat) : Fld := ⟨(SNI_IN_THR i), 27, 16⟩
abbrev SNI_IN_THR_THR_LO (i : Nat) : Fld := ⟨(SNI_IN_THR i), 11, 0⟩
abbrev SNI_IN_FILT (i : Nat) : Nat := unitBase 20 + 0x40C + 32 * i
abbrev SNI_IN_FILT_FILT (i : Nat) : Fld := ⟨(SNI_IN_FILT i), 17, 16⟩
abbrev SNI_IN_FILT_FPARAM (i : Nat) : Fld := ⟨(SNI_IN_FILT i), 3, 0⟩
abbrev SNI_IN_VAL (i : Nat) : Nat := unitBase 20 + 0x410 + 32 * i
abbrev SNI_IN_VAL_VALID (i : Nat) : Fld := ⟨(SNI_IN_VAL i), 31, 31⟩
abbrev SNI_IN_VAL_STATE (i : Nat) : Fld := ⟨(SNI_IN_VAL i), 16, 16⟩
abbrev SNI_IN_VAL_VALUE (i : Nat) : Fld := ⟨(SNI_IN_VAL i), 11, 0⟩
abbrev SNI_IN_RAW (i : Nat) : Nat := unitBase 20 + 0x414 + 32 * i
abbrev SNI_IN_RAW_LAST (i : Nat) : Fld := ⟨(SNI_IN_RAW i), 11, 0⟩
abbrev SNI_IN_PUB (i : Nat) : Nat := unitBase 20 + 0x418 + 32 * i
abbrev SNI_IN_PUB_EN (i : Nat) : Fld := ⟨(SNI_IN_PUB i), 31, 31⟩
abbrev SNI_IN_PUB_ON_CHG (i : Nat) : Fld := ⟨(SNI_IN_PUB i), 30, 30⟩
abbrev SNI_IN_PUB_GSID (i : Nat) : Fld := ⟨(SNI_IN_PUB i), 24, 0⟩
abbrev SNI_IN_PUB_CFG (i : Nat) : Nat := unitBase 20 + 0x41C + 32 * i
abbrev SNI_IN_PUB_CFG_PERIOD_MS (i : Nat) : Fld := ⟨(SNI_IN_PUB_CFG i), 15, 0⟩
abbrev CAN_BO_SUM : Nat := unitBase 9 + 0x100
abbrev CAN_EP_SUM : Nat := unitBase 9 + 0x104
abbrev CAN_TS_SYNC : Nat := unitBase 9 + 0x108
abbrev CAN_CH_MODE (c : Nat) : Nat := cellBase 9 c + 0x20
abbrev CAN_CH_MODE_LISTEN (c : Nat) : Fld := ⟨(CAN_CH_MODE c), 13, 13⟩
abbrev CAN_CH_MODE_RESTRICT (c : Nat) : Fld := ⟨(CAN_CH_MODE c), 12, 12⟩
abbrev CAN_CH_MODE_LOOP (c : Nat) : Fld := ⟨(CAN_CH_MODE c), 9, 8⟩
abbrev CAN_CH_MODE_EXC_OFF (c : Nat) : Fld := ⟨(CAN_CH_MODE c), 5, 5⟩
abbrev CAN_CH_MODE_XL_NOSIG (c : Nat) : Fld := ⟨(CAN_CH_MODE c), 4, 4⟩
abbrev CAN_CH_MODE_XL_TRX_SW (c : Nat) : Fld := ⟨(CAN_CH_MODE c), 3, 3⟩
abbrev CAN_CH_MODE_XL_EN (c : Nat) : Fld := ⟨(CAN_CH_MODE c), 2, 2⟩
abbrev CAN_CH_MODE_RATE_SW_EN (c : Nat) : Fld := ⟨(CAN_CH_MODE c), 1, 1⟩
abbrev CAN_CH_MODE_FD_EN (c : Nat) : Fld := ⟨(CAN_CH_MODE c), 0, 0⟩
abbrev CAN_TIMING_ARB (c : Nat) : Nat := cellBase 9 c + 0x24
abbrev CAN_TIMING_ARB_SJW (c : Nat) : Fld := ⟨(CAN_TIMING_ARB c), 30, 24⟩
abbrev CAN_TIMING_ARB_PH2 (c : Nat) : Fld := ⟨(CAN_TIMING_ARB c), 22, 16⟩
abbrev CAN_TIMING_ARB_PH1 (c : Nat) : Fld := ⟨(CAN_TIMING_ARB c), 15, 8⟩
abbrev CAN_TIMING_ARB_PRESC (c : Nat) : Fld := ⟨(CAN_TIMING_ARB c), 7, 0⟩
abbrev CAN_TIMING_FD (c : Nat) : Nat := cellBase 9 c + 0x28
abbrev CAN_TIMING_FD_SSP_EN (c : Nat) : Fld := ⟨(CAN_TIMING_FD c), 31, 31⟩
abbrev CAN_TIMING_FD_SJW (c : Nat) : Fld := ⟨(CAN_TIMING_FD c), 27, 24⟩
abbrev CAN_TIMING_FD_PH2 (c : Nat) : Fld := ⟨(CAN_TIMING_FD c), 19, 16⟩
abbrev CAN_TIMING_FD_PH1 (c : Nat) : Fld := ⟨(CAN_TIMING_FD c), 12, 8⟩
abbrev CAN_TIMING_FD_PRESC (c : Nat) : Fld := ⟨(CAN_TIMING_FD c), 4, 0⟩
abbrev CAN_TIMING_XL (c : Nat) : Nat := cellBase 9 c + 0x2C
abbrev CAN_TIMING_XL_SSP_EN (c : Nat) : Fld := ⟨(CAN_TIMING_XL c), 31, 31⟩
abbrev CAN_TIMING_XL_SJW (c : Nat) : Fld := ⟨(CAN_TIMING_XL c), 28, 24⟩
abbrev CAN_TIMING_XL_PH2 (c : Nat) : Fld := ⟨(CAN_TIMING_XL c), 20, 16⟩
abbrev CAN_TIMING_XL_PH1 (c : Nat) : Fld := ⟨(CAN_TIMING_XL c), 13, 8⟩
abbrev CAN_TIMING_XL_PRESC (c : Nat) : Fld := ⟨(CAN_TIMING_XL c), 4, 0⟩
abbrev CAN_SSP (c : Nat) : Nat := cellBase 9 c + 0x30
abbrev CAN_SSP_SSP_WIN (c : Nat) : Fld := ⟨(CAN_SSP c), 22, 16⟩
abbrev CAN_SSP_SSP_OFS (c : Nat) : Fld := ⟨(CAN_SSP c), 6, 0⟩
abbrev CAN_XL_PWM (c : Nat) : Nat := cellBase 9 c + 0x34
abbrev CAN_XL_PWM_PWMO (c : Nat) : Fld := ⟨(CAN_XL_PWM c), 21, 16⟩
abbrev CAN_XL_PWM_PWMS (c : Nat) : Fld := ⟨(CAN_XL_PWM c), 13, 8⟩
abbrev CAN_XL_PWM_PWML (c : Nat) : Fld := ⟨(CAN_XL_PWM c), 5, 0⟩
abbrev CAN_TRX_CFG (c : Nat) : Nat := cellBase 9 c + 0x38
abbrev CAN_TRX_CFG_TRX_MODE (c : Nat) : Fld := ⟨(CAN_TRX_CFG c), 1, 0⟩
abbrev CAN_TS_CFG (c : Nat) : Nat := cellBase 9 c + 0x3C
abbrev CAN_TS_CFG_EN (c : Nat) : Fld := ⟨(CAN_TS_CFG c), 31, 31⟩
abbrev CAN_TS_CFG_DT_CAP (c : Nat) : Fld := ⟨(CAN_TS_CFG c), 30, 30⟩
abbrev CAN_TS_CFG_DIV (c : Nat) : Fld := ⟨(CAN_TS_CFG c), 7, 0⟩
abbrev CAN_TS_CNT (c : Nat) : Nat := cellBase 9 c + 0x40
abbrev CAN_TS_CNT_CNT (c : Nat) : Fld := ⟨(CAN_TS_CNT c), 31, 0⟩
abbrev CAN_STATUS (c : Nat) : Nat := cellBase 9 c + 0x44
abbrev CAN_STATUS_STATE (c : Nat) : Fld := ⟨(CAN_STATUS c), 31, 29⟩
abbrev CAN_STATUS_WARN (c : Nat) : Fld := ⟨(CAN_STATUS c), 28, 28⟩
abbrev CAN_STATUS_ACK_ALONE (c : Nat) : Fld := ⟨(CAN_STATUS c), 27, 27⟩
abbrev CAN_STATUS_EXC (c : Nat) : Fld := ⟨(CAN_STATUS c), 26, 26⟩
abbrev CAN_STATUS_ACTIVITY (c : Nat) : Fld := ⟨(CAN_STATUS c), 25, 24⟩
abbrev CAN_STATUS_CFG_BAD (c : Nat) : Fld := ⟨(CAN_STATUS c), 23, 23⟩
abbrev CAN_STATUS_LOOP_DLY (c : Nat) : Fld := ⟨(CAN_STATUS c), 22, 16⟩
abbrev CAN_STATUS_LAST_ERR_DATA (c : Nat) : Fld := ⟨(CAN_STATUS c), 6, 4⟩
abbrev CAN_STATUS_LAST_ERR (c : Nat) : Fld := ⟨(CAN_STATUS c), 2, 0⟩
abbrev CAN_ERRCNT (c : Nat) : Nat := cellBase 9 c + 0x48
abbrev CAN_ERRCNT_TEC (c : Nat) : Fld := ⟨(CAN_ERRCNT c), 24, 16⟩
abbrev CAN_ERRCNT_REC (c : Nat) : Fld := ⟨(CAN_ERRCNT c), 7, 0⟩
abbrev CAN_EVT_CNT (c : Nat) : Nat := cellBase 9 c + 0x4C
abbrev CAN_EVT_CNT_EXC_CNT (c : Nat) : Fld := ⟨(CAN_EVT_CNT c), 31, 24⟩
abbrev CAN_EVT_CNT_XL_NOSIG_CNT (c : Nat) : Fld := ⟨(CAN_EVT_CNT c), 23, 16⟩
abbrev CAN_EVT_CNT_DOM_TO_CNT (c : Nat) : Fld := ⟨(CAN_EVT_CNT c), 15, 8⟩
abbrev CAN_EVT_CNT_ERR_FRAMES (c : Nat) : Fld := ⟨(CAN_EVT_CNT c), 7, 0⟩
abbrev CAN_BO_CFG (c : Nat) : Nat := cellBase 9 c + 0x50
abbrev CAN_BO_CFG_AUTO (c : Nat) : Fld := ⟨(CAN_BO_CFG c), 31, 31⟩
abbrev CAN_BO_CFG_DISCARD (c : Nat) : Fld := ⟨(CAN_BO_CFG c), 30, 30⟩
abbrev CAN_BO_CFG_BO_TH (c : Nat) : Fld := ⟨(CAN_BO_CFG c), 27, 24⟩
abbrev CAN_BO_CFG_BO_WIN_S (c : Nat) : Fld := ⟨(CAN_BO_CFG c), 23, 16⟩
abbrev CAN_BO_CFG_BO_DELAY_MS (c : Nat) : Fld := ⟨(CAN_BO_CFG c), 15, 0⟩
abbrev CAN_BO_CTRL (c : Nat) : Nat := cellBase 9 c + 0x54
abbrev CAN_BO_CTRL_RECOVER (c : Nat) : Fld := ⟨(CAN_BO_CTRL c), 0, 0⟩
abbrev CAN_BO_STAT (c : Nat) : Nat := cellBase 9 c + 0x58
abbrev CAN_BO_STAT_BO_TOTAL (c : Nat) : Fld := ⟨(CAN_BO_STAT c), 31, 24⟩
abbrev CAN_BO_STAT_BO_IN_WIN (c : Nat) : Fld := ⟨(CAN_BO_STAT c), 23, 16⟩
abbrev CAN_BO_STAT_SEQ_CNT (c : Nat) : Fld := ⟨(CAN_BO_STAT c), 7, 0⟩
abbrev CAN_TX_CFG (c : Nat) : Nat := cellBase 9 c + 0x5C
abbrev CAN_TX_CFG_ARB_CNT (c : Nat) : Fld := ⟨(CAN_TX_CFG c), 0, 0⟩
abbrev CAN_TXBUF_PEND (c : Nat) : Nat := cellBase 9 c + 0x60
abbrev CAN_TXBUF_GO (c : Nat) : Nat := cellBase 9 c + 0x64
abbrev CAN_TXBUF_STOP (c : Nat) : Nat := cellBase 9 c + 0x68
abbrev CAN_TXBUF_END (c : Nat) : Nat := cellBase 9 c + 0x6C
abbrev CAN_TXBUF_CODE (c i : Nat) : Nat := cellBase 9 c + 0x70 + 4 * i
abbrev CAN_ACCEPT_CFG (c : Nat) : Nat := cellBase 9 c + 0xA0
abbrev CAN_ACCEPT_CFG_BASE (c : Nat) : Fld := ⟨(CAN_ACCEPT_CFG c), 31, 17⟩
abbrev CAN_ACCEPT_CFG_RMT_EXT_DROP (c : Nat) : Fld := ⟨(CAN_ACCEPT_CFG c), 14, 14⟩
abbrev CAN_ACCEPT_CFG_RMT_STD_DROP (c : Nat) : Fld := ⟨(CAN_ACCEPT_CFG c), 13, 13⟩
abbrev CAN_ACCEPT_CFG_NOMATCH_EXT (c : Nat) : Fld := ⟨(CAN_ACCEPT_CFG c), 12, 11⟩
abbrev CAN_ACCEPT_CFG_NOMATCH_STD (c : Nat) : Fld := ⟨(CAN_ACCEPT_CFG c), 10, 9⟩
abbrev CAN_ACCEPT_CFG_COUNT (c : Nat) : Fld := ⟨(CAN_ACCEPT_CFG c), 8, 0⟩
abbrev CAN_FIFO0_CFG (c : Nat) : Nat := cellBase 9 c + 0xA4
abbrev CAN_FIFO0_CFG_BASE (c : Nat) : Fld := ⟨(CAN_FIFO0_CFG c), 31, 17⟩
abbrev CAN_FIFO0_CFG_SLOT_WORDS (c : Nat) : Fld := ⟨(CAN_FIFO0_CFG c), 16, 8⟩
abbrev CAN_FIFO0_CFG_OVERWRITE (c : Nat) : Fld := ⟨(CAN_FIFO0_CFG c), 7, 7⟩
abbrev CAN_FIFO0_CFG_DEPTH (c : Nat) : Fld := ⟨(CAN_FIFO0_CFG c), 6, 0⟩
abbrev CAN_FIFO1_CFG (c : Nat) : Nat := cellBase 9 c + 0xA8
abbrev CAN_FIFO1_CFG_BASE (c : Nat) : Fld := ⟨(CAN_FIFO1_CFG c), 31, 17⟩
abbrev CAN_FIFO1_CFG_SLOT_WORDS (c : Nat) : Fld := ⟨(CAN_FIFO1_CFG c), 16, 8⟩
abbrev CAN_FIFO1_CFG_OVERWRITE (c : Nat) : Fld := ⟨(CAN_FIFO1_CFG c), 7, 7⟩
abbrev CAN_FIFO1_CFG_DEPTH (c : Nat) : Fld := ⟨(CAN_FIFO1_CFG c), 6, 0⟩
abbrev CAN_RXBUF_CFG (c : Nat) : Nat := cellBase 9 c + 0xAC
abbrev CAN_RXBUF_CFG_BASE (c : Nat) : Fld := ⟨(CAN_RXBUF_CFG c), 31, 17⟩
abbrev CAN_RXBUF_CFG_SLOT_WORDS (c : Nat) : Fld := ⟨(CAN_RXBUF_CFG c), 16, 8⟩
abbrev CAN_RXBUF_CFG_COUNT (c : Nat) : Fld := ⟨(CAN_RXBUF_CFG c), 6, 0⟩
abbrev CAN_TXMEM_CFG (c : Nat) : Nat := cellBase 9 c + 0xB0
abbrev CAN_TXMEM_CFG_BASE (c : Nat) : Fld := ⟨(CAN_TXMEM_CFG c), 31, 17⟩
abbrev CAN_TXMEM_CFG_QSLOTS (c : Nat) : Fld := ⟨(CAN_TXMEM_CFG c), 13, 8⟩
abbrev CAN_TXMEM_CFG_BUFS (c : Nat) : Fld := ⟨(CAN_TXMEM_CFG c), 5, 0⟩
abbrev CAN_EVT_CFG (c : Nat) : Nat := cellBase 9 c + 0xB4
abbrev CAN_EVT_CFG_BASE (c : Nat) : Fld := ⟨(CAN_EVT_CFG c), 31, 17⟩
abbrev CAN_EVT_CFG_WM (c : Nat) : Fld := ⟨(CAN_EVT_CFG c), 13, 8⟩
abbrev CAN_EVT_CFG_DEPTH (c : Nat) : Fld := ⟨(CAN_EVT_CFG c), 5, 0⟩
abbrev CAN_FIFO_WM (c : Nat) : Nat := cellBase 9 c + 0xB8
abbrev CAN_FIFO_WM_WM1 (c : Nat) : Fld := ⟨(CAN_FIFO_WM c), 14, 8⟩
abbrev CAN_FIFO_WM_WM0 (c : Nat) : Fld := ⟨(CAN_FIFO_WM c), 6, 0⟩
abbrev CAN_RX_LOCK_CFG (c : Nat) : Nat := cellBase 9 c + 0xBC
abbrev CAN_RX_LOCK_CFG_TO_US (c : Nat) : Fld := ⟨(CAN_RX_LOCK_CFG c), 15, 0⟩
abbrev CAN_FIFO0_STAT (c : Nat) : Nat := cellBase 9 c + 0xC0
abbrev CAN_FIFO0_STAT_LOCKED (c : Nat) : Fld := ⟨(CAN_FIFO0_STAT c), 31, 31⟩
abbrev CAN_FIFO0_STAT_FULL (c : Nat) : Fld := ⟨(CAN_FIFO0_STAT c), 30, 30⟩
abbrev CAN_FIFO0_STAT_FILL (c : Nat) : Fld := ⟨(CAN_FIFO0_STAT c), 22, 16⟩
abbrev CAN_FIFO0_STAT_PUT (c : Nat) : Fld := ⟨(CAN_FIFO0_STAT c), 13, 8⟩
abbrev CAN_FIFO0_STAT_GET (c : Nat) : Fld := ⟨(CAN_FIFO0_STAT c), 5, 0⟩
abbrev CAN_FIFO1_STAT (c : Nat) : Nat := cellBase 9 c + 0xC4
abbrev CAN_FIFO1_STAT_LOCKED (c : Nat) : Fld := ⟨(CAN_FIFO1_STAT c), 31, 31⟩
abbrev CAN_FIFO1_STAT_FULL (c : Nat) : Fld := ⟨(CAN_FIFO1_STAT c), 30, 30⟩
abbrev CAN_FIFO1_STAT_FILL (c : Nat) : Fld := ⟨(CAN_FIFO1_STAT c), 22, 16⟩
abbrev CAN_FIFO1_STAT_PUT (c : Nat) : Fld := ⟨(CAN_FIFO1_STAT c), 13, 8⟩
abbrev CAN_FIFO1_STAT_GET (c : Nat) : Fld := ⟨(CAN_FIFO1_STAT c), 5, 0⟩
abbrev CAN_EVT_STAT (c : Nat) : Nat := cellBase 9 c + 0xC8
abbrev CAN_EVT_STAT_LOCKED (c : Nat) : Fld := ⟨(CAN_EVT_STAT c), 31, 31⟩
abbrev CAN_EVT_STAT_FULL (c : Nat) : Fld := ⟨(CAN_EVT_STAT c), 30, 30⟩
abbrev CAN_EVT_STAT_FILL (c : Nat) : Fld := ⟨(CAN_EVT_STAT c), 22, 16⟩
abbrev CAN_EVT_STAT_PUT (c : Nat) : Fld := ⟨(CAN_EVT_STAT c), 13, 8⟩
abbrev CAN_EVT_STAT_GET (c : Nat) : Fld := ⟨(CAN_EVT_STAT c), 5, 0⟩
abbrev CAN_RXBUF_NEW_LO (c : Nat) : Nat := cellBase 9 c + 0xCC
abbrev CAN_RXBUF_NEW_HI (c : Nat) : Nat := cellBase 9 c + 0xD0
abbrev CAN_TXQ_STAT (c : Nat) : Nat := cellBase 9 c + 0xD4
abbrev CAN_TXQ_STAT_FULL (c : Nat) : Fld := ⟨(CAN_TXQ_STAT c), 30, 30⟩
abbrev CAN_TXQ_STAT_FILL (c : Nat) : Fld := ⟨(CAN_TXQ_STAT c), 21, 16⟩
abbrev CAN_TXQ_STAT_PUT (c : Nat) : Fld := ⟨(CAN_TXQ_STAT c), 13, 8⟩
abbrev CAN_TXQ_PEND (c : Nat) : Nat := cellBase 9 c + 0xD8
abbrev CAN_TXQ_PUSH (c : Nat) : Nat := cellBase 9 c + 0xDC
abbrev CAN_TXQ_PUSH_VALUE (c : Nat) : Fld := ⟨(CAN_TXQ_PUSH c), 31, 0⟩
abbrev CAN_TXQ_STOP (c : Nat) : Nat := cellBase 9 c + 0xE0
abbrev CAN_RX_RELEASE (c : Nat) : Nat := cellBase 9 c + 0xE4
abbrev CAN_RX_RELEASE_ACK (c : Nat) : Fld := ⟨(CAN_RX_RELEASE c), 31, 31⟩
abbrev CAN_RX_RELEASE_TARGET (c : Nat) : Fld := ⟨(CAN_RX_RELEASE c), 9, 8⟩
abbrev CAN_RX_RELEASE_BUF (c : Nat) : Fld := ⟨(CAN_RX_RELEASE c), 5, 0⟩
abbrev CAN_RX_LOCK_STAT (c : Nat) : Nat := cellBase 9 c + 0xE8
abbrev CAN_RX_LOCK_STAT_BUF (c : Nat) : Fld := ⟨(CAN_RX_LOCK_STAT c), 13, 8⟩
abbrev CAN_RX_LOCK_STAT_LOCKED (c : Nat) : Fld := ⟨(CAN_RX_LOCK_STAT c), 3, 0⟩
abbrev CAN_PRIO_STAT (c : Nat) : Nat := cellBase 9 c + 0xEC
abbrev CAN_PRIO_STAT_VALID (c : Nat) : Fld := ⟨(CAN_PRIO_STAT c), 31, 31⟩
abbrev CAN_PRIO_STAT_MATCH_IDX (c : Nat) : Fld := ⟨(CAN_PRIO_STAT c), 23, 16⟩
abbrev CAN_PRIO_STAT_TARGET (c : Nat) : Fld := ⟨(CAN_PRIO_STAT c), 9, 8⟩
abbrev CAN_PRIO_STAT_INDEX (c : Nat) : Fld := ⟨(CAN_PRIO_STAT c), 5, 0⟩
abbrev CAN_MR_CNT (c : Nat) : Nat := cellBase 9 c + 0xF0
abbrev CAN_MR_CNT_FIFO0_LOST (c : Nat) : Fld := ⟨(CAN_MR_CNT c), 31, 24⟩
abbrev CAN_MR_CNT_FIFO1_LOST (c : Nat) : Fld := ⟨(CAN_MR_CNT c), 23, 16⟩
abbrev CAN_MR_CNT_RXBUF_LOST (c : Nat) : Fld := ⟨(CAN_MR_CNT c), 15, 8⟩
abbrev CAN_MR_CNT_LOCK_TO (c : Nat) : Fld := ⟨(CAN_MR_CNT c), 7, 0⟩
abbrev CAN_MR_CNT2 (c : Nat) : Nat := cellBase 9 c + 0xF4
abbrev CAN_MR_CNT2_CUT (c : Nat) : Fld := ⟨(CAN_MR_CNT2 c), 31, 24⟩
abbrev CAN_MR_CNT2_EVT_LOST (c : Nat) : Fld := ⟨(CAN_MR_CNT2 c), 23, 16⟩
abbrev CAN_MR_CNT2_RXBUF_OVR (c : Nat) : Fld := ⟨(CAN_MR_CNT2 c), 15, 8⟩
abbrev CAN_MR_CNT2_FIFO_OVR (c : Nat) : Fld := ⟨(CAN_MR_CNT2 c), 7, 0⟩
abbrev CAN_MR_ERR (c : Nat) : Nat := cellBase 9 c + 0xF8
abbrev CAN_MR_ERR_KIND (c : Nat) : Fld := ⟨(CAN_MR_ERR c), 31, 30⟩
abbrev CAN_MR_ERR_SRC (c : Nat) : Fld := ⟨(CAN_MR_ERR c), 29, 29⟩
abbrev CAN_MR_ERR_WORD (c : Nat) : Fld := ⟨(CAN_MR_ERR c), 14, 0⟩
abbrev CAN_TXMEM_SLOT (c : Nat) : Nat := cellBase 9 c + 0xFC
abbrev CAN_TXMEM_SLOT_SLOT_WORDS (c : Nat) : Fld := ⟨(CAN_TXMEM_SLOT c), 8, 0⟩
abbrev LIN_CH_CFG (c : Nat) : Nat := cellBase 10 c + 0x20
abbrev LIN_CH_CFG_MASTER (c : Nat) : Fld := ⟨(LIN_CH_CFG c), 31, 31⟩
abbrev LIN_CH_CFG_AUTOBAUD (c : Nat) : Fld := ⟨(LIN_CH_CFG c), 30, 30⟩
abbrev LIN_CH_CFG_BRK (c : Nat) : Fld := ⟨(LIN_CH_CFG c), 20, 16⟩
abbrev LIN_CH_CFG_RE_EN (c : Nat) : Fld := ⟨(LIN_CH_CFG c), 15, 15⟩
abbrev LIN_CH_CFG_RE_ID (c : Nat) : Fld := ⟨(LIN_CH_CFG c), 13, 8⟩
abbrev LIN_CH_CFG_RE_BIT (c : Nat) : Fld := ⟨(LIN_CH_CFG c), 5, 0⟩
abbrev LIN_CH_RATE (c : Nat) : Nat := cellBase 10 c + 0x24
abbrev LIN_CH_RATE_RATE (c : Nat) : Fld := ⟨(LIN_CH_RATE c), 15, 0⟩
abbrev LIN_SCHED_CTRL (c : Nat) : Nat := cellBase 10 c + 0x28
abbrev LIN_SCHED_CTRL_RUN (c : Nat) : Fld := ⟨(LIN_SCHED_CTRL c), 31, 31⟩
abbrev LIN_SCHED_CTRL_SWITCH (c : Nat) : Fld := ⟨(LIN_SCHED_CTRL c), 30, 30⟩
abbrev LIN_SCHED_CTRL_NEXT (c : Nat) : Fld := ⟨(LIN_SCHED_CTRL c), 13, 8⟩
abbrev LIN_SCHED_CTRL_START (c : Nat) : Fld := ⟨(LIN_SCHED_CTRL c), 5, 0⟩
abbrev LIN_CH_CTRL (c : Nat) : Nat := cellBase 10 c + 0x2C
abbrev LIN_CH_CTRL_WAKE_TX (c : Nat) : Fld := ⟨(LIN_CH_CTRL c), 1, 1⟩
abbrev LIN_CH_CTRL_SLEEP (c : Nat) : Fld := ⟨(LIN_CH_CTRL c), 0, 0⟩
abbrev LIN_CH_STAT (c : Nat) : Nat := cellBase 10 c + 0x30
abbrev LIN_CH_STAT_STATE (c : Nat) : Fld := ⟨(LIN_CH_STAT c), 31, 29⟩
abbrev LIN_CH_STAT_SCHED (c : Nat) : Fld := ⟨(LIN_CH_STAT c), 28, 28⟩
abbrev LIN_CH_STAT_ENTRY (c : Nat) : Fld := ⟨(LIN_CH_STAT c), 27, 22⟩
abbrev LIN_CH_STAT_LAST_ID (c : Nat) : Fld := ⟨(LIN_CH_STAT c), 21, 16⟩
abbrev LIN_CH_STAT_LAST_RES (c : Nat) : Fld := ⟨(LIN_CH_STAT c), 3, 0⟩
abbrev LIN_SPOR_PEND_LO (c : Nat) : Nat := cellBase 10 c + 0x34
abbrev LIN_SPOR_PEND_HI (c : Nat) : Nat := cellBase 10 c + 0x38
abbrev LIN_ERR_CNT (c : Nat) : Nat := cellBase 10 c + 0x3C
abbrev LIN_ERR_CNT_NO_RESP (c : Nat) : Fld := ⟨(LIN_ERR_CNT c), 31, 24⟩
abbrev LIN_ERR_CNT_CHECKSUM (c : Nat) : Fld := ⟨(LIN_ERR_CNT c), 23, 16⟩
abbrev LIN_ERR_CNT_FRAMING_BIT (c : Nat) : Fld := ⟨(LIN_ERR_CNT c), 15, 8⟩
abbrev LIN_ERR_CNT_SLOT_OVR (c : Nat) : Fld := ⟨(LIN_ERR_CNT c), 7, 0⟩
abbrev ETP_LINK_SUM : Nat := unitBase 7 + 0x100
abbrev ETP_PHY_FW : Nat := unitBase 7 + 0x104
abbrev ETP_PHY_FW_RUN : Fld := ⟨ETP_PHY_FW, 31, 31⟩
abbrev ETP_PHY_FW_VER : Fld := ⟨ETP_PHY_FW, 15, 0⟩
abbrev ETP_PORT_CFG (c : Nat) : Nat := cellBase 7 c + 0x20
abbrev ETP_PORT_CFG_MAXLEN (c : Nat) : Fld := ⟨(ETP_PORT_CFG c), 29, 16⟩
abbrev ETP_PORT_CFG_DROP_TH (c : Nat) : Fld := ⟨(ETP_PORT_CFG c), 15, 0⟩
abbrev ETP_PHY_CFG (c : Nat) : Nat := cellBase 7 c + 0x24
abbrev ETP_PHY_CFG_ROLE (c : Nat) : Fld := ⟨(ETP_PHY_CFG c), 1, 0⟩
abbrev ETP_PORT_STAT (c : Nat) : Nat := cellBase 7 c + 0x28
abbrev ETP_PORT_STAT_LINK_UP (c : Nat) : Fld := ⟨(ETP_PORT_STAT c), 31, 31⟩
abbrev ETP_PORT_STAT_MASTER (c : Nat) : Fld := ⟨(ETP_PORT_STAT c), 30, 30⟩
abbrev ETP_PORT_STAT_SQI (c : Nat) : Fld := ⟨(ETP_PORT_STAT c), 29, 27⟩
abbrev ETP_PORT_STAT_TX_LPI (c : Nat) : Fld := ⟨(ETP_PORT_STAT c), 26, 26⟩
abbrev ETP_PORT_STAT_RX_LPI (c : Nat) : Fld := ⟨(ETP_PORT_STAT c), 25, 25⟩
abbrev ETP_PORT_STAT_LINK_DOWNS (c : Nat) : Fld := ⟨(ETP_PORT_STAT c), 15, 0⟩
abbrev ETP_TX_THR (c : Nat) : Nat := cellBase 7 c + 0x2C
abbrev ETP_TX_THR_CUR (c : Nat) : Fld := ⟨(ETP_TX_THR c), 31, 24⟩
abbrev ETP_TX_THR_STEP (c : Nat) : Fld := ⟨(ETP_TX_THR c), 15, 8⟩
abbrev ETP_TX_THR_START (c : Nat) : Fld := ⟨(ETP_TX_THR c), 7, 0⟩
abbrev ETP_EEE_CFG (c : Nat) : Nat := cellBase 7 c + 0x30
abbrev ETP_EEE_CFG_EN (c : Nat) : Fld := ⟨(ETP_EEE_CFG c), 31, 31⟩
abbrev ETP_EEE_CFG_TW_TX_US (c : Nat) : Fld := ⟨(ETP_EEE_CFG c), 29, 16⟩
abbrev ETP_EEE_CFG_IDLE_US (c : Nat) : Fld := ⟨(ETP_EEE_CFG c), 15, 0⟩
abbrev ETP_PLCA_CFG (c : Nat) : Nat := cellBase 7 c + 0x34
abbrev ETP_PLCA_CFG_EN (c : Nat) : Fld := ⟨(ETP_PLCA_CFG c), 31, 31⟩
abbrev ETP_PLCA_CFG_NODE_ID (c : Nat) : Fld := ⟨(ETP_PLCA_CFG c), 23, 16⟩
abbrev ETP_PLCA_CFG_NODE_CNT (c : Nat) : Fld := ⟨(ETP_PLCA_CFG c), 15, 8⟩
abbrev ETP_PLCA_CFG_TO_TMR (c : Nat) : Fld := ⟨(ETP_PLCA_CFG c), 7, 0⟩
abbrev ETP_PLCA_BURST (c : Nat) : Nat := cellBase 7 c + 0x3C
abbrev ETP_PLCA_BURST_MAX_BC (c : Nat) : Fld := ⟨(ETP_PLCA_BURST c), 15, 8⟩
abbrev ETP_PLCA_BURST_BURST_TMR (c : Nat) : Fld := ⟨(ETP_PLCA_BURST c), 7, 0⟩
abbrev ETP_MSEC_CFG (c : Nat) : Nat := cellBase 7 c + 0x40
abbrev ETP_MSEC_CFG_EN (c : Nat) : Fld := ⟨(ETP_MSEC_CFG c), 31, 31⟩
abbrev ETP_MSEC_CFG_PROTECT (c : Nat) : Fld := ⟨(ETP_MSEC_CFG c), 30, 30⟩
abbrev ETP_MSEC_CFG_CONF (c : Nat) : Fld := ⟨(ETP_MSEC_CFG c), 29, 29⟩
abbrev ETP_MSEC_CFG_OFFSET (c : Nat) : Fld := ⟨(ETP_MSEC_CFG c), 28, 27⟩
abbrev ETP_MSEC_CFG_XPN (c : Nat) : Fld := ⟨(ETP_MSEC_CFG c), 26, 26⟩
abbrev ETP_MSEC_CFG_VALIDATE (c : Nat) : Fld := ⟨(ETP_MSEC_CFG c), 25, 24⟩
abbrev ETP_MSEC_CFG_REPLAY_PROT (c : Nat) : Fld := ⟨(ETP_MSEC_CFG c), 23, 23⟩
abbrev ETP_MSEC_CFG_INCL_SCI (c : Nat) : Fld := ⟨(ETP_MSEC_CFG c), 22, 22⟩
abbrev ETP_MSEC_CFG_ES (c : Nat) : Fld := ⟨(ETP_MSEC_CFG c), 21, 21⟩
abbrev ETP_MSEC_CFG_SCB (c : Nat) : Fld := ⟨(ETP_MSEC_CFG c), 20, 20⟩
abbrev ETP_MSEC_CFG_RXSC_EN (c : Nat) : Fld := ⟨(ETP_MSEC_CFG c), 19, 16⟩
abbrev ETP_MSEC_CFG_BYPASS_ET (c : Nat) : Fld := ⟨(ETP_MSEC_CFG c), 15, 0⟩
abbrev ETP_MSEC_REPLAY (c : Nat) : Nat := cellBase 7 c + 0x44
abbrev ETP_MSEC_REPLAY_WINDOW (c : Nat) : Fld := ⟨(ETP_MSEC_REPLAY c), 31, 0⟩
abbrev ETP_MSEC_TXSCI_LO (c : Nat) : Nat := cellBase 7 c + 0x48
abbrev ETP_MSEC_TXSCI_LO_SCI (c : Nat) : Fld := ⟨(ETP_MSEC_TXSCI_LO c), 31, 0⟩
abbrev ETP_MSEC_TXSCI_HI (c : Nat) : Nat := cellBase 7 c + 0x4C
abbrev ETP_MSEC_TXSCI_HI_SCI (c : Nat) : Fld := ⟨(ETP_MSEC_TXSCI_HI c), 31, 0⟩
abbrev ETP_MSEC_TX (c : Nat) : Nat := cellBase 7 c + 0x50
abbrev ETP_MSEC_TX_AN (c : Nat) : Fld := ⟨(ETP_MSEC_TX c), 1, 0⟩
abbrev ETP_EEE_STAT (c : Nat) : Nat := cellBase 7 c + 0x54
abbrev ETP_EEE_STAT_CAPABLE (c : Nat) : Fld := ⟨(ETP_EEE_STAT c), 31, 31⟩
abbrev ETP_EEE_STAT_TW_MIN (c : Nat) : Fld := ⟨(ETP_EEE_STAT c), 29, 16⟩
abbrev ETP_MSEC_RXSCI_LO (c i j : Nat) : Nat := cellBase 7 c + 0x60 + 0 * i + 8 * j
abbrev ETP_MSEC_RXSCI_LO_SCI (c i j : Nat) : Fld := ⟨(ETP_MSEC_RXSCI_LO c i j), 31, 0⟩
abbrev ETP_MSEC_RXSCI_HI (c i j : Nat) : Nat := cellBase 7 c + 0x64 + 0 * i + 8 * j
abbrev ETP_MSEC_RXSCI_HI_SCI (c i j : Nat) : Fld := ⟨(ETP_MSEC_RXSCI_HI c i j), 31, 0⟩
abbrev ETP_Q_STAT (c : Nat) : Nat := cellBase 7 c + 0x80
abbrev ETP_Q_STAT_RX_HALT (c : Nat) : Fld := ⟨(ETP_Q_STAT c), 15, 8⟩
abbrev ETP_Q_STAT_TX_HALT (c : Nat) : Fld := ⟨(ETP_Q_STAT c), 7, 0⟩
abbrev ETP_SA_CTRL (c i j : Nat) : Nat := cellBase 7 c + 0x200 + 0 * i + 32 * j
abbrev ETP_SA_CTRL_SA_EN (c i j : Nat) : Fld := ⟨(ETP_SA_CTRL c i j), 31, 31⟩
abbrev ETP_SA_CTRL_KEY_OK (c i j : Nat) : Fld := ⟨(ETP_SA_CTRL c i j), 30, 30⟩
abbrev ETP_SA_CTRL_KEY_ERR (c i j : Nat) : Fld := ⟨(ETP_SA_CTRL c i j), 29, 28⟩
abbrev ETP_SA_CTRL_SLOT (c i j : Nat) : Fld := ⟨(ETP_SA_CTRL c i j), 8, 0⟩
abbrev ETP_SA_SSCI (c i j : Nat) : Nat := cellBase 7 c + 0x204 + 0 * i + 32 * j
abbrev ETP_SA_SSCI_VALUE (c i j : Nat) : Fld := ⟨(ETP_SA_SSCI c i j), 31, 0⟩
abbrev ETP_SA_SALT (c i j : Nat) : Nat := cellBase 7 c + 0x208 + 32 * i + 4 * j
abbrev ETP_SA_SALT_VALUE (c i j : Nat) : Fld := ⟨(ETP_SA_SALT c i j), 31, 0⟩
abbrev ETP_SA_PN_LO (c i j : Nat) : Nat := cellBase 7 c + 0x214 + 0 * i + 32 * j
abbrev ETP_SA_PN_LO_VALUE (c i j : Nat) : Fld := ⟨(ETP_SA_PN_LO c i j), 31, 0⟩
abbrev ETP_SA_PN_HI (c i j : Nat) : Nat := cellBase 7 c + 0x218 + 0 * i + 32 * j
abbrev ETP_SA_PN_HI_VALUE (c i j : Nat) : Fld := ⟨(ETP_SA_PN_HI c i j), 31, 0⟩
abbrev ETP_QTX_BASE_LO (c i j : Nat) : Nat := cellBase 7 c + 0x500 + 0 * i + 32 * j
abbrev ETP_QTX_BASE_LO_ADDR (c i j : Nat) : Fld := ⟨(ETP_QTX_BASE_LO c i j), 31, 5⟩
abbrev ETP_QTX_BASE_HI (c i j : Nat) : Nat := cellBase 7 c + 0x504 + 0 * i + 32 * j
abbrev ETP_QTX_BASE_HI_EN (c i j : Nat) : Fld := ⟨(ETP_QTX_BASE_HI c i j), 31, 31⟩
abbrev ETP_QTX_BASE_HI_SIZE (c i j : Nat) : Fld := ⟨(ETP_QTX_BASE_HI c i j), 27, 24⟩
abbrev ETP_QTX_BASE_HI_ADDR_HI (c i j : Nat) : Fld := ⟨(ETP_QTX_BASE_HI c i j), 7, 0⟩
abbrev ETP_QTX_TAIL (c i j : Nat) : Nat := cellBase 7 c + 0x508 + 0 * i + 32 * j
abbrev ETP_QTX_TAIL_INDEX (c i j : Nat) : Fld := ⟨(ETP_QTX_TAIL c i j), 11, 0⟩
abbrev ETP_QTX_HEAD (c i j : Nat) : Nat := cellBase 7 c + 0x50C + 0 * i + 32 * j
abbrev ETP_QTX_HEAD_INDEX (c i j : Nat) : Fld := ⟨(ETP_QTX_HEAD c i j), 11, 0⟩
abbrev ETP_QRX_BASE_LO (c i j : Nat) : Nat := cellBase 7 c + 0x510 + 0 * i + 32 * j
abbrev ETP_QRX_BASE_LO_ADDR (c i j : Nat) : Fld := ⟨(ETP_QRX_BASE_LO c i j), 31, 5⟩
abbrev ETP_QRX_BASE_HI (c i j : Nat) : Nat := cellBase 7 c + 0x514 + 0 * i + 32 * j
abbrev ETP_QRX_BASE_HI_EN (c i j : Nat) : Fld := ⟨(ETP_QRX_BASE_HI c i j), 31, 31⟩
abbrev ETP_QRX_BASE_HI_SIZE (c i j : Nat) : Fld := ⟨(ETP_QRX_BASE_HI c i j), 27, 24⟩
abbrev ETP_QRX_BASE_HI_ADDR_HI (c i j : Nat) : Fld := ⟨(ETP_QRX_BASE_HI c i j), 7, 0⟩
abbrev ETP_QRX_TAIL (c i j : Nat) : Nat := cellBase 7 c + 0x518 + 0 * i + 32 * j
abbrev ETP_QRX_TAIL_INDEX (c i j : Nat) : Fld := ⟨(ETP_QRX_TAIL c i j), 11, 0⟩
abbrev ETP_QRX_HEAD (c i j : Nat) : Nat := cellBase 7 c + 0x51C + 0 * i + 32 * j
abbrev ETP_QRX_HEAD_INDEX (c i j : Nat) : Fld := ⟨(ETP_QRX_HEAD c i j), 11, 0⟩
abbrev SWC_TBL_VERSION : Nat := unitBase 8 + 0x100
abbrev SWC_TBL_CMD : Nat := unitBase 8 + 0x104
abbrev SWC_TBL_CMD_GO : Fld := ⟨SWC_TBL_CMD, 31, 31⟩
abbrev SWC_TBL_CMD_HOLD : Fld := ⟨SWC_TBL_CMD, 30, 30⟩
abbrev SWC_TBL_CMD_OP : Fld := ⟨SWC_TBL_CMD, 29, 28⟩
abbrev SWC_TBL_CMD_TABLE : Fld := ⟨SWC_TBL_CMD, 27, 24⟩
abbrev SWC_TBL_CMD_INDEX : Fld := ⟨SWC_TBL_CMD, 15, 0⟩
abbrev SWC_TBL_RES : Nat := unitBase 8 + 0x108
abbrev SWC_TBL_RES_BUSY : Fld := ⟨SWC_TBL_RES, 31, 31⟩
abbrev SWC_TBL_RES_CODE : Fld := ⟨SWC_TBL_RES, 27, 24⟩
abbrev SWC_TBL_RES_HELD : Fld := ⟨SWC_TBL_RES, 20, 16⟩
abbrev SWC_TBL_RES_INDEX : Fld := ⟨SWC_TBL_RES, 15, 0⟩
abbrev SWC_DRAIN_TARGET : Nat := unitBase 8 + 0x10C
abbrev SWC_TBL_DATA (i : Nat) : Nat := unitBase 8 + 0x110 + 4 * i
abbrev SWC_DRAIN_CTRL : Nat := unitBase 8 + 0x120
abbrev SWC_DRAIN_CTRL_REQ : Fld := ⟨SWC_DRAIN_CTRL, 31, 31⟩
abbrev SWC_DRAIN_CTRL_TO_MS : Fld := ⟨SWC_DRAIN_CTRL, 15, 0⟩
abbrev SWC_DRAIN_STAT : Nat := unitBase 8 + 0x124
abbrev SWC_DRAIN_STAT_BUSY : Fld := ⟨SWC_DRAIN_STAT, 31, 31⟩
abbrev SWC_DRAIN_STAT_DONE : Fld := ⟨SWC_DRAIN_STAT, 30, 30⟩
abbrev SWC_DRAIN_STAT_TIMEOUT : Fld := ⟨SWC_DRAIN_STAT, 29, 29⟩
abbrev SWC_DRAIN_STAT_PORT : Fld := ⟨SWC_DRAIN_STAT, 28, 24⟩
abbrev SWC_BUF_STAT : Nat := unitBase 8 + 0x128
abbrev SWC_BUF_STAT_FREE : Fld := ⟨SWC_BUF_STAT, 16, 0⟩
abbrev SWC_HASH_CFG : Nat := unitBase 8 + 0x12C
abbrev SWC_HASH_CFG_FIELDS : Fld := ⟨SWC_HASH_CFG, 7, 1⟩
abbrev SWC_AGE_CFG : Nat := unitBase 8 + 0x130
abbrev SWC_AGE_CFG_AGE_S : Fld := ⟨SWC_AGE_CFG, 15, 0⟩
abbrev SWC_PMAP_STAT : Nat := unitBase 8 + 0x134
abbrev SWC_PMAP_STAT_PENDING : Fld := ⟨SWC_PMAP_STAT, 31, 31⟩
abbrev SWC_ISO_STAT : Nat := unitBase 8 + 0x138
abbrev SWC_ISO_STAT_ISOLATED : Fld := ⟨SWC_ISO_STAT, 31, 31⟩
abbrev SWC_LEARN_CNT : Nat := unitBase 8 + 0x13C
abbrev SWC_LEARN_CNT_LEARNED : Fld := ⟨SWC_LEARN_CNT, 31, 16⟩
abbrev SWC_LEARN_CNT_LEARN_FAIL : Fld := ⟨SWC_LEARN_CNT, 15, 0⟩
abbrev SWC_PMAP (i : Nat) : Nat := unitBase 8 + 0x140 + 4 * i
abbrev SWC_PORT_CFG (i : Nat) : Nat := unitBase 8 + 0x200 + 16 * i
abbrev SWC_PORT_CFG_LEARN (i : Nat) : Fld := ⟨(SWC_PORT_CFG i), 31, 31⟩
abbrev SWC_PORT_CFG_INGR_FILT (i : Nat) : Fld := ⟨(SWC_PORT_CFG i), 30, 30⟩
abbrev SWC_PORT_CFG_SAF (i : Nat) : Fld := ⟨(SWC_PORT_CFG i), 29, 29⟩
abbrev SWC_PORT_CFG_HAIRPIN (i : Nat) : Fld := ⟨(SWC_PORT_CFG i), 28, 28⟩
abbrev SWC_PORT_CFG_TRUST_DEI (i : Nat) : Fld := ⟨(SWC_PORT_CFG i), 27, 27⟩
abbrev SWC_PORT_CFG_DEF_STREAM_EN (i : Nat) : Fld := ⟨(SWC_PORT_CFG i), 26, 26⟩
abbrev SWC_PORT_CFG_DEF_STREAM (i : Nat) : Fld := ⟨(SWC_PORT_CFG i), 25, 16⟩
abbrev SWC_PORT_CFG_HOLD_MS (i : Nat) : Fld := ⟨(SWC_PORT_CFG i), 15, 0⟩
abbrev SWC_PORT_PRI (i : Nat) : Nat := unitBase 8 + 0x204 + 16 * i
abbrev SWC_PORT_PRI_DEF_PCP (i : Nat) : Fld := ⟨(SWC_PORT_PRI i), 26, 24⟩
abbrev SWC_PORT_PRI_PCP_MAP (i : Nat) : Fld := ⟨(SWC_PORT_PRI i), 23, 0⟩
abbrev SWC_PORT_VLAN (i : Nat) : Nat := unitBase 8 + 0x208 + 16 * i
abbrev SWC_PORT_VLAN_PVID (i : Nat) : Fld := ⟨(SWC_PORT_VLAN i), 11, 0⟩
abbrev SWC_GCL_CFG (i : Nat) : Nat := unitBase 8 + 0xB00 + 32 * i
abbrev SWC_GCL_CFG_EN (i : Nat) : Fld := ⟨(SWC_GCL_CFG i), 31, 31⟩
abbrev SWC_GCL_CFG_LEN (i : Nat) : Fld := ⟨(SWC_GCL_CFG i), 8, 0⟩
abbrev SWC_GCL_BASE_LO (i : Nat) : Nat := unitBase 8 + 0xB04 + 32 * i
abbrev SWC_GCL_BASE_LO_BASE (i : Nat) : Fld := ⟨(SWC_GCL_BASE_LO i), 31, 0⟩
abbrev SWC_GCL_BASE_HI (i : Nat) : Nat := unitBase 8 + 0xB08 + 32 * i
abbrev SWC_GCL_BASE_HI_BASE (i : Nat) : Fld := ⟨(SWC_GCL_BASE_HI i), 31, 0⟩
abbrev SWC_GCL_CYCLE (i : Nat) : Nat := unitBase 8 + 0xB0C + 32 * i
abbrev SWC_GCL_CYCLE_CYCLE (i : Nat) : Fld := ⟨(SWC_GCL_CYCLE i), 31, 0⟩
abbrev SWC_GCL_CTRL (i : Nat) : Nat := unitBase 8 + 0xB10 + 32 * i
abbrev SWC_GCL_CTRL_CHANGE (i : Nat) : Fld := ⟨(SWC_GCL_CTRL i), 0, 0⟩
abbrev SWC_GCL_STAT (i : Nat) : Nat := unitBase 8 + 0xB14 + 32 * i
abbrev SWC_GCL_STAT_OPER (i : Nat) : Fld := ⟨(SWC_GCL_STAT i), 31, 31⟩
abbrev SWC_GCL_STAT_PENDING (i : Nat) : Fld := ⟨(SWC_GCL_STAT i), 30, 30⟩
abbrev SWC_GCL_STAT_BANK (i : Nat) : Fld := ⟨(SWC_GCL_STAT i), 29, 29⟩
abbrev SWC_GCL_STAT_ENTRY (i : Nat) : Fld := ⟨(SWC_GCL_STAT i), 7, 0⟩
abbrev TMB_TIME_LO : Nat := unitBase 12 + 0x100
abbrev TMB_TIME_HI : Nat := unitBase 12 + 0x104
abbrev TMB_CFG : Nat := unitBase 12 + 0x108
abbrev TMB_CFG_SLEW_PPM : Fld := ⟨TMB_CFG, 9, 0⟩
abbrev TMB_RATE : Nat := unitBase 12 + 0x10C
abbrev TMB_RATE_RATE : Fld := ⟨TMB_RATE, 31, 0⟩
abbrev TMB_ADJ : Nat := unitBase 12 + 0x110
abbrev TMB_ADJ_ADJ : Fld := ⟨TMB_ADJ, 31, 0⟩
abbrev TMB_STAT : Nat := unitBase 12 + 0x114
abbrev TMB_STAT_SLEWING : Fld := ⟨TMB_STAT, 31, 31⟩
abbrev TMB_STAT_ESTIMATED : Fld := ⟨TMB_STAT, 30, 30⟩
abbrev TMB_STAT_DIE_UNSYNC : Fld := ⟨TMB_STAT, 19, 16⟩
abbrev TMB_STAT_STEP_CNT : Fld := ⟨TMB_STAT, 3, 0⟩
abbrev TMB_STEP_LO : Nat := unitBase 12 + 0x118
abbrev TMB_STEP_HI : Nat := unitBase 12 + 0x11C
abbrev TMB_STEP_CTRL : Nat := unitBase 12 + 0x120
abbrev TMB_STEP_CTRL_GO : Fld := ⟨TMB_STEP_CTRL, 0, 0⟩
abbrev TMB_TS_EN : Nat := unitBase 12 + 0x124
abbrev TMB_TS_EN_PORTS : Fld := ⟨TMB_TS_EN, 19, 0⟩
abbrev TMB_PPS_CFG : Nat := unitBase 12 + 0x128
abbrev TMB_PPS_CFG_DRIVE : Fld := ⟨TMB_PPS_CFG, 31, 31⟩
abbrev TMB_PPS_CFG_FOLLOW : Fld := ⟨TMB_PPS_CFG, 30, 30⟩
abbrev TMB_PPS_CFG_SYNC_DELAY : Fld := ⟨TMB_PPS_CFG, 15, 0⟩
abbrev TMB_PPS_CAP_LO : Nat := unitBase 12 + 0x12C
abbrev TMB_PPS_CAP_HI : Nat := unitBase 12 + 0x130
abbrev TMB_CAN_CAP : Nat := unitBase 12 + 0x134
abbrev TMB_CAN_CAP_GO : Fld := ⟨TMB_CAN_CAP, 31, 31⟩
abbrev TMB_CAN_CAP_CH : Fld := ⟨TMB_CAN_CAP, 19, 16⟩
abbrev TMB_CAN_CAP_AUTO_MS : Fld := ⟨TMB_CAN_CAP, 15, 0⟩
abbrev TMB_CAN_CNT : Nat := unitBase 12 + 0x138
abbrev TMB_CAN_DT_LO : Nat := unitBase 12 + 0x13C
abbrev TMB_CAN_DT_HI : Nat := unitBase 12 + 0x140
abbrev TMB_TS_FILL : Nat := unitBase 12 + 0x144
abbrev TMB_TS_HEAD (i : Nat) : Nat := unitBase 12 + 0x148 + 4 * i
abbrev TMB_TS_POP : Nat := unitBase 12 + 0x158
abbrev TMB_TS_LOST : Nat := unitBase 12 + 0x15C
abbrev TMB_PTP_TX : Nat := unitBase 12 + 0x160
abbrev TMB_PTP_TX_GO : Fld := ⟨TMB_PTP_TX, 31, 31⟩
abbrev TMB_PTP_TX_PORT : Fld := ⟨TMB_PTP_TX, 28, 24⟩
abbrev TMB_PTP_TX_LEN : Fld := ⟨TMB_PTP_TX, 7, 0⟩
abbrev TMB_PTP_TX_STAT : Nat := unitBase 12 + 0x164
abbrev TMB_PTP_TX_STAT_BUSY : Fld := ⟨TMB_PTP_TX_STAT, 31, 31⟩
abbrev TMB_PTP_TX_STAT_RES : Fld := ⟨TMB_PTP_TX_STAT, 1, 0⟩
abbrev TMB_PTP_FRAME (i : Nat) : Nat := unitBase 12 + 0x200 + 4 * i
abbrev SRT_STORE_BASE_LO : Nat := unitBase 11 + 0x100
abbrev SRT_STORE_BASE_LO_ADDR : Fld := ⟨SRT_STORE_BASE_LO, 31, 24⟩
abbrev SRT_STORE_BASE_HI : Nat := unitBase 11 + 0x104
abbrev SRT_STORE_BASE_HI_ADDR_HI : Fld := ⟨SRT_STORE_BASE_HI, 7, 0⟩
abbrev SRT_SRC_CFG : Nat := unitBase 11 + 0x108
abbrev SRT_SRC_CFG_RUNAHEAD : Fld := ⟨SRT_SRC_CFG, 31, 16⟩
abbrev SRT_SRC_CFG_LIN_SRC : Fld := ⟨SRT_SRC_CFG, 11, 0⟩
abbrev SRT_SR_CFG : Nat := unitBase 11 + 0x10C
abbrev SRT_SR_CFG_EN : Fld := ⟨SRT_SR_CFG, 31, 31⟩
abbrev SRT_SR_CFG_TAG : Fld := ⟨SRT_SR_CFG, 30, 30⟩
abbrev SRT_SR_CFG_PCP : Fld := ⟨SRT_SR_CFG, 26, 24⟩
abbrev SRT_SR_CFG_BUNDLE_US : Fld := ⟨SRT_SR_CFG, 23, 16⟩
abbrev SRT_SR_CFG_ETYPE : Fld := ⟨SRT_SR_CFG, 15, 0⟩
abbrev SRT_SR_VID : Nat := unitBase 11 + 0x110
abbrev SRT_SR_VID_VID : Fld := ⟨SRT_SR_VID, 11, 0⟩
abbrev SRT_SR_DA_LO : Nat := unitBase 11 + 0x114
abbrev SRT_SR_DA_LO_MAC_LO : Fld := ⟨SRT_SR_DA_LO, 31, 0⟩
abbrev SRT_SR_DA_HI : Nat := unitBase 11 + 0x118
abbrev SRT_SR_DA_HI_MAC_HI : Fld := ⟨SRT_SR_DA_HI, 15, 0⟩
abbrev SRT_SR_SA_LO : Nat := unitBase 11 + 0x11C
abbrev SRT_SR_SA_LO_MAC_LO : Fld := ⟨SRT_SR_SA_LO, 31, 0⟩
abbrev SRT_SR_SA_HI : Nat := unitBase 11 + 0x120
abbrev SRT_SR_SA_HI_MAC_HI : Fld := ⟨SRT_SR_SA_HI, 15, 0⟩
abbrev SRT_SIG_VAL_LO : Nat := unitBase 11 + 0x130
abbrev SRT_SIG_VAL_LO_VALUE : Fld := ⟨SRT_SIG_VAL_LO, 31, 0⟩
abbrev SRT_SIG_VAL_HI : Nat := unitBase 11 + 0x134
abbrev SRT_SIG_VAL_HI_VALUE : Fld := ⟨SRT_SIG_VAL_HI, 31, 0⟩
abbrev SRT_SIG_WR : Nat := unitBase 11 + 0x138
abbrev SRT_SIG_WR_DEV : Fld := ⟨SRT_SIG_WR, 30, 25⟩
abbrev SRT_SIG_WR_GSID : Fld := ⟨SRT_SIG_WR, 24, 0⟩
abbrev SRT_SIG_RD_ADDR : Nat := unitBase 11 + 0x13C
abbrev SRT_SIG_RD_ADDR_DEV : Fld := ⟨SRT_SIG_RD_ADDR, 30, 25⟩
abbrev SRT_SIG_RD_ADDR_GSID : Fld := ⟨SRT_SIG_RD_ADDR, 24, 0⟩
abbrev SRT_SIG_RD_DATA (i : Nat) : Nat := unitBase 11 + 0x140 + 4 * i
abbrev SRT_LAST_ERR : Nat := unitBase 11 + 0x150
abbrev SRT_LAST_ERR_RES : Fld := ⟨SRT_LAST_ERR, 31, 28⟩
abbrev SRT_LAST_ERR_DESC : Fld := ⟨SRT_LAST_ERR, 15, 0⟩
abbrev SRT_KEY (i : Nat) : Nat := unitBase 11 + 0x400 + 4 * i
abbrev SRT_KEY_EN (i : Nat) : Fld := ⟨(SRT_KEY i), 31, 31⟩
abbrev SRT_KEY_KEY_OK (i : Nat) : Fld := ⟨(SRT_KEY i), 30, 30⟩
abbrev SRT_KEY_KEY_ERR (i : Nat) : Fld := ⟨(SRT_KEY i), 29, 28⟩
abbrev SRT_KEY_SLOT (i : Nat) : Fld := ⟨(SRT_KEY i), 8, 0⟩
abbrev SRT_RT_BASE : Nat := unitBase 11 + 0x200
abbrev SRT_RT_BASE_ADDR : Fld := ⟨SRT_RT_BASE, 10, 0⟩
abbrev SRT_DL_BASE_LO : Nat := unitBase 11 + 0x204
abbrev SRT_DL_BASE_LO_ADDR : Fld := ⟨SRT_DL_BASE_LO, 31, 12⟩
abbrev SRT_DL_BASE_HI : Nat := unitBase 11 + 0x208
abbrev SRT_DL_BASE_HI_ADDR_HI : Fld := ⟨SRT_DL_BASE_HI, 7, 0⟩
abbrev SRT_DL_CFG : Nat := unitBase 11 + 0x20C
abbrev SRT_DL_CFG_SIZE_MIB : Fld := ⟨SRT_DL_CFG, 7, 0⟩
abbrev SRT_EPOCH : Nat := unitBase 11 + 0x210
abbrev SRT_EPOCH_COMMIT : Fld := ⟨SRT_EPOCH, 31, 31⟩
abbrev SRT_EPOCH_PENDING : Fld := ⟨SRT_EPOCH, 30, 30⟩
abbrev SRT_EPOCH_APPLYING : Fld := ⟨SRT_EPOCH, 29, 29⟩
abbrev SRT_EPOCH_BANK : Fld := ⟨SRT_EPOCH, 28, 28⟩
abbrev SRT_EPOCH_EPOCH : Fld := ⟨SRT_EPOCH, 15, 0⟩
abbrev SRT_SHD_GSID : Nat := unitBase 11 + 0x214
abbrev SRT_SHD_GSID_GSID : Fld := ⟨SRT_SHD_GSID, 24, 0⟩
abbrev SRT_SHD_DATA (i : Nat) : Nat := unitBase 11 + 0x218 + 4 * i
abbrev SRT_SHD_DATA_DATA (i : Nat) : Fld := ⟨(SRT_SHD_DATA i), 31, 0⟩
abbrev SRT_SHD_PUT : Nat := unitBase 11 + 0x228
abbrev SRT_SHD_STAT : Nat := unitBase 11 + 0x22C
abbrev SRT_SHD_STAT_FULL : Fld := ⟨SRT_SHD_STAT, 31, 31⟩
abbrev SRT_SHD_STAT_RES : Fld := ⟨SRT_SHD_STAT, 25, 24⟩
abbrev SRT_SHD_STAT_FILL : Fld := ⟨SRT_SHD_STAT, 12, 0⟩
abbrev SRT_SHD_CLEAR : Nat := unitBase 11 + 0x230
abbrev SRT_DRAIN_TARGET : Nat := unitBase 11 + 0x240
abbrev SRT_DRAIN_TARGET_TARGET : Fld := ⟨SRT_DRAIN_TARGET, 15, 0⟩
abbrev SRT_DRAIN_CTRL : Nat := unitBase 11 + 0x244
abbrev SRT_DRAIN_CTRL_REQ : Fld := ⟨SRT_DRAIN_CTRL, 31, 31⟩
abbrev SRT_DRAIN_CTRL_TO_MS : Fld := ⟨SRT_DRAIN_CTRL, 15, 0⟩
abbrev SRT_DRAIN_STAT : Nat := unitBase 11 + 0x248
abbrev SRT_DRAIN_STAT_BUSY : Fld := ⟨SRT_DRAIN_STAT, 31, 31⟩
abbrev SRT_DRAIN_STAT_DONE : Fld := ⟨SRT_DRAIN_STAT, 30, 30⟩
abbrev SRT_DRAIN_STAT_TIMEOUT : Fld := ⟨SRT_DRAIN_STAT, 29, 29⟩
abbrev SRT_DRAIN_STAT_OLDEST : Fld := ⟨SRT_DRAIN_STAT, 15, 0⟩
abbrev SRT_RC_PRELOAD : Nat := unitBase 11 + 0x250
abbrev SRT_RC_PRELOAD_GO : Fld := ⟨SRT_RC_PRELOAD, 31, 31⟩
abbrev SRT_RC_PRELOAD_START : Fld := ⟨SRT_RC_PRELOAD, 24, 0⟩
abbrev SRT_RC_PRELOAD_CNT : Nat := unitBase 11 + 0x254
abbrev SRT_RC_PRELOAD_CNT_COUNT : Fld := ⟨SRT_RC_PRELOAD_CNT, 16, 0⟩
abbrev SRT_RC_STAT : Nat := unitBase 11 + 0x258
abbrev SRT_RC_STAT_PRELOADING : Fld := ⟨SRT_RC_STAT, 31, 31⟩
abbrev SRT_RC_STAT_PINNED : Fld := ⟨SRT_RC_STAT, 15, 0⟩
abbrev SRT_RC_INV : Nat := unitBase 11 + 0x25C
abbrev SRT_RT_ERR : Nat := unitBase 11 + 0x260
abbrev SRT_RT_ERR_KIND : Fld := ⟨SRT_RT_ERR, 31, 30⟩
abbrev SRT_RT_ERR_GSID : Fld := ⟨SRT_RT_ERR, 24, 0⟩
abbrev SRT_RT_RD_GSID : Nat := unitBase 11 + 0x2A0
abbrev SRT_RT_RD_GSID_BUSY : Fld := ⟨SRT_RT_RD_GSID, 31, 31⟩
abbrev SRT_RT_RD_GSID_GSID : Fld := ⟨SRT_RT_RD_GSID, 24, 0⟩
abbrev SRT_RT_RD_DATA (i : Nat) : Nat := unitBase 11 + 0x2A4 + 4 * i
abbrev SRT_RT_RD_DATA_DATA (i : Nat) : Fld := ⟨(SRT_RT_RD_DATA i), 31, 0⟩
abbrev NMC_CFG : Nat := unitBase 15 + 0x100
abbrev NMC_CFG_MAX_AWAKE : Fld := ⟨NMC_CFG, 31, 16⟩
abbrev NMC_CFG_AUTO_SLEEP : Fld := ⟨NMC_CFG, 15, 15⟩
abbrev NMC_CFG_AUTO_TARGET : Fld := ⟨NMC_CFG, 14, 12⟩
abbrev NMC_CFG_FLW_OUT : Fld := ⟨NMC_CFG, 11, 11⟩
abbrev NMC_STAT : Nat := unitBase 15 + 0x104
abbrev NMC_STAT_ALL_SLEEP : Fld := ⟨NMC_STAT, 31, 31⟩
abbrev NMC_STAT_ISOLATED : Fld := ⟨NMC_STAT, 30, 30⟩
abbrev NMC_STAT_LARGE_CHAIN : Fld := ⟨NMC_STAT, 29, 29⟩
abbrev NMC_ISO_CTRL : Nat := unitBase 15 + 0x108
abbrev NMC_ISO_CTRL_KEY : Fld := ⟨NMC_ISO_CTRL, 15, 8⟩
abbrev NMC_ISO_CTRL_ISO : Fld := ⟨NMC_ISO_CTRL, 1, 1⟩
abbrev NMC_ISO_CTRL_REL : Fld := ⟨NMC_ISO_CTRL, 0, 0⟩
abbrev NMC_ISO_REL3 : Nat := unitBase 15 + 0x10C
abbrev NMC_ISO_REL3_KEY : Fld := ⟨NMC_ISO_REL3, 15, 8⟩
abbrev NMC_ISO_REL3_REL : Fld := ⟨NMC_ISO_REL3, 0, 0⟩
abbrev NMC_ISO_STAT : Nat := unitBase 15 + 0x110
abbrev NMC_ISO_STAT_ISOLATED : Fld := ⟨NMC_ISO_STAT, 31, 31⟩
abbrev NMC_ISO_STAT_CAUSE : Fld := ⟨NMC_ISO_STAT, 27, 24⟩
abbrev NMC_ISO_STAT_REFUSE : Fld := ⟨NMC_ISO_STAT, 1, 0⟩
abbrev NMC_ISO_CFG : Nat := unitBase 15 + 0x114
abbrev NMC_ISO_CFG_LOAD_PASS : Fld := ⟨NMC_ISO_CFG, 0, 0⟩
abbrev NMC_ISO_SKIP : Nat := unitBase 15 + 0x118
abbrev NMC_ETH_CFG : Nat := unitBase 15 + 0x120
abbrev NMC_ETH_CFG_CONSUME : Fld := ⟨NMC_ETH_CFG, 31, 31⟩
abbrev NMC_ETH_CFG_ETYPE : Fld := ⟨NMC_ETH_CFG, 15, 0⟩
abbrev NMC_ETH_DA_LO : Nat := unitBase 15 + 0x124
abbrev NMC_ETH_DA_LO_MAC_LO : Fld := ⟨NMC_ETH_DA_LO, 31, 0⟩
abbrev NMC_ETH_DA_HI : Nat := unitBase 15 + 0x128
abbrev NMC_ETH_DA_HI_MAC_HI : Fld := ⟨NMC_ETH_DA_HI, 15, 0⟩
abbrev NMC_ETH_SA_LO : Nat := unitBase 15 + 0x12C
abbrev NMC_ETH_SA_LO_MAC_LO : Fld := ⟨NMC_ETH_SA_LO, 31, 0⟩
abbrev NMC_ETH_SA_HI : Nat := unitBase 15 + 0x130
abbrev NMC_ETH_SA_HI_MAC_HI : Fld := ⟨NMC_ETH_SA_HI, 15, 0⟩
abbrev NMC_LOG_STAT : Nat := unitBase 15 + 0x140
abbrev NMC_LOG_STAT_OVF : Fld := ⟨NMC_LOG_STAT, 31, 31⟩
abbrev NMC_LOG_STAT_FILL : Fld := ⟨NMC_LOG_STAT, 5, 0⟩
abbrev NMC_LOG_POP : Nat := unitBase 15 + 0x144
abbrev NMC_LOG_HEAD (i : Nat) : Nat := unitBase 15 + 0x148 + 4 * i
abbrev NMC_SLEEP_SUM_LO : Nat := unitBase 15 + 0x160
abbrev NMC_SLEEP_SUM_HI : Nat := unitBase 15 + 0x164
abbrev NMC_FALSE_WAKE_CNT (i : Nat) : Nat := unitBase 15 + 0x300 + 4 * i
abbrev NMC_FALSE_WAKE_CNT_DISABLED (i : Nat) : Fld := ⟨(NMC_FALSE_WAKE_CNT i), 31, 31⟩
abbrev NMC_FALSE_WAKE_CNT_COUNT (i : Nat) : Fld := ⟨(NMC_FALSE_WAKE_CNT i), 7, 0⟩
abbrev NMC_CH_CFG (i : Nat) : Nat := unitBase 15 + 0x400 + 64 * i
abbrev NMC_CH_CFG_EN (i : Nat) : Fld := ⟨(NMC_CH_CFG i), 31, 31⟩
abbrev NMC_CH_CFG_TRX_SLEEP (i : Nat) : Fld := ⟨(NMC_CH_CFG i), 30, 30⟩
abbrev NMC_CH_CFG_TX_WAKE (i : Nat) : Fld := ⟨(NMC_CH_CFG i), 29, 29⟩
abbrev NMC_CH_CFG_NM_LEN (i : Nat) : Fld := ⟨(NMC_CH_CFG i), 27, 24⟩
abbrev NMC_CH_CFG_SRC_POS (i : Nat) : Fld := ⟨(NMC_CH_CFG i), 20, 20⟩
abbrev NMC_CH_CFG_TXBUF (i : Nat) : Fld := ⟨(NMC_CH_CFG i), 19, 15⟩
abbrev NMC_CH_CFG_NODE_ID (i : Nat) : Fld := ⟨(NMC_CH_CFG i), 7, 0⟩
abbrev NMC_CH_TIME (i : Nat) : Nat := unitBase 15 + 0x404 + 64 * i
abbrev NMC_CH_TIME_NM_TIMEOUT_MS (i : Nat) : Fld := ⟨(NMC_CH_TIME i), 31, 16⟩
abbrev NMC_CH_TIME_REPEAT_MS (i : Nat) : Fld := ⟨(NMC_CH_TIME i), 15, 0⟩
abbrev NMC_CH_TIME2 (i : Nat) : Nat := unitBase 15 + 0x408 + 64 * i
abbrev NMC_CH_TIME2_WAIT_SLEEP_MS (i : Nat) : Fld := ⟨(NMC_CH_TIME2 i), 31, 16⟩
abbrev NMC_CH_TIME2_MSG_CYCLE_MS (i : Nat) : Fld := ⟨(NMC_CH_TIME2 i), 15, 0⟩
abbrev NMC_CH_NMID (i : Nat) : Nat := unitBase 15 + 0x40C + 64 * i
abbrev NMC_CH_NMID_XTD (i : Nat) : Fld := ⟨(NMC_CH_NMID i), 31, 31⟩
abbrev NMC_CH_NMID_ID (i : Nat) : Fld := ⟨(NMC_CH_NMID i), 28, 0⟩
abbrev NMC_CH_NMMASK (i : Nat) : Nat := unitBase 15 + 0x410 + 64 * i
abbrev NMC_CH_NMMASK_MASK (i : Nat) : Fld := ⟨(NMC_CH_NMMASK i), 28, 0⟩
abbrev NMC_CH_REQ (i : Nat) : Nat := unitBase 15 + 0x414 + 64 * i
abbrev NMC_CH_REQ_RMR (i : Nat) : Fld := ⟨(NMC_CH_REQ i), 1, 1⟩
abbrev NMC_CH_REQ_SW (i : Nat) : Fld := ⟨(NMC_CH_REQ i), 0, 0⟩
abbrev NMC_CH_SREQ (i : Nat) : Nat := unitBase 15 + 0x418 + 64 * i
abbrev NMC_CH_SREQ_SAFE (i : Nat) : Fld := ⟨(NMC_CH_SREQ i), 0, 0⟩
abbrev NMC_CH_STAT (i : Nat) : Nat := unitBase 15 + 0x41C + 64 * i
abbrev NMC_CH_STAT_STATE (i : Nat) : Fld := ⟨(NMC_CH_STAT i), 31, 29⟩
abbrev NMC_CH_STAT_WAKE_HOLD (i : Nat) : Fld := ⟨(NMC_CH_STAT i), 28, 28⟩
abbrev NMC_CH_STAT_TRX_ASLEEP (i : Nat) : Fld := ⟨(NMC_CH_STAT i), 27, 27⟩
abbrev NMC_CH_STAT_IGNORE_ALL (i : Nat) : Fld := ⟨(NMC_CH_STAT i), 26, 26⟩
abbrev NMC_CH_STAT_ACTIVE_WAKE (i : Nat) : Fld := ⟨(NMC_CH_STAT i), 25, 25⟩
abbrev NMC_CH_STAT_IGN_N (i : Nat) : Fld := ⟨(NMC_CH_STAT i), 24, 22⟩
abbrev NMC_CH_STAT_LAST_SRC (i : Nat) : Fld := ⟨(NMC_CH_STAT i), 15, 8⟩
abbrev NMC_CH_TXD0 (i : Nat) : Nat := unitBase 15 + 0x420 + 64 * i
abbrev NMC_CH_TXD0_DATA (i : Nat) : Fld := ⟨(NMC_CH_TXD0 i), 31, 0⟩
abbrev NMC_CH_TXD1 (i : Nat) : Nat := unitBase 15 + 0x424 + 64 * i
abbrev NMC_CH_TXD1_CBV_USER (i : Nat) : Fld := ⟨(NMC_CH_TXD1 i), 23, 16⟩
abbrev NMC_CH_TXD1_DATA (i : Nat) : Fld := ⟨(NMC_CH_TXD1 i), 15, 0⟩
abbrev NMC_CH_RXD0 (i : Nat) : Nat := unitBase 15 + 0x428 + 64 * i
abbrev NMC_CH_RXD1 (i : Nat) : Nat := unitBase 15 + 0x42C + 64 * i
abbrev NMC_CH_IGN (i : Nat) : Nat := unitBase 15 + 0x430 + 64 * i
abbrev NMC_CH_AWAKE (i : Nat) : Nat := unitBase 15 + 0x434 + 64 * i
abbrev NMC_CH_IGN_CLR (i : Nat) : Nat := unitBase 15 + 0x438 + 64 * i
abbrev NMC_CH_CNT (i : Nat) : Nat := unitBase 15 + 0x43C + 64 * i
abbrev NMC_CH_CNT_RX_NM (i : Nat) : Fld := ⟨(NMC_CH_CNT i), 31, 24⟩
abbrev NMC_CH_CNT_TX_NM (i : Nat) : Fld := ⟨(NMC_CH_CNT i), 23, 16⟩
abbrev NMC_CH_CNT_TX_FAIL (i : Nat) : Fld := ⟨(NMC_CH_CNT i), 15, 8⟩
abbrev NMC_CH_CNT_NODE_CLASH (i : Nat) : Fld := ⟨(NMC_CH_CNT i), 7, 0⟩
abbrev NMC_SWK_CFG (i : Nat) : Nat := unitBase 15 + 0xE00 + 32 * i
abbrev NMC_SWK_CFG_MODE (i : Nat) : Fld := ⟨(NMC_SWK_CFG i), 31, 30⟩
abbrev NMC_SWK_CFG_DATA_EN (i : Nat) : Fld := ⟨(NMC_SWK_CFG i), 29, 29⟩
abbrev NMC_SWK_CFG_FD_PASSIVE (i : Nat) : Fld := ⟨(NMC_SWK_CFG i), 28, 28⟩
abbrev NMC_SWK_CFG_ERR_WAKE (i : Nat) : Fld := ⟨(NMC_SWK_CFG i), 27, 27⟩
abbrev NMC_SWK_CFG_RATE (i : Nat) : Fld := ⟨(NMC_SWK_CFG i), 25, 24⟩
abbrev NMC_SWK_CFG_DLC (i : Nat) : Fld := ⟨(NMC_SWK_CFG i), 3, 0⟩
abbrev NMC_SWK_ID (i : Nat) : Nat := unitBase 15 + 0xE04 + 32 * i
abbrev NMC_SWK_ID_XTD (i : Nat) : Fld := ⟨(NMC_SWK_ID i), 31, 31⟩
abbrev NMC_SWK_ID_ID (i : Nat) : Fld := ⟨(NMC_SWK_ID i), 28, 0⟩
abbrev NMC_SWK_IDM (i : Nat) : Nat := unitBase 15 + 0xE08 + 32 * i
abbrev NMC_SWK_IDM_MASK (i : Nat) : Fld := ⟨(NMC_SWK_IDM i), 28, 0⟩
abbrev NMC_SWK_DM_LO (i : Nat) : Nat := unitBase 15 + 0xE0C + 32 * i
abbrev NMC_SWK_DM_LO_MASK (i : Nat) : Fld := ⟨(NMC_SWK_DM_LO i), 31, 0⟩
abbrev NMC_SWK_DM_HI (i : Nat) : Nat := unitBase 15 + 0xE10 + 32 * i
abbrev NMC_SWK_DM_HI_MASK (i : Nat) : Fld := ⟨(NMC_SWK_DM_HI i), 31, 0⟩
abbrev NMC_SWK_STAT (i : Nat) : Nat := unitBase 15 + 0xE14 + 32 * i
abbrev NMC_SWK_STAT_ARMED (i : Nat) : Fld := ⟨(NMC_SWK_STAT i), 31, 31⟩
abbrev NMC_SWK_STAT_WOKE (i : Nat) : Fld := ⟨(NMC_SWK_STAT i), 30, 30⟩
abbrev NMC_SWK_STAT_ERR_CNT (i : Nat) : Fld := ⟨(NMC_SWK_STAT i), 5, 0⟩
abbrev FLK_DEV : Nat := unitBase 13 + 0x100
abbrev FLK_DEV_VALID : Fld := ⟨FLK_DEV, 31, 31⟩
abbrev FLK_DEV_ROLE : Fld := ⟨FLK_DEV, 30, 28⟩
abbrev FLK_DEV_DEVNUM : Fld := ⟨FLK_DEV, 5, 0⟩
abbrev FLK_CHAIN : Nat := unitBase 13 + 0x104
abbrev FLK_CHAIN_RING : Fld := ⟨FLK_CHAIN, 31, 31⟩
abbrev FLK_CHAIN_BROKEN : Fld := ⟨FLK_CHAIN, 30, 30⟩
abbrev FLK_CHAIN_REVERSED : Fld := ⟨FLK_CHAIN, 29, 29⟩
abbrev FLK_CHAIN_OVERLONG : Fld := ⟨FLK_CHAIN, 28, 28⟩
abbrev FLK_CHAIN_SIZE : Fld := ⟨FLK_CHAIN, 22, 16⟩
abbrev FLK_REACH_LO : Nat := unitBase 13 + 0x108
abbrev FLK_REACH_HI : Nat := unitBase 13 + 0x10C
abbrev FLK_CFG : Nat := unitBase 13 + 0x110
abbrev FLK_CFG_RX_TO : Fld := ⟨FLK_CFG, 23, 16⟩
abbrev FLK_CFG_CPL_TO_US : Fld := ⟨FLK_CFG, 15, 0⟩
abbrev FLK_ARB : Nat := unitBase 13 + 0x114
abbrev FLK_ARB_W_VC1 : Fld := ⟨FLK_ARB, 11, 8⟩
abbrev FLK_ARB_W_VC2 : Fld := ⟨FLK_ARB, 7, 4⟩
abbrev FLK_ARB_W_VC3 : Fld := ⟨FLK_ARB, 3, 0⟩
abbrev FLK_DRAM_AP : Nat := unitBase 13 + 0x118
abbrev FLK_DRAM_AP_EN : Fld := ⟨FLK_DRAM_AP, 31, 31⟩
abbrev FLK_DRAM_AP_BASE : Fld := ⟨FLK_DRAM_AP, 12, 0⟩
abbrev FLK_ENUM_CTRL : Nat := unitBase 13 + 0x11C
abbrev FLK_ENUM_CTRL_START : Fld := ⟨FLK_ENUM_CTRL, 0, 0⟩
abbrev FLK_SB_CFG : Nat := unitBase 13 + 0x120
abbrev FLK_SB_CFG_IRQ_EN : Fld := ⟨FLK_SB_CFG, 31, 31⟩
abbrev FLK_SB_CFG_SW_IRQ : Fld := ⟨FLK_SB_CFG, 30, 30⟩
abbrev FLK_SB_CFG_FAULT_IRQ : Fld := ⟨FLK_SB_CFG, 29, 29⟩
abbrev FLK_SB_STAT : Nat := unitBase 13 + 0x124
abbrev FLK_SB_STAT_OWN_IRQ : Fld := ⟨FLK_SB_STAT, 31, 31⟩
abbrev FLK_SB_STAT_IRQ_N : Fld := ⟨FLK_SB_STAT, 3, 3⟩
abbrev FLK_SB_STAT_FAULT_N : Fld := ⟨FLK_SB_STAT, 2, 2⟩
abbrev FLK_SB_STAT_SYNC : Fld := ⟨FLK_SB_STAT, 1, 1⟩
abbrev FLK_SB_STAT_WAKE : Fld := ⟨FLK_SB_STAT, 0, 0⟩
abbrev FLK_TUN_CFG : Nat := unitBase 13 + 0x128
abbrev FLK_TUN_CFG_EN : Fld := ⟨FLK_TUN_CFG, 31, 31⟩
abbrev FLK_TUN_CFG_REASM_TO_US : Fld := ⟨FLK_TUN_CFG, 23, 16⟩
abbrev FLK_TUN_CFG_AGE_S : Fld := ⟨FLK_TUN_CFG, 15, 0⟩
abbrev FLK_CPL_ERR : Nat := unitBase 13 + 0x12C
abbrev FLK_CPL_ERR_KIND : Fld := ⟨FLK_CPL_ERR, 31, 28⟩
abbrev FLK_CPL_ERR_DEV : Fld := ⟨FLK_CPL_ERR, 27, 22⟩
abbrev FLK_CPL_ERR_CNT : Fld := ⟨FLK_CPL_ERR, 15, 0⟩
abbrev FLK_TUN_CNT : Nat := unitBase 13 + 0x130
abbrev FLK_TUN_CNT_DROPPED : Fld := ⟨FLK_TUN_CNT, 31, 16⟩
abbrev FLK_TUN_CNT_LEARN_FAIL : Fld := ⟨FLK_TUN_CNT, 15, 0⟩
abbrev FLK_LINK_CFG (c : Nat) : Nat := cellBase 13 c + 0x20
abbrev FLK_LINK_CFG_LANE_MASK (c : Nat) : Fld := ⟨(FLK_LINK_CFG c), 1, 0⟩
abbrev FLK_LINK_CTRL (c : Nat) : Nat := cellBase 13 c + 0x24
abbrev FLK_LINK_CTRL_RETRAIN (c : Nat) : Fld := ⟨(FLK_LINK_CTRL c), 0, 0⟩
abbrev FLK_LINK_STAT (c : Nat) : Nat := cellBase 13 c + 0x28
abbrev FLK_LINK_STAT_STATE (c : Nat) : Fld := ⟨(FLK_LINK_STAT c), 31, 29⟩
abbrev FLK_LINK_STAT_WIDTH (c : Nat) : Fld := ⟨(FLK_LINK_STAT c), 28, 27⟩
abbrev FLK_LINK_STAT_PARTNER_HOST (c : Nat) : Fld := ⟨(FLK_LINK_STAT c), 26, 26⟩
abbrev FLK_LINK_STAT_PARTNER_VALID (c : Nat) : Fld := ⟨(FLK_LINK_STAT c), 25, 25⟩
abbrev FLK_LINK_STAT_PARTNER_DEV (c : Nat) : Fld := ⟨(FLK_LINK_STAT c), 21, 16⟩
abbrev HBR_CFG : Nat := unitBase 14 + 0x100
abbrev HBR_CFG_HOST_RSV : Fld := ⟨HBR_CFG, 21, 16⟩
abbrev HBR_CFG_RD_TO_US : Fld := ⟨HBR_CFG, 15, 0⟩
abbrev HBR_BACKOFF : Nat := unitBase 14 + 0x104
abbrev HBR_BACKOFF_RETRY_BACKOFF : Fld := ⟨HBR_BACKOFF, 31, 16⟩
abbrev HBR_BACKOFF_JIT_STEP : Fld := ⟨HBR_BACKOFF, 15, 8⟩
abbrev HBR_BACKOFF_RETRY_MAX : Fld := ⟨HBR_BACKOFF, 7, 0⟩
abbrev HBR_DEV_CPL : Nat := unitBase 14 + 0x108
abbrev HBR_DEV_CPL_DEV_CPL_TO_US : Fld := ⟨HBR_DEV_CPL, 15, 0⟩
abbrev HBR_LINK_STAT : Nat := unitBase 14 + 0x10C
abbrev HBR_LINK_STAT_LINK_UP : Fld := ⟨HBR_LINK_STAT, 31, 31⟩
abbrev HBR_LINK_STAT_PERST : Fld := ⟨HBR_LINK_STAT, 30, 30⟩
abbrev HBR_LINK_STAT_SPEED : Fld := ⟨HBR_LINK_STAT, 18, 16⟩
abbrev HBR_LINK_STAT_WIDTH : Fld := ⟨HBR_LINK_STAT, 10, 8⟩
abbrev HBR_LINK_STAT_NUM_VF : Fld := ⟨HBR_LINK_STAT, 5, 0⟩
abbrev HBR_PCI_ID : Nat := unitBase 14 + 0x110
abbrev HBR_PCI_ID_DEVICE : Fld := ⟨HBR_PCI_ID, 31, 16⟩
abbrev HBR_PCI_ID_VF_DEVICE : Fld := ⟨HBR_PCI_ID, 15, 0⟩
abbrev HBR_TRK_STAT : Nat := unitBase 14 + 0x114
abbrev HBR_TRK_STAT_HOST : Fld := ⟨HBR_TRK_STAT, 22, 16⟩
abbrev HBR_TRK_STAT_DEV : Fld := ⟨HBR_TRK_STAT, 6, 0⟩
abbrev HBR_RD_ERR : Nat := unitBase 14 + 0x118
abbrev HBR_RD_ERR_KIND : Fld := ⟨HBR_RD_ERR, 31, 28⟩
abbrev HBR_RD_ERR_FUNC : Fld := ⟨HBR_RD_ERR, 21, 16⟩
abbrev HBR_RD_ERR_CNT : Fld := ⟨HBR_RD_ERR, 15, 0⟩
abbrev HBR_WSYNC : Nat := unitBase 14 + 0x120
abbrev HBR_WSYNC_ERR : Fld := ⟨HBR_WSYNC, 31, 31⟩
abbrev HBR_WSYNC_OVF : Fld := ⟨HBR_WSYNC, 30, 30⟩
abbrev HBR_WSYNC_TIMEOUT : Fld := ⟨HBR_WSYNC, 29, 29⟩
abbrev HBR_WSYNC_WSEQ : Fld := ⟨HBR_WSYNC, 15, 0⟩
abbrev HBR_SEM_CFG : Nat := unitBase 14 + 0x124
abbrev HBR_SEM_CFG_SEM_TO_US : Fld := ⟨HBR_SEM_CFG, 15, 0⟩
abbrev HBR_SEM (i : Nat) : Nat := unitBase 14 + 0x200 + 4 * i
abbrev HBR_SEM_HELD (i : Nat) : Fld := ⟨(HBR_SEM i), 31, 31⟩
abbrev HBR_SEM_MINE (i : Nat) : Fld := ⟨(HBR_SEM i), 30, 30⟩
abbrev HBR_SEM_REL (i : Nat) : Fld := ⟨(HBR_SEM i), 29, 29⟩
abbrev HBR_SEM_KIND (i : Nat) : Fld := ⟨(HBR_SEM i), 15, 14⟩
abbrev HBR_SEM_ID (i : Nat) : Fld := ⟨(HBR_SEM i), 13, 8⟩
abbrev HBR_SEM_SUB (i : Nat) : Fld := ⟨(HBR_SEM i), 7, 0⟩
abbrev HBR_SEM_ADDR_LO (i : Nat) : Nat := unitBase 14 + 0x300 + 8 * i
abbrev HBR_SEM_ADDR_LO_ADDR (i : Nat) : Fld := ⟨(HBR_SEM_ADDR_LO i), 31, 6⟩
abbrev HBR_SEM_ADDR_HI (i : Nat) : Nat := unitBase 14 + 0x304 + 8 * i
abbrev HBR_SEM_ADDR_HI_ADDR_HI (i : Nat) : Fld := ⟨(HBR_SEM_ADDR_HI i), 7, 0⟩
abbrev HBR_LATE_WRITE_RING (i : Nat) : Nat := unitBase 14 + 0x700 + 8 * i
abbrev HBR_LATE_WRITE_RING_BASE (i : Nat) : Fld := ⟨(HBR_LATE_WRITE_RING i), 31, 6⟩
abbrev HBR_LATE_WRITE_RING_EN (i : Nat) : Fld := ⟨(HBR_LATE_WRITE_RING i), 5, 5⟩
abbrev HBR_LATE_WRITE_RING_OVF (i : Nat) : Fld := ⟨(HBR_LATE_WRITE_RING i), 4, 4⟩
abbrev HBR_LATE_WRITE_RING_SIZE (i : Nat) : Fld := ⟨(HBR_LATE_WRITE_RING i), 3, 0⟩
abbrev HBR_LATE_WRITE_IDX (i : Nat) : Nat := unitBase 14 + 0x704 + 8 * i
abbrev HBR_LATE_WRITE_IDX_TAIL (i : Nat) : Fld := ⟨(HBR_LATE_WRITE_IDX i), 31, 22⟩
abbrev HBR_LATE_WRITE_IDX_HEAD (i : Nat) : Fld := ⟨(HBR_LATE_WRITE_IDX i), 21, 12⟩
abbrev HBR_LATE_WRITE_IDX_HALT (i : Nat) : Fld := ⟨(HBR_LATE_WRITE_IDX i), 11, 11⟩
abbrev HBR_LATE_WRITE_IDX_BASE_HI (i : Nat) : Fld := ⟨(HBR_LATE_WRITE_IDX i), 7, 0⟩
abbrev IOM_IP_MB_OUT (n i : Nat) : Nat := (0x2B000000 + 0x4000 * n) + 0x0 + 4 * i
abbrev IOM_IP_MB_IN (n i : Nat) : Nat := (0x2B000000 + 0x4000 * n) + 0x40 + 4 * i
abbrev IOM_IP_DB (n : Nat) : Nat := (0x2B000000 + 0x4000 * n) + 0x80
abbrev IOM_IP_DB_ACK (n : Nat) : Fld := ⟨(IOM_IP_DB n), 1, 1⟩
abbrev IOM_IP_DB_SEND (n : Nat) : Fld := ⟨(IOM_IP_DB n), 0, 0⟩
abbrev IOM_IP_STAT (n : Nat) : Nat := (0x2B000000 + 0x4000 * n) + 0x84
abbrev IOM_IP_STAT_BOUND (n : Nat) : Fld := ⟨(IOM_IP_STAT n), 31, 31⟩
abbrev IOM_IP_STAT_KIND (n : Nat) : Fld := ⟨(IOM_IP_STAT n), 30, 27⟩
abbrev IOM_IP_STAT_RESETTING (n : Nat) : Fld := ⟨(IOM_IP_STAT n), 26, 26⟩
abbrev IOM_IP_STAT_OUT_FULL (n : Nat) : Fld := ⟨(IOM_IP_STAT n), 25, 25⟩
abbrev IOM_IP_STAT_IN_FULL (n : Nat) : Fld := ⟨(IOM_IP_STAT n), 24, 24⟩
abbrev IOM_IP_STAT_ENABLED (n : Nat) : Fld := ⟨(IOM_IP_STAT n), 23, 23⟩
abbrev IOM_IP_STAT_GEN (n : Nat) : Fld := ⟨(IOM_IP_STAT n), 15, 8⟩
abbrev IOM_IP_STAT_INST (n : Nat) : Fld := ⟨(IOM_IP_STAT n), 7, 0⟩
abbrev IOM_IP_APER (n : Nat) : Nat := (0x2B000000 + 0x4000 * n) + 0x88
abbrev IOM_IP_APER_APER (n : Nat) : Fld := ⟨(IOM_IP_APER n), 4, 0⟩
abbrev IOM_IP_FUNC_DB (n : Nat) : Nat := (0x2B000000 + 0x4000 * n) + 0x8C
abbrev IOM_IP_FUNC_DB_VALUE (n : Nat) : Fld := ⟨(IOM_IP_FUNC_DB n), 31, 0⟩
abbrev IOM_IP_WSYNC (n : Nat) : Nat := (0x2B000000 + 0x4000 * n) + 0x90
abbrev IOM_IP_LW_RING (n : Nat) : Nat := (0x2B000000 + 0x4000 * n) + 0x94
abbrev IOM_IP_LW_IDX (n : Nat) : Nat := (0x2B000000 + 0x4000 * n) + 0x98
abbrev IOM_CFG : Nat := unitBase 6 + 0x100
abbrev IOM_CFG_MGR_HOST : Fld := ⟨IOM_CFG, 31, 31⟩
abbrev IOM_TOMGR_PEND (i : Nat) : Nat := unitBase 6 + 0x110 + 4 * i
abbrev IOM_FROMMGR_ACKED (i : Nat) : Nat := unitBase 6 + 0x130 + 4 * i
abbrev IOM_BOUND_CNT : Nat := unitBase 6 + 0x150
abbrev IOM_BOUND_CNT_CNT : Fld := ⟨IOM_BOUND_CNT, 8, 0⟩
abbrev IOM_INST_BIND (c : Nat) : Nat := cellBase 6 c + 0x20
abbrev IOM_INST_BIND_KIND (c : Nat) : Fld := ⟨(IOM_INST_BIND c), 31, 28⟩
abbrev IOM_INST_BIND_ARG (c : Nat) : Fld := ⟨(IOM_INST_BIND c), 23, 0⟩
abbrev IOM_INST_OWNER (c : Nat) : Nat := cellBase 6 c + 0x24
abbrev IOM_INST_OWNER_OKIND (c : Nat) : Fld := ⟨(IOM_INST_OWNER c), 31, 30⟩
abbrev IOM_INST_OWNER_VF (c : Nat) : Fld := ⟨(IOM_INST_OWNER c), 21, 16⟩
abbrev IOM_INST_OWNER_DEV (c : Nat) : Fld := ⟨(IOM_INST_OWNER c), 13, 8⟩
abbrev IOM_INST_PID (c : Nat) : Nat := cellBase 6 c + 0x28
abbrev IOM_INST_PID_PID (c : Nat) : Fld := ⟨(IOM_INST_PID c), 5, 0⟩
abbrev IOM_INST_GEN (c : Nat) : Nat := cellBase 6 c + 0x2C
abbrev IOM_INST_GEN_GEN (c : Nat) : Fld := ⟨(IOM_INST_GEN c), 7, 0⟩
abbrev IOM_INST_STAT (c : Nat) : Nat := cellBase 6 c + 0x30
abbrev IOM_INST_STAT_BOUND (c : Nat) : Fld := ⟨(IOM_INST_STAT c), 31, 31⟩
abbrev IOM_INST_STAT_MIG_STATE (c : Nat) : Fld := ⟨(IOM_INST_STAT c), 30, 28⟩
abbrev IOM_INST_STAT_RESETTING (c : Nat) : Fld := ⟨(IOM_INST_STAT c), 27, 27⟩
abbrev IOM_INST_STAT_TOMGR_FULL (c : Nat) : Fld := ⟨(IOM_INST_STAT c), 26, 26⟩
abbrev IOM_INST_STAT_FROMMGR_FULL (c : Nat) : Fld := ⟨(IOM_INST_STAT c), 25, 25⟩
abbrev IOM_INST_STAT_OWNER_LOST (c : Nat) : Fld := ⟨(IOM_INST_STAT c), 24, 24⟩
abbrev IOM_INST_STAT_PID_OK (c : Nat) : Fld := ⟨(IOM_INST_STAT c), 23, 23⟩
abbrev IOM_INST_STAT_BIND_ERR (c : Nat) : Fld := ⟨(IOM_INST_STAT c), 3, 0⟩
abbrev IOM_INST_CTRL (c : Nat) : Nat := cellBase 6 c + 0x34
abbrev IOM_INST_CTRL_RING (c : Nat) : Fld := ⟨(IOM_INST_CTRL c), 1, 1⟩
abbrev IOM_INST_CTRL_ACK (c : Nat) : Fld := ⟨(IOM_INST_CTRL c), 0, 0⟩
abbrev IOM_INST_STALE (c : Nat) : Nat := cellBase 6 c + 0x38
abbrev IOM_INST_STALE_INST_STALE_CNT (c : Nat) : Fld := ⟨(IOM_INST_STALE c), 31, 0⟩
abbrev IOM_INST_MB_TOMGR (c i : Nat) : Nat := cellBase 6 c + 0x40 + 4 * i
abbrev IOM_INST_MB_FROMMGR (c i : Nat) : Nat := cellBase 6 c + 0x80 + 4 * i
abbrev IOM_MIG_CMD : Nat := unitBase 6 + 0x800
abbrev IOM_MIG_CMD_GO : Fld := ⟨IOM_MIG_CMD, 31, 31⟩
abbrev IOM_MIG_CMD_OP : Fld := ⟨IOM_MIG_CMD, 27, 24⟩
abbrev IOM_MIG_CMD_JRNL : Fld := ⟨IOM_MIG_CMD, 20, 20⟩
abbrev IOM_MIG_CMD_INST : Fld := ⟨IOM_MIG_CMD, 7, 0⟩
abbrev IOM_MIG_RES : Nat := unitBase 6 + 0x804
abbrev IOM_MIG_RES_BUSY : Fld := ⟨IOM_MIG_RES, 31, 31⟩
abbrev IOM_MIG_RES_CODE : Fld := ⟨IOM_MIG_RES, 27, 24⟩
abbrev IOM_MIG_RES_OP : Fld := ⟨IOM_MIG_RES, 19, 16⟩
abbrev IOM_MIG_RES_INST : Fld := ⟨IOM_MIG_RES, 7, 0⟩
abbrev IOM_MIG_BUF_LO : Nat := unitBase 6 + 0x808
abbrev IOM_MIG_BUF_LO_ADDR : Fld := ⟨IOM_MIG_BUF_LO, 31, 0⟩
abbrev IOM_MIG_BUF_HI : Nat := unitBase 6 + 0x80C
abbrev IOM_MIG_BUF_HI_ADDR_HI : Fld := ⟨IOM_MIG_BUF_HI, 7, 0⟩
abbrev IOM_MIG_LEN : Nat := unitBase 6 + 0x810
abbrev IOM_MIG_LEN_LEN : Fld := ⟨IOM_MIG_LEN, 24, 0⟩
abbrev IOM_MIG_DEV : Nat := unitBase 6 + 0x814
abbrev IOM_MIG_DEV_DEV : Fld := ⟨IOM_MIG_DEV, 5, 0⟩
abbrev IOM_MIG_DST_LO : Nat := unitBase 6 + 0x818
abbrev IOM_MIG_DST_LO_ADDR : Fld := ⟨IOM_MIG_DST_LO, 31, 0⟩
abbrev IOM_MIG_DST_HI : Nat := unitBase 6 + 0x81C
abbrev IOM_MIG_DST_HI_ADDR_HI : Fld := ⟨IOM_MIG_DST_HI, 7, 0⟩
abbrev IOM_MIG_SEL : Nat := unitBase 6 + 0x820
abbrev IOM_MIG_SEL_INST : Fld := ⟨IOM_MIG_SEL, 7, 0⟩
abbrev IOM_LOG_CFG : Nat := unitBase 6 + 0x824
abbrev IOM_LOG_CFG_PAGES : Fld := ⟨IOM_LOG_CFG, 23, 0⟩
abbrev IOM_LOG_BASE_LO : Nat := unitBase 6 + 0x828
abbrev IOM_LOG_BASE_LO_ADDR : Fld := ⟨IOM_LOG_BASE_LO, 31, 12⟩
abbrev IOM_LOG_BASE_HI : Nat := unitBase 6 + 0x82C
abbrev IOM_LOG_BASE_HI_ADDR_HI : Fld := ⟨IOM_LOG_BASE_HI, 7, 0⟩
abbrev IOM_LOG_BMP_LO : Nat := unitBase 6 + 0x830
abbrev IOM_LOG_BMP_LO_ADDR : Fld := ⟨IOM_LOG_BMP_LO, 31, 6⟩
abbrev IOM_LOG_BMP_HI : Nat := unitBase 6 + 0x834
abbrev IOM_LOG_BMP_HI_ADDR_HI : Fld := ⟨IOM_LOG_BMP_HI, 7, 0⟩
abbrev IOM_LOG_SWAP_LO : Nat := unitBase 6 + 0x838
abbrev IOM_LOG_SWAP_LO_ADDR : Fld := ⟨IOM_LOG_SWAP_LO, 31, 6⟩
abbrev IOM_LOG_SWAP_HI : Nat := unitBase 6 + 0x83C
abbrev IOM_LOG_SWAP_HI_ADDR_HI : Fld := ⟨IOM_LOG_SWAP_HI, 7, 0⟩
abbrev IOM_LOG_STAT : Nat := unitBase 6 + 0x840
abbrev IOM_LOG_STAT_ON : Fld := ⟨IOM_LOG_STAT, 31, 31⟩
abbrev IOM_LOG_STAT_ERR : Fld := ⟨IOM_LOG_STAT, 30, 30⟩
abbrev IOM_LOG_STAT_OUTSIDE : Fld := ⟨IOM_LOG_STAT, 29, 29⟩
abbrev IOM_LOG_STAT_LAST_ERR : Fld := ⟨IOM_LOG_STAT, 28, 28⟩
abbrev IOM_LOG_STAT_LAST_OUTSIDE : Fld := ⟨IOM_LOG_STAT, 27, 27⟩
abbrev IOM_MIG_JRNL : Nat := unitBase 6 + 0x844
abbrev IOM_MIG_JRNL_VALID : Fld := ⟨IOM_MIG_JRNL, 31, 31⟩
abbrev IOM_MIG_JRNL_DEV : Fld := ⟨IOM_MIG_JRNL, 27, 22⟩
abbrev IOM_MIG_JRNL_INST : Fld := ⟨IOM_MIG_JRNL, 21, 14⟩
abbrev IOM_MIG_JRNL_LEN : Fld := ⟨IOM_MIG_JRNL, 12, 0⟩
abbrev MEM_UPD_CMD : Nat := unitBase 4 + 0x200
abbrev MEM_UPD_CMD_GO : Fld := ⟨MEM_UPD_CMD, 31, 31⟩
abbrev MEM_UPD_CMD_OP : Fld := ⟨MEM_UPD_CMD, 27, 24⟩
abbrev MEM_UPD_STAT : Nat := unitBase 4 + 0x204
abbrev MEM_UPD_STAT_BUSY : Fld := ⟨MEM_UPD_STAT, 31, 31⟩
abbrev MEM_UPD_STAT_STATE : Fld := ⟨MEM_UPD_STAT, 30, 28⟩
abbrev MEM_UPD_STAT_CODE : Fld := ⟨MEM_UPD_STAT, 27, 24⟩
abbrev MEM_UPD_STAT_STEP : Fld := ⟨MEM_UPD_STAT, 23, 20⟩
abbrev MEM_UPD_STAT_STEPS : Fld := ⟨MEM_UPD_STAT, 11, 8⟩
abbrev MEM_UPD_STAT_DONE : Fld := ⟨MEM_UPD_STAT, 3, 0⟩
abbrev MEM_UPD_SRC_LO : Nat := unitBase 4 + 0x208
abbrev MEM_UPD_SRC_LO_ADDR : Fld := ⟨MEM_UPD_SRC_LO, 31, 0⟩
abbrev MEM_UPD_SRC_HI : Nat := unitBase 4 + 0x20C
abbrev MEM_UPD_SRC_HI_ADDR_HI : Fld := ⟨MEM_UPD_SRC_HI, 7, 0⟩
abbrev MEM_UPD_LEN : Nat := unitBase 4 + 0x210
abbrev MEM_UPD_LEN_LEN : Fld := ⟨MEM_UPD_LEN, 16, 0⟩
abbrev MEM_UPD_CFG : Nat := unitBase 4 + 0x214
abbrev MEM_UPD_CFG_AUTO_RESET : Fld := ⟨MEM_UPD_CFG, 31, 31⟩
abbrev MEM_UPD_CFG_AUTO_ARB : Fld := ⟨MEM_UPD_CFG, 30, 30⟩
abbrev MEM_UPD_CFG_RELAY_IN : Fld := ⟨MEM_UPD_CFG, 29, 29⟩
abbrev MEM_UPD_CFG_RELAY_FWD : Fld := ⟨MEM_UPD_CFG, 28, 28⟩
abbrev MEM_UPD_CFG_CONF_REQ : Fld := ⟨MEM_UPD_CFG, 27, 26⟩
abbrev MEM_UPD_CFG_KEY_SLOT : Fld := ⟨MEM_UPD_CFG, 24, 16⟩
abbrev MEM_UPD_CFG_CONFIRM_WINDOW : Fld := ⟨MEM_UPD_CFG, 9, 0⟩
abbrev MEM_UPD_CONFIRM : Nat := unitBase 4 + 0x218
abbrev MEM_UPD_CONFIRM_SAFE : Fld := ⟨MEM_UPD_CONFIRM, 1, 1⟩
abbrev MEM_UPD_CONFIRM_HEALTH_CONFIRM : Fld := ⟨MEM_UPD_CONFIRM, 0, 0⟩
abbrev MEM_UPD_PROG : Nat := unitBase 4 + 0x21C
abbrev MEM_UPD_PROG_NEXT_CHUNK : Fld := ⟨MEM_UPD_PROG, 23, 0⟩
abbrev MEM_UPD_TRIAL : Nat := unitBase 4 + 0x220
abbrev MEM_UPD_TRIAL_BOOTS : Fld := ⟨MEM_UPD_TRIAL, 25, 24⟩
abbrev MEM_UPD_TRIAL_LEFT_S : Fld := ⟨MEM_UPD_TRIAL, 9, 0⟩
abbrev MEM_UPD_JRNL : Nat := unitBase 4 + 0x224
abbrev MEM_UPD_JRNL_TXN_OPEN : Fld := ⟨MEM_UPD_JRNL, 31, 31⟩
abbrev MEM_UPD_JRNL_TXN_LEN : Fld := ⟨MEM_UPD_JRNL, 12, 0⟩
abbrev MEM_UPD_CID (i : Nat) : Nat := unitBase 4 + 0x230 + 4 * i
abbrev RG_FW_BASE (r i : Nat) : Nat := unitBase (23 + r) + 0x1000 + 16 * i
abbrev RG_FW_BASE_BASE_L (r i : Nat) : Fld := ⟨(RG_FW_BASE r i), 31, 12⟩
abbrev RG_FW_BASE_BASE_H (r i : Nat) : Fld := ⟨(RG_FW_BASE r i), 7, 0⟩
abbrev RG_FW_LAST (r i : Nat) : Nat := unitBase (23 + r) + 0x1004 + 16 * i
abbrev RG_FW_LAST_LAST_L (r i : Nat) : Fld := ⟨(RG_FW_LAST r i), 31, 12⟩
abbrev RG_FW_LAST_LAST_H (r i : Nat) : Fld := ⟨(RG_FW_LAST r i), 7, 0⟩
abbrev RG_FW_PERM (r i : Nat) : Nat := unitBase (23 + r) + 0x1008 + 16 * i
abbrev RG_FW_PERM_EN (r i : Nat) : Fld := ⟨(RG_FW_PERM r i), 31, 31⟩
abbrev RG_FW_PERM_WR_HI (r i : Nat) : Fld := ⟨(RG_FW_PERM r i), 29, 24⟩
abbrev RG_FW_PERM_WR_LO (r i : Nat) : Fld := ⟨(RG_FW_PERM r i), 21, 16⟩
abbrev RG_FW_PERM_RD_HI (r i : Nat) : Fld := ⟨(RG_FW_PERM r i), 13, 8⟩
abbrev RG_FW_PERM_RD_LO (r i : Nat) : Fld := ⟨(RG_FW_PERM r i), 5, 0⟩
abbrev RG_FW_XTRA (r i : Nat) : Nat := unitBase (23 + r) + 0x100C + 16 * i
abbrev RG_FW_XTRA_B_WR (r i : Nat) : Fld := ⟨(RG_FW_XTRA r i), 31, 31⟩
abbrev RG_FW_XTRA_B_RD (r i : Nat) : Fld := ⟨(RG_FW_XTRA r i), 30, 30⟩
abbrev RG_FW_XTRA_PIDB (r i : Nat) : Fld := ⟨(RG_FW_XTRA r i), 29, 24⟩
abbrev RG_FW_XTRA_A_WR (r i : Nat) : Fld := ⟨(RG_FW_XTRA r i), 23, 23⟩
abbrev RG_FW_XTRA_A_RD (r i : Nat) : Fld := ⟨(RG_FW_XTRA r i), 22, 22⟩
abbrev RG_FW_XTRA_PIDA (r i : Nat) : Fld := ⟨(RG_FW_XTRA r i), 21, 16⟩
abbrev SWC_IN_FRAMES (i : Nat) : Nat := unitBase 8 + 0x400 + 64 * i
abbrev SWC_IN_VLAN_DROP (i : Nat) : Nat := unitBase 8 + 0x404 + 64 * i
abbrev SWC_IN_SDU_DROP (i : Nat) : Nat := unitBase 8 + 0x408 + 64 * i
abbrev SWC_IN_POL_DROP (i : Nat) : Nat := unitBase 8 + 0x40C + 64 * i
abbrev SWC_IN_STAGE_OVF (i : Nat) : Nat := unitBase 8 + 0x410 + 64 * i
abbrev SWC_IN_CUT_ABORT (i : Nat) : Nat := unitBase 8 + 0x414 + 64 * i
abbrev SWC_IN_ISO_DROP (i : Nat) : Nat := unitBase 8 + 0x418 + 64 * i
abbrev SWC_IN_MC_PARTIAL (i : Nat) : Nat := unitBase 8 + 0x41C + 64 * i
abbrev SWC_OUT_FRAMES (i : Nat) : Nat := unitBase 8 + 0x420 + 64 * i
abbrev SWC_OUT_WRED_DROP (i : Nat) : Nat := unitBase 8 + 0x424 + 64 * i
abbrev SWC_OUT_FULL_DROP (i : Nat) : Nat := unitBase 8 + 0x428 + 64 * i
abbrev SWC_OUT_ECN_MARK (i : Nat) : Nat := unitBase 8 + 0x42C + 64 * i
abbrev SWC_OUT_UNAVAIL (i : Nat) : Nat := unitBase 8 + 0x430 + 64 * i
abbrev SWC_OUT_IR_DROP (i : Nat) : Nat := unitBase 8 + 0x434 + 64 * i
abbrev SWC_OUT_CUT_ABORT (i : Nat) : Nat := unitBase 8 + 0x438 + 64 * i
abbrev SWC_OUT_GATE_DROP (i : Nat) : Nat := unitBase 8 + 0x43C + 64 * i
abbrev SRT_CNT_PDU_IN : Nat := unitBase 11 + 0x180
abbrev SRT_CNT_PDU_OUT : Nat := unitBase 11 + 0x184
abbrev SRT_CNT_SIG_UPD : Nat := unitBase 11 + 0x188
abbrev SRT_CNT_NO_PDU : Nat := unitBase 11 + 0x18C
abbrev SRT_CNT_IN_OVF : Nat := unitBase 11 + 0x190
abbrev SRT_CNT_CHECK_FAIL : Nat := unitBase 11 + 0x194
abbrev SRT_CNT_MAC_FAIL : Nat := unitBase 11 + 0x198
abbrev SRT_CNT_NO_ROUTE : Nat := unitBase 11 + 0x19C
abbrev SRT_CNT_TIMEOUT : Nat := unitBase 11 + 0x1A0
abbrev SRT_CNT_TX_BUSY : Nat := unitBase 11 + 0x1A4
abbrev SRT_CNT_SQUASH_ERR : Nat := unitBase 11 + 0x1A8
abbrev SRT_CNT_SQUASH_EPOCH : Nat := unitBase 11 + 0x1AC
abbrev SRT_CNT_SQUASH_CFG : Nat := unitBase 11 + 0x1B0
abbrev SRT_CNT_REMOTE_OUT : Nat := unitBase 11 + 0x1B4
abbrev SRT_CNT_REMOTE_DROP : Nat := unitBase 11 + 0x1B8
abbrev SRT_CNT_SR_DROP : Nat := unitBase 11 + 0x1BC
abbrev SRT_CNT_RC_HIT : Nat := unitBase 11 + 0x280
abbrev SRT_CNT_RC_MISS : Nat := unitBase 11 + 0x284
abbrev SRT_CNT_DL_MISS : Nat := unitBase 11 + 0x288
abbrev SRT_CNT_IR_DROP : Nat := unitBase 11 + 0x28C
abbrev SRT_CNT_RT_POISON : Nat := unitBase 11 + 0x290
abbrev SRT_CNT_DEST_BAD : Nat := unitBase 11 + 0x294
abbrev SRT_CNT_DEST_POISON : Nat := unitBase 11 + 0x298
abbrev SRT_CNT_SHD_APPLIED : Nat := unitBase 11 + 0x29C
abbrev FLK_CNT_RX_PKT (c : Nat) : Nat := cellBase 13 c + 0x40
abbrev FLK_CNT_TX_PKT (c : Nat) : Nat := cellBase 13 c + 0x44
abbrev FLK_CNT_CRC_ERR (c : Nat) : Nat := cellBase 13 c + 0x48
abbrev FLK_CNT_NAK_RX (c : Nat) : Nat := cellBase 13 c + 0x4C
abbrev FLK_CNT_REPLAY (c : Nat) : Nat := cellBase 13 c + 0x50
abbrev FLK_CNT_RETRAIN (c : Nat) : Nat := cellBase 13 c + 0x54
abbrev FLK_CNT_PARTIAL_DROP (c : Nat) : Nat := cellBase 13 c + 0x58
abbrev FLK_CNT_BAD_PKT (c : Nat) : Nat := cellBase 13 c + 0x5C
abbrev HBR_CNT_HOST_WR : Nat := unitBase 14 + 0x180
abbrev HBR_CNT_HOST_RD : Nat := unitBase 14 + 0x184
abbrev HBR_CNT_DEV_WR : Nat := unitBase 14 + 0x188
abbrev HBR_CNT_DEV_RD : Nat := unitBase 14 + 0x18C
abbrev HBR_CNT_LATE_WRITE : Nat := unitBase 14 + 0x190
abbrev HBR_CNT_RD_TIMEOUT : Nat := unitBase 14 + 0x194
abbrev HBR_CNT_BACKOFF : Nat := unitBase 14 + 0x198
abbrev HBR_CNT_DEV_CPL_TO : Nat := unitBase 14 + 0x19C
abbrev ETP_CNT_RX_OCTETS (c : Nat) : Nat := cellBase 7 c + 0x100
abbrev ETP_CNT_RX_OCTETS_HI (c : Nat) : Nat := cellBase 7 c + 0x104
abbrev ETP_CNT_RX_FRAMES (c : Nat) : Nat := cellBase 7 c + 0x108
abbrev ETP_CNT_RX_FRAMES_HI (c : Nat) : Nat := cellBase 7 c + 0x10C
abbrev ETP_CNT_RX_MCAST (c : Nat) : Nat := cellBase 7 c + 0x110
abbrev ETP_CNT_RX_MCAST_HI (c : Nat) : Nat := cellBase 7 c + 0x114
abbrev ETP_CNT_RX_BCAST (c : Nat) : Nat := cellBase 7 c + 0x118
abbrev ETP_CNT_RX_BCAST_HI (c : Nat) : Nat := cellBase 7 c + 0x11C
abbrev ETP_CNT_RX_RUNT (c : Nat) : Nat := cellBase 7 c + 0x120
abbrev ETP_CNT_RX_RUNT_HI (c : Nat) : Nat := cellBase 7 c + 0x124
abbrev ETP_CNT_RX_OVERSIZE (c : Nat) : Nat := cellBase 7 c + 0x128
abbrev ETP_CNT_RX_OVERSIZE_HI (c : Nat) : Nat := cellBase 7 c + 0x12C
abbrev ETP_CNT_RX_FCS_ERR (c : Nat) : Nat := cellBase 7 c + 0x130
abbrev ETP_CNT_RX_FCS_ERR_HI (c : Nat) : Nat := cellBase 7 c + 0x134
abbrev ETP_CNT_RX_PHY_ERR (c : Nat) : Nat := cellBase 7 c + 0x138
abbrev ETP_CNT_RX_PHY_ERR_HI (c : Nat) : Nat := cellBase 7 c + 0x13C
abbrev ETP_CNT_RX_MACCTRL (c : Nat) : Nat := cellBase 7 c + 0x140
abbrev ETP_CNT_RX_MACCTRL_HI (c : Nat) : Nat := cellBase 7 c + 0x144
abbrev ETP_CNT_TX_OCTETS (c : Nat) : Nat := cellBase 7 c + 0x148
abbrev ETP_CNT_TX_OCTETS_HI (c : Nat) : Nat := cellBase 7 c + 0x14C
abbrev ETP_CNT_TX_FRAMES (c : Nat) : Nat := cellBase 7 c + 0x150
abbrev ETP_CNT_TX_FRAMES_HI (c : Nat) : Nat := cellBase 7 c + 0x154
abbrev ETP_CNT_TX_UNDERRUN (c : Nat) : Nat := cellBase 7 c + 0x158
abbrev ETP_CNT_TX_UNDERRUN_HI (c : Nat) : Nat := cellBase 7 c + 0x15C
abbrev ETP_CNT_TX_LATE_OCTETS (c : Nat) : Nat := cellBase 7 c + 0x160
abbrev ETP_CNT_TX_LATE_OCTETS_HI (c : Nat) : Nat := cellBase 7 c + 0x164
abbrev ETP_CNT_TX_LINK_ABORT (c : Nat) : Nat := cellBase 7 c + 0x168
abbrev ETP_CNT_TX_LINK_ABORT_HI (c : Nat) : Nat := cellBase 7 c + 0x16C
abbrev ETP_CNT_TX_COLLISION (c : Nat) : Nat := cellBase 7 c + 0x170
abbrev ETP_CNT_TX_COLLISION_HI (c : Nat) : Nat := cellBase 7 c + 0x174
abbrev ETP_CNT_TX_TSO_SENDS (c : Nat) : Nat := cellBase 7 c + 0x178
abbrev ETP_CNT_TX_TSO_SENDS_HI (c : Nat) : Nat := cellBase 7 c + 0x17C
abbrev ETP_CNT_TX_TSO_SEGS (c : Nat) : Nat := cellBase 7 c + 0x180
abbrev ETP_CNT_TX_TSO_SEGS_HI (c : Nat) : Nat := cellBase 7 c + 0x184
abbrev ETP_CNT_TX_TSO_ABORT (c : Nat) : Nat := cellBase 7 c + 0x188
abbrev ETP_CNT_TX_TSO_ABORT_HI (c : Nat) : Nat := cellBase 7 c + 0x18C
abbrev ETP_CNT_LPI_TX_ENTRIES (c : Nat) : Nat := cellBase 7 c + 0x190
abbrev ETP_CNT_LPI_TX_ENTRIES_HI (c : Nat) : Nat := cellBase 7 c + 0x194
abbrev ETP_CNT_LPI_RX_ENTRIES (c : Nat) : Nat := cellBase 7 c + 0x198
abbrev ETP_CNT_LPI_RX_ENTRIES_HI (c : Nat) : Nat := cellBase 7 c + 0x19C
abbrev ETP_CNT_MS_TX_PROTECTED (c : Nat) : Nat := cellBase 7 c + 0x1A0
abbrev ETP_CNT_MS_TX_PROTECTED_HI (c : Nat) : Nat := cellBase 7 c + 0x1A4
abbrev ETP_CNT_MS_TX_ENCRYPTED (c : Nat) : Nat := cellBase 7 c + 0x1A8
abbrev ETP_CNT_MS_TX_ENCRYPTED_HI (c : Nat) : Nat := cellBase 7 c + 0x1AC
abbrev ETP_CNT_MS_TX_DROP (c : Nat) : Nat := cellBase 7 c + 0x1B0
abbrev ETP_CNT_MS_TX_DROP_HI (c : Nat) : Nat := cellBase 7 c + 0x1B4
abbrev ETP_CNT_MS_RX_OK (c : Nat) : Nat := cellBase 7 c + 0x1B8
abbrev ETP_CNT_MS_RX_OK_HI (c : Nat) : Nat := cellBase 7 c + 0x1BC
abbrev ETP_CNT_MS_RX_UNCHECKED (c : Nat) : Nat := cellBase 7 c + 0x1C0
abbrev ETP_CNT_MS_RX_UNCHECKED_HI (c : Nat) : Nat := cellBase 7 c + 0x1C4
abbrev ETP_CNT_MS_RX_LATE (c : Nat) : Nat := cellBase 7 c + 0x1C8
abbrev ETP_CNT_MS_RX_LATE_HI (c : Nat) : Nat := cellBase 7 c + 0x1CC
abbrev ETP_CNT_MS_RX_INVALID (c : Nat) : Nat := cellBase 7 c + 0x1D0
abbrev ETP_CNT_MS_RX_INVALID_HI (c : Nat) : Nat := cellBase 7 c + 0x1D4
abbrev ETP_CNT_MS_RX_NOT_VALID (c : Nat) : Nat := cellBase 7 c + 0x1D8
abbrev ETP_CNT_MS_RX_NOT_VALID_HI (c : Nat) : Nat := cellBase 7 c + 0x1DC
abbrev ETP_CNT_MS_RX_NO_SA (c : Nat) : Nat := cellBase 7 c + 0x1E0
abbrev ETP_CNT_MS_RX_NO_SA_HI (c : Nat) : Nat := cellBase 7 c + 0x1E4
abbrev ETP_CNT_MS_RX_BAD_TAG (c : Nat) : Nat := cellBase 7 c + 0x1E8
abbrev ETP_CNT_MS_RX_BAD_TAG_HI (c : Nat) : Nat := cellBase 7 c + 0x1EC
abbrev ETP_CNT_MS_RX_UNTAGGED (c : Nat) : Nat := cellBase 7 c + 0x1F0
abbrev ETP_CNT_MS_RX_UNTAGGED_HI (c : Nat) : Nat := cellBase 7 c + 0x1F4
abbrev ETP_CNT_MS_RX_DELAYED (c : Nat) : Nat := cellBase 7 c + 0x1F8
abbrev ETP_CNT_MS_RX_DELAYED_HI (c : Nat) : Nat := cellBase 7 c + 0x1FC
abbrev ETP_T1_SLEEP (c : Nat) : Nat := cellBase 7 c + 0x38
abbrev ETP_T1_SLEEP_TC10_EN (c : Nat) : Fld := ⟨(ETP_T1_SLEEP c), 31, 31⟩
abbrev ETP_T1_SLEEP_SLEEP_ACCEPT (c : Nat) : Fld := ⟨(ETP_T1_SLEEP c), 30, 30⟩
abbrev ETP_T1_SLEEP_STATE (c : Nat) : Fld := ⟨(ETP_T1_SLEEP c), 29, 28⟩
abbrev IOM_DELIV0 (n i : Nat) : Nat := (0x2B401000 + 0x80 * n) + 0x0 + 16 * i
abbrev IOM_DELIV0_ADDR_LO (n i : Nat) : Fld := ⟨(IOM_DELIV0 n i), 31, 0⟩
abbrev IOM_DELIV1 (n i : Nat) : Nat := (0x2B401000 + 0x80 * n) + 0x4 + 16 * i
abbrev IOM_DELIV1_EN (n i : Nat) : Fld := ⟨(IOM_DELIV1 n i), 31, 31⟩
abbrev IOM_DELIV1_MASK (n i : Nat) : Fld := ⟨(IOM_DELIV1 n i), 30, 30⟩
abbrev IOM_DELIV1_PEND (n i : Nat) : Fld := ⟨(IOM_DELIV1 n i), 29, 29⟩
abbrev IOM_DELIV1_VF_VEC (n i : Nat) : Fld := ⟨(IOM_DELIV1 n i), 20, 16⟩
abbrev IOM_DELIV1_ADDR_HI (n i : Nat) : Fld := ⟨(IOM_DELIV1 n i), 7, 0⟩
abbrev IOM_DELIV2 (n i : Nat) : Nat := (0x2B401000 + 0x80 * n) + 0x8 + 16 * i
abbrev IOM_DELIV2_DATA (n i : Nat) : Fld := ⟨(IOM_DELIV2 n i), 31, 0⟩
abbrev IOM_RMBOX_LO (n : Nat) : Nat := (0x2B401000 + 0x80 * n) + 0x40
abbrev IOM_RMBOX_LO_ADDR (n : Nat) : Fld := ⟨(IOM_RMBOX_LO n), 31, 6⟩
abbrev IOM_RMBOX_HI (n : Nat) : Nat := (0x2B401000 + 0x80 * n) + 0x44
abbrev IOM_RMBOX_HI_ADDR_HI (n : Nat) : Fld := ⟨(IOM_RMBOX_HI n), 7, 0⟩

end Sys2Proof.Machine
end

