-- ==== Sys2Proof/Machine/State.lean ====
section
/-!
DEFINITION. The state of the module as plain data: the waiting commands, the register file, the memories and the records of
what the blocks hold beside their registers; the reasons to stop; the state right after reset.
-/
namespace Sys2Proof.Machine

/-- The reasons a command stops with a fault. No command of this model does: the spec gives every command an effect or is
silent on an outside unit (then a refusal). -/
inductive Fault where
  /-- Never raised: the interface asks for the type. Safe. -/
  | none
  deriving DecidableEq, Repr

/-- The reasons a command is refused. -/
inductive Refusal where
  /-- Raised by the dispatch of a command that has no meaning yet. Safe. -/
  | notModelled (mnemonic : String)
  /-- Raised by FABRIC_REQUEST for an address inside a window whose behaviour another standard
  gives and this spec does not (the UFS host controller, the IOMMU's own registers). Safe. -/
  | deviceWindow (address : Nat)
  deriving DecidableEq, Repr

/-- A reaction that falls due for a fault (R260 step 5): the unit, the cell, the code and the final class, and whether the
fault was injected with DRY (R274). -/
structure Due where
  unit : Nat
  cell : Option Nat
  code : Nat
  cls : Nat
  src : Nat
  dry : Bool
  deriving DecidableEq, Repr

/-- A finite map from numbers, sparse: unlisted keys read the map's default. -/
abbrev Tbl (α : Type) := List (Nat × α)

/-- A completion a requester received: whether it is an error, the error cause of R63 where it is one, and the data. -/
structure Resp where
  ok : Bool := true
  cause : Nat := 0
  data : List Nat := []
  deriving DecidableEq, Repr

/-- A request that waits for a grant at an arbitration point (R45 to R49): the identity and class it entered with, the region it entered
at, the point where it waits (0 to 3 the interconnects of C, N, P and A, 4 the root), the points that promoted it (R46), and since when
it waits there. -/
structure WaitReq where
  pid : Nat
  ok : Bool
  q : FabReq
  src : Nat
  cls : Nat
  point : Nat
  prom : List Nat := []
  since : Nat := 0
  deriving DecidableEq, Repr

/-- An arbitration point (R42, R45): the requester last served in the safety and the real-time class, the grants left of bulk (0) and
background (1), and the pointer of their weighted round-robin. -/
structure Arb where
  safe : Nat := 0
  rt : Nat := 0
  left : Tbl Nat := []
  ptr : Nat := 0
  deriving DecidableEq, Repr

/-- What the fabric and the module hold beside registers: the time in FAB_CLK cycles (R55), the index of the next free
value, the reactions that fall due, whether the fault being reported was injected (R274), the high halves of the 64-bit
counters (R80), the last completion a requester received. -/
structure Fab where
  now : Nat := 0
  free : Nat := 0
  due : List Due := []
  injecting : Bool := false
  high : Tbl Nat := []
  resp : Resp := {}
  /-- A module reset that a register write or the update engine has started, by its cause (R138, R159, R672). -/
  reset : Option Nat := none
  /-- Units of 64 B each partition has moved in this regulation period (R49), real-time units of each region (R53). -/
  moved : Tbl Nat := []
  rtUsed : Tbl Nat := []
  /-- BLOCK_RESET reactions of the last 10 s, by unit and time (R268). -/
  resets : List (Nat × Nat) := []
  /-- The time each watchdog counts from (R273). -/
  wdog : Tbl Nat := []
  /-- Requests of R63 that wait for a grant, a budget, the DRAM port or a page copy (R45, R49, R205, R213), and the arbitration points. -/
  waiting : List WaitReq := []
  arb : Tbl Arb := []
  /-- A write of MSU_PROT_LOCK waits for the requests that PID 0 made before it (R149). -/
  lockDue : Bool := false
  /-- Faults of cells whose block is in reset: unit, cell, class, dedicated source; recorded when the reset ends (R275). -/
  late : List (Nat × Nat × Nat × Option Nat) := []
  /-- Interconnects that a transfer already granted occupies during this command (R47). -/
  occupied : List Nat := []
  /-- The PHY firmware has started since the PHY die was powered (R145, R437). -/
  phyStarted : Bool := false
  deriving DecidableEq, Repr

/-- A wake that arrives at or after step 4 of a power-down (R98, R112, R121): its kind (R128: 0 a FULL firing, 2 a transceiver or
comparator), source, entry and code, the identifier of a CAN frame, and its VALIDATE. -/
structure LateWake where
  kind : Nat
  src : Nat
  entry : Nat := 0
  code : Nat
  id : Option Nat := none
  val : Nat
  deriving DecidableEq, Repr

/-- What the supply manager holds beside its registers (04): the target of a transition in progress; the comparator inputs at
their active level (bits 0 to 7 WAKE, 8 IGN, 9 FL_WAKE) and the rises latched at or after step 4 (R98, R99); the wakes that
arrived at or after step 4, oldest first; a resume that falls due, and whether its check fails (R94); a
brown-out in progress, retention lost (R89), V_LOGIC below POR; the saved PSM_DIE_EN (R718); FL_WAKE driven (R553) and the
always-on copy of FLW_OUT and of whether CHAIN_MODE is 0; PE_PERST_N is low, as its pull-down holds it (R34); device time and the time base's registers saved at a power-down
(R472); the saved device number (R566). -/
structure Psm where
  trans : Option Nat := none
  levels : Nat := 0
  latched : Nat := 0
  late : List LateWake := []
  resume : Option Bool := none
  brown : Bool := false
  retLost : Bool := false
  por : Bool := false
  dieSaved : Nat := 0
  flDrive : Bool := false
  flwOut : Bool := false
  noChain : Bool := true
  perstLow : Bool := true
  deriving DecidableEq, Repr

/-- The filter of a sample cell (R115): the comparison result, the run of it, the last results (newest first), the filter's output,
y with 6 fraction bits, whether the next sample is the first. -/
structure GldCell where
  r : Bool := false
  run : Nat := 0
  hist : List Bool := []
  out : Bool := false
  y : Nat := 0
  first : Bool := true
  deriving DecidableEq, Repr

/-- A designated slot (R122 to R127): started; it flashes, and is in its on-phase; handed over; its MAX_ON expired; its channel was
retired since the last full wake (R125). -/
structure GldSlot where
  on : Bool := false
  flash : Bool := false
  phase : Bool := false
  handed : Bool := false
  expired : Bool := false
  retired : Bool := false
  deriving DecidableEq, Repr

/-- A copy of the Glade store (R131): its sequence number, the configuration record and the dynamic record, none where not
written: words by register address, and counts with disable bits by source. -/
structure StoreCopy where
  seq : Nat
  cfg : Option (List (Nat × Nat))
  dyn : Option (List (Nat × Nat × Bool))
  deriving DecidableEq, Repr

/-- What Glade holds beside its registers (05): cells and slots; the entries whose condition has been true since an evaluation;
the events that arrived since; false-wake counts by source (R130); open validation windows, source and VALIDATE (R129); the
service actions held during a transition, slots and command (R112); after a full wake, until command passes, Glade still commands its
channels (R127); a Deep Standby command that waits for loads (R126); the time of the last evaluation in which an entry fired, and whether
the expiry of WATCH_MAX was dropped for one since Watch was entered (R121); a save in progress; the two copies of the store (R131). -/
structure Gld where
  cells : Tbl GldCell := []
  slots : Tbl GldSlot := []
  was : Nat := 0
  events : Nat := 0
  fw : Tbl Nat := []
  wins : List (Nat × Nat) := []
  held : List (Nat × Nat) := []
  woke : Bool := false
  deep : Bool := false
  firedAt : Option Nat := none
  maxDropped : Bool := false
  saving : Bool := false
  copyA : Option StoreCopy := none
  copyB : Option StoreCopy := none
  deriving DecidableEq, Repr

/-- What the markers of a Heartwood bank say (R161, R162). -/
inductive BankState where
  | blank | begun | valid | killed
  deriving DecidableEq, Repr

/-- A Heartwood bank in OTP (R161, R162): what its markers say, the key bits and the check value. -/
structure Bank where
  st : BankState := .blank
  key : List Byte := []
  check : List Byte := []
  deriving DecidableEq, Repr

/-- What the vault holds beside its registers (07): the OTP (banks, lifecycle fuses, authority records by their two digests, roles
and fuses, anti-rollback counters); the slots' key material; the slots invalidated or erased since the purge pass began and
the pass as its next slot and visits left (R176); a lifecycle change being programmed (R166); recent health-test failures
(R164) and DRBG requests since the last reseed (R162); the time of the present nonce (R169); derivation from slot 0 refused
(R186); the Heartwood key could not be read at the last vault reset (R163); a slot command that waits for the entropy source, by its
PID and word (R164); the record that AUTH_DATA has taken in and the result that AUTH_CTRL reports, 1 accepted, 2 rejected (R185); the
grants left and the pointer over the job rings (R42); harts and cores halted by a debugger (R166, R691). -/
structure Vlt where
  bankA : Bank := {}
  bankB : Bank := {}
  lifecycle : Nat := 0
  digests : Tbl (List Byte × List Byte) := []
  authStat : Nat := 0x87
  arb : Tbl Nat := []
  mat : Tbl (List Byte) := []
  touched : List Nat := []
  purge : Option (Nat × Nat) := none
  lcNext : Option Nat := none
  fails : List Nat := []
  drbg : Nat := 0
  nonceAt : Nat := 0
  noDerive : Bool := false
  heartBad : Bool := false
  slotDue : Option (Nat × Nat) := none
  authData : List Byte := []
  authRes : Nat := 0
  rrLeft : Tbl Nat := []
  rrPtr : Nat := 0
  halted : List Nat := []
  deriving DecidableEq, Repr

/-- What the memory block holds beside its registers (08): for each 64 B line of DRAM the memory key (slot and generation) it was
last written under, and each partition's key generation (R208, R209); poisoned lines of DRAM and SRAM (R203); the table of
pages with corrected errors and their times, newest first (R205); pages whose copy is in progress or waits; the scrub's next
line (R204); requests held at the DRAM port (R213). -/
structure Mem where
  lineKey : Tbl Nat := []
  keyGen : Tbl Nat := []
  poison : List Nat := []
  table : List (Nat × List Nat) := []
  retiring : List Nat := []
  scrub : Nat := 0
  held : Bool := false
  /-- Words of the TCMs, by address / 4, that hold an uncorrectable error (R218). -/
  tcmBad : List Nat := []
  /-- Re-keys not yet reported done, and whether the key is already swapped (R209). -/
  rekey : List (Nat × Bool) := []
  deriving DecidableEq, Repr

/-- The interrupt controllers of Canopy (R199, R200; notes/assumptions/84.md): the APLIC's stored words by domain and offset (the supervisor
domain at 0x4000), its pending and enabled sources as 1024·domain + source, the wired lines as it last saw them; the identities
pending in each IMSIC file, by 9·hart + file (0 machine, 1 supervisor, 2 to 8 guests). -/
structure Aia where
  word : Tbl Nat := []
  pend : List Nat := []
  en : List Nat := []
  lines : List Nat := []
  files : Tbl (List Nat) := []
  deriving DecidableEq, Repr

/-- What a triplet holds beside its registers (09): the core that a resynchronisation copies, and whether it is a re-arm (R224,
R226); the core that a self-test slice takes out of the vote (R247); the injections' positions (R229); claimed sources by
256·set + number (R233); register sets whose timer interrupt is asserted (R234); DMA channels that a fatal error or restart ends
(R237); the state that a debug halt of the voted triplet interrupted (R691); a core resynchronised or retired since the last
compare point (R246). -/
structure Triplet where
  resync : Option (Nat × Bool) := none
  slice : Option Nat := none
  vPos : Nat := 0
  cPos : Nat := 0
  claimed : List Nat := []
  timer : List Nat := []
  ending : List Nat := []
  stopped : Option Nat := none
  shaken : Bool := false
  deriving DecidableEq, Repr

/-- What the pair controller knows of a triplet at a compare point: its vector's words, whether it is valid, µs graded GOOD
without a break, whether the present cycle counts whole (R243 to R246). -/
structure ParSide where
  words : List Nat := []
  valid : Bool := false
  goodUs : Nat := 0
  whole : Bool := false
  deriving DecidableEq, Repr

/-- What the pair controller holds beside its registers (10): both sides; the cycle length in force in units of 250 µs; whether
this cycle's compare point was taken, whether both vectors matched there, and the run of matches; the latched snapshot that is
not yet written; a unit in progress, by its triplet, and whether this cycle had one or counted as skipped (R247). -/
structure Par where
  a : ParSide := {}
  b : ParSide := {}
  len : Nat := 4
  compared : Bool := false
  matched : Bool := false
  run : Nat := 0
  snap : Option (List Byte) := none
  unit : Option Nat := none
  tried : Bool := false
  deriving DecidableEq, Repr

/-- What the output of a load channel does: off, on in its mode, turning off through the clamp, turning off along the soft
ramp (R281, R303, R320 to R323). -/
inductive Out where
  | off | on | clamp | ramp
  deriving DecidableEq, Repr

/-- Why the governor or the die holds a channel off: not shed, shed for a budget (R299, R300), held at admission (R299), shed
for temperature (R318). -/
inductive Shed where
  | none | budget | held | heat
  deriving DecidableEq, Repr

/-- What a load channel holds beside its registers (12 to 14). A pair's state stands in its leader's record. -/
structure Chan where
  out : Out := .off
  /-- The switch conducts now: always in a continuous mode, in the on-phase of PWM. -/
  phase : Bool := false
  /-- A command was stored while a frozen instance holds the channel (R637). -/
  frz : Bool := false
  /-- Waits for the next aligned period start (R290, R288). -/
  wait : Bool := false
  /-- The command in force and the source of a stored one (R282, R284). -/
  applied : Nat := 0
  nextSrc : Nat := 0
  /-- A stored command waits for the channel to be fully off (R284). -/
  after : Bool := false
  /-- In the safe state of R302; put there by a bound-signal timeout. -/
  safe : Bool := false
  bindTo : Bool := false
  shed : Shed := .none
  /-- Governor evaluations since the channel was shed, and since it turned on (100 µs each, R298). -/
  shedEvals : Nat := 0
  onEvals : Nat := 100
  tripped : Bool := false
  /-- The load's last trip was detected in this cell (R41, R330). -/
  detected : Bool := false
  retryWait : Bool := false
  coolWait : Bool := false
  /-- Milliseconds left of the cooling wait (R327). -/
  coolMs : Nat := 0
  /-- A stored command waits for the gate of R327, without a retry. -/
  gate : Bool := false
  /-- Switched off with its command kept: returns per R329 row 2. -/
  hold : Bool := false
  /-- A restart has taken place since the retry budget was last full. -/
  restarted : Bool := false
  /-- Valve peak phase; motor start window; inrush window; time on the window timer in µs. -/
  peak : Bool := false
  win : Bool := false
  inrush : Bool := false
  winUs : Nat := 0
  /-- Motor ramp-down in progress (R287). -/
  down : Bool := false
  /-- SOFT_STOP, LSW_CH_MOTOR and LSW_CH_VALVE as they stood at the last transition of ON (R286). -/
  softStop : Bool := false
  motor : Nat := 0
  valve : Nat := 0
  /-- Time in limit, and conduction without the loop active, in µs (R309); the previous sample was high (R308). -/
  limUs : Nat := 0
  freeUs : Nat := 0
  high : Bool := false
  /-- Start, length and on-time of the PWM period in progress, in ns of device time (R289). -/
  start : Nat := 0
  period : Nat := 0
  onNs : Nat := 0
  /-- The duty of the latest recomputation, applied from the next period start (R346). -/
  effNext : Nat := 0
  /-- The turn-off in progress: its current in µA, its budget in µJ (R321), its source a trip, its start on the clamp fixed by R324. -/
  i0 : Nat := 0
  budUJ : Nat := 0
  tripOff : Bool := false
  fixed : Bool := false
  /-- The soft ramp runs at double slope (R323). -/
  steep : Bool := false
  /-- Samples of the present millisecond: sum of codes, of squared codes, count (R294, R312). -/
  sum : Nat := 0
  sq : Nat := 0
  num : Nat := 0
  /-- Samples of the present PWM period and of the present on-phase without its first 20 µs (R294, R344). -/
  perSum : Nat := 0
  perNum : Nat := 0
  onSum : Nat := 0
  onNum : Nat := 0
  /-- The last ten 100 µs of samples for the governor's sliding mean, newest first, and the present 100 µs (R298). -/
  slots : List (Nat × Nat) := []
  slot : Nat × Nat := (0, 0)
  /-- The accounted current in µA (R298). -/
  acc : Nat := 0
  /-- The modelled wire temperature, plus 64 °C, times 2^32 (R312). -/
  t : Nat := 0
  /-- The repetitive clamp accumulator in µJ (R325). -/
  eRep : Nat := 0
  /-- An off-state test in progress; the runs of results 2, 3, not 2 and not 3 (R340). -/
  test : Bool := false
  runOl : Nat := 0
  runSb : Nat := 0
  runNotOl : Nat := 0
  runNotSb : Nat := 0
  /-- The on-state comparison was below OLON_I since; the last comparison was at or above it (R343). -/
  olonRun : Bool := false
  olonHigh : Bool := false
  deriving DecidableEq, Repr

/-- What a power die holds beside its registers: powered and not gate-locked (R100, R718); whether it missed the heartbeat and
that cause has not ended (R271); why it holds its channels off: the stud below BAT_OK (R91), OV_LONG (R88), a power-down in
progress (R97), a ground loss until a module reset (R302), V_LOGIC below BROWN (R125); held in reset until the last channel is off (R139); its oscillator runs (R100); its firmware was started (R341); when it last powered down; what the interface die saved of its channels at its last
power-down: wire temperature and the two causes of the latch (R314, R317). -/
structure Die where
  on : Bool := false
  hbLost : Bool := false
  batLow : Bool := false
  ovLong : Bool := false
  down : Bool := false
  gnd : Bool := false
  brown : Bool := false
  resetting : Bool := false
  osc : Bool := true
  fw : Bool := false
  downAt : Nat := 0
  saved : List (Nat × Bool × Bool) := []
  deriving DecidableEq, Repr

/-- The load side: channels by g = 16·die + cell, dice, the governor's latest sums in µA for BAT1, BAT2 and the module
(R298), and the signal updates under way to bound channels: channel, value, PID of the update, signal address (R296, R508). -/
structure Lsw where
  ch : Tbl Chan := []
  die : Tbl Die := []
  bat1 : Nat := 0
  bat2 : Nat := 0
  mod : Nat := 0
  bound : List (Nat × Nat × Nat × Nat) := []
  deriving DecidableEq, Repr

/-- The filter of a sense input (R357): the comparison result, what STATE shows before INVERT, the run of a new result, y with 4
fraction bits, whether the next sample is the first. -/
structure SniIn where
  r : Bool := false
  out : Bool := false
  run : Nat := 0
  y : Nat := 0
  first : Bool := true
  deriving DecidableEq, Repr

/-- What a CAN channel holds of a transmit slot (0 to 31 dedicated, 32 + q queue): attempts that failed or succeeded, whether it
was cancelled while on the bus, its order of entry, the stamps of its last start of frame. -/
structure TxSlot where
  attempts : Nat := 0
  failed : Nat := 0
  cancelled : Bool := false
  order : Nat := 0
  ts : Nat := 0
  dt : Nat := 0
  dtValid : Bool := false
  deriving DecidableEq, Repr

/-- A frame being received, after its filtering (R393, R394): the header, the target (0 reject, 1 FIFO 0, 2 FIFO 1, 3 buffer),
whether it goes to the router, the element that decided, its buffer and its stamps; whether run-ahead work was started for
it, and under which epoch (R506). -/
structure CanRx where
  f : CanFrame
  target : Nat
  router : Bool
  noMatch : Bool
  idx : Nat
  buf : Nat
  prio : Bool
  ts : Nat
  dt : Nat
  dtValid : Bool
  ahead : Option Nat
  deriving DecidableEq, Repr

/-- A lock on a FIFO's get element, the event FIFO's or a dedicated buffer (R397): the PID that holds it, and the buffer. -/
structure CanLock where
  pid : Nat
  buf : Nat
  deriving DecidableEq, Repr

/-- What a CAN channel holds beside its registers (16, 17). -/
structure CanCh where
  tx : Option Nat := none
  rx : Option CanRx := none
  slots : Tbl TxSlot := []
  nextOrder : Nat := 0
  /-- Consecutive attempts that ended in an ACK error (R377). -/
  ackRun : Nat := 0
  /-- Frames stored since enable (R390). -/
  seq : Nat := 0
  lock0 : Option CanLock := none
  lock1 : Option CanLock := none
  lockE : Option CanLock := none
  lockB : Option CanLock := none
  /-- Times of the bus-offs, for BO_IN_WIN (R381). -/
  offs : List Nat := []
  /-- The time the timestamp counter counts from, and its value while stopped (R383). -/
  tsStart : Nat := 0
  tsHeld : Nat := 0
  deriving DecidableEq, Repr

/-- A LIN frame in progress: identifier, direction (0 ignored, 1 publish, 2 subscribe), length, event-triggered, sporadic, and
the published data with its response_error bit (R409, R410, R412). -/
structure LinFrame where
  id : Nat
  dir : Nat
  len : Nat
  evt : Bool
  spor : Bool
  data : List Byte
  deriving DecidableEq, Repr

/-- What a LIN channel holds beside its registers (18): the frame in progress; the table's first and next entry; a switch that
waits for the end of the slot; a header delayed by a frame that overran; response_error (R412); a sleep that waits for the
frame; the hold of 100 ms after a wake pulse (R414). -/
structure LinCh where
  cur : Option LinFrame := none
  first : Nat := 0
  next : Nat := 0
  switch : Bool := false
  late : Bool := false
  err : Bool := false
  sleepReq : Bool := false
  hold : Bool := false
  deriving DecidableEq, Repr

/-- A key that an SRT_KEY or MACsec SA entry loaded: the slot, its generation then, and the material (R434, R495). -/
structure LoadedKey where
  slot : Nat
  gen : Nat
  type : Nat
  mat : List Byte
  deriving DecidableEq, Repr

/-- A frame of bytes, destination MAC first, without the FCS. -/
abbrev Frame := List Byte

/-- A frame in the switch, from its decision to its last copy (R445, R459): its ingress port, its bytes, whether it was decided
by cut-through and has not ended, whether it bypassed the decision (R476, R542), VID, colour, plane, table version, the FDB
index, group and stream whose entry had IR = 1, and the device time of its first byte. -/
structure SwFrame where
  port : Nat
  data : Frame
  isOpen : Bool := false
  direct : Bool := false
  vid : Nat := 0
  colour : Nat := 0
  plane : Nat := 0
  version : Nat := 0
  mFdb : Option Nat := none
  mGrp : Option Nat := none
  mStr : Option Nat := none
  time : Nat := 0
  deriving DecidableEq, Repr

/-- A copy of a frame at an output (R442, R454): the frame, the cells it holds (or reserved), its cells in the output buffer,
whether it carries an ECN mark, whether it was queued when the link was lost (R456). -/
structure SwCopy where
  fid : Nat
  cells : Nat
  inBuf : Nat := 0
  ecn : Bool := false
  old : Bool := false
  deriving DecidableEq, Repr

/-- Cells of a frame in the staging of its input and plane (R443): those that have not crossed, the outputs, the outputs that
still need the head cell, and whether they lie in the multicast queue. -/
structure Staged where
  fid : Nat
  cells : Nat
  outs : List Nat
  need : List Nat
  mc : Bool
  deriving DecidableEq, Repr

/-- A running gate control list (R462): the start of its cycle and of its entry in device time, the
pending change time, and the base time, length and cycle that it runs with. -/
structure GclRun where
  cycle : Nat := 0
  entry : Nat := 0
  change : Nat := 0
  base : Nat := 0
  len : Nat := 1
  cyc : Nat := 1000000
  deriving DecidableEq, Repr

/-- A frame that waits for its decision: ingress port, the TX queue of a C port, its bytes, the device time of its first byte. -/
structure SwIn where
  port : Nat
  queue : Option Nat := none
  data : Frame
  time : Nat := 0
  deriving DecidableEq, Repr

/-- A frame on its way into an RX ring that waits for descriptors (R431): the bytes left, whether none is written yet, its check
results and traffic class as word 4 holds them, and its device time. -/
structure RxWait where
  data : Frame
  first : Bool
  bits : Nat
  time : Nat
  deriving DecidableEq, Repr

/-- What the switch and the ports hold beside their registers (19, 20): the frames by number and the next number, the output
queues by 8·port + TC in order of decision, the staging by 32·plane + input, frames that wait for their decision, the copy each
port sends while not whole; the round-robin pointers by 32·plane + port and the inputs whose turn is unicast (R447); the tables
(R451), FDB entries' last use, held commands (R459), entries that read as invalid (R463); policer buckets in bytes times 10^6
and their times, none while full (R453), queue averages with 8 fraction bits (R454); the plane map and hash fields in force while a change waits
(R449); gate lists (R462); MACsec keys by 32·port + SA; frames dropped by checks 1 to 4 in this millisecond (R421); the grants of
the C ports' TX rings (R426); the bytes each port sent last; frames that wait for RX descriptors by 8·port + queue (R431); the version that a drain barrier
waits for (R461). -/
structure SwQueues where
  frames : Tbl (Option SwFrame) := []
  next : Nat := 1
  out : Tbl (List SwCopy) := []
  stage : Tbl (List Staged) := []
  inp : List SwIn := []
  cut : List Nat := []
  tx : Tbl (Option SwCopy) := []
  gptr : Tbl Nat := []
  aptr : Tbl Nat := []
  ucTurn : Tbl Bool := []
  vlan : Tbl (List Nat) := [(1, [0xC1FFFFFF, 0x1FFFFFF, 0])]
  fdb : Tbl (List Nat) := []
  grp : Tbl (List Nat) := []
  strm : Tbl (List Nat) := []
  used : Tbl Nat := []
  holds : List (Nat × Nat × Nat × List Nat) := []
  bad : List (Nat × Nat) := []
  pol : Tbl (Option (Nat × Nat × Nat)) := []
  avg : Tbl Nat := []
  pmap : Option (List Nat × Nat) := none
  gcl : Tbl GclRun := []
  keys : Tbl (Option LoadedKey) := []
  drops : Tbl Nat := []
  rr : Tbl (Tbl Nat × Nat) := []
  last : Tbl Frame := []
  rxWait : Tbl (Option RxWait) := []
  drain : Nat := 0
  deriving DecidableEq, Repr

/-- A PDU on its way into the signal router: its source port, identifier and data (R487), and whether run-ahead work of its
stages 2 and 6 is used (R506). -/
structure Pdu where
  port : Nat
  xtd : Bool
  id : Nat
  data : List Byte
  ahead : Bool := false
  deriving DecidableEq, Repr

/-- What the time base holds beside its registers (21): device time and the offset that a slew still has to add, in units of
2^-40/6 ns (R468, R469); the latched high word; the stamps of four words, oldest first (R475); FL_SYNC's level as driven by this
module; dice updates missed are events. -/
structure Tmb where
  acc : Nat := 0
  rem : Int := 0
  latch : Nat := 0
  fifo : List (List Nat) := []
  sync : Bool := false
  deriving DecidableEq, Repr

/-- What the router holds of a transmit descriptor: MIN_GAP of its last send runs; a send waits for its end; a send waits for
its destination; a bundled record waits (R488, R502, R503). -/
structure SrtTx where
  gap : Bool := false
  due : Bool := false
  busy : Bool := false
  deriving DecidableEq, Repr

/-- A way of the route cache: its GSID, its entry, whether it is pinned (R521, R526). -/
structure RcWay where
  gsid : Nat
  entry : List Nat
  pin : Bool
  deriving DecidableEq, Repr

/-- What the signal router holds beside its registers (22, 23): PDUs that wait; the staged value and read address of each PID
(R501); descriptors whose first counter passes (R493); transmit descriptors; the records of a bundle (R488); the keys loaded;
the store's cached slots (R499); the route cache by set, most recently used first, and the destination list lines, most
recently used first (R521); the fill bank and the bank that applies (R524), a preload's start and count (R526); words of the
window with an uncorrectable error (R509). -/
structure Srt where
  input : List Pdu := []
  stage : Tbl Nat := []
  rdAddr : Tbl Nat := []
  fresh : List Nat := []
  tx : Tbl SrtTx := []
  bundle : List (List Byte) := []
  keys : Tbl (Option LoadedKey) := []
  slots : Tbl (List Nat) := []
  rc : Tbl (List RcWay) := []
  dl : List (Nat × List Nat) := []
  fill : Tbl (List Nat) := []
  applying : Tbl (List Nat) := []
  preload : Option (Nat × Nat) := none
  bad : List Nat := []
  /-- Transmit descriptors made due by the PDU or update under way (R504). -/
  pend : List Nat := []
  /-- Writes of SRT_SIG_WR that a frozen instance holds: PID and word (R637). -/
  heldWr : List (Nat × Nat) := []
  deriving DecidableEq, Repr

/-- What an NM channel holds beside its registers (24): its PDUs carry RMR (R544), and the sources of valid NM PDUs with their
time of arrival, newest first (R549). -/
structure NmCh where
  rmr : Bool := false
  recent : List (Nat × Nat) := []
  since : Option Nat := none
  deriving DecidableEq, Repr

/-- What network management holds beside its registers: channels, and the event log of four words an entry, oldest first
(R556). -/
structure Nmc where
  ch : Tbl NmCh := []
  log : List (List Nat) := []
  deriving DecidableEq, Repr

/-- A read that this module has outstanding on the chain (R577): its TAG, its target, what asked: 0 a requester, 1 the barrier of a
record, 2 a host read, 3 the end of COPY, 4 another device's read towards a PCIe host; and a number for it (the context, the
record, the tracker), and the bytes asked for. -/
structure ChainRead where
  tag : Nat
  dev : Nat
  kind : Nat
  idx : Nat
  len : Nat
  deriving DecidableEq, Repr

/-- What a Finza port holds beside its registers (R569 to R571): packets that wait to be sent, with whether they were forwarded;
packets sent and not acknowledged; the next LSEQ to send and the one expected; whether a NAK is outstanding; replays of the
oldest packet without progress; packets accepted since the last ACK; the partner's credits by pool; the grants left and the
pointer of the round-robin, and whether a forwarded packet's turn is next. -/
structure LinkPort where
  wait : List (Pkt × Bool) := []
  unacked : List Pkt := []
  txSeq : Nat := 0
  rxSeq : Nat := 0
  nak : Bool := false
  replays : Nat := 0
  acc : Nat := 0
  cred : Tbl Nat := []
  left : Tbl Nat := []
  ptr : Nat := 0
  fwdTurn : Bool := false
  deriving DecidableEq, Repr

/-- A tunnel frame being reassembled (R578): its number, the next segment, its length, the bytes so far. -/
structure Reasm where
  id : Nat
  seg : Nat
  len : Nat
  data : List Byte
  deriving DecidableEq, Repr

/-- What the chain block holds beside its registers (25): packets that the module originated and that wait for their route; the
tunnel's next frame number, learned source addresses with their devices and times of use, and frames being reassembled. -/
structure Flk where
  out : List Pkt := []
  frameId : Nat := 0
  learn : List (Nat × Nat × Nat) := []
  reasm : Tbl (Option Reasm) := []
  port : Tbl LinkPort := []
  /-- Own reads outstanding, and those that wait for a TAG. -/
  reads : List ChainRead := []
  waiting : List (ChainRead × Pkt) := []
  /-- Devices beyond a break of a closed ring, which a PCIe host reaches through this Head (R576). -/
  far : Nat := 0
  deriving DecidableEq, Repr

/-- A posted write sent on the chain whose fate is not known (R592, R597): its record, its number, its target, its PID, address
and length, the instance's generation, whether it was a signal update, whether the host made it. -/
structure ChainWrite where
  recN : Nat
  wseq : Nat
  dev : Nat
  pid : Nat
  addr : Nat
  len : Nat
  gen : Nat
  isSig : Bool
  host : Bool := false
  deriving DecidableEq, Repr

/-- A write-sync barrier under way (R597): its record, the devices whose answer is missing, the last number it covers, whether it
came from the host, and the read request of another device that it answers. -/
structure Barrier where
  recN : Nat
  devs : List Nat
  last : Nat
  host : Bool
  reply : Option Pkt := none
  deriving DecidableEq, Repr

/-- A read of the host, or an AtomicOp of it, that holds a tracker or waits for one (R598, R603): a number for it, the function, the
fabric address, the length, what an atomic does with its operand bytes; whether it is on the chain, and there the packets still to
come and the bytes that came. -/
structure HostRd where
  id : Nat
  func : Nat
  addr : Nat
  len : Nat
  op : Option (Nat × List Byte)
  chain : Bool
  need : Nat := 0
  got : List Nat := []
  deriving DecidableEq, Repr

/-- The errors that a function's AER logs (R591). -/
inductive AerErr where
  | unsupported | abort | poisoned | timeout | urReceived | caReceived
  deriving DecidableEq, Repr

/-- An AER event (R591): the function, the error, whether it is signalled as Non-Fatal (else as Advisory Non-Fatal), and the request whose
header is logged: 0 a host read, 1 a host write, 2 an AtomicOp, 3 a read of the module; its address and length. -/
structure AerEvent where
  fn : Nat
  err : AerErr
  nonFatal : Bool
  kind : Nat
  addr : Nat
  len : Nat
  deriving DecidableEq, Repr

/-- A host write that was accepted and waits (R593, R603): the function, its record and number, the address and the bytes. -/
structure HeldWr where
  func : Nat
  recN : Nat
  wseq : Nat
  addr : Nat
  data : List Byte
  deriving DecidableEq, Repr

/-- A read of the module towards the host (R600, R601): a number for it, the source device, its TAG there, the length, and the
attempts withdrawn. -/
structure DevRd where
  id : Nat
  dev : Nat
  tag : Nat
  len : Nat
  tries : Nat
  deriving DecidableEq, Repr

/-- What the host bridge holds beside its registers (26): by record the next write sequence number and the first of the present
generation; posted writes on the chain; the first record's number since the last barrier and records with an overflow;
barriers; host reads with a tracker and waiting; the module's reads with a tracker and withdrawn; the next number of a read;
host writes that wait for a semaphore; the MSI-X entries by 2048·function + vector (address low and high, data, control),
pending bits, and whether functions have MSI-X and their memory space enabled. -/
structure Hbr where
  wseq : Tbl Nat := []
  first : Tbl Nat := []
  sent : List ChainWrite := []
  err : Tbl (Option Nat) := []
  ovf : List Nat := []
  barriers : List Barrier := []
  reads : List HostRd := []
  waitRd : List HostRd := []
  devRd : List DevRd := []
  backoff : List DevRd := []
  next : Nat := 0
  heldWr : List HeldWr := []
  /-- Packets of a Finza host that wait for a semaphore (R604). -/
  heldPkt : List Pkt := []
  msix : Tbl (List Nat) := []
  pba : List Nat := []
  msixOn : List Nat := []
  /-- The AER events of the functions, newest first (R591; notes/assumptions/100.md). -/
  aer : List AerEvent := []
  /-- The levels of the wired sources of R200 that the PF's vectors last saw (R590). -/
  wired : List Nat := []
  deriving DecidableEq, Repr

/-- What the instance manager holds beside its registers (27, 28): vectors raised and not yet delivered, instance and k (R621);
instances whose function line was high (R621); instances being removed (R628); instances whose ACKED is set (R618); by instance the page addresses of the log: base
and pages, bitmap, swap address, and LOG_STAT (R643 to R645); instances restored and not yet resumed, with their items (R641);
COPY under way with the code it has met (R647); whether the SAVE
under way also goes to the journal (R648). -/
structure Iom where
  vecs : List (Nat × Nat) := []
  lines : List Nat := []
  removing : List Nat := []
  acked : List Nat := []
  logs : Tbl (List Nat) := []
  restored : Tbl (List (Nat × Nat)) := []
  copy : Option Nat := none
  jrnl : Bool := false
  deriving DecidableEq, Repr

/-- A part of the boot record's part table (R658): PRESENT, TRIAL, ACTIVE (slot B), the SVN, VERSION, LEN and DIGEST of the active
image. -/
structure PartEntry where
  present : Bool := true
  trial : Bool := false
  active : Bool := false
  svn : Nat := 0
  version : Nat := 0
  len : Nat := 0
  digest : List Byte := []
  deriving DecidableEq, Repr

/-- A boot record copy (R658): SEQ, STATE, TRIAL_BOOTS, MAX_BOOTS, CONF_REQ, CONFIRM_WINDOW, CONTAINER_ID, the part table. -/
structure BootRec where
  seq : Nat := 0
  state : Nat := 0
  boots : Nat := 0
  maxBoots : Nat := 0
  confReq : Nat := 0
  window : Nat := 0
  cid : Nat := 0
  parts : Tbl PartEntry := []
  deriving DecidableEq, Repr

/-- A container being received, or relayed without being staged (R664, R665, R668): its chunk 0, the next data chunk and its
digest, and whether it is staged. -/
structure Stream where
  hdr : List Byte
  next : Nat := 1
  dig : List Byte
  stage : Bool
  deriving DecidableEq, Repr

/-- A journal record (R679): KIND, PART, CONTAINER_ID, the payload. -/
structure JournalRec where
  kind : Nat
  part : Nat := 0
  cid : Nat := 0
  data : List Byte := []
  deriving DecidableEq, Repr

/-- What the update engine holds beside its registers (29): the two copies of the boot record, none where not valid; the slots by
2·part + slot (1 slot B), each with the chunk 0 that installed it and its image (what the unit shipped with is not listed);
LU 4: chunk 0 of the container staged and the images by part; the containers being received by OPEN and by relay; relayed
chunks that are arriving, by number; the steps left of a commit, and whether it waits for the check of the staged images after a
reset; the end of the confirmation window in ns of device time; the journal, oldest first; the open transaction. -/
structure Update where
  copyA : Option BootRec := some { seq := 1 }
  copyB : Option BootRec := some { seq := 0 }
  slots : Tbl (Option (List Byte × List Byte)) := []
  hdr : List Byte := []
  staged : Tbl (List Byte) := []
  own : Option Stream := none
  rel : Option Stream := none
  relay : List (Nat × List Byte) := []
  steps : List Nat := []
  recheck : Bool := false
  window : Option Nat := none
  journal : List JournalRec := []
  txn : Option (List Byte) := none
  deriving DecidableEq, Repr

/-- What the blocks hold beside their registers. -/
structure Blocks where
  /-- The fabric and the module as a whole. -/
  fab : Fab := {}
  /-- The supply manager (04). -/
  psm : Psm := {}
  /-- Glade (05). -/
  gld : Gld := {}
  /-- The vault (07). -/
  vlt : Vlt := {}
  /-- The memory block (08). -/
  mem : Mem := {}
  /-- Canopy's interrupt controllers (08). -/
  aia : Aia := {}
  /-- The triplets (09). -/
  iw : Tbl Triplet := []
  /-- The pair controller (10). -/
  par : Par := {}
  /-- The load channels and power dice (12 to 14). -/
  lsw : Lsw := {}
  /-- The sense inputs (15). -/
  sni : Tbl SniIn := []
  /-- The CAN channels (16, 17). -/
  can : Tbl CanCh := []
  /-- The LIN channels (18). -/
  lin : Tbl LinCh := []
  /-- Frames held by the ports and the switch core (19, 20). -/
  swq : SwQueues := {}
  /-- The time base (21). -/
  tmb : Tmb := {}
  /-- The signal router (22, 23). -/
  srt : Srt := {}
  /-- Network management (24). -/
  nmc : Nmc := {}
  /-- The Finza link (25). -/
  flk : Flk := {}
  /-- The host bridge (26). -/
  hbr : Hbr := {}
  /-- Instances (27, 28). -/
  iom : Iom := {}
  /-- The update engine (29). -/
  fw : Update := {}
  deriving DecidableEq, Repr

/-- The state of the module. `pending` is the queue of waiting commands, first in first out. -/
structure State where
  pending : List Instr
  regs : List (Nat × Word)
  mem : List Host.Cell
  b : Blocks
  deriving DecidableEq, Repr

/-- The machine right after reset: power-on reset has set everything, and the module reset it starts is still held (R138,
R143). Memory and registers list nothing: every register reads its reset value, every byte what memDefault says. -/
def State.reset : State := ⟨[], [], [], {}⟩

end Sys2Proof.Machine
end

