-- ==== Sys2Proof/Machine/Ops.lean ====
section
/-!
DEFINITION. The sparse maps that hold registers and memory, the primitive updates of the state, and updates as data.
-/
namespace Sys2Proof.Machine

/-! ## The sparse maps -/

/-- The value at key `a` of a map whose unlisted keys read as `d`. -/
def mapGet {α : Type} (d : α) : List (Nat × α) → Nat → α
  | [], _ => d
  | (k, v) :: t, a => if k = a then v else mapGet d t a

/-- Insert an entry before the first larger key. -/
def mapIns {α : Type} : List (Nat × α) → Nat → α → List (Nat × α)
  | [], a, v => [(a, v)]
  | (k, w) :: t, a, v => if a < k then (a, v) :: (k, w) :: t else (k, w) :: mapIns t a v

/-- Drop the entry of key `a`. -/
def mapDel {α : Type} (m : List (Nat × α)) (a : Nat) : List (Nat × α) := m.filter fun e => e.1 != a

/-- Write `v` at key `a`, keeping the keys strictly rising and no entry equal to `d`. -/
def mapPut {α : Type} [DecidableEq α] (d : α) (m : List (Nat × α)) (a : Nat) (v : α) : List (Nat × α) :=
  if v = d then mapDel m a else mapIns (mapDel m a) a v

/-- Keys strictly rising, every one above `lo` where `lo` is given. -/
def risingFrom {α : Type} : Option Nat → List (Nat × α) → Bool
  | _, [] => true
  | lo, (k, _) :: t => (match lo with | none => true | some l => decide (l < k)) && risingFrom (some k) t

/-- What a byte of memory reads as that nothing has written: in the window of SWC the reset values of R454 (W = 9 and QMAX = 8192
of a queue, MIN and MAX = 131071 of a profile), elsewhere 0 (notes/assumptions/4.md). -/
def memDefault (a : Nat) : Byte :=
  if 0x38804000 ≤ a ∧ a < 0x38804200 then (match a % 4 with | 0 => 0xFF | 1 => 0xFF | 2 => 1 | _ => 0)
  else if 0x38804200 ≤ a ∧ a < 0x38804840 then (match a % 8 with | 3 => 9 | 5 => 0x20 | _ => 0)
  else 0

/-- The canonical form of memory: addresses strictly rising, no byte listed that an unlisted address would read. -/
def Memory.wf (m : List Host.Cell) : Bool := risingFrom none m && m.all fun c => c.2 != memDefault c.1

/-- What the register at `a` reads as while the register file does not list it. -/
def regDefault (a : Nat) : Word := BitVec.ofNat 32 (regReset a)

/-- The canonical form of the register file: addresses strictly rising, no register listed at its reset value, and no
reserved bit of a register differing from its reset value. -/
def Regs.wf (r : List (Nat × Word)) : Bool :=
  risingFrom none r && r.all fun e => e.2 != regDefault e.1 && e.2 &&& ~~~ BitVec.ofNat 32 (regMask e.1) == regDefault e.1 &&& ~~~ BitVec.ofNat 32 (regMask e.1)

/-- A word with its reserved bits at their reset value. -/
def maskReserved (a : Nat) (v : Word) : Word :=
  (v &&& BitVec.ofNat 32 (regMask a)) ||| (regDefault a &&& ~~~ BitVec.ofNat 32 (regMask a))

/-! ## Updates -/

/-- The primitive updates: a register, every listed register, a byte of memory, dropping bytes of memory (they read as never
written), and the blocks' own records. The queue of commands has none. -/
inductive Act where
  | reg (a : Nat) (v : Word)
  | regsMap (f : Nat → Word → Word)
  | mem (a : Nat) (v : Byte)
  | memDrop (p : Nat → Bool)
  | blocks (f : Blocks → Blocks)

/-- What a primitive update does. -/
def Act.run : Act → State → State
  | .reg a v, s => { s with regs := mapPut (regDefault a) s.regs a (maskReserved a v) }
  | .regsMap f, s =>
    { s with regs := s.regs.foldl (fun m e => mapPut (regDefault e.1) m e.1 (maskReserved e.1 (f e.1 e.2))) [] }
  | .mem a v, s => { s with mem := mapPut (memDefault a) s.mem a v }
  | .memDrop p, s => { s with mem := s.mem.filter fun c => !p c.1 }
  | .blocks f, s => { s with b := f s.b }

/-- An update of the state: nothing, a primitive update, one update after another, or an update chosen by reading the
state. Every command's effect is one of these, so what holds of the primitive updates holds of every command. -/
inductive Upd where
  | skip
  | act (a : Act)
  | seq (u v : Upd)
  | read (k : State → Upd)

/-- The state after an update. -/
def Upd.run : Upd → State → State
  | .skip, s => s
  | .act a, s => a.run s
  | .seq u v, s => v.run (u.run s)
  | .read k, s => (k s).run s

/-- Updates one after another. -/
def seqs : List Upd → Upd
  | [] => .skip
  | u :: us => .seq u (seqs us)

/-- The update for every element of a list, in order. -/
def forEach {α : Type} (l : List α) (f : α → Upd) : Upd := seqs (l.map f)

/-- The update for every number below `n`, in order. -/
def forN (n : Nat) (f : Nat → Upd) : Upd := forEach (List.range n) f

/-- The update where the condition holds. -/
def whenU (c : Bool) (u : Upd) : Upd := if c then u else .skip

/-- An update of the blocks' records. -/
def upd (f : Blocks → Blocks) : Upd := .act (.blocks f)

end Sys2Proof.Machine
end

