-- ==== Sys2Proof/Machine/Operands.lean ====
section
/-!
DEFINITION. How commands reach what they name: registers and their fields, counters, bytes of memory, free values, time (R80).
-/
namespace Sys2Proof.Machine

/-! ## Registers -/

/-- Bits `hi:lo` of a number. -/
def bits (v hi lo : Nat) : Nat := v / 2 ^ lo % 2 ^ (hi - lo + 1)

/-- A number with its bits `hi:lo` replaced. -/
def withBits (v hi lo x : Nat) : Nat := v - bits v hi lo * 2 ^ lo + x % 2 ^ (hi - lo + 1) * 2 ^ lo

/-- Bit `i` of a number. -/
def bit (v i : Nat) : Bool := v / 2 ^ i % 2 == 1

/-- The stored value of a register. -/
def State.reg (s : State) (a : Nat) : Nat := (mapGet (regDefault a) s.regs a).toNat

/-- The stored value of a field. -/
def State.get (s : State) (f : Fld) : Nat := bits (s.reg f.reg) f.hi f.lo

/-- Whether a field is not zero. -/
def State.flag (s : State) (f : Fld) : Bool := s.get f != 0

/-- Bit `i` of a register. -/
def State.bitAt (s : State) (a i : Nat) : Bool := Machine.bit (s.reg a) i

/-- Set a register. -/
def setReg (a v : Nat) : Upd := .act (.reg a (BitVec.ofNat 32 v))

/-- Set a field, leaving the register's other bits. -/
def set (f : Fld) (v : Nat) : Upd := .read fun s => setReg f.reg (withBits (s.reg f.reg) f.hi f.lo v)

/-- A field whose bits its register defines. -/
def Fld.fits (f : Fld) : Bool :=
  decide (f.lo ≤ f.hi) && decide (f.hi < 32) && bits (regMask f.reg) f.hi f.lo == 2 ^ (f.hi - f.lo + 1) - 1

/-- Set bit `i` of a register. -/
def setBit (a i : Nat) : Upd := .read fun s => setReg a (withBits (s.reg a) i i 1)

/-- Clear bit `i` of a register. -/
def clrBit (a i : Nat) : Upd := .read fun s => setReg a (withBits (s.reg a) i i 0)

/-- Bit `i` of a register to `b`. -/
def putBit (a i : Nat) (b : Bool) : Upd := .read fun s => setReg a (withBits (s.reg a) i i b.toNat)

/-- Add to a field, saturating at its largest value. -/
def inc (f : Fld) (n : Nat := 1) : Upd := .read fun s => set f (satAdd (2 ^ (f.hi - f.lo + 1) - 1) (s.get f) n)

/-- Add to a field, wrapping. -/
def incWrap (f : Fld) (n : Nat := 1) : Upd := .read fun s => set f (s.get f + n)

/-- Lower a field by `n`, not below 0. -/
def dec (f : Fld) (n : Nat := 1) : Upd := .read fun s => set f (s.get f - n)

/-- A field that spans a whole register. -/
abbrev whole (a : Nat) : Fld := ⟨a, 31, 0⟩

/-- Add to a saturating 32-bit counter (R80). -/
def count (a : Nat) (n : Nat := 1) : Upd := inc (whole a) n

/-- Add to a 64-bit counter held in two words, wrapping (R80). -/
def count64 (a : Nat) (n : Nat := 1) : Upd := .read fun s =>
  let v := s.reg a + 2 ^ 32 * (mapGet 0 s.b.fab.high a) + n
  seqs [setReg a (v % 2 ^ 32),
    upd fun b => { b with fab := { b.fab with high := mapPut 0 b.fab.high a (v / 2 ^ 32 % 2 ^ 32) } }]

/-- The 64-bit value of a low and a high register. -/
def State.reg64 (s : State) (lo hi : Nat) : Nat := s.reg lo + 2 ^ 32 * s.reg hi

/-- Set a low and a high register from a 64-bit value. -/
def setReg64 (lo hi v : Nat) : Upd := .seq (setReg lo (v % 2 ^ 32)) (setReg hi (v / 2 ^ 32))

/-! ## Memory -/

/-- The byte at a fabric address. -/
def State.byte (s : State) (a : Nat) : Byte := mapGet (memDefault a) s.mem a

/-- `n` bytes from a fabric address. -/
def State.bytes (s : State) (a n : Nat) : List Byte := (List.range n).map fun i => s.byte (a + i)

/-- A little-endian number of `n` bytes. -/
def State.load (s : State) (a n : Nat) : Nat := leValue (s.bytes a n)

/-- Write bytes from a fabric address on. -/
def storeBytes : Nat → List Byte → Upd
  | _, [] => .skip
  | a, v :: vs => .seq (.act (.mem a v)) (storeBytes (a + 1) vs)

/-- Write a little-endian number of `n` bytes. -/
def store (a n v : Nat) : Upd := storeBytes a (leBytes n v)

/-! ## Free values and time -/

/-- Take the next value the spec does not state (notes/assumptions/1.md). -/
def free (k : Nat → Upd) : Upd := .read fun s =>
  .seq (upd fun b => { b with fab := { b.fab with free := b.fab.free + 1 } })
    (k (Config.freeValue s.b.fab.free).toNat)

/-- FAB_CLK cycles in a microsecond and a millisecond (R55). -/
def usCycles : Nat := 1200
def msCycles : Nat := 1200000

/-- The FAB_CLK cycles since reset. -/
def State.now (s : State) : Nat := s.b.fab.now

end Sys2Proof.Machine
end

