-- ==== Sys2Proof/Machine/Flags.lean ====
section
/-!
DEFINITION. Status and interrupt bits, and the path of a fault from a cell or block to its reaction (R73, R77, R260 to R270).
-/
namespace Sys2Proof.Machine

/-! ## Interrupt causes -/

/-- Raise bit `i` of a unit's BLK_IRQ_STAT (R73). -/
def raise (k i : Nat) : Upd := setBit (BLK_IRQ_STAT k) i

/-- Raise bit `i` of a cell's CELL_IRQ_STAT (R77). -/
def raiseCell (k c i : Nat) : Upd := setBit (CELL_IRQ_STAT k c) i

/-! ## Faults -/

/-- The fault classes of R259 in the order of their bits. -/
abbrev CE : Nat := 0
abbrev TR : Nat := 1
abbrev PM : Nat := 2
abbrev FT : Nat := 3

/-- The units that have a register page with the error registers of R74. -/
def hasPage (k : Nat) : Bool := k ≤ 27

/-- PERM_TH of unit `k`; 0 acts as 1 (R277). -/
def State.permTh (s : State) (k : Nat) : Nat := max 1 (s.get (MSU_FLT_CFG_PERM_TH k))

/-- The class that results from the leaky bucket of R261. -/
def State.finalClass (s : State) (k : Nat) (cell : Option Nat) (cls : Nat) : Nat :=
  match cell with
  | none => cls
  | some c => if cls = TR ∧ s.permTh k ≤ min 255 (s.get (CELL_FAULT_CNT_LEVEL k c) + 1) then PM else cls

/-- The effect of a fault on LEVEL (R261). -/
def bucket (k c cls : Nat) : Upd :=
  if cls = CE then .skip
  else if cls = TR then inc (CELL_FAULT_CNT_LEVEL k c)
  else .read fun s => set (CELL_FAULT_CNT_LEVEL k c) (s.permTh k)

/-- The reaction code of a class: from BLK_ERR_REACT of the block or region page, or MSU_FAULT_REACT for the MSU, the
watchdogs and the chain sideband (R260 step 4). Codes 8 to 15 act as 7 (R75). -/
def State.reaction (s : State) (k cls : Nat) : Nat :=
  let w := if k ≤ 26 then s.reg (BLK_ERR_REACT k) else s.reg MSU_FAULT_REACT
  min 7 (bits w (4 * cls + 3) (4 * cls))

/-- An FCU source becomes pending (R270). -/
def fcuPend (src cls : Nat) : Upd := .read fun s => seqs [
  setBit (MSU_FCU_PEND (src / 32)) (src % 32),
  setBit MSU_FAULT_STAT cls,
  set MSU_FAULT_STAT_LAST_SRC src,
  set MSU_INJ_CTRL_LAST_INJ s.b.fab.injecting.toNat,
  whenU (!s.flag MSU_FCU_FIRST_VALID) (.seq (set MSU_FCU_FIRST_VALID 1) (set MSU_FCU_FIRST_SRC src))]

/-- A reaction falls due; it is carried out at the end of the command (R260 step 5, R268). -/
def dueReaction (d : Due) : Upd := upd fun b => { b with fab := { b.fab with due := b.fab.due ++ [d] } }

/-- The path of a fault (R260): the bucket, the class bits, the counts, the FCU source and the reaction that falls due.
`ded` is the dedicated source j of the unit, if a chapter names one (R269). A cell whose final class is PM or FT is retired
whatever its reaction (R263). -/
def reportNow (k : Nat) (cell : Option Nat) (cls : Nat) (ded : Option Nat := none) : Upd := .read fun s =>
  let fin := s.finalClass k cell cls
  let code0 := s.reaction k fin
  let code := if s.b.fab.injecting && s.flag MSU_INJ_CTRL_DRY then min code0 1 else code0
  let src := 16 * k + fin
  seqs [
    match cell with
    | none => .skip
    | some c => seqs [bucket k c cls, setBit (CELL_ERR_STAT k c) fin,
        whenU (fin != CE) (inc (CELL_FAULT_CNT_TOTAL k c)),
        whenU (fin == TR) (set (CELL_STAT_FAULT k c) 1)],
    whenU (hasPage k) (.seq (setBit (BLK_ERR_STAT k) fin) (inc ⟨BLK_ERR_CNT k, 8 * fin + 7, 8 * fin⟩)),
    whenU (code0 != 0) (seqs [
      match ded with | some j => fcuPend (16 * k + j) fin | none => .skip,
      fcuPend src fin,
      set MSU_FAULT_STAT_LAST_SRC (match ded with | some j => 16 * k + j | none => src)]),
    dueReaction ⟨k, cell, code, fin, match ded with | some j => 16 * k + j | none => src, s.b.fab.injecting && s.flag MSU_INJ_CTRL_DRY⟩]

/-- A fault is reported. One of a cell whose block is in reset is recorded when the reset ends (R275). -/
def report (k : Nat) (cell : Option Nat) (cls : Nat) (ded : Option Nat := none) : Upd := .read fun s => match cell with
  | some c => if hasPage k && s.flag (BLK_STAT_RST_BUSY k)
      then upd fun b => { b with fab := { b.fab with late := b.fab.late ++ [(k, c, cls, ded)] } }
      else reportNow k (some c) cls ded
  | none => reportNow k none cls ded

/-- The faults of a unit's cells during its reset are recorded. -/
def reportLate (k : Nat) : Upd := .read fun s => whenU (s.b.fab.late.any fun e => e.1 == k) (.seq
  (upd fun b => { b with fab := { b.fab with late := b.fab.late.filter fun e => e.1 != k } })
  (seqs ((s.b.fab.late.filter fun e => e.1 == k).map fun e => report k (some e.2.1) e.2.2.1 e.2.2.2)))

/-- The last TR fault of a cell is taken out of the counts, as another class takes its place (R324). -/
def retract (k c : Nat) : Upd := seqs [dec (CELL_FAULT_CNT_TOTAL k c), dec ⟨BLK_ERR_CNT k, 8 * TR + 7, 8 * TR⟩]

/-- An element of cell `c` of unit `k` completes without a fault: a retry under way has succeeded (R261). -/
def elementOk (k c : Nat) : Upd := .read fun s => whenU (s.flag (CELL_STAT_FAULT k c)) (set (CELL_STAT_FAULT k c) 0)

end Sys2Proof.Machine
end

