-- ==== Sys2Proof/Machine/Common.lean ====
section
/-!
DEFINITION. What blocks and cells share: resolving work in flight and the return of registers to their reset values (R81).
-/
namespace Sys2Proof.Machine

/-- The bits of a register that a block or cell reset keeps: those of its SP and BL fields (R81). -/
def keptBits (a : Nat) : Nat :=
  match locate a with
  | none => 0
  | some l => l.row.fs.foldl (fun m f =>
      if f.acc = .sp ∨ f.acc = .spSc ∨ f.acc = .spW1s ∨ f.acc = .bl
      then m ||| ((2 ^ (f.hi - f.lo + 1) - 1) <<< f.lo) else m) 0

/-- The high halves of the 64-bit counters that `p` names return to 0 (R80). -/
def highCleared (p : Nat → Bool) : Upd := .read fun s => whenU (s.b.fab.high.any fun e => p e.1)
  (upd fun b => { b with fab := { b.fab with high := b.fab.high.filter fun e => !p e.1 } })

/-- Return the registers that `p` names to their reset values, except the bits of SP and BL fields. -/
def resetRegs (p : Nat → Bool) : Upd := .seq (.act (.regsMap fun a v =>
  if p a then (v &&& BitVec.ofNat 32 (keptBits a)) ||| (regDefault a &&& ~~~ BitVec.ofNat 32 (keptBits a)) else v)) (highCleared p)

/-- Return the registers that `p` names to their reset values, SP and BL fields too (a module reset, R139). -/
def clearRegs (p : Nat → Bool) : Upd := .act (.regsMap fun a v => if p a then regDefault a else v)

/-- Whether `a` lies on the cell page of cell `c` of unit `k`. -/
def onCell (k c a : Nat) : Bool := cellBase k c ≤ a && a < cellBase k c + (unitCells k).2

/-- Whether `a` lies on the register page of unit `k`, cell pages included. -/
def onPage (k a : Nat) : Bool := unitBase k ≤ a && a < unitBase k + 0x10000

/-- The registers of a cell page that a cell reset returns: not CELL_FAULT_CNT, CELL_STAT and CELL_RETIRE, which follow
their own rules, and none of `keep` (R81). -/
def cellResetSet (k c : Nat) (keep : List Nat) (a : Nat) : Bool :=
  onCell k c a && !(([0x04, 0x14, 0x18] ++ keep).contains (a - cellBase k c))

/-- The registers of cell `c` after a cell reset, `keep` naming further offsets that the block's chapter keeps. -/
def cellRegsReset (k c : Nat) (keep : List Nat) : Upd := resetRegs (cellResetSet k c keep)

/-- The end of a cell's draining (R81): a pending cell reset returns the registers; EN = 1 enables again. `rst` is what the
block adds to a reset. -/
def cellDrained (k c : Nat) (keep : List Nat) (rst : Upd) : Upd := .read fun s => seqs [
  set (CELL_STAT_DRAINING k c) 0,
  whenU (s.flag (CELL_CTRL_CELL_RST k c)) (seqs [cellRegsReset k c keep, rst, set (CELL_STAT_FAULT k c) 0]),
  .read fun s => whenU (s.flag (CELL_CTRL_EN k c) && s.flag (BLK_CTRL_EN k) && !s.flag (CELL_STAT_RETIRED k c)) (set (CELL_STAT_ENABLED k c) 1)]

/-- EN of a cell goes to 0 (R81): no new work, and draining until the element boundary while `busy`. -/
def cellDrain (k c : Nat) (busy : State → Bool) (fin : Upd) : Upd := .seq (set (CELL_STAT_ENABLED k c) 0)
  (.read fun s => if busy s then set (CELL_STAT_DRAINING k c) 1 else fin)

/-- Whether a cell accepts work (R77): enabled by its own EN and its block's, its checks passed, not retired, not draining. -/
def State.cellOn (s : State) (k c : Nat) : Bool := s.flag (CELL_STAT_ENABLED k c)

/-- One grant of R42 among `n` requesters: the first in turn that requests and has grants left, else a new round. The result is
the one granted, the grants left and the pointer; with nobody requesting the new round stands all the same. -/
def wrrGrant (n : Nat) (req : Nat → Bool) (weight : Nat → Nat) (left : Tbl Nat) (ptr : Nat) : Option Nat × Tbl Nat × Nat :=
  let turn := (List.range n).map fun i => (ptr + i) % n
  let pick (l : Tbl Nat) : Option Nat := turn.find? fun c => req c && mapGet 0 l c != 0
  let spend (l : Tbl Nat) (c : Nat) : Option Nat × Tbl Nat × Nat :=
    let g := mapGet 0 l c - 1
    (some c, mapPut 0 l c g, if g = 0 then (c + 1) % n else c)
  let round := (List.range n).foldl (fun l c => mapPut 0 l c (weight c)) []
  match pick left with
  | some c => spend left c
  | none => match pick round with
    | some c => spend round c
    | none => (none, round, ptr)

/-- An integer between the floor and the ceiling of `num / den`: the spec states the quantity and no rounding. -/
def rounded (num den : Nat) (k : Nat → Upd) : Upd :=
  if num % den = 0 then k (num / den) else free fun v => k (num / den + v % 2)

/-- Device time in ns (R468). -/
def State.devTime (s : State) : Nat := s.b.tmb.acc / (6 * 2 ^ 40)

/-- Whether a frozen instance holds new work of a function (R634, R637): an instance of kind `kind` that passes the test. -/
def State.frozen (s : State) (kind : Nat) (p : Nat → Bool) : Bool :=
  s.flag IOM_BOUND_CNT_CNT && (List.range 256).any fun n =>
    s.get (IOM_INST_BIND_KIND n) == kind && s.flag (IOM_INST_STAT_MIG_STATE n) && p n

/-- A frozen instance holds the function that ARG names, by its low bits. -/
def State.frozenArg (s : State) (kind m v : Nat) : Bool := s.frozen kind fun n => s.get (IOM_INST_BIND_ARG n) % m == v

/-- The instance that queue set `q` of port `p` is bound to is not running (R637). -/
def State.frozenQueue (s : State) (p q : Nat) : Bool := s.frozen 4 fun n =>
  20 + bits (s.get (IOM_INST_BIND_ARG n)) 8 8 == p && s.get (IOM_INST_BIND_ARG n) % 8 == q

/-- The instance that CAN channel `c` is bound to has begun its SAVE: frames are no longer stored (R637). -/
def State.savedCan (s : State) (c : Nat) : Bool := s.frozen 1 fun n =>
  s.get (IOM_INST_BIND_ARG n) % 16 == c && decide (3 ≤ s.get (IOM_INST_STAT_MIG_STATE n))

/-! ## Validation of wakes (R129, R130, R550) -/

def State.fwCount (s : State) (src : Nat) : Nat := mapGet 0 s.b.gld.fw src

/-- Set a source's false-wake count and present it in NMC (R550). -/
def setFw (src n : Nat) : Upd := .seq (upd fun b => { b with gld := { b.gld with fw := mapPut 0 b.gld.fw src n } })
  (set ⟨NMC_FALSE_WAKE_CNT src, 7, 0⟩ n)

/-- The disable bit of a source. -/
def State.fwDisabled (s : State) (src : Nat) : Bool :=
  if src < 32 then s.bitAt GLD_FW_DIS_LO src else s.bitAt GLD_FW_DIS_HI (src - 32)

/-- Disable or enable a source for false wakes; NMC presents the bit, a sample cell shows it as FW_DIS. -/
def setFwDis (src : Nat) (b : Bool) : Upd := seqs [
  if src < 32 then putBit GLD_FW_DIS_LO src b else putBit GLD_FW_DIS_HI (src - 32) b,
  putBit (NMC_FALSE_WAKE_CNT src) 31 b,
  whenU (decide (32 ≤ src)) (putBit (CELL_STAT 22 (src - 32)) 9 b)]

/-- A wake of a source is validated: its count clears, and every disabled source is enabled again. -/
def wakeValidated (src : Nat) : Upd := .seq (setFw src 0)
  (.read fun s => forN 64 fun i => whenU (s.fwDisabled i) (setFwDis i false))

/-- A validating event reaches Glade: the open windows that `p` accepts are validated (R129). -/
def gladeValidate (p : Nat → Nat → Bool) : Upd := .read fun s => seqs [
  forEach (s.b.gld.wins.filter fun w => p w.1 w.2) fun w => wakeValidated w.1,
  upd fun b => { b with gld := { b.gld with wins := b.gld.wins.filter fun w => !p w.1 w.2 } }]

/-- A valid NM PDU on NM channel `c` validates per R550. -/
def gladeNmPdu (c : Nat) : Upd := gladeValidate fun src v =>
  v == 2 || (v == 1 && (if 10 ≤ src ∧ src ≤ 17 then c == src - 10 else if 18 ≤ src ∧ src ≤ 21 then false
    else if src = 22 then 16 ≤ c && c ≤ 33 else true))

/-- A LIN frame completes with result 1 on channel `n` (R550): the windows of LIN0 to LIN3 with VALIDATE 1. -/
def gladeLinFrame (n : Nat) : Upd := gladeValidate fun src v => v == 1 && decide (n < 4) && src == 18 + n

/-! ## PDUs to the signal router (R487, R505) -/

def updSrt (f : Srt → Srt) : Upd := upd fun b => { b with srt := f b.srt }

/-- A PDU enters the router's input queue. -/
def pduPush (p : Pdu) : Upd := .read fun s => whenU (s.flag (BLK_STAT_ENABLED 11)) (
  if 512 ≤ s.b.srt.input.length then .seq (count SRT_CNT_IN_OVF) (raise 11 3)
  else updSrt fun x => { x with input := x.input ++ [p] })

end Sys2Proof.Machine
end

