-- ==== Sys2Proof/Machine/Can.lean ====
section
/-!
DEFINITION. The CAN channels: message RAM, transmit slots and their ends, error counters and states, received frames, locks
(16_can_protocol.md, 17_can_filters_and_buffers.md).
-/
namespace Sys2Proof.Machine

def State.canCh (s : State) (c : Nat) : CanCh := mapGet {} s.b.can c
def updCan (c : Nat) (f : CanCh → CanCh) : Upd := upd fun b => { b with can := mapPut {} b.can c (f (mapGet {} b.can c)) }

/-- Raise an event of channel `c`; events reach the block through its CELL bit (R385). -/
def raiseCan (c i : Nat) : Upd := raiseCell 9 c i

/-! ## Message RAM (R387, R388) -/

/-- The message RAM of channel `c`. -/
def mram (c : Nat) : Nat := 0x39000000 + 0x20000 * c

/-- Word `w` of the message RAM of channel `c`. -/
def State.mramWord (s : State) (c w : Nat) : Nat := s.load (mram c + 4 * (w % 0x8000)) 4
def setMram (c w v : Nat) : Upd := store (mram c + 4 * (w % 0x8000)) 4 v

/-- The sections: 0 FIFO 0, 1 FIFO 1, 2 TX events, 3 dedicated RX buffers, 4 TX slots, 5 filters. -/
def secBase (s : State) (c : Nat) : Nat → Nat
  | 0 => s.get (CAN_FIFO0_CFG_BASE c)
  | 1 => s.get (CAN_FIFO1_CFG_BASE c)
  | 2 => s.get (CAN_EVT_CFG_BASE c)
  | 3 => s.get (CAN_RXBUF_CFG_BASE c)
  | 4 => s.get (CAN_TXMEM_CFG_BASE c)
  | _ => s.get (CAN_ACCEPT_CFG_BASE c)

/-- The element size of a section in words. -/
def secWords (s : State) (c : Nat) : Nat → Nat
  | 0 => 8 + (s.get (CAN_FIFO0_CFG_SLOT_WORDS c) + 1)
  | 1 => 8 + (s.get (CAN_FIFO1_CFG_SLOT_WORDS c) + 1)
  | 2 => 6
  | 3 => 8 + (s.get (CAN_RXBUF_CFG_SLOT_WORDS c) + 1)
  | 4 => 4 + (s.get (CAN_TXMEM_SLOT_SLOT_WORDS c) + 1)
  | _ => 8

def State.txBufs (s : State) (c : Nat) : Nat := min 32 (s.get (CAN_TXMEM_CFG_BUFS c))
def State.txQslots (s : State) (c : Nat) : Nat := min 32 (s.get (CAN_TXMEM_CFG_QSLOTS c))

/-- The number of elements of a section; a count above its range acts as the limit (R406). -/
def secCount (s : State) (c : Nat) : Nat → Nat
  | 0 => min 64 (s.get (CAN_FIFO0_CFG_DEPTH c))
  | 1 => min 64 (s.get (CAN_FIFO1_CFG_DEPTH c))
  | 2 => min 32 (s.get (CAN_EVT_CFG_DEPTH c))
  | 3 => min 64 (s.get (CAN_RXBUF_CFG_COUNT c))
  | 4 => s.txBufs c + s.txQslots c
  | _ => min 256 (s.get (CAN_ACCEPT_CFG_COUNT c))

/-- The first word of element `i` of a section. -/
def elemWord (s : State) (c sec i : Nat) : Nat := secBase s c sec + secWords s c sec * i

/-- The status register of a FIFO section. -/
def fifoStat (c : Nat) : Nat → Nat
  | 0 => CAN_FIFO0_STAT c
  | 1 => CAN_FIFO1_STAT c
  | _ => CAN_EVT_STAT c

def fifoFill (c sec : Nat) : Fld := ⟨fifoStat c sec, 22, 16⟩
def fifoPut (c sec : Nat) : Fld := ⟨fifoStat c sec, 13, 8⟩
def fifoGet (c sec : Nat) : Fld := ⟨fifoStat c sec, 5, 0⟩
def fifoFull (c sec : Nat) : Fld := ⟨fifoStat c sec, 30, 30⟩
def fifoLocked (c sec : Nat) : Fld := ⟨fifoStat c sec, 31, 31⟩

/-- The layout check of R389. -/
def State.layoutOk (s : State) (c : Nat) : Bool :=
  let secs := (List.range 6).filter fun i => secCount s c i != 0
  let lo (i : Nat) := secBase s c i
  let hi (i : Nat) := secBase s c i + secWords s c i * secCount s c i
  secs.all fun i => decide (hi i ≤ 0x8000) && secs.all fun j => j == i || decide (hi i ≤ lo j) || decide (hi j ≤ lo i)

/-! ## Bit timing (R364, R367, R368) -/

/-- The bit time in minimum time quanta of a timing register with its prescaler and phase fields. -/
def bitTime (presc ph1 ph2 : Nat) : Nat := (presc + 1) * (1 + (ph1 + 1) + (ph2 + 1))

/-- The checks at enable of R364, R367 and R368. -/
def State.canModeOk (s : State) (c : Nat) : Bool :=
  let fd := s.flag (CAN_CH_MODE_FD_EN c)
  let xl := s.flag (CAN_CH_MODE_XL_EN c)
  let sw := s.flag (CAN_CH_MODE_XL_TRX_SW c)
  let trx := if s.get (CAN_TRX_CFG_TRX_MODE c) = 3 then 1 else s.get (CAN_TRX_CFG_TRX_MODE c)
  let a (f : Nat → Fld) := s.get (f c)
  let arb := bitTime (a CAN_TIMING_ARB_PRESC) (a CAN_TIMING_ARB_PH1) (a CAN_TIMING_ARB_PH2)
  let arbQ := 3 + a CAN_TIMING_ARB_PH1 + a CAN_TIMING_ARB_PH2
  let fdt := bitTime (a CAN_TIMING_FD_PRESC) (a CAN_TIMING_FD_PH1) (a CAN_TIMING_FD_PH2)
  let fdQ := 3 + a CAN_TIMING_FD_PH1 + a CAN_TIMING_FD_PH2
  let xlt := bitTime (a CAN_TIMING_XL_PRESC) (a CAN_TIMING_XL_PH1) (a CAN_TIMING_XL_PH2)
  let xlQ := 3 + a CAN_TIMING_XL_PH1 + a CAN_TIMING_XL_PH2
  let least := if trx = 0 then 32 else 20
  decide (8 ≤ arbQ ∧ arbQ ≤ 385 ∧ 160 ≤ arb ∧ arb ≤ 16000)
    && decide (1 ≤ a CAN_TIMING_ARB_PH1) && decide (a CAN_TIMING_ARB_SJW ≤ a CAN_TIMING_ARB_PH2)
    && (!fd || (decide (5 ≤ fdQ ∧ fdQ ≤ 49 ∧ least ≤ fdt ∧ fdt ≤ arb) && decide (a CAN_TIMING_FD_SJW ≤ a CAN_TIMING_FD_PH2)
        && (decide (160 ≤ fdt) || s.flag (CAN_TIMING_FD_SSP_EN c))))
    && (!xl || (decide ((if sw then 8 else 5) ≤ xlQ ∧ xlQ ≤ 97 ∧ (if sw then 8 else least) ≤ xlt ∧ xlt ≤ arb)
        && decide (a CAN_TIMING_XL_SJW ≤ a CAN_TIMING_XL_PH2) && (decide (160 ≤ xlt) || s.flag (CAN_TIMING_XL_SSP_EN c))))
    && (!sw || (xl && trx == 2 && s.get (CAN_XL_PWM_PWMS c) + 1 + s.get (CAN_XL_PWM_PWML c) + 1 == xlt))

/-! ## Timestamps (R383) -/

/-- The counter of channel `c` under a value of CAN_TS_CFG: while it runs, CAN_CLK cycles (160 MHz of 1.2 GHz) over DIV + 1. -/
def State.canTsOf (s : State) (c cfg : Nat) : Nat :=
  ((s.canCh c).tsHeld + if bit cfg 31 then (s.now - (s.canCh c).tsStart) * 2 / 15 / (cfg % 256 + 1) else 0) % 2 ^ 32
def State.canTs (s : State) (c : Nat) : Nat := s.canTsOf c (s.reg (CAN_TS_CFG c))

/-- A write of CAN_TS_CFG: the counter goes on from its value. -/
def canTsCfgHook (c old : Nat) : Upd := .read fun s => updCan c fun x => { x with tsHeld := s.canTsOf c old, tsStart := s.now }

/-- What a frame is stamped with whose start of frame was `ago` nanoseconds ago. -/
def State.stamp (s : State) (c ago : Nat) : Nat :=
  if s.flag (CAN_TS_CFG_EN c) then (s.canTs c + 2 ^ 32 - ago * 4 / 25 / (s.get (CAN_TS_CFG_DIV c) + 1) % 2 ^ 32) % 2 ^ 32 else 0

/-- CAN_TS_WRAP (R383). -/
def canTsWrap (c : Fin 16) : Upd := .read fun s =>
  whenU (s.flag (CAN_TS_CFG_EN c)) (.seq (updCan c fun x => { x with tsStart := s.now, tsHeld := 0 }) (raiseCan c 8))

/-- A write of CAN_TS_SYNC sets the counters of the channels named to 0 (R383). -/
def canTsSyncHook (v : Nat) : Upd := .read fun s => forN 16 fun c =>
  whenU (bit v c) (updCan c fun x => { x with tsStart := s.now, tsHeld := 0 })

/-! ## States and error counters (R375, R377, R378, R381, R382) -/

/-- CAN_STATUS.STATE and the summary bits. -/
def canState (c st : Nat) : Upd := seqs [
  set (CAN_STATUS_STATE c) st,
  whenU (st == 1 || st == 4 || st == 5) (set (CAN_STATUS_ACTIVITY c) 3),
  whenU (st == 0 || st == 6) (set (CAN_STATUS_ACTIVITY c) 0),
  putBit CAN_BO_SUM c (st == 4 || st == 5), putBit CAN_EP_SUM c (st == 3)]

/-- The number of data bytes a DLC gives (R391). -/
def frameLen (fmt dlc : Nat) (rmt : Bool) : Nat :=
  if rmt then 0 else
  match fmt with
  | 0 => min 8 (dlc % 16)
  | 1 => match dlc % 16 with
    | 9 => 12 | 10 => 16 | 11 => 20 | 12 => 24 | 13 => 32 | 14 => 48 | 15 => 64 | n => n
  | _ => dlc % 2048 + 1

/-! ## Transmit slots (R370, R376, R399 to R401) -/

/-- The pending bit of a slot: dedicated buffers in CAN_TXBUF_PEND, queue slots in CAN_TXQ_PEND. -/
def State.slotPending (s : State) (c i : Nat) : Bool :=
  if i < 32 then s.bitAt (CAN_TXBUF_PEND c) i else s.bitAt (CAN_TXQ_PEND c) (i - 32)

def putPending (c i : Nat) (b : Bool) : Upd := if i < 32 then putBit (CAN_TXBUF_PEND c) i b else putBit (CAN_TXQ_PEND c) (i - 32) b

/-- The slots pending, in index order. -/
def State.pendingSlots (s : State) (c : Nat) : List Nat := (List.range 64).filter fun i => s.slotPending c i

/-- The slot index in the section: dedicated b is slot b, queue q is slot BUFS + q. -/
def State.slotNo (s : State) (c i : Nat) : Nat := if i < 32 then i else s.txBufs c + (i - 32)

/-- Word `w` of slot `i`'s element. -/
def State.slotWord (s : State) (c i w : Nat) : Nat := s.mramWord c (elemWord s c 4 (s.slotNo c i) + w)

def State.slotInfo (s : State) (c i : Nat) : TxSlot := mapGet {} (s.canCh c).slots i
def updSlot (c i : Nat) (f : TxSlot → TxSlot) : Upd := updCan c fun x =>
  { x with slots := mapPut {} x.slots i (f (mapGet {} x.slots i)) }

/-- Refresh CAN_TXQ_STAT: PUT is the lowest free queue slot. -/
def showQueue (c : Nat) : Upd := .read fun s =>
  let q := s.txQslots c
  let free := (List.range q).find? fun i => !s.bitAt (CAN_TXQ_PEND c) i
  seqs [
    set (CAN_TXQ_STAT_FILL c) ((List.range q).countP fun i => s.bitAt (CAN_TXQ_PEND c) i),
    set (CAN_TXQ_STAT_FULL c) free.isNone.toNat,
    match free with | some i => set (CAN_TXQ_STAT_PUT c) i | none => .skip]

/-- Store an element's words from word `w` on. -/
def setWords (c : Nat) : Nat → List Nat → Upd
  | _, [] => .skip
  | w, v :: vs => .seq (setMram c w v) (setWords c (w + 1) vs)

/-- A FIFO took an element at its put index. -/
def fifoAdvance (s : State) (c sec wm newBit wmBit : Nat) : Upd :=
  let n := secCount s c sec
  let fill := s.get (fifoFill c sec) + 1
  seqs [
    set (fifoPut c sec) ((s.get (fifoPut c sec) + 1) % max 1 n),
    set (fifoFill c sec) fill, set (fifoFull c sec) (decide (fill = n)).toNat,
    raiseCan c newBit, whenU (wm != 0 && fill == wm) (raiseCan c wmBit)]

/-- The TX event of an ended element (R401). -/
def txEvent (c i code : Nat) : Upd := .read fun s =>
  let w0 := s.slotWord c i 0
  let w1 := s.slotWord c i 1
  let x := s.slotInfo c i
  let n := secCount s c 2
  if n = 0 ∨ s.get (fifoFill c 2) = n then .seq (inc (CAN_MR_CNT2_EVT_LOST c)) (raiseCan c 27)
  else seqs [
    setWords c (elemWord s c 2 (s.get (fifoPut c 2))) [
      (bits w0 16 16) * 2 ^ 29 + bits w1 28 0,
      bits w0 31 24 * 2 ^ 24 + code * 2 ^ 16 + (if 32 ≤ i then 2 ^ 15 else 0) + bits w0 14 14 * 2 ^ 14 + bits w0 13 12 * 2 ^ 12
        + bits w0 10 0,
      if x.attempts = 0 then 0 else x.ts,
      min 255 x.attempts * 2 ^ 24 + (if x.dtValid then 2 ^ 8 else 0) + s.slotNo c i,
      if x.dtValid then x.dt % 2 ^ 32 else 0, if x.dtValid then x.dt / 2 ^ 32 % 2 ^ 32 else 0],
    fifoAdvance s c 2 (s.get (CAN_EVT_CFG_WM c)) 25 26]

/-- Slot `i` ends with a code (R376). -/
def endSlot (c i code : Nat) : Upd := .read fun s => seqs [
  whenU (decide (32 ≤ i) || bit (s.slotWord c i 0) 19) (txEvent c i code),
  putPending c i false,
  if i < 32 then .seq (set ⟨CAN_TXBUF_CODE c (i / 8), 4 * (i % 8) + 3, 4 * (i % 8)⟩ code) (setBit (CAN_TXBUF_END c) i)
  else showQueue c,
  whenU (code == 1 || code == 9) (raiseCan c 0),
  whenU (2 ≤ code && code ≤ 4) (raiseCan c 1),
  updSlot c i fun _ => {}]

/-- Requests meet a bus-off with DISCARD = 1 (R378). -/
def State.discarding (s : State) (c : Nat) : Bool :=
  s.flag (CAN_BO_CFG_DISCARD c) && (s.get (CAN_STATUS_STATE c) == 4 || s.get (CAN_STATUS_STATE c) == 5)

/-- Slot `i` becomes pending. -/
def makePending (c i : Nat) : Upd := .read fun s => seqs [
  putPending c i true,
  updSlot c i fun _ => { order := (s.canCh c).nextOrder },
  updCan c fun x => { x with nextOrder := x.nextOrder + 1 },
  whenU (decide (i < 32)) (set ⟨CAN_TXBUF_CODE c (i / 8), 4 * (i % 8) + 3, 4 * (i % 8)⟩ 0),
  whenU (decide (32 ≤ i)) (showQueue c),
  whenU (s.discarding c) (endSlot c i 7)]

/-- Requests of dedicated buffers (R370): a pending buffer and one at or above BUFS are unaffected. -/
def txRequest (c v : Nat) : Upd := .read fun s => whenU (s.cellOn 9 c) (forN 32 fun b =>
  whenU (bit v b && decide (b < s.txBufs c) && !s.bitAt (CAN_TXBUF_PEND c) b) (makePending c b))

/-- Cancellation of a slot (R372). -/
def cancelSlot (c i : Nat) : Upd := .read fun s =>
  whenU (s.slotPending c i)
    (if (s.canCh c).tx = some i then updSlot c i fun x => { x with cancelled := true } else endSlot c i 5)

/-- Push the queue element at PUT (R400). -/
def txqPush (c : Nat) : Upd := .read fun s =>
  if s.txQslots c = 0 ∨ s.flag (CAN_TXQ_STAT_FULL c) then raiseCan c 30
  else whenU (s.cellOn 9 c) (makePending c (32 + s.get (CAN_TXQ_STAT_PUT c)))

/-- Whether an element's format is refused (R365, R399). -/
def State.formatBad (s : State) (c i : Nat) : Bool :=
  let w := s.slotWord c i 0
  let fmt := bits w 13 12
  (fmt == 1 && !s.flag (CAN_CH_MODE_FD_EN c)) || (fmt == 2 && !s.flag (CAN_CH_MODE_XL_EN c)) || fmt == 3
    || (bit w 17 && fmt != 0) || decide (4 * (s.get (CAN_TXMEM_SLOT_SLOT_WORDS c) + 1) < frameLen fmt (bits w 10 0) (bit w 17))

/-- The choice key of R370, compared in its order: base identifier, standard before extended, data before remote, identifier
extension, dedicated before queue, index or order of entry. -/
def State.txKey (s : State) (c i : Nat) : List Nat :=
  let w := s.slotWord c i 0
  let id := s.slotWord c i 1
  let ext := bit w 16 && bits w 13 12 != 2
  [if ext then bits id 28 18 else bits id 10 0, ext.toNat, (bit w 17).toNat, if ext then bits id 17 0 else 0,
   if i < 32 then 0 else 1, if i < 32 then i else (s.slotInfo c i).order]

/-- Lexicographic order. -/
def lexLt : List Nat → List Nat → Bool
  | a :: as, b :: bs => a < b || (a == b && lexLt as bs)
  | _, _ => false

/-- The element the channel offers (R370). -/
def State.txChoice (s : State) (c : Nat) : Option Nat :=
  (s.pendingSlots c).foldl (fun best i => match best with
    | none => some i
    | some j => if lexLt (s.txKey c i) (s.txKey c j) then some i else some j) none

/-! ## Bus-off and disable (R378, R381, R403) -/

/-- Every pending element but the one on the bus ends with a code. -/
def endOthers (c code : Nat) : Upd := .read fun s =>
  forEach ((s.pendingSlots c).filter fun i => (s.canCh c).tx != some i) fun i => endSlot c i code

/-- The channel goes bus-off (R378, R381, R382). The count of bus-offs in the window uses the time in FAB_CLK cycles. -/
def busOff (c : Nat) : Upd := .read fun s =>
  let win := max 1 (s.get (CAN_BO_CFG_BO_WIN_S c)) * 1000 * msCycles
  let offs := s.now :: (s.canCh c).offs.filter fun t => decide (s.now < t + win)
  let th := s.get (CAN_BO_CFG_BO_TH c)
  seqs [
    canState c 4, raiseCan c 4,
    updCan c fun x => { x with offs := offs, tx := none },
    inc (CAN_BO_STAT_BO_TOTAL c), set (CAN_BO_STAT_BO_IN_WIN c) (min 255 offs.length), set (CAN_BO_STAT_SEQ_CNT c) 0,
    whenU (s.flag (CAN_BO_CFG_DISCARD c)) (.read fun s => forEach (s.pendingSlots c) fun i => endSlot c i 7),
    report 9 (some c) TR,
    whenU (th != 0 && offs.length == th) (report 9 (some c) PM (some 4))]

/-- CAN_BO_STAT as it reads (R379, R381): bus-offs of the window as it stands now; while recovering, SEQ_CNT counts sequences that no
command shows one by one, so it is a free value up to 127. -/
def canBoRead (c : Nat) (k : Nat → Upd) : Upd := .read fun s =>
  let n := (s.canCh c).offs.countP fun t => decide (s.now < t + max 1 (s.get (CAN_BO_CFG_BO_WIN_S c)) * 1000 * msCycles)
  let w := withBits (s.reg (CAN_BO_STAT c)) 23 16 (min 255 n)
  if s.get (CAN_STATUS_STATE c) = 5 then free fun v => k (withBits w 7 0 (v % 128)) else k w

/-- Set the error counters and follow their thresholds (R375). -/
def setCounters (c tec rec : Nat) : Upd := .read fun s =>
  let warn := decide (96 ≤ tec) || decide (96 ≤ rec)
  let passive := decide (128 ≤ tec) || decide (128 ≤ rec)
  let st := s.get (CAN_STATUS_STATE c)
  seqs [
    set (CAN_ERRCNT_TEC c) (min 511 tec), set (CAN_ERRCNT_REC c) (min 255 rec),
    whenU (warn && !s.flag (CAN_STATUS_WARN c)) (raiseCan c 2), set (CAN_STATUS_WARN c) warn.toNat,
    whenU (st == 2 || st == 3) (
      if 255 < tec then busOff c
      else if passive then whenU (st == 2) (seqs [canState c 3, raiseCan c 3, report 9 (some c) TR])
      else canState c 2)]

/-- What the error counters mean for a channel that joins the bus. -/
def canJoin (c : Nat) : Upd := .read fun s =>
  canState c (if 128 ≤ s.get (CAN_ERRCNT_TEC c) ∨ 128 ≤ s.get (CAN_ERRCNT_REC c) then 3 else 2)

/-- The draining of a channel's cell ends. -/
def canDrained (c : Nat) : Upd := cellDrained 9 c [] (.seq (updCan c fun x =>
    { lock0 := x.lock0, lock1 := x.lock1, lockE := x.lockE, lockB := x.lockB }) .skip)

/-- EN = 0, a reset or a retirement of a channel (R403): pending elements end with ABORTED_DISABLE; a frame being received is
discarded; a frame being transmitted completes. -/
def canDisable (c : Nat) : Upd := .read fun s => seqs [
  endOthers c 6,
  updCan c fun x => { x with rx := none, ackRun := 0 },
  whenU ((s.canCh c).rx.any fun r => r.ahead.isSome) (count SRT_CNT_SQUASH_ERR),
  set (CAN_STATUS_ACK_ALONE c) 0,
  canState c (if s.flag (CELL_STAT_RETIRED 9 c) then 6 else 0), whenU (s.canCh c).tx.isSome (set (CAN_STATUS_ACTIVITY c) 2),
  cellDrain 9 c (fun s => (s.canCh c).tx.isSome) (canDrained c)]

/-- EN = 1 of a channel (R369, R389). -/
def canEnable (c : Nat) : Upd := .read fun s =>
  if s.canModeOk c ∧ s.layoutOk c then seqs [
    set (CAN_STATUS_CFG_BAD c) 0, set (CELL_STAT_ENABLED 9 c) 1,
    set (CAN_ERRCNT_TEC c) 0, set (CAN_ERRCNT_REC c) 0, set (CAN_STATUS_WARN c) 0, canState c 1,
    setReg (CAN_FIFO0_STAT c) 0, setReg (CAN_FIFO1_STAT c) 0, setReg (CAN_EVT_STAT c) 0,
    setReg (CAN_RXBUF_NEW_LO c) 0, setReg (CAN_RXBUF_NEW_HI c) 0, setReg (CAN_RX_LOCK_STAT c) 0,
    setReg (CAN_TXBUF_PEND c) 0, setReg (CAN_TXQ_PEND c) 0, set (CAN_PRIO_STAT_VALID c) 0,
    forN 4 fun i => setReg (CAN_TXBUF_CODE c i) 0,
    updCan c fun x => { tsStart := x.tsStart, tsHeld := x.tsHeld, offs := x.offs },
    showQueue c]
  else seqs [set (CELL_CTRL_EN 9 c) 0, set (CAN_STATUS_CFG_BAD c) 1, raiseCan c 10]

/-! ## Locks (R397, R398) -/

/-- The lock of a target: 0 FIFO 0, 1 FIFO 1, 2 TX events, 3 dedicated buffers. -/
def CanCh.lock (x : CanCh) : Nat → Option CanLock
  | 0 => x.lock0
  | 1 => x.lock1
  | 2 => x.lockE
  | _ => x.lockB

def setLock (c sec : Nat) (l : Option CanLock) : Upd := .seq
  (updCan c fun x => match sec with
    | 0 => { x with lock0 := l } | 1 => { x with lock1 := l } | 2 => { x with lockE := l } | _ => { x with lockB := l })
  (seqs [putBit (CAN_RX_LOCK_STAT c) sec l.isSome,
    if sec < 3 then set (fifoLocked c sec) l.isSome.toNat
    else match l with | some k => set (CAN_RX_LOCK_STAT_BUF c) k.buf | none => .skip])

/-- The NEW flag of a dedicated RX buffer. -/
def newReg (c b : Nat) : Nat := if b < 32 then CAN_RXBUF_NEW_LO c else CAN_RXBUF_NEW_HI c

/-- Consume the get element of a non-empty FIFO. -/
def fifoConsume (c sec : Nat) : Upd := .read fun s =>
  let n := max 1 (secCount s c sec)
  whenU (s.get (fifoFill c sec) != 0) (seqs [
    set (fifoGet c sec) ((s.get (fifoGet c sec) + 1) % n), dec (fifoFill c sec), set (fifoFull c sec) 0])

/-- Release a target with ACK = 1: any lock goes, and the get element or the NEW flag with it. -/
def rxAck (c sec buf : Nat) : Upd := .read fun s =>
  if sec < 3 then .seq (setLock c sec none) (fifoConsume c sec)
  else .seq (clrBit (newReg c buf) (buf % 32))
    (whenU ((s.canCh c).lockB.any (·.buf == buf)) (setLock c 3 none))

/-- A write of CAN_RX_RELEASE (R398). -/
def rxRelease (c v : Nat) : Upd := .read fun s =>
  let sec := bits v 9 8
  let buf := bits v 5 0
  if bit v 31 then rxAck c sec buf
  else whenU (((s.canCh c).lock sec).any fun l => sec != 3 || l.buf == buf) (setLock c sec none)

/-- The last word of the element of a section that starts at word `w` (R391). -/
def State.lastWord (s : State) (c sec w : Nat) : Nat :=
  if sec = 2 then 5 else
  let fmt := bits (s.mramWord c (w + 1)) 31 30
  let rmt := bit (s.mramWord c w) 27
  let len := min (frameLen fmt (bits (s.mramWord c (w + 2)) 10 0) rmt) (4 * (secWords s c sec - 8))
  7 + (len + 3) / 4

/-- The lockable element that starts or ends at word `w`: its target and buffer. -/
def State.lockable (s : State) (c : Nat) : List (Nat × Nat × Nat) :=
  ((List.range 3).filter fun sec => s.get (fifoFill c sec) != 0).map (fun sec => (sec, 0, elemWord s c sec (s.get (fifoGet c sec))))
  ++ ((List.range (secCount s c 3)).filter fun b => s.bitAt (newReg c b) (b % 32)).map fun b => (3, b, elemWord s c 3 b)

/-- What a fabric read of word `w` of the message RAM by `pid` does to locks (R397). A read of a last word releases first
where the element's first and last word are one. -/
def mramReadEffect (c pid w : Nat) : Upd := .read fun s =>
  forEach (s.lockable c) fun (sec, buf, w0) =>
    let held := ((s.canCh c).lock sec).any fun l => l.pid == pid && (sec != 3 || l.buf == buf)
    let free := ((s.canCh c).lock sec).isNone || (sec == 3 && ((s.canCh c).lock sec).any (·.buf != buf))
    if w = w0 then whenU (free || held) (setLock c sec (some ⟨pid, buf⟩))
    else whenU (w == w0 + s.lastWord c sec w0 && held) (rxAck c sec buf)

/-- CAN_LOCK_READ (R397): a read of word 0 of the get element of a target, or of a dedicated buffer. -/
def canLockRead (pid : Pid) (c : Fin 16) (sec : Fin 4) (buf : Fin 64) : Upd := .read fun s =>
  mramReadEffect c pid (if sec.val = 3 then elemWord s c 3 buf else elemWord s c sec (s.get (fifoGet c sec)))

/-- CAN_RELEASE_READ (R397): a read of the last word. -/
def canReleaseRead (pid : Pid) (c : Fin 16) (sec : Fin 4) (buf : Fin 64) : Upd := .read fun s =>
  let w := if sec.val = 3 then elemWord s c 3 buf else elemWord s c sec (s.get (fifoGet c sec))
  mramReadEffect c pid (w + s.lastWord c sec w)

/-- CAN_LOCK_TIMEOUT (R398). -/
def canLockTimeout (c : Fin 16) (sec : Fin 4) : Upd := .read fun s =>
  whenU ((s.canCh c).lock sec).isSome (seqs [setLock c sec none, inc (CAN_MR_CNT_LOCK_TO c), raiseCan c 28])

/-- A write of the message RAM is ignored inside a pending slot (R400). -/
def State.mramWriteIgnored (s : State) (c w : Nat) : Bool :=
  (s.pendingSlots c).any fun i =>
    let w0 := elemWord s c 4 (s.slotNo c i)
    w0 ≤ w && w < w0 + secWords s c 4

/-! ## Storing received frames (R390, R391, R396) -/

/-- The words of a received element. -/
def rxWords (r : CanRx) (seq cut : Nat) (data : List Byte) : List Nat :=
  [(if r.f.sec ∧ r.f.fmt.val = 2 then 2 ^ 31 else 0) + (if r.f.brs ∧ r.f.fmt.val = 1 then 2 ^ 30 else 0)
    + (if r.f.esi ∧ r.f.fmt.val = 1 then 2 ^ 29 else 0) + (if r.f.ext then 2 ^ 28 else 0) + (if r.f.rmt then 2 ^ 27 else 0)
    + (if r.dtValid then 2 ^ 26 else 0) + cut * 2 ^ 25 + (if r.noMatch then 2 ^ 24 else 0) + r.idx * 2 ^ 16 + seq % 65536,
   r.f.fmt.val * 2 ^ 30 + r.f.id.val,
   (if r.f.fmt.val = 2 then r.f.sdt.val * 2 ^ 24 + r.f.vcid.val * 2 ^ 16 else 0)
     + (if r.f.fmt.val = 2 then r.f.dlc.val else r.f.dlc.val % 16),
   if r.f.fmt.val = 2 then r.f.af.toNat else 0,
   r.ts, if r.dtValid then r.dt % 2 ^ 32 else 0, if r.dtValid then r.dt / 2 ^ 32 % 2 ^ 32 else 0, 0]
  ++ (List.range ((data.length + 3) / 4)).map fun k => leValue ((data.drop (4 * k)).take 4)

/-- Write an element of a section and count the frame. -/
def rxStore (c sec i : Nat) (r : CanRx) (data : List Byte) : Upd := .read fun s =>
  let room := 4 * (secWords s c sec - 8)
  let d := data.take room
  let cut := decide (d.length < data.length)
  seqs [
    setWords c (elemWord s c sec i) (rxWords r ((s.canCh c).seq + 1) cut.toNat d),
    whenU cut (inc (CAN_MR_CNT2_CUT c)),
    updCan c fun x => { x with seq := x.seq + 1 }]

/-- The lost count and event of a target. -/
def rxLost (c sec : Nat) : Upd := match sec with
  | 0 => .seq (inc (CAN_MR_CNT_FIFO0_LOST c)) (raiseCan c 18)
  | 1 => .seq (inc (CAN_MR_CNT_FIFO1_LOST c)) (raiseCan c 21)
  | _ => .seq (inc (CAN_MR_CNT_RXBUF_LOST c)) (raiseCan c 23)

/-- CAN_PRIO_STAT records a priority message: its filter element, its target (0 and 1 the FIFOs, 2 a dedicated buffer, 3 the router only)
and its place there (R394). -/
def prioRecord (c idx t i : Nat) : Upd := setReg (CAN_PRIO_STAT c) (2 ^ 31 + idx * 2 ^ 16 + t * 2 ^ 8 + i)

/-- The record when the filter element matches: the place in a FIFO is the one that the frame would take. -/
def prioMatched (c : Nat) (r : CanRx) : Upd := .read fun s => whenU r.prio (match r.target with
  | 0 => prioRecord c r.idx 3 0
  | 3 => prioRecord c r.idx 2 r.buf
  | t => prioRecord c r.idx (t - 1) (s.get (fifoPut c (t - 1))))

/-- Store a valid frame in its target (R396); a priority message is announced once it is stored or passed on (R394). -/
def rxPlace (c : Nat) (r : CanRx) (data : List Byte) : Upd := .read fun s =>
  let prio (t i : Nat) := whenU r.prio (.seq (prioRecord c r.idx t i) (raiseCan c 24))
  let lost (sec : Nat) : Upd := .seq (rxLost c sec) (whenU (r.prio && r.router) (raiseCan c 24))
  match r.target with
  | 0 => prio 3 0
  | 3 =>
    let held := (s.canCh c).lockB.any (·.buf == r.buf)
    if secCount s c 3 ≤ r.buf ∨ held then lost 3
    else seqs [
      rxStore c 3 r.buf r data, prio 2 r.buf,
      whenU (s.bitAt (newReg c r.buf) (r.buf % 32)) (.seq (inc (CAN_MR_CNT2_RXBUF_OVR c)) (raiseCan c 23)),
      setBit (newReg c r.buf) (r.buf % 32), raiseCan c 22]
  | t =>
    let sec := t - 1
    let n := secCount s c sec
    let fill := s.get (fifoFill c sec)
    let put := s.get (fifoPut c sec)
    let overwrite := s.flag ⟨if sec = 0 then CAN_FIFO0_CFG c else CAN_FIFO1_CFG c, 7, 7⟩
    let wm := if sec = 0 then s.get (CAN_FIFO_WM_WM0 c) else s.get (CAN_FIFO_WM_WM1 c)
    let (b0, b1) := if sec = 0 then (16, 17) else (19, 20)
    if n = 0 then lost sec
    else if fill < n then seqs [rxStore c sec put r data, prio sec put, .read fun s => fifoAdvance s c sec wm b0 b1]
    else if overwrite ∧ ((s.canCh c).lock sec).isNone then seqs [
      rxStore c sec put r data, prio sec put,
      set (fifoPut c sec) ((put + 1) % n), set (fifoGet c sec) ((s.get (fifoGet c sec) + 1) % n),
      inc (CAN_MR_CNT2_FIFO_OVR c), raiseCan c (if sec = 0 then 18 else 21), raiseCan c b0]
    else lost sec

/-! ## Filters (R392 to R394) -/

/-- Whether filter element `i` matches a frame. -/
def State.filterHit (s : State) (c i : Nat) (f : CanFrame) : Bool :=
  let w := elemWord s c 5 i
  let w0 := s.mramWord c w
  let m := bits w0 2 0
  let ext := bit w0 3
  let msk (v : Nat) := if ext then bits v 28 0 else bits v 10 0
  let a := msk (s.mramWord c (w + 1))
  let b := msk (s.mramWord c (w + 2))
  let id := if ext then f.id.val else f.id.val % 2048
  let fm := if bits w0 6 4 = 0 then 7 else bits w0 6 4
  let w3 := s.mramWord c (w + 3)
  let af := s.mramWord c (w + 4)
  let afm := s.mramWord c (w + 5)
  (m == 1 || m == 2 || m == 3) && ext == f.ext && bit fm f.fmt
    && (match m with
        | 1 => id &&& b == a &&& b
        | 2 => decide (a ≤ id ∧ id ≤ b)
        | _ => id == a || id == b)
    && (!bit w0 7 || (f.fmt.val == 2 && bits w3 23 16 &&& bits w3 31 24 == f.sdt.val &&& bits w3 31 24
        && bits w3 7 0 &&& bits w3 15 8 == f.vcid.val &&& bits w3 15 8 && af &&& afm == f.af.toNat &&& afm))

/-- The decision on a frame (R393, R394), with its stamps. -/
def State.filterFrame (s : State) (c : Nat) (f : CanFrame) (ts dt : Nat) (dtv : Bool) : CanRx :=
  let r (target : Nat) (router noMatch : Bool) (idx buf : Nat) (prio : Bool) : CanRx :=
    ⟨f, target, router, noMatch, idx, buf, prio, ts, dt, dtv, none⟩
  let reject := r 0 false false 0 0 false
  if f.rmt ∧ (if f.ext then s.flag (CAN_ACCEPT_CFG_RMT_EXT_DROP c) else s.flag (CAN_ACCEPT_CFG_RMT_STD_DROP c)) then reject
  else match (List.range (secCount s c 5)).find? fun i => s.filterHit c i f with
  | some i =>
    let w0 := s.mramWord c (elemWord s c 5 i)
    let a := bits w0 15 12
    if a = 0 ∨ 8 ≤ a then reject else r (a % 4) (decide (4 ≤ a)) false i (bits w0 21 16) (bit w0 8)
  | none =>
    let n := if f.ext then s.get (CAN_ACCEPT_CFG_NOMATCH_EXT c) else s.get (CAN_ACCEPT_CFG_NOMATCH_STD c)
    if n = 1 ∨ n = 2 then r n false true 0 0 false else reject

end Sys2Proof.Machine
end

