-- ==== Sys2Proof/Machine/Load.lean ====
section
/-!
DEFINITION. The load channels: ratings, commands, modes, pairs, the clamp energy meter, turning on and off, the budget
governor and the safe state (12_load_channels.md, and R307 to R329 of 13_load_protection.md where they share these steps).
A load is named by its leader's number g = 16·die + cell; an unpaired channel is its own leader.
-/
namespace Sys2Proof.Machine

/-! ## Ratings (R278, R279, R280, R325) -/

/-- One of three values by class H, M, L. -/
def byClass (g h m l : Nat) : Nat := match lswClass (g % 16) with | 0 => h | 1 => m | _ => l
def contUA (g : Nat) : Nat := byClass g 30000000 10000000 3000000
def limUA (g : Nat) : Nat := byClass g 120000000 45000000 14000000
def fullUA (g : Nat) : Nat := byClass g 150000000 56250000 17500000
def clampMJ (g : Nat) : Nat := byClass g 400 120 35
def repMJ (g : Nat) : Nat := byClass g 2000 800 250
def pulseNs (g : Nat) : Nat := byClass g 4000 2000 1000

/-- The current of a sample code in µA: code 16383 is full scale (notes/assumptions/10.md). -/
def codeUA (g code : Nat) : Nat := code * fullUA g / 16383

/-- The global index of R280. -/
def globalIndex (g : Nat) : Nat :=
  let d := g / 16
  let c := g % 16
  if c < 2 then 2 * d + c else if c < 8 then 8 + 6 * d + (c - 2) else 32 + 8 * d + (c - 8)

/-- The channel with global index `x` (R280). -/
def ofGlobal (x : Nat) : Nat :=
  if x < 8 then 16 * (x / 2) + x % 2
  else if x < 32 then 16 * ((x - 8) / 6) + 2 + (x - 8) % 6
  else 16 * ((x - 32) / 8) + 8 + (x - 32) % 8

/-! ## Views -/

def State.chan (s : State) (g : Nat) : Chan := mapGet {} s.b.lsw.ch g
def State.die (s : State) (d : Nat) : Die := mapGet {} s.b.lsw.die d

def updChan (g : Nat) (f : Chan → Chan) : Upd := upd fun b =>
  { b with lsw := { b.lsw with ch := mapPut {} b.lsw.ch g (f (mapGet {} b.lsw.ch g)) } }
def updDie (d : Nat) (f : Die → Die) : Upd := upd fun b =>
  { b with lsw := { b.lsw with die := mapPut {} b.lsw.die d (f (mapGet {} b.lsw.die d)) } }

/-- The unit number of the LSW block of channel `g`. -/
def lswUnit (g : Nat) : Nat := 16 + g / 16

/-- The leader of the load that channel `g` belongs to (R291). -/
def State.lead (s : State) (g : Nat) : Nat := if g % 2 = 1 ∧ s.flag (LSW_CH_CFG_PAIR (g - 1)) then g - 1 else g

/-- The channels of the load that `l` leads. -/
def State.members (s : State) (l : Nat) : List Nat :=
  if l % 2 = 0 ∧ s.flag (LSW_CH_CFG_PAIR l) then [l, l + 1] else [l]

/-- Twice the class ratings for a pair (R292). -/
def State.scale (s : State) (l : Nat) : Nat := (s.members l).length

def State.lswRetired (s : State) (g : Nat) : Bool := s.flag (CELL_STAT_RETIRED (lswUnit g) (g % 16))

/-- Both cells of a pair enabled, and the LSW page (R284, R292, R304). -/
def State.loadEnabled (s : State) (l : Nat) : Bool :=
  (s.members l).all fun g => s.flag (CELL_CTRL_EN (lswUnit g) (g % 16)) && s.flag (BLK_CTRL_EN (lswUnit g))

def State.loadRetired (s : State) (l : Nat) : Bool := (s.members l).any s.lswRetired

/-- The thermal latch of a load is set (R317). -/
def State.latched (s : State) (l : Nat) : Bool :=
  (s.members l).any fun g => s.flag (LSW_PR_STAT_LATCH_TJ g) || s.flag (LSW_PR_STAT_LATCH_WIRE g)

/-- The mode of a load; 7 acts as 0 (R285). -/
def State.mode (s : State) (l : Nat) : Nat := s.get (LSW_CH_CFG_MODE l) % 7

def pwmMode (m : Nat) : Bool := 2 ≤ m && m ≤ 5

/-- The load runs in PWM now: a PWM mode, or the hold phase of a valve. -/
def State.inPwm (s : State) (l : Nat) : Bool := pwmMode (s.mode l) || (s.mode l == 6 && !(s.chan l).peak)

/-- The present current of a load: the latest samples of its channels, summed (R292). -/
def State.loadUA (s : State) (l : Nat) : Nat :=
  (s.members l).foldl (fun a g => a + codeUA g (s.get (LSW_CH_MEAS_RAW_SAMPLE g))) 0

/-- The module is in the safe state (R271). -/
def State.moduleSafe (s : State) : Bool := s.flag MSU_FAULT_STAT_SAFE

/-- A cause of the channel's safe state is present (R302). Pair state None is 3 (R251). -/
def State.safeCause (s : State) (l : Nat) : Bool :=
  s.moduleSafe || (s.die (l / 16)).hbLost || (s.chan l).bindTo
    || (s.flag (LSW_CH_SAFETY_SAFETY l) && s.get PAR_ACTIVE_PAIR_STATE == 3)

/-- The die holds its channels off: stud, OV_LONG, power-down, ground loss (R88, R91, R97, R302), a module reset (R139), or is not powered. -/
def State.heldOff (s : State) (g : Nat) : Bool :=
  let d := s.die (g / 16)
  d.batLow || d.ovLong || d.down || d.gnd || d.brown || d.resetting || !d.on

def cmdOn (w : Nat) : Bool := bit w 31
def cmdSoft (w : Nat) : Bool := bit w 30
def cmdDuty (w : Nat) : Nat := w % 4096

/-- Junction temperature, °C plus 64. -/
def State.tj (s : State) (g : Nat) : Nat := s.get (LSW_CH_STATUS2_T_J g)

/-- The gate of R327: the latch is clear, Tj is below T_RESTART, T_DIE is below DIE_WARN with the hysteresis of R318, and
nothing holds the die's channels off. -/
def State.gateOpen (s : State) (l : Nat) : Bool :=
  !s.latched l && decide (s.tj l < min 214 (max 124 (s.get (LSW_PR_THERM_T_RESTART l))))
    && !s.flag (LSW_PR_DIE_STAT_HOT (l / 16)) && !s.heldOff l

/-! ## Status -/

/-- LSW_CH_STATUS0.STATE (R306). A pair's trip is the state of the cell that detected it; the other is off (R41). -/
def State.chState (s : State) (g : Nat) : Nat :=
  let l := s.lead g
  let c := s.chan l
  if (c.out = .clamp ∨ c.out = .ramp) ∧ ¬ c.safe then 2
  else if s.lswRetired g then 4
  else if ¬ s.loadEnabled l ∧ c.out = .off then 7
  else if c.safe ∧ ¬ c.tripped then 5
  else if c.tripped ∧ (s.chan g).detected then 3
  else if c.shed ≠ .none then 6
  else if c.out = .on then 1 else 0

/-- The channel's switch carries current: in its on-phase or turning off. -/
def Chan.conducts (c : Chan) : Bool := (c.out = .on && c.phase) || c.out = .clamp || c.out = .ramp

/-- Refresh the status registers of one channel from its load's record. -/
def showCh (g : Nat) : Upd := .read fun s =>
  let l := s.lead g
  let c := s.chan l
  let f := g ≠ l
  let d := g / 16
  let old := s.reg (LSW_CH_STATUS0 g)
  let b (x : Bool) (i : Nat) : Nat := x.toNat * 2 ^ i
  let keep := (bits old 26 23) * 2 ^ 23 + b (bit old 16) 16 + (if f then 0 else bits old 15 13 * 2 ^ 13 + bits old 10 8 * 2 ^ 8)
    + bits old 7 6 * 2 ^ 6
  seqs [
    setReg (LSW_CH_STATUS0 g) (s.chState g * 2 ^ 29 + keep
      + b (c.out = .on && c.phase) 28 + b (c.peak || c.win) 27
      + b (s.flag (LSW_PR_STAT_LATCH_TJ g) || s.flag (LSW_PR_STAT_LATCH_WIRE g)) 22
      + b c.retryWait 21 + b c.coolWait 20 + b (c.out = .clamp) 19 + b (c.out = .ramp) 18
      + b ((c.inrush || c.win) && s.flag (LSW_PR_DIE_STAT_UV d)) 17
      + b (c.inrush && !f) 12 + b (c.test && !f) 11),
    set (LSW_PR_STAT_PENDING g) (c.retryWait || c.coolWait || c.gate).toNat,
    set (LSW_PR_STAT_COOL_LEFT g) ((c.coolMs + 99) / 100),
    putBit (CELL_STAT (lswUnit g) (g % 16)) 8 c.conducts,
    putBit (LSW_DIE_ON d) (g % 16) c.conducts,
    putBit (LSW_DIE_SHED d) (g % 16) (c.shed != .none),
    putBit (LSW_PR_DIE_STAT d) (g % 16) (c.shed == .heat)]

/-- Refresh the status of every channel of a load. -/
def showLoad (l : Nat) : Upd := .read fun s => forEach (s.members l) showCh

/-- Raise a channel event on its die's page and its cell page (R304). -/
def raiseCh (g i : Nat) : Upd := .seq (raise (lswUnit g) i) (raiseCell (lswUnit g) (g % 16) i)

/-! ## Supply compensation (R288, R345) -/

def State.vBat (s : State) (l : Nat) : Nat := s.get (LSW_CH_STATUS2_V_BAT l)
def State.vNom (s : State) (l : Nat) : Nat := min 2000 (max 600 (s.get (LSW_DG_LAMP_V_NOM l)))

/-- ⌊DUTY × (V_NOM / V_bat)²⌋ before saturation, V_bat taken as 6.00 V at least. -/
def State.lampDuty (s : State) (l duty : Nat) : Nat :=
  let v := max 600 (s.vBat l)
  duty * s.vNom l ^ 2 / v ^ 2

/-- ⌊HOLD_DUTY × V_NOM / V_bat⌋ before saturation. -/
def State.holdDuty (s : State) (l : Nat) : Nat :=
  let v := (s.chan l).valve
  if bit v 17 then bits v 31 20 * s.vNom l / max 600 (s.vBat l) else bits v 31 20

/-- The duty a load's mode asks for at the next period start, before saturation (R285). A motor's follows its ramp. -/
def State.askedDuty (s : State) (l : Nat) : Nat :=
  match s.mode l with
  | 1 => 4095
  | 2 => cmdDuty (s.chan l).applied
  | 3 => s.lampDuty l (cmdDuty (s.chan l).applied)
  | 4 => (s.chan l).effNext
  | 5 => s.lampDuty l (cmdDuty (s.chan l).applied)
  | 6 => if (s.chan l).peak then 4095 else s.holdDuty l
  | _ => 0

/-- Recompute the duty and COMP_SAT, raised when it changes from 0 to 1 (R346). -/
def compUpdate (l : Nat) : Upd := .read fun s =>
  let v := s.askedDuty l
  let sat := decide (4095 < v)
  seqs [
    updChan l fun c => { c with effNext := min 4095 v },
    whenU (sat && !s.flag (LSW_CH_STATUS0_COMP_SAT l)) (raiseCh l 20),
    set (LSW_CH_STATUS0_COMP_SAT l) sat.toNat]

/-! ## Off-state tests end early (R342) -/

/-- A test in progress is abandoned with result 5. -/
def testAbandon (l : Nat) : Upd := .read fun s => whenU (s.chan l).test (seqs [
  updChan l fun c => { c with test := false },
  set (LSW_DG_RESULT_LAST l) 5, set (LSW_CH_STATUS0_DG_LAST l) 5,
  inc (LSW_DG_CNT_ABANDONED (l / 16)), inc (LSW_DG_EVT_CNT_ABANDON l),
  clrBit (LSW_DG_STAT (l / 16)) (l % 16)])

/-! ## The clamp energy meter (R320, R321) -/

/-- The inductance the meter uses, in 10 µH. -/
def State.meterL (s : State) (l : Nat) : Nat :=
  let est := s.get (LSW_PR_CLAMP_L_EST l)
  let learned := if s.flag (LSW_PR_L_MEAS_VALID l) then s.get (LSW_PR_L_MEAS_L l) else 0
  match s.get (LSW_PR_CLAMP_L_SRC l) with
  | 0 => est
  | 1 => learned
  | _ => max est learned

/-- E_pred in mJ as a fraction: ½ · L · I0² · 40 V / (40 V − V_bat). -/
def State.ePred (s : State) (l i0 : Nat) : Nat × Nat :=
  (s.meterL l * i0 ^ 2 * 4000, 2 * (4000 - s.vBat l) * 10 ^ 14)

/-- The prediction `p` exceeds E_budget = E_class × min(1, (175 − Tj) / 90), twice that for a pair. -/
def State.overBudget (s : State) (l : Nat) (p : Nat × Nat) : Bool :=
  decide (239 < s.tj l) || decide (s.scale l * clampMJ l * min 90 (239 - s.tj l) * p.2 < p.1 * 90)

/-- The prediction at a turn-off: whether it exceeds the budget. The prediction is a free value where V_bat reaches V_CL. -/
def predict (l i0 : Nat) (k : Bool → Upd) : Upd := .read fun s =>
  if 4000 ≤ s.vBat l then free fun v => seqs [
    set (LSW_PR_ENERGY_E_PRED l) (min 65535 v),
    k (s.overBudget l (v, 1))]
  else
    let p := s.ePred l i0
    rounded p.1 p.2 fun e => .seq (set (LSW_PR_ENERGY_E_PRED l) (min 65535 e)) (k (s.overBudget l p))

/-- E_budget of a load in µJ, rounded down (R321). -/
def State.budgetUJ (s : State) (l : Nat) : Nat := s.scale l * clampMJ l * min 90 (239 - s.tj l) * 1000 / 90

/-- How a turn-off goes (R324): as the meter decides, through the clamp whatever it predicts, along the soft ramp. -/
inductive How where
  | meter | clamp | soft
  deriving DecidableEq, Repr

/-- What ends with the turn-on that ends: phases, windows, waits. -/
def Chan.quiet (c : Chan) : Chan :=
  { c with phase := false, wait := false, peak := false, win := false, inrush := false, down := false, high := false,
           after := false, olonRun := false, olonHigh := false }

/-- Begin a soft ramp (R323): `predicted` where the meter chose it, which raises SOFT_RAMP. -/
def beginRamp (l : Nat) (predicted : Bool) : Upd := seqs [
  updChan l fun c => { c with out := .ramp, steep := false },
  inc (LSW_PR_EVT_CNT_SOFT_RAMPS (l / 16)),
  whenU predicted (raiseCh l 11)]

/-- Turn a load off (R303, R320 to R324). A load already on its soft ramp passes into the clamp where `how` demands it. -/
def turnOff (l : Nat) (how : How) (trip : Bool := false) : Upd := .read fun s =>
  let c := s.chan l
  match c.out with
  | .off => updChan l Chan.quiet
  | .on => predict l (s.loadUA l) fun exceeds => seqs [
      updChan l fun c => { c.quiet with i0 := s.loadUA l, budUJ := s.budgetUJ l, tripOff := trip, fixed := how == .clamp },
      if how = .soft ∨ (how = .meter ∧ exceeds) then beginRamp l (how == .meter)
      else updChan l fun c => { c with out := .clamp },
      forEach (s.members l) fun g => set (LSW_CH_STATUS0_LIMIT g) 0,
      set (LSW_CH_STATUS3_EFF_DUTY l) 0]
  | _ => seqs [
      updChan l fun c => { c with after := false },
      whenU (how == .clamp) (updChan l fun c => { c with out := .clamp, fixed := true, tripOff := c.tripOff || trip })]

/-! ## Turning on -/

/-- SOFT_STOP, LSW_CH_MOTOR and LSW_CH_VALVE take effect at a transition of ON from 0 to 1 (R286). -/
def latchModes (l : Nat) : Upd := .read fun s => updChan l fun c => { c with
  softStop := s.flag (LSW_CH_CFG_SOFT_STOP l), motor := s.reg (LSW_CH_MOTOR l), valve := s.reg (LSW_CH_VALVE l) }

/-- A command word replaces the one in LSW_CH_CMD. -/
def storeCmd (g w : Nat) : Upd := .read fun s => .seq (whenU (cmdOn w && !cmdOn (s.reg (LSW_CH_CMD g))) (latchModes g)) (setReg (LSW_CH_CMD g) w)

/-- A fresh turn-on of the load's mode with the command in force (R287, R288, R290, R328, R347). -/
def turnOn (l : Nat) : Upd := .read fun s =>
  let m := s.mode l
  let w := (s.chan l).applied
  let motor := (s.chan l).motor
  if m = 0 then updChan l fun c => { c with out := .off } else seqs [
    testAbandon l,
    updChan l fun c => { c with
      out := .on, gate := false, after := false, hold := false, tripped := false, retryWait := false, coolWait := false,
      coolMs := 0, shed := .none, onEvals := 0, acc := s.get (LSW_CH_GOV_I_EXP l) * 250000,
      limUs := 0, freeUs := 0, high := false, down := false, start := 0, period := 0, onNs := 0,
      phase := m == 1 || m == 6, wait := pwmMode m, peak := m == 6,
      win := m == 4 && bits motor 31 16 != 0, inrush := m == 3 && s.flag (LSW_DG_INRUSH_INR_MS l), winUs := 0,
      effNext := if m = 4 then (if bits motor 15 0 = 0 then cmdDuty w else 0) else c.effNext,
      perSum := 0, perNum := 0, onSum := 0, onNum := 0, olonRun := false },
    forEach (s.members l) fun g => whenU (g != l) (updChan g fun c => { c with limUs := 0, freeUs := 0, high := false }),
    compUpdate l,
    set (LSW_CH_STATUS3_EFF_DUTY l) (if m = 1 ∨ m = 6 then 4095 else 0)]

/-! ## The budget governor (R298 to R301) -/

/-- The compute die is unpowered: Suspend, Watch, Deep Standby (R85, R92). -/
def State.computeOff (s : State) : Bool := 2 ≤ s.get MSU_PWR_STATE_STATE

/-- A governor field: while the compute die is unpowered the reset values govern (R301). -/
def State.govFld (s : State) (f : Fld) : Nat :=
  if s.computeOff then bits (regReset f.reg) f.hi f.lo else s.get f

/-- The budgets of BAT1, BAT2 and the module in µA (R305). -/
def State.budget (s : State) : Nat → Nat
  | 0 => min 500 (s.govFld (LSW_GOV_BUD_BAT1 0)) * 250000
  | 1 => min 500 (s.govFld (LSW_GOV_BUD_BAT2 0)) * 250000
  | _ => min 800 (s.govFld (LSW_GOV_BUD_MOD 0)) * 250000

/-- The latest sum on a budget in µA. -/
def State.govSum (s : State) : Nat → Nat
  | 0 => s.b.lsw.bat1
  | 1 => s.b.lsw.bat2
  | _ => s.b.lsw.mod

/-- The stud budget of a channel: BAT1 for dice 0 and 1, BAT2 for dice 2 and 3. -/
def studOf (g : Nat) : Nat := g / 32

def State.prio (s : State) (l : Nat) : Nat := s.govFld (LSW_CH_GOV_PRIO l)
def State.iExp (s : State) (l : Nat) : Nat := s.govFld (LSW_CH_GOV_I_EXP l) * 250000

/-- The leaders of all loads. -/
def State.loads (s : State) : List Nat := (List.range 64).filter fun g => s.lead g == g

/-- A channel the governor and the die never shed: PRIO 7, held on in its safe state, driven by Glade (R299, R301, R318). -/
def State.neverShed (s : State) (l : Nat) : Bool :=
  s.prio l == 7 || (s.chan l).safe || s.get (LSW_CH_STATUS0_CMD_SRC l) == 3

/-- Insert by a strict order. -/
def insertBy {α : Type} (lt : α → α → Bool) (x : α) : List α → List α
  | [] => [x]
  | y :: ys => if lt x y then x :: y :: ys else y :: insertBy lt x ys

/-- Sort by a strict order. -/
def sortBy {α : Type} (lt : α → α → Bool) : List α → List α
  | [] => []
  | x :: xs => insertBy lt x (sortBy lt xs)

/-- Shed first: lower PRIO, then higher global index. -/
def State.shedBefore (s : State) (a b : Nat) : Bool :=
  s.prio a < s.prio b || (s.prio a == s.prio b && globalIndex b < globalIndex a)

/-- The conducting loads that may be shed and satisfy `p`, first to be shed first. -/
def State.shedOrder (s : State) (p : Nat → Bool) : List Nat :=
  sortBy s.shedBefore (s.loads.filter fun l => (s.chan l).out == .on && !s.neverShed l && p l)

/-- Change the latest sums by the accounted current of a load. -/
def sumAdd (l ua : Nat) : Upd := upd fun b =>
  { b with lsw := { b.lsw with
      bat1 := b.lsw.bat1 + (if studOf l = 0 then ua else 0)
      bat2 := b.lsw.bat2 + (if studOf l = 0 then 0 else ua)
      mod := b.lsw.mod + ua } }
def sumSub (l ua : Nat) : Upd := upd fun b =>
  { b with lsw := { b.lsw with
      bat1 := b.lsw.bat1 - (if studOf l = 0 then ua else 0)
      bat2 := b.lsw.bat2 - (if studOf l = 0 then 0 else ua)
      mod := b.lsw.mod - ua } }

/-- Shed a load: it turns off as for EN = 0 and keeps its command (R300, R303). -/
def shedLoad (l : Nat) (kind : Shed) (how : How) : Upd := seqs [
  turnOff l how,
  updChan l fun c => { c with shed := kind, shedEvals := 0 },
  .read fun s => sumSub l (s.chan l).acc,
  updChan l fun c => { c with acc := 0 },
  whenU (kind == .budget) (.seq (raiseCh l 0) (inc (LSW_GOV_CNT_SHED 0))),
  showLoad l]

/-- The candidates taken, in order, until every budget fits: `need` holds what BAT1, BAT2 and the module must free. -/
def takeUntil (acc : Nat → Nat) : List Nat → Nat × Nat × Nat → Option (List Nat)
  | _, (0, 0, 0) => some []
  | [], _ => none
  | l :: ls, (a, b, m) =>
    (takeUntil acc ls (if studOf l = 0 then (a - acc l, b, m - acc l) else (a, b - acc l, m - acc l))).map (l :: ·)

/-- Admission of a command that would turn a load on (R299): turned on, with lower-priority loads shed in the same step, or held shed. A
load of PRIO 7 and one that Glade drives are held like any other: R299 and R301 say only that they are never shed. -/
def admitLoad (l : Nat) : Upd := .read fun s =>
  let i := s.iExp l
  let excess (n : Nat) := s.govSum n + i - s.budget n
  let (a, b) := if studOf l = 0 then (excess 0, 0) else (0, excess 1)
  let m := excess 2
  let cand := s.shedOrder fun x => s.prio x < s.prio l && x != l && (m != 0 || studOf x == studOf l)
  match takeUntil (fun x => (s.chan x).acc) cand (a, b, m) with
  | some ls => seqs [forEach ls fun x => shedLoad x .budget .meter, turnOn l, sumAdd l i]
  | none => seqs [updChan l fun c => { c with shed := .held, shedEvals := 0 }, raiseCh l 2, inc (LSW_GOV_CNT_HELD 0)]

/-! ## Commands (R281 to R287, R328) -/

/-! ## The slots of Glade (R122 to R127, R135) -/

def updGld (f : Gld → Gld) : Upd := upd fun b => { b with gld := f b.gld }
def State.gldSlot (s : State) (k : Nat) : GldSlot := mapGet {} s.b.gld.slots k
def updGldSlot (k : Nat) (f : GldSlot → GldSlot) : Upd := updGld fun x => { x with slots := mapPut {} x.slots k (f (mapGet {} x.slots k)) }

/-- The channel that slot `k` names. -/
def State.slotCh (s : State) (k : Nat) : Nat := ofGlobal (s.get (GLD_DLOAD_CFG_CH k))

/-- An enabled slot of lower number names the same channel. -/
def State.slotDup (s : State) (k : Nat) : Bool := (List.range k).any fun j =>
  s.flag (GLD_DLOAD_CFG_EN j) && s.get (GLD_DLOAD_CFG_CH j) == s.get (GLD_DLOAD_CFG_CH k)

/-- The slot that designates channel `g`. -/
def State.designates (s : State) (g k : Nat) : Bool := s.flag (GLD_DLOAD_CFG_EN k) && !s.slotDup k && s.slotCh k == g

/-- Command of a designated channel passes from Glade (R127): after a full wake, at the first command or bound signal it accepts. -/
def handOver (g : Nat) : Upd := .read fun s => whenU (s.b.gld.woke && decide (s.get MSU_PWR_STATE_STATE ≤ 1))
  (forN 8 fun k => whenU (s.designates g k) (updGldSlot k fun x => { x with handed := true }))

/-- A designated channel trips or retires (R135). -/
def dloadFault (g : Nat) : Upd := .read fun s => whenU ((List.range 8).any (s.designates g)) (raise 22 4)

/-- Put a command in force and act on it: the last row of R284. -/
def apply (l w src : Nat) : Upd := .read fun s =>
  let c := s.chan l
  let m := s.mode l
  seqs [
    updChan l fun c => { c with applied := w, nextSrc := src },
    set (LSW_CH_STATUS0_CMD_SRC l) src,
    if cmdOn w then
      match c.out with
      | .on => seqs [updChan l fun c => { c with down := false },
          whenU (m == 4 && bits c.motor 15 0 == 0) (updChan l fun c => { c with effNext := cmdDuty w }),
          whenU (pwmMode m && m != 4) (compUpdate l)]
      | .off => if m = 0 then .skip else admitLoad l
      | _ => updChan l fun c => { c with after := true }
    else
      if c.out = .on ∧ m = 4 ∧ c.softStop ∧ bits c.motor 15 0 ≠ 0 ∧ ¬ cmdSoft w then updChan l fun c => { c with down := true }
      else turnOff l (if cmdSoft w then .soft else .meter)]

/-- Turn on with the stored command if the gate passes, else wait for it without a retry (R284, R329). -/
def applyGated (l src : Nat) : Upd := .read fun s =>
  if s.gateOpen l then .seq (updChan l fun c => { c with gate := false, hold := false }) (apply l (s.reg (LSW_CH_CMD l)) src)
  else updChan l fun c => { c with gate := true, nextSrc := src }

/-- A command word reaches channel `g` from a source: 0 register, 1 pair controller, 2 signal, 3 Glade. The first row of
R284 that applies decides. `isReg`: a register write, which a follower still stores. -/
def command (g w src : Nat) (isReg : Bool) : Upd := .read fun s =>
  let c := s.chan g
  let on := cmdOn w
  let group (n : Nat) : Bool := let a := s.get (IOM_INST_BIND_ARG n); bits a 17 16 == g / 16 && bit a (g % 16)
  if s.moduleSafe ∨ s.lswRetired g then .skip
  else if s.frozen 3 group then .seq (storeCmd g w) (updChan g fun c => { c with nextSrc := src, frz := true })
  else if ¬ s.loadEnabled g then .skip
  else if s.lead g ≠ g then whenU isReg (storeCmd g w)
  else if s.loadRetired g then .skip
  else seqs [
    storeCmd g w,
    whenU (src != 3) (handOver g),
    if c.safe then
      if s.safeCause g then .skip
      else if c.out = .on then .seq (updChan g fun c => { c with safe := false }) (apply g w src)
      else whenU on (.seq (updChan g fun c => { c with safe := false, tripped := false })
        (if c.out = .off then applyGated g src else updChan g fun c => { c with after := true, nextSrc := src }))
    else if c.shed ≠ .none then
      if on then updChan g fun c => { c with nextSrc := src }
      else .seq (updChan g fun c => { c with shed := .none, applied := w, nextSrc := src }) (set (LSW_CH_STATUS0_CMD_SRC g) src)
    else if c.tripped then
      if on then
        if c.retryWait ∨ c.coolWait then updChan g fun c => { c with applied := w, nextSrc := src }
        else if c.out = .off then .seq (updChan g fun c => { c with tripped := false }) (applyGated g src)
        else updChan g fun c => { c with after := true, nextSrc := src }
      else .seq (updChan g fun c => { c with applied := w, nextSrc := src, retryWait := false, coolWait := false, coolMs := 0, gate := false, after := false })
        (set (LSW_CH_STATUS0_CMD_SRC g) src)
    else if s.heldOff g then
      .seq (updChan g fun c => { c with hold := true, applied := w, nextSrc := src }) (set (LSW_CH_STATUS0_CMD_SRC g) src)
    else if on ∧ c.out = .off ∧ s.latched g then updChan g fun c => { c with gate := true, nextSrc := src }
    else if on ∧ (c.out = .clamp ∨ c.out = .ramp) then updChan g fun c => { c with after := true, nextSrc := src }
    else .seq (updChan g fun c => { c with gate := false, after := false }) (apply g w src),
    showLoad g]

/-- Consume a retry and turn on afresh (R326 to R328). -/
def restart (l : Nat) : Upd := .read fun s => seqs [
  dec (LSW_CH_STATUS3_RETRY_LEFT l),
  updChan l fun c => { c with tripped := false, retryWait := false, coolWait := false, coolMs := 0, restarted := true,
                              applied := s.reg (LSW_CH_CMD l) },
  set (LSW_CH_STATUS0_CMD_SRC l) (s.chan l).nextSrc,
  turnOn l, showLoad l]

/-- The gate may have opened: what waits for it goes on (R327, R329). -/
def gateTry (l : Nat) : Upd := .read fun s =>
  let c := s.chan l
  if ¬ s.gateOpen l ∨ c.out ≠ .off ∨ c.safe ∨ ¬ s.loadEnabled l ∨ s.loadRetired l then .skip
  else if c.coolWait then restart l
  else if c.gate ∧ ¬ c.tripped ∧ c.shed = .none then .seq (applyGated l c.nextSrc) (showLoad l)
  else if c.hold ∧ ¬ c.tripped ∧ c.shed = .none then
    seqs [updChan l fun c => { c with hold := false },
      whenU (cmdOn (s.reg (LSW_CH_CMD l))) (apply l (s.reg (LSW_CH_CMD l)) c.nextSrc), showLoad l]
  else .skip

/-! ## The safe state (R302, R332) -/

/-- Enter the safe state that SAFE_SEL selects. A restart in progress is abandoned; a tripped or retired channel stays off. -/
def enterSafe (l : Nat) : Upd := .read fun s =>
  let c := s.chan l
  let off := c.tripped || s.loadRetired l || c.gate || s.latched l || s.heldOff l
  let w := 2 ^ 31 + s.get (LSW_CH_SAFETY_SAFE_DUTY l)
  whenU (!c.safe) (seqs [
    updChan l fun c => { c with safe := true, tripped := false, retryWait := false, coolWait := false, coolMs := 0,
                                gate := false, hold := false, shed := .none, after := false },
    match s.get (LSW_CH_SAFETY_SAFE_SEL l) with
    | 1 => whenU (!off) (seqs [whenU (!cmdOn c.applied) (latchModes l), updChan l fun c => { c with applied := w, down := false },
        if c.out = .off then turnOn l else if c.out = .on then compUpdate l
         else updChan l fun c => { c with after := true }])
    | 2 => .skip
    | _ => turnOff l .meter,
    showLoad l])

/-! ## Work in flight (R303) -/

/-- Whether the load is turning off. -/
def State.lswBusy (s : State) (g : Nat) : Bool :=
  let c := s.chan (s.lead g)
  c.out == .clamp || c.out == .ramp

/-- What a cell reset adds: the record of the channel, the retry budget; the wire model keeps the larger of T_amb and T
(R314), the device and latch state stay (R317). -/
def State.ambient (s : State) (l : Nat) : Nat :=
  if s.flag (LSW_PR_WIRE_AMB_SRC l) then s.get (LSW_DIE_STAT_T_DIE (l / 16)) else s.get (LSW_PR_WIRE_T_AMB l)

/-- Restart the wire model at the larger of T_amb and the present T (R314). -/
def wireRestart (g : Nat) : Upd := .read fun s => seqs [
  updChan g fun c => { c with t := max (s.ambient g * 2 ^ 32) c.t },
  .read fun s => set (LSW_CH_STATUS2_T_WIRE g) ((s.chan g).t / 2 ^ 32)]

/-- Offsets on a channel's cell page that a cell reset keeps beside those of R81: LSW_CH_SAFETY, OLON_CNT, CLAMP_TOT, and the
thermal latch (R303, R317). -/
def lswKeep : List Nat := [0x3C, 0x84]

def lswAfterReset (g : Nat) (cnt latchTj latchWire : Nat) : Upd := .read fun s => seqs [
  updChan g fun c => { t := c.t, eRep := c.eRep },
  set (LSW_DG_OLON_STAT_OLON_CNT g) cnt,
  set (LSW_PR_STAT_LATCH_TJ g) latchTj, set (LSW_PR_STAT_LATCH_WIRE g) latchWire,
  set (LSW_CH_STATUS3_RETRY_LEFT g) (s.get (LSW_PR_RETRY_RETRY_MAX g)),
  wireRestart g, showCh g]

/-- The draining of a channel's cell ends. -/
def lswDrained (g : Nat) : Upd := .read fun s =>
  cellDrained (lswUnit g) (g % 16) lswKeep (lswAfterReset g (s.get (LSW_DG_OLON_STAT_OLON_CNT g))
    (s.get (LSW_PR_STAT_LATCH_TJ g)) (s.get (LSW_PR_STAT_LATCH_WIRE g)))

/-- EN = 0: off per the meter, ON cleared in the channel's command and in the one that its pair takes (R292), waits and tests abandoned;
DRAINING until the element boundary. -/
def lswDisable (g : Nat) : Upd := .read fun s =>
  let l := s.lead g
  seqs [
    turnOff l .meter,
    testAbandon l,
    set (LSW_CH_CMD_ON g) 0, set (LSW_CH_CMD_ON l) 0, set (LSW_CH_MEAS_RAW_VALID g) 0,
    updChan l fun c => { c with applied := withBits c.applied 31 31 0, gate := false, hold := false, retryWait := false,
                                coolWait := false, coolMs := 0, shed := .none, after := false },
    cellDrain (lswUnit g) (g % 16) (·.lswBusy g) (lswDrained g),
    showLoad l, showCh g]

/-- Every channel of a die switches off through its clamp, whatever the meter predicts, its command kept (R324, R329). -/
def dieClampOff (d : Nat) : Upd := .read fun s => forEach (s.loads.filter fun l => l / 16 == d) fun l => seqs [
  .read fun s => whenU ((s.chan l).out == .on) (updChan l fun c => { c with hold := true, nextSrc := s.get (LSW_CH_STATUS0_CMD_SRC l) }),
  turnOff l .clamp, showLoad l]

/-- The tests of a die end early (R342): UV sets, or the stud falls below BAT_OK. -/
def testsAbandon (d : Nat) : Upd := forN 16 fun c => .seq (testAbandon (16 * d + c)) (showCh (16 * d + c))

/-- Every load that waits on a cause that has ended tries its gate. -/
def dieGateTry (d : Nat) : Upd := .read fun s => forEach (s.loads.filter fun l => l / 16 == d) gateTry

end Sys2Proof.Machine
end

