-- ==== Sys2Proof/Machine/LoadRows.lean ====
section
/-!
DEFINITION. The commands of the load channels: PWM, motor and valve phases, samples, the governor, protection, restarts and
diagnostics (12 to 14). An event row states that its moment has come; the model checks the state it needs.
-/
namespace Sys2Proof.Machine

/-! ## Trips (R307 to R310, R324, R326) -/

/-- The trip counter of a cause (R334). -/
def tripCnt (g : Nat) : Nat → Fld
  | 1 => LSW_PR_TRIP_CNT_OVERCURRENT g
  | 2 => LSW_PR_TRIP_CNT_OVERCURRENT g
  | 3 => LSW_PR_TRIP_CNT_THERMAL g
  | 4 => LSW_PR_TRIP_CNT_WIRE g
  | 5 => LSW_PR_TRIP_CNT_CLAMP g
  | _ => LSW_PR_TRIP_CNT_THERMAL g

/-- Channel `g` trips with a cause of R307: its load turns off, the fault is one of the cell that detected it (R330), TR while
retries are left and PM otherwise (R326); a commanded channel waits for its retry delay. -/
def trip (g cause : Nat) : Upd := .read fun s =>
  let l := s.lead g
  let u := lswUnit g
  let c := g % 16
  let none' := s.get (LSW_CH_STATUS3_RETRY_LEFT l) = 0
  seqs [
    turnOff l (if cause = 4 then .meter else if cause = 5 then .soft else .clamp) true,
    set (LSW_CH_STATUS3_TRIP_CAUSE g) cause, forEach (s.members l) fun x => updChan x fun ch => { ch with detected := x == g },
    inc (tripCnt g cause), inc (LSW_PR_EVT_CNT_TRIPS (g / 16)),
    raiseCh g 8, whenU (cause == 4) (raiseCh g 9), whenU (cause == 3) (raiseCh g 10),
    updChan l fun ch => { ch with
      tripped := true, shed := .none, gate := false,
      nextSrc := s.get (LSW_CH_STATUS0_CMD_SRC l), retryWait := cmdOn (s.reg (LSW_CH_CMD l)) && !ch.safe && !decide none' },
    dloadFault g, whenU (l != g) (dloadFault l),
    whenU (decide none') (raiseCh g 12),
    report u (some c) (if none' then PM else TR),
    showLoad l]

/-- The level of R308 in µA: TRIP_I, the inrush envelope of R348 in the inrush window. A TRIP_I outside its stated range is a
free value. -/
def tripLevel (l : Nat) (k : Nat → Upd) : Upd := .read fun s =>
  let n := s.scale l
  let i := s.get (LSW_PR_TRIP_TRIP_I l) * 250000
  let c := s.chan l
  let env (i : Nat) : Nat :=
    if c.inrush then
      min (limUA l * n) (max i (s.get (LSW_DG_INRUSH_I_PK l) * 250000
        * Config.decay (c.winUs / 10 * 10) (max 1 (s.get (LSW_DG_INRUSH_T_HALF l)) * 1000) / 2 ^ 32))
    else i
  if contUA l * n ≤ i ∧ i ≤ limUA l * n then k (env i) else free fun v => k (env v)

/-- The allowance of R309 for the time in limit, in µs. -/
def State.limitAllow (s : State) (l : Nat) : Nat :=
  let c := s.chan l
  if c.inrush || c.win then max 1 (s.get (LSW_PR_TRIP_WIN_LIM_MS l)) * 1000 else max 1 (s.get (LSW_PR_TRIP_LIM_US l)) * 10

/-- LIMIT_TIME_TRIP (R309). -/
def limitTimeTrip (g : Fin 64) : Upd := .read fun s =>
  let l := s.lead g
  whenU (decide (s.limitAllow l ≤ (s.chan g).limUs) && (s.chan l).out == .on) (trip g 2)

/-! ## Samples (R293, R294, R308, R309, R318) -/

/-- Take the voltages and the junction temperature of a slow sample (R293). -/
def slowSample (g : Nat) (x : SlowSample) : Upd := .read fun s => seqs [
  set (LSW_CH_STATUS1_V_OUT g) x.vOut, set (LSW_CH_STATUS2_V_BAT g) x.vBat, set (LSW_CH_STATUS2_T_J g) x.tj,
  gateTry (s.lead g)]

/-- The length of the load's PWM period in progress; the averages of R294 take samples for so long. -/
def State.perNs (s : State) (l : Nat) : Nat := (s.chan l).period

/-- CURRENT_SAMPLE (R293): one current sample, 1 µs after the last; the limit loop's state with it; every 10 µs the voltages and
the junction temperature. -/
def currentSample (g : Fin 64) (x : LoadSample) : Upd := .read fun s0 =>
  let l := s0.lead g
  let c := s0.chan l
  let code := x.code.val
  let inOn := c.out == .on && c.phase
  whenU (s0.die (g.val / 16)).on (seqs [
    set (LSW_CH_MEAS_RAW_SAMPLE g) code, set (LSW_CH_MEAS_RAW_VALID g) (s0.get (CELL_STAT_ENABLED (lswUnit g) (g.val % 16))),
    updChan g fun c => { c with
      sum := c.sum + code, sq := c.sq + (if g.val = l ∧ s0.scale l = 2 then code + s0.get (LSW_CH_MEAS_RAW_SAMPLE (l + 1)) else code) ^ 2, num := c.num + 1,
      perSum := if decide (c.perNum * 1000 < s0.perNs l) then c.perSum + code else c.perSum,
      perNum := if decide (c.perNum * 1000 < s0.perNs l) then c.perNum + 1 else c.perNum, slot := (c.slot.1 + code, c.slot.2 + 1),
      onSum := if inOn && decide (20 ≤ c.onNum) then c.onSum + code else c.onSum, onNum := if inOn then c.onNum + 1 else c.onNum,
      limUs := if inOn && x.limit then c.limUs + 1 else if 10000 ≤ c.freeUs + 1 then 0 else c.limUs,
      freeUs := if inOn && x.limit then 0 else if inOn then c.freeUs + 1 else c.freeUs },
    whenU (g.val == l && ((c.inrush && !c.wait) || c.win) && !s0.flag (LSW_PR_DIE_STAT_UV (g.val / 16)))
      (updChan l fun c => { c with winUs := c.winUs + 1 }),
    match x.slow with | some v => slowSample g v | none => .skip,
    set (LSW_CH_STATUS0_LIMIT g) (inOn && x.limit).toNat,
    if ¬ inOn then updChan g fun c => { c with high := false } else tripLevel l fun level => .read fun s =>
      let hi := decide (level ≤ s.loadUA l) && !c.win
      if hi && (s.chan g).high then trip g 1
      else seqs [
        updChan g fun c => { c with high := hi },
        whenU (x.limit && s.flag (LSW_PR_DIE_STAT_HOT (g.val / 16)))
          (if c.inrush || c.win then
            whenU (s.flag (LSW_PR_DIE_STAT_SHEDDING (g.val / 16)) && !s.neverShed l) (shedLoad l .heat .clamp)
           else trip g 6)]])

/-! ## PWM (R289, R290) -/

/-- The duty applied from this period start. -/
def State.nextDuty (s : State) (l : Nat) : Nat :=
  if s.mode l = 2 then cmdDuty (s.chan l).applied else (s.chan l).effNext

/-- The on-time in ns of a duty in a period of `p` ns: p × DUTY / 4095 rounded down to 10 ns, 0 below the shortest pulse, the
whole period where the off-time would be shorter than it (R281, R290). -/
def onTime (l p duty : Nat) : Nat :=
  let t := p * duty / 4095 / 10 * 10
  if 4095 ≤ duty then p else if t < pulseNs l then 0 else if p - t < pulseNs l then p else t

/-- The PWM period of a load in ns, PERIOD held to its range. -/
def State.pwmPeriod (s : State) (l : Nat) : Nat := min 10000000 (max 4000 (s.get (LSW_CH_PWM_PERIOD l))) * 10

/-- Device time `t` in ns is an aligned period start: t mod P = ⌊PHASE × P / 256⌋ rounded down to 10 ns. -/
def State.aligned (s : State) (l t : Nat) : Bool :=
  let p := s.pwmPeriod l
  t % p == s.get (LSW_CH_PWM_PHASE l) * p / 256 / 10 * 10

/-- I_AVG of a channel from a sum of codes over a number of samples, in 2 mA units (R294). -/
def setAvg (g sum num : Nat) : Upd :=
  whenU (num != 0) (rounded (sum * fullUA g) (16383 * num * 2000) fun v => set (LSW_CH_STATUS1_I_AVG g) (min 65535 v))

/-- I_AVG of a load's channels over the period that ends; the leader reports the sum (R292). -/
def periodAvg (l : Nat) : Upd := .read fun s => forEach (s.members l) fun g =>
  let c := s.chan g
  seqs [
    setAvg g (if g = l then (s.members l).foldl (fun a x => a + (s.chan x).perSum) 0 else c.perSum) c.perNum,
    updChan g fun c => { c with perSum := 0, perNum := 0 }]

/-- PWM_PERIOD_START (R289): device time reaches an aligned period start of the load, at `t` ns; a period in progress completes first
(R290). -/
def pwmPeriodStart (g : Fin 64) (t : Nat) : Upd := .read fun s =>
  let l := s.lead g
  let c := s.chan l
  let p := s.pwmPeriod l
  let on := onTime l p (s.nextDuty l)
  whenU (c.out == .on && s.inPwm l && s.aligned l t && (c.wait || decide (c.start + c.period ≤ t))) (seqs [
    whenU (!c.wait) (periodAvg l),
    updChan l fun c => { c with wait := false, phase := on != 0, start := t, period := p, onNs := on, onSum := 0, onNum := 0 },
    whenU (on != 0) (testAbandon l),
    set (LSW_CH_STATUS3_EFF_DUTY l) (s.nextDuty l),
    showLoad l])

/-- A comparison of the on-state detection (R343): the mean of `num` samples of codes summing to `sum`. -/
def olonCompare (l sum num : Nat) : Upd := .read fun s =>
  let lo := decide (sum * fullUA l < s.get (LSW_DG_OLON_CFG_OLON_I l) * 1000 * 16383 * num)
  whenU (s.flag (LSW_DG_OLON_CFG_OLON_EN l) && num != 0 && s.chState l == 1) (seqs [
    updChan l fun c => { c with olonRun := lo, olonHigh := !lo },
    whenU (!lo && !s.flag (LSW_DG_OLON_CFG_OLON_LATCH l) && s.flag (LSW_DG_OLON_STAT_OLON l))
      (seqs [set (LSW_DG_OLON_STAT_OLON l) 0, set (LSW_CH_STATUS0_OL_ON l) 0, raiseCh l 19])])

/-- The on-state comparison is suspended now, by the mode's window (R344). -/
def State.olonPaused (s : State) (l : Nat) : Bool := (s.chan l).inrush || (s.chan l).win || (s.chan l).peak

/-- The measured energy `uj` in µJ of a turn-off or a clamped off-edge (R325). -/
def clampEnergy (l uj : Nat) (clamped : Bool) : Upd := rounded uj 1000 fun mj => seqs [
  set (LSW_CH_STATUS3_E_LAST l) (min 4095 mj),
  inc (LSW_PR_CLAMP_TOT_E_TOTAL l) mj,
  whenU clamped (updChan l fun c => { c with eRep := c.eRep + uj }),
  .read fun s => rounded (s.chan l).eRep 1000 fun e => set (LSW_PR_ENERGY_E_REP l) (min 65535 e)]

/-- Whether the prediction of an off-edge exceeds the budget (R325); where V_bat reaches V_CL the prediction is a free value. -/
def willExceed (l : Nat) (k : Bool → Upd) : Upd := .read fun s =>
  if 4000 ≤ s.vBat l then free fun v => k (s.overBudget l (v, 1)) else k (s.overBudget l (s.ePred l (s.loadUA l)))

/-- PWM_ON_PHASE_END (R281): the on-time has passed at device time `t`; `uj` is the clamp energy measured after the edge. An
off-edge whose prediction exceeds the budget trips the channel with cause 5 along the soft ramp instead (R325). -/
def pwmOnPhaseEnd (g : Fin 64) (t uj : Nat) : Upd := .read fun s =>
  let l := s.lead g
  let c := s.chan l
  whenU (c.out == .on && s.inPwm l && c.phase && !c.wait && decide (c.start + c.onNs ≤ t) && (c.onNs != c.period || !s.aligned l t))
    (let sum := (s.members l).foldl (fun a x => a + (s.chan x).onSum) 0
     seqs [
      whenU (!s.olonPaused l && decide (40 ≤ c.onNum)) (olonCompare l sum (c.onNum - 20)),
      willExceed l fun exceeds => if exceeds then trip l 5
      else seqs [updChan l fun c => { c with phase := false },
        forEach (s.members l) fun x => set (LSW_CH_STATUS0_LIMIT x) 0,
        clampEnergy l uj true, showLoad l]])

/-! ## Motor and valve (R287, R288) -/

/-- MOTOR_RAMP_STEP (R287). -/
def motorRampStep (g : Fin 64) : Upd := .read fun s =>
  let l := s.lead g
  let c := s.chan l
  let r := bits c.motor 15 0
  let goal := if c.down then 0 else cmdDuty c.applied
  let e := if r = 0 then goal else if c.effNext ≤ goal then min goal (c.effNext + r) else max goal (c.effNext - r)
  whenU (c.out == .on && s.mode l == 4) (seqs [
    updChan l fun c => { c with effNext := e },
    whenU (c.down && e == 0) (turnOff l .meter),
    showLoad l])

/-- A window of R310 closes: the time in limit starts again from 0. -/
def windowEnd (l : Nat) : Upd := .read fun s => seqs [
  updChan l fun c => { c with win := false, inrush := false },
  forEach (s.members l) fun g => updChan g fun c => { c with limUs := 0, high := false },
  showLoad l]

/-- MOTOR_START_WINDOW_END (R287); its timer pauses while UV is set (R319). -/
def motorStartWindowEnd (g : Fin 64) : Upd := .read fun s =>
  let l := s.lead g
  whenU ((s.chan l).win && !s.flag (LSW_PR_DIE_STAT_UV (g.val / 16))) (windowEnd l)

/-- VALVE_PEAK_END (R288): hold PWM follows at the next aligned period start; the channel stays on until then. -/
def valvePeakEnd (g : Fin 64) : Upd := .read fun s =>
  let l := s.lead g
  whenU ((s.chan l).out == .on && (s.chan l).peak) (seqs [
    updChan l fun c => { c with peak := false, wait := true },
    compUpdate l, showLoad l])

/-! ## Bound signals (R283, R296, R297) -/

/-- The command word that FORMAT maps a value to (R296). -/
def boundWord (format v : Nat) : Nat :=
  match format with
  | 1 => if min v 4095 = 0 then 0 else 2 ^ 31 + min v 4095
  | 2 => bits v 31 30 * 2 ^ 30 + v % 4096
  | _ => if v = 0 then 4095 else 2 ^ 31 + 4095

/-- BOUND_SIGNAL_UPDATE (R296): the oldest update under way to the channel reaches the die. -/
def boundSignalUpdate (g : Fin 64) : Upd := .read fun s =>
  match s.b.lsw.bound.find? (·.1 = g.val) with
  | none => .skip
  | some u =>
    let refuse := s.flag (LSW_CH_SAFETY_SAFETY g) && u.2.2.1 != 1
    let ignored := s.moduleSafe || s.lswRetired g || !s.loadEnabled g || s.lead g != g || !s.flag (LSW_CH_BIND_EN g)
      || u.2.2.2 != s.reg (LSW_CH_BIND g) % 2 ^ 31
    seqs [
      upd fun b => { b with lsw := { b.lsw with bound := b.lsw.bound.erase u } },
      if ignored then .skip
      else if refuse then raiseCh g 4
      else seqs [
        updChan g fun c => { c with bindTo := false },
        set (LSW_CH_STATUS0_BIND_STALE g) 0,
        command g (boundWord (s.get (LSW_CH_BIND_MAP_FORMAT g)) (u.2.1 % 2 ^ 32)) 2 false]]

/-- BIND_TIMEOUT (R297). -/
def bindTimeout (g : Fin 64) : Upd := .read fun s =>
  whenU (s.flag (LSW_CH_BIND_EN g) && s.flag (LSW_CH_BIND_MAP_TO_MS g) && s.lead g == g.val) (seqs [
    set (LSW_CH_STATUS0_BIND_STALE g) 1, raiseCh g 3,
    match s.get (LSW_CH_BIND_MAP_TO_ACT g) with
    | 0 => .skip
    | 2 => .seq (updChan g fun c => { c with bindTo := true }) (whenU (s.loadEnabled g && !s.lswRetired g) (enterSafe g))
    | _ => command g (s.get (LSW_CH_CMD_DUTY g)) 2 false])

/-! ## The governor (R298, R300, R301) -/

/-- The mean of a load's samples over the last ten 100 µs slots, in µA. -/
def State.meanUA (s : State) (l : Nat) : Nat :=
  (s.members l).foldl (fun a g =>
    let c := s.chan g
    let sum := c.slots.foldl (fun x y => x + y.1) 0
    let num := c.slots.foldl (fun x y => x + y.2) 0
    a + sum * fullUA g / (16383 * max 1 num)) 0

/-- The accounted current of a load (R298): one that is on or turning off and not shed. -/
def State.accounted (s : State) (l : Nat) : Nat :=
  let c := s.chan l
  if c.out = .off ∨ c.shed ≠ .none then 0
  else if c.onEvals < 100 ∨ c.inrush then s.iExp l
  else s.meanUA l

/-- The reported sums in 0.25 A, saturating at 1023. -/
def showSums : Upd := .read fun s =>
  rounded s.b.lsw.bat1 250000 fun a => rounded s.b.lsw.bat2 250000 fun b => rounded s.b.lsw.mod 250000 fun m => seqs [
    set (LSW_GOV_SUM_BAT1 0) (min 1023 a), set (LSW_GOV_SUM_BAT2 0) (min 1023 b), set (LSW_GOV_SUM_MOD 0) (min 1023 m)]

/-- The load the governor considers for restoring: of those whose hold has passed and whose die is cool, the highest PRIO and
of those the lowest global index (R301, R318). -/
def State.restoreCandidate (s : State) : Option Nat :=
  (sortBy (fun a b => s.shedBefore b a) (s.loads.filter fun l =>
    let c := s.chan l
    c.shed != .none && cmdOn (s.reg (LSW_CH_CMD l)) && c.out == .off && s.loadEnabled l && !s.loadRetired l && !s.heldOff l
      && decide (s.govFld (LSW_GOV_CFG_HOLD_MS 0) * 10 ≤ c.shedEvals)
      && !(c.shed == .heat && s.flag (LSW_PR_DIE_STAT_HOT (l / 16))))).head?

/-- Restore a load whose I_EXP plus HYST fits its budgets. -/
def restore (l : Nat) : Upd := .read fun s =>
  let i := s.iExp l + s.govFld (LSW_GOV_CFG_HYST 0) * 250000
  whenU (decide (s.govSum (studOf l) + i ≤ s.budget (studOf l)) && decide (s.govSum 2 + i ≤ s.budget 2)) (seqs [
    updChan l fun c => { c with shed := .none, applied := s.reg (LSW_CH_CMD l) },
    set (LSW_CH_STATUS0_CMD_SRC l) (s.chan l).nextSrc,
    raiseCh l 1,
    if s.latched l then updChan l fun c => { c with gate := true } else .seq (turnOn l) (sumAdd l (s.iExp l)),
    showLoad l])

/-- GOVERNOR_EVAL (R298): every 100 µs while region P is powered. -/
def governorEval : Upd := .read fun s => whenU (!s.computeOff || s.flag PSM_STAT_P_SERVICE) (seqs [
  forN 64 fun g => updChan g fun c => { c with
    slots := (c.slot :: c.slots).take 10, slot := (0, 0),
    onEvals := c.onEvals + 1, shedEvals := c.shedEvals + 1 },
  .read fun s => seqs [
    forEach s.loads fun l => updChan l fun c => { c with acc := s.accounted l },
    upd fun b => { b with lsw := { b.lsw with
      bat1 := (s.loads.filter (studOf · == 0)).foldl (fun a l => a + s.accounted l) 0
      bat2 := (s.loads.filter (studOf · == 1)).foldl (fun a l => a + s.accounted l) 0
      mod := s.loads.foldl (fun a l => a + s.accounted l) 0 } },
    forEach (s.loads.filter fun l => !(s.inPwm l && (s.chan l).out == .on)) fun l => forEach (s.members l) fun g =>
      let c := s.chan g
      setAvg g (if g = l then (s.members l).foldl (fun a x => a + (s.chan x).slots.foldl (fun x y => x + y.1) 0) 0
        else c.slots.foldl (fun x y => x + y.1) 0) (c.slots.foldl (fun x y => x + y.2) 0)],
  .read fun s => match s.restoreCandidate with | some l => restore l | none => .skip,
  showSums])

/-- GOVERNOR_OVERRUN_SHED (R300): the sum on budget `b` (0 BAT1, 1 BAT2, 2 module) has been above it for OVR_MS. -/
def governorOverrunShed (b : Fin 3) : Upd := .read fun s =>
  whenU (decide (s.budget b < s.govSum b))
    (match s.shedOrder fun l => b.val == 2 || studOf l == b.val with
     | l :: _ => shedLoad l .budget .meter
     | [] => .skip)

/-! ## The end of a turn-off (R303, R322) -/

/-- TURN_OFF_COMPLETE (R303): the element boundary. `uj` is the energy of the turn-off, `vClamp` the mean clamp voltage in 10 mV
and `tNs` the time until the current fell below 1 %. -/
def turnOffComplete (g : Fin 64) (uj vClamp tNs : Nat) : Upd := .read fun s =>
  let l := s.lead g
  let c := s.chan l
  whenU (c.out == .clamp || c.out == .ramp) (seqs [
    updChan l fun c => { c with out := .off, after := false, tripOff := false, fixed := false, steep := false },
    clampEnergy l uj (c.out == .clamp),
    whenU (c.out == .clamp && decide (contUA l * s.scale l ≤ c.i0 * 10) && c.i0 != 0)
      (rounded ((vClamp - s.vBat l) * tNs) c.i0 fun v =>
        .seq (set (LSW_PR_L_MEAS_L l) (min 65535 v)) (set (LSW_PR_L_MEAS_VALID l) 1)),
    whenU (!c.tripped) (forEach (s.members l) fun x => set (CELL_STAT_FAULT (lswUnit x) (x % 16)) 0),
    forEach (s.members l) fun x => whenU (s.flag (CELL_STAT_DRAINING (lswUnit x) (x % 16))) (lswDrained x),
    whenU (c.after && s.loadEnabled l && !s.loadRetired l && !c.safe)
      (.seq (updChan l fun c => { c with tripped := false }) (applyGated l c.nextSrc)),
    whenU (c.after && c.safe && s.get (LSW_CH_SAFETY_SAFE_SEL l) == 1 && !s.latched l && !s.heldOff l) (turnOn l),
    showLoad l])

/-- CLAMP_BUDGET_EXCEEDED (R321, R324): the integral reaches the budget, which the clamp has absorbed (R325). The fault of a trip is then PM
in place of TR. -/
def clampBudgetExceeded (g : Fin 64) : Upd := .read fun s =>
  let l := s.lead g
  let c := s.chan l
  whenU (c.out == .clamp)
    (if c.fixed then whenU (c.tripOff && !s.loadRetired l) (forEach ((s.members l).filter fun x => (s.chan x).detected) fun x =>
        seqs [raiseCh x 12, retract (lswUnit x) (x % 16), report (lswUnit x) (some (x % 16)) PM])
     else seqs [updChan l fun c => { c with eRep := c.eRep + c.budUJ }, beginRamp l true, showLoad l])

/-- SOFT_RAMP_HOT (R323): the slope doubles. -/
def softRampHot (g : Fin 64) : Upd := .read fun s =>
  whenU ((s.chan (s.lead g)).out == .ramp) (updChan (s.lead g) fun c => { c with steep := true })

/-- REPETITIVE_CLAMP_TRIP (R325). -/
def repetitiveClampTrip (g : Fin 64) : Upd := .read fun s =>
  let l := s.lead g
  whenU ((s.chan l).out == .on && decide (repMJ l * s.scale l * 1000 < (s.chan l).eRep)) (trip g 5)

/-! ## The wire model (R312 to R315) -/

/-- R'20 in µΩ/m, R'th in 0.1 K·m/W and τ in s by wire code (R313). -/
def State.wire (s : State) (l : Nat) : Nat × Nat × Nat :=
  match s.get (LSW_PR_WIRE_CODE l) with
  | 1 => (37100, 162, 48)
  | 2 => (24700, 142, 58)
  | 3 => (18500, 134, 68)
  | 4 => (12700, 114, 84)
  | 5 => (7600, 95, 110)
  | 6 => (4700, 78, 140)
  | 7 => (3100, 65, 175)
  | 8 => (1820, 51, 230)
  | 9 => (1160, 41, 300)
  | 15 => (max 1 (s.get (LSW_PR_WIRE_CUST0_RW20 l)), max 1 (s.get (LSW_PR_WIRE_CUST0_RTH l)), max 1 (s.get (LSW_PR_WIRE_CUST1_TAU l)))
  | _ => (52000, 189, 40)

/-- T_TRIP and T_REL as they act, °C plus 64 (R334). -/
def State.tTrip (s : State) (l : Nat) : Nat := min 214 (max 124 (s.get (LSW_PR_WIRE_T_TRIP l)))
def State.tRel (s : State) (l : Nat) : Nat :=
  let r := s.get (LSW_PR_WIRE_T_REL l)
  if s.tTrip l ≤ r then s.tTrip l - 5 else r

/-- One step of R312, exact before the rounding to 2^-32 °C: `t` and the ambient are °C plus 64 in units of 2^-32 °C; the mean
squared current is `sq / num` in squared codes. The result is a quotient, floored. -/
def wireStep (full : Nat) (w : Nat × Nat × Nat) (amb t sq num : Nat) : Int :=
  let q : Int := 2 ^ 32
  let tc : Int := (t : Int) - 64 * q
  let rise : Int := 100000 * q + 393 * (tc - 20 * q)
  -- I² in A² is sq · full² / (num · 16383² · 10^12)
  let den : Int := (num : Int) * 16383 ^ 2 * 10 ^ 12 * 10 ^ 12
  let heat : Int := (sq : Int) * (full : Int) ^ 2 * w.1 * w.2.1 * rise
  (t : Int) + (((amb : Int) - t) * den + heat) / (1000 * w.2.2 * den)

/-- WIRE_MODEL_STEP (R312): 1 ms. The repetitive accumulator decays (R325), test ages and cooling waits advance, and the On-mode
comparison of R344 is made. -/
def wireModelStep (g : Fin 64) : Upd := .read fun s =>
  let l := s.lead g
  let c := s.chan g
  let n := max 1 c.num
  free fun v => .read fun s => seqs [
    updChan g fun c => { c with
      t := (wireStep (fullUA g) (s.wire g) (s.ambient g * 2 ^ 32) c.t c.sq n).toNat + v % 2,
      sum := 0, sq := 0, num := 0, coolMs := c.coolMs - 1, eRep := c.eRep - c.eRep / 1000 },
    .read fun s =>
      let t := (s.chan g).t
      let hot := decide (s.tTrip g * 2 ^ 32 ≤ t)
      seqs [
        set (LSW_CH_STATUS2_T_WIRE g) (min 255 (t / 2 ^ 32)),
        set (LSW_CH_STATUS0_WIRE_WARN g) (decide (s.tRel g * 2 ^ 32 ≤ t)).toNat,
        rounded (s.chan g).eRep 1000 fun e => set (LSW_PR_ENERGY_E_REP g) (min 65535 e),
        inc (LSW_DG_RESULT_AGE_MS g),
        whenU (g.val == l && (s.mode l == 1 || (s.mode l == 6 && !(s.chan l).peak && s.nextDuty l == 4095)) && c.num != 0)
          (olonCompare l (c.sum + (if s.scale l = 2 then (s.chan (l + 1)).sum else 0)) c.num),
        whenU (hot && g.val == l) (.seq (set (LSW_PR_STAT_LATCH_WIRE g) 1)
          (whenU ((s.chan l).out == .on) (trip g 4))),
        showCh g]]

/-! ## Temperature (R316 to R318) -/

/-- THERMAL_SHUTDOWN (R316): the junction reaches 175 °C. -/
def thermalShutdown (g : Fin 64) : Upd := .read fun s =>
  let l := s.lead g
  match (s.chan l).out with
  | .off => .skip
  | .on => .seq (set (LSW_PR_STAT_LATCH_TJ g) 1) (trip g 3)
  | _ => seqs [set (LSW_PR_STAT_LATCH_TJ g) 1, raiseCh g 10, turnOff l .clamp (s.chan l).tripOff, showLoad l]

/-- THERMAL_LATCH_CLEAR (R317): a cause clears by cooling; `wire` names the WIRE cause. -/
def thermalLatchClear (g : Fin 64) (wire : Bool) : Upd := .read fun s => seqs [
  if wire then whenU (decide ((s.chan g).t ≤ s.tRel g * 2 ^ 32)) (set (LSW_PR_STAT_LATCH_WIRE g) 0)
  else whenU (decide (s.tj g ≤ 214)) (set (LSW_PR_STAT_LATCH_TJ g) 0),
  showCh g, gateTry (s.lead g)]

/-- DIE_WARN and DIE_SHED as they act (R334). -/
def State.dieWarn (s : State) (d : Nat) : Nat := min 224 (max 164 (s.get (LSW_PR_DIE_CFG_DIE_WARN d)))
def State.dieShed (s : State) (d : Nat) : Nat := max (s.dieWarn d) (min 234 (max 174 (s.get (LSW_PR_DIE_CFG_DIE_SHED d))))

/-- DIE_TEMP_CHANGE (R318): the die measures `t` (°C plus 64). -/
def dieTempChange (d : Fin 4) (t : Fin 256) : Upd := .read fun s =>
  let hot := decide (s.dieWarn d ≤ t) || (s.flag (LSW_PR_DIE_STAT_HOT d) && decide (s.dieWarn d ≤ t.val + 10))
  let shd := decide (s.dieShed d ≤ t) || (s.flag (LSW_PR_DIE_STAT_SHEDDING d) && decide (s.dieShed d ≤ t.val + 10))
  let newHot := hot && !s.flag (LSW_PR_DIE_STAT_HOT d)
  let newShd := shd && !s.flag (LSW_PR_DIE_STAT_SHEDDING d)
  let mine := s.loads.filter fun l => l / 16 == d.val && (s.chan l).out == .on
  let limited (l : Nat) : Option Nat := (s.members l).find? fun g => s.flag (LSW_CH_STATUS0_LIMIT g)
  seqs [
    set (LSW_DIE_STAT_T_DIE d) t,
    set (LSW_PR_DIE_STAT_HOT d) hot.toNat, set (LSW_PR_DIE_STAT_SHEDDING d) shd.toNat,
    whenU newHot (seqs [raise (16 + d.val) 13, inc (LSW_PR_EVT_CNT_HOT_ENTRIES d),
      forEach mine fun l => match limited l with
        | some g => whenU (!(s.chan l).inrush && !(s.chan l).win) (trip g 6)
        | none => .skip]),
    whenU newShd (seqs [raise (16 + d.val) 14, report (16 + d.val) none TR (some 5),
      forEach mine fun l => whenU ((limited l).isSome && ((s.chan l).inrush || (s.chan l).win) && !s.neverShed l)
        (shedLoad l .heat .clamp)]),
    dieGateTry d]

/-- DIE_SHED_STEP (R318): every 1 ms at or above DIE_SHED one conducting channel is shed. -/
def dieShedStep (d : Fin 4) : Upd := .read fun s =>
  whenU (s.flag (LSW_PR_DIE_STAT_SHEDDING d))
    (match s.shedOrder fun l => l / 16 == d.val with
     | l :: _ => shedLoad l .heat .meter
     | [] => .skip)

/-- DIE_UV_SET (R319). -/
def dieUvSet (d : Fin 4) : Upd := .read fun s => whenU (!s.flag (LSW_PR_DIE_STAT_UV d)) (seqs [
  set (LSW_PR_DIE_STAT_UV d) 1, raise (16 + d.val) 15, inc (LSW_PR_EVT_CNT_UV_ENTRIES d),
  testsAbandon d.val])

/-- DIE_UV_CLEAR (R319). -/
def dieUvClear (d : Fin 4) : Upd := seqs [
  set (LSW_PR_DIE_STAT_UV d) 0, forN 16 fun c => showCh (16 * d.val + c)]

/-! ## Retry and restart (R326 to R328) -/

/-- RETRY_DELAY_EXPIRY (R326, R327). -/
def retryDelayExpiry (g : Fin 64) : Upd := .read fun s =>
  let l := s.lead g
  let c := s.chan l
  whenU (c.retryWait && c.out == .off)
    (if s.gateOpen l then restart l
     else seqs [updChan l fun c => { c with
        retryWait := false, coolWait := true,
        coolMs := max 1 (s.get (LSW_PR_THERM_COOL_MAX l)) * 100 }, showLoad l])

/-- RETRY_BUDGET_REFILL (R326). -/
def retryBudgetRefill (g : Fin 64) : Upd := .read fun s =>
  let l := s.lead g
  whenU ((s.chan l).restarted && (s.chan l).out == .on) (seqs [
    set (LSW_CH_STATUS3_RETRY_LEFT l) (s.get (LSW_PR_RETRY_RETRY_MAX l)),
    updChan l fun c => { c with restarted := false },
    forEach (s.members l) fun x => set (CELL_STAT_FAULT (lswUnit x) (x % 16)) 0])

/-- COOL_WAIT_EXPIRY (R327): a PM fault; the cell is retired. -/
def coolWaitExpiry (g : Fin 64) : Upd := .read fun s =>
  let l := s.lead g
  whenU (s.chan l).coolWait (seqs [
    updChan l fun c => { c with coolWait := false, coolMs := 0 },
    raiseCh l 12, report (lswUnit l) (some (l % 16)) PM, showLoad l])

/-! ## Off-state tests (R336 to R342) -/

/-- The duration of an off-state test in ns. -/
def State.testNs (s : State) (l : Nat) : Nat := (max 1 (s.get (LSW_DG_OFF_CFG_SETTLE l)) * 10 + 20) * 1000

/-- SB_TH and OL_TH as they act, in 10 mV (R351). -/
def State.sbTh (s : State) (l : Nat) : Nat := min 1200 (max 550 (s.get (LSW_DG_THR_SB_TH l)))
def State.olTh (s : State) (l : Nat) : Nat := min 450 (max 50 (s.get (LSW_DG_THR_OL_TH l)))

/-- The load is in a state in which off-state tests run (R338); on, only in an off-phase with the current decayed that lasts
5 µs beyond the test (R339). `t` is device time in ns. -/
def State.testable (s : State) (l t : Nat) : Bool :=
  let c := s.chan l
  match s.chState l with
  | 0 => true
  | 3 => true
  | 5 => c.out == .off
  | 6 => true
  | 1 => s.flag (LSW_DG_OFF_CFG_PWM_EN l) && s.inPwm l && !c.phase && !c.wait
      && decide (s.loadUA l * 100 < contUA l * s.scale l) && decide (t + s.testNs l + 5000 ≤ c.start + c.period)
  | _ => false

/-- OFFSTATE_TEST_START (R341): the die firmware starts a due test at device time `t`. -/
def offstateTestStart (g : Fin 64) (t : Nat) : Upd := .read fun s =>
  let l := s.lead g
  let d := g.val / 16
  whenU (s.flag (LSW_DG_OFF_CFG_EN l) && s.flag (LSW_DG_STAT_FW_RUN d) && s.testable l t && !(s.chan l).test)
    (if s.vBat l < s.sbTh l + 100 ∨ s.flag (LSW_PR_DIE_STAT_UV d) then seqs [
        set (LSW_DG_RESULT_LAST l) 4, set (LSW_CH_STATUS0_DG_LAST l) 4, inc (LSW_DG_CNT_SKIPPED d)]
     else seqs [updChan l fun c => { c with test := true }, setBit (LSW_DG_STAT d) (l % 16), showLoad l])

/-- Set or clear a verdict: `run` results for it in a row, `other` against it (R340). -/
def verdict (l : Nat) (f : Fld) (run other deb irq : Nat) (cnt : Fld) : Upd := .read fun s => seqs [
  whenU (decide (deb ≤ run) && !s.flag f) (seqs [set f 1, raiseCh l irq, inc cnt]),
  whenU (decide (deb ≤ other) && s.flag f) (seqs [set f 0, raiseCh l 19])]

/-- OFFSTATE_TEST_DONE (R337, R340): the conversion reads `v` in 10 mV. -/
def offstateTestDone (g : Fin 64) (v : Fin 4096) : Upd := .read fun s =>
  let l := s.lead g
  let d := g.val / 16
  let r := if v < s.olTh l then 1 else if v < s.sbTh l then 2 else 3
  let c := s.chan l
  let deb := max 1 (s.get (LSW_DG_OFF_CFG_DEB l))
  let ol := if r = 2 then c.runOl + 1 else 0
  let sb := if r = 3 then c.runSb + 1 else 0
  let nol := if r = 2 then 0 else c.runNotOl + 1
  let nsb := if r = 3 then 0 else c.runNotSb + 1
  whenU c.test (seqs [
    updChan l fun c => { c with test := false, runOl := ol, runSb := sb, runNotOl := nol, runNotSb := nsb },
    clrBit (LSW_DG_STAT d) (l % 16),
    set (LSW_DG_RESULT_LAST l) r, set (LSW_CH_STATUS0_DG_LAST l) r,
    set (LSW_DG_RESULT_V_TEST l) v, set (LSW_DG_RESULT_AGE_MS l) 0,
    inc (LSW_DG_CNT_TESTS d),
    verdict l (LSW_CH_STATUS0_OL_OFF l) ol nol deb 16 (LSW_DG_EVT_CNT_OL l),
    verdict l (LSW_CH_STATUS0_SB l) sb nsb deb 17 (LSW_DG_EVT_CNT_SB l),
    showLoad l])

/-- OLON_DETECT (R343): the comparisons have stayed below OLON_I for OLON_T. -/
def olonDetect (g : Fin 64) : Upd := .read fun s =>
  let l := s.lead g
  whenU ((s.chan l).olonRun && s.flag (LSW_DG_OLON_CFG_OLON_EN l) && s.chState l == 1 && !s.flag (LSW_DG_OLON_STAT_OLON l)) (seqs [
    set (LSW_DG_OLON_STAT_OLON l) 1, set (LSW_CH_STATUS0_OL_ON l) 1,
    inc (LSW_DG_OLON_STAT_OLON_CNT l), inc (LSW_DG_EVT_CNT_OLON l), raiseCh l 18])

/-- A write of 1 to OLON (R343): it clears only while the current is at or above OLON_I. -/
def olonClearHook (l : Nat) : Upd := .read fun s =>
  whenU (s.flag (LSW_DG_OLON_STAT_OLON l) && (s.chan l).olonHigh) (seqs [
    set (LSW_DG_OLON_STAT_OLON l) 0, set (LSW_CH_STATUS0_OL_ON l) 0, raiseCh l 19])

/-- LAMP_COMP_UPDATE (R346): every 100 µs. -/
def lampCompUpdate (g : Fin 64) : Upd := .read fun s =>
  let l := s.lead g
  let m := s.mode l
  whenU ((s.chan l).out == .on && (m == 3 || m == 5 || (m == 6 && !(s.chan l).peak))) (compUpdate l)

/-- INRUSH_WINDOW_END (R347); the timer pauses while UV is set. -/
def inrushWindowEnd (g : Fin 64) : Upd := .read fun s =>
  let l := s.lead g
  whenU ((s.chan l).inrush && !s.flag (LSW_PR_DIE_STAT_UV (g.val / 16))) (windowEnd l)

/-- DG_FW_STOP (R341). -/
def dgFwStop (d : Fin 4) : Upd := seqs [
  set (LSW_DG_STAT_FW_RUN d) 0, set (LSW_DG_STAT_FW_VER d) 0, raise (16 + d.val) 21]

/-! ## Register writes with an effect of their own (R283, R286, R314) -/

/-- The channel is active in its mode (R286). -/
def State.lswActive (s : State) (g : Nat) : Bool :=
  let c := s.chan (s.lead g)
  c.out != .off || (cmdOn (s.reg (LSW_CH_CMD (s.lead g))) && (cmdOn c.applied || c.gate || c.hold || c.retryWait || c.coolWait || c.shed != .none))

/-- A write of LSW_CH_CFG that the register `old` held before: MODE and PAIR change only while the channel, and in a pair both,
is not active; PAIR is reserved in odd cells. `new` is what the write stored. -/
def cfgHook (g old : Nat) : Upd := .read fun s =>
  let new := if g % 2 = 1 then withBits (s.reg (LSW_CH_CFG g)) 15 15 0 else s.reg (LSW_CH_CFG g)
  let mate := if g % 2 = 0 then g + 1 else g - 1
  let change := bits new 2 0 != bits old 2 0 || bit new 15 != bit old 15
  let active := s.lswActive g || ((bit new 15 || bit old 15) && s.lswActive mate)
  if change && active then seqs [
    setReg (LSW_CH_CFG g) (withBits (withBits new 2 0 (bits old 2 0)) 15 15 (bits old 15 15)),
    set (LSW_CH_STATUS0_CFG_REJ g) 1, raiseCh g 5]
  else seqs [setReg (LSW_CH_CFG g) new, whenU change (set (LSW_CH_STATUS0_CFG_REJ g) 0), showCh g, whenU (g % 2 == 0) (showCh mate)]

/-- A write of LSW_CH_BIND: EN going from 0 to 1 starts the timeout afresh (R297). -/
def bindHook (g : Nat) : Upd := .read fun s =>
  whenU (!s.flag (LSW_CH_BIND_EN g)) (updChan g fun c => { c with bindTo := c.bindTo && c.safe })

/-! ## Power of a die (R100, R314, R317, R341, R718) -/

/-- The registers of LSW page `d`. -/
def lswPage (d a : Nat) : Bool := onPage (16 + d) a

/-- The bits of a register of an LSW page that do not lie on the power die: the header but for BLK_CTRL and the state bits of BLK_STAT, BL
fields (R301), fault counts and retirements. -/
def offDie (a : Nat) : Nat :=
  let all := 2 ^ 32 - 1
  match locate a with
  | none => 0
  | some l =>
    if l.cell.isSome then (if l.off = 0x14 then all else if l.off = 0x18 then 1 else if l.off = 0x04 then 1 <<< (CELL_STAT_RETIRED 16 0).lo else 0)
    else if a = BLK_CTRL l.unit then 0
    else if a = BLK_STAT l.unit then 0xFFFF0000 + 2 ^ (BLK_STAT_LOCKED 16).lo
    else if l.off < 0x100 then all
    else l.row.fs.foldl (fun m f => if f.acc = .bl then m ||| ((2 ^ (f.hi - f.lo + 1) - 1) <<< f.lo) else m) 0

/-- The registers of LSW page `d` that lie on the die return to their reset values; with `off`, the others do. -/
def diePageReset (d : Nat) (off : Bool) : Upd := .act (.regsMap fun a v =>
  let k := BitVec.ofNat 32 (offDie a)
  if !lswPage d a then v else if off then (v &&& ~~~ k) ||| (regDefault a &&& k) else (v &&& k) ||| (regDefault a &&& ~~~ k))

/-- Die `d` powers up from its reset configuration, with the wire temperatures and latches that the interface die saved where it
powered down before (R314, R317); `codes` gives the wire codes that Glade sets first (R123). Its temperature is what the sensor
measures then, a free value. -/
def dieUp (d : Nat) (codes : List (Nat × Nat)) : Upd := .read fun s0 => seqs [
  diePageReset d false,
  free fun v => set (LSW_DIE_STAT_T_DIE d) (v % 256),
  forEach codes fun e => set (LSW_PR_WIRE_CODE e.1) e.2,
  updDie d fun x => { x with on := true, down := false },
  forN 16 fun c => updChan (16 * d + c) fun _ => {},
  set (LSW_DIE_STAT_GATELOCK d) 0, set (LSW_DIE_STAT_CLK_OK d) 1,
  set (BLK_CTRL_EN (16 + d)) 1, set (BLK_STAT_ENABLED (16 + d)) 1,
  forN 16 fun c => .read fun s =>
    let g := 16 * d + c
    let amb := s.ambient g * 2 ^ 32
    match (s0.die d).saved[c]? with
    | some (t, tj, w) =>
      let ms := (s0.now - (s0.die d).downAt) / msCycles
      let e := Config.expDecay ms (1000 * (s.wire g).2.2)
      seqs [updChan g fun x => { x with t := if amb ≤ t then amb + (t - amb) * e / 2 ^ 32 else amb - (amb - t) * e / 2 ^ 32 },
        .read fun s => set (LSW_PR_STAT_LATCH_WIRE g) (w && decide (s.tRel g * 2 ^ 32 < (s.chan g).t)).toNat,
        set (LSW_PR_STAT_LATCH_TJ g) tj.toNat]
    | none => updChan g fun x => { x with t := amb },
  forN 16 fun c => .seq (.read fun s => set (LSW_CH_STATUS2_T_WIRE (16 * d + c)) (min 255 ((s.chan (16 * d + c)).t / 2 ^ 32)))
    (showCh (16 * d + c))]

/-- Die `d` powers down or its gate-locks engage: its channels are off, and the interface die keeps wire temperatures and
latches. -/
def dieDown (d : Nat) : Upd := .read fun s => seqs [
  updDie d fun x => { x with on := false, fw := false, downAt := s.now, saved := (List.range 16).map fun c =>
    let g := 16 * d + c
    ((s.chan g).t, s.flag (LSW_PR_STAT_LATCH_TJ g), s.flag (LSW_PR_STAT_LATCH_WIRE g)) },
  forN 16 fun c => updChan (16 * d + c) fun x => { x.quiet with out := .off, test := false, gate := false, retryWait := false, coolWait := false },
  set (LSW_DG_STAT_FW_RUN d) 0, set (LSW_DG_STAT_FW_VER d) 0,
  set (LSW_DIE_STAT_GATELOCK d) 1, set (LSW_DIE_STAT_CLK_OK d) 0,
  set (BLK_CTRL_EN (16 + d)) 0, set (BLK_STAT_ENABLED (16 + d)) 0,
  forN 16 fun c => showCh (16 * d + c)]

end Sys2Proof.Machine
end

