-- ==== Sys2Proof/Machine/Sw.lean ====
section
/-!
DEFINITION. What the switch and its ports share: frames and copies, the output buffer, the stamps of event messages
(R442, R459, R474, R475).
-/
namespace Sys2Proof.Machine

def updSw (f : SwQueues → SwQueues) : Upd := upd fun b => { b with swq := f b.swq }

/-- A 48-bit MAC address from its halves, most significant byte first. -/
def macBytes (lo hi : Nat) : List Byte := (leBytes 6 (lo + hi % 65536 * 2 ^ 32)).reverse

/-- A 16-bit number, most significant byte first, and the one that two bytes at an offset spell. -/
def be16 (v : Nat) : List Byte := [BitVec.ofNat 8 (v / 256), BitVec.ofNat 8 v]
def at16 (f : List Byte) (o : Nat) : Nat := ((f[o]?).getD 0).toNat * 256 + ((f[o + 1]?).getD 0).toNat

/-- Zero padding to `n` bytes. -/
def padTo (n : Nat) (l : List Byte) : List Byte := l ++ List.replicate (n - l.length) 0

/-- The offset of the EtherType after at most one 0x8100 tag. -/
def typeAt (f : Frame) : Nat := if at16 f 12 = 0x8100 then 16 else 12

/-- The frame of a number. -/
def State.frame (s : State) (id : Nat) : Option SwFrame := mapGet none s.b.swq.frames id

/-- An output queue, by port and traffic class. -/
def State.outQ (s : State) (p t : Nat) : List SwCopy := mapGet [] s.b.swq.out (8 * p + t)

/-- Cells of the output buffer are taken or freed (R442). -/
def takeCells (n : Nat) : Upd := .read fun s => set SWC_BUF_STAT_FREE (s.get SWC_BUF_STAT_FREE - n)
def freeCells (n : Nat) : Upd := .read fun s => set SWC_BUF_STAT_FREE (min 98304 (s.get SWC_BUF_STAT_FREE + n))

/-- Cells of a frame of `n` bytes. -/
def cellsOf (n : Nat) : Nat := (n + 63) / 64

/-- Append a copy to an output queue. -/
def queueCopy (p t : Nat) (c : SwCopy) : Upd := .seq (takeCells c.cells)
  (updSw fun x => { x with out := mapPut [] x.out (8 * p + t) (mapGet [] x.out (8 * p + t) ++ [c]) })

/-- A frame that enters the switch: its number goes to `k`. -/
def newFrame (f : SwFrame) (k : Nat → Upd) : Upd := .read fun s =>
  .seq (updSw fun x => { x with frames := mapPut none x.frames x.next (some f), next := x.next + 1 }) (k s.b.swq.next)

/-- The ingress port of a frame that the module itself places in a queue: 30 an event message (R476), 31 an NM PDU (R542). -/
def SwFrame.injected (f : SwFrame) : Bool := f.direct && f.port == 30

/-- Place a frame whole into a port's queue of traffic class `tc`, bypassing the decision (R476, R542). -/
def enqueue (src port tc : Nat) (f : Frame) : Upd :=
  newFrame { port := src, data := f, direct := true } fun id => queueCopy port tc ⟨id, cellsOf f.length, cellsOf f.length, false, false⟩

/-- Whether a copy, a staged cell or a frame being sent still refers to a frame. -/
def State.frameUsed (s : State) (id : Nat) : Bool :=
  s.b.swq.out.any (·.2.any (·.fid == id)) || s.b.swq.stage.any (·.2.any (·.fid == id))
    || s.b.swq.tx.any fun e => e.2.any (·.fid == id)

/-- Drop frames that nothing refers to; an injection whose frame is gone unsent is no longer pending (R476). -/
def sweepFrames : Upd := .seq
  (.read fun s => updSw fun x => { x with frames := x.frames.filter fun e => s.frameUsed e.1 || e.2.any (·.isOpen) })
  (.read fun s => whenU (s.flag TMB_PTP_TX_STAT_BUSY && !s.b.swq.frames.any fun e => e.2.any (·.injected)) (set TMB_PTP_TX_STAT_BUSY 0))

/-- Present the stamp FIFO (R475). -/
def showStamps : Upd := .read fun s => seqs [
  setReg TMB_TS_FILL s.b.tmb.fifo.length,
  forN 4 fun i => setReg (TMB_TS_HEAD i) ((s.b.tmb.fifo.head?.getD []).getD i 0)]

/-- A stamp of an event message on port `p` enters the FIFO (R474, R475). -/
def tsStamp (p : Nat) (tx : Bool) (f : Frame) (time : Nat) : Upd := .read fun s =>
  let o := typeAt f
  let b (i : Nat) : Nat := ((f[o + 2 + i]?).getD 0).toNat
  let msg := b 0 % 16
  whenU (decide (p < 20) && s.bitAt TMB_TS_EN p && s.flag (BLK_STAT_ENABLED 12) && at16 f o == 0x88F7 && (msg == 0 || msg == 2 || msg == 3)) (
    if 64 ≤ s.b.tmb.fifo.length then .seq (count TMB_TS_LOST) (raise 12 1)
    else seqs [
      whenU s.b.tmb.fifo.isEmpty (raise 12 0),
      upd fun x => { x with tmb := { x.tmb with fifo := x.tmb.fifo ++
        [[tx.toNat * 2 ^ 31 + p * 2 ^ 26 + msg * 2 ^ 20 + s.get TMB_STAT_STEP_CNT * 2 ^ 16 + at16 f (o + 32),
          b 4, time % 2 ^ 32, time / 2 ^ 32 % 2 ^ 32]] } },
      showStamps])

end Sys2Proof.Machine
end

