-- ==== Sys2Proof/Machine/Nm.lean ====
section
/-!
DEFINITION. Network management: channels, NM PDUs, the state machine and transceiver sleep (R539 to R549), Glade's validation of
wakes (R129, R130), the cancelling of a power-down (R98) and the request for a power state (R95), which these share.
-/
namespace Sys2Proof.Machine

/-! ## The event log (R556) -/

/-- Present the oldest log entry and the fill. -/
def showLog : Upd := .read fun s => seqs [
  set NMC_LOG_STAT_FILL s.b.nmc.log.length,
  forN 4 fun i => setReg (NMC_LOG_HEAD i) ((s.b.nmc.log.head?.getD []).getD i 0)]

/-- Append a log entry: kind, channel, the low byte of word 0, word 1. -/
def logAdd (kind ch low w1 : Nat) : Upd := .read fun s =>
  if 32 ≤ s.b.nmc.log.length then .seq (set NMC_LOG_STAT_OVF 1) (raise 15 5)
  else .seq (upd fun b => { b with nmc := { b.nmc with log := b.nmc.log ++
    [[kind * 2 ^ 28 + ch * 2 ^ 16 + low, w1, s.devTime % 2 ^ 32, s.devTime / 2 ^ 32 % 2 ^ 32]] } }) showLog

/-! ## Channels -/

def State.nmCh (s : State) (c : Nat) : NmCh := mapGet {} s.b.nmc.ch c
def updNm (c : Nat) (f : NmCh → NmCh) : Upd := upd fun b =>
  { b with nmc := { b.nmc with ch := mapPut {} b.nmc.ch c (f (mapGet {} b.nmc.ch c)) } }

/-- Available: in use, and its CAN or ETP cell enabled and not retired (R539). While NMC is disabled no channel acts (R558). -/
def State.nmAvail (s : State) (c : Nat) : Bool :=
  let (k, cell) := if c < 16 then (9, c) else (7, c - 16)
  s.flag (NMC_CH_CFG_EN c) && s.flag (CELL_STAT_ENABLED k cell) && !s.flag (CELL_STAT_RETIRED k cell) && s.flag (BLK_STAT_ENABLED 15)

/-- A local request (R543). -/
def State.nmLocal (s : State) (c : Nat) : Bool :=
  s.flag (NMC_CH_REQ_SW c) || s.flag (NMC_CH_SREQ_SAFE c) || s.flag (NMC_CH_STAT_WAKE_HOLD c)

/-- The devices of the enumerated chain; 1 while the module is not in one (R549). -/
def State.chainSize (s : State) : Nat := if s.get MSU_BOOT_CFG_CHAIN_MODE = 0 then 1 else max 1 (s.get FLK_CHAIN_SIZE)

def State.nmState (s : State) (c : Nat) : Nat := s.get (NMC_CH_STAT_STATE c)

/-- NM_LEN as it acts. -/
def State.nmLen (s : State) (c : Nat) : Nat := min 8 (max 2 (s.get (NMC_CH_CFG_NM_LEN c)))

/-- A power-down is under way: NMC sends no NM PDU (R551). -/
def State.powerDown (s : State) : Bool := s.get PSM_TRANS_STAT_PHASE != 0

/-- The bytes of the NM PDU that a channel sends (R540, R542, R544). -/
def State.nmBytes (s : State) (c : Nat) : List Byte :=
  let st := s.nmState c
  let awb := st == 1 && s.flag (NMC_CH_STAT_ACTIVE_WAKE c)
  let rmr := st == 1 && (s.nmCh c).rmr
  let cbv := withBits (withBits (s.get (NMC_CH_TXD1_CBV_USER c)) 0 0 rmr.toNat) 4 4 awb.toNat
  let src := s.get (NMC_CH_CFG_NODE_ID c)
  let head := if s.flag (NMC_CH_CFG_SRC_POS c) then [cbv, src] else [src, cbv]
  (head.map (BitVec.ofNat 8) ++ leBytes 4 (s.reg (NMC_CH_TXD0 c)) ++ leBytes 2 (bits (s.reg (NMC_CH_TXD1 c)) 15 0)).take (s.nmLen c)

/-- A transceiver comes back to normal operation. A T1 port that slept is waking until its link is up (R548). -/
def trxAwake (c : Nat) : Upd := .seq (set (NMC_CH_STAT_TRX_ASLEEP c) 0)
  (if c < 8 then set (NMC_SWK_STAT_ARMED c) 0 else .read fun s => whenU (decide (16 ≤ c) && decide (c < 34))
    (if s.get (ETP_T1_SLEEP_STATE (c - 16)) = 2 then .seq (set (ETP_T1_SLEEP_STATE (c - 16)) 3) (raiseCell 7 (c - 16) 18)
    else whenU (s.get (ETP_T1_SLEEP_STATE (c - 16)) == 1) (set (ETP_T1_SLEEP_STATE (c - 16)) 0)))

/-- Send an NM PDU (R542). -/
def nmSend (c : Nat) : Upd := .read fun s => whenU (!s.powerDown) (
  let fail := .seq (inc (NMC_CH_CNT_TX_FAIL c)) (raise 15 7)
  let data := s.nmBytes c
  if c < 16 then
    let b := s.get (NMC_CH_CFG_TXBUF c)
    let id := s.get (NMC_CH_NMID_ID c)
    let mask := s.get (NMC_CH_NMMASK_MASK c)
    let node := s.get (NMC_CH_CFG_NODE_ID c)
    let ext := s.get (NMC_CH_NMID_XTD c)
    if s.bitAt (CAN_TXBUF_PEND c) b ∨ s.txBufs c ≤ b then fail
    else seqs [
      setWords c (elemWord s c 4 b) ([ext * 2 ^ 16 + s.nmLen c, (id &&& mask) ||| (node &&& (2 ^ 29 - 1 - mask)), 0, 0]
        ++ [leValue (data.take 4), leValue (data.drop 4)]),
      makePending c b, inc (NMC_CH_CNT_TX_NM c)]
  else if ¬ s.flag (ETP_PORT_STAT_LINK_UP (c - 16)) then fail
  else .seq (enqueue 31 (c - 16) 7 (padTo 60 (macBytes (s.reg NMC_ETH_DA_LO) (s.reg NMC_ETH_DA_HI)
      ++ macBytes (s.reg NMC_ETH_SA_LO) (s.reg NMC_ETH_SA_HI) ++ be16 (s.get NMC_ETH_CFG_ETYPE) ++ data)))
    (inc (NMC_CH_CNT_TX_NM c)))

/-- The transceiver sleeps: CAN in standby with its detection armed, off the bus until it has woken and integrated (R548); a T1 port
with TC10 starts the handshake (R546). -/
def trxSleep (c : Nat) : Upd := .read fun s =>
  if c < 16 then seqs [set (NMC_CH_STAT_TRX_ASLEEP c) 1,
    whenU (s.get (CAN_STATUS_STATE c) == 2 || s.get (CAN_STATUS_STATE c) == 3) (.seq (updCan c fun x => { x with rx := none }) (canState c 1)),
    whenU (decide (c < 8) && s.flag (NMC_SWK_CFG_MODE c)) (seqs [set (NMC_SWK_STAT_ARMED c) 1, set (NMC_SWK_STAT_WOKE c) 0])]
  else whenU (decide (c < 34) && s.flag (ETP_T1_SLEEP_TC10_EN (c - 16))) (set (ETP_T1_SLEEP_STATE (c - 16)) 1)

/-- The channel's bit in the summary of sleeping channels. -/
def sleepBit (c : Nat) (b : Bool) : Upd :=
  if c < 32 then putBit NMC_SLEEP_SUM_LO c b else putBit NMC_SLEEP_SUM_HI (c - 32) b

/-! ## Cancelling a power-down and requesting a power state (R95, R97, R98, R552) -/

/-- The network returns to Ready at a cancelled power-down (R552): available channels in state 0 or 4 enter state 3 awake, and
state 2 with a local request. -/
def nmReady : Upd := .read fun s => forN 36 fun c => whenU (s.nmAvail c && (s.nmState c == 0 || s.nmState c == 4)) (seqs [
  set (NMC_CH_STAT_STATE c) (if s.nmLocal c then 2 else 3), sleepBit c false, trxAwake c, raise 15 0])

/-- A wake before step 4 cancels the power-down (R98). -/
def cancelTransition : Upd := .read fun s => seqs [
  upd fun b => { b with psm := { b.psm with trans := none }, gld := { b.gld with held := [] } },
  set PSM_TRANS_STAT_PHASE 0, set MSU_PWR_STATE_REQ (s.get MSU_PWR_STATE_STATE), set PSM_SLEEP_CONSENT_SAFE_OK 0,
  raise 21 11,
  forN 4 fun d => .seq (updDie d fun x => { x with down := false }) (dieGateTry d),
  nmReady]

/-- The sources that are armed for a target state: those of R97, T1 signalling for Suspend alone. The comparators of Deep Standby latch
their own rises (R98). -/
def armedFor (t src : Nat) : Bool := (t == 2 && decide (src ≤ 22)) || (t == 3 && decide (src ≤ 21))

/-- VALIDATE of a wake that no entry fired (R129). -/
def directValidate (src : Nat) : Nat := if 10 ≤ src ∧ src ≤ 22 then 1 else 0

/-- A wake at or after step 4 waits for the end of the power-down. -/
def lateWake (w : LateWake) : Upd := upd fun b => { b with psm := { b.psm with late := b.psm.late ++ [w] } }

/-- A wake arrives while a power-down is in progress (R98, R552): cancelled before step 4; from step 4 on an armed source waits, any
other is lost. `src` is Glade's source number, `id` the identifier of a waking CAN frame with bit 31 for 29-bit identifiers. -/
def wakeDuring (src : Nat) (id : Option Nat) : Upd := .read fun s =>
  let p := s.get PSM_TRANS_STAT_PHASE
  if p = 1 ∨ p = 2 then cancelTransition
  else whenU (p == 3 && armedFor (s.b.psm.trans.getD 0) src)
    (lateWake { kind := 2, src := src, code := 0xC0 + src, id := id, val := directValidate src })

/-- A request is refused (R95). -/
def transRefused (cause : Nat) : Upd := .read fun s => seqs [
  set MSU_PWR_STATE_REQ (s.get MSU_PWR_STATE_STATE), set PSM_TRANS_STAT_REFUSE_CAUSE cause, raise 21 10,
  set PSM_SLEEP_CONSENT_SAFE_OK 0]

/-- An enabled wake source of the target state is active (R95 cause 5, R545): towards Suspend and Watch all ten comparators count as
enabled, whatever false-wake disables Glade holds (DESIGN CHOICE, notes/assumptions/87.md). -/
def State.wakeActive (s : State) (target : Nat) : Bool :=
  (s.b.psm.levels &&& (if target = 4 then s.reg PSM_DS_WAKE_EN else 0x3FF)) != 0
    || (List.range 36).any fun c => s.nmAvail c && s.nmState c != 0 && s.nmLocal c

/-- The channels turn off for a power-down (R97 step 2): every channel not driven by Glade through its clamp. -/
def loadsOff : Upd := .read fun s => seqs [
  forN 4 fun d => updDie d fun x => { x with down := true },
  forEach (s.loads.filter fun l => s.get (LSW_CH_STATUS0_CMD_SRC l) != 3) fun l => seqs [
    .read fun s => whenU ((s.chan l).out == .on)
      (updChan l fun c => { c with hold := true, nextSrc := s.get (LSW_CH_STATUS0_CMD_SRC l) }),
    turnOff l .clamp, testAbandon l, showLoad l]]

/-- A firmware commit or trial is in progress (R658, R95). -/
def State.updBusy (s : State) : Bool := s.get MEM_UPD_STAT_STATE == 3 || s.get MEM_UPD_STAT_STATE == 4

/-- Both triplets run split: nothing carries PID 1 (R690). -/
def State.bothSplit (s : State) : Bool := s.flag MSU_BOOT_CFG_IW_SPLIT_A && s.flag MSU_BOOT_CFG_IW_SPLIT_B

/-- Request a power state (R95): refused with a cause or started. -/
def powerRequest (t : Nat) : Upd := .read fun s =>
  let st := s.get MSU_PWR_STATE_STATE
  if s.b.psm.trans.isSome then transRefused 3
  else if t = st then .skip
  else if t = 1 ∧ (s.get CNP_HART_STAT_RUNNING / 2 != 0) then transRefused 2
  else if 2 ≤ t ∧ ¬ s.flag PSM_SLEEP_CONSENT_SAFE_OK ∧ ¬ s.bothSplit then transRefused 1
  else if 2 ≤ t ∧ s.updBusy then transRefused 4
  else if 2 ≤ t ∧ s.wakeActive t then transRefused 5
  else seqs [
    set MSU_PWR_STATE_REQ t,
    upd fun b => { b with psm := { b.psm with trans := some t } },
    whenU (decide (2 ≤ t)) (.seq (set PSM_TRANS_STAT_PHASE 1) loadsOff)]

/-! ## The state machine (R544, R545, R549) -/

/-- ALL_SLEEP follows its condition; its rise raises ALL_SLEEP and may request a power state (R545). -/
def allSleep : Upd := .read fun s =>
  let av := (List.range 36).filter s.nmAvail
  let all := !av.isEmpty && av.all fun c => s.nmState c == 0
  let t := s.get NMC_CFG_AUTO_TARGET
  whenU (all != s.flag NMC_STAT_ALL_SLEEP) (.seq (set NMC_STAT_ALL_SLEEP all.toNat)
    (whenU all (.seq (raise 15 1) (whenU (s.flag NMC_CFG_AUTO_SLEEP) (powerRequest (if t = 2 ∨ t = 4 then t else 3))))))

/-- Empty a channel's ignore list. -/
def clearIgnore (c : Nat) : Upd := seqs [
  setReg (NMC_CH_IGN c) 0, set (NMC_CH_STAT_IGN_N c) 0, set (NMC_CH_STAT_IGNORE_ALL c) 0]

/-- A channel enters a state (R544). State 1 sends an NM PDU at entry; state 0 puts the transceiver to sleep where configured. -/
def nmEnter (c st : Nat) : Upd := .read fun s => seqs [
  set (NMC_CH_STAT_STATE c) st, raise 15 0, sleepBit c (st == 0),
  whenU (st != 1) (updNm c fun x => { x with rmr := false }),
  whenU (st == 1) (nmSend c),
  whenU (st == 0 && s.flag (NMC_CH_CFG_TRX_SLEEP c) && decide (s.get MSU_PWR_STATE_STATE ≤ 1)) (trxSleep c)]

/-- A wake reaches NMC: before step 4 of a power-down it cancels it, from step 4 on it is lost (R552). -/
def nmWake (k : Upd) : Upd := .read fun s =>
  if s.get PSM_TRANS_STAT_PHASE = 3 then .skip else .seq (whenU s.powerDown (wakeDuring 63 none)) k

/-- A local request sets (R544, R549). -/
def nmLocalSet (c : Nat) : Upd := .read fun s => whenU (s.nmAvail c) (nmWake (.read fun s => match s.nmState c with
  | 0 => seqs [clearIgnore c, trxAwake c, set (NMC_CH_STAT_ACTIVE_WAKE c) 1, nmEnter c 1]
  | 3 => nmEnter c 2
  | 4 => nmEnter c 1
  | _ => .skip))

/-- A local request clears. -/
def nmLocalClear (c : Nat) : Upd := .read fun s => whenU (s.nmAvail c && !s.nmLocal c && s.nmState c == 2) (nmEnter c 3)

/-- A channel becomes available or ceases to be (R539, R544). -/
def nmAvailUpdate (c : Nat) : Upd := .read fun s =>
  if s.nmAvail c then whenU (s.nmState c == 7) (nmEnter c (if s.nmLocal c then 1 else 3))
  else whenU (s.nmState c != 7) (.seq (set (NMC_CH_STAT_STATE c) 7) (sleepBit c false))

/-- The awake counter of a channel counts: states 1 to 4 without a local request (R549). -/
def State.nmCounts (s : State) (c : Nat) : Bool := s.nmAvail c && decide (1 ≤ s.nmState c) && decide (s.nmState c ≤ 4) && !s.nmLocal c

/-- What NMC_CH_AWAKE reads: whole seconds, saturating (R549). -/
def State.nmAwake (s : State) (c : Nat) : Nat := match (s.nmCh c).since with
  | none => s.reg (NMC_CH_AWAKE c)
  | some t => min 65535 (s.reg (NMC_CH_AWAKE c) + (s.now - t) / (1000 * msCycles))

/-- The awake counter starts, and returns to 0 when a local request sets or the channel enters state 0 (R549). -/
def nmCount (c : Nat) : Upd := .read fun s =>
  if s.nmCounts c then whenU ((s.nmCh c).since.isNone) (updNm c fun x => { x with since := some s.now })
  else whenU ((s.nmCh c).since.isSome) (.seq (updNm c fun x => { x with since := none })
    (setReg (NMC_CH_AWAKE c) (if s.nmAvail c then 0 else s.nmAwake c)))

/-- A received NM PDU of `data` on an available channel (R541, R544, R549, R552). -/
def nmPduRx (c : Nat) (data : List Byte) : Upd := .read fun s =>
  let b (i : Nat) : Nat := ((data[i]?).getD 0).toNat
  let sp := s.flag (NMC_CH_CFG_SRC_POS c)
  let src := if sp then b 1 else b 0
  let cbv := if sp then b 0 else b 1
  let ign := s.flag (NMC_CH_STAT_IGNORE_ALL c)
    || (List.range (s.get (NMC_CH_STAT_IGN_N c))).any fun k => bits (s.reg (NMC_CH_IGN c)) (8 * k + 7) (8 * k) == src
  let tmo := max 1 (s.get (NMC_CH_TIME_NM_TIMEOUT_MS c)) * msCycles
  let d := data.take (s.nmLen c)
  whenU (s.nmAvail c && decide (s.nmLen c ≤ data.length)) (
    if src = s.get (NMC_CH_CFG_NODE_ID c) then .seq (inc (NMC_CH_CNT_NODE_CLASH c)) (raise 15 6)
    else whenU (!ign) (nmWake (seqs [
      setReg (NMC_CH_RXD0 c) (leValue (d.take 4)), setReg (NMC_CH_RXD1 c) (leValue (d.drop 4)),
      set (NMC_CH_STAT_LAST_SRC c) src, inc (NMC_CH_CNT_RX_NM c),
      updNm c fun x => { x with recent := (s.now, src) :: x.recent.filter fun e => decide (s.now < e.1 + tmo) },
      gladeNmPdu c,
      .read fun s => match s.nmState c with
      | 0 => seqs [trxAwake c, set (NMC_CH_STAT_ACTIVE_WAKE c) 0, nmEnter c 1]
      | 2 => whenU (bit cbv 0) (nmEnter c 1)
      | 3 => whenU (bit cbv 0) (nmEnter c 1)
      | 4 => nmEnter c 1
      | _ => .skip])))

/-- A frame of port `p` is an NM PDU: NMC's EtherType after at most one tag, on an available channel (R541). -/
def State.nmFrame (s : State) (p : Nat) (f : Frame) : Bool :=
  decide (p < 20) && at16 f (typeAt f) == s.get NMC_ETH_CFG_ETYPE && s.nmAvail (16 + p)

/-- A good frame of port `p` is offered to NMC (R541). -/
def nmOfferEth (p : Nat) (f : Frame) : Upd := .read fun s =>
  whenU (s.nmFrame p f) (nmPduRx (16 + p) ((f.drop (typeAt f + 2)).take (s.nmLen (16 + p))))

/-- A valid CAN frame is offered to NMC before filtering (R541). -/
def nmOfferCan (c : Nat) (f : CanFrame) (data : List Byte) : Upd := .read fun s =>
  let m := s.get (NMC_CH_NMMASK_MASK c)
  whenU (f.fmt.val != 2 && f.ext == s.flag (NMC_CH_NMID_XTD c) && (f.id.val &&& m) == (s.get (NMC_CH_NMID_ID c) &&& m))
    (nmPduRx c data)

/-! ## Rows -/

/-- NM_MSG_CYCLE (R542, R544). -/
def nmMsgCycle (c : Fin 36) : Upd := .read fun s =>
  whenU (s.nmAvail c && (s.nmState c == 1 || s.nmState c == 2)) (nmSend c)

/-- NM_REPEAT_EXPIRY (R544). -/
def nmRepeatExpiry (c : Fin 36) : Upd := .read fun s =>
  whenU (s.nmAvail c && s.nmState c == 1) (nmEnter c (if s.nmLocal c then 2 else 3))

/-- NM_TIMER_EXPIRY (R544). -/
def nmTimerExpiry (c : Fin 36) : Upd := .read fun s => whenU (s.nmAvail c && s.nmState c == 3) (nmEnter c 4)

/-- NM_WAIT_SLEEP_EXPIRY (R544). -/
def nmWaitSleepExpiry (c : Fin 36) : Upd := .read fun s => whenU (s.nmAvail c && s.nmState c == 4) (nmEnter c 0)

/-- A write of NMC_CH_REQ: SW set or cleared, RMR (R544). -/
def nmReqHook (c v old : Nat) : Upd := seqs [
  set (NMC_CH_REQ_RMR c) 0,
  whenU (bit v 0 && !bit old 0) (nmLocalSet c),
  whenU (!bit v 0 && bit old 0) (nmLocalClear c),
  .read fun s => whenU (bit v 1 && s.nmAvail c && s.nmLocal c && (s.nmState c == 2 || s.nmState c == 3))
    (.seq (updNm c fun x => { x with rmr := true }) (nmEnter c 1))]

/-- A write of NMC_CH_SREQ. -/
def nmSreqHook (c v old : Nat) : Upd := .read fun s => seqs [
  whenU (bit v 0 && !bit old 0) (nmLocalSet c), whenU (!bit v 0 && bit old 0 && !s.nmLocal c) (nmLocalClear c)]

/-- MAX_AWAKE_REACHED (R549): the awake counter stands at the limit. New sources follow those already ignored. -/
def maxAwakeReached (c : Fin 36) : Upd := .read fun s =>
  let tmo := max 1 (s.get (NMC_CH_TIME_NM_TIMEOUT_MS c)) * msCycles
  let srcs := (((s.nmCh c).recent.filter fun e => decide (s.now < e.1 + tmo)).reverse.map (·.2)).eraseDups
  let had := (List.range (s.get (NMC_CH_STAT_IGN_N c))).map fun k => bits (s.reg (NMC_CH_IGN c)) (8 * k + 7) (8 * k)
  let word (l : List Nat) : Nat := leValue ((l.take 4).map (BitVec.ofNat 8))
  let all := had ++ srcs
  let limit := 60 * min 1440 (s.get NMC_CFG_MAX_AWAKE)
  whenU (s.nmCounts c && s.flag NMC_CFG_MAX_AWAKE) (seqs [
    raise 15 2, updNm c fun x => { x with since := some s.now },
    if s.chainSize ≤ 8 then seqs [
      setReg (NMC_CH_AWAKE c) (min 65535 limit),
      setReg (NMC_CH_IGN c) (word all), set (NMC_CH_STAT_IGN_N c) (min 4 all.length),
      whenU (decide (4 < all.length)) (set (NMC_CH_STAT_IGNORE_ALL c) 1),
      logAdd 1 c.val (min 4 srcs.length) (word srcs)]
    else .seq (setReg (NMC_CH_AWAKE c) 0) (logAdd 2 c.val (min 4 srcs.length) (word srcs))])

/-- IGN_CLEAR (R549). -/
def ignClearHook (c : Nat) : Upd := clearIgnore c

/-- NM_LOG_POP (R556). -/
def nmLogPopHook : Upd := seqs [
  upd fun b => { b with nmc := { b.nmc with log := b.nmc.log.tail } }, set NMC_LOG_STAT_OVF 0, showLog]

/-- A sleeping channel's transceiver wakes in Run or Reduced (R548): by its detection, or for a pending element or frame (`tx`). -/
def trxWakes (c : Nat) (id : Nat) (tx : Bool) : Upd := .read fun s => seqs [
  trxAwake c, raise 15 3, logAdd 4 c 0 id,
  if tx then .seq (set (NMC_CH_REQ_SW c) 1) (nmLocalSet c)
  else whenU (s.nmAvail c && s.nmState c == 0)
    (if s.get (NMC_CH_STAT_IGN_N c) = 0 ∧ ¬ s.flag (NMC_CH_STAT_IGNORE_ALL c)
     then .seq (set (NMC_CH_STAT_ACTIVE_WAKE c) 0) (nmEnter c 1) else nmEnter c 3)]

/-- Something waits to be sent on a sleeping channel: a pending TX element, or a frame in the port's queue (R548). -/
def State.nmPending (s : State) (c : Nat) : Bool :=
  if c < 16 then s.reg (CAN_TXBUF_PEND c) != 0 || s.reg (CAN_TXQ_PEND c) != 0
  else s.b.swq.out.any fun e => e.1 / 8 == c - 16 && !e.2.isEmpty

/-- TRX_WAKE (R548): a wake-up pattern on CAN8 to CAN15, link wake signalling on a T1 port; on CAN0 to CAN7 a wake that the armed
selective wake found (R547); with `tx`, a pending element or a queued frame while TX_WAKE is 1. -/
def trxWake (c : Fin 36) (id : Option (Fin 4294967296)) (tx : Bool) : Upd := .read fun s =>
  whenU (s.flag (NMC_CH_STAT_TRX_ASLEEP c) && decide (s.get MSU_PWR_STATE_STATE ≤ 1) && s.get PSM_TRANS_STAT_PHASE != 3
    && (if tx then s.flag (BLK_STAT_ENABLED 15) && s.flag (NMC_CH_CFG_TX_WAKE c) && s.nmPending c
      else decide (8 ≤ c.val) || s.flag (NMC_SWK_STAT_ARMED c)))
    (trxWakes c (if tx then 0 else (id.map (·.val)).getD 0) tx)

/-- What network management does by itself: channels become available or cease to be, sleeping channels wake for what they must send,
the awake counters and summaries follow (R539, R545, R548, R549). -/
def nmWork : Upd := .read fun s => seqs [
  whenU (s.flag NMC_STAT_LARGE_CHAIN != decide (9 ≤ s.chainSize)) (set NMC_STAT_LARGE_CHAIN (decide (9 ≤ s.chainSize)).toNat),
  whenU (s.flag (BLK_STAT_ENABLED 15) && s.get PSM_TRANS_STAT_PHASE != 3) (seqs [
    forN 36 fun c => .seq (nmAvailUpdate c) (.read fun s =>
      whenU (s.flag (NMC_CH_STAT_TRX_ASLEEP c) && s.flag (NMC_CH_CFG_TX_WAKE c) && s.nmPending c && decide (s.get MSU_PWR_STATE_STATE ≤ 1))
        (trxWakes c 0 true)),
    forN 36 nmCount]),
  whenU (s.flag (BLK_STAT_ENABLED 15)) allSleep]

/-- T1_SLEEP_HANDSHAKE_FAIL (R546). -/
def t1SleepHandshakeFail (p : Fin 18) : Upd := .read fun s =>
  whenU (s.get (ETP_T1_SLEEP_STATE p) == 1) (.seq (set (ETP_T1_SLEEP_STATE p) 0) (raiseCell 7 p 19))

/-! ## Gateway isolation (R554, R555) -/

/-- The gateway is isolated or released (R555, R556): a release, or an isolation that is new, raises ISO_CHG and is logged. -/
def isolate (on : Bool) (cause : Nat) : Upd := .read fun s => seqs [
  set NMC_ISO_STAT_ISOLATED on.toNat, set NMC_STAT_ISOLATED on.toNat, set SWC_ISO_STAT_ISOLATED on.toNat,
  set NMC_ISO_STAT_CAUSE cause,
  whenU (!on || !s.flag NMC_ISO_STAT_ISOLATED) (.seq (raise 15 4) (logAdd 3 0 (on.toNat * 128 + cause) 0))]

/-- A release: `rel3` through NMC_ISO_REL3. -/
def isoReleaseBy (key : Nat) (rel3 : Bool) : Upd := .read fun s =>
  if key ≠ 0x69 then set NMC_ISO_STAT_REFUSE 1
  else if s.moduleSafe ∨ s.get MSU_BOOT_STAT_PHASE ≠ 3 then set NMC_ISO_STAT_REFUSE 2
  else if rel3 ∧ ¬ (s.flag MSU_BOOT_CFG_IW_SPLIT_A ∧ s.flag MSU_BOOT_CFG_IW_SPLIT_B) then set NMC_ISO_STAT_REFUSE 3
  else .seq (set NMC_ISO_STAT_REFUSE 0) (isolate false (s.get NMC_ISO_STAT_CAUSE))

/-- A write of NMC_ISO_CTRL. -/
def isoCtrlHook (v : Nat) : Upd := seqs [
  whenU (bit v 1 && bits v 15 8 == 0x69) (isolate true 4),
  whenU (bit v 0 && !bit v 1) (isoReleaseBy (bits v 15 8) false)]

/-- A write of NMC_ISO_REL3. -/
def isoRel3Hook (v : Nat) : Upd := whenU (bit v 0) (isoReleaseBy (bits v 15 8) true)

end Sys2Proof.Machine
end

