-- ==== Sys2Proof/Machine/Fabric.lean ====
section
/-!
DEFINITION. The fabric as requesters meet it: the address map, partition identifiers, firewall and DRAM windows, the checks of
R63, the record of refusals, QoS accounting, and reads and writes of memory with its encryption and poison
(02_architecture.md, R142 to R154, R203 to R210).
-/
namespace Sys2Proof.Machine

/-! ## The address map (R58 to R61) -/

/-- Where a fabric address leads. -/
inductive Place where
  | unmapped | rom | sram | tcm (x : Nat) | page (k : Nat) | window | aia | ufs | iommu | dram | chain (dev off : Nat)
  deriving DecidableEq, Repr

/-- The parts of the memory windows that hold words: CAN message RAM (R387), LIN tables (R409), SWC tables (R462, R463), SRT
tables (R486), Glade RAM (R109). -/
def windowWord (a : Nat) : Bool :=
  let w := a - 0x38800000
  (0x39000000 ≤ a && a < 0x39200000)
    || (0x39800000 ≤ a && a < 0x3980C000 && decide (a % 0x1000 < 0x500))
    || (0x38800000 ≤ a && (decide (w < 0x4000) || (0x4000 ≤ w && w < 0x4200) || (0x4200 ≤ w && w < 0x4200 + 8 * 200)
        || (0x10000 ≤ w && w < 0x10000 + 0x1000 * 25)))
    || (0x3A000000 ≤ a && a < 0x3A800000)
    || (0x58000000 ≤ a && a < 0x58004000)

/-- The rows of R58 and the layout of R59, chain windows not yet resolved. -/
def placeOf (a : Nat) : Place :=
  if a < 0x40000 then .rom
  else if 0x1000000 ≤ a ∧ a < 0x1400000 then .sram
  else if 0x8000000 ≤ a ∧ a < 0x8080000 then .tcm 0
  else if 0x8800000 ≤ a ∧ a < 0x8880000 then .tcm 1
  else if 0x1000000000 ≤ a ∧ a < 0x13DFF00000 then .dram
  else if 0x100000000 ≤ a ∧ a < 0x500000000 then .chain ((a - 0x100000000) / 0x10000000) (a % 0x10000000)
  else if 0x28000000 ≤ a ∧ a < 0x28800000 then
    (if a < 0x28008000 ∨ (0x28100000 ≤ a ∧ a < 0x2810C000) ∨ (0x28400000 ≤ a ∧ a < 0x28460000) then .aia else .unmapped)
  else if 0x2A000000 ≤ a ∧ a < 0x2A800000 then .ufs
  else if 0x2B400000 ≤ a ∧ a < 0x2B401000 then .iommu
  else if windowWord a then .window
  else match unitOf a with
  | some (k, _) => .page k
  | none => .unmapped

/-- The address on the device that offset `off` of its chain window reaches (R60). -/
def State.sliceAddr (s : State) (off : Nat) : Option Nat :=
  let slice := off / 0x1000000
  if slice < 5 then some (0x10000000 * (slice + 1) + off % 0x1000000)
  else if 8 ≤ slice ∧ s.flag FLK_DRAM_AP_EN then some (s.get FLK_DRAM_AP_BASE * 0x8000000 + (off - 0x8000000))
  else none

/-- Whether a slice of a chain window is mapped (R60). -/
def sliceMapped (off : Nat) : Bool := let slice := off / 0x1000000; slice < 5 || 8 ≤ slice

/-- Device `d` is in the enumerated chain (R562). -/
def State.inChain (s : State) (d : Nat) : Bool := if d < 32 then s.bitAt FLK_REACH_LO d else s.bitAt FLK_REACH_HI (d - 32)

/-- The module's own device number (R61). -/
def State.devNum (s : State) : Nat := if s.get MSU_BOOT_CFG_CHAIN_MODE = 0 then 0 else s.get FLK_DEV_DEVNUM

/-- The address an access is served at: its own chain window leads to a local address (R61). -/
def State.resolve (s : State) (a : Nat) : Nat :=
  match placeOf a with
  | .chain d off => if d = s.devNum then (s.sliceAddr off).getD a else a
  | _ => a

/-- The region whose windows are checked and whose page records a refusal: 0 C, 1 N, 2 P, 3 A (R63, R153). -/
def regionOf (a : Nat) : Option Nat :=
  if a < 0x10000000 then some 0
  else if 0x20000000 ≤ a ∧ a < 0x60000000 then some (a / 0x10000000 - 2)
  else if 0x1000000000 ≤ a ∧ a < 0x1400000000 then some 0
  else none

/-! ## Partition identifiers (R142, R151, R152) -/

def State.locked (s : State) : Bool := s.flag MSU_PROT_LOCK_LOCK

/-- The run-time PID of a context with RANGE = 1. -/
def State.runPid (s : State) (i : Nat) : Nat :=
  if i < 48 then s.get (CNP_HART_PID_PID (i / 4)) else if 256 ≤ i then s.get (IOM_INST_PID_PID (i - 256)) else 0

/-- The PID that context `i` carries, and whether its requests are admitted at all. -/
def State.ctxPid (s : State) (i : Nat) : Nat × Bool :=
  if ¬ s.locked then (0, true)
  else if s.flag (MSU_PID_CTX_RANGE i) then
    (s.runPid i, s.flag (MSU_PID_CTX_VALID i) && s.get (MSU_PID_CTX_PID_LO i) ≤ s.runPid i
      && s.runPid i ≤ s.get (MSU_PID_CTX_PID_HI i))
  else (s.get (MSU_PID_CTX_PID_LO i), s.flag (MSU_PID_CTX_VALID i))

/-! ## Windows (R153, R154, R207) -/

/-- Address bits [39:12] that a window register names. -/
def winPage (v : Nat) : Nat := bits v 31 12 + 2 ^ 20 * bits v 7 0

/-- Whether the ranges of a PERM word grant a PID. -/
def permGrants (v pid : Nat) (wr : Bool) : Bool :=
  if wr then bits v 21 16 ≤ pid && pid ≤ bits v 29 24 else bits v 5 0 ≤ pid && pid ≤ bits v 13 8

/-- Whether the single PIDs of an XTRA word grant a PID. -/
def xtraGrants (v pid : Nat) (wr : Bool) : Bool :=
  (bits v 21 16 == pid && bit v (if wr then 23 else 22)) || (bits v 29 24 == pid && bit v (if wr then 31 else 30))

/-- R154, given the windows that cover the address: whether each grants. -/
def windowRule (pid : Nat) (cover : List Bool) : Bool :=
  pid == 1 || (if cover.isEmpty then pid == 3 else cover.any id)

/-- The firewall of region `r` (R154). -/
def State.firewall (s : State) (r pid a : Nat) (wr : Bool) : Bool :=
  let p := a / 4096
  windowRule pid (((List.range 256).filter fun w => s.flag (RG_FW_PERM_EN r w)
      && winPage (s.reg (RG_FW_BASE r w)) ≤ p && p ≤ winPage (s.reg (RG_FW_LAST r w))).map fun w =>
    permGrants (s.reg (RG_FW_PERM r w)) pid wr || xtraGrants (s.reg (RG_FW_XTRA r w)) pid wr)

/-- The enabled DRAM windows that cover an address. -/
def State.dramWindows (s : State) (a : Nat) : List Nat :=
  (List.range 64).filter fun w => s.flag (MEM_DW_PERM_EN w)
    && winPage (s.reg (MEM_DW_BASE w)) ≤ a / 4096 && a / 4096 ≤ winPage (s.reg (MEM_DW_LAST w))

/-- The rule of R207. -/
def State.dramAllowed (s : State) (pid a : Nat) (wr : Bool) : Bool :=
  windowRule pid ((s.dramWindows a).map fun w => permGrants (s.reg (MEM_DW_PERM w)) pid wr)

/-! ## The checks (R63) -/

/-- Region `r` is isolated (R65). -/
def State.isolated (s : State) (r : Nat) : Bool := s.flag (BLK_CTRL_ISOLATE (23 + r))

/-- An address whose region is isolated, but not the region's own page (R65). A chain window leads through region N. -/
def State.shut (s : State) (a : Nat) : Bool := match placeOf a with
  | .chain d _ => d != s.devNum && s.isolated 1
  | pl => match regionOf a with
    | some r => s.isolated r && decide (0x20000000 ≤ a) && decide (a < 0x60000000) && pl != .page (23 + r)
    | none => false

/-- An address that the decode refuses (R58, R61). A write to the boot ROM, a read-only row, counts here (DESIGN CHOICE: the spec
names no cause; notes/assumptions/83.md). -/
def State.undecoded (s : State) (a kind : Nat) : Bool := match placeOf a with
  | .unmapped => true
  | .rom => kind == 1
  | .chain d off => d == s.devNum || !s.inChain d || !sliceMapped off
  | _ => false

/-- The windows that cover an address admit a PID (R154, R207). The MSU page and the chain windows have none. -/
def State.admitted (s : State) (pid a : Nat) (wr : Bool) : Bool :=
  if placeOf a = .dram then s.dramAllowed pid a wr else match regionOf a with
  | some r => s.firewall r pid a wr
  | none => true

/-- Whether a place takes an access of `n` bytes at `a` (R62, R199): memory and another device's window any, pages aligned 4 and
8 bytes, the interrupt controllers aligned 4 bytes. -/
def Place.fits (pl : Place) (a n : Nat) : Bool := match pl with
  | .rom => true
  | .sram => true
  | .tcm _ => true
  | .dram => true
  | .chain _ _ => true
  | .aia => n == 4 && a % 4 == 0
  | _ => (n == 4 || n == 8) && a % n == 0

/-- Two addresses of one transfer in the windows of two devices: the transfer has no single target (notes/assumptions/83.md). -/
def acrossDevices (a z : Nat) : Bool := match placeOf a, placeOf z with
  | .chain d _, .chain e _ => d != e
  | _, _ => false

/-- The refusal cause of an access of `n` bytes at resolved address `a`, 0 where it passes the first four checks. `kind`: 0 read,
1 write, 2 atomic. Each check looks at the first and the last byte: at most 256 B touch no third page (R47). A write to the boot ROM
answers 1, decode (DESIGN CHOICE, `State.undecoded`, notes/assumptions/83.md). -/
def State.checkAt (s : State) (who : Nat × Bool) (a n kind : Nat) : Nat :=
  let z := a + (n - 1)
  let wr := kind != 0
  if s.shut a || s.shut z then 5
  else if s.undecoded a kind || s.undecoded z kind || acrossDevices a z then 1
  else if s.locked && !(who.2 && s.admitted who.1 a wr && s.admitted who.1 z wr) then 2
  else if !(placeOf a).fits a n then 3
  else if kind = 2 ∧ placeOf a ≠ .sram ∧ placeOf a ≠ .dram then 4
  else 0

/-- Record a refusal by one of the first four checks (R63) and its TR fault. -/
def refuse (who : Nat) (a kind cause : Nat) : Upd :=
  let hi := cause * 2 ^ 28 + who % 64 * 2 ^ 22 + (if kind = 0 then 0 else 2 ^ 8) + a / 2 ^ 32 % 256
  match regionOf a with
  | some r => seqs [setReg (RG_DECERR_ADDR_LO r) (a % 2 ^ 32), setReg (RG_DECERR_ADDR_HI r) hi, report (23 + r) none TR]
  | none => seqs [setReg MSU_ACC_VIOL_ADDR_LO (a % 2 ^ 32), setReg MSU_ACC_VIOL_ADDR_HI hi, count MSU_ACC_VIOL_CNT, report 27 none TR]

/-- Record a refusal by access code or ownership: 6 SP, 7 BL, 8 not owner, 5 safe state (R82, R284). -/
def violation (pid a kind cause : Nat) : Upd := seqs [
  setReg MSU_ACC_VIOL_ADDR_LO (a % 2 ^ 32),
  setReg MSU_ACC_VIOL_ADDR_HI (cause * 2 ^ 28 + pid % 64 * 2 ^ 22 + (if kind = 0 then 0 else 2 ^ 8) + a / 2 ^ 32 % 256),
  count MSU_ACC_VIOL_CNT, report 27 none TR]

/-! ## Bandwidth and classes (R44 to R53) -/

def updFab (f : Fab → Fab) : Upd := upd fun b => { b with fab := f b.fab }

/-- Units of 64 B. -/
def units64 (n : Nat) : Nat := (n + 63) / 64

/-- The region a context's requests enter at (R44): the router, CAN, LIN, the C ports, the host and the links are in region N, and so are
the queue sets of an instance and the VF that owns one (R426, R588). -/
def State.ctxRegion (s : State) (i : Nat) : Nat :=
  if 256 ≤ i then (if s.get (IOM_INST_BIND_KIND (i - 256)) = 4 ∨ s.get (IOM_INST_OWNER_OKIND (i - 256)) = 2 then 1 else 0)
  else if 59 ≤ i ∧ i ≤ 63 then 1 else 0

/-- The port of the root that leads to an address: a region, 4 the MSU, 5 the DRAM port; the chain lies behind region N (R48). -/
def portOf (a : Nat) : Nat := if 0x1000000000 ≤ a ∧ a < 0x1400000000 then 5 else match regionOf a with
  | some r => r
  | none => match placeOf a with | .chain _ _ => 1 | _ => 4

/-- One grant at region `r` for a transfer of class `q` (0 safety to 3 background): an empty real-time regulator makes it
bulk (R45, R53). -/
def grant (r q n : Nat) : Upd := .read fun s =>
  let t := s.get (RG_RT_REG_RT_TOKENS r)
  let used := mapGet 0 s.b.fab.rtUsed r
  let q' := if q = 1 ∧ t ≠ 0 ∧ t ≤ used then 2 else q
  .seq (count (match q' with | 0 => RG_GRANT_SAFE r | 1 => RG_GRANT_RT r | 2 => RG_GRANT_BULK r | _ => RG_GRANT_BG r))
    (whenU (q' == 1 && t != 0) (updFab fun f => { f with rtUsed := mapPut 0 f.rtUsed r (used + units64 n) }))

/-- The class of a request of context `i` under `pid`, and whether it is demoted from safety (R44). -/
def State.qosOf (s : State) (i pid : Nat) : Nat × Bool :=
  if pid = 1 then (0, false) else
  let q := s.get (MSU_PID_CTX_QOS i)
  if q = 0 then (1, true) else (q, false)

/-- A partition moves `n` bytes through the root fabric. -/
def moveBytes (pid n : Nat) : Upd := updFab fun f => { f with moved := mapPut 0 f.moved pid (mapGet 0 f.moved pid + units64 n) }

/-- A transfer of `n` bytes goes from region `src` to `a` for context `i` under `pid`: its grants at the interconnects it crosses, a demotion
where it entered, and its units where it crosses the root (R44 to R49). Requests to DRAM do not cross the interconnect of region C
(R48). `prom`: the points where its age promoted it (R46). -/
def account (src i pid a n : Nat) (prom : List Nat := []) : Upd := .read fun s =>
  let (q, dem) := s.qosOf i pid
  let p := portOf a
  let cls (r : Nat) : Nat := if prom.contains r then min q 1 else q
  seqs [
    whenU dem (count (RG_DEMOTE_CNT src)),
    whenU (!(src == 0 && p == 5)) (grant src (cls src) n),
    whenU (p < 4 && p != src) (grant p (cls p) n),
    whenU (p != src) (moveBytes pid n)]

/-- The units left do not cover a transfer through the root (R49). -/
def State.overUnits (s : State) (src pid a n : Nat) : Bool :=
  let b := s.get (MSU_BW_BUDGET_UNITS pid)
  pid != 1 && b != 0 && portOf a != src && decide (b < mapGet 0 s.b.fab.moved pid + units64 n)

/-- A request of `pid` from region `src` waits at the root: its partition's units do not cover it; the DRAM port is held by MEM, by a
re-key of the partition, or by the copy of a page it touches (R49, R182, R205, R213). -/
def State.mustWait (s : State) (src pid a n : Nat) : Bool :=
  s.overUnits src pid a n
    || (portOf a == 5 && (s.b.mem.held || s.b.mem.rekey.any (·.1 == pid)
      || (match s.b.mem.retiring with | p :: _ => a / 4096 == p || (a + (n - 1)) / 4096 == p | [] => false)))

/-! ## Memory with encryption and poison (R203, R208 to R210) -/

/-- The partition whose memory key a DRAM line uses (R208). -/
def State.keyPid (s : State) (a : Nat) : Nat := match s.dramWindows a with | w :: _ => s.get (MEM_DW_KEY_KEY_PID w) | [] => 0

/-- The key of a DRAM line now: its slot and that slot's generation as one number. -/
def State.lineKeyNow (s : State) (line : Nat) : Nat :=
  let p := s.keyPid (64 * line)
  64 + p + 128 * mapGet 0 s.b.mem.keyGen p

def updMem (f : Mem → Mem) : Upd := upd fun b => { b with mem := f b.mem }

/-- Free bytes. -/
def freeBytes (n : Nat) (k : List Byte → Upd) : Upd := .read fun s => .seq
  (updFab fun f => { f with free := f.free + n })
  (k ((List.range n).map fun i => BitVec.ofNat 8 (Config.freeValue (s.b.fab.free + i)).toNat))

/-- The lines that `n` bytes at `a` touch. -/
def linesOf (a n : Nat) : List Nat := if n = 0 then [] else (List.range ((a + n - 1) / 64 - a / 64 + 1)).map (a / 64 + ·)

def isDram (a : Nat) : Bool := 0x1000000000 ≤ a && a < 0x1400000000

/-- A byte of memory as a request meets it: a line last written under another key than the present one reads as pseudo-random data,
which the two keys and the stored line determine (R209; notes/assumptions/80.md). -/
def State.plainByte (s : State) (x : Nat) : Byte :=
  let l := x / 64
  let k := mapGet 0 s.b.mem.lineKey l
  let now := s.lineKeyNow l
  if isDram x && k != 0 && k != now then Config.wrongKey k now (s.bytes (64 * l) 64) (x % 64) else s.byte x

def State.plain (s : State) (a n : Nat) : List Byte := (List.range n).map fun i => s.plainByte (a + i)

/-- Record a memory error: KIND, PID, line (R203). -/
def memError (kind pid line : Nat) : Upd := seqs [
  setReg MEM_ERR_ADDR_LO (64 * line % 2 ^ 32),
  setReg MEM_ERR_ADDR_HI (kind * 2 ^ 28 + pid % 64 * 2 ^ 22 + 64 * line / 2 ^ 32 % 256)]

/-- An uncorrectable error or a poisoned line meets a request: PM fault of MEM. -/
def memUe (kind pid line : Nat) : Upd := seqs [
  memError kind pid line, count MEM_UE_CNT, raise 4 1, report 4 none PM]

/-- An error of a TCM word on the core port or the fabric port (R218). -/
def tcmError (x port word : Nat) (ue : Bool) : Upd := seqs [
  setReg (IW_TCM_ERR x) ((if ue then 2 else 1) * 2 ^ 30 + port * 2 ^ 29 + word % 2 ^ 17 * 4),
  raise (1 + x) (if ue then 5 else 4), report (1 + x) none (if ue then PM else CE)]

/-- The words that `n` bytes at `a` touch, by address / 4. -/
def wordsOf (a n : Nat) : List Nat := if n = 0 then [] else (List.range ((a + n - 1) / 4 - a / 4 + 1)).map (a / 4 + ·)

/-- Read memory: none where a line is poisoned, or a TCM word holds an uncorrectable error (R203, R218). -/
def memRead (pid a n : Nat) (k : Option (List Byte) → Upd) : Upd := .read fun s =>
  match placeOf a with
  | .tcm x => (match (wordsOf a n).find? fun w => s.b.mem.tcmBad.contains w with
    | some w => .seq (tcmError x 1 (w % 0x20000) true) (k none)
    | none => k (some (s.bytes a n)))
  | _ => match (linesOf a n).find? fun l => s.b.mem.poison.contains l with
  | some l => .seq (memUe 5 pid l) (k none)
  | none => k (some (s.plain a n))

/-- Write the part of `bs` at `a` that falls in one line; the line's other bytes are encrypted anew with it. -/
def lineWrite (pid a : Nat) (bs : List Byte) (line : Nat) : Upd := .read fun s =>
  let lo := max a (64 * line)
  let hi := min (a + bs.length) (64 * line + 64)
  let part := (bs.drop (lo - a)).take (hi - lo)
  let full := decide (part.length = 64)
  let now := s.lineKeyNow line
  if s.b.mem.poison.contains line ∧ ¬ full then memUe 5 pid line
  else seqs [
    updMem fun m => { m with poison := m.poison.filter (· != line) },
    whenU (isDram a) (.seq (whenU (!full && mapGet 0 s.b.mem.lineKey line != now) (storeBytes (64 * line) (s.plain (64 * line) 64)))
      (updMem fun m => { m with lineKey := mapPut 0 m.lineKey line now })),
    storeBytes lo part]

/-- Write memory; a TCM word written whole loses its error. -/
def memWrite (pid a : Nat) (bs : List Byte) : Upd := .seq
  (.read fun s => whenU (!s.b.mem.tcmBad.isEmpty) (updMem fun m => { m with tcmBad := m.tcmBad.filter fun w => !(a ≤ 4 * w && 4 * w + 4 ≤ a + bs.length) }))
  (forEach (linesOf a bs.length) (lineWrite pid a bs))

/-- Whether a partial write meets a poisoned line. -/
def State.writePoisoned (s : State) (a n : Nat) : Bool :=
  (linesOf a n).any fun l => s.b.mem.poison.contains l && !(a ≤ 64 * l && 64 * l + 64 ≤ a + n)

/-! ## Page copies and re-keys (R205, R206, R209) -/

/-- PAGE_RETIRE_DONE (R205): the copy of the first page ends. Lines and marks keep their address. -/
def pageRetireDone : Upd := .read fun s => match s.b.mem.retiring with
  | [] => .skip
  | p :: t =>
    let i := s.get MEM_RETIRE_STAT_SPARE_USED
    seqs [updMem fun m => { m with retiring := t },
      setReg (MEM_SPARE_MAP i) (2 ^ 31 + p),
      set MEM_RETIRE_STAT_SPARE_USED (i + 1), set MEM_RETIRE_STAT_SPARE_LEFT (255 - i), raise 4 2]

/-- A page of partition `p`'s key is being copied (R206). -/
def State.copies (s : State) (p : Nat) : Bool := match s.b.mem.retiring with
  | pg :: _ => s.keyPid (4096 * pg) == p
  | [] => false

/-- REKEY_DONE: the oldest re-key's swap is complete. A swap that waited for a page copy takes place now. -/
def rekeyDone : Upd := .read fun s => match s.b.mem.rekey with
  | [] => .skip
  | (p, swapped) :: t => whenU (swapped || !s.copies p) (seqs [
      updMem fun m => { m with rekey := t, keyGen := if swapped then m.keyGen else mapPut 0 m.keyGen p (mapGet 0 m.keyGen p + 1) },
      raise 4 5])

/-! ## Packets to other devices (R61, R567, R568) -/

/-- A packet that the module originates, waiting for its route (R575). -/
def flkOut (p : Pkt) : Upd := upd fun b => { b with flk := { b.flk with out := b.flk.out ++ [p] } }

/-- The initiator record of a context (R592). -/
def recOf (i : Nat) : Nat := if 256 ≤ i ∧ i < 512 then i - 256 else 256

/-- The next write sequence number of a record (R592). -/
def takeWseq (rec : Nat) (k : Nat → Upd) : Upd := .read fun s =>
  let n := mapGet 0 s.b.hbr.wseq rec
  .seq (upd fun b => { b with hbr := { b.hbr with wseq := mapPut 0 b.hbr.wseq rec ((n + 1) % 65536) } }) (k n)

/-- A posted write leaves for another device with number `n` of record `rec`. -/
def chainSend (rec n : Nat) (p : Pkt) (at' : Nat) : Upd := .read fun s =>
  let w : ChainWrite := ⟨rec, n, p.dst, p.pid, at', p.len, if rec < 256 then s.get (IOM_INST_GEN_GEN rec) else 0, p.type == 6, p.srcHost⟩
  .seq (upd fun b => { b with hbr := { b.hbr with sent := b.hbr.sent ++ [w] } })
    (flkOut { p with wseq := n, instV := rec < 256, inst := rec % 256 })

/-- A posted write or signal update of record `rec` leaves for device `d`: it takes the record's next write sequence number
(R592), and the bridge remembers it until a barrier covers it. `at'` is the target's own address. -/
def chainWrite (rec : Nat) (p : Pkt) (at' : Nat) : Upd := takeWseq rec fun n => chainSend rec n p at'

/-- The address on the target that a chain window address reaches; the DRAM aperture's base is the target's, so there it is the
window's address (notes/assumptions/15.md). -/
def targetAddr (x : Nat) : Nat := match placeOf x with
  | .chain _ off => if off / 0x1000000 < 5 then 0x10000000 * (off / 0x1000000 + 1) + off % 0x1000000 else x
  | _ => x

/-- The packet of a posted write. -/
def writePkt (d pid x : Nat) (part : List Byte) : Pkt :=
  { type := 1, vc := 1, dst := d, pid := pid, len := part.length, w2 := x % 2 ^ 32, addrHi := x / 2 ^ 32 % 256, data := part }

/-- A posted write to another device, in packets of at most 256 B: the address is that of the chain window, which names the
device and the slice (notes/assumptions/15.md). -/
def flkWrite (rec d pid a : Nat) (bs : List Byte) : Upd := forN ((bs.length + 255) / 256) fun i =>
  let part := (bs.drop (256 * i)).take 256
  let x := a + 256 * i
  chainWrite rec (writePkt d pid x part) (targetAddr x)

/-- A signal update to another device (R498, R568). -/
def flkSignal (d pid addr v : Nat) : Upd :=
  chainWrite 256 { type := 6, vc := 1, dst := d, pid := pid, len := 16, data := leBytes 4 addr ++ leBytes 4 0 ++ leBytes 8 v } addr

/-! ## Which requests are issued (R65, R71, R81, R142, R156, R227) -/

/-- The block that issues the requests of a context. -/
def State.ctxUnit (s : State) (i : Nat) : Nat :=
  if 256 ≤ i then (if s.get (IOM_INST_BIND_KIND (i - 256)) = 4 then 7 else 6)
  else if i < 48 then 0 else if i < 52 then 1 else if i < 56 then 2 else [3, 5, 4, 11, 9, 7, 14, 13].getD (i - 56) 0

/-- The core that runs in place `p` (0 or 1) of a split triplet: its own, or the spare that took the place (R231, R232). -/
def State.coreIn (s : State) (x p : Nat) : Option Nat :=
  let run (k : Nat) : Bool := bit (s.get (IW_STAT_RUNNING x)) k
  if run p then some p
  else if s.flag (IW_STAT_SPARE_USED x) ∧ run 2 ∧ (p = 0 ∨ run 0) then some 2 else none

/-- The DMA engine of a triplet works: not in reset, not after a fatal error; a debugger's halt stops the cores alone (R142, R227,
R236). -/
def State.iwDmaRuns (s : State) (x : Nat) : Bool :=
  let st := s.get (IW_STAT_STATE x)
  st != 0 && (st != 4 || (mapGet {} s.b.iw x).stopped.isSome)

/-- A requester that does not run: a hart that is stopped, that a debugger halted or that Canopy's stopped clock holds (R87, R142, R213,
R691); the cores of a triplet that is not in service, a voted context while its triplet is split, a split one while it is voted or its
place is empty (R156, R224, R227, R232). -/
def State.ctxIdle (s : State) (i : Nat) : Bool :=
  if i < 48 then !s.bitAt CNP_HART_STAT (i / 4 + CNP_HART_STAT_RUNNING.lo) || s.flag PSM_STAT_LOWV || s.b.vlt.halted.contains (i / 4)
  else if i < 56 then
    let x := (i - 48) / 4
    let off := s.get (IW_STAT_STATE x) != 2
    match (i - 48) % 4 with
    | 0 => off || s.flag (IW_STAT_SPLIT x)
    | 3 => !s.iwDmaRuns x
    | c => off || !s.flag (IW_STAT_SPLIT x) || (match s.coreIn x (c - 1) with
      | some k => s.b.vlt.halted.contains (12 + 3 * x + k)
      | none => true)
  else false

/-! ## The cores' address map (R217) -/

/-- The TCM of a triplet on the fabric. -/
def tcmBase (x : Nat) : Nat := if x = 0 then 0x8000000 else 0x8800000

/-- What a requester's address reaches: nothing, its own TCM at a fabric address, or the fabric. -/
inductive Reach where
  | fault | tcm (a : Nat) | fabric (a : Nat)
  deriving DecidableEq, Repr

/-- Where an address of context `i` leads. A core of a triplet issues 32-bit addresses, which R217 maps; every other requester issues
fabric addresses. -/
def State.coreReach (s : State) (i a n : Nat) : Reach :=
  if i < 48 ∨ 56 ≤ i ∨ (i - 48) % 4 = 3 then .fabric a else
  let x := (i - 48) / 4
  let c := (i - 48) % 4
  let lo := tcmBase x + 0x40000 * (c - 1)
  let len := if c = 0 then 0x80000 else 0x40000
  let out (f : Nat) : Reach := if lo ≤ f ∧ f + n ≤ lo + len then .tcm f else .fabric f
  if a < 0xF000000 then out a
  else if a < 0x10000000 then (if a + n ≤ 0xF000000 + len then .tcm (lo + (a - 0xF000000)) else .fault)
  else if a < 0x80000000 then out a
  else if a < 0x100000000 ∧ s.flag (IW_DRAM_WIN_EN x) then out (s.get (IW_DRAM_WIN_BASE x) * 0x80000000 + (a - 0x80000000))
  else .fault

/-- Requests of a context at region `src` that are not issued: its block is isolated (R71, R81), or region N is and the target lies outside
it (R65: discarded, the block sees an error). -/
def State.muted (s : State) (src i a : Nat) : Bool :=
  s.flag (BLK_CTRL_ISOLATE (s.ctxUnit i)) || (src == 1 && s.isolated 1 && portOf a != 1)

/-! ## Transfers of engines -/

/-- A transfer of an engine that waits, as the fabric's requests do (R49, R205, R209): an engine's work is one command here, so what it
waits for comes first (notes/assumptions/45.md): the next regulation period, the end of the copy of its page, its partition's re-key. -/
def engineWait (src pid a n : Nat) : Upd := seqs [
  .read fun s => whenU (s.overUnits src pid a n) (updFab fun f => { f with moved := [] }),
  .read fun s => whenU (portOf a == 5 && (match s.b.mem.retiring with | p :: _ => a / 4096 == p | [] => false)) pageRetireDone,
  .read fun s => whenU (portOf a == 5 && s.b.mem.rekey.any (·.1 == pid)) (forN s.b.mem.rekey.length fun _ => rekeyDone)]

/-- The length of an engine's next transfer: at most 256 B, within one block of 256 B, and within what a whole period admits (R47,
R49). -/
def State.pieceLen (s : State) (pid a left : Nat) : Nat :=
  let b := s.get (MSU_BW_BUDGET_UNITS pid)
  min (min left (256 - a % 256)) (if pid = 1 ∨ b = 0 then 256 else 64 * b)

/-- A word access of an engine to a register page or window takes its place at the root behind what waits there. -/
def queueWord (src i : Nat) (who : Nat × Bool) (a kind : Nat) (n : Nat) (bs : List Byte) : Upd := .read fun s =>
  updFab fun f => { f with waiting := f.waiting ++ [
    { pid := who.1, ok := who.2, src := src, cls := (s.qosOf i who.1).1, point := 4, since := s.now,
      q := { ctx := ⟨i % 512, by omega⟩, addr := ⟨a % 1099511627776, by omega⟩, kind := ⟨kind % 2, by omega⟩, len := ⟨n % 257, by omega⟩,
             data := bs, op := 0, ecc := 0, cache := 0, contended := false } }] }

/-- The stored words of a page as an engine reads them. -/
def State.wordsAt (s : State) (a n : Nat) : List Byte := ((List.range (n / 4)).map fun i => leBytes 4 (s.reg (a + 4 * i))).flatten

/-- One transfer of an engine's read. What another device of the chain holds is outside the module: free values
(notes/assumptions/12.md). A page's word is read as stored and its read takes effect with the requests that wait
(notes/assumptions/13.md). -/
def pieceRead (src i : Nat) (who : Nat × Bool) (a0 n : Nat) (k : Option (List Byte) → Upd) : Upd := .read fun s =>
  let a := s.resolve a0
  let cause := s.checkAt who a n 0
  if s.muted src i a then k none
  else if cause ≠ 0 then .seq (refuse who.1 a 0 cause) (k none)
  else .seq (engineWait src who.1 a n) (match placeOf a with
    | .chain _ _ => .seq (account src i who.1 a n) (free fun v => if v % 2 = 0 then freeBytes n (k ∘ some) else k none)
    | .page _ => .seq (queueWord src i who a 0 n []) (k (some (s.wordsAt a n)))
    | .window => .seq (account src i who.1 a n) (memRead who.1 a n k)
    | .aia => k none
    | .ufs => k none
    | .iommu => k none
    | _ => .seq (account src i who.1 a n) (memRead who.1 a n k))

/-- One transfer of an engine's write; a write to the DRAM port while MEM holds it, and one to a page's word, take effect with the
requests that wait. -/
def pieceWrite (src i : Nat) (who : Nat × Bool) (a0 : Nat) (bs : List Byte) (k : Bool → Upd) : Upd := .read fun s =>
  let a := s.resolve a0
  let n := bs.length
  let cause := s.checkAt who a n 1
  if s.muted src i a then k false
  else if cause ≠ 0 then .seq (refuse who.1 a 1 cause) (k false)
  else .seq (engineWait src who.1 a n) (match placeOf a with
    | .chain d _ => seqs [account src i who.1 a n, flkWrite (recOf i) d who.1 a bs, k true]
    | .page _ => .seq (queueWord src i who a 1 n bs) (k true)
    | .window => .seq (queueWord src i who a 1 n bs) (k true)
    | .aia => .seq (queueWord src i who a 1 n bs) (k true)
    | .ufs => k false
    | .iommu => k false
    | pl => if pl = .dram ∧ s.b.mem.held then .seq (queueWord src i who a 1 n bs) (k true)
        else seqs [account src i who.1 a n, memWrite who.1 a bs, k (!s.writePoisoned a n)])

/-- At most `m` transfers of a read: `left` bytes from `a`, `got` the bytes before; none where one is refused or in error. -/
def piecesRead (src i : Nat) (who : Nat × Bool) (k : Option (List Byte) → Upd) : Nat → Nat → Nat → List Byte → Upd
  | 0, _, _, got => k (some got)
  | m + 1, a, left, got => if left = 0 then k (some got) else .read fun s =>
    let n := s.pieceLen who.1 a left
    pieceRead src i who a n fun r => match r with
      | none => k none
      | some d => piecesRead src i who k m (a + n) (left - n) (got ++ d)

/-- At most `m` transfers of a write. -/
def piecesWrite (src i : Nat) (who : Nat × Bool) (k : Bool → Upd) : Nat → Nat → List Byte → Upd
  | 0, _, _ => k true
  | m + 1, a, bs => if bs.isEmpty then k true else .read fun s =>
    let n := s.pieceLen who.1 a bs.length
    pieceWrite src i who a (bs.take n) fun ok => if ok then piecesWrite src i who k m (a + n) (bs.drop n) else k false

/-- More transfers than `n` bytes can take: pieces of 64 B. -/
def pieceFuel (n : Nat) : Nat := n / 64 + n / 256 + 2

/-- An engine of context `i` in region `src` under identity `who` reads `n` bytes of memory; none where refused or in error. -/
def engineRead (src i : Nat) (who : Nat × Bool) (a n : Nat) (k : Option (List Byte) → Upd) : Upd :=
  piecesRead src i who k (pieceFuel n) a n []

/-- An engine writes bytes; the continuation learns whether every transfer was admitted. -/
def engineWrite (src i : Nat) (who : Nat × Bool) (a : Nat) (bs : List Byte) (k : Bool → Upd) : Upd :=
  piecesWrite src i who k (pieceFuel bs.length) a bs

/-- What the first of an engine's transfers from `a` is refused with. -/
def State.engineCause (s : State) (who : Nat × Bool) (a n kind : Nat) : Nat := s.checkAt who (s.resolve a) (min n 256) kind

/-- Reads and writes of a context. -/
def dmaRead (i a n : Nat) (k : Option (List Byte) → Upd) : Upd := .read fun s => engineRead (s.ctxRegion i) i (s.ctxPid i) a n k
def dmaWrite (i a : Nat) (bs : List Byte) (k : Bool → Upd) : Upd := .read fun s => engineWrite (s.ctxRegion i) i (s.ctxPid i) a bs k

end Sys2Proof.Machine
end

