-- ==== Sys2Proof/Machine/Vlt.lean ====
section
/-!
DEFINITION. The vault: key slots, generations and the purge pass, derivation, slot commands, job rings, measurements, the
lifecycle, authority records and debug unlock (07_vault_and_keys.md).
-/
namespace Sys2Proof.Machine
open Config (Alg)

def updVlt (f : Vlt → Vlt) : Upd := upd fun b => { b with vlt := f b.vlt }

/-- Bytes cut or padded with zeros to `n`. -/
def fit (n : Nat) (l : List Byte) : List Byte := (l ++ List.replicate (n - l.length) 0).take n

/-- An algorithm's output of `n` bytes. -/
def crypt (a : Alg) (mode : Nat) (key inp : List Byte) (n : Nat) : List Byte := fit n (Config.crypto a mode key inp)

/-- SHA-384. -/
def sha384 (l : List Byte) : List Byte := crypt .sha2 1 [] l 48

/-- ASCII bytes. -/
def ascii (t : String) : List Byte := t.toList.map fun c => BitVec.ofNat 8 c.toNat

/-- A big-endian number of `n` bytes, and its value. -/
def beBytes (n v : Nat) : List Byte := (leBytes n v).reverse
def beValue (l : List Byte) : Nat := leValue l.reverse

/-! ## Slots (R170 to R172) -/

/-- The size of a type's key material, 0 for a code not in the table (R171). -/
def keySize (t : Nat) : Nat := [0, 16, 32, 32, 64, 32, 48, 64, 32, 48, 32, 64, 32, 48, 64, 48, 32, 32].getD t 0

/-- The usage bits a type permits, ENCRYPT at bit 0 to AGREE at bit 6. -/
def usageMask (t : Nat) : Nat := [0, 0x23, 0x23, 0x03, 0x03, 0x30, 0x30, 0x30, 0x44, 0x44, 0x04, 0x40, 0x04, 0x08, 0, 0, 0, 0x10].getD t 0

/-- The size of the derivation output that makes a type's key, 0 where it is not derivable. -/
def deriveSize (t : Nat) : Nat := [0, 16, 32, 32, 64, 32, 48, 64, 40, 56, 32, 64, 32, 0, 0, 56, 32, 0].getD t 0

/-- The orders of the curves P-256 and P-384. -/
def curveOrder (t : Nat) : Nat :=
  if t = 8 then 0xFFFFFFFF00000000FFFFFFFFFFFFFFFFBCE6FAADA7179E84F3B9CAC2FC632551
  else 0xFFFFFFFFFFFFFFFFFFFFFFFFFFFFFFFFFFFFFFFFFFFFFFFFC7634D81F4372DDF581A0DB248B0A77AECEC196ACCC52973

/-- Key material from derivation output (R171). -/
def material (t : Nat) (out : List Byte) : List Byte :=
  if t = 8 ∨ t = 9 ∨ t = 15 then beBytes (keySize t) (beValue out % (curveOrder t - 1) + 1) else fit (keySize t) out

def attrOwner (w : Nat) : Nat := bits w 27 22
def attrUsage (w : Nat) : Nat := bits w 14 8
def attrType (w : Nat) : Nat := bits w 4 0

/-- An attribute word names a type of the table with usages it permits. -/
def attrOk (w : Nat) : Bool := keySize (attrType w) != 0 && (attrUsage w &&& usageMask (attrType w)) == attrUsage w

def State.slotGen (s : State) (c : Nat) : Nat := s.get (VLT_SLOT_GEN_GEN c)

/-- The ancestry check of R175, upwards along at most seven parents. -/
def State.ancestry (s : State) : Nat → Nat → Bool
  | 0, _ => true
  | n + 1, c => !s.flag (VLT_SLOT_LINK_HAS_PARENT c)
      || (let p := s.get (VLT_SLOT_LINK_PARENT c)
          s.slotGen p == s.get (VLT_SLOT_LINK_PGEN c) && s.ancestry n p)

def State.orphan (s : State) (c : Nat) : Bool := s.get (VLT_SLOT_ATTR_STATE c) != 0 && !s.ancestry 8 c

/-- Status codes (R181). -/
def OK : Nat := 0
def VERIFY_FAIL : Nat := 1
def DENIED : Nat := 2
def POLICY : Nat := 3
def ORPHANED : Nat := 4
def SLOT_STATE : Nat := 5
def BAD_PARAM : Nat := 6
def WINDOW : Nat := 7
def BUS_ERROR : Nat := 8
def KEY_ERROR : Nat := 9
def ENTROPY : Nat := 10
def PURGE_BUSY : Nat := 11
def STATE_REFUSED : Nat := 12
def KEY_MISMATCH : Nat := 13
def DEPTH : Nat := 14

/-- The status a use of slot `c` meets before anything else, 0 where the slot is usable (R172, R175); where the Heartwood key could not be
read, slots 0 to 2 end with ORPHANED (R163). -/
def State.useStatus (s : State) (c : Nat) : Nat :=
  if s.orphan c ∨ (s.b.vlt.heartBad ∧ c ≤ 2) then ORPHANED
  else if s.get (VLT_SLOT_ATTR_STATE c) ≠ 1 ∨ ¬ s.flag (CELL_CTRL_EN 5 c) ∨ s.flag (CELL_STAT_RETIRED 5 c) then SLOT_STATE
  else OK

/-- A use that finds an orphan sets its STATE (R175). -/
def markOrphan (c : Nat) : Upd := .read fun s => whenU (s.orphan c && s.get (VLT_SLOT_ATTR_STATE c) == 1)
  (.seq (set (VLT_SLOT_ATTR_STATE c) 2) (raise 5 2))

/-- Whether a command may create a key in slot `c` (R172). -/
def State.slotFree (s : State) (c : Nat) : Bool :=
  !s.flag (CELL_STAT_RETIRED 5 c) && (s.get (VLT_SLOT_ATTR_STATE c) == 0
    || (s.get (VLT_SLOT_ATTR_STATE c) == 2 && s.flag (VLT_SLOT_ATTR_PURGED c)))

/-- Slots that software creates keys in. -/
def generalSlot (c : Nat) : Bool := (3 ≤ c && c ≤ 63) || (128 ≤ c && c ≤ 511)

/-- A key comes into being. -/
def createSlot (c attr : Nat) (mat : List Byte) (parent : Option Nat) : Upd := .read fun s => seqs [
  setReg (VLT_SLOT_ATTR c) (2 ^ 29 + attr % 2 ^ 28),
  setReg (VLT_SLOT_LINK c) (match parent with | some p => s.slotGen p * 2 ^ 24 + 2 ^ 23 + p | none => 0),
  set (VLT_SLOT_GEN_DEPTH c) (match parent with | some p => s.get (VLT_SLOT_GEN_DEPTH p) + 1 | none => 0),
  updVlt fun v => { v with mat := mapPut [] v.mat c mat }]

/-! ## Generations and the purge pass (R175, R176) -/

/-- The purge pass starts or is extended. -/
def startPurge : Upd := updVlt fun v => match v.purge with
  | some (n, _) => { v with purge := some (n, 512) }
  | none => { v with purge := some (0, 512), touched := [] }

/-- The slot's GEN advances. -/
def advanceGen (c : Nat) : Upd := .seq (incWrap (VLT_SLOT_GEN_GEN c)) startPurge

/-- The slot becomes FREE, its material gone. -/
def zeroSlot (c : Nat) : Upd := seqs [
  setReg (VLT_SLOT_ATTR c) 0, setReg (VLT_SLOT_LINK c) 0, set (VLT_SLOT_GEN_DEPTH c) 0,
  updVlt fun v => { v with mat := mapPut [] v.mat c [] }]

/-- Erase a slot (an ERASE, a cell reset or a retirement). -/
def eraseSlot (c : Nat) : Upd := seqs [advanceGen c, zeroSlot c]

/-- INVALIDATE and ERASE of a slot already touched since the pass began wait for it (R176). -/
def State.purgeBusy (s : State) (c : Nat) : Bool := s.b.vlt.purge.isSome && s.b.vlt.touched.contains c

def touchSlot (c : Nat) : Upd := updVlt fun v => { v with touched := c :: v.touched }

/-- PURGE_VISIT (R176). -/
def purgeVisit : Upd := .read fun s => match s.b.vlt.purge with
  | none => .skip
  | some (c, left) => seqs [
      whenU (s.orphan c) (seqs [
        markOrphan c, set (VLT_SLOT_ATTR_PURGED c) 1, count VLT_ORPHAN_CNT,
        updVlt fun v => { v with mat := mapPut [] v.mat c [] }]),
      if left ≤ 1 then .seq (updVlt fun v => { v with purge := none, touched := [] }) (raise 5 3)
      else updVlt fun v => { v with purge := some ((c + 1) % 512, left - 1) }]

/-! ## Random numbers (R162, R164) -/

/-- Bytes from the DRBG: free values, since the source is physical. Every 65,536 requests reseed it. -/
def random (n : Nat) (k : List Byte → Upd) : Upd := .seq (updVlt fun v => { v with drbg := (v.drbg + 1) % 65536 }) (freeBytes n k)

/-- The source restarts its start-up tests: requests for random numbers wait (R164). -/
def State.trngWaits (s : State) : Bool := !s.flag VLT_TRNG_STAT_OK && !s.flag VLT_TRNG_STAT_FAILED

/-! ## Derivation (R174) -/

/-- The derivation domain of R165, where there is derivation. -/
def State.domain (s : State) : Option Nat := match s.b.vlt.lifecycle with | 1 => some 1 | 2 => some 1 | 3 => some 2 | _ => none

/-- The output of `n` bytes derived from slot `p`, for a child of attribute word `attr`. -/
def State.derived (s : State) (p attr dom n : Nat) (label ctx : List Byte) : List Byte :=
  let context := [BitVec.ofNat 8 (attrType attr), BitVec.ofNat 8 (attrUsage attr), BitVec.ofNat 8 (attrOwner attr), BitVec.ofNat 8 dom]
    ++ beBytes 2 p ++ [BitVec.ofNat 8 (s.slotGen p), 0] ++ ctx
  let block (i : Nat) := crypt .hmac 2 (mapGet [] s.b.vlt.mat p) (beBytes 4 i ++ label ++ [0] ++ context ++ beBytes 4 (8 * n)) 48
  fit n (((List.range ((n + 47) / 48)).map fun i => block (i + 1)).flatten)

/-- Derivation from slot `p` is refused (R165, R174, R186). -/
def State.underiv (s : State) (p : Nat) : Bool := s.domain.isNone || (p == 0 && s.b.vlt.noDerive)

/-- Derive a child of parent `p` into slot `c`: the status, once the parent is usable. -/
def deriveInto (p c attr : Nat) (label ctx : List Byte) (k : Nat → Upd) : Upd := .read fun s =>
  match s.domain with
  | none => k STATE_REFUSED
  | some dom =>
    if p = 0 ∧ s.b.vlt.noDerive then k STATE_REFUSED
    else if ¬ attrOk attr ∨ deriveSize (attrType attr) = 0 then k POLICY
    else if 7 ≤ s.get (VLT_SLOT_GEN_DEPTH p) then k DEPTH
    else if ¬ s.slotFree c then k SLOT_STATE
    else .seq (createSlot c attr (material (attrType attr) (s.derived p attr dom (deriveSize (attrType attr)) label ctx)) (some p)) (k OK)

/-! ## Slot commands (R172, R173) -/

/-- PID 2, or PID 0 before the lock. -/
def State.vaultPid (s : State) (pid : Nat) : Bool := pid == 2 || (pid == 0 && !s.locked)

/-- Re-key partition `p`: the swap waits while a page of it is being copied (R182, R206, R209). -/
def rekey (p : Nat) : Upd := .read fun s =>
  let now := !s.copies p
  updMem fun m => { m with rekey := m.rekey ++ [(p, now)],
                           keyGen := if now then mapPut 0 m.keyGen p (mapGet 0 m.keyGen p + 1) else m.keyGen }

/-- The words of an array of `n` registers as bytes. -/
def State.wordBytes (s : State) (f : Nat → Nat) (n : Nat) : List Byte := ((List.range n).map fun i => leBytes 4 (s.reg (f i))).flatten

/-- Set `n` registers from bytes. -/
def setWordBytes (f : Nat → Nat) (n : Nat) (l : List Byte) : Upd := forN n fun i => setReg (f i) (leValue ((l.drop (4 * i)).take 4))

/-- One slot command: its completion code goes to `k`. -/
def slotCommand (pid op c : Nat) (k : Nat → Upd) : Upd := .read fun s =>
  let attr := s.reg VLT_SLOT_ARG0
  let t := attrType attr
  if ¬ s.vaultPid pid then k DENIED
  else if op = 0 ∨ 5 < op then k BAD_PARAM
  else if op = 2 ∧ 68 ≤ c ∧ c ≤ 127 then
    if s.flag VLT_TRNG_STAT_FAILED then k ENTROPY else
    random 64 fun bs => seqs [updVlt fun v => { v with mat := mapPut [] v.mat c bs }, rekey (c - 64), k OK]
  else if ¬ generalSlot c then k DENIED
  else match op with
  | 1 =>
    if ¬ attrOk attr then k POLICY else if ¬ s.slotFree c then k SLOT_STATE
    else .seq (createSlot c attr (fit (keySize t) (s.wordBytes VLT_KEY_DATA 16)) none) (k OK)
  | 2 =>
    if ¬ attrOk attr then k POLICY else if ¬ s.slotFree c then k SLOT_STATE
    else if s.flag VLT_TRNG_STAT_FAILED then k ENTROPY
    else random (if t = 8 ∨ t = 9 then deriveSize t else keySize t) fun bs =>
      .seq (createSlot c attr (if t = 8 ∨ t = 9 then material t bs else bs) none) (k OK)
  | 3 =>
    let p := s.reg VLT_SLOT_ARG1 % 512
    if p = 0 ∧ s.underiv 0 then k STATE_REFUSED
    else if s.useStatus p ≠ OK then .seq (markOrphan p) (k (s.useStatus p))
    else if ¬ bit (s.reg (VLT_SLOT_ATTR p)) 12 then k DENIED
    else deriveInto p c attr (s.wordBytes VLT_KDF_LABEL 4) (s.wordBytes VLT_KDF_CTX 6) k
  | 4 =>
    if s.purgeBusy c then k PURGE_BUSY
    else if s.get (VLT_SLOT_ATTR_STATE c) = 0 ∨ s.flag (CELL_STAT_RETIRED 5 c) then k SLOT_STATE
    else seqs [advanceGen c, touchSlot c, k OK]
  | _ =>
    if s.purgeBusy c then k PURGE_BUSY else seqs [eraseSlot c, touchSlot c, k OK]

/-- A slot command runs: VLT_KEY_DATA is zeroed whatever its outcome (R173). -/
def slotRun (pid v : Nat) : Upd := slotCommand pid (bits v 26 24) (bits v 8 0) fun code => seqs [
  set VLT_SLOT_CTRL_GO 0, forN 16 fun i => setReg (VLT_KEY_DATA i) 0,
  set VLT_SLOT_RES_BUSY 0, set VLT_SLOT_RES_CODE code, raise 5 0]

/-- A write of VLT_SLOT_CTRL with GO: ignored while BUSY and while the block takes no work (R81, R187); GENERATE waits while the entropy
source restarts its tests (R164). -/
def slotCtrlHook (pid v : Nat) : Upd := .read fun s => whenU (bit v 31 && !s.flag VLT_SLOT_RES_BUSY) (
  if ¬ s.flag (BLK_CTRL_EN 5) then set VLT_SLOT_CTRL_GO 0
  else if bits v 26 24 = 2 ∧ s.vaultPid pid ∧ s.trngWaits then .seq (updVlt fun x => { x with slotDue := some (pid, v) }) (set VLT_SLOT_RES_BUSY 1)
  else slotRun pid v)

/-- The slot command that waited for the source runs, or ends with ENTROPY. -/
def slotDueRun : Upd := .read fun s => match s.b.vlt.slotDue with
  | some (pid, v) => whenU (!s.trngWaits) (.seq (updVlt fun x => { x with slotDue := none }) (slotRun pid v))
  | none => .skip

/-- TRNG_HEALTH_FAIL (R164): three failures within 1 s are permanent. -/
def trngHealthFail : Upd := .read fun s =>
  let fs := s.now :: s.b.vlt.fails.filter fun t => decide (s.now < t + 1000 * msCycles)
  seqs [
    updVlt fun v => { v with fails := fs }, inc VLT_TRNG_STAT_FAIL_CNT, set VLT_TRNG_STAT_OK 0, raise 5 4,
    report 5 none TR,
    whenU (decide (3 ≤ fs.length)) (seqs [set VLT_TRNG_STAT_FAILED 1, report 5 none PM, slotDueRun])]

/-- DRBG_RESEED (R162): also the end of the source's start-up tests. -/
def drbgReseed : Upd := .read fun s => whenU (!s.flag VLT_TRNG_STAT_FAILED)
  (seqs [set VLT_TRNG_STAT_OK 1, updVlt fun v => { v with drbg := 0 }, slotDueRun])

/-- The order number of what a WO register of the vault takes in: VLT_KEY_DATA and VLT_MEAS_DIG keep what is written, which a
read does not return. -/
def State.measDigest (s : State) : List Byte := s.wordBytes VLT_MEAS_DIG 12

/-! ## Measurements (R183) -/

/-- Measurement register `m` as bytes. -/
def State.meas (s : State) (m : Nat) : List Byte := s.wordBytes (VLT_MEAS m) 12

/-- Extend measurement register `m` with a digest. -/
def measExtendBy (m : Nat) (d : List Byte) : Upd := .read fun s => setWordBytes (VLT_MEAS m) 12 (sha384 (s.meas m ++ fit 48 d))

/-- Whether a PID may extend a register. -/
def State.measAllowed (s : State) (pid m : Nat) : Bool :=
  if m = 0 then pid == 0 && !s.locked && !s.flag VLT_MEAS_CTRL_R0_CLOSE
  else if m ≤ 7 then pid == 0 && !s.locked
  else if m = 8 then false
  else pid == 2 && s.locked

/-- A write of VLT_MEAS_CTRL with GO. -/
def measCtrlHook (pid v : Nat) : Upd := .read fun s => whenU (bit v 31)
  (let m := bits v 3 0
   .seq (set VLT_MEAS_CTRL_GO 0)
    (if s.measAllowed pid m then .seq (measExtendBy m s.measDigest) (set VLT_MEAS_CTRL_RES 1) else set VLT_MEAS_CTRL_RES 2))

/-! ## Lifecycle (R165, R166) -/

/-- Debug is open without a record in Blank, Manufacturing and Returned (R186). -/
def State.debugOpen (s : State) : Bool := s.b.vlt.lifecycle == 0 || s.b.vlt.lifecycle == 1 || s.b.vlt.lifecycle == 3

/-- Present the lifecycle and whether debug is open. -/
def showLifecycle : Upd := .read fun s => .seq (set MSU_LIFECYCLE_STATE s.b.vlt.lifecycle)
  (set VLT_DBG_STAT_UNLOCKED (s.debugOpen || s.flag VLT_DBG_STAT_UNLOCKED).toNat)

/-- Slot `c` is retired: its material is zeroed and its GEN advanced (R177). -/
def vltRetire (c : Nat) : Upd := seqs [eraseSlot c, raise 5 2]

/-- Slot 0 is retired. -/
def retireSlot0 : Upd := .read fun s => whenU (!s.flag (CELL_STAT_RETIRED 5 0)) (seqs [
  set (CELL_STAT_RETIRED 5 0) 1, set (CELL_STAT_ENABLED 5 0) 0, set (CELL_RETIRE_RETIRE 5 0) 1,
  inc (BLK_STAT_RETIRED 5), eraseSlot 0])

/-- Fuse programming of a lifecycle change begins. -/
def lcProgram (target : Nat) : Upd := .seq (updVlt fun v => { v with lcNext := some target }) (set VLT_LC_CMD_BUSY 1)

/-- A write of VLT_LC_CMD by `pid` (R165). -/
def lcCmdHook (pid v : Nat) : Upd := .read fun s =>
  let t := bits v 2 0
  let l := s.b.vlt.lifecycle
  whenU (bits v 31 24 == 0xA5 && s.b.vlt.lcNext.isNone) (
    if ¬ s.vaultPid pid then set VLT_LC_CMD_RES 2
    else if (t = 2 ∧ l = 1) ∨ (t = 4 ∧ (l = 1 ∨ l = 3)) then lcProgram t
    else set VLT_LC_CMD_RES 3)

/-- LIFECYCLE_FUSE_BLOWN (R166). -/
def lifecycleFuseBlown : Upd := .read fun s => match s.b.vlt.lcNext with
  | none => .skip
  | some t => seqs [
      updVlt fun v => { v with lcNext := none, lifecycle := max v.lifecycle t,
                               halted := if t = 2 ∨ t = 4 then [] else v.halted },
      set VLT_LC_CMD_BUSY 0, set VLT_LC_CMD_RES 1, raise 5 5,
      whenU (t == 2 || t == 4) (.seq (set VLT_DBG_STAT_UNLOCKED 0) (set VLT_DBG_STAT_SCOPE 0)),
      whenU (3 ≤ t) (advanceGen 0),
      whenU (t == 4) retireSlot0,
      showLifecycle]

/-! ## Authorities, anti-rollback, signed commands (R167 to R169) -/

/-- The digests of authority record `r`. -/
def State.authDigests (s : State) (r : Nat) : List Byte × List Byte :=
  if r = 0 then (fit 48 (Config.haldoraDigest false), fit 48 (Config.haldoraDigest true)) else mapGet ([], []) s.b.vlt.digests r

/-- Record `r` is programmed, not revoked, and holds a role (0 IMAGE, 1 UNLOCK, 2 LIFECYCLE). -/
def State.authHas (s : State) (r role : Nat) : Bool :=
  let a := s.b.vlt.authStat
  bit a (8 * r + 7) && !bit a (8 * r + 6) && bit a (8 * r + role)

/-- The record whose key pair this is, with a role. -/
def State.authOf (s : State) (ec pq : List Byte) (role : Nat) : Option Nat :=
  (List.range 4).find? fun r => s.authHas r role && s.authDigests r == (sha384 ec, sha384 pq)

/-- A new nonce. -/
def newNonce : Upd := .read fun s => .seq (updVlt fun v => { v with nonceAt := s.now })
  (random 32 fun bs => setWordBytes VLT_AUTH_NONCE 8 bs)

/-- Set the authority status. -/
def setAuth (w : Nat) : Upd := .seq (updVlt fun v => { v with authStat := w }) (set VLT_AUTH_STAT_VALUE w)

/-- Revoking record `r` leaves an unrevoked record with IMAGE. -/
def State.revocable (s : State) (r : Nat) : Bool := (List.range 4).any fun q => q != r && s.authHas q 0

/-- Debug is unlocked in Field with a scope (R186). -/
def debugUnlock (scope : Nat) : Upd := seqs [
  set VLT_DBG_STAT_UNLOCKED 1, set VLT_DBG_STAT_SCOPE scope, updVlt fun v => { v with noDerive := true },
  advanceGen 0, raise 5 6]

/-- An authorisation record is checked (R169): accepted commands take effect, a rejection is counted; `k` learns which. `port`: it came
through the debug port; through a ring, which PID 2 owns, a revocation in Manufacturing needs no signature (R165). -/
def authRecord (port : Bool) (rec : List Byte) (k : Bool → Upd) : Upd := .read fun s =>
  let part (o n : Nat) : List Byte := (rec.drop o).take n
  let cmd := leValue (part 0 4)
  let arg := leValue (part 4 4)
  let body := part 0 0x839
  let ec := part 0x38 97
  let pq := part 0x99 1952
  let lc := s.b.vlt.lifecycle
  let signer := s.authOf ec pq (if cmd = 4 then 1 else 2)
  let fresh := rec.length == 5510 && part 8 16 == s.wordBytes VLT_UNIT_SN 4 && part 0x18 32 == s.wordBytes VLT_AUTH_NONCE 8
    && decide (s.now ≤ s.b.vlt.nonceAt + 60000 * msCycles)
  let signed := Config.verifies .ecdsa 1 ec (sha384 body) (part 0x839 96)
    && Config.verifies .mlDsa 0 pq (ascii "HALDORA-AUTH" ++ body) (part 0x899 3309)
    && signer.isSome && (cmd != 3 || signer != some arg)
  let permitted := match cmd with
    | 1 => lc == 2
    | 2 => lc == 2
    | 3 => decide (1 ≤ lc ∧ lc ≤ 3) && decide (arg < 4) && s.revocable arg
    | 4 => lc == 2
    | _ => false
  let ok := decide (s.get VLT_DBG_STAT_REJECTS < 3) && permitted && fresh && (signed || (cmd == 3 && lc == 1 && !port))
  seqs [newNonce,
    if ok then .seq (match cmd with
      | 1 => lcProgram 3
      | 2 => lcProgram 4
      | 3 => setAuth (s.b.vlt.authStat ||| 2 ^ (8 * arg + 6))
      | _ => debugUnlock (arg % 8)) (k true)
    else seqs [inc VLT_DBG_STAT_REJECTS, raise 5 7, k false]]

/-- DEBUG_AUTH (R185): an access to the two DMI registers that a locked debug module gives. AUTH_DATA takes a record of 1,378 words, the
last half filled; AUTH_CTRL starts the check of what was taken in, reports the result, or reads a word of the nonce. -/
def debugAuth (op : DbgAuth) : Upd := match op with
  | .data w => updVlt fun v => { v with authData := v.authData ++ leBytes 4 w.toNat }
  | .start => .read fun s =>
      let d := s.b.vlt.authData
      .seq (updVlt fun v => { v with authData := [] })
        (authRecord true (if d.length = 5512 then d.take 5510 else d) fun ok => updVlt fun v => { v with authRes := if ok then 1 else 2 })
  | .result => .read fun s => updFab fun f => { f with resp := { data := [s.b.vlt.authRes] } }
  | .nonce i => .read fun s => updFab fun f => { f with resp := { data := [s.reg (VLT_AUTH_NONCE i)] } }

/-- Counter `i` in VLT_ARB_CNT. -/
def showArb (i : Nat) : Upd := .read fun s => set ⟨VLT_ARB_CNT (i / 4), 8 * (i % 4) + 7, 8 * (i % 4)⟩ (mapGet 0 s.b.vlt.arb i)

/-- Raise anti-rollback counter `i` (R168). -/
def arbRaise (i v : Nat) (k : Nat → Upd) : Upd := .read fun s =>
  if ¬ (s.b.vlt.lifecycle = 1 ∨ s.b.vlt.lifecycle = 2) then k STATE_REFUSED
  else if 64 < v then k BAD_PARAM
  else seqs [updVlt fun w => { w with arb := mapPut 0 w.arb i (max v (mapGet 0 w.arb i)) }, showArb i, k OK]

/-! ## Job rings (R179 to R181) -/

/-- The number of descriptors of a ring. -/
def State.ringSize (s : State) (r : Nat) : Nat :=
  let z := s.get (VLT_RING_CFG_SIZE r)
  2 ^ (if 4 ≤ z ∧ z ≤ 10 then z else 4)

def State.ringBase (s : State) (r : Nat) : Nat := s.reg (VLT_RING_BASE_LO r) / 64 * 64 + 2 ^ 32 * (s.reg (VLT_RING_BASE_HI r) % 256)

/-- A ring has a descriptor to start. From step 5 of a power-down on, none starts (R187). -/
def State.ringReady (s : State) (r : Nat) : Bool :=
  decide (s.get MSU_PWR_STATE_STATE ≤ 1) && s.flag (BLK_CTRL_EN 5) && !s.frozenArg 6 32 r && s.flag (VLT_RING_CFG_EN r) && !s.flag (VLT_RING_STAT_HALT r)
    && s.get (VLT_RING_HEAD_INDEX r) != s.get (VLT_RING_TAIL_INDEX r) % s.ringSize r

/-- The ring that the vault serves next. -/
def State.ringGrant (s : State) : Option Nat × Tbl Nat × Nat :=
  wrrGrant 32 s.ringReady (fun r => max 1 (s.get (VLT_RING_CFG_WT r))) s.b.vlt.rrLeft s.b.vlt.rrPtr

/-- An address range lies in the ring's window. -/
def State.inRingWin (s : State) (r a n : Nat) : Bool :=
  s.reg (VLT_RING_WIN_BASE r) % 2 ^ 28 ≤ a / 4096 && (a + max 1 n - 1) / 4096 ≤ s.reg (VLT_RING_WIN_LAST r) % 2 ^ 28

/-- A descriptor's words as fields (R180). -/
structure Job where
  ring : Nat
  at_ : Nat
  w : List Nat
  /-- The load of its key meets an uncorrectable error of the key RAM (R177). -/
  bad : Bool := false
  deriving DecidableEq, Repr

def Job.word (j : Job) (i : Nat) : Nat := j.w.getD i 0
def Job.op (j : Job) : Nat := bits (j.word 0) 31 24
def Job.nokey (j : Job) : Bool := bit (j.word 0) 23
def Job.slot (j : Job) : Nat := bits (j.word 0) 8 0
def Job.param (j : Job) : Nat := j.word 1
def Job.src (j : Job) : Nat := j.word 2 + 2 ^ 32 * (j.word 3 % 256)
def Job.srcLen (j : Job) : Nat := j.word 4
def Job.dst (j : Job) : Nat := j.word 5 + 2 ^ 32 * (j.word 6 % 256)
def Job.dstLen (j : Job) : Nat := j.word 7
def Job.aux (j : Job) : Nat := j.word 8 + 2 ^ 32 * (j.word 9 % 256)
def Job.auxLen (j : Job) : Nat := j.word 10
def Job.outSlot (j : Job) : Nat := j.word 11 % 512
def Job.outAttr (j : Job) : Nat := j.word 12

/-- HEAD moves past the descriptor. -/
def ringNext (r : Nat) : Upd := .read fun s => seqs [
  set (VLT_RING_HEAD_INDEX r) ((s.get (VLT_RING_HEAD_INDEX r) + 1) % s.ringSize r), set (VLT_RING_STAT_DONE r) 1, raise 5 1]

/-- A job completes: words 14 and 15 are written, HEAD moves on, RING_DONE is raised. -/
def jobEnd (j : Job) (code outLen : Nat) : Upd :=
  .seq (dmaWrite 57 (j.at_ + 56) (leBytes 4 (2 ^ 31 + code) ++ leBytes 4 outLen) fun _ => .skip) (ringNext j.ring)

/-- Every address that the descriptor names lies in the ring's window (R179): its source, destination and auxiliary buffers, as long as
it says. -/
def State.jobInWin (s : State) (j : Job) : Bool :=
  [(j.src, j.srcLen), (j.dst, j.dstLen), (j.aux, j.auxLen)].all fun e => e.2 == 0 || s.inRingWin j.ring e.1 e.2

/-- Read a buffer that a descriptor names. -/
def jobRead (j : Job) (a n : Nat) (k : List Byte → Upd) : Upd :=
  if n = 0 then k [] else dmaRead 57 a n fun r => match r with
    | some d => k d
    | none => jobEnd j BUS_ERROR 0

/-- Write a result of the job and end it; `done` follows where the result was written. -/
def jobOutThen (j : Job) (out : List Byte) (done : Upd) : Upd :=
  if j.dstLen < out.length then jobEnd j BAD_PARAM 0
  else dmaWrite 57 j.dst out fun ok => if ok then .seq done (jobEnd j OK out.length) else jobEnd j BUS_ERROR 0

def jobOut (j : Job) (out : List Byte) : Upd := jobOutThen j out .skip

def State.ringOwner (s : State) (j : Job) : Nat := s.get (VLT_RING_CFG_OWNER j.ring)

/-- The key RAM of slot `c` is read for the job (R177): an uncorrectable error ends it with KEY_ERROR and is a PM fault of the cell. -/
def jobLoad (j : Job) (c : Nat) (k : List Byte → Upd) : Upd := .read fun s =>
  if j.bad then .seq (report 5 (some c) PM) (jobEnd j KEY_ERROR 0) else k (mapGet [] s.b.vlt.mat c)

/-- Load the key of the job's slot: the ring owner must own it and it must hold usage bit `u` (0 ENCRYPT to 6 AGREE). With NOKEY a job uses
no slot: the operations that need a key end with BAD_PARAM (DESIGN CHOICE, notes/assumptions/95.md). -/
def jobKey (j : Job) (u : Nat) (k : Nat → List Byte → Upd) : Upd := .read fun s =>
  let c := j.slot
  let a := s.reg (VLT_SLOT_ATTR c)
  if j.nokey then jobEnd j BAD_PARAM 0
  else if s.useStatus c ≠ OK then .seq (markOrphan c) (jobEnd j (s.useStatus c) 0)
  else if attrOwner a ≠ s.ringOwner j ∨ ¬ bit (attrUsage a) u then jobEnd j DENIED 0
  else jobLoad j c (k (attrType a))

/-- Needs random numbers (R164). -/
def jobRandom' (j : Job) (n : Nat) (k : List Byte → Upd) : Upd := .read fun s =>
  if s.flag VLT_TRNG_STAT_FAILED then jobEnd j ENTROPY 0 else random n k

/-- A created key may go into OUT_SLOT, of a type, for the ring owner; `k` then creates it. -/
def jobCreate (j : Job) (type : Nat) (k : Upd) : Upd := .read fun s =>
  if ¬ generalSlot j.outSlot ∨ attrOwner j.outAttr ≠ s.ringOwner j then jobEnd j DENIED 0
  else if ¬ attrOk j.outAttr ∨ attrType j.outAttr ≠ type then jobEnd j POLICY 0
  else if ¬ s.slotFree j.outSlot then jobEnd j SLOT_STATE 0
  else k

/-- The created key of a job. -/
def jobSlot (j : Job) (mat : List Byte) : Upd := createSlot j.outSlot j.outAttr mat none

/-- CIPHER (R178, R181). -/
def doCipher (j : Job) : Upd :=
  let m := bits j.param 3 0
  let dec := bit j.param 4
  let tag := bits j.param 15 8
  jobKey j dec.toNat fun t key =>
    let aes := t == 1 || t == 2
    let xts := t == 3 || t == 4
    let ivOk := match m with | 0 => true | 3 => decide (12 ≤ j.auxLen) | _ => j.auxLen == 16
    let lenOk := match m with
      | 0 => j.srcLen % 16 == 0
      | 1 => j.srcLen % 16 == 0
      | 3 => decide (12 ≤ tag ∧ tag ≤ 16) && (!dec || decide (tag ≤ j.srcLen))
      | 4 => decide (16 ≤ j.srcLen ∧ j.srcLen ≤ 2 ^ 24)
      | _ => true
    if 4 < m || !(if m = 4 then xts else aes) || !ivOk || !lenOk then jobEnd j BAD_PARAM 0 else
    jobRead j j.src j.srcLen fun src => jobRead j j.aux j.auxLen fun aux =>
      let alg : Alg := match m with | 0 => .aesEcb | 1 => .aesCbc | 2 => .aesCtr | 3 => .aesGcm | _ => .aesXts
      let inp (d : List Byte) := leBytes 4 aux.length ++ aux ++ d
      if m = 3 then
        if dec then
          let d := src.take (src.length - tag)
          if Config.verifies .aesGcm tag key (inp d) (src.drop (src.length - tag))
          then jobOut j (crypt alg (2 * t + 1) key (inp d) d.length) else jobEnd j VERIFY_FAIL 0
        else jobOut j (crypt alg (2 * t) key (inp src) (src.length + tag))
      else jobOut j (crypt alg (2 * t + dec.toNat) key (inp src) src.length)

/-- MAC. -/
def doMac (j : Job) : Upd :=
  let m := bits j.param 3 0
  let tag := bits j.param 15 8
  jobKey j 5 fun t key =>
    let typeOk := if m = 0 then t == 1 || t == 2 else 5 ≤ t && t ≤ 7
    let tagOk := if m = 0 then decide (1 ≤ tag ∧ tag ≤ 16) else decide (16 ≤ tag ∧ tag ≤ [0, 32, 48, 64].getD m 0)
    if 3 < m || !typeOk || !tagOk then jobEnd j BAD_PARAM 0 else
    jobRead j j.src j.srcLen fun src =>
      let out := crypt (if m = 0 then .aesCmac else .hmac) m key src tag
      if bit j.param 16 then jobRead j j.aux j.auxLen fun aux => jobEnd j (if aux == out then OK else VERIFY_FAIL) 0
      else jobOut j out

/-- HASH. -/
def doHash (j : Job) : Upd :=
  let m := bits j.param 3 0
  if 5 < m then jobEnd j BAD_PARAM 0 else
  jobRead j j.src j.srcLen fun src => jobOut j (crypt (if m < 3 then .sha2 else .sha3) (m % 3) [] src ([32, 48, 64].getD (m % 3) 0))

/-- SIGN: ECDSA and hedged ML-DSA draw random numbers. -/
def doSign (j : Job) : Upd := jobKey j 2 fun t key =>
  let dig := bit j.param 16
  if ¬ (t = 8 ∨ t = 9 ∨ t = 10 ∨ t = 12) ∨ (dig ∧ ¬ (t = 8 ∨ t = 9)) ∨ (dig ∧ j.srcLen ≠ (if t = 8 then 32 else 48))
      ∨ (t = 10 ∧ 2 ^ 24 < j.srcLen) ∨ (t = 12 ∧ 255 < j.auxLen) then jobEnd j BAD_PARAM 0 else
  jobRead j j.src j.srcLen fun src => jobRead j j.aux (if t = 12 then j.auxLen else 0) fun aux =>
    let h := if dig then src else if t = 8 then crypt .sha2 0 [] src 32 else sha384 src
    match t with
    | 10 => jobOut j (crypt .ed25519 0 key src 64)
    | 12 => jobRandom' j 32 fun rnd => jobOut j (crypt .mlDsa 0 key (rnd ++ leBytes 4 aux.length ++ aux ++ src) 3309)
    | _ => jobRandom' j 48 fun rnd => jobOut j (crypt .ecdsa t key (rnd ++ h) (if t = 8 then 64 else 96))

/-- VERIFY. -/
def doVerify (j : Job) : Upd := .read fun s =>
  let m := bits j.param 3 0
  let klen := [65, 97, 32, 1952].getD m 0
  let slen := [64, 96, 64, 3309].getD m 0
  let check (want : Option (List Byte)) : Upd :=
    jobRead j j.src j.srcLen fun src => jobRead j j.aux j.auxLen fun aux =>
      let key := aux.take klen
      if want.any (· != sha384 key) then jobEnd j KEY_MISMATCH 0
      else
        let alg : Alg := match m with | 2 => .ed25519 | 3 => .mlDsa | _ => .ecdsa
        let h := match m with | 0 => crypt .sha2 0 [] src 32 | 1 => sha384 src | _ => src
        jobEnd j (if Config.verifies alg m key h ((aux.drop klen).take slen) then OK else VERIFY_FAIL) 0
  if 3 < m ∨ j.auxLen ≠ klen + slen ∨ (m = 2 ∧ 2 ^ 24 < j.srcLen) then jobEnd j BAD_PARAM 0
  else if j.nokey then check none
  else
    let _ := s
    jobKey j 3 fun t mat => if t = 13 then check (some mat) else jobEnd j BAD_PARAM 0

/-- AGREE: the secret goes only into a slot. -/
def doAgree (j : Job) : Upd :=
  match bits j.param 1 0 with
  | 0 => jobKey j 6 fun t key =>
      let n := if t = 8 then 65 else 97
      if ¬ (t = 8 ∨ t = 9) ∨ j.auxLen ≠ n then jobEnd j BAD_PARAM 0 else
      jobRead j j.aux n fun peer =>
        if t = 8 then jobCreate j 5 (.seq (jobSlot j (crypt .ecdh 8 key peer 32)) (jobEnd j OK 0))
        else jobCreate j 6 (.seq (jobSlot j (crypt .ecdh 9 key peer 48)) (jobEnd j OK 0))
  | 1 =>
      if ¬ j.nokey ∨ j.auxLen ≠ 1184 ∨ j.dstLen < 1088 then jobEnd j BAD_PARAM 0 else
      jobRead j j.aux 1184 fun pk => jobRandom' j 32 fun m =>
        jobCreate j 5 (jobOutThen j (crypt .mlKem 2 pk m 1088) (jobSlot j (crypt .mlKem 1 pk m 32)))
  | 2 => jobKey j 6 fun t key =>
      if t ≠ 11 ∨ j.srcLen ≠ 1088 then jobEnd j BAD_PARAM 0 else
      jobRead j j.src 1088 fun ct => jobCreate j 5 (.seq (jobSlot j (crypt .mlKem 3 key ct 32)) (jobEnd j OK 0))
  | _ => jobEnd j BAD_PARAM 0

/-- DERIVE through a ring (R172). -/
def doDerive (j : Job) : Upd := .read fun s =>
  if j.slot = 0 ∧ ¬ j.nokey ∧ s.underiv 0 then jobEnd j STATE_REFUSED 0 else
  jobKey j 4 fun _ _ =>
  if ¬ generalSlot j.outSlot ∨ attrOwner j.outAttr ≠ s.ringOwner j then jobEnd j DENIED 0
  else if j.auxLen ≠ 40 then jobEnd j BAD_PARAM 0
  else jobRead j j.aux 40 fun aux => deriveInto j.slot j.outSlot j.outAttr (aux.take 16) (aux.drop 16) fun c => jobEnd j c 0

/-- The public key of a private type. -/
def publicKey (t : Nat) (key : List Byte) : List Byte :=
  let t' := if t = 15 then 9 else if t = 16 then 12 else t
  crypt .publicKey t' key [] (match t' with | 8 => 65 | 9 => 97 | 10 => 32 | 11 => 1184 | 12 => 1952 | _ => 0)

/-- PUBKEY: slots 1 and 2 for any ring owner. -/
def doPubkey (j : Job) : Upd := .read fun s =>
  let c := j.slot
  let a := s.reg (VLT_SLOT_ATTR c)
  let t := attrType a
  if j.nokey then jobEnd j BAD_PARAM 0
  else if s.useStatus c ≠ OK then .seq (markOrphan c) (jobEnd j (s.useStatus c) 0)
  else if ¬ (c = 1 ∨ c = 2) ∧ attrOwner a ≠ s.ringOwner j then jobEnd j DENIED 0
  else if ¬ ((8 ≤ t ∧ t ≤ 12) ∨ t = 15 ∨ t = 16) then jobEnd j BAD_PARAM 0
  else jobLoad j c fun key => jobOut j (publicKey t key)

/-- RANDOM. -/
def doRandom (j : Job) : Upd := if 4096 < j.dstLen then jobEnd j BAD_PARAM 0 else jobRandom' j j.dstLen fun bs => jobOut j bs

/-- The body of a quote (R184). -/
def State.quoteBody (s : State) (mask : Nat) (nonce : List Byte) : List Byte :=
  leBytes 2 1 ++ leBytes 2 mask ++ leBytes 1 s.b.vlt.lifecycle ++ leBytes 1 (s.get VLT_DBG_STAT_UNLOCKED) ++ leBytes 2 0
    ++ s.wordBytes VLT_UNIT_SN 4 ++ leBytes 8 s.devTime ++ leBytes 4 (s.reg MSU_RST_CAUSE) ++ leBytes 4 (s.reg MSU_BOOT_STAT)
    ++ fit 48 nonce ++ (((List.range 16).filter fun m => bit mask m).map s.meas).flatten

/-- QUOTE: ORPHANED where the Heartwood key could not be read (R163), STATE_REFUSED where a slot is not usable otherwise (R184). -/
def doQuote (j : Job) : Upd := .read fun s =>
  if s.b.vlt.heartBad then jobEnd j ORPHANED 0
  else if s.useStatus 1 ≠ OK ∨ s.useStatus 2 ≠ OK then seqs [markOrphan 1, markOrphan 2, jobEnd j STATE_REFUSED 0]
  else if j.auxLen ≠ 48 then jobEnd j BAD_PARAM 0
  else jobRead j j.aux 48 fun nonce =>
    let body := s.quoteBody (j.param % 65536) nonce
    jobLoad j 1 fun _ => jobRandom' j 48 fun r1 => jobRandom' j 32 fun r2 =>
      jobOut j (body ++ crypt .ecdsa 9 (mapGet [] s.b.vlt.mat 1) (r1 ++ sha384 body) 96
        ++ crypt .mlDsa 0 (mapGet [] s.b.vlt.mat 2) (r2 ++ leBytes 4 12 ++ ascii "ZJ9664-QUOTE" ++ body) 3309)

/-- AUTH. -/
def doAuth (j : Job) : Upd := .read fun s =>
  if s.ringOwner j ≠ 2 then jobEnd j DENIED 0
  else jobRead j j.aux j.auxLen fun rec => authRecord false rec fun ok => jobEnd j (if ok then OK else VERIFY_FAIL) 0

/-- ARB. -/
def doArb (j : Job) : Upd := .read fun s =>
  if s.ringOwner j ≠ 2 then jobEnd j DENIED 0 else arbRaise (bits j.param 3 0) (bits j.param 14 8) fun c => jobEnd j c 0

/-- OTP_AUTH: program authority record 1 to 3. -/
def doOtpAuth (j : Job) : Upd := .read fun s =>
  let r := bits j.param 1 0
  if s.ringOwner j ≠ 2 then jobEnd j DENIED 0
  else if s.b.vlt.lifecycle ≠ 1 then jobEnd j STATE_REFUSED 0
  else if r = 0 ∨ j.auxLen ≠ 96 ∨ bit s.b.vlt.authStat (8 * r + 7) then jobEnd j BAD_PARAM 0
  else jobRead j j.aux 96 fun d => seqs [
    updVlt fun v => { v with digests := mapPut ([], []) v.digests r (d.take 48, d.drop 48) },
    setAuth (s.b.vlt.authStat ||| 2 ^ (8 * r + 7) ||| bits j.param 6 4 * 2 ^ (8 * r)), jobEnd j OK 0]

/-- ERASE through a ring. -/
def doErase (j : Job) : Upd := .read fun s =>
  let c := j.slot
  if j.nokey then jobEnd j BAD_PARAM 0
  else if ¬ generalSlot c ∨ s.get (VLT_SLOT_ATTR_OWNER c) ≠ s.ringOwner j then jobEnd j DENIED 0
  else if s.purgeBusy c then jobEnd j PURGE_BUSY 0
  else seqs [eraseSlot c, touchSlot c, jobEnd j OK 0]

/-- The operation of a job. -/
def doJob (j : Job) : Upd := match j.op with
  | 1 => doCipher j | 2 => doMac j | 3 => doHash j | 4 => doSign j | 5 => doVerify j | 6 => doAgree j | 7 => doDerive j
  | 8 => doPubkey j | 9 => doRandom j | 10 => doQuote j | 11 => doAuth j | 12 => doArb j | 13 => doOtpAuth j | 14 => doErase j
  | _ => jobEnd j BAD_PARAM 0

/-- A job needs random numbers (R164): RANDOM, QUOTE, encapsulation, signing but with Ed25519. -/
def State.jobRandomly (s : State) (j : Job) : Bool := match j.op with
  | 4 => attrType (s.reg (VLT_SLOT_ATTR j.slot)) != 10
  | 6 => bits j.param 1 0 == 1
  | 9 => true
  | 10 => true
  | _ => false

/-- The next job of the rings runs, where its operation is `op` or one no row names; a job that needs random numbers waits
while the source restarts its tests (R164). A descriptor that lies outside the ring's window, or names an address outside it, ends with WINDOW;
the former is neither read nor written (R179; DESIGN CHOICE, notes/assumptions/95.md). `bad`: its key load meets an uncorrectable error. -/
def vltJob (op : Nat) (bad : Bool) : Upd := .read fun s => match s.ringGrant with
  | (none, left, ptr) => updVlt fun v => { v with rrLeft := left, rrPtr := ptr }
  | (some r, left, ptr) =>
    let a := s.ringBase r + 64 * s.get (VLT_RING_HEAD_INDEX r)
    let granted := updVlt fun v => { v with rrLeft := left, rrPtr := ptr }
    if ¬ s.inRingWin r a 64 then .seq granted (ringNext r)
    else dmaRead 57 a 64 fun d => match d with
      | none => .seq granted (set (VLT_RING_STAT_HALT r) 1)
      | some d =>
        let j : Job := ⟨r, a, (List.range 16).map fun i => leValue ((d.drop (4 * i)).take 4), bad⟩
        whenU (!(s.jobRandomly j && s.trngWaits) && (j.op == op || j.op == 0 || 14 < j.op))
          (.seq granted (if s.jobInWin j then doJob j else jobEnd j WINDOW 0))

def jobCipher (bad : Bool) : Upd := vltJob 1 bad
def jobMac (bad : Bool) : Upd := vltJob 2 bad
def jobHash : Upd := vltJob 3 false
def jobSign (bad : Bool) : Upd := vltJob 4 bad
def jobVerify (bad : Bool) : Upd := vltJob 5 bad
def jobAgree (bad : Bool) : Upd := vltJob 6 bad
def jobDerive (bad : Bool) : Upd := vltJob 7 bad
def jobPubkey (bad : Bool) : Upd := vltJob 8 bad
def jobRandom : Upd := vltJob 9 false
def jobQuote (bad : Bool) : Upd := vltJob 10 bad
def jobAuth : Upd := vltJob 11 false
def jobArb : Upd := vltJob 12 false
def jobOtpAuth : Upd := vltJob 13 false
def jobErase : Upd := vltJob 14 false

/-- A write of VLT_RING_CFG: EN going to 0 and then to 1 clears HALT (R188). -/
def ringCfgHook (r old : Nat) : Upd := .read fun s =>
  whenU (s.flag (VLT_RING_CFG_EN r) && !bit old 31) (set (VLT_RING_STAT_HALT r) 0)

/-! ## The vault at a cold boot (R161 to R163, R170, R182) -/

/-- The check value of a Heartwood key (R161). -/
def heartCheck (key : List Byte) : List Byte := (sha384 (ascii "HWCHK" ++ key)).take 8

/-- A bank is programmed with a new key: key bits, check value, valid marker, then the fuse of Manufacturing (R161, R162). `prog`: 1 power
fails before the valid marker, 2 before the fuse. -/
def heartProgram (inA : Bool) (prog : Nat) : Upd := random 32 fun bs => updVlt fun v =>
  let bank : Bank := ⟨if prog = 1 then .begun else .valid, bs, heartCheck bs⟩
  let w := if inA then { v with bankA := bank } else { v with bankA := { v.bankA with st := .killed }, bankB := bank }
  if prog = 0 then { w with lifecycle := max 1 v.lifecycle } else w

/-- The outcome of R162 for the lifecycle and the banks. `entropy`: the source passes its start-up tests within three attempts. A row with
lifecycle Blank and a valid bank B sets Manufacturing as the one with a valid bank A does (DEDUCED, notes/assumptions/96.md). -/
def heartwood (entropy : Bool) (prog : Nat) : Upd := .read fun s =>
  let v := s.b.vlt
  let generate (inA : Bool) : Upd := whenU entropy (heartProgram inA prog)
  if v.lifecycle ≠ 0 then .skip
  else match v.bankA.st, v.bankB.st with
  | .blank, _ => generate true
  | .valid, _ => updVlt fun v => { v with lifecycle := 1 }
  | .begun, _ => generate false
  | .killed, .blank => generate false
  | .killed, .valid => updVlt fun v => { v with lifecycle := 1 }
  | .killed, _ => updVlt fun v => { v with bankB := { v.bankB with st := .killed }, lifecycle := 4 }

/-- The bank in force, and its key. -/
def Vlt.bank (v : Vlt) : Bank := if v.bankA.st = .valid then v.bankA else v.bankB
def Vlt.heart (v : Vlt) : List Byte := v.bank.key

/-- A slot that the vault creates at its reset. -/
def ownSlot (c attr : Nat) (mat : List Byte) (parent : Option Nat) : Upd :=
  .seq (createSlot c attr mat parent) .skip

/-- Slots 0 to 2 (R163, R170). `ecc`: reading the bank meets 1 a corrected bit, 2 an uncorrectable word; a check value that does not match
is as the latter. -/
def heartSlots (ecc : Nat) : Upd := .read fun s =>
  let v := s.b.vlt
  if v.lifecycle = 0 then .skip
  else if ecc = 2 ∨ v.bank.check ≠ heartCheck v.heart then
    seqs [updVlt fun v => { v with heartBad := true }, retireSlot0, report 5 none PM]
  else seqs [
    whenU (ecc == 1) (report 5 none CE),
    ownSlot 0 (2 * 2 ^ 22 + 2 ^ 12 + 17) v.heart none,
    .read fun s => match s.domain with
      | none => .skip
      | some dom => seqs [
          ownSlot 1 15 (material 15 (s.derived 0 15 dom 56 (fit 16 (ascii "IDENTITY-EC")) (List.replicate 24 0))) (some 0),
          ownSlot 2 16 (material 16 (s.derived 0 16 dom 32 (fit 16 (ascii "IDENTITY-PQ")) (List.replicate 24 0))) (some 0)]]

/-- The vault after a module reset: slots 0 to 2 and the memory keys, zeroed measurements, a new nonce (R163, R169, R170, R182,
R183). -/
def vaultStart (entropy : Bool) (prog ecc : Nat) : Upd := seqs [
  forN 512 fun c => updVlt fun v => { v with mat := mapPut [] v.mat c [] },
  updVlt fun v => { v with touched := [], purge := none, fails := [], noDerive := false, heartBad := false, slotDue := none, authData := [],
                           authRes := 0, rrLeft := [], rrPtr := 0, lcNext := none },
  heartwood entropy prog,
  .read fun s => set VLT_TRNG_STAT_OK (entropy || decide (s.b.vlt.lifecycle ≠ 0)).toNat,
  heartSlots ecc,
  forN 64 fun p => random 64 fun bs => .seq (ownSlot (64 + p) 14 bs none)
    (updMem fun m => { m with keyGen := mapPut 0 m.keyGen p (mapGet 0 m.keyGen p + 1) }),
  newNonce,
  .read fun s => set VLT_AUTH_STAT_VALUE s.b.vlt.authStat,
  forN 4 fun i => setReg (VLT_UNIT_SN i) (Config.unitSerial i).toNat,
  forN 16 showArb, showLifecycle]

end Sys2Proof.Machine
end

