-- ==== Sys2Proof/Machine/Mac.lean ====
section
/-!
DEFINITION. The MACs: the receive checks with MACsec validation, MACsec protection (R420 to R422, R433 to R436).
-/
namespace Sys2Proof.Machine
open Config (Alg)

/-- Reports on a port's cell and its events. -/
def raiseEtp (p i : Nat) : Upd := raiseCell 7 p i

/-- The longest frame of a port. -/
def State.maxLen (s : State) (p : Nat) : Nat := min 9216 (max 1518 (s.get (ETP_PORT_CFG_MAXLEN p)))

/-- The port takes part in traffic. -/
def State.portOn (s : State) (p : Nat) : Bool := s.cellOn 7 p && s.flag (ETP_PORT_STAT_LINK_UP p)

/-! ## MACsec (R433 to R436) -/

def State.msecOn (s : State) (p : Nat) : Bool := s.flag (ETP_MSEC_CFG_EN p) && p != 18 && p != 19

/-- Frames that pass unprotected. -/
def State.msecBypass (s : State) (p : Nat) (f : Frame) : Bool :=
  at16 f 12 == 0x888E || (s.flag (ETP_MSEC_CFG_BYPASS_ET p) && at16 f 12 == s.get (ETP_MSEC_CFG_BYPASS_ET p))

/-- The key of SA `e` of a port. -/
def State.saKey (s : State) (p e : Nat) : Option LoadedKey := mapGet none s.b.swq.keys (32 * p + e)

def State.saPn (s : State) (p e : Nat) : Nat := s.reg64 (ETP_SA_PN_LO p 0 e) (ETP_SA_PN_HI p 0 e)
def setSaPn (p e v : Nat) : Upd := setReg64 (ETP_SA_PN_LO p 0 e) (ETP_SA_PN_HI p 0 e) (v % 2 ^ 64)

/-- The greatest packet number. -/
def State.pnMax (s : State) (p : Nat) : Nat := if s.flag (ETP_MSEC_CFG_XPN p) then 2 ^ 64 - 1 else 2 ^ 32 - 1

/-- The initialisation vector of a packet. -/
def State.msecIv (s : State) (p e sci pn : Nat) : List Byte :=
  if s.flag (ETP_MSEC_CFG_XPN p) then
    beBytes 12 ((s.reg (ETP_SA_SALT p e 0) + 2 ^ 32 * s.reg (ETP_SA_SALT p e 1) + 2 ^ 64 * s.reg (ETP_SA_SALT p e 2))
      ^^^ (s.reg (ETP_SA_SSCI p 0 e) * 2 ^ 64 + pn))
  else beBytes 8 sci ++ beBytes 4 pn

/-- The confidentiality offset. -/
def State.msecOffset (s : State) (p : Nat) : Nat := match s.get (ETP_MSEC_CFG_OFFSET p) with | 1 => 30 | 2 => 50 | _ => 0

/-- Protect a frame for transmission: none where it is dropped (R435). -/
def msecTx (p : Nat) (f : Frame) (k : Option Frame → Upd) : Upd := .read fun s =>
  if ¬ s.msecOn p ∨ ¬ s.flag (ETP_MSEC_CFG_PROTECT p) ∨ s.msecBypass p f then k (some f) else
  let e := s.get (ETP_MSEC_TX_AN p)
  let pn := s.saPn p e
  let top := s.pnMax p
  match s.saKey p e with
  | none => .seq (count64 (ETP_CNT_MS_TX_DROP p)) (k none)
  | some key =>
    if pn = 0 ∨ top < pn then seqs [raiseEtp p 10, count64 (ETP_CNT_MS_TX_DROP p), k none] else
    let sci := s.reg64 (ETP_MSEC_TXSCI_LO p) (ETP_MSEC_TXSCI_HI p)
    let incl := s.flag (ETP_MSEC_CFG_INCL_SCI p)
    let conf := s.flag (ETP_MSEC_CFG_CONF p)
    let user := f.drop 12
    let tci := s.get (ETP_MSEC_CFG_ES p) * 64 + incl.toNat * 32 + s.get (ETP_MSEC_CFG_SCB p) * 16 + conf.toNat * 12 + e
    let tag := be16 0x88E5 ++ [BitVec.ofNat 8 tci, BitVec.ofNat 8 (if user.length < 48 then user.length else 0)]
      ++ beBytes 4 (pn % 2 ^ 32) ++ (if incl then beBytes 8 sci else [])
    let n := if conf then s.msecOffset p else user.length
    let aad := s.msecIv p e sci pn ++ f.take 12 ++ tag ++ user.take n
    let body := crypt .aesGcm (2 * key.type) key.mat (leBytes 4 aad.length ++ aad ++ user.drop n) (user.length - n + 16)
    seqs [
      setSaPn p e (pn + 1),
      whenU (decide (pn + 1 = top / 8 * 7 + 7)) (raiseEtp p 9),
      count64 (if conf then ETP_CNT_MS_TX_ENCRYPTED p else ETP_CNT_MS_TX_PROTECTED p),
      k (some (f.take 12 ++ tag ++ user.take n ++ body))]

/-- Validate a received frame (R436, with the SecY rules of IEEE 802.1AE): none where it is dropped. -/
def msecRx (p : Nat) (f : Frame) (k : Option Frame → Upd) : Upd := .read fun s =>
  let strict := decide (2 ≤ s.get (ETP_MSEC_CFG_VALIDATE p))
  if ¬ s.msecOn p ∨ s.msecBypass p f then k (some f)
  else if at16 f 12 ≠ 0x88E5 then .seq (count64 (ETP_CNT_MS_RX_UNTAGGED p)) (k (if strict then none else some f))
  else
    let tci := ((f[14]?).getD 0).toNat
    let sl := ((f[15]?).getD 0).toNat
    let sc := bit tci 5
    let n := if sc then 28 else 20
    let an := tci % 4
    let low := beValue ((f.drop 16).take 4)
    let sci := beValue ((f.drop 20).take 8)
    let cbit := bit tci 2
    let body := f.drop n
    if bit tci 7 ∨ 48 ≤ sl ∨ f.length < n + 16 ∨ (bit tci 6 ∧ sc) ∨ (low = 0 ∧ ¬ s.flag (ETP_MSEC_CFG_XPN p)) then
      .seq (count64 (ETP_CNT_MS_RX_BAD_TAG p)) (k none)
    else
      let chan := (List.range 4).find? fun c => bit (s.get (ETP_MSEC_CFG_RXSC_EN p)) c
        && (!sc || s.reg64 (ETP_MSEC_RXSCI_LO p 0 c) (ETP_MSEC_RXSCI_HI p 0 c) == sci)
      let sa := chan.bind fun c => (s.saKey p (4 + 4 * c + an)).map fun key => (4 + 4 * c + an, key)
      match sa with
      | none => .seq (count64 (ETP_CNT_MS_RX_NO_SA p)) (k (if strict || cbit then none else some (f.take 12 ++ body.take (body.length - 16))))
      | some (e, key) =>
        let next := s.saPn p e
        let high := next / 2 ^ 32
        let pn := if s.flag (ETP_MSEC_CFG_XPN p)
          then (if low < next % 2 ^ 32 ∧ 2 ^ 31 ≤ next % 2 ^ 32 - low then (high + 1) * 2 ^ 32 + low else high * 2 ^ 32 + low) else low
        let lowest := next - s.get (ETP_MSEC_REPLAY_WINDOW p)
        let late := decide (pn < lowest)
        let scil := s.reg64 (ETP_MSEC_RXSCI_LO p 0 ((e - 4) / 4)) (ETP_MSEC_RXSCI_HI p 0 ((e - 4) / 4))
        let conf := bit tci 3
        let o := if conf then s.msecOffset p else body.length - 16
        let aad := s.msecIv p e scil pn ++ f.take n ++ body.take o
        let sealed := (body.drop o).take (body.length - 16 - o)
        let icv := body.drop (body.length - 16)
        let inp := leBytes 4 aad.length ++ aad ++ sealed
        let plain := f.take 12 ++ body.take o ++ (if conf then crypt .aesGcm (2 * key.type + 1) key.mat inp sealed.length else sealed)
        let good := Config.verifies .aesGcm 16 key.mat inp icv
        let seen := whenU (decide (next ≤ pn)) (setSaPn p e (pn + 1))
        if late && s.flag (ETP_MSEC_CFG_REPLAY_PROT p) then .seq (count64 (ETP_CNT_MS_RX_LATE p)) (k none)
        else if s.get (ETP_MSEC_CFG_VALIDATE p) = 0 then
          .seq (count64 (ETP_CNT_MS_RX_UNCHECKED p)) (k (some plain))
        else if ¬ good then
          if strict || cbit then .seq (count64 (ETP_CNT_MS_RX_NOT_VALID p)) (k none)
          else .seq (count64 (ETP_CNT_MS_RX_INVALID p)) (k (some plain))
        else seqs [seen, count64 (if late then ETP_CNT_MS_RX_DELAYED p else ETP_CNT_MS_RX_OK p), k (some plain)]

/-! ## Receive (R420 to R422, R541) -/

/-- A frame dropped by checks 1 to 4 counts towards DROP_TH (R421). -/
def macDrop (p cnt : Nat) : Upd := .seq (count64 cnt) (updSw fun x => { x with drops := mapPut 0 x.drops p (mapGet 0 x.drops p + 1) })

/-- A good frame's statistics. -/
def rxCount (p : Nat) (f : Frame) : Upd := seqs [
  count64 (ETP_CNT_RX_OCTETS p) (f.length + 4), count64 (ETP_CNT_RX_FRAMES p),
  if (f.take 6).all (· == 255) then count64 (ETP_CNT_RX_BCAST p)
  else whenU (((f[0]?).getD 0).toNat % 2 == 1) (count64 (ETP_CNT_RX_MCAST p))]

/-- The cut-through frame under way at a port. -/
def State.openFrame (s : State) (p : Nat) : Option Nat :=
  (s.b.swq.frames.find? fun e => e.2.any fun f => f.isOpen && f.port == p).map (·.1)

/-- A frame is handed to the switch. While the switch is disabled it is dropped (R464). -/
def swIn (p : Nat) (q : Option Nat) (f : Frame) (time : Nat) : Upd := .read fun s =>
  whenU (s.flag (BLK_STAT_ENABLED 8)) (updSw fun x => { x with inp := x.inp ++ [⟨p, q, f, time⟩] })

/-- The checks on a received frame: `bad` goes on where it is dropped, `good` with what the switch gets. -/
def macCheck (p : Nat) (f : Frame) (phyErr fcsErr : Bool) (bad : Upd) (good : Frame → Upd) : Upd := .read fun s =>
  let n := f.length + 4
  let limit := s.maxLen p + (if s.msecOn p ∧ at16 f 12 = 0x88E5 then 32 else 0)
  if phyErr then .seq (macDrop p (ETP_CNT_RX_PHY_ERR p)) bad
  else if n < 64 then .seq (macDrop p (ETP_CNT_RX_RUNT p)) bad
  else if limit < n then .seq (macDrop p (ETP_CNT_RX_OVERSIZE p)) bad
  else if fcsErr then .seq (macDrop p (ETP_CNT_RX_FCS_ERR p)) bad
  else if at16 f 12 = 0x8808 then .seq (count64 (ETP_CNT_RX_MACCTRL p)) bad
  else .seq (rxCount p f) (msecRx p f fun r => match r with
    | none => bad
    | some g => good g)

/-- A frame received at a port that has no cut-through frame under way: an NM PDU goes to NMC (R541). -/
def macRx (p : Nat) (q : Option Nat) (f : Frame) (time : Nat) (phyErr fcsErr : Bool) : Upd := .read fun s =>
  whenU (s.portOn p) (macCheck p f phyErr fcsErr .skip fun g =>
    .seq (nmOfferEth p g) (whenU (!(s.nmFrame p g && s.flag NMC_ETH_CFG_CONSUME)) (swIn p q g time)))

end Sys2Proof.Machine
end

