-- ==== Sys2Proof/Machine/Srt.lean ====
section
/-!
DEFINITION. The signal router: descriptors and fields, checks, the route table with its caches and banks, the signal store,
destinations, the packer (22_signal_router.md, 23_route_table.md).
-/
namespace Sys2Proof.Machine

/-! ## CRCs (R489, R494) -/

/-- A CRC of width `w` that is not reflected. -/
def crcMsb (w poly init : Nat) (l : List Byte) : Nat :=
  l.foldl (fun c b => (List.range 8).foldl (fun c _ =>
    if bit c (w - 1) then (c * 2 % 2 ^ w) ^^^ poly else c * 2 % 2 ^ w) (c ^^^ b.toNat * 2 ^ (w - 8))) init

/-- The reflected CRC-32, before its final XOR. -/
def crc32 (l : List Byte) : Nat :=
  l.foldl (fun c b => (List.range 8).foldl (fun c _ =>
    if c % 2 = 1 then (c / 2) ^^^ 0xEDB88320 else c / 2) (c ^^^ b.toNat)) 0xFFFFFFFF

/-- The CRC of a kind over bytes (R494). -/
def srtCrc (kind : Nat) (l : List Byte) : Nat :=
  match kind with
  | 1 => crcMsb 8 0x1D 0xFF l ^^^ 0xFF
  | 2 => crcMsb 16 0x1021 0xFFFF l
  | _ => crc32 l ^^^ 0xFFFFFFFF

/-! ## Fields of a PDU (R491) -/

/-- The number of a big-endian bit counted from the PDU's first transmitted bit. -/
def sawtooth (n : Nat) : Nat := 8 * (n / 8) + (7 - n % 8)

/-- Bit number `i` above the least significant bit of a field. -/
def fieldBit (be : Bool) (pos w i : Nat) : Nat := if be then sawtooth (sawtooth pos + (w - 1 - i)) else pos + i

/-- The bits of a PDU up to the field's last. -/
def fieldEnd (be : Bool) (pos w : Nat) : Nat := (if be then sawtooth pos else pos) + w

def dataBit (l : List Byte) (n : Nat) : Bool := ((l[n / 8]?).getD 0).toNat / 2 ^ (n % 8) % 2 == 1

/-- The value of a field. -/
def fieldGet (l : List Byte) (be : Bool) (pos w : Nat) : Nat :=
  (List.range w).foldl (fun v i => v + (dataBit l (fieldBit be pos w i)).toNat * 2 ^ i) 0

/-- Which bit of a field lies at bit number `n`. -/
def fieldIndex (be : Bool) (pos w n : Nat) : Option Nat :=
  if be then (let q := sawtooth n; let p := sawtooth pos; if p ≤ q ∧ q < p + w then some (w - 1 - (q - p)) else none)
  else if pos ≤ n ∧ n < pos + w then some (n - pos) else none

/-- Place a value into a field. -/
def fieldPut (l : List Byte) (be : Bool) (pos w v : Nat) : List Byte :=
  l.zipIdx.map fun (b, k) => BitVec.ofNat 8 ((List.range 8).foldl (fun x t =>
    x + (match fieldIndex be pos w (8 * k + t) with | some i => bit v i | none => bit b.toNat t).toNat * 2 ^ t) 0)

/-- Replace bytes from offset `o`. -/
def patch (l : List Byte) (o : Nat) (new : List Byte) : List Byte := l.take o ++ new ++ l.drop (o + new.length)

/-- Bytes without `n` of them from offset `o`. -/
def cutBytes (l : List Byte) (o n : Nat) : List Byte := l.take o ++ l.drop (o + n)

/-! ## Descriptors (R490) -/

def srtWin : Nat := 0x3A000000

/-- Word `i` of descriptor `d`, of field entry `f`, of the run state. -/
def State.dw (s : State) (d i : Nat) : Nat := s.load (srtWin + 32 * d + 4 * i) 4
def State.fw (s : State) (f i : Nat) : Nat := s.load (srtWin + 0x200000 + 8 * f + 4 * i) 4
def runAddr (d i : Nat) : Nat := srtWin + 0x480000 + 16 * d + 4 * i
def imgAddr (s : State) (d : Nat) : Nat := srtWin + 0x580000 + 64 * bits (s.dw d 7) 13 0

/-- The first window offset of the entry that an offset lies in. -/
def srtEntry (off : Nat) : Nat := if off < 0x200000 then off / 32 * 32 else off / 8 * 8

/-- An entry with an uncorrectable error reads as disabled (R509). -/
def State.srtBad (s : State) (off : Nat) : Bool := s.b.srt.bad.contains (srtEntry off)

def State.dDir (s : State) (d : Nat) : Bool := bit (s.dw d 0) 30
def State.dPort (s : State) (d : Nat) : Nat := bits (s.dw d 0) 29 24
def State.dLen (s : State) (d : Nat) : Nat := bits (s.dw d 0) 11 0
def State.dId (s : State) (d : Nat) : Nat := bits (s.dw d 1) 28 0
def State.dFields (s : State) (d : Nat) : Nat := bits (s.dw d 2) 31 26 + 1
def State.dField (s : State) (d i : Nat) : Nat := bits (s.dw d 2) 17 0 + i
def State.dCntW (s : State) (d : Nat) : Nat := [0, 4, 8, 16].getD (bits (s.dw d 3) 29 28) 0
def State.dCntPos (s : State) (d : Nat) : Nat := bits (s.dw d 4) 13 0
def State.dCrc (s : State) (d : Nat) : Nat := bits (s.dw d 3) 31 30
def State.dCrcLen (s : State) (d : Nat) : Nat := [0, 1, 2, 4].getD (s.dCrc d) 0
def State.dCrcByte (s : State) (d : Nat) : Nat := bits (s.dw d 4) 27 16
def State.dMac (s : State) (d : Nat) : Bool := bit (s.dw d 5) 31
def State.dMacLen (s : State) (d : Nat) : Nat := bits (s.dw d 5) 23 20 + 1
def State.dMacByte (s : State) (d : Nat) : Nat := bits (s.dw d 5) 11 0
def State.dFvLen (s : State) (d : Nat) : Nat := min 8 (bits (s.dw d 5) 19 16)
def State.dTrig (s : State) (d : Nat) : Nat := bits (s.dw d 6) 25 24
def State.dTime (s : State) (d : Nat) : Nat := bits (s.dw d 6) 15 0
def State.dataId (s : State) (d : Nat) : List Byte := beBytes 2 (bits (s.dw d 3) 15 0)

/-- A field entry in use: byte order, start, width, sign, signal. -/
def State.fUsed (s : State) (f : Nat) : Bool := bit (s.fw f 0) 31 && !s.srtBad (0x200000 + 8 * f)
def State.fBe (s : State) (f : Nat) : Bool := bit (s.fw f 0) 30
def State.fPos (s : State) (f : Nat) : Nat := bits (s.fw f 0) 27 14
def State.fWidth (s : State) (f : Nat) : Nat := bits (s.fw f 0) 13 8 + 1
def State.fGsid (s : State) (f : Nat) : Nat := bits (s.fw f 1) 24 0

/-- Whether a descriptor's settings can be carried out (R490). -/
def State.descOk (s : State) (d : Nat) : Bool :=
  let p := s.dPort d
  let n := s.dLen d
  let tx := s.dDir d
  let fmt := bits (s.dw d 0) 23 22
  let can := decide (p < 16)
  let lin := decide (16 ≤ p ∧ p < 28)
  (can || lin || p == 32) && decide (n ≤ 2048) && decide (s.dField d (s.dFields d) ≤ 0x40000)
    && (if tx then
          (!can || (match fmt with | 0 => decide (n ≤ 8) | 1 => decide (n ≤ 64) | 2 => decide (1 ≤ n) | _ => false))
            && (!lin || decide (n ≤ 8)) && decide (bits (s.dw d 7) 13 0 + (n + 63) / 64 ≤ 16384)
        else decide (d < 0xFFFE))
    && (s.dCntW d == 0 || decide (s.dCntPos d + s.dCntW d ≤ 8 * n))
    && (s.dCrc d == 0 || decide (s.dCrcByte d + s.dCrcLen d ≤ n))
    && (!s.dMac d || decide (s.dMacByte d + s.dMacLen d ≤ n ∧ s.dFvLen d ≤ s.dMacByte d))
    && (List.range (s.dFields d)).all fun i =>
        let f := s.dField d i
        !s.fUsed f || decide (fieldEnd (s.fBe f) (s.fPos f) (s.fWidth f) ≤ 8 * n)

/-- EN of a descriptor as the window holds it. -/
def State.descEn (s : State) (d : Nat) : Bool := bit (s.dw d 0) 31 && !s.srtBad (32 * d)

/-- Read a descriptor of a direction as a whole: one that cannot be carried out raises CFG_REJ and is as disabled. -/
def withDesc (d : Nat) (tx : Bool) (yes no : Upd) : Upd := .read fun s =>
  if ¬ s.descEn d then no
  else if ¬ s.descOk d then .seq (raise 11 7) no
  else if s.dDir d = tx then yes else no

/-! ## Keys (R434, R495) -/

/-- Why a key is not loaded, or the key: 1 denied, 2 slot not usable or of a wrong type. -/
def State.loadKey (s : State) (pid c usage : Nat) (types : List Nat) : Nat × Option LoadedKey :=
  let a := s.reg (VLT_SLOT_ATTR c)
  if s.useStatus c ≠ OK ∨ ¬ types.contains (attrType a) then (2, none)
  else if attrOwner a ≠ pid ∨ ¬ bit (attrUsage a) usage then (1, none)
  else (0, some ⟨c, s.slotGen c, attrType a, mapGet [] s.b.vlt.mat c⟩)

/-- The GEN of a loaded key's slot advanced, or the slot became an orphan (R175). -/
def State.keyLost (s : State) (k : LoadedKey) : Bool := s.slotGen k.slot != k.gen || s.orphan k.slot

/-- A write of SRT_KEY[i] by `pid`. -/
def srtKeyHook (i pid v : Nat) : Upd := .read fun s =>
  if bit v 31 then
    let (e, k) := s.loadKey pid (bits v 8 0) 5 [1, 2]
    seqs [
      updSrt fun x => { x with keys := mapPut none x.keys i k },
      set (SRT_KEY_KEY_OK i) k.isSome.toNat, set (SRT_KEY_KEY_ERR i) e, set (SRT_KEY_EN i) k.isSome.toNat]
  else .seq (updSrt fun x => { x with keys := mapPut none x.keys i none }) (set (SRT_KEY_KEY_OK i) 0)

/-- A loaded key is lost: its entry is disabled, TR fault of SRT. -/
def srtKeyLost (i : Nat) : Upd := seqs [
  updSrt fun x => { x with keys := mapPut none x.keys i none },
  set (SRT_KEY_EN i) 0, set (SRT_KEY_KEY_OK i) 0, set (SRT_KEY_KEY_ERR i) 3, raise 11 5, report 11 none TR]

/-- The MAC of a PDU under freshness value `fv`: over DATA_ID, the bytes without MAC and freshness bytes, and `fv`. -/
def State.macOf (s : State) (d : Nat) (key : LoadedKey) (data : List Byte) (fv : Nat) : List Byte :=
  (crypt .aesCmac 0 key.mat (s.dataId d
    ++ cutBytes data (s.dMacByte d - s.dFvLen d) (s.dFvLen d + s.dMacLen d) ++ beBytes 8 fv) 16).take (s.dMacLen d)

/-! ## Route table (R514 to R533) -/

def State.rtBase (s : State) : Nat := s.get SRT_RT_BASE_ADDR * 2 ^ 29
def State.dlBase (s : State) : Nat := s.get SRT_DL_BASE_LO_ADDR * 2 ^ 12 + s.get SRT_DL_BASE_HI_ADDR_HI * 2 ^ 32
def State.dlSize (s : State) : Nat := min 128 (max 1 (s.get SRT_DL_CFG_SIZE_MIB)) * 131072
def State.storeBase (s : State) : Nat := s.get SRT_STORE_BASE_LO_ADDR * 2 ^ 24 + s.get SRT_STORE_BASE_HI_ADDR_HI * 2 ^ 32

/-- What a read of context 59 met: the words, a poisoned line, or a refusal. -/
inductive SrtRead where
  | words (l : List Nat)
  | poison
  | refused

/-- Read `n` words of DRAM for the router. -/
def srtRead (a n : Nat) (k : SrtRead → Upd) : Upd := .read fun s =>
  let refused := decide (s.engineCause (s.ctxPid 59) a (4 * n) 0 ≠ 0)
  dmaRead 59 a (4 * n) fun r => k (match r with
    | some l => .words ((List.range n).map fun i => leValue ((l.drop (4 * i)).take 4))
    | none => if refused then .refused else .poison)

def wordsBytes (l : List Nat) : List Byte := (l.map (leBytes 4)).flatten

/-- The route cache's set of a GSID. -/
def rcSet (g : Nat) : Nat := g % 8192

/-- Replace a set of the route cache and count its pinned ways. -/
def setRc (i : Nat) (new : List RcWay) : Upd := .read fun s =>
  let old := (mapGet [] s.b.srt.rc i).countP (·.pin)
  .seq (updSrt fun x => { x with rc := mapPut [] x.rc i new })
    (set SRT_RC_STAT_PINNED (min 0xFFFF (s.get SRT_RC_STAT_PINNED + new.countP (·.pin) - old)))

/-- The ways after replacing the least recently used unpinned one where the set is full. -/
def rcEvict (l : List RcWay) : List RcWay :=
  if l.length < 8 then l else
  match l.reverse.find? (fun w => !w.pin) with
  | some v => l.erase v
  | none => l.dropLast

/-- Fill an entry into the route cache (R521, R526). -/
def rcFill (g : Nat) (e : List Nat) : Upd := .read fun s =>
  let ways := mapGet [] s.b.srt.rc (rcSet g)
  let pin := bit (e.getD 0 0) 29 && decide (ways.countP (·.pin) < 4)
  setRc (rcSet g) (⟨g, e, pin⟩ :: rcEvict ways)

/-- A route entry fill meets a poisoned line (R533). -/
def rtPoison (g : Nat) : Upd := seqs [
  count SRT_CNT_RT_POISON, raise 11 21, setReg SRT_RT_ERR (2 ^ 30 + g), report 11 none TR]

/-- Look up the entry of a GSID: `old` under the epoch before a bank that applies, `quiet` where run-ahead did the work. -/
def rtLookup (g : Nat) (old quiet : Bool) (k : Option (List Nat) → Upd) : Upd := .read fun s =>
  let banked := mapGet [] s.b.srt.applying g
  let ways := mapGet [] s.b.srt.rc (rcSet g)
  if !old && !banked.isEmpty then k (some banked)
  else match ways.find? (·.gsid == g) with
  | some w => seqs [whenU (!quiet) (count SRT_CNT_RC_HIT), setRc (rcSet g) (w :: ways.erase w), k (some w.entry)]
  | none => .seq (whenU (!quiet) (count SRT_CNT_RC_MISS)) (srtRead (s.rtBase + 16 * g) 4 fun r => match r with
    | .words e => .seq (rcFill g e) (k (some e))
    | .poison => .seq (rtPoison g) (k none)
    | .refused => k (some [0, 0, 0, 0]))

/-- Read the line of pool destination `i`, through the destination list cache. -/
def dlRead (i : Nat) (k : SrtRead → Upd) : Upd := .read fun s =>
  let line := i / 8
  match s.b.srt.dl.find? (·.1 == line) with
  | some e => .seq (updSrt fun x => { x with dl := e :: x.dl.erase e }) (k (.words e.2))
  | none => .seq (count SRT_CNT_DL_MISS) (srtRead (s.dlBase + 64 * line) 16 fun r => .seq (match r with
      | .words l => updSrt fun x => { x with dl := ((line, l) :: x.dl).take 2048 }
      | _ => .skip) (k r))

/-! ## The signal store (R499) -/

/-- Write a cached slot back. -/
def slotBack (n : Nat) : Upd := .read fun s => match mapGet [] s.b.srt.slots n with
  | [] => .skip
  | l => .seq (dmaWrite 59 (s.storeBase + 16 * n) (wordsBytes l) fun _ => .skip)
      (updSrt fun x => { x with slots := mapPut [] x.slots n [] })

/-- Take a slot into the on-die cache. The replacement is not stated: a free choice (notes/assumptions/1.md). -/
def slotKeep (n : Nat) (l : List Nat) : Upd := .read fun s => .seq
  (whenU (decide (16384 ≤ s.b.srt.slots.length) && (mapGet [] s.b.srt.slots n).isEmpty)
    (free fun v => slotBack ((s.b.srt.slots.map (·.1)).getD (v % s.b.srt.slots.length) n)))
  (updSrt fun x => { x with slots := mapPut [] x.slots n l })

/-- The words of a slot, from the cache or DRAM. -/
def slotFetch (n : Nat) (k : SrtRead → Upd) : Upd := .read fun s => match mapGet [] s.b.srt.slots n with
  | [] => srtRead (s.storeBase + 16 * n) 4 fun r => match r with
    | .words l => .seq (slotKeep n l) (k r)
    | _ => k r
  | l => k (.words l)

/-- The value of a local signal: the words of its slot, zeros where there is none (R501). -/
def sigFetch (g : Nat) (k : List Nat → Upd) : Upd := rtLookup g false false fun e => match e with
  | some w =>
    if bit (w.getD 0 0) 31 ∧ bit (w.getD 0 0) 28 then slotFetch (bits (w.getD 0 0) 19 0) fun r => match r with
      | .words l => k l
      | _ => k [0, 0, 0, 0]
    else k [0, 0, 0, 0]
  | none => k [0, 0, 0, 0]

/-! ## The packer (R502, R503) -/

def updTx (d : Nat) (f : SrtTx → SrtTx) : Upd := updSrt fun x => { x with tx := mapPut {} x.tx d (f (mapGet {} x.tx d)) }

/-- What a destination does with a send: 0 takes it, 1 holds it, 2 discards it. -/
def State.destBusy (s : State) (d : Nat) : Nat :=
  let p := s.dPort d
  if p < 16 then
    if ¬ s.cellOn 9 p ∨ s.flag (CELL_STAT_DRAINING 9 p) then 2
    else if bit (s.dw d 7) 31 then (if s.txQslots p = 0 ∨ s.flag (CAN_TXQ_STAT_FULL p) then 1 else 0)
    else if s.txBufs p ≤ bits (s.dw d 7) 20 16 then 2
    else if s.bitAt (CAN_TXBUF_PEND p) (bits (s.dw d 7) 20 16) then 1 else 0
  else if p < 28 then
    let w0 := s.load (0x39800000 + 0x1000 * (p - 16) + 16 * s.dId d) 4
    if ¬ s.cellOn 10 (p - 16) ∨ s.flag (CELL_STAT_DRAINING 10 (p - 16)) ∨ 62 ≤ s.dId d ∨ ¬ bit w0 31 ∨ bits w0 30 29 ≠ 1 then 2 else 0
  else if s.flag SRT_SR_CFG_EN then 0 else 2

/-- The smallest DLC that holds `n` bytes (R399, R390). -/
def dlcFor (fmt n : Nat) : Nat := match fmt with
  | 0 => n
  | 1 => ((List.range 16).find? fun c => decide (n ≤ frameLen 1 c false)).getD 15
  | _ => n - 1

/-- A PDU record of port SR (R488). -/
def srRecord (num : Nat) (data : List Byte) : List Byte :=
  beBytes 4 (num % 65536 * 65536 + data.length) ++ data ++ List.replicate ((4 - data.length % 4) % 4) 0

/-- Send the waiting records on port SR in one frame. -/
def srFlush : Upd := .read fun s => whenU (!s.b.srt.bundle.isEmpty) (
  let head := macBytes (s.reg SRT_SR_DA_LO) (s.reg SRT_SR_DA_HI) ++ macBytes (s.reg SRT_SR_SA_LO) (s.reg SRT_SR_SA_HI)
  let tag := if s.flag SRT_SR_CFG_TAG then be16 0x8100 ++ be16 (s.get SRT_SR_CFG_PCP * 8192 + s.get SRT_SR_VID_VID) else []
  .seq (macRx 23 none (padTo 60 (head ++ tag ++ be16 (s.get SRT_SR_CFG_ETYPE) ++ s.b.srt.bundle.flatten)) s.devTime false false)
    (updSrt fun x => { x with bundle := [] }))

/-- A record falls to port SR: bundled while BUNDLE_US is not 0. -/
def srSend (r : List Byte) : Upd := .read fun s => seqs [
  whenU (decide (1500 < s.b.srt.bundle.flatten.length + r.length)) srFlush,
  updSrt fun x => { x with bundle := x.bundle ++ [r] },
  whenU (!s.flag SRT_SR_CFG_BUNDLE_US) srFlush]

/-- Deliver a built send. -/
def srtDeliver (d : Nat) (data : List Byte) : Upd := .read fun s =>
  let p := s.dPort d
  let w0 := s.dw d 0
  let w7 := s.dw d 7
  if p < 16 then
    let fmt := bits w0 23 22
    let dlc := dlcFor fmt data.length
    let body := padTo (frameLen fmt dlc false) data
    let slot := if bit w7 31 then 32 + s.get (CAN_TXQ_STAT_PUT p) else bits w7 20 16
    let words := [bits w7 27 24 * 2 ^ 20 + bits (s.dw d 1) 31 31 * 2 ^ 16 + bits w0 21 21 * 2 ^ 14 + fmt * 2 ^ 12 + dlc, s.dId d, 0, 0]
      ++ (List.range ((body.length + 3) / 4)).map fun k => leValue ((body.drop (4 * k)).take 4)
    .seq (setWords p (elemWord s p 4 (s.slotNo p slot)) (words.take (secWords s p 4))) (makePending p slot)
  else if p < 28 then storeBytes (0x39800000 + 0x1000 * (p - 16) + 16 * s.dId d + 8) (padTo 8 data)
  else srSend (srRecord (s.dId d) data)

/-- A send is counted as held or discarded. -/
def txBusy : Upd := .seq (count SRT_CNT_TX_BUSY) (raise 11 4)

/-- SEND_BUILD (R503): the counter, the freshness bytes and the MAC, then the CRC, and delivery. -/
def sendBuild (d : Nat) : Upd := .read fun s =>
  let run := s.load (runAddr d 0) 4
  let w := s.dCntW d
  let cnt := if w = 0 then bits run 31 16 else (bits run 31 16 + 1) % 2 ^ w
  let img := s.bytes (imgAddr s d) (s.dLen d)
  let img := if w = 0 then img else fieldPut img false (s.dCntPos d) w cnt
  let key := mapGet none s.b.srt.keys (bits (s.dw d 5) 29 24)
  let fv := (s.load (runAddr d 2) 8 + 1) % 2 ^ 64
  if s.dMac d ∧ key.isNone then count SRT_CNT_MAC_FAIL
  else
    let n := s.dFvLen d
    let img := match key with
      | some k => if s.dMac d then
          let i1 := patch img (s.dMacByte d - n) (beBytes n fv)
          patch i1 (s.dMacByte d) (s.macOf d k i1 fv) else img
      | none => img
    let img := if s.dCrc d = 0 then img else
      patch img (s.dCrcByte d) (beBytes (s.dCrcLen d) (srtCrc (s.dCrc d) (s.dataId d ++ cutBytes img (s.dCrcByte d) (s.dCrcLen d))))
    seqs [
      store (runAddr d 0) 4 (cnt * 65536 + (run % 65536 + 1) % 65536),
      whenU (s.dMac d) (store (runAddr d 2) 8 fv),
      updTx d fun x => { x with gap := bits (s.dw d 6) 23 16 != 0 },
      srtDeliver d img, count SRT_CNT_PDU_OUT]

/-- A send of descriptor `d` is due and not held by MIN_GAP. -/
def sendTry (d : Nat) : Upd := withDesc d true (.read fun s =>
    match s.destBusy d with
    | 0 => .seq (updTx d fun x => { x with due := false, busy := false }) (sendBuild d)
    | 1 => .seq (whenU (!(mapGet {} s.b.srt.tx d).busy) txBusy) (updTx d fun x => { x with due := false, busy := true })
    | _ => .seq txBusy (updTx d fun x => { x with due := false, busy := false }))
  (updTx d fun x => { x with due := false, busy := false })

/-- A send of descriptor `d` falls due (R502): merged into a held one, held by MIN_GAP, or tried. -/
def sendDue (d : Nat) : Upd := .read fun s =>
  let x := mapGet {} s.b.srt.tx d
  whenU (s.flag (BLK_STAT_ENABLED 11)) (
    if x.gap then updTx d fun x => { x with due := true } else whenU (!x.busy) (sendTry d))

/-- Stage 8: the sends that a PDU's or an update's stage 7 made due. -/
def srtPack : Upd := .read fun s => .seq (updSrt fun x => { x with pend := [] }) (forEach s.b.srt.pend.eraseDups sendDue)

/-! ## Updates (R498 to R500, R520, R530, R554) -/

/-- A signal update: local GSID, value, PID, SRC of the slot, STALE, BAD, REMOTE, and whether it is bus-borne (R554). -/
structure SigUpd where
  gsid : Nat
  value : Nat
  pid : Nat
  src : Nat
  stale : Bool := false
  bad : Bool := false
  remote : Bool := false
  bus : Bool := false

/-- Forward an update to another device, or drop it. -/
def sigRemote (d addr v pid : Nat) : Upd := .read fun s =>
  if s.inChain d then .seq (count SRT_CNT_REMOTE_OUT) (flkSignal d pid addr v) else count SRT_CNT_REMOTE_DROP

/-- Apply one destination. -/
def destApply (u : SigUpd) (w0 w1 : Nat) : Upd := .read fun s =>
  let kind := bits w0 31 30
  let d := bits w0 15 0
  let badDest := count SRT_CNT_DEST_BAD
  if kind = 3 then .skip
  else if s.flag NMC_ISO_STAT_ISOLATED && u.bus && (kind != 1 || !s.flag NMC_ISO_CFG_LOAD_PASS) then count NMC_ISO_SKIP
  else match kind with
  | 0 => withDesc d true (
      if s.dFields d ≤ bits w0 21 16 then badDest else
      let f := s.dField d (bits w0 21 16)
      whenU (s.fUsed f) (
        let img := s.bytes (imgAddr s d) (s.dLen d)
        let new := fieldPut img (s.fBe f) (s.fPos f) (s.fWidth f) u.value
        let trig := s.dTrig d
        .seq (storeBytes (imgAddr s d) new)
          (whenU (trig == 3 || ((trig == 0 || trig == 2) && new != img)) (updSrt fun x => { x with pend := x.pend ++ [d] }))))
      badDest
  | 1 => upd fun b => { b with lsw := { b.lsw with
      bound := b.lsw.bound ++ [(ofGlobal (bits w0 5 0), u.value, u.pid, s.devNum * 2 ^ 25 + u.gsid)] } }
  | _ => if bits w1 30 25 = s.devNum then badDest else sigRemote (bits w1 30 25) (bits w1 30 0) u.value u.pid

/-- Apply the destinations of an entry, in list order. -/
def destsApply (u : SigUpd) (e : List Nat) : Upd :=
  let n := bits (e.getD 1 0) 31 24
  let first := bits (e.getD 1 0) 23 0
  if n = 0 then .skip
  else if n = 1 then destApply u (e.getD 2 0) (e.getD 3 0)
  else forEach (List.range (((first + n - 1) / 8 - first / 8) + 1)) fun j =>
    let line := first / 8 + j
    let lo := max first (8 * line)
    let hi := min (first + n) (8 * line + 8)
    .read fun s =>
      if s.dlSize ≤ 8 * line then count SRT_CNT_DEST_BAD (hi - lo)
      else dlRead (8 * line) fun r => match r with
        | .words l => forEach (List.range (hi - lo)) fun i =>
            let k := 2 * (lo + i - 8 * line)
            destApply u (l.getD k 0) (l.getD (k + 1) 0)
        | .poison => .seq (count SRT_CNT_DEST_POISON) (report 11 none TR)
        | .refused => count SRT_CNT_DEST_BAD (hi - lo)

/-- Stage 7: the slot and the destinations. -/
def sigStore (u : SigUpd) (e : List Nat) : Upd :=
  if ¬ bit (e.getD 0 0) 28 then .seq (count SRT_CNT_SIG_UPD) (destsApply u e)
  else slotFetch (bits (e.getD 0 0) 19 0) fun r => match r with
    | .words l => .read fun s => seqs [
        slotKeep (bits (e.getD 0 0) 19 0) [u.value % 2 ^ 32, u.value / 2 ^ 32 % 2 ^ 32,
          2 ^ 31 + u.stale.toNat * 2 ^ 30 + u.bad.toNat * 2 ^ 29 + u.remote.toNat * 2 ^ 28 + u.pid % 64 * 2 ^ 22
            + (bits (l.getD 2 0) 21 16 + 1) % 64 * 2 ^ 16 + u.src,
          s.devTime / 2 ^ 10 % 2 ^ 32],
        count SRT_CNT_SIG_UPD, destsApply u e]
    | .poison => report 11 none TR
    | .refused => .skip

/-- An update is discarded for want of a route. -/
def noRoute : Upd := .seq (count SRT_CNT_NO_ROUTE) (raise 11 6)

/-- SIGNAL_UPDATE (R498, R500): lookup, store and destinations. `old`: a commit took effect since the update's epoch, and the
bank that applies may retire it (R530). -/
def sigUpdate (u : SigUpd) (old quiet : Bool) : Upd := rtLookup u.gsid old quiet fun r => match r with
  | none => .skip
  | some e =>
    if ¬ bit (e.getD 0 0) 31 then noRoute
    else .read fun s =>
      let new := mapGet [] s.b.srt.applying u.gsid
      if old ∧ bit (e.getD 0 0) 30 ∧ ¬ new.isEmpty ∧ new ≠ e then .seq (count SRT_CNT_IR_DROP) (raise 11 20)
      else sigStore u e

/-- An update by signal address from a register write, an internal writer or another device (R485). -/
def sigByAddr (addr v pid src : Nat) (remote : Bool) : Upd := .read fun s =>
  whenU (s.flag (BLK_STAT_ENABLED 11)) (
    if remote || bits addr 30 25 == s.devNum then
      .seq (sigUpdate ⟨addr % 2 ^ 25, v, pid, src, false, false, remote, remote⟩ false false) srtPack
    else sigRemote (bits addr 30 25) (addr % 2 ^ 31) v pid)

/-- An internal writer's update (R485). -/
def sigInternal (addr v : Nat) : Upd := sigByAddr addr v 1 0xFFFE false

/-! ## Epochs (R525, R530) -/

/-- Classification (R489): the descriptor an enabled bucket entry names. -/
def State.classify (s : State) (p : Pdu) : Option Nat :=
  let key : List Byte := [BitVec.ofNat 8 p.port, BitVec.ofNat 8 (p.xtd.toNat * 128 + p.id / 2 ^ 24 % 32)] ++ beBytes 3 (p.id % 2 ^ 24)
  let bucket := crcMsb 16 0x1021 0xFFFF key % 2 ^ 14
  let off (w : Nat) := 0x400000 + 32 * bucket + 8 * w
  let word (w i : Nat) := s.load (srtWin + off w + 4 * i) 4
  ((List.range 4).find? fun w => bit (word w 0) 31 && !s.srtBad (off w) && bits (word w 0) 29 24 == p.port
    && bit (word w 1) 31 == p.xtd && bits (word w 1) 28 0 == p.id).map fun w => bits (word w 0) 15 0

/-- Stages 2 and 6 ahead of the frame's end (R506): only their cache fills remain. -/
def aheadWork (p : Pdu) : Upd := .read fun s => match s.classify p with
  | none => .skip
  | some d => whenU (s.descEn d && s.descOk d && !s.dDir d) (forEach (List.range (s.dFields d)) fun i =>
      whenU (s.fUsed (s.dField d i)) (rtLookup (s.fGsid (s.dField d i)) false false fun _ => .skip))

/-- The PDU of a CAN frame. -/
def framePdu (c : Nat) (f : CanFrame) (data : List Byte) : Pdu := ⟨c, f.ext, f.id.val, data, false⟩

/-- Run-ahead work before stage 3 is squashed and run again (R507); `cnt` counts it. -/
def squashAhead (cnt : Nat) : Upd := .read fun s => seqs [
  forN 16 fun c => match (s.canCh c).rx with
    | some r => whenU r.ahead.isSome (seqs [
        count cnt, aheadWork (framePdu c r.f []),
        updCan c fun x => { x with rx := x.rx.map fun r => { r with ahead := some (s.get SRT_EPOCH_EPOCH) } }])
    | none => .skip,
  count cnt (s.b.srt.input.countP (·.ahead)),
  updSrt fun x => { x with input := x.input.map fun p => { p with ahead := false } }]

/-- A pending commit may take effect: the other bank has finished applying. -/
def State.commitReady (s : State) : Bool := s.flag SRT_EPOCH_PENDING && !s.flag SRT_EPOCH_APPLYING

/-- The commit takes effect (R525, R528). -/
def epochEffect : Upd := .read fun s => seqs [
  set SRT_EPOCH_EPOCH (s.get SRT_EPOCH_EPOCH + 1), set SRT_EPOCH_PENDING 0, set SRT_EPOCH_APPLYING 1,
  set SRT_EPOCH_BANK (1 - s.get SRT_EPOCH_BANK), set SRT_SHD_STAT_FILL 0, set SRT_SHD_STAT_FULL 0,
  updSrt fun x => { x with applying := x.fill, fill := [], dl := [] },
  raise 11 16, squashAhead SRT_CNT_SQUASH_EPOCH]

/-! ## PDUs in (R487 to R497) -/

/-- The checks of R492: the result, LAST_CNT, steps missed, FV after the PDU. -/
def State.pduCheck (s : State) (d : Nat) (data : List Byte) : Nat × Nat × Nat × Nat :=
  let last := s.load (runAddr d 0 + 2) 2
  let fv := s.load (runAddr d 2) 8
  let w := s.dCntW d
  let c := fieldGet data false (s.dCntPos d) w
  let step := (c + 2 ^ w - last % 2 ^ w) % 2 ^ w
  let delta := max 1 (bits (s.dw d 3) 27 24)
  let crcGot := beValue ((data.drop (s.dCrcByte d)).take (s.dCrcLen d))
  if data.length < s.dLen d then (1, last, 0, fv)
  else if s.dCrc d ≠ 0 ∧ crcGot ≠ srtCrc (s.dCrc d) (s.dataId d ++ cutBytes data (s.dCrcByte d) (s.dCrcLen d)) then (2, last, 0, fv)
  else if w ≠ 0 ∧ ¬ s.b.srt.fresh.contains d ∧ step = 0 then (3, last, 0, fv)
  else if w ≠ 0 ∧ ¬ s.b.srt.fresh.contains d ∧ delta < step then (4, c, 0, fv)
  else
    let last' := if w = 0 then last else c
    let lost := if w = 0 ∨ s.b.srt.fresh.contains d then 0 else step - 1
    if ¬ s.dMac d then (0, last', lost, fv)
    else match mapGet none s.b.srt.keys (bits (s.dw d 5) 29 24) with
    | none => (6, last', lost, fv)
    | some key =>
      let n := s.dFvLen d
      let got := beValue ((data.drop (s.dMacByte d - n)).take n)
      let base := if n = 0 then fv + 1 else fv / 2 ^ (8 * n) * 2 ^ (8 * n) + got
      let cand := (if n ≠ 0 ∧ base ≤ fv then base + 2 ^ (8 * n) else base) % 2 ^ 64
      if s.macOf d key data cand = (data.drop (s.dMacByte d)).take (s.dMacLen d) then (0, last', lost, cand) else (5, last', lost, fv)

/-- Sign-extend a field's value to 64 bits. -/
def extend (signed : Bool) (w v : Nat) : Nat := if signed ∧ bit v (w - 1) then 2 ^ 64 - 2 ^ w + v else v

/-- The updates of the fields of a received PDU, from field `i` on. -/
def State.pduUpdates (s : State) (d : Nat) (data : List Byte) (bad : Bool) : List SigUpd :=
  (List.range (s.dFields d)).filterMap fun i =>
    let f := s.dField d i
    if s.fUsed f && decide (fieldEnd (s.fBe f) (s.fPos f) (s.fWidth f) ≤ 8 * data.length) then
      some ⟨s.fGsid f, extend (bit (s.fw f 0) 29) (s.fWidth f) (fieldGet data (s.fBe f) (s.fPos f) (s.fWidth f)),
        (s.ctxPid 59).1, d, false, bad, false, true⟩
    else none

/-- A classified PDU is checked and its signals written (R492, R496). `commit`: the number of its signals past stage 7 when a
pending commit takes effect. -/
def pduRun (d : Nat) (p : Pdu) (commit : Option Nat) : Upd := .read fun s =>
  let (res, last, lost, fv) := s.pduCheck d p.data
  let keep := bit (s.dw d 6) 31
  let bad := 2 ≤ res && res ≤ 4
  let ups := s.pduUpdates d p.data bad
  let n := match commit with | some n => if s.commitReady then n else ups.length | none => ups.length
  seqs [
    store (runAddr d 0) 4 (last * 65536 + (s.load (runAddr d 0) 2 + 1) % 65536),
    store (runAddr d 1) 4 (res * 2 ^ 28 + min 65535 (s.load (runAddr d 1) 2 + lost)),
    whenU (res == 0 && s.dMac d) (store (runAddr d 2) 8 fv),
    whenU (res == 0 || 3 ≤ res) (updSrt fun x => { x with fresh := x.fresh.filter (· != d) }),
    whenU (res != 0) (setReg SRT_LAST_ERR (res * 2 ^ 28 + d)),
    whenU (5 ≤ res) (.seq (count SRT_CNT_MAC_FAIL) (raise 11 1)),
    whenU (res != 0 && res ≤ 4) (.seq (count SRT_CNT_CHECK_FAIL) (whenU (!(bad && keep)) (raise 11 0))),
    if res = 0 ∨ (bad ∧ keep) then seqs [
      count SRT_CNT_PDU_IN,
      forEach (ups.take n) fun u => sigUpdate u false p.ahead,
      whenU (commit.isSome && s.commitReady) epochEffect,
      forEach (ups.drop n) fun u => sigUpdate u true p.ahead,
      srtPack]
    else whenU (commit.isSome && s.commitReady) epochEffect]

/-- PDU_INGRESS (R487 to R500): the next PDU of the input queue passes all stages. `ecc`: the window offset of an entry found
with an uncorrectable error; `ce`: a corrected error (R509). -/
def pduIngress (commit : Option Nat) (ecc : Option Nat) (ce : Bool) : Upd := .read fun s => match s.b.srt.input with
  | [] => .skip
  | p :: rest => seqs [
      updSrt fun x => { x with input := rest },
      whenU ce (report 11 none CE),
      match ecc with
      | some o => .seq (updSrt fun x => { x with bad := srtEntry o :: x.bad }) (report 11 none PM (some 4))
      | none => .skip,
      .read fun s => match s.classify p with
      | none => count SRT_CNT_NO_PDU
      | some d => withDesc d false (pduRun d p commit) (count SRT_CNT_NO_PDU)]

/-- PDU_RX_TIMEOUT (R497): the value and BAD of each field's slot stand; where there is none, or it cannot be read, the
spec states no value. -/
def pduRxTimeout (d : Fin 65536) : Upd := withDesc d false (.read fun s =>
  whenU (s.flag (BLK_STAT_ENABLED 11) && s.dTime d != 0) (seqs [
    count SRT_CNT_TIMEOUT, raise 11 2,
    forEach (List.range (s.dFields d)) fun i => whenU (s.fUsed (s.dField d i)) (
      let g := s.fGsid (s.dField d i)
      rtLookup g false false fun e => match e with
      | none => .skip
      | some w =>
        let go (bad : Bool) (v : Nat) : Upd := if ¬ bit (w.getD 0 0) 31 then noRoute
          else sigStore ⟨g, v, (s.ctxPid 59).1, d, true, bad, false, true⟩ w
        if bit (w.getD 0 0) 31 ∧ bit (w.getD 0 0) 28 then slotFetch (bits (w.getD 0 0) 19 0) fun r => match r with
          | .words l => go (bit (l.getD 2 0) 29) (l.getD 0 0 + 2 ^ 32 * l.getD 1 0)
          | _ => free (go false)
        else free (go false)),
    srtPack])) .skip

/-- The records of a frame from port SR's payload; `false` where one runs past the end. -/
def srRecords : Nat → List Byte → List (Nat × List Byte) × Bool
  | 0, _ => ([], true)
  | n + 1, l =>
    if l.isEmpty then ([], true)
    else if l.length < 4 then ([], false)
    else
      let h := beValue (l.take 4)
      let len := h % 4096
      let rest := l.drop 4
      if h / 65536 = 0xFFFF then ([], true)
      else if 2048 < len ∨ rest.length < len then ([], false)
      else let (r, ok) := srRecords n (rest.drop ((len + 3) / 4 * 4)); ((h / 65536, rest.take len) :: r, ok)

/-- A frame from the switch enters the router at port SR (R488). -/
def srFrame (f : Frame) : Upd := .read fun s => whenU (s.flag SRT_SR_CFG_EN && s.flag (BLK_STAT_ENABLED 11)) (
  let o := typeAt f
  if at16 f o ≠ s.get SRT_SR_CFG_ETYPE then count SRT_CNT_SR_DROP
  else
    let (rs, ok) := srRecords f.length (f.drop (o + 2))
    .seq (forEach rs fun r => pduPush ⟨32, false, r.1, r.2, false⟩) (whenU (!ok) (count SRT_CNT_SR_DROP)))

/-! ## Signals by register and by packet -/

/-- SIG_WRITE (R501): the writer's staged value becomes an update of a signal address. -/
def sigWrHook (pid v : Nat) : Upd := .read fun s =>
  if s.frozen 5 fun n => s.get (IOM_INST_PID_PID n) == pid then updSrt fun x => { x with heldWr := x.heldWr ++ [(pid, v)] }
  else sigByAddr (v % 2 ^ 31) (mapGet 0 s.b.srt.stage pid) pid 0xFFFF false

/-- A write of SRT_SIG_VAL_LO (`hi` false) or _HI goes to the writer's staging. -/
def sigValHook (pid v : Nat) (hi : Bool) : Upd := updSrt fun x =>
  let o := mapGet 0 x.stage pid
  { x with stage := mapPut 0 x.stage pid (if hi then o % 2 ^ 32 + v * 2 ^ 32 else o / 2 ^ 32 * 2 ^ 32 + v) }

/-- Word `i` of the slot that a PID's read address names (R501). -/
def sigRdData (pid i : Nat) (k : Nat → Upd) : Upd := .read fun s =>
  let a := mapGet 0 s.b.srt.rdAddr pid
  if a / 2 ^ 25 ≠ s.devNum then k 0 else sigFetch (a % 2 ^ 25) fun l => k (l.getD i 0)

/-- REMOTE_SIGNAL_IN (R498): a signal update from another device of the chain. -/
def remoteSignalIn (pid : Pid) (addr : Fin 2147483648) (v : Nat) : Upd := sigByAddr addr (v % 2 ^ 64) pid 0xFFFF true

/-! ## Sends -/

/-- CYCLIC_SEND_DUE (R502). -/
def cyclicSendDue (d : Fin 65536) : Upd := .read fun s =>
  withDesc d true (whenU ((s.dTrig d == 1 || s.dTrig d == 2) && s.dTime d != 0) (sendDue d)) .skip

/-- MIN_GAP_END (R502). -/
def minGapEnd (d : Fin 65536) : Upd := .read fun s =>
  let x := mapGet {} s.b.srt.tx d
  .seq (updTx d fun x => { x with gap := false }) (whenU (x.due && s.flag (BLK_STAT_ENABLED 11)) (sendTry d))

/-- HELD_SEND_RELEASE (R503): the destination of a held send may take it. -/
def heldSendRelease (d : Fin 65536) : Upd := .read fun s =>
  whenU ((mapGet {} s.b.srt.tx d).busy && s.flag (BLK_STAT_ENABLED 11)) (sendTry d)

/-- SR_BUNDLE_EXPIRY (R488). -/
def srBundleExpiry : Upd := srFlush

/-! ## Banks, barriers, cache commands -/

/-- A write of SRT_SHD_PUT (R524). A put while the bank is sealed and its commit waits is refused
(notes/assumptions/16.md). -/
def shdPutHook : Upd := .read fun s =>
  let g := s.get SRT_SHD_GSID_GSID
  let f := s.b.srt.fill
  let e := (List.range 4).map fun i => s.reg (SRT_SHD_DATA i)
  if s.flag SRT_EPOCH_PENDING ∨ (4096 ≤ f.length ∧ (mapGet [] f g).isEmpty) then .seq (set SRT_SHD_STAT_RES 2) (raise 11 19)
  else
    let f' := mapPut [] f g e
    seqs [updSrt fun x => { x with fill := f' }, set SRT_SHD_STAT_RES 1, set SRT_SHD_STAT_FILL f'.length,
      set SRT_SHD_STAT_FULL (decide (4096 ≤ f'.length)).toNat]

/-- A write of SRT_SHD_CLEAR. -/
def shdClearHook : Upd := .read fun s => whenU (!s.flag SRT_EPOCH_PENDING) (seqs [
  updSrt fun x => { x with fill := [] }, set SRT_SHD_STAT_FILL 0, set SRT_SHD_STAT_FULL 0])

/-- A write of SRT_EPOCH (R525). -/
def epochHook (v : Nat) : Upd := .seq (set SRT_EPOCH_COMMIT 0) (whenU (bit v 31) (set SRT_EPOCH_PENDING 1))

/-- EPOCH_TAKES_EFFECT (R525): between two PDUs. -/
def epochTakesEffect : Upd := .read fun s => whenU s.commitReady epochEffect

/-- Apply an entry to the carve-out and the cache (R526, R534). -/
def bankApply (bank : Tbl (List Nat)) (g : Nat) (e : List Nat) : Upd := .read fun s =>
  let a := s.rtBase + 16 * g
  let base := g / 4 * 4
  let ways := mapGet [] s.b.srt.rc (rcSet g)
  let lost := (List.range 4).find? fun j => (mapGet [] bank (base + j)).isEmpty
  seqs [
    if s.b.mem.poison.contains (a / 64) then .seq
      (dmaWrite 59 (s.rtBase + 16 * base) (((List.range 4).map fun j =>
        fit 16 (wordsBytes (mapGet [] bank (base + j)))).flatten) fun _ => .skip)
      (match lost with | some j => setReg SRT_RT_ERR (2 ^ 31 + base + j) | none => .skip)
    else dmaWrite 59 a (wordsBytes e) fun _ => .skip,
    match ways.find? (·.gsid == g) with
    | some w => setRc (rcSet g) (ways.map fun x => if x = w then
        { w with entry := e, pin := bit (e.getD 0 0) 29 && w.pin } else x)
    | none => .skip,
    count SRT_CNT_SHD_APPLIED]

/-- The bank that applies is finished. -/
def bankFinish : Upd := .read fun s => whenU (s.flag SRT_EPOCH_APPLYING) (seqs [
  forEach s.b.srt.applying fun e => bankApply s.b.srt.applying e.1 e.2,
  updSrt fun x => { x with applying := [] }, set SRT_EPOCH_APPLYING 0, raise 11 17])

/-- BANK_APPLY_DONE (R526). -/
def bankApplyDone : Upd := bankFinish

/-- A write of SRT_DRAIN_CTRL (R529). Between two commands no update is at stages 2 to 7, so the oldest epoch in flight is the
one in force. -/
def drainCtrlHook (v : Nat) : Upd := .seq (set SRT_DRAIN_CTRL_REQ 0) (whenU (bit v 31) (.read fun s => seqs [
  setReg SRT_DRAIN_STAT (2 ^ 31 + s.get SRT_EPOCH_EPOCH)]))

/-- SRT_DRAIN_DONE (R529). -/
def srtDrainDone : Upd := .read fun s => whenU (s.flag SRT_DRAIN_STAT_BUSY) (.seq
  (setReg SRT_DRAIN_STAT (2 ^ 30 + s.get SRT_EPOCH_EPOCH)) (raise 11 18))

/-- SRT_DRAIN_TIMEOUT (R529). -/
def srtDrainTimeout : Upd := .read fun s => whenU (s.flag SRT_DRAIN_STAT_BUSY && s.flag SRT_DRAIN_CTRL_TO_MS) (.seq
  (setReg SRT_DRAIN_STAT (2 ^ 29 + s.get SRT_EPOCH_EPOCH)) (raise 11 18))

/-- A write of SRT_RC_PRELOAD: a start while a preload runs is ignored (R526). -/
def rcPreloadHook (v : Nat) : Upd := .read fun s => .seq (set SRT_RC_PRELOAD_GO 0)
  (whenU (bit v 31 && !s.flag SRT_RC_STAT_PRELOADING) (.seq (set SRT_RC_STAT_PRELOADING 1)
    (updSrt fun x => { x with preload := some (v % 2 ^ 25, min 65536 (max 1 (s.get SRT_RC_PRELOAD_CNT_COUNT))) })))

/-- RC_PRELOAD_DONE (R526, R536): the entries are filled, a banked one as applied. -/
def rcPreloadDone : Upd := .read fun s => match s.b.srt.preload with
  | none => .skip
  | some (start, n) => seqs [
      updSrt fun x => { x with preload := none },
      forN n fun i =>
        let g := (start + i) % 2 ^ 25
        .read fun s => whenU (!(mapGet [] s.b.srt.rc (rcSet g)).any (·.gsid == g)) (
          match mapGet [] s.b.srt.applying g with
          | [] => srtRead (s.rtBase + 16 * g) 4 fun r => match r with
            | .words e => rcFill g e
            | .poison => rtPoison g
            | .refused => .skip
          | e => rcFill g e),
      set SRT_RC_STAT_PRELOADING 0, raise 11 22]

/-- A write of SRT_RC_INV. -/
def rcInvHook : Upd := .seq (updSrt fun x => { x with rc := [] }) (set SRT_RC_STAT_PINNED 0)

/-- A write of SRT_RT_RD_GSID: the entry in force under the current epoch. -/
def rtRdHook (v : Nat) : Upd := .read fun s =>
  let g := v % 2 ^ 25
  let show' (l : List Nat) : Upd := forN 4 fun i => setReg (SRT_RT_RD_DATA i) (l.getD i 0)
  match mapGet [] s.b.srt.applying g with
  | [] => match (mapGet [] s.b.srt.rc (rcSet g)).find? (·.gsid == g) with
    | some w => show' w.entry
    | none => srtRead (s.rtBase + 16 * g) 4 fun r => match r with
      | .words e => show' e
      | .poison => .seq (show' []) (setReg SRT_RT_ERR (2 ^ 30 + g))
      | .refused => show' []
  | e => show' e

/-! ## Window and block -/

/-- Any write to the classification table or a descriptor squashes run-ahead work (R507); EN of a descriptor going to 1 starts
its run state anew, going to 0 stops its sends (R494, R510). `a` lies in the window; `old` is the word before. -/
def srtWindowHook (a old v : Nat) : Upd :=
  let off := a - srtWin
  let d := off / 32
  .seq (updSrt fun x => { x with bad := x.bad.filter (· != srtEntry off) })
  (if off < 0x200000 then .seq (whenU (off % 32 == 0) (
      if bit v 31 ∧ ¬ bit old 31 then seqs [
        store (runAddr d 0) 8 0, updSrt fun x => { x with fresh := d :: x.fresh.filter (· != d) }]
      else whenU (!bit v 31) (updTx d fun x => { x with due := false, busy := false }))) (squashAhead SRT_CNT_SQUASH_CFG)
   else whenU (0x400000 ≤ off && off < 0x480000) (squashAhead SRT_CNT_SQUASH_CFG))

/-- Whether a write of a word of the window is silent: run state words 0 and 1, words 2 and 3 while EN = 1 (R486, R494). -/
def State.srtSilent (s : State) (a : Nat) : Bool :=
  let off := a - srtWin - 0x480000
  0x480000 ≤ a - srtWin && a - srtWin < 0x580000 && (off % 16 < 8 || s.descEn (off / 16))

/-- A silent write of FV raises CFG_REJ. -/
def srtSilentHook (a : Nat) : Upd := whenU (decide (8 ≤ (a - srtWin) % 16)) (raise 11 7)

/-- The check of R516. -/
def State.srtAreasOk (s : State) : Bool :=
  let areas := [(s.rtBase, 2 ^ 29), (s.dlBase, 8 * s.dlSize), (s.storeBase, 2 ^ 24)]
  let inside (x : Nat × Nat) := decide (0x1000000000 ≤ x.1 ∧ x.1 + x.2 ≤ 0x13DFF00000)
  let apart (x y : Nat × Nat) := decide (x.1 + x.2 ≤ y.1 ∨ y.1 + y.2 ≤ x.1)
  match areas with
  | [a, b, c] => inside a && inside b && inside c && apart a b && apart b c && apart a c
  | _ => false

/-- Empty the route and destination list caches. -/
def srtCachesEmpty : Upd := .seq (updSrt fun x => { x with rc := [], dl := [] }) (set SRT_RC_STAT_PINNED 0)

/-- EN = 0 of the block (R510): the queued PDUs go, run-ahead is squashed, held and due sends are discarded. -/
def srtDisable : Upd := .seq
  (updSrt fun x => { x with input := [], bundle := [], pend := [], tx := (x.tx.filter (·.2.gap)).map fun e => (e.1, { e.2 with due := false, busy := false }) })
  (forN 16 fun c => updCan c fun x => { x with rx := x.rx.map fun r => { r with ahead := none } })

/-- Write every cached slot back. -/
def srtWriteBack : Upd := .read fun s => forEach s.b.srt.slots fun e => slotBack e.1

/-- A block reset, before the registers return (R510, R535); `srtKeepEpoch` gives what the reset keeps. -/
def srtReset : Upd := seqs [
  srtDisable, srtWriteBack, bankFinish, srtCachesEmpty,
  updSrt fun x => { x with fill := [], keys := [], preload := none, stage := [], rdAddr := [] }]

end Sys2Proof.Machine
end

