-- ==== Sys2Proof/Machine/CanRows.lean ====
section
/-!
DEFINITION. The events of a CAN channel: arbitration, ends of attempts, bus-off and recovery, received frames
(16_can_protocol.md, 17_can_filters_and_buffers.md).
-/
namespace Sys2Proof.Machine

/-- CAN_INTEGRATED (R375): 11 recessive bits after an enable or a protocol exception. -/
def canIntegrated (c : Fin 16) : Upd := .read fun s =>
  whenU (s.get (CAN_STATUS_STATE c) == 1 && !s.flag (NMC_CH_STAT_TRX_ASLEEP c)) (seqs [set (CAN_STATUS_EXC c) 0, set (CAN_STATUS_ACTIVITY c) 0, canJoin c])

/-- The channel takes part in bus traffic. -/
def State.canActive (s : State) (c : Nat) : Bool := s.get (CAN_STATUS_STATE c) == 2 || s.get (CAN_STATUS_STATE c) == 3

/-- An ECC error the channel itself met in its message RAM: 1 corrected, 2 uncorrectable (R402). -/
def canMramErr (c ecc word : Nat) : Upd := match ecc with
  | 0 => .skip
  | e => .seq (setReg (CAN_MR_ERR c) (e * 2 ^ 30 + word % 2 ^ 15)) (report 9 (some c) (if e = 1 then CE else PM))

/-- Offer the element of highest priority: those of a refused format end first. -/
def canOffer (c : Nat) : Nat → Upd
  | 0 => .skip
  | n + 1 => .read fun s => match s.txChoice c with
    | none => .skip
    | some i =>
      if s.formatBad c i then .seq (endSlot c i 8) (canOffer c n)
      else seqs [
        updCan c fun x => { x with tx := some i },
        set (CAN_STATUS_ACTIVITY c) 2,
        updSlot c i fun x => { x with
          attempts := x.attempts + 1
          ts := s.stamp c 0
          dt := s.devTime
          dtValid := s.flag (CAN_TS_CFG_DT_CAP c) }]

/-- CAN_ARBITRATION (R370, R373): an arbitration opportunity; `ecc` and `word`: an error met in reading the TX element. -/
def canArbitration (c : Fin 16) (ecc : Fin 3) (word : Nat) : Upd := .read fun s =>
  whenU (s.canActive c && s.flag (CELL_STAT_ENABLED 9 c) && (s.canCh c).tx.isNone && !(s.pendingSlots c).isEmpty
      && !s.flag (CAN_CH_MODE_LISTEN c) && !s.flag (CAN_CH_MODE_RESTRICT c) && !s.frozenArg 1 16 c) (
    .seq (canMramErr c ecc word) (whenU (ecc.val != 2) (canOffer c 65)))

/-- The measured loop delay (R368). -/
def canLoopDelay (c : Nat) (dly : Option (Fin 128)) : Upd := match dly with
  | some d => set (CAN_STATUS_LOOP_DLY c) d
  | none => .skip

/-- The attempt on the bus is over. -/
def canTxOver (c : Nat) : Upd := .seq (updCan c fun x => { x with tx := none })
  (.read fun s => .seq (whenU (s.get (CAN_STATUS_ACTIVITY c) == 2) (set (CAN_STATUS_ACTIVITY c) 0))
    (whenU (s.flag (CELL_STAT_DRAINING 9 c)) (canDrained c)))

/-- CAN_TX_SUCCESS (R375, R376): the frame is acknowledged; TEC falls by 1. `dly`: the loop delay measured in the frame. -/
def canTxSuccess (c : Fin 16) (dly : Option (Fin 128)) : Upd := .read fun s => match (s.canCh c).tx with
  | none => .skip
  | some i => seqs [
      canLoopDelay c dly, elementOk 9 c,
      endSlot c i (if (s.slotInfo c i).cancelled then 9 else 1),
      set (CAN_STATUS_ACK_ALONE c) 0, updCan c fun x => { x with ackRun := 0 },
      setCounters c (s.get (CAN_ERRCNT_TEC c) - 1) (s.get (CAN_ERRCNT_REC c)),
      canTxOver c]

/-- Record an error frame. -/
def canErrorSeen (c : Nat) (e : CanError) : Upd :=
  if e.unsignalled then seqs [inc (CAN_EVT_CNT_XL_NOSIG_CNT c), set (CAN_STATUS_EXC c) 1, canState c 1]
  else seqs [
    inc (CAN_EVT_CNT_ERR_FRAMES c),
    set (if e.dataPhase then CAN_STATUS_LAST_ERR_DATA c else CAN_STATUS_LAST_ERR c) e.code]

/-- CAN_TX_ERROR (R373, R375 to R378): an attempt ends in an error, or loses arbitration (`e` none). -/
def canTxError (c : Fin 16) (e : Option CanError) (dly : Option (Fin 128)) : Upd := .read fun s => match (s.canCh c).tx with
  | none => .skip
  | some i =>
    let x := s.slotInfo c i
    let lim := bits (s.slotWord c i 0) 23 20
    let counts := e.isSome || s.flag (CAN_TX_CFG_ARB_CNT c)
    let failed := x.failed + counts.toNat
    let spent := counts && lim != 15 && decide (1 + lim ≤ failed)
    let ack := e.any fun e => e.code.val == 1 && !e.unsignalled
    let run := if ack then (s.canCh c).ackRun + 1 else 0
    let tec := s.get (CAN_ERRCNT_TEC c)
    let passive := s.get (CAN_STATUS_STATE c) == 3
    let step := match e with
      | none => 0
      | some e => if e.unsignalled ∨ (e.code.val = 1 ∧ passive ∧ ¬ e.dominant) ∨ (e.code.val = 4 ∧ ¬ e.heavy) then 0 else 8
    seqs [
      canLoopDelay c dly,
      match e with | some e => canErrorSeen c e | none => .skip,
      updSlot c i fun x => { x with failed := failed },
      if s.flag (CELL_STAT_DRAINING 9 c) then endSlot c i 6
      else if x.cancelled then endSlot c i 5
      else whenU spent (endSlot c i (match e with | none => 4 | some _ => if ack then 2 else 3)),
      updCan c fun x => { x with ackRun := run, tx := none },
      whenU (run == 16) (.seq (set (CAN_STATUS_ACK_ALONE c) 1) (raiseCan c 6)),
      whenU (step != 0) (setCounters c (tec + step) (s.get (CAN_ERRCNT_REC c))),
      canTxOver c]

/-- CAN_BO_DELAY_EXPIRY (R379). -/
def canBoDelayExpiry (c : Fin 16) : Upd := .read fun s =>
  whenU (s.get (CAN_STATUS_STATE c) == 4 && s.flag (CAN_BO_CFG_AUTO c)) (.seq (canState c 5) (set (CAN_BO_STAT_SEQ_CNT c) 0))

/-- A write of CAN_BO_CTRL: RECOVER (R379). -/
def canBoCtrlHook (c v : Nat) : Upd := .read fun s => .seq (set (CAN_BO_CTRL_RECOVER c) 0)
  (whenU (bit v 0 && s.get (CAN_STATUS_STATE c) == 4) (.seq (canState c 5) (set (CAN_BO_STAT_SEQ_CNT c) 0)))

/-- CAN_RECOVERY_DONE (R379, R380): the 128th sequence. -/
def canRecoveryDone (c : Fin 16) : Upd := .read fun s => whenU (s.get (CAN_STATUS_STATE c) == 5) (seqs [
  set (CAN_BO_STAT_SEQ_CNT c) 128, set (CAN_ERRCNT_TEC c) 0, set (CAN_ERRCNT_REC c) 0, set (CAN_STATUS_WARN c) 0,
  set (CAN_STATUS_ACTIVITY c) 0, canState c 2, raiseCan c 5])

/-- A write of CAN_BO_CFG: DISCARD set during bus-off or recovery (R378). -/
def canBoCfgHook (c v old : Nat) : Upd := .read fun s =>
  whenU (bit v 30 && !bit old 30 && s.discarding c) (forEach (s.pendingSlots c) fun i => endSlot c i 7)

/-- Protocol exception handling of a format that the mode does not allow (R365). -/
def canException (c : Nat) : Upd := .read fun s => seqs [
  whenU ((s.canCh c).rx.any fun r => r.ahead.isSome) (count SRT_CNT_SQUASH_ERR),
  set (CAN_STATUS_EXC c) 1, inc (CAN_EVT_CNT_EXC_CNT c), raiseCan c 7, canState c 1,
  updCan c fun x => { x with rx := none }]

/-- A received frame ends in an error. -/
def canRxError (c : Nat) (e : CanError) : Upd := .read fun s => seqs [
  canErrorSeen c e,
  whenU ((s.canCh c).rx.any fun r => r.ahead.isSome) (count SRT_CNT_SQUASH_ERR),
  updCan c fun x => { x with rx := none },
  whenU (!e.unsignalled && !s.flag (CAN_CH_MODE_RESTRICT c))
    (setCounters c (s.get (CAN_ERRCNT_TEC c)) (min 255 (s.get (CAN_ERRCNT_REC c) + if e.heavy then 8 else 1)))]

/-- CAN_ERROR_DETECTED (R375): `exc`: the received frame is of a format that the mode does not allow (R365). -/
def canErrorDetected (c : Fin 16) (e : CanError) (exc : Bool) : Upd := .read fun s => whenU (s.canActive c) (
  if exc then (if s.flag (CAN_CH_MODE_EXC_OFF c) then canRxError c { e with code := 3 } else canException c)
  else canRxError c e)

/-- CAN_DOM_TIMEOUT (R382). -/
def canDomTimeout (c : Fin 16) : Upd := .read fun s => whenU (s.flag (CELL_STAT_ENABLED 9 c) || s.flag (CELL_STAT_DRAINING 9 c)) (seqs [
  inc (CAN_EVT_CNT_DOM_TO_CNT c), raiseCan c 9, report 9 (some c) TR])

/-- CAN_ARB_FIELD_FILTER (R393, R506): the arbitration field (AF for XL) of a received frame is complete, its start of frame
`ago` nanoseconds back. -/
def canArbFieldFilter (c : Fin 16) (f : CanFrame) (ago : Nat) (ecc : Fin 3) (word : Nat) : Upd := .read fun s =>
  let own := s.get (CAN_CH_MODE_LOOP c) == 1 || s.get (CAN_CH_MODE_LOOP c) == 2
  whenU (s.canActive c && s.flag (CELL_STAT_ENABLED 9 c) && ((s.canCh c).tx.isNone || own)) (
    if (f.fmt.val = 1 ∧ ¬ s.flag (CAN_CH_MODE_FD_EN c)) ∨ (f.fmt.val = 2 ∧ ¬ s.flag (CAN_CH_MODE_XL_EN c)) then
      (if s.flag (CAN_CH_MODE_EXC_OFF c) then canRxError c ⟨3, false, false, false, false⟩ else canException c)
    else
      let dtv := s.flag (CAN_TS_CFG_DT_CAP c)
      let r := s.filterFrame c f (s.stamp c ago) (s.devTime - ago) dtv
      let ahead := r.router && bit (s.get SRT_SRC_CFG_RUNAHEAD) c && s.flag (BLK_STAT_ENABLED 11)
      .seq (canMramErr c ecc word) (whenU (ecc.val != 2) (seqs [
        whenU (s.canCh c).tx.isNone (set (CAN_STATUS_ACTIVITY c) 1), prioMatched c r,
        updCan c fun x => { x with rx := some { r with ahead := if ahead then some (s.get SRT_EPOCH_EPOCH) else none } },
        whenU ahead (aheadWork (framePdu c f []))])))

/-- The receive error counter after a frame received without error: ISO 11898-1 sets one above 127 to a value between 119 and
127, which is a free value. -/
def recDown (rec : Nat) (k : Nat → Upd) : Upd := if rec ≤ 127 then k (rec - 1) else free fun v => k (119 + v % 9)

/-- CAN_FRAME_VALID (R396): the received frame becomes valid with its data. -/
def canFrameValid (c : Fin 16) (data : List Byte) : Upd := .read fun s => match (s.canCh c).rx with
  | none => .skip
  | some r =>
    let d := fit (frameLen r.f.fmt r.f.dlc r.f.rmt) data
    seqs [
      updCan c fun x => { x with rx := none }, elementOk 9 c,
      whenU ((s.canCh c).tx.isNone) (set (CAN_STATUS_ACTIVITY c) 0),
      whenU (!s.flag (CAN_CH_MODE_RESTRICT c) && (s.canCh c).tx.isNone)
        (recDown (s.get (CAN_ERRCNT_REC c)) fun v => setCounters c (s.get (CAN_ERRCNT_TEC c)) v),
      nmOfferCan c r.f d,
      whenU r.router (pduPush ⟨c, r.f.ext, r.f.id, d, r.ahead.isSome⟩),
      whenU ((r.target != 0 && !s.savedCan c) || r.router) (rxPlace c (if s.savedCan c then { r with target := 0 } else r) d)]

/-- A write of CAN_TXBUF_STOP (R372). -/
def txStopHook (c v : Nat) : Upd := forN 32 fun b => whenU (bit v b) (cancelSlot c b)

/-- A write of CAN_TXQ_STOP (R400). -/
def txqStopHook (c v : Nat) : Upd := forN 32 fun q => whenU (bit v q) (cancelSlot c (32 + q))

/-- A write of CAN_RXBUF_NEW_LO or _HI (R398). -/
def rxNewHook (c v base : Nat) : Upd := forN 32 fun b => whenU (bit v b) (rxAck c 3 (base + b))

end Sys2Proof.Machine
end

