-- ==== Sys2Proof/Machine/Sni.lean ====
section
/-!
DEFINITION. The sense inputs and the publishing of load channels and inputs as signals (15_sense_inputs.md, R295).
-/
namespace Sys2Proof.Machine

def updSni (n : Nat) (f : SniIn → SniIn) : Upd := upd fun b => { b with sni := mapPut {} b.sni n (f (mapGet {} b.sni n)) }

/-- Publish input `n` (R360). -/
def sniPublishNow (n : Nat) : Upd := .read fun s => sigInternal (s.devNum * 2 ^ 25 + s.get (SNI_IN_PUB_GSID n)) (s.reg (SNI_IN_VAL n))

/-- The comparison of R357: at or above THR_HI, at or below THR_LO, or as before. -/
def State.sniCompare (s : State) (n v : Nat) (r : Bool) : Bool :=
  let hi := s.get (SNI_IN_THR_THR_HI n)
  if hi ≤ v then true else if v ≤ min hi (s.get (SNI_IN_THR_THR_LO n)) then false else r

/-- y of the IIR filter after a raw value, with 4 fraction bits. -/
def iirStep (frac k y raw : Nat) : Nat :=
  (((y : Int) * 2 ^ k + ((raw * 2 ^ frac : Nat) : Int) - (y : Int)) / 2 ^ k).toNat

/-- STATE of an input takes a value (R358). -/
def sniState (n : Nat) (st : Bool) : Upd := .read fun s =>
  let (reg, chg, en, i) := if n < 32 then (SNI_STATE_LO, SNI_CHG_LO, SNI_CHG_EN_LO, n) else (SNI_STATE_HI, SNI_CHG_HI, SNI_CHG_EN_HI, n - 32)
  whenU (s.flag (SNI_IN_VAL_STATE n) != st) (seqs [
    set (SNI_IN_VAL_STATE n) st.toNat, putBit reg i st, setBit chg i, whenU (s.bitAt en i) (raise 20 0)])

/-- SNI_SAMPLE_DUE (R354 to R358): input `n` falls due and its sample completes with a raw value; `late`: it started more than
10 µs after its due time. A first value between the thresholds leaves r open: a free value. -/
def sniSampleDue (n : Fin 48) (raw : Fin 4096) (late : Bool) : Upd := .read fun s =>
  let x := mapGet {} s.b.sni n.val
  let filt := s.get (SNI_IN_FILT_FILT n)
  let p := s.get (SNI_IN_FILT_FPARAM n)
  let k := min 8 (max 1 p)
  let y : Nat := if x.first then raw.val * 16 else iirStep 4 k x.y raw
  let v : Nat := if filt = 1 then y / 16 else raw.val
  let open' := decide (x.first ∧ s.sniCompare n v true ≠ s.sniCompare n v false)
  whenU (s.flag (SNI_IN_CFG_EN n) && s.flag (BLK_STAT_ENABLED 20)) (free' open' fun b =>
    let r := s.sniCompare n v (if x.first then b else x.r)
    let run := if r = x.out then 0 else x.run + 1
    let out := if x.first ∨ filt ≠ 0 ∨ max 1 p ≤ run then r else x.out
    let st := out != s.flag (SNI_IN_THR_INVERT n)
    seqs [
      whenU late (.seq (count SNI_OVERRUN) (raise 20 1)),
      set (SNI_IN_RAW_LAST n) raw, set (SNI_IN_VAL_VALUE n) v, set (SNI_IN_VAL_VALID n) 1,
      updSni n fun _ => ⟨r, out, if out = r then 0 else run, y, false⟩,
      sniState n st,
      whenU (s.flag (SNI_IN_VAL_STATE n) != st && s.flag (SNI_IN_PUB_EN n) && s.flag (SNI_IN_PUB_ON_CHG n)) (sniPublishNow n)])
where
  /-- A free bit where one is needed. -/
  free' (c : Bool) (k : Bool → Upd) : Upd := if c then free fun v => k (v % 2 == 1) else k false

/-- SNI_CONV_TIMEOUT (R355). -/
def sniConvTimeout (n : Fin 48) : Upd := .read fun s =>
  whenU (s.flag (SNI_IN_CFG_EN n) && s.flag (BLK_STAT_ENABLED 20)) (seqs [
    set (SNI_IN_VAL_VALID n) 0, raise 20 2, report 20 none TR])

/-- SNI_PUBLISH (R360): the period of an input has passed. -/
def sniPublish (n : Fin 48) : Upd := .read fun s =>
  whenU (s.flag (SNI_IN_PUB_EN n) && s.flag (SNI_IN_PUB_CFG_PERIOD_MS n) && s.flag (SNI_IN_CFG_EN n) && s.flag (BLK_STAT_ENABLED 20))
    (sniPublishNow n)

/-- An input starts as at enable. -/
def sniStart (n : Nat) : Upd := updSni n fun _ => {}

/-- A write of register `w` (0 CFG, 2 THR, 3 FILT) of input `n` (R361). -/
def sniConfigHook (n w old v : Nat) : Upd := match w with
  | 0 => seqs [
      whenU (bit v 31 && (!bit old 31 || bits old 15 13 != bits v 15 13)) (sniStart n),
      whenU (!bit v 31) (set (SNI_IN_VAL_VALID n) 0)]
  | 2 => .read fun s => whenU (s.reg (SNI_IN_THR n) != old) (updSni n fun x => { x with run := 0 })
  | 3 => .read fun s => whenU (s.reg (SNI_IN_FILT n) != old) (sniStart n)
  | _ => .skip

/-- SNI is enabled: every enabled input starts as at enable; disabled: VALID reads 0. -/
def sniEnabled : Upd := upd fun b => { b with sni := [] }
def sniDisabled : Upd := forN 48 fun n => set (SNI_IN_VAL_VALID n) 0

/-- CHANNEL_PUBLISH (R295). -/
def channelPublish (g : Fin 64) : Upd := .read fun s =>
  let base := s.get (LSW_CH_PUBLISH_GSID_BASE g)
  let addr := s.devNum * 2 ^ 25 + base
  whenU (decide (base ≤ 0x1FFFFFD)) (seqs [
    whenU (s.flag (LSW_CH_PUBLISH_EN_I g)) (sigInternal addr (2 * s.get (LSW_CH_STATUS1_I_AVG g))),
    whenU (s.flag (LSW_CH_PUBLISH_EN_V g)) (.read fun s => sigInternal (addr + 1) (10 * s.get (LSW_CH_STATUS1_V_OUT g))),
    whenU (s.flag (LSW_CH_PUBLISH_EN_T g)) (.read fun s => sigInternal (addr + 2) ((s.tj g + 2 ^ 32 - 64) % 2 ^ 32))])

end Sys2Proof.Machine
end

