-- ==== Sys2Proof/Machine/Swc.lean ====
section
/-!
DEFINITION. The switch core: tables, the decision, planes and matching, admission, gate lists, transmission, drains and immediate
retire; the tunnel's sending side (20_switch_core.md, R578).
-/
namespace Sys2Proof.Machine

/-! ## Tables (R450, R451) -/

def State.swcEntry (s : State) (table i : Nat) : List Nat :=
  let x := s.b.swq
  if x.bad.contains (table, i) then [0, 0, 0, 0] else
  match table with | 0 => mapGet [] x.vlan i | 1 => mapGet [] x.fdb i | 2 => mapGet [] x.grp i | _ => mapGet [] x.strm i

/-- Word `w` of an entry. -/
def State.swcWord (s : State) (table i w : Nat) : Nat := (s.swcEntry table i).getD w 0

/-- Set an entry's words; an entry of zeros is not listed. -/
def setEntry (table i : Nat) (l : List Nat) : Upd :=
  let e := if l.all (· == 0) then [] else l
  updSw fun x => match table with
    | 0 => { x with vlan := mapPut [] x.vlan i e }
    | 1 => { x with fdb := mapPut [] x.fdb i e }
    | 2 => { x with grp := mapPut [] x.grp i e }
    | _ => { x with strm := mapPut [] x.strm i e }

/-- The FDB bucket of a key. -/
def fdbBucket (mac fid : Nat) : Nat := crcMsb 16 0x1021 0 (beBytes 6 mac ++ beBytes 2 fid) % 8192

/-- The index of a key's entry in the FDB. -/
def State.fdbFind (s : State) (mac fid : Nat) : Option Nat :=
  ((List.range 4).map (4 * fdbBucket mac fid + ·)).find? fun i =>
    let w1 := s.swcWord 1 i 1
    bit w1 31 && bits w1 27 16 == fid && s.swcWord 1 i 0 + 2 ^ 32 * bits w1 15 0 == mac

/-- A free way of a key's bucket. -/
def State.fdbFree (s : State) (mac fid : Nat) : Option Nat :=
  ((List.range 4).map (4 * fdbBucket mac fid + ·)).find? fun i => !bit (s.swcWord 1 i 1) 31

/-- Learn a unicast source address (R450). -/
def fdbLearn (mac fid p : Nat) : Upd := .read fun s =>
  let used (i : Nat) : Upd := updSw fun x => { x with used := mapPut 0 x.used i s.now }
  whenU (mac / 2 ^ 40 % 2 == 0) (match s.fdbFind mac fid with
  | some i =>
    let w1 := s.swcWord 1 i 1
    .seq (used i) (whenU (!bit w1 30 && (bit w1 28 || bits (s.swcWord 1 i 2) 11 0 != p)) (setEntry 1 i [s.swcWord 1 i 0, withBits w1 29 28 0, p, 0]))
  | none => match s.fdbFree mac fid with
    | some i => seqs [
        setEntry 1 i [mac % 2 ^ 32, 2 ^ 31 + fid * 2 ^ 16 + mac / 2 ^ 32, p, 0], used i, inc SWC_LEARN_CNT_LEARNED,
        updSw fun x => { x with bad := x.bad.filter (· != (1, i)) }]
    | none => .seq (inc SWC_LEARN_CNT_LEARN_FAIL) (raise 8 2))

/-! ## Discarding copies -/

/-- Remove outputs of a frame from the staging: a head cell that no output needs any more is gone. -/
def unstage (fid : Nat) (p : Nat) : Upd := updSw fun x => { x with
  stage := x.stage.map fun e => (e.1, (e.2.map fun g =>
    if g.fid = fid then
      let outs := g.outs.filter (· != p)
      let need := g.need.filter (· != p)
      if outs.isEmpty then { g with cells := 0, outs := [], need := [] }
      else if g.cells ≠ 0 ∧ need.isEmpty then { g with outs := outs, cells := g.cells - 1, need := outs }
      else { g with outs := outs, need := need }
    else g).filter fun g => !g.outs.isEmpty) }

/-- Discard the queued copies of port `p` that a test names, with `each`. -/
def dropWith (p : Nat) (test : Nat → SwCopy → Bool) (each : Upd) : Upd := forN 8 fun t => .read fun s =>
  let gone := (s.outQ p t).filter (test t)
  seqs [
    forEach gone fun c => seqs [freeCells c.cells, unstage c.fid p, each],
    updSw fun x => { x with out := mapPut [] x.out (8 * p + t) ((s.outQ p t).filter fun c => !test t c) }]

/-- Discard them, counting each. -/
def dropCopies (p : Nat) (cnt : Nat) (test : Nat → SwCopy → Bool) : Upd := dropWith p test (count cnt)

/-- A frame fails after its decision (R457); what is still to come of it is discarded at the ingress (R458). -/
def cutAbort (fid : Nat) : Upd := .read fun s => match s.frame fid with
  | none => .skip
  | some f => seqs [
      forN 25 fun p => seqs [
        dropCopies p (SWC_OUT_CUT_ABORT p) fun _ c => c.fid == fid,
        .read fun s => match mapGet none s.b.swq.tx p with
        | some c => whenU (c.fid == fid) (seqs [
            freeCells c.cells, unstage fid p, count (SWC_OUT_CUT_ABORT p),
            updSw fun x => { x with tx := mapPut none x.tx p none }])
        | none => .skip],
      count (SWC_IN_CUT_ABORT f.port),
      updSw fun x => { x with stage := x.stage.map fun e => (e.1, e.2.filter (·.fid != fid)), frames := mapPut none x.frames fid none, cut := if f.isOpen then f.port :: x.cut else x.cut }]

/-- The frame under way at port `p` has ended: nothing of it is still to come. -/
def cutEnds (p : Nat) : Upd := updSw fun x => { x with cut := x.cut.filter (· != p) }

/-! ## The plane of a frame (R448, R449) -/

/-- The IP part of a frame: version, offset of its header, header length, protocol where its ports may be read. -/
def ipOf (f : Frame) : Option (Nat × Nat × Nat × Nat × Bool) :=
  let o := typeAt f + 2
  let b (i : Nat) : Nat := ((f[o + i]?).getD 0).toNat
  if at16 f (typeAt f) = 0x0800 ∧ b 0 / 16 = 4 then
    some (4, o, 4 * (b 0 % 16), b 9, decide ((b 6 * 256 + b 7) % 2 ^ 14 = 0))
  else if at16 f (typeAt f) = 0x86DD ∧ b 0 / 16 = 6 then some (6, o, 40, b 6, true)
  else none

/-- The hash H. -/
def swHash (fields vid : Nat) (f : Frame) (strm : Option Nat) : Nat :=
  let on (i : Nat) := bit fields (i - 1)
  let part (o n : Nat) : List Byte := (f.drop o).take n
  let ip : List Byte := match ipOf f with
    | some (4, o, _, _, _) => part (o + 12) 8 ++ part (o + 9) 1
    | some (_, o, _, _, _) => part (o + 8) 32 ++ part (o + 6) 1
    | none => []
  let l4 : List Byte := match ipOf f with
    | some (_, o, n, proto, whole) => if whole ∧ (proto = 6 ∨ proto = 17) then part (o + n) 4 else []
    | none => []
  crcMsb 16 0x1021 0xFFFF ((if on 1 then part 0 6 else []) ++ (if on 2 then part 6 6 else []) ++ (if on 3 then beBytes 2 vid else [])
    ++ (if on 4 then part (typeAt f) 2 else []) ++ (if on 5 then ip else []) ++ (if on 6 then l4 else [])
    ++ (if on 7 then beBytes 2 (strm.getD 0) else []))

/-- The plane map and hash fields that decisions use. -/
def State.planeMap (s : State) : List Nat × Nat :=
  s.b.swq.pmap.getD ((List.range 8).map fun j => s.reg (SWC_PMAP j), s.get SWC_HASH_CFG_FIELDS)

/-- The plane of a frame. -/
def State.planeOf (s : State) (vid : Nat) (f : Frame) (strm : Option Nat) : Nat :=
  let h := swHash s.planeMap.2 vid f strm
  let m := (h / 256) ^^^ (h % 256)
  (bit (s.planeMap.1.getD (m / 32) 0) (m % 32)).toNat

/-- A write of SWC_PMAP[j] or SWC_HASH_CFG (`j` = 8): decisions keep the values from before (R449). -/
def pmapHook (j old : Nat) : Upd := .read fun s => .seq (set SWC_PMAP_STAT_PENDING 1)
  (let keep : List Nat × Nat :=
    ((List.range 8).map fun i => if i = j then old else s.reg (SWC_PMAP i), if j = 8 then bits old 7 1 else s.get SWC_HASH_CFG_FIELDS)
  whenU s.b.swq.pmap.isNone (updSw fun x => { x with pmap := some keep }))

/-- PMAP_APPLY (R449): no staging holds a cell of an older decision. -/
def pmapApply : Upd := .read fun s => whenU (s.flag SWC_PMAP_STAT_PENDING && s.b.swq.stage.all fun e => e.2.isEmpty)
  (.seq (set SWC_PMAP_STAT_PENDING 0) (updSw fun x => { x with pmap := none }))

/-! ## Policers (R453) -/

/-- Word `w` of policer `n`. -/
def State.polWord (s : State) (n w : Nat) : Nat := s.load (0x38800000 + 16 * n + 4 * w) 4

/-- The buckets of a policer now, in units in which CIR and EIR are what one FAB_CLK cycle adds: 150,000 to a byte. -/
def State.polBuckets (s : State) (n : Nat) : Nat × Nat :=
  let cbs := bits (s.polWord n 2) 23 0 * 150000
  let ebs := bits (s.polWord n 3) 23 0 * 150000
  match mapGet none s.b.swq.pol n with
  | none => (cbs, ebs)
  | some (tc, te, t) =>
    let dt := s.now - t
    let c := tc + dt * bits (s.polWord n 0) 23 0
    let e := te + dt * bits (s.polWord n 1) 23 0 + (if bit (s.polWord n 0) 29 then c - cbs else 0)
    (min cbs c, min ebs e)

/-- Colour a frame of `len` bytes: 0 green, 1 yellow, 2 red; none where it is dropped. -/
def policer (n len : Nat) (declared : Bool) (k : Option Nat → Upd) : Upd := .read fun s =>
  let w0 := s.polWord n 0
  let (tc, te) := s.polBuckets n
  let l := len * 150000
  let save (a b : Nat) : Upd := updSw fun x => { x with pol := mapPut none x.pol n (some (a, b, s.now)) }
  if l ≤ tc ∧ (¬ bit w0 30 ∨ ¬ declared) then .seq (save (tc - l) te) (k (some 0))
  else if l ≤ te then
    if bit w0 28 then k none else .seq (save tc (te - l)) (k (some 1))
  else if bit w0 27 then k (some 2) else k none

/-! ## Admission (R454, R455) -/

def State.queueWord (s : State) (q w : Nat) : Nat :=
  let a := 0x38804200 + 8 * q + 4 * w
  s.load a 4

/-- Cells that a queue holds, reservations included. -/
def State.queueCells (s : State) (q : Nat) : Nat := (mapGet [] s.b.swq.out q).foldl (fun n c => n + c.cells) 0

/-- The average after one step towards `q` cells, with 8 fraction bits. -/
def avgStep (a w q : Nat) : Nat := (((a : Int) * 2 ^ w + ((q * 256 : Nat) : Int) - (a : Int)) / 2 ^ w).toNat

/-- The threshold T of a profile at average `a`. -/
def State.wredT (s : State) (prof a : Nat) : Nat :=
  let w0 := s.load (0x38804000 + 8 * prof) 4
  let lo := bits w0 16 0
  let hi := max lo (bits (s.load (0x38804000 + 8 * prof + 4) 4) 16 0)
  if a < lo * 256 then 0
  else if hi * 256 ≤ a then 256
  else bits w0 31 24 * (a - lo * 256) / ((hi - lo) * 256)

/-- The ECN field of a frame's IP header is 01 or 10. -/
def ecnCapable (f : Frame) : Bool := match ipOf f with
  | some (4, o, _, _, _) => let e := ((f[o + 1]?).getD 0).toNat % 4; e == 1 || e == 2
  | some (_, o, _, _, _) => let e := ((f[o + 1]?).getD 0).toNat / 16 % 4; e == 1 || e == 2
  | none => false

/-- Test one output (R455): the copy's ECN mark where it is queued. -/
def admitCopy (p t cells colour : Nat) (f : Frame) (k : Option Bool → Upd) : Upd := .read fun s =>
  let q := 8 * p + t
  let w0 := s.queueWord q 0
  let held := s.queueCells q
  if ¬ s.portOn p then .seq (count (SWC_OUT_UNAVAIL p)) (k none) else
  let a := avgStep (mapGet 0 s.b.swq.avg q) (bits w0 27 24) held
  .seq (updSw fun x => { x with avg := mapPut 0 x.avg q a }) (
    if s.get SWC_BUF_STAT_FREE < cells ∨ bits (s.queueWord q 1) 16 0 < held + cells then .seq (count (SWC_OUT_FULL_DROP p)) (k none)
    else
      let th := s.wredT (match colour with | 0 => bits w0 5 0 | 1 => bits w0 11 6 | _ => bits w0 17 12) a
      if th = 0 then .seq (count (SWC_OUT_FRAMES p)) (k (some false))
      else if th = 256 then .seq (count (SWC_OUT_WRED_DROP p)) (k none)
      else free fun r =>
        if th ≤ r % 256 then .seq (count (SWC_OUT_FRAMES p)) (k (some false))
        else if bit w0 31 ∧ ecnCapable f then seqs [count (SWC_OUT_ECN_MARK p), count (SWC_OUT_FRAMES p), k (some true)]
        else .seq (count (SWC_OUT_WRED_DROP p)) (k none))

/-! ## The decision (R444, R445) -/

/-- What steps 1 to 7 decide on a frame. -/
structure Decision where
  vid : Nat
  outs : List Nat
  tc : Nat
  colour : Nat
  strm : Option Nat
  mFdb : Option Nat
  mGrp : Option Nat
  mStr : Option Nat

/-- Step 7: the outputs that isolation leaves (R446). -/
def isoKeep (p o : Nat) : Bool :=
  let ext (x : Nat) := decide (x < 20)
  !(ext o && (ext p || p == 24)) && !(o == 24 && ext p)

def portsOf (m : Nat) : List Nat := (List.range 25).filter fun p => bit m p

/-- The stream of a frame by the FDB hit or the port's default. -/
def State.streamOf (s : State) (p : Nat) (hit : Option Nat) : Option Nat :=
  match hit with
  | some i => if bit (s.swcWord 1 i 2) 31 then some (bits (s.swcWord 1 i 2) 25 16)
    else if s.flag (SWC_PORT_CFG_DEF_STREAM_EN p) then some (s.get (SWC_PORT_CFG_DEF_STREAM p)) else none
  | none => if s.flag (SWC_PORT_CFG_DEF_STREAM_EN p) then some (s.get (SWC_PORT_CFG_DEF_STREAM p)) else none

/-- The VID of a frame at port `p`. -/
def State.vidOf (s : State) (p : Nat) (f : Frame) : Nat :=
  let v := at16 f 14 % 4096
  if at16 f 12 = 0x8100 ∧ v ≠ 0 then v else s.get (SWC_PORT_VLAN_PVID p)

/-- The FDB hit of a frame. -/
def State.daHit (s : State) (p : Nat) (f : Frame) : Option Nat :=
  s.fdbFind (beValue (f.take 6)) (bits (s.swcWord 0 (s.vidOf p f) 2) 11 0)

/-- Steps 1 to 7 for a frame at port `p`; `k` gets the decision, or none where the frame is dropped. -/
def swSteps (p : Nat) (q : Option Nat) (f : Frame) (k : Option Decision → Upd) : Upd := .read fun s =>
  let vid := s.vidOf p f
  let v0 := s.swcWord 0 vid 0
  let member := bits v0 24 0
  let fid := bits (s.swcWord 0 vid 2) 11 0
  let da := beValue (f.take 6)
  let sa := beValue ((f.drop 6).take 6)
  let tagged := decide (at16 f 12 = 0x8100)
  let declared := tagged && bit (at16 f 14) 12 && s.flag (SWC_PORT_CFG_TRUST_DEI p)
  let vlanDrop : Upd := .seq (count (SWC_IN_VLAN_DROP p)) (k none)
  let iso (d : Decision) : Upd :=
    let outs := if s.flag SWC_ISO_STAT_ISOLATED then d.outs.filter (isoKeep p) else d.outs
    .seq (whenU (outs.length != d.outs.length) (count (SWC_IN_ISO_DROP p))) (k (if outs.isEmpty then none else some { d with outs := outs }))
  if ¬ bit v0 31 ∨ (s.flag (SWC_PORT_CFG_INGR_FILT p) ∧ ¬ bit member p) then vlanDrop
  else if da / 16 = 0x0180C200000 ∧ (s.fdbFind da fid).isNone then iso ⟨vid, [20], 7, declared.toNat, s.streamOf p none, none, none, none⟩
  else .seq (whenU (s.flag (SWC_PORT_CFG_LEARN p) && bit v0 30) (fdbLearn sa fid p)) (.read fun s =>
    let hit := s.fdbFind da fid
    let w1 (i : Nat) := s.swcWord 1 i 1
    let all := decide (da = 2 ^ 48 - 1)
    let grp := hit.bind fun i => if bit (w1 i) 28 && !all then some (bits (s.swcWord 1 i 2) 11 0) else none
    let set0 := if all then member else match hit with
      | some i => (match grp with
        | some g => if bit (s.swcWord 2 g 0) 31 then bits (s.swcWord 2 g 0) 24 0 else 0
        | none => 2 ^ bits (s.swcWord 1 i 2) 11 0)
      | none => member
    let outs := (portsOf (set0 &&& member)).filter fun o => o != p || s.flag (SWC_PORT_CFG_HAIRPIN p)
    let strm := s.streamOf p hit
    let n := f.length + 4
    let base := declared.toNat
    let pcp := if tagged then at16 f 14 / 8192 else q.getD (s.get (SWC_PORT_PRI_DEF_PCP p))
    let tc0 := bits (s.get (SWC_PORT_PRI_PCP_MAP p)) (3 * pcp + 2) (3 * pcp)
    let filt := strm.bind fun h => if bit (s.swcWord 3 h 0) 31 then some h else none
    let tc := match filt with
      | some h => if bit (s.swcWord 3 h 2) 31 then bits (s.swcWord 3 h 2) 2 0 else tc0
      | none => tc0
    let mark (c : Option Nat) (w : Nat → Nat) (b : Nat) := c.bind fun i => if bit (w i) b then some i else none
    let done (colour : Nat) : Upd := iso ⟨vid, outs, tc, colour, strm, mark hit w1 29, mark grp (fun g => s.swcWord 2 g 0) 30,
      mark filt (fun h => s.swcWord 3 h 0) 30⟩
    if outs.isEmpty then vlanDrop
    else match filt with
    | none => done base
    | some h =>
      let w0 := s.swcWord 3 h 0
      let sdu := bits w0 13 0
      if bit w0 28 then .seq (count (SWC_IN_SDU_DROP p)) (k none)
      else if sdu ≠ 0 ∧ sdu < n then seqs [
        count (SWC_IN_SDU_DROP p),
        whenU (bit w0 29) (setEntry 3 h [withBits w0 28 28 1, s.swcWord 3 h 1, s.swcWord 3 h 2]), k none]
      else if bit (s.swcWord 3 h 1) 31 ∧ bit (s.polWord (bits (s.swcWord 3 h 1) 9 0) 0) 31 then
        policer (bits (s.swcWord 3 h 1) 9 0) n declared fun r => match r with
          | some c => done c
          | none => .seq (count (SWC_IN_POL_DROP p)) (k none)
      else done base)

/-- Cells enter the staging of a frame's plane: one that finds it full ends the frame (R443, R458). -/
def stageCells (fid plane p n : Nat) (outs : List Nat) : Upd := .read fun s =>
  let key := 32 * plane + p
  let l := mapGet [] s.b.swq.stage key
  if 256 < l.foldl (fun a g => a + g.cells) 0 + n then seqs [count (SWC_IN_STAGE_OVF p), raise 8 3, cutAbort fid]
  else
    let l' := if l.any (·.fid == fid) then l.map fun g => if g.fid = fid then { g with cells := g.cells + n } else g
      else l ++ [⟨fid, n, outs, outs, decide (1 < outs.length)⟩]
    updSw fun x => { x with stage := mapPut [] x.stage key l' }

/-- Admission at every output in turn: `k` gets the outputs that take a copy and their marks. -/
def admitAll (d : Decision) (cells : Nat) (f : Frame) : List Nat → List (Nat × Bool) → (List (Nat × Bool) → Upd) → Upd
  | [], acc, k => k acc
  | o :: os, acc, k => admitCopy o d.tc cells d.colour f fun r => match r with
    | some e => admitAll d cells f os (acc ++ [(o, e)]) k
    | none => admitAll d cells f os acc k

/-- SWITCH_DECISION (R445): a frame of `data`, whole or cut-through, is decided. -/
def swDecide (p : Nat) (q : Option Nat) (data : Frame) (isOpen : Bool) (time : Nat) : Upd := .read fun s =>
  let cells := if isOpen then cellsOf (s.maxLen p) else cellsOf data.length
  .seq (count (SWC_IN_FRAMES p)) (swSteps p q data fun r => match r with
  | none => .skip
  | some d => admitAll d cells data d.outs [] fun outs =>
    whenU (!outs.isEmpty) (.read fun s =>
      let plane := s.planeOf d.vid data d.strm
      let fr : SwFrame := ⟨p, data, isOpen, false, d.vid, d.colour, plane, s.reg SWC_TBL_VERSION, d.mFdb, d.mGrp, d.mStr, time⟩
      newFrame fr fun id => seqs [
        whenU (outs.length != d.outs.length) (count (SWC_IN_MC_PARTIAL p)),
        forEach outs fun o => queueCopy o.1 d.tc ⟨id, cells, 0, o.2, false⟩,
        stageCells id plane p (if isOpen then data.length / 64 else cells) (outs.map (·.1))]))

/-- Whether a frame of port `p` must be stored before its decision (R444); one that NMC takes is never decided (R541). -/
def State.mustStore (s : State) (p : Nat) (f : Frame) : Bool :=
  s.flag (SWC_PORT_CFG_SAF p) || decide (f.length < 128) || (s.nmFrame p f && s.flag NMC_ETH_CFG_CONSUME) || (match s.streamOf p (s.daHit p f) with
    | some h => bit (s.swcWord 3 h 0) 31 && (bits (s.swcWord 3 h 0) 13 0 != 0 || bit (s.swcWord 3 h 1) 31)
    | none => false)

/-- A cut-through frame ends well: its copies return the cells they did not use (R444). -/
def swClose (fid : Nat) (data : Frame) : Upd := .read fun s => match s.frame fid with
  | none => .skip
  | some f =>
    let cells := cellsOf data.length
    let was := f.data.length / 64
    let fix (c : SwCopy) : SwCopy := if c.fid = fid then { c with cells := cells } else c
    let all := (s.b.swq.out.map (·.2)).flatten ++ s.b.swq.tx.filterMap (·.2)
    let back := (all.filter (·.fid == fid)).foldl (fun n c => n + (c.cells - cells)) 0
    let outs := ((mapGet [] s.b.swq.stage (32 * f.plane + f.port)).find? (·.fid == fid)).map (·.outs)
    seqs [
      updSw fun x => { x with
        frames := mapPut none x.frames fid (some { f with data := data, isOpen := false })
        out := x.out.map fun e => (e.1, e.2.map fix)
        tx := x.tx.map fun e => (e.1, e.2.map fix) },
      freeCells back,
      match outs with
      | some os => stageCells fid f.plane f.port (cells - was) os
      | none => .skip]

/-- SWITCH_DECISION (R444, R445): the oldest frame of port `p` that waits, or one of which `head`, its first 128 bytes or more, has
arrived. A whole frame that need not be stored reserves cells as at byte 128, and returns those it does not use. `ecc`: a table entry (table, index) found with an uncorrectable error; `ce`: a corrected error (R463). -/
def switchDecision (p : Fin 25) (head : List Byte) (ecc : Option (Nat × Nat)) (ce : Bool) : Upd := .read fun s => seqs [
  whenU ce (report 8 none CE),
  match ecc with
  | some e => .seq (updSw fun x => { x with bad := e :: x.bad }) (report 8 none PM (some 4))
  | none => .skip,
  match s.b.swq.inp.find? (·.port == p.val) with
  | some i => .seq (updSw fun x => { x with inp := x.inp.erase i }) (whenU (s.flag (BLK_STAT_ENABLED 8)) (
      if s.mustStore p i.data then swDecide p i.queue i.data false i.time
      else .seq (swDecide p i.queue i.data true i.time) (.read fun s => match s.openFrame p with
        | some id => swClose id i.data
        | none => .skip)))
  | none => whenU ((decide (p.val < 20) || p.val == 22) && s.portOn p && (s.openFrame p).isNone && !s.b.swq.cut.contains p.val
      && !s.mustStore p head && s.flag (BLK_STAT_ENABLED 8))
      (swDecide p none head true s.devTime)]

/-! ## Matching (R447) -/

/-- The state of a cell time's matching: inputs and outputs matched, pointers, turns, and the crossings chosen. -/
structure Match where
  inM : List Nat := []
  outM : List Nat := []
  gptr : Tbl Nat
  aptr : Tbl Nat
  ucTurn : Tbl Bool
  sends : List (Nat × Bool × List Nat) := []

/-- The unicast queue of input `i` for output `o` has a cell at its head. -/
def voqCells (l : List Staged) (o : Nat) : Bool := match l.find? fun g => !g.mc && g.outs == [o] with
  | some g => g.cells != 0
  | none => false

/-- The head cell of the multicast queue still needs output `o`. -/
def mcNeeds (l : List Staged) (o : Nat) : Bool := match l.find? (·.mc) with
  | some g => g.cells != 0 && g.need.contains o
  | none => false

/-- The accept step of one input. -/
def matchAccept (pl r : Nat) (st : Nat → List Staged) (grant : Nat → Option Nat) (m : Match) (i : Nat) : Match :=
  if m.inM.contains i then m else
  let mine := (List.range 25).filter fun o => grant o == some i
  let mc := mine.filter (mcNeeds (st i))
  let uc := mine.filter (voqCells (st i))
  let key := 32 * pl + i
  let ptr (g : Tbl Nat) (os : List Nat) := if r = 0 then os.foldl (fun g o => mapPut 0 g (32 * pl + o) ((i + 1) % 25)) g else g
  if !mc.isEmpty && (!mapGet false m.ucTurn key || uc.isEmpty) then
    { m with
      inM := i :: m.inM
      outM := mc ++ m.outM
      gptr := ptr m.gptr mc
      ucTurn := if uc.isEmpty then m.ucTurn else mapPut false m.ucTurn key true
      sends := m.sends ++ [(i, true, mc)] }
  else match ((List.range 25).map fun j => (mapGet 0 m.aptr key + j) % 25).find? uc.contains with
  | none => m
  | some o =>
    { m with
      inM := i :: m.inM
      outM := o :: m.outM
      gptr := ptr m.gptr [o]
      aptr := if r = 0 then mapPut 0 m.aptr key ((o + 1) % 25) else m.aptr
      ucTurn := if mc.isEmpty then m.ucTurn else mapPut false m.ucTurn key false
      sends := m.sends ++ [(i, false, [o])] }

/-- One round of request, grant and accept. -/
def matchRound (pl : Nat) (st : Nat → List Staged) (m : Match) (r : Nat) : Match :=
  let grants : List (Option Nat) := (List.range 25).map fun o =>
    if m.outM.contains o then none else
    ((List.range 25).map fun k => (mapGet 0 m.gptr (32 * pl + o) + k) % 25).find? fun i =>
      !m.inM.contains i && (voqCells (st i) o || mcNeeds (st i) o)
  (List.range 25).foldl (matchAccept pl r st fun o => grants.getD o none) m

/-- A copy receives a cell in the buffer. -/
def cellIn (fid o : Nat) : Upd := updSw fun x =>
  let fix (c : SwCopy) : SwCopy := if c.fid = fid then { c with inBuf := c.inBuf + 1 } else c
  { x with out := x.out.map fun e => if e.1 / 8 = o then (e.1, e.2.map fix) else e
           tx := x.tx.map fun e => if e.1 = o then (e.1, e.2.map fix) else e }

/-- A crossing from input `i` of a plane to outputs. -/
def crossCell (pl i : Nat) (mc : Bool) (outs : List Nat) : Upd := .read fun s =>
  let key := 32 * pl + i
  let l := mapGet [] s.b.swq.stage key
  match l.find? fun g => if mc then g.mc else !g.mc && g.outs == outs with
  | none => .skip
  | some g =>
    let need := g.need.filter fun o => !outs.contains o
    let g' := if !mc || need.isEmpty then { g with cells := g.cells - 1, need := g.outs } else { g with need := need }
    let gone := g'.cells == 0 && !((s.frame g.fid).any (·.isOpen))
    .seq (forEach outs fun o => cellIn g.fid o)
      (updSw fun x => { x with stage := mapPut [] x.stage key (if gone then l.erase g else l.map fun y => if y = g then g' else y) })

/-! ## Gate control lists (R462) -/

def State.gcl (s : State) (p : Nat) : GclRun := mapGet {} s.b.swq.gcl p
def updGcl (p : Nat) (f : GclRun → GclRun) : Upd := updSw fun x => { x with gcl := mapPut {} x.gcl p (f (mapGet {} x.gcl p)) }

def gclAdmin (p : Nat) : Nat := 0x38810000 + 0x1000 * p
def gclOper (p : Nat) : Nat := 0x38810800 + 0x1000 * p

/-- The gates and the interval of an operational entry. -/
def State.gclGates (s : State) (p e : Nat) : Nat := s.load (gclOper p + 8 * e) 1
def State.gclInterval (s : State) (p e : Nat) : Nat := max 20 (s.load (gclOper p + 8 * e + 4) 4)

/-- The gates in force. -/
def State.gates (s : State) (p : Nat) : Nat := if s.flag (SWC_GCL_STAT_OPER p) then s.gclGates p (s.get (SWC_GCL_STAT_ENTRY p)) else 255

/-- When entry `e` that starts at `t` in the cycle from `c` ends. -/
def State.entryEnd (s : State) (p e t c : Nat) : Nat :=
  let x := s.gcl p
  if x.len ≤ e + 1 then c + x.cyc else min (c + x.cyc) (t + s.gclInterval p e)

/-- When the gate of traffic class `t` next closes, walking the entries from one that ends at `fin`; none where it stays open. -/
def State.gateCloses (s : State) (p t : Nat) : Nat → Nat → Nat → Nat → Option Nat
  | 0, _, _, _ => none
  | n + 1, e, fin, c =>
    let x := s.gcl p
    let (e', c') := if c + x.cyc ≤ fin then (0, c + x.cyc) else (e + 1, c)
    if ¬ bit (s.gclGates p e') t then some fin else s.gateCloses p t n e' (s.entryEnd p e' fin c') c'

/-- The rate of a port in Mb/s (R417). -/
def portRate (p : Nat) : Nat := if p < 2 then 25000 else if p < 6 then 10000 else if p < 18 then 1000 else if p < 20 then 10
  else if p = 22 then 10000 else 25000

/-- Whether a copy of `len` bytes fits before its gate closes. -/
def State.gateFits (s : State) (p t len : Nat) : Bool :=
  if ¬ s.flag (SWC_GCL_STAT_OPER p) then true else
  let x := s.gcl p
  let e := s.get (SWC_GCL_STAT_ENTRY p)
  let extra := if s.flag (ETP_MSEC_CFG_PROTECT p) then 32 else 0
  match s.gateCloses p t 512 e (s.entryEnd p e x.entry x.cycle) x.cycle with
  | none => true
  | some fin => decide ((len + 24 + extra) * 8 * 1000 ≤ (fin - s.devTime) * portRate p)

/-- A write of SWC_GCL_CTRL: CHANGE fixes the change time. -/
def gclCtrlHook (p v : Nat) : Upd := .seq (set (SWC_GCL_CTRL_CHANGE p) 0) (.read fun s =>
  let base := s.reg64 (SWC_GCL_BASE_LO p) (SWC_GCL_BASE_HI p)
  let cyc := min 1000000000 (max 1000 (s.get (SWC_GCL_CYCLE_CYCLE p)))
  let now := s.devTime
  whenU (bit v 0 && s.flag (SWC_GCL_CFG_EN p)) (.seq (set (SWC_GCL_STAT_PENDING p) 1)
    (updGcl p fun x => { x with change := if now < base then base else base + ((now - base) / cyc + 1) * cyc })))

/-- A write of SWC_GCL_CFG: EN = 0 stops the list and opens every gate. -/
def gclCfgHook (p v : Nat) : Upd := whenU (!bit v 31) (.seq (set (SWC_GCL_STAT_OPER p) 0) (set (SWC_GCL_STAT_ENTRY p) 0))

/-- The port of an SWC_GCL register, by its offset. -/
def gclPort (o : Nat) : Option Nat := if 0xB00 ≤ o ∧ o < 0xB00 + 32 * 25 then some ((o - 0xB00) / 32) else none

/-- Ports 18 and 19 have no lists (R462, R467). -/
def noGcl (o : Nat) : Bool := gclPort o == some 18 || gclPort o == some 19

/-- A write of an SWC_GCL register is ignored: a port without lists, or a change that is pending (R462). -/
def State.gclSilent (s : State) (o : Nat) : Bool := noGcl o || (match gclPort o with | some p => s.flag (SWC_GCL_STAT_PENDING p) | none => false)

/-- GCL_CHANGE (R462): device time reaches the change time, and the banks swap. -/
def gclChange (p : Fin 25) : Upd := .read fun s => whenU (s.flag (SWC_GCL_STAT_PENDING p)) (seqs [
  storeBytes (gclOper p) (s.bytes (gclAdmin p) 0x800), storeBytes (gclAdmin p) (s.bytes (gclOper p) 0x800),
  set (SWC_GCL_STAT_PENDING p) 0, set (SWC_GCL_STAT_OPER p) 1, set (SWC_GCL_STAT_BANK p) (1 - s.get (SWC_GCL_STAT_BANK p)),
  set (SWC_GCL_STAT_ENTRY p) 0, raise 8 4,
  updGcl p fun x => { x with
    cycle := x.change
    entry := x.change
    base := s.reg64 (SWC_GCL_BASE_LO p) (SWC_GCL_BASE_HI p)
    len := min 256 (max 1 (s.get (SWC_GCL_CFG_LEN p)))
    cyc := min 1000000000 (max 1000 (s.get (SWC_GCL_CYCLE_CYCLE p))) }])

/-- GCL_ENTRY_ADVANCE (R462, R471): the interval of the current entry, or the cycle, ends. -/
def gclEntryAdvance (p : Fin 25) : Upd := .read fun s => whenU (s.flag (SWC_GCL_STAT_OPER p)) (
  let x := s.gcl p
  let e := s.get (SWC_GCL_STAT_ENTRY p)
  let fin := s.entryEnd p e x.entry x.cycle
  if x.cycle + x.cyc ≤ fin then
    let start := max (x.cycle + x.cyc) (x.base + (s.devTime - x.base) / x.cyc * x.cyc)
    .seq (set (SWC_GCL_STAT_ENTRY p) 0) (updGcl p fun x => { x with cycle := start, entry := start })
  else .seq (set (SWC_GCL_STAT_ENTRY p) (e + 1)) (updGcl p fun x => { x with entry := fin }))

/-! ## The Ethernet tunnel, sending (R578) -/

def updFlk (f : Flk → Flk) : Upd := upd fun b => { b with flk := f b.flk }

/-- A frame of port FL leaves in tunnel segments. -/
def tunnelOut (f : Frame) : Upd := .read fun s => whenU (s.flag FLK_TUN_CFG_EN && s.flag (BLK_STAT_ENABLED 13)) (
  let da := beValue (f.take 6)
  let dev := if da / 2 ^ 40 % 2 = 1 then none else (s.b.flk.learn.find? (·.1 == da)).map (·.2.1)
  let n := (f.length + 255) / 256
  let id := s.b.flk.frameId
  .seq (updFlk fun x => { x with frameId := (x.frameId + 1) % 65536 }) (forN n fun i =>
    let part := (f.drop (256 * i)).take 256
    let w3 := if i = 0 then f.length else 0
    flkOut { type := 8, vc := 3, bcast := dev.isNone, dst := dev.getD 0, len := part.length,
             w2 := id * 2 ^ 16 + i % 256 * 2 ^ 8 + (if i = 0 then 2 else 0) + (if i + 1 = n then 1 else 0),
             inst := w3 / 256 % 256, addrHi := w3 % 256, data := part }))

/-! ## Tables by command (R451, R459, R460) -/

/-- The bits of an entry's words that hold fields. -/
def entryMask (table w : Nat) : Nat := match table, w with
  | 0, 0 => 0xC1FFFFFF | 0, 1 => 0x1FFFFFF | 0, 2 => 0xFFF
  | 1, 0 => 0xFFFFFFFF | 1, 1 => 0xFFFFFFFF | 1, 2 => 0x83FF0FFF
  | 2, 0 => 0xC1FFFFFF
  | 3, 0 => 0xE0003FFF | 3, 1 => 0x800003FF | 3, 2 => 0x80000007
  | _, _ => 0

def tableSize (table : Nat) : Nat := match table with | 0 => 4096 | 1 => 32768 | 2 => 4096 | 3 => 1024 | _ => 0

/-- The entry of a table had IR = 1. -/
def entryIr (table : Nat) (e : List Nat) : Bool := match table with
  | 1 => bit (e.getD 1 0) 29
  | 2 => bit (e.getD 0 0) 30
  | 3 => bit (e.getD 0 0) 30
  | _ => false

/-- Where a write or delete acts: the index, or the completion code. -/
def State.tblTarget (s : State) (op table index : Nat) (d : List Nat) : Nat × Nat :=
  if table ≠ 1 then (index, 0) else
  let mac := d.getD 0 0 + 2 ^ 32 * bits (d.getD 1 0) 15 0
  let fid := bits (d.getD 1 0) 27 16
  match s.fdbFind mac fid, op with
  | some i, _ => (i, 0)
  | none, 1 => (match s.fdbFree mac fid with | some i => (i, 0) | none => (0, 2))
  | none, _ => (0, 1)

/-- Apply a write or delete: `k` learns its code, its index and whether the entry changed with IR = 1 (some true), changed, or
stayed (none). -/
def tblApply (op table index : Nat) (d : List Nat) (k : Nat → Nat → Option Bool → Upd) : Upd := .read fun s =>
  let (i, code) := s.tblTarget op table index d
  if code ≠ 0 then k code i none else
  let old := s.swcEntry table i
  let new := if op = 1 then (List.range 4).map fun w => d.getD w 0 &&& entryMask table w else [0, 0, 0, 0]
  let same := (List.range 4).all fun w => old.getD w 0 == new.getD w 0
  seqs [
    setEntry table i new,
    updSw fun x => { x with bad := x.bad.filter (· != (table, i)), used := if table = 1 then mapPut 0 x.used i s.now else x.used },
    k 0 i (if same then none else some (entryIr table old))]

/-- Discard the copies that rest on a changed entry with IR = 1 (R460). -/
def irDiscard (table i version : Nat) : Upd := .read fun s =>
  let hit (c : SwCopy) : Bool := (s.frame c.fid).any fun f => !f.direct && f.version != version
    && (match table with | 1 => f.mFdb == some i | 2 => f.mGrp == some i | 3 => f.mStr == some i | _ => false)
  forN 25 fun p => dropCopies p (SWC_OUT_IR_DROP p) fun _ c => hit c

/-- Apply commands in order, collecting the changed entries; `k` gets the last command's code and index and the changes. -/
def tblApplyAll : List (Nat × Nat × Nat × List Nat) → List (Nat × Nat × Bool) → Nat × Nat → (Nat × Nat → List (Nat × Nat × Bool) → Upd) → Upd
  | [], ch, last, k => k last ch
  | (op, table, index, d) :: cs, ch, _, k => tblApply op table index d fun code i r =>
    tblApplyAll cs (match r with | some ir => ch ++ [(table, i, ir)] | none => ch) (code, i) k

/-- A write of SWC_TBL_CMD. -/
def tblCmdHook (v : Nat) : Upd := .seq (set SWC_TBL_CMD_GO 0) (whenU (bit v 31) (.read fun s =>
  let op := bits v 29 28
  let table := bits v 27 24
  let index := bits v 15 0
  let d := (List.range 4).map fun i => s.reg (SWC_TBL_DATA i)
  let done (code i : Nat) : Upd := seqs [set SWC_TBL_RES_CODE code, set SWC_TBL_RES_INDEX i, raise 8 1]
  let show' (i : Nat) : Upd := .seq (forN 4 fun w => setReg (SWC_TBL_DATA w)
      (if table = 1 ∧ w = 3 then (if bit (s.swcWord 1 i 1) 31 then min 255 ((s.now - mapGet 0 s.b.swq.used i) / (1000000 * usCycles)) * 2 ^ 24 else 0)
       else s.swcWord table i w)) (done 0 i)
  if 4 ≤ table then done 4 index
  else if op = 3 ∧ table = 1 then
    match s.fdbFind (d.getD 0 0 + 2 ^ 32 * bits (d.getD 1 0) 15 0) (bits (d.getD 1 0) 27 16) with
    | some i => show' i
    | none => done 1 0
  else if op = 0 ∨ op = 3 then (if tableSize table ≤ index then done 4 index else show' index)
  else if table ≠ 1 ∧ tableSize table ≤ index then done 4 index
  else if bit v 30 then
    if 16 ≤ s.b.swq.holds.length then done 3 index
    else seqs [updSw fun x => { x with holds := x.holds ++ [(op, table, index, d)] },
      set SWC_TBL_RES_HELD (s.b.swq.holds.length + 1), done 0 index]
  else tblApplyAll (s.b.swq.holds ++ [(op, table, index, d)]) [] (0, 0) fun last ch => seqs [
      updSw fun x => { x with holds := [] }, set SWC_TBL_RES_HELD 0,
      whenU (!ch.isEmpty) (seqs [
        setReg SWC_TBL_VERSION ((s.reg SWC_TBL_VERSION + 1) % 2 ^ 32),
        forEach (ch.filter (·.2.2)) fun c => irDiscard c.1 c.2.1 ((s.reg SWC_TBL_VERSION + 1) % 2 ^ 32)]),
      done last.1 last.2]))

/-- FDB_AGE_OUT (R450): a dynamic entry has gone unused for AGE_S. -/
def fdbAgeOut (i : Fin 32768) : Upd := .read fun s =>
  whenU (s.flag SWC_AGE_CFG_AGE_S && bit (s.swcWord 1 i 1) 31 && !bit (s.swcWord 1 i 1) 30) (setEntry 1 i [])

/-- WRED_AVG_TICK (R454): 1 µs of an empty queue. -/
def wredAvgTick (p : Fin 25) (t : Fin 8) : Upd := .read fun s =>
  let q := 8 * p.val + t.val
  whenU (s.outQ p t).isEmpty (updSw fun x =>
    { x with avg := mapPut 0 x.avg q (avgStep (mapGet 0 x.avg q) (bits (s.queueWord q 0) 27 24) 0) })

/-- QUEUE_HOLD_EXPIRY (R456): HOLD_MS after a link loss. -/
def queueHoldExpiry (p : Fin 25) : Upd := .read fun s =>
  whenU (!s.flag (ETP_PORT_STAT_LINK_UP p)) (dropCopies p (SWC_OUT_UNAVAIL p) fun _ c => c.old)

/-- GATE_FIT_DROP (R456): the head copy of a traffic class has not fitted its gate for a full cycle. -/
def gateFitDrop (p : Fin 25) (t : Fin 8) : Upd := .read fun s => match s.outQ p t with
  | [] => .skip
  | c :: _ => whenU (s.flag (SWC_GCL_STAT_OPER p)) (dropCopies p (SWC_OUT_GATE_DROP p) fun t' c' => t' == t.val && c'.fid == c.fid)

/-! ## Drains (R461) -/

/-- A version older than a target. -/
def olderVersion (target v : Nat) : Bool := let d := (target + 2 ^ 32 - v) % 2 ^ 32; 1 ≤ d && d ≤ 2 ^ 31

/-- The frames older than the target that remain. -/
def State.olderFrames (s : State) : List Nat := (s.b.swq.frames.filter fun e =>
  e.2.any fun f => !f.direct && olderVersion s.b.swq.drain f.version && s.frameUsed e.1).map (·.1)

/-- A write of SWC_DRAIN_CTRL. -/
def swcDrainHook (v : Nat) : Upd := .seq (set SWC_DRAIN_CTRL_REQ 0) (whenU (bit v 31) (.read fun s =>
  let t := s.reg SWC_DRAIN_TARGET
  let cur := s.reg SWC_TBL_VERSION
  .seq (updSw fun x => { x with drain := if olderVersion t cur then cur else t }) (setReg SWC_DRAIN_STAT (2 ^ 31))))

/-- SWC_DRAIN_DONE. -/
def swcDrainDone : Upd := .read fun s => whenU (s.flag SWC_DRAIN_STAT_BUSY && s.olderFrames.isEmpty)
  (.seq (setReg SWC_DRAIN_STAT (2 ^ 30)) (raise 8 0))

/-- SWC_DRAIN_TIMEOUT: PORT names a port that holds an older frame, 31 the staging. -/
def swcDrainTimeout : Upd := .read fun s => whenU (s.flag SWC_DRAIN_STAT_BUSY && s.flag SWC_DRAIN_CTRL_TO_MS) (
  let has (c : SwCopy) := s.olderFrames.contains c.fid
  let port := (List.range 25).find? fun p => (List.range 8).any (fun t => (s.outQ p t).any has) || (mapGet none s.b.swq.tx p).any has
  .seq (setReg SWC_DRAIN_STAT (2 ^ 29 + port.getD 31 * 2 ^ 24)) (raise 8 0))

/-! ## Block (R464) -/

/-- EN = 0: frames not yet decided are dropped; the end of the drain discards the copies not started. -/
def swcDisable : Upd := updSw fun x => { x with inp := [] }
def swcDrainEnd : Upd := forN 25 fun p => dropWith p (fun _ _ => true) .skip

/-- A block reset: dynamic FDB entries, buckets, averages and held commands go. -/
def swcReset : Upd := seqs [swcDisable, swcDrainEnd, updSw fun x => { x with
  fdb := x.fdb.filter fun e => bit (e.2.getD 1 0) 30
  pol := []
  avg := []
  holds := []
  gptr := []
  aptr := []
  ucTurn := []
  gcl := []
  pmap := none
  drain := 0 }]

/-- A power-down or module reset: everything returns to its reset values. -/
def swcLost : Upd := updSw fun _ => {}

/-- A write in the window: a policer's entry fills its buckets (R453). -/
def swcWindowHook (a : Nat) : Upd :=
  let off := a - 0x38800000
  whenU (decide (off < 0x4000)) (updSw fun x => { x with pol := mapPut none x.pol (off / 16) none })

/-- Writes to the operational bank, and to the administrative one while PENDING, are ignored (R462). -/
def State.swcSilent (s : State) (a : Nat) : Bool :=
  let off := a - 0x38800000
  0x10000 ≤ off && (0x800 ≤ off % 0x1000 || s.flag (SWC_GCL_STAT_PENDING ((off - 0x10000) / 0x1000)))

end Sys2Proof.Machine
end

