-- ==== Sys2Proof/Machine/Eth.lean ====
section
/-!
DEFINITION. The Ethernet ports: reception, transmission and underrun, cell times, the Canopy rings with segmentation and checksums,
low-power idle, links, MACsec keys (19_ethernet_ports_and_macs.md).
-/
namespace Sys2Proof.Machine

/-! ## Checksums (R430, R431) -/

/-- The ones' complement sum of 16-bit words, most significant byte first, an odd last byte padded with zero. -/
def onesSum (l : List Byte) : Nat :=
  let rec go : List Byte → Nat
    | a :: b :: r => a.toNat * 256 + b.toNat + go r
    | [a] => a.toNat * 256
    | [] => 0
  let n := go l
  if n = 0 then 0 else (n - 1) % 65535 + 1

/-- The Internet checksum of bytes. -/
def inetSum (l : List Byte) : Nat := 65535 - onesSum l

/-- The pseudo-header of an IP header at offset `o` for `len` bytes of protocol `proto`. -/
def pseudo (f : Frame) (o : Nat) (v6 : Bool) (proto len : Nat) : List Byte :=
  if v6 then (f.drop (o + 8)).take 32 ++ beBytes 4 len ++ beBytes 4 proto
  else (f.drop (o + 12)).take 8 ++ beBytes 2 proto ++ beBytes 2 len

/-- The IP and L4 results of a received frame: 0 not checked, 1 correct, 2 wrong (R431). -/
def rxChecks (f : Frame) : Nat × Nat :=
  match ipOf f with
  | none => (0, 0)
  | some (v, o, n, proto, one) =>
    let len := if v = 4 then at16 f (o + 2) - n else at16 f (o + 4)
    let l4 := (f.drop (o + n)).take len
    let at' := if proto = 6 then 16 else 6
    if ¬ one then (0, 0) else
    (if v = 4 then (if onesSum ((f.drop o).take n) = 65535 then 1 else 2) else 0,
     if proto ≠ 6 ∧ proto ≠ 17 then 0
     else if v = 4 ∧ proto = 17 ∧ at16 l4 at' = 0 then 0
     else if onesSum (pseudo f o (v == 6) proto len ++ l4) = 65535 then 1 else 2)

/-- Set the ECN field to 11, the IPv4 header checksum recomputed (R455). -/
def setEcn (f : Frame) : Frame := match ipOf f with
  | some (4, o, n, _, _) =>
    let g := patch f (o + 1) [((f[o + 1]?).getD 0) ||| 3]
    let h := patch g (o + 10) [0, 0]
    patch h (o + 10) (be16 (inetSum ((h.drop o).take n)))
  | some (_, o, _, _, _) => patch f (o + 1) [((f[o + 1]?).getD 0) ||| 0x30]
  | none => f

/-! ## Requests of the Canopy rings (R426, R623) -/

/-- The instance that queue set `q` of port 20 + `x` is bound to (R610). -/
def State.qInst (s : State) (x q : Nat) : Option Nat :=
  (List.range 256).find? fun n => s.get (IOM_INST_BIND_KIND n) == 4
    && bits (s.get (IOM_INST_BIND_ARG n)) 8 8 == x && s.get (IOM_INST_BIND_ARG n) % 8 == q

/-- A vector of an instance is raised (R621). -/
def raiseVec (n k : Nat) : Upd := upd fun b => { b with iom := { b.iom with vecs := b.iom.vecs ++ [(n, k)] } }

/-- An IOMMU fault of instance `n` (R624, R625). -/
def iommuFault (n : Nat) : Upd := seqs [raise 6 4, report 6 (some n) TR, raiseVec n 3]

/-- Whether the host can be reached through its PCIe link. -/
def State.hostUp (s : State) : Bool := s.flag HBR_LINK_STAT_LINK_UP

/-- An AER event is logged (R591). -/
def aerLog (e : AerEvent) : Upd := upd fun b => { b with hbr := { b.hbr with aer := e :: b.hbr.aer } }

/-- The error of a read of the module that the host refuses: UR (0) or CA. -/
def aerRefused (v : Nat) : AerErr := if v = 0 then .urReceived else .caReceived

/-- A DMA read towards the host by function `fn` at host address `a` (R598 to R601). It takes a tracker while it runs; without a free one
it is withdrawn and presented again, the host's reads being answered meanwhile (notes/assumptions/100.md). What the host answers is
outside the module: data, UR, CA or nothing, by free value. -/
def hostDmaRead (fn a n : Nat) (k : Option (List Byte) → Upd) : Upd := .read fun s =>
  let r (e : AerErr) : AerEvent := ⟨fn, e, true, 3, a, n⟩
  let full := 64 ≤ s.b.hbr.devRd.length + max (s.b.hbr.reads.length + (s.b.hbr.barriers.filter (·.host)).length) (s.get HBR_CFG_HOST_RSV)
  seqs [
    whenU (full || !s.b.hbr.waitRd.isEmpty) (count HBR_CNT_BACKOFF),
    count HBR_CNT_DEV_RD ((n + 511) / 512),
    free fun v => match v % 4 with
      | 0 => freeBytes n (k ∘ some)
      | 3 => seqs [count HBR_CNT_DEV_CPL_TO, raise 14 2, aerLog (r .timeout), k none]
      | e => .seq (aerLog (r (aerRefused (e - 1)))) (k none)]

/-- A DMA write towards the host: posted, at most 512 B each. -/
def hostDmaWrite (n : Nat) (k : Bool → Upd) : Upd := .seq (count HBR_CNT_DEV_WR ((n + 511) / 512)) (k true)

/-- A translated request of instance `n`: the table walk of the IOMMU is another standard's (notes/assumptions/17.md), so the
outcome, a fault or the page, is free. -/
def translated (n a : Nat) (k : Option Nat → Upd) : Upd := free fun v =>
  if v % 2 = 0 then .seq (iommuFault n) (k none) else .seq (elementOk 6 n) (k (some (v / 2 % 2 ^ 28 * 4096 + a % 4096)))

/-- Read for queue set `q`: none where refused. A guest of the host reads host memory, which is outside the module. -/
def qRead (x q a n : Nat) (k : Option (List Byte) → Upd) : Upd := .read fun s => match s.qInst x q with
  | none => dmaRead 61 a n k
  | some i => match s.get (IOM_INST_OWNER_OKIND i) with
    | 2 => if s.hostUp && (s.ctxPid (256 + i)).2 then hostDmaRead (s.get (IOM_INST_OWNER_VF i)) a n k else k none
    | _ => translated i a fun r => match r with
      | some p => dmaRead (256 + i) p n k
      | none => k none

/-- Words of an instance's dirty log (R653): 0 CFG, 1 and 2 base, 3 and 4 bitmap, 5 LOG_STAT. -/
def State.logWord (s : State) (n i : Nat) : Nat := (mapGet [] s.b.iom.logs n).getD i 0
def putLog (n i v : Nat) : Upd := upd fun b =>
  let l := mapGet [] b.iom.logs n
  { b with iom := { b.iom with logs := mapPut [] b.iom.logs n ((if l.isEmpty then [0, 0, 0, 0, 0, 0] else l).set i v) } }

/-- The bit of page `p` of the log's window is set, with PID 3; a bitmap write that fails ends the logging (R644). -/
def dirtyBit (n p : Nat) : Upd := .read fun s =>
  let a := s.resolve (s.logWord n 3 + 2 ^ 32 * s.logWord n 4 + p / 8)
  let stop : Upd := .read fun s => putLog n 5 (withBits (s.logWord n 5 % 2 ^ 31) 30 30 1)
  match placeOf a with
  | .chain _ _ => stop
  | _ => engineRead 1 (256 + n) (3, true) a 1 fun r => match r with
    | some (d :: _) => engineWrite 1 (256 + n) (3, true) a [d ||| BitVec.ofNat 8 (2 ^ (p % 8))] fun ok => if ok then .skip else stop
    | _ => stop

/-- A DMA write of `len` bytes at input address `a` is logged for instance `n` (R643). -/
def dirtyLog (n a len : Nat) : Upd := .read fun s => whenU (decide (2 ^ 31 ≤ s.logWord n 5) && len != 0) (
  let base := (s.logWord n 1 + 2 ^ 32 * s.logWord n 2) / 4096
  forN ((a + len - 1) / 4096 - a / 4096 + 1) fun i =>
    let pg := a / 4096 + i
    .read fun s => whenU (decide (2 ^ 31 ≤ s.logWord n 5)) (
      if base ≤ pg ∧ pg - base < s.logWord n 0 % 2 ^ 24 then dirtyBit n (pg - base) else putLog n 5 (withBits (s.logWord n 5) 29 29 1)))

/-- Write for queue set `q`. -/
def qWrite (x q a : Nat) (bs : List Byte) (k : Bool → Upd) : Upd := .read fun s => match s.qInst x q with
  | none => dmaWrite 61 a bs k
  | some i => match s.get (IOM_INST_OWNER_OKIND i) with
    | 2 => if s.hostUp && (s.ctxPid (256 + i)).2 then hostDmaWrite bs.length k else k false
    | _ => translated i a fun r => match r with
      | some p => .seq (dirtyLog i a bs.length) (dmaWrite (256 + i) p bs k)
      | none => k false

/-- Vector 1 of the instance of a queue set: HEAD advanced or the ring halted (R621). -/
def qEvent (x q : Nat) : Upd := .read fun s => match s.qInst x q with | some n => raiseVec n 1 | none => .skip

/-! ## RX rings (R431) -/

def State.rxBase (s : State) (p q : Nat) : Nat := s.get (ETP_QRX_BASE_LO_ADDR p 0 q) * 32 + s.get (ETP_QRX_BASE_HI_ADDR_HI p 0 q) * 2 ^ 32
def State.txBase (s : State) (p q : Nat) : Nat := s.get (ETP_QTX_BASE_LO_ADDR p 0 q) * 32 + s.get (ETP_QTX_BASE_HI_ADDR_HI p 0 q) * 2 ^ 32

/-- Descriptors of a ring whose SIZE field reads `v`. -/
def qSize (v : Nat) : Nat := 2 ^ min 12 (max 4 v)

def State.rxRuns (s : State) (p q : Nat) : Bool :=
  s.portOn p && s.flag (ETP_QRX_BASE_HI_EN p 0 q) && !bit (s.get (ETP_Q_STAT_RX_HALT p)) q
def State.rxEmpty (s : State) (p q : Nat) : Bool := s.get (ETP_QRX_HEAD_INDEX p 0 q) == s.get (ETP_QRX_TAIL_INDEX p 0 q)

/-- A refused descriptor read halts a ring: `b` is its bit of ETP_Q_STAT. -/
def ringHalt (p q b : Nat) : Upd := seqs [setBit (ETP_Q_STAT p) b, raiseEtp p 7, report 7 (some p) TR, qEvent (p - 20) q]

/-- Descriptors fill with the frame that waits at ring `q`, one after another. -/
def rxFill (p q : Nat) : Nat → Upd
  | 0 => .skip
  | n + 1 => .read fun s => match mapGet none s.b.swq.rxWait (8 * p + q) with
    | none => .skip
    | some w =>
      if ¬ s.rxRuns p q then .skip
      else if s.rxEmpty p q then raiseEtp p 6
      else
        let head := s.get (ETP_QRX_HEAD_INDEX p 0 q)
        let a := s.rxBase p q + 32 * head
        qRead (p - 20) q a 32 fun r => match r with
        | none => ringHalt p q (8 + q)
        | some d =>
          let word (i : Nat) := leValue ((d.drop (4 * i)).take 4)
          let size := min 16384 (max 64 (word 2 % 65536)) / 64 * 64
          let part := w.data.take size
          let rest := w.data.drop size
          let st := 2 ^ 31 + w.first.toNat * 2 ^ 30 + rest.isEmpty.toNat * 2 ^ 29 + w.bits + part.length
          let next : Option RxWait := if rest.isEmpty then none else some { w with data := rest, first := false }
          seqs [
            qWrite (p - 20) q (word 0 + 2 ^ 32 * (word 1 % 256)) part fun ok => whenU (!ok) (raiseEtp p 7),
            qWrite (p - 20) q (a + 16) (leBytes 4 st) fun _ => .skip,
            qWrite (p - 20) q (a + 24) (leBytes 8 w.time) fun _ => .skip,
            set (ETP_QRX_HEAD_INDEX p 0 q) ((head + 1) % qSize (s.get (ETP_QRX_BASE_HI_SIZE p 0 q))),
            qEvent (p - 20) q,
            updSw fun x => { x with rxWait := mapPut none x.rxWait (8 * p + q) next },
            if rest.isEmpty then raiseEtp p 5 else rxFill p q n]

/-- C_RX_TAIL_WRITE: frames that wait go on. -/
def rxTailHook (p q : Nat) : Upd := rxFill p q 160

/-- A frame of traffic class `t` reaches Canopy through port `p` (R420, R431, R436). -/
def rxDeliver (p t : Nat) (f : Frame) (time : Nat) : Upd := macCheck p f false false .skip fun g =>
  let (ip, l4) := rxChecks g
  let w : RxWait := ⟨g, true, ip * 2 ^ 27 + l4 * 2 ^ 25 + t * 2 ^ 16, time⟩
  .seq (updSw fun x => { x with rxWait := mapPut none x.rxWait (8 * p + t) (some w) }) (rxFill p t 160)

/-! ## Transmission (R423, R424, R435, R462) -/

/-- The bytes of a copy at its output: the tag removed in the VLAN's UNTAG set, the ECN mark (R445, R455). -/
def State.egress (s : State) (p : Nat) (f : SwFrame) (c : SwCopy) : Frame :=
  let d := if c.ecn then setEcn f.data else f.data
  if !f.direct && at16 d 12 == 0x8100 && bit (s.swcWord 0 f.vid 1) p then cutBytes d 12 4 else d

/-- A whole frame has left port `p`: protection, counters, stamps, and what the partner of an internal port gets. `ago`: ns since
its first byte left; `inj`: an event message that TMB injected, which ends its injection (R476). -/
def sent (p t : Nat) (inj : Bool) (f : Frame) (time ago : Nat) : Upd :=
  if p = 20 ∨ p = 21 then rxDeliver p t f time else
  msecTx p f fun r => match r with
  | none => .skip
  | some g => .read fun s => seqs [
      count64 (ETP_CNT_TX_OCTETS p) (g.length + 4), count64 (ETP_CNT_TX_FRAMES p),
      updSw fun x => { x with last := mapPut [] x.last p g },
      tsStamp p true f (s.devTime - ago),
      whenU (inj && s.flag TMB_PTP_TX_STAT_BUSY) (seqs [set TMB_PTP_TX_STAT_BUSY 0, set TMB_PTP_TX_STAT_RES 1, raise 12 7]),
      if p = 23 then srFrame g else whenU (p == 24) (tunnelOut g)]

/-- Remove a copy from its queue. -/
def unqueue (p t : Nat) (c : SwCopy) : Upd :=
  updSw fun x => { x with out := mapPut [] x.out (8 * p + t) ((mapGet [] x.out (8 * p + t)).erase c) }

/-- Whether the MAC of port `p` may start a copy: whole, or up to the threshold on an external port (R423, R444). -/
def State.startable (s : State) (p : Nat) (c : SwCopy) : Bool := match s.frame c.fid with
  | none => false
  | some f =>
    let cur := s.get (ETP_TX_THR_CUR p)
    (!f.isOpen && c.cells ≤ c.inBuf) || (decide (p < 20) && cur != 0 && cur ≤ c.inBuf)

/-- The copy that port `p` takes next (R462), with its traffic class. -/
def State.txPick (s : State) (p : Nat) : Option (Nat × SwCopy) :=
  ((List.range 8).map (7 - ·)).findSome? fun t => match s.outQ p t with
  | [] => none
  | c :: _ =>
    let len := match s.frame c.fid with | some f => if f.isOpen then 64 * c.cells else f.data.length | none => 0
    let ring := (p != 20 && p != 21) || (s.rxRuns p t && !s.frozenQueue p t && !s.rxEmpty p t && (mapGet none s.b.swq.rxWait (8 * p + t)).isNone)
    if bit (s.gates p) t && s.gateFits p t len && s.startable p c && ring then some (t, c) else none

/-- A frame being sent ends early at port `p`: its copy is gone. -/
def txAbort (p : Nat) (c : SwCopy) : Upd := seqs [
  freeCells c.cells, unstage c.fid p, updSw fun x => { x with tx := mapPut none x.tx p none }]

/-- The effect of an underrun on the frame and the threshold (R424 steps 2 to 4), `late` bytes discarded. -/
def underrun (p late : Nat) : Upd := .read fun s =>
  let cur := s.get (ETP_TX_THR_CUR p)
  let new := cur + max 1 (s.get (ETP_TX_THR_STEP p))
  seqs [
    count64 (ETP_CNT_TX_UNDERRUN p), raiseEtp p 1, set (ETP_TX_THR_CUR p) (if cur = 0 ∨ 144 < new then 0 else new),
    count64 (ETP_CNT_TX_LATE_OCTETS p) late]

/-- The frame of `n` bytes that a FIFO error cuts: how many of its bytes were still to come is not said (R424). -/
def underrunAt (p n : Nat) : Upd := free fun v => underrun p (v % (n + 1))

/-- PLCA runs on a 10BASE-T1S port; otherwise it runs CSMA/CD, in half duplex (R419). -/
def State.plcaRuns (s : State) (p : Nat) : Bool := s.flag (ETP_PLCA_CFG_EN p) && s.get (ETP_PLCA_CFG_NODE_ID p) != 255

/-- A copy that is being sent and has become whole completes. -/
def txFinish (p : Nat) : Upd := .read fun s => match mapGet none s.b.swq.tx p with
  | none => .skip
  | some c => match s.frame c.fid with
    | none => txAbort p c
    | some f => whenU (!f.isOpen && c.cells ≤ c.inBuf) (.seq (txAbort p c) (sent p 0 f.injected (s.egress p f c) f.time 0))

/-- MAC_TX_START (R423, R462): port `p` takes its next copy and sends it. `fail`: 1 the link goes down during the frame, 2 its
sixteenth collision on a port in half duplex, 3 an uncorrectable error in the port's FIFO, 4 a corrected one, 5 one in a cell of the switch's buffer (R463); `ago`: ns since its first byte left. -/
def macTxStart (p : Fin 25) (fail : Fin 6) (ago : Nat) : Upd := .read fun s =>
  let p := p.val
  whenU (s.portOn p && s.flag (BLK_STAT_ENABLED 7) && !s.flag (ETP_PORT_STAT_TX_LPI p) && (mapGet none s.b.swq.tx p).isNone)
    (match s.txPick p with
    | none => .skip
    | some (t, c) => match s.frame c.fid with
      | none => .seq (freeCells c.cells) (unqueue p t c)
      | some f =>
        let gone := seqs [unqueue p t c, freeCells c.cells, unstage c.fid p]
        if fail = 1 then .seq gone (count64 (ETP_CNT_TX_LINK_ABORT p))
        else if fail = 2 ∧ (p = 18 ∨ p = 19) ∧ ¬ s.plcaRuns p then .seq gone (count64 (ETP_CNT_TX_COLLISION p))
        else if fail = 5 then .seq (cutAbort c.fid) (report 8 none TR)
        else if fail = 3 then seqs [gone, underrunAt p f.data.length, report 7 (some p) PM]
        else .seq (whenU (fail == 4) (report 7 (some p) CE))
          (if !f.isOpen && c.cells ≤ c.inBuf then .seq gone (sent p t f.injected (s.egress p f c) f.time ago)
          else .seq (unqueue p t c) (updSw fun x => { x with tx := mapPut none x.tx p (some c) })))

/-- MAC_UNDERRUN (R424): a byte that port `p` must send next is not in its FIFO; `late` bytes of the frame come too late. -/
def macUnderrun (p : Fin 25) (late : Nat) : Upd := .read fun s => match mapGet none s.b.swq.tx p.val with
  | none => .skip
  | some c => .seq (txAbort p c) (underrun p late)

/-- CELL_TIME_MATCH (R447): one cell time of a plane. -/
def cellTimeMatch (plane : Fin 2) : Upd := .read fun s =>
  let pl := plane.val
  let x := s.b.swq
  let st (i : Nat) := mapGet [] x.stage (32 * pl + i)
  let m := (List.range 3).foldl (matchRound pl st) { gptr := x.gptr, aptr := x.aptr, ucTurn := x.ucTurn }
  seqs [
    updSw fun x => { x with gptr := m.gptr, aptr := m.aptr, ucTurn := m.ucTurn },
    forEach m.sends fun e => crossCell pl e.1 e.2.1 e.2.2,
    forN 20 txFinish]

/-! ## Reception (R420, R444, R457) -/

/-- ETH_FRAME_RX (R420): the end of a frame at port `p`: the PHY's and the FCS's verdict, and ns since its first byte; `ce`, `saBad`:
an error corrected in the port's memories, or an SA table entry found with an uncorrectable one (R437). -/
def ethFrameRx (p : Fin 25) (f : List Byte) (phyErr fcsErr : Bool) (ago : Nat) (ce : Bool) (saBad : Option (Fin 20)) : Upd := .read fun s =>
  let p := p.val
  let time := s.devTime - ago
  whenU (s.flag (BLK_STAT_ENABLED 7) || s.flag (BLK_STAT_DRAINING 7)) (seqs [
    whenU ce (report 7 (some p) CE),
    match saBad with
    | some e => seqs [
        updSw fun x => { x with keys := mapPut none x.keys (32 * p + e.val) none },
        set (ETP_SA_CTRL_SA_EN p 0 e.val) 0, set (ETP_SA_CTRL_KEY_OK p 0 e.val) 0, set (ETP_SA_CTRL_KEY_ERR p 0 e.val) 3,
        report 7 (some p) TR]
    | none => .skip,
    if s.b.swq.cut.contains p then cutEnds p else
    match s.openFrame p with
    | some id => seqs [macCheck p f phyErr fcsErr (cutAbort id) (fun g => .seq (nmOfferEth p g) (swClose id g)), cutEnds p, forN 20 txFinish]
    | none => macRx p none f time phyErr fcsErr,
    whenU (!phyErr && !fcsErr && s.portOn p) (.seq (whenU saBad.isNone (elementOk 7 p)) (tsStamp p false f time))])

/-- ETH_DROP_INTERVAL (R421): 1 ms ends. -/
def ethDropInterval (p : Fin 25) : Upd := .read fun s =>
  let th := s.get (ETP_PORT_CFG_DROP_TH p)
  .seq (whenU (th != 0 && th ≤ mapGet 0 s.b.swq.drops p.val) (raiseEtp p 2))
    (updSw fun x => { x with drops := mapPut 0 x.drops p.val 0 })

/-! ## Links (R418, R438, R456) -/

/-- Low-power idle no longer runs at a port: both directions leave it (R432). -/
def lpiLeave (p : Nat) : Upd := .read fun s =>
  whenU (s.flag (ETP_PORT_STAT_TX_LPI p) || s.flag (ETP_PORT_STAT_RX_LPI p))
    (seqs [set (ETP_PORT_STAT_TX_LPI p) 0, set (ETP_PORT_STAT_RX_LPI p) 0, raiseEtp p 12])

/-- A port reads LINK_UP = 0: it takes no more frames from its queue, whose copies age (R456). -/
def linkGone (p : Nat) : Upd := seqs [
  set (ETP_PORT_STAT_LINK_UP p) 0, clrBit ETP_LINK_SUM p, inc (ETP_PORT_STAT_LINK_DOWNS p), raiseEtp p 0,
  lpiLeave p, set (ETP_EEE_STAT_CAPABLE p) 0,
  updSw fun x => { x with out := x.out.map fun e =>
    if e.1 / 8 = p then (e.1, e.2.map fun c => { c with old := true }) else e }]

/-- A port's link goes down: the frames under way at it are cut (R438). -/
def linkDown (p : Nat) : Upd := .read fun s => whenU (s.flag (ETP_PORT_STAT_LINK_UP p)) (seqs [
  linkGone p,
  match mapGet none s.b.swq.tx p with
  | some c => .seq (txAbort p c) (count64 (ETP_CNT_TX_LINK_ABORT p))
  | none => .skip,
  match s.openFrame p with
  | some id => .seq (macDrop p (ETP_CNT_RX_PHY_ERR p)) (cutAbort id)
  | none => .skip,
  cutEnds p])

/-- A port's link comes up; LINK_CHG is raised for this change too (notes/assumptions/109.md). -/
def linkUp (p : Nat) : Upd := seqs [
  set (ETP_PORT_STAT_LINK_UP p) 1, setBit ETP_LINK_SUM p, raiseEtp p 0,
  .read fun s => whenU (decide (p < 18) && s.get (ETP_T1_SLEEP_STATE p) == 3) (set (ETP_T1_SLEEP_STATE p) 0),
  updSw fun x => { x with out := x.out.map fun e =>
    if e.1 / 8 = p then (e.1, e.2.map fun c => { c with old := false }) else e }]

/-- The port's PHY is powered and neither asleep nor in low power: U and X ports only in Run, U, X and G ports not in low-voltage operation (R87,
R92). -/
def State.phyOn (s : State) (p : Nat) : Bool :=
  let st := s.get MSU_PWR_STATE_STATE
  decide (st ≤ 1) && (decide (6 ≤ p) || st == 0) && (decide (18 ≤ p) || (!s.flag PSM_STAT_LOWV && s.get (ETP_T1_SLEEP_STATE p) != 2))

/-- The T1 role a port resolves: forced by ROLE, or `master` as clause 98 negotiated it, on G ports only (R418). -/
def State.roleOf (s : State) (p : Nat) (master : Bool) : Bool := match s.get (ETP_PHY_CFG_ROLE p) with
  | 1 => true
  | 2 => master && decide (6 ≤ p) && decide (p < 18)
  | _ => false

/-- ETH_LINK_CHANGE (R418): the link of an external port goes up or down, with what the PHY reports; `master`: the role that
auto-negotiation resolved. -/
def ethLinkChange (p : Fin 20) (up master : Bool) (sqi : Fin 8) (capable : Bool) (twMin : Fin 16384) : Upd := .read fun s =>
  let p := p.val
  let on := s.cellOn 7 p && s.flag (BLK_STAT_ENABLED 7) && (18 ≤ p || s.flag ETP_PHY_FW_RUN) && s.phyOn p
  if up then whenU on (seqs [
    whenU (!s.flag (ETP_PORT_STAT_LINK_UP p)) (linkUp p),
    set (ETP_PORT_STAT_MASTER p) (s.roleOf p master).toNat, set (ETP_PORT_STAT_SQI p) sqi,
    whenU (decide (p < 18)) (seqs [set (ETP_EEE_STAT_CAPABLE p) capable.toNat, set (ETP_EEE_STAT_TW_MIN p) twMin, whenU (!capable) (lpiLeave p)])])
  else .seq (linkDown p) (set (ETP_PORT_STAT_SQI p) sqi)

/-- Whether the partner of an internal port is enabled (R418). -/
def State.partnerOn (s : State) (p : Nat) : Bool := match p with
  | 22 => [1, 2].any fun k => s.get (IW_STAT_STATE (k - 1)) != 0
  | 23 => s.flag (BLK_STAT_ENABLED 11)
  | 24 => s.flag (BLK_STAT_ENABLED 13)
  | _ => true

/-- LINK_UP of an internal port follows its cell and its partner; a frame under way at a port that drains completes (R438). -/
def internalLink (p : Nat) : Upd := .read fun s =>
  let on := s.cellOn 7 p && s.flag (BLK_STAT_ENABLED 7) && s.partnerOn p
  if on && !s.flag (ETP_PORT_STAT_LINK_UP p) then linkUp p
  else whenU (!on && s.flag (ETP_PORT_STAT_LINK_UP p)) (if s.flag (CELL_STAT_DRAINING 7 p) then linkGone p else linkDown p)

/-- PHY_FW_STOP (R437): the PHY firmware, where it runs, stops. -/
def phyFwStop : Upd := .read fun s => whenU (s.flag ETP_PHY_FW_RUN) <| seqs [set ETP_PHY_FW_RUN 0, forN 18 linkDown, raise 7 0, report 7 none PM (some 4)]

/-! ## Low-power idle (R432) -/

/-- LPI_ENTER: the transmit side has been idle for IDLE_US. -/
def lpiEnter (p : Fin 18) : Upd := .read fun s =>
  let p := p.val
  whenU (s.portOn p && s.flag (ETP_EEE_CFG_EN p) && s.flag (ETP_EEE_STAT_CAPABLE p) && !s.flag (ETP_PORT_STAT_TX_LPI p)
      && (mapGet none s.b.swq.tx p).isNone && (List.range 8).all (fun t => (s.outQ p t).isEmpty) && !s.flag (SWC_GCL_STAT_OPER p))
    (seqs [set (ETP_PORT_STAT_TX_LPI p) 1, count64 (ETP_CNT_LPI_TX_ENTRIES p), raiseEtp p 12])

/-- LPI_EXIT: TW_TX_US after a frame arrived. -/
def lpiExit (p : Fin 18) : Upd := .read fun s => whenU (s.flag (ETP_PORT_STAT_TX_LPI p))
  (.seq (set (ETP_PORT_STAT_TX_LPI p) 0) (raiseEtp p 12))

/-- RX_LPI_CHANGE: the link partner enters or leaves low-power idle. -/
def rxLpiChange (p : Fin 18) (v : Bool) : Upd := .read fun s =>
  whenU (s.portOn p && s.flag (ETP_EEE_CFG_EN p) && s.flag (ETP_EEE_STAT_CAPABLE p) && s.flag (ETP_PORT_STAT_RX_LPI p) != v)
    (seqs [set (ETP_PORT_STAT_RX_LPI p) v.toNat, whenU v (count64 (ETP_CNT_LPI_RX_ENTRIES p)), raiseEtp p 12])

/-! ## Canopy sends (R426 to R430) -/

/-- The descriptor words of a send: word 0 and the buffer of each, words 3 and 4 of the first. -/
structure CSend where
  ds : List (Nat × Nat) := []
  w0 : Nat := 0
  w3 : Nat := 0
  w4 : Nat := 0
  /-- A descriptor read was refused. -/
  halted : Bool := false
  /-- LAST was found, or 64 descriptors were read. -/
  whole : Bool := false

/-- Buffer bytes of word 0. -/
def bufLen (w0 : Nat) : Nat := if w0 % 2 ^ 19 = 0 ∨ 262144 < w0 % 2 ^ 19 then 262144 else w0 % 2 ^ 19

/-- Read the descriptors of the send at HEAD, up to TAIL. -/
def cDescs (p q : Nat) : Nat → Nat → CSend → (CSend → Upd) → Upd
  | 0, _, c, k => k c
  | n + 1, i, c, k => .read fun s =>
    if i = s.get (ETP_QTX_TAIL_INDEX p 0 q) then k c
    else qRead (p - 20) q (s.txBase p q + 32 * i) 32 fun r => match r with
      | none => k { c with halted := true }
      | some d =>
        let word (j : Nat) := leValue ((d.drop (4 * j)).take 4)
        let one := c.ds.isEmpty
        let ds := c.ds ++ [(word 0, word 1 + 2 ^ 32 * (word 2 % 256))]
        let c' : CSend := { c with ds := ds, w0 := if one then word 0 else c.w0, w3 := if one then word 3 else c.w3, w4 := if one then word 4 else c.w4 }
        if bit (word 0) 30 ∨ n = 0 then k { c' with whole := true }
        else cDescs p q n ((i + 1) % qSize (s.get (ETP_QTX_BASE_HI_SIZE p 0 q))) c' k

/-- Read the buffers; the flag says whether all were read. -/
def cBytes (p q : Nat) : List (Nat × Nat) → List Byte → (List Byte → Bool → Upd) → Upd
  | [], acc, k => k acc true
  | (w0, a) :: ds, acc, k => qRead (p - 20) q a (bufLen w0) fun r => match r with
    | none => k acc false
    | some bs => cBytes p q ds (acc ++ bs) k

def CSend.tso (c : CSend) : Bool := bit c.w0 29
def CSend.v6 (c : CSend) : Bool := bit c.w0 26
def CSend.udp (c : CSend) : Bool := bit c.w0 25
def CSend.l2 (c : CSend) : Nat := bits c.w3 31 24
def CSend.l3 (c : CSend) : Nat := bits c.w3 23 16
def CSend.l4 (c : CSend) : Nat := bits c.w3 15 8
def CSend.mss (c : CSend) : Nat := bits c.w4 15 0
def CSend.total (c : CSend) : Nat := c.ds.foldl (fun n d => n + bufLen d.1) 0

/-- The header lengths lie in the ranges of R427. -/
def CSend.hdrOk (c : CSend) : Bool :=
  let step (n lo hi : Nat) := decide (lo ≤ n) && decide (n ≤ hi) && n % 4 == 0
  (c.l2 == 14 || c.l2 == 18 || c.l2 == 22) && (if c.v6 then c.l3 == 40 else step c.l3 20 60)
    && (if c.udp then c.l4 == 8 else step c.l4 20 60)

/-- The send cannot be carried out (R429, R430). -/
def State.badSend (s : State) (p : Nat) (c : CSend) : Bool :=
  let last := c.ds.getLast?.any fun d => bit d.1 30
  !last ||
  (if c.tso then
    c.udp || !c.hdrOk || decide (c.mss < 64) || decide (9000 < c.mss) || decide (262144 < c.total)
      || decide (9216 < c.l2 + c.l3 + c.l4 + c.mss + 4)
  else decide (s.maxLen p - 4 < c.total) || ((bit c.w0 28 || bit c.w0 27) && !c.hdrOk) || (bit c.w0 28 && c.v6))

/-- Insert the checksums of R430. -/
def CSend.sums (c : CSend) (ip l4 : Bool) (f : Frame) : Frame :=
  let o := c.l2
  let f := if ip ∧ ¬ c.v6 then
      let g := patch f (o + 10) [0, 0]
      patch g (o + 10) (be16 (inetSum ((g.drop o).take c.l3)))
    else f
  if ¬ l4 then f else
  let at' := o + c.l3 + (if c.udp then 6 else 16)
  let g := patch f at' [0, 0]
  let body := g.drop (o + c.l3)
  let sum := inetSum (pseudo g o c.v6 (if c.udp then 17 else 6) body.length ++ body)
  patch g at' (be16 (if c.udp && sum == 0 then 0xFFFF else sum))

/-- Segment `k` of `n` (R429). -/
def CSend.segment (c : CSend) (data : List Byte) (n k : Nat) : Frame :=
  let h := c.l2 + c.l3 + c.l4
  let o := c.l2
  let t := o + c.l3
  let pay := (data.drop (h + k * c.mss)).take c.mss
  let hd := data.take h
  let hd := if c.v6 then patch hd (o + 4) (be16 (c.l4 + pay.length))
    else patch (patch hd (o + 4) (be16 ((at16 hd (o + 4) + k) % 65536))) (o + 2) (be16 (c.l3 + c.l4 + pay.length))
  let hd := patch hd (t + 4) (beBytes 4 ((beValue ((hd.drop (t + 4)).take 4) + k * c.mss) % 2 ^ 32))
  let fl := (hd[t + 13]?).getD 0
  let fl := if k + 1 = n then fl else fl &&& 0xF6
  let fl := if k = 0 then fl else fl &&& 0x7F
  c.sums (!c.v6) true (patch hd (t + 13) [fl] ++ pay)

/-- The frames of a send, and the bytes of the send that each needs. -/
def CSend.frames (c : CSend) (data : List Byte) : List (Frame × Nat) :=
  if c.tso then
    let h := c.l2 + c.l3 + c.l4
    let n := (c.total - h + c.mss - 1) / c.mss
    (List.range n).map fun k => (c.segment data n k, min c.total (h + (k + 1) * c.mss))
  else [(c.sums (bit c.w0 28) (bit c.w0 27) data, c.total)]

/-- Frames enter the switch in order; `k` learns how many were sent good. -/
def cFrames (p q : Nat) : List Frame → Nat → (Nat → Upd) → Upd
  | [], n, k => k n
  | f :: fs, n, k => msecTx p f fun r => match r with
    | none => cFrames p q fs n k
    | some g => .read fun s => seqs [
        count64 (ETP_CNT_TX_OCTETS p) (g.length + 4), count64 (ETP_CNT_TX_FRAMES p), swIn p (some q) g s.devTime, cFrames p q fs (n + 1) k]

/-- The end of a send: STATUS into its last descriptor, HEAD past it (R428). -/
def cEnd (p q : Nat) (c : CSend) (code segs : Nat) : Upd := .read fun s =>
  let size := qSize (s.get (ETP_QTX_BASE_HI_SIZE p 0 q))
  let head := s.get (ETP_QTX_HEAD_INDEX p 0 q)
  seqs [
    qWrite (p - 20) q (s.txBase p q + 32 * ((head + c.ds.length - 1) % size) + 24) (leBytes 4 (2 ^ 31 + code * 2 ^ 24 + segs)) fun _ => .skip,
    set (ETP_QTX_HEAD_INDEX p 0 q) ((head + c.ds.length) % size), raiseEtp p 4, qEvent (p - 20) q,
    whenU (c.tso && code != 2) (.seq (count64 (ETP_CNT_TX_TSO_SENDS p)) (count64 (ETP_CNT_TX_TSO_SEGS p) segs)),
    whenU (c.tso && (code == 1 || code == 3)) (.seq (count64 (ETP_CNT_TX_TSO_ABORT p)) (raiseEtp p 3)),
    whenU (code == 2 || code == 3) (raiseEtp p 7),
    if code = 3 then report 7 (some p) TR else whenU (code == 0) (elementOk 7 p)]

/-- A ring that holds work. -/
def State.txReady (s : State) (p q : Nat) : Bool :=
  s.flag (ETP_QTX_BASE_HI_EN p 0 q) && !s.frozenQueue p q && !bit (s.get (ETP_Q_STAT_TX_HALT p)) q
    && s.get (ETP_QTX_HEAD_INDEX p 0 q) != s.get (ETP_QTX_TAIL_INDEX p 0 q)

/-- Bytes of frame `k` of a send in the transmit FIFO when `n` bytes of its buffers were read. -/
def CSend.inFifo (c : CSend) (fs : List (Frame × Nat)) (n k : Nat) : Nat :=
  if k = 0 then n else n + (if c.tso then c.l2 + c.l3 + c.l4 else 0) - ((fs[k - 1]?).elim n (·.2))

/-- C_PORT_SEND (R427): a port serves the send at the head of its next ring (R426). `stop`: in frame `n` the data of the buffers stops
(underrun where the frame has started, R423, R425), or the cell's EN was written 0 (R438). A buffer read that is refused cuts the frame in
progress without raising CUR (R428). -/
def cPortSend (x : Fin 2) (stop : Fin 3) (n : Nat) : Upd := .read fun s =>
  let p := 20 + x.val
  let (left, ptr) := mapGet ([], 0) s.b.swq.rr p
  let on := s.flag (BLK_STAT_ENABLED 7) && (if stop = 2 then !s.flag (CELL_CTRL_EN 7 p) else s.portOn p)
  whenU on (match wrrGrant 8 (s.txReady p) (fun _ => 1) left ptr with
  | (none, left', ptr') => updSw fun y => { y with rr := mapPut ([], 0) y.rr p (left', ptr') }
  | (some q, left', ptr') =>
    cDescs p q 64 (s.get (ETP_QTX_HEAD_INDEX p 0 q)) {} fun c =>
      if c.halted then ringHalt p q q
      else if ¬ c.whole then .skip
      else .seq (updSw fun y => { y with rr := mapPut ([], 0) y.rr p (left', ptr') })
        (if s.badSend p c then cEnd p q c 2 0
        else cBytes p q c.ds [] fun data all =>
          let fs := c.frames data
          let good := (fs.takeWhile fun f => all || f.2 ≤ data.length).map (·.1)
          let ends (code : Nat) (l : List Frame) : Upd := cFrames p q l 0 fun m =>
            cEnd p q c (if code = 0 ∧ m = 0 ∧ l ≠ [] then 5 else code) m
          let cur := s.get (ETP_TX_THR_CUR p)
          let cut := (good[n]?).any fun g => cur != 0 && decide (64 * cur < g.length)
          if stop = 1 ∧ cut then .seq (underrunAt p ((good[n]?).elim 0 (·.length) - 64 * cur)) (ends 1 (good.take n))
          else if stop = 2 ∧ n + 1 < good.length then ends 4 (good.take (n + 1))
          else if !all then .seq (whenU (cur != 0 && decide (64 * cur ≤ c.inFifo fs data.length good.length))
            (.seq (count64 (ETP_CNT_TX_UNDERRUN p)) (raiseEtp p 1))) (ends 3 good)
          else ends 0 good))

/-! ## Writes of registers (R419, R423, R433, R434, R440) -/

def cfgRej (p : Nat) : Upd := raiseEtp p 11

/-- TX_THR_WRITE. -/
def txThrHook (p : Nat) : Upd := .read fun s =>
  let v := s.get (ETP_TX_THR_START p)
  set (ETP_TX_THR_CUR p) (if 144 < v then 0 else v)

/-- MACSEC_SA_ENABLE: a write of ETP_SA_CTRL[e]. -/
def saHook (p e pid v : Nat) : Upd := .read fun s =>
  let put (k : Option LoadedKey) : Upd := updSw fun x => { x with keys := mapPut none x.keys (32 * p + e) k }
  if bit v 31 then
    let (err, k) := s.loadKey pid (bits v 8 0) (if e < 4 then 0 else 1) [2]
    seqs [put k, set (ETP_SA_CTRL_KEY_OK p 0 e) k.isSome.toNat, set (ETP_SA_CTRL_KEY_ERR p 0 e) err,
      set (ETP_SA_CTRL_SA_EN p 0 e) k.isSome.toNat, whenU k.isNone (cfgRej p)]
  else .seq (put none) (set (ETP_SA_CTRL_KEY_OK p 0 e) 0)

/-- A loaded SA key is lost (R434). -/
def saKeyLost (p e : Nat) : Upd := seqs [
  updSw fun x => { x with keys := mapPut none x.keys (32 * p + e) none },
  set (ETP_SA_CTRL_SA_EN p 0 e) 0, set (ETP_SA_CTRL_KEY_OK p 0 e) 0, set (ETP_SA_CTRL_KEY_ERR p 0 e) 3, raiseEtp p 8, report 7 (some p) TR]

/-- A write of a ring's BASE_HI: EN = 0 lets a halted ring restart; `b` is its bit of ETP_Q_STAT. -/
def ringEnHook (p b v : Nat) : Upd := whenU (!bit v 31) (clrBit (ETP_Q_STAT p) b)

/-- What a write of an ETP register does before it is stored: the word that is stored, none where the write is silent; the flag
raises CFG_REJ. `off` is the cell offset. -/
def State.etpFilter (s : State) (p off old v : Nat) : Option Nat × Bool :=
  let sa := (off - 0x200) % 32
  let saOn := s.flag (ETP_SA_CTRL_SA_EN p 0 ((off - 0x200) / 32))
  let ring := (off - 0x500) % 32
  if off = 0x40 then
    if s.flag (ETP_MSEC_CFG_EN p) ∧ v % 2 ^ 31 / 2 ^ 20 * 2 ^ 20 + v % 65536 ≠ old % 2 ^ 31 / 2 ^ 20 * 2 ^ 20 + old % 65536 then
      (some (withBits (withBits old 31 31 (v / 2 ^ 31)) 19 16 (bits v 19 16)), true)
    else (some v, false)
  else if 0x200 ≤ off ∧ off < 0x480 ∧ sa ≠ 0 then (if saOn then (none, false) else (some v, false))
  else if 0x500 ≤ off ∧ off < 0x600 ∧ (ring = 0 ∨ ring = 0x10) then
    (let en := s.bitAt (cellBase 7 p + off + 4) 31
     if en then (none, true) else (some v, false))
  else if 0x500 ≤ off ∧ off < 0x600 ∧ (ring = 4 ∨ ring = 0x14) then
    (if bit old 31 ∧ v % 2 ^ 31 ≠ old % 2 ^ 31 then (some (withBits old 31 31 (v / 2 ^ 31)), true) else (some v, false))
  else if (off = 0x34 ∨ off = 0x3C) ∧ (s.flag (CELL_STAT_ENABLED 7 p) ∨ s.flag (CELL_STAT_DRAINING 7 p)) then (none, false)
  else (some v, false)

/-- Registers a port has no use for read 0 and ignore writes (R440). -/
def etpUnused (p off : Nat) : Bool :=
  (20 ≤ p && (off == 0x24 || off == 0x30 || off == 0x34 || off == 0x3C || off == 0x54 || off == 0x38))
    || ((p == 18 || p == 19) && ((0x40 ≤ off && off < 0x54) || (0x60 ≤ off && off < 0x80) || (0x200 ≤ off && off < 0x480)
        || off == 0x30 || off == 0x54))
    || (p < 18 && (off == 0x34 || off == 0x3C))
    || (p != 20 && p != 21 && (off == 0x80 || (0x500 ≤ off && off < 0x600)))

/-! ## Enable, disable, reset (R418, R438) -/

/-- Frames under way hold a port's drain open. -/
def State.etpBusy (s : State) (p : Nat) : Bool := (mapGet none s.b.swq.tx p).isSome || (s.openFrame p).isSome

/-- What the end of a port's drain adds: its link is down, the queued copies go (R456). -/
def etpDrained (p : Nat) : Upd := .seq (linkDown p) (dropCopies p (SWC_OUT_UNAVAIL p) fun _ _ => true)

/-- What a cell reset adds: keys and frames in the rings are gone. -/
def etpCellRst (p : Nat) : Upd := updSw fun x => { x with
  keys := x.keys.filter fun e => e.1 / 32 != p
  rxWait := x.rxWait.filter fun e => e.1 / 8 != p
  drops := mapPut 0 x.drops p 0
  rr := mapPut ([], 0) x.rr p ([], 0) }

end Sys2Proof.Machine
end

