-- ==== Sys2Proof/Machine/Tmb.lean ====
section
/-!
DEFINITION. The time base: device time, slew and step, the dice's copies, event message stamps, PPS, CAN captures
(21_time_base_and_time_stamping.md).
-/
namespace Sys2Proof.Machine

def updTmb (f : Tmb → Tmb) : Upd := upd fun b => { b with tmb := f b.tmb }

/-- One nanosecond in the units of the accumulator (R468). -/
def nsUnit : Nat := 6 * 2 ^ 40

/-- A two's complement number of `w` bits. -/
def signed (w v : Nat) : Int := if 2 ^ (w - 1) ≤ v % 2 ^ w then (v % 2 ^ w : Nat) - (2 ^ w : Nat) else (v % 2 ^ w : Nat)

/-- What one FAB_CLK cycle adds to device time (R468): 5/6 ns × (1 + TMB_RATE × 2^−40). -/
def State.tickRate (s : State) : Nat :=
  let r := max (-549755814) (min 549755814 (signed 32 (s.reg TMB_RATE)))
  (5 * ((2 ^ 40 : Nat) + r)).toNat

/-- What a slew adds or takes in one cycle at most (R469). -/
def State.slewRate (s : State) : Nat := 5 * 2 ^ 40 * min 1000 (max 1 (s.get TMB_CFG_SLEW_PPM)) / 1000000

/-- One FAB_CLK cycle passes (R468, R469); in a sleep state device time waits for the resume (R472). -/
def tick : Upd := .read fun s =>
  if 2 ≤ s.get MSU_PWR_STATE_STATE then upd fun b => { b with fab := { b.fab with now := b.fab.now + 1 } } else
  let x := min s.slewRate s.b.tmb.rem.natAbs
  let d : Int := if s.b.tmb.rem < 0 then -(x : Int) else x
  upd fun b => { b with
    fab := { b.fab with now := b.fab.now + 1 }
    tmb := { b.tmb with acc := ((b.tmb.acc : Int) + s.tickRate + d).toNat, rem := b.tmb.rem - d } }

/-- The offset that a slew still has to add, in ns, as TMB_ADJ reads. -/
def State.adjRead (s : State) : Nat := ((s.b.tmb.rem.tdiv nsUnit) % (2 ^ 32 : Nat)).toNat

/-! ## Slew and step -/

/-- The end of a slew, with SLEW_DONE. -/
def slewEnd : Upd := .read fun s => .seq (updTmb fun x => { x with rem := 0 })
  (whenU (s.flag TMB_STAT_SLEWING) (.seq (set TMB_STAT_SLEWING 0) (raise 12 4)))

/-- SLEW_DONE (R469): the offset is used up. -/
def slewDone : Upd := .read fun s => whenU (s.flag TMB_STAT_SLEWING)
  (.seq (updTmb fun x => { x with acc := ((x.acc : Int) + x.rem).toNat }) slewEnd)

/-- A write of TMB_ADJ. -/
def tmbAdjHook (v : Nat) : Upd := .seq (set TMB_STAT_ESTIMATED 0)
  (if v % 2 ^ 32 = 0 then slewEnd
  else .seq (updTmb fun x => { x with rem := signed 32 v * nsUnit }) (set TMB_STAT_SLEWING 1))

/-- Device time steps: the PWM periods in progress complete as they began (R290). -/
def periodsShift (d : Int) : Upd := upd fun b =>
  { b with lsw := { b.lsw with ch := b.lsw.ch.map fun e => (e.1, { e.2 with start := ((e.2.start : Int) + d).toNat }) } }

/-- A write of TMB_STEP_CTRL (R470, R471). -/
def tmbStepHook (v : Nat) : Upd := .seq (set TMB_STEP_CTRL_GO 0) (whenU (bit v 0) (.read fun s => seqs [
  slewEnd,
  updTmb fun x => { x with acc := ((x.acc : Int) + signed 64 (s.reg64 TMB_STEP_LO TMB_STEP_HI) * nsUnit).toNat },
  .read fun s' => periodsShift ((s'.devTime : Int) - s.devTime),
  incWrap TMB_STAT_STEP_CNT, set TMB_STAT_ESTIMATED 0, raise 12 3,
  forEach (List.finRange 25) fun p => .read fun s =>
    whenU (s.flag (SWC_GCL_STAT_PENDING p) && (s.gcl p).change ≤ s.devTime) (gclChange p)]))

/-! ## The dice's copies (R473) -/

/-- DIE_TIME_UPDATE: device time is sent to each powered die; `got`: the dice that received it. -/
def dieTimeUpdate (got : Fin 16) : Upd := .read fun s => forN 4 fun d =>
  whenU ((s.die d).on && bit got d) (clrBit TMB_STAT (16 + d))

/-- DIE_UNSYNC: a die misses 4 updates in a row. -/
def dieUnsync (d : Fin 4) : Upd := .read fun s => whenU ((s.die d).on) (seqs [
  setBit TMB_STAT (16 + d.val), raise 12 5, report 12 none TR])

/-! ## Event messages (R475, R476) -/

/-- A write of TMB_TS_POP discards the head stamp. -/
def tsPopHook : Upd := .seq (updTmb fun x => { x with fifo := x.fifo.drop 1 }) showStamps

/-- A write of TMB_PTP_TX. -/
def ptpTxHook (v : Nat) : Upd := .seq (set TMB_PTP_TX_GO 0) (.read fun s => whenU (bit v 31 && s.flag (BLK_STAT_ENABLED 12)) (
  let p := bits v 28 24
  if 19 < p ∨ ¬ s.portOn p then set TMB_PTP_TX_STAT_RES 2
  else seqs [set TMB_PTP_TX_STAT_BUSY 1, set TMB_PTP_TX_STAT_RES 0,
    enqueue 30 p 7 ((((List.range 32).map fun i => leBytes 4 (s.reg (TMB_PTP_FRAME i))).flatten).take (min 128 (max 44 (bits v 7 0))))]))

/-! ## PPS (R477, R478) -/

/-- A rising edge of FL_SYNC is captured, and with FOLLOW corrected by slew. -/
def ppsEdge : Upd := .read fun s => whenU (s.flag (BLK_STAT_ENABLED 12)) (
  let c : Int := s.devTime
  let e := (c - s.get TMB_PPS_CFG_SYNC_DELAY + 500000000) % 1000000000 - 500000000
  let w := ((-e) % (2 ^ 32 : Nat)).toNat
  seqs [setReg64 TMB_PPS_CAP_LO TMB_PPS_CAP_HI s.devTime, raise 12 2,
    whenU (s.flag TMB_PPS_CFG_FOLLOW) (.seq (setReg TMB_ADJ w) (tmbAdjHook w))])

/-- PPS_CAPTURE: an edge that another module drives. -/
def ppsCapture : Upd := .read fun s => whenU (!s.b.tmb.sync) ppsEdge

/-- PPS_PULSE: device time reaches a whole second. -/
def ppsPulse : Upd := .read fun s =>
  whenU (s.flag TMB_PPS_CFG_DRIVE && s.get MSU_BOOT_CFG_CHAIN_MODE != 0 && s.flag (BLK_STAT_ENABLED 12) && !s.b.tmb.sync)
    (seqs [updTmb fun x => { x with sync := true }, set FLK_SB_STAT_SYNC 1, ppsEdge])

/-- PPS_PULSE_END: 10 ms after the rise. -/
def ppsPulseEnd : Upd := .read fun s => whenU s.b.tmb.sync
  (.seq (updTmb fun x => { x with sync := false }) (set FLK_SB_STAT_SYNC 0))

/-! ## CAN captures (R479) -/

def canCapt : Upd := .read fun s => whenU (s.flag (BLK_STAT_ENABLED 12)) (seqs [
  setReg TMB_CAN_CNT (s.canTs (s.get TMB_CAN_CAP_CH)), setReg64 TMB_CAN_DT_LO TMB_CAN_DT_HI s.devTime, raise 12 6])

/-- A write of TMB_CAN_CAP. -/
def canCapHook (v : Nat) : Upd := .seq (set TMB_CAN_CAP_GO 0) (whenU (bit v 31) canCapt)

/-- CAN_CAPTURE_AUTO: AUTO_MS passes. -/
def canCaptureAuto : Upd := .read fun s => whenU (s.flag TMB_CAN_CAP_AUTO_MS) canCapt

/-! ## Reset (R480) -/

/-- The registers of TMB that a block reset keeps. -/
def tmbKept (a : Nat) : Bool := a == TMB_RATE

/-- What a block reset of TMB adds: stamps and a slew are gone; STEP_CNT and ESTIMATED stay. `old` is TMB_STAT before. -/
def tmbReset (old : Nat) : Upd := seqs [
  updTmb fun x => { x with fifo := [], rem := 0 }, showStamps,
  setReg TMB_STAT (withBits (withBits old 31 31 0) 19 16 0)]

end Sys2Proof.Machine
end

