-- ==== Sys2Proof/Machine/Hbr.lean ====
section
/-!
DEFINITION. The host bridge: MSI-X, late-write records, barriers, semaphores, trackers and back-off
(26_host_port_and_bridge.md).
-/
namespace Sys2Proof.Machine

def updHbr (f : Hbr → Hbr) : Upd := upd fun b => { b with hbr := f b.hbr }

/-- Who makes a request: a local requester, a host function, a chain device with its INST (R602). -/
inductive Origin where
  | loc | host (fn : Nat) | chain (dev inst : Nat)
  deriving DecidableEq, Repr

/-! ## MSI-X (R590) -/

/-- The words of a vector's entry; a vector is masked until its entry is written. -/
def State.msixEntry (s : State) (fn v : Nat) : List Nat :=
  let e := mapGet [] s.b.hbr.msix (2048 * fn + v)
  if e.isEmpty then [0, 0, 0, 1] else e

/-- The host port is PCIe. -/
def State.pcie (s : State) : Bool := s.get MSU_BOOT_CFG_HOST_PORT_SEL == 0

/-- MSIX_SEND: a message of vector `v` of function `fn`, or its pending bit while it is masked or the bridge holds the module's requests
(R605). -/
def msixSend (fn v : Nat) : Upd := .read fun s =>
  whenU (s.pcie && s.hostUp && s.b.hbr.msixOn.contains fn) (
    if bit ((s.msixEntry fn v).getD 3 0) 0 ∨ ¬ s.flag (BLK_STAT_ENABLED 14) then updHbr fun h => { h with pba := (2048 * fn + v) :: h.pba.erase (2048 * fn + v) }
    else count HBR_CNT_DEV_WR)

/-- The host writes word `w` of a vector's entry: unmasking sends a pending message. -/
def msixWrite (fn v w x : Nat) : Upd := .read fun s =>
  let key := 2048 * fn + v
  .seq (updHbr fun h => { h with msix := mapPut [] h.msix key ((s.msixEntry fn v).set w x) })
    (whenU (w == 3 && !bit x 0 && s.b.hbr.pba.contains key)
      (.seq (updHbr fun h => { h with pba := h.pba.erase key }) (msixSend fn v)))

/-- The bridge is enabled: messages that it held are sent (R605). -/
def hbrStart : Upd := .read fun s => forEach (s.b.hbr.pba.filter fun e => !bit ((s.msixEntry (e / 2048) (e % 2048)).getD 3 0) 0) fun e =>
  .seq (updHbr fun h => { h with pba := h.pba.erase e }) (msixSend (e / 2048) (e % 2048))

/-! ## Late-write records (R594 to R596) -/

/-- A stale item of an instance (R629). -/
def staleItem (n : Nat) : Upd := seqs [count (IOM_INST_STALE n), raise 6 3, raiseCell 6 n 3]

/-- The function that owns record `n`: the PF, or the VF of its instance. -/
def State.recFn (s : State) (n : Nat) : Nat := if n < 256 then s.get (IOM_INST_OWNER_VF n) else 0

/-- The error that an error cause logs in AER (R591). -/
def aerOf (cause : Nat) : AerErr := if cause = 1 ∨ cause = 4 then .unsupported else .abort

/-- LATE_WRITE_RECORD: a posted write of record `n` failed; `host`: the host made it. -/
def lateRecord (n kind cause dev pid addr len wseq gen : Nat) (host : Bool) : Upd := .read fun s =>
  let inst := decide (n < 256)
  if inst ∧ gen ≠ s.get (IOM_INST_GEN_GEN n) then staleItem n else
  let size := 2 ^ min 10 (max 4 (s.get (HBR_LATE_WRITE_RING_SIZE n)))
  let head := s.get (HBR_LATE_WRITE_IDX_HEAD n)
  let base := s.get (HBR_LATE_WRITE_RING_BASE n) * 64 + s.get (HBR_LATE_WRITE_IDX_BASE_HI n) * 2 ^ 32
  let w0 := 2 ^ 31 + kind * 2 ^ 28 + cause * 2 ^ 24 + dev * 2 ^ 16 + pid * 2 ^ 8 + inst.toNat
  if ¬ s.flag (HBR_LATE_WRITE_RING_EN n) ∨ (head + 1) % size = s.get (HBR_LATE_WRITE_IDX_TAIL n) % size then
    .seq (set (HBR_LATE_WRITE_RING_OVF n) 1) (updHbr fun h => { h with ovf := n :: h.ovf.erase n })
  else let ctx := if inst then 256 + n else 62
  engineWrite 1 ctx (s.ctxPid ctx) (base + 32 * head)
    (leBytes 4 w0 ++ leBytes 4 (wseq * 2 ^ 16 + gen * 2 ^ 8 + n % 256) ++ leBytes 4 addr ++ leBytes 4 (len * 2 ^ 16 + addr / 2 ^ 32 % 256)
      ++ leBytes 8 s.devTime ++ leBytes 8 0) fun ok =>
    if ¬ ok then seqs [
      set (HBR_LATE_WRITE_IDX_HALT n) 1, set (HBR_LATE_WRITE_RING_EN n) 0, raise 14 4, report 14 none TR]
    else seqs [
      set (HBR_LATE_WRITE_IDX_HEAD n) ((head + 1) % size),
      updHbr fun h => { h with err := mapPut none h.err n (some ((mapGet none h.err n).getD wseq)) },
      raise 14 0, count HBR_CNT_LATE_WRITE, whenU (host && s.pcie) (aerLog ⟨s.recFn n, aerOf cause, false, 1, addr, len⟩),
      if inst then .seq (whenU (s.get (IOM_INST_OWNER_OKIND n) == 2) (msixSend (s.get (IOM_INST_OWNER_VF n)) 0)) (raiseVec n 2)
      else msixSend 0 0]

/-- The write of a record and number that is still remembered. -/
def State.chainSent (s : State) (n wseq : Nat) : Option ChainWrite := s.b.hbr.sent.find? fun w => w.recN == n && w.wseq == wseq

/-- Forget a write whose fate is known. -/
def forget (n wseq : Nat) : Upd := updHbr fun h => { h with sent := h.sent.filter fun w => !(w.recN == n && w.wseq == wseq) }

/-- LOST_PACKET_RX (R576): a posted write of this module was lost at a break. -/
def lostWrite (instV : Bool) (inst wseq : Nat) : Upd := .read fun s =>
  let n := if instV then inst else 256
  if wseq = 0xFFFF ∧ ¬ instV ∧ s.b.iom.copy.isSome then upd fun b => { b with iom := { b.iom with copy := some 8 } }
  else match s.chainSent n wseq with
  | none => .skip
  | some w => .seq (forget n wseq) (if w.isSig ∧ ¬ instV then count SRT_CNT_REMOTE_DROP
      else lateRecord n 2 0 w.dev w.pid w.addr w.len wseq w.gen w.host)

/-- WRITE_FAULT_RX (R594): words 0 to 3 of the record that a target reports. -/
def writeFault (w0 w1 w2 w3 : Nat) : Upd := .read fun s =>
  let n := if bit w0 0 then w1 % 256 else 256
  let wseq := w1 / 2 ^ 16 % 2 ^ 16
  if wseq = 0xFFFF ∧ n = 256 ∧ s.b.iom.copy.isSome then upd fun b => { b with iom := { b.iom with copy := some 5 } }
  else match s.chainSent n wseq with
  | none => .skip
  | some w => .seq (forget n wseq) (if w.isSig ∧ n = 256 then count SRT_CNT_REMOTE_DROP
      else lateRecord n (bits w0 30 28) (bits w0 27 24) (bits w0 21 16) (bits w0 13 8) (w2 + bits w3 7 0 * 2 ^ 32) (bits w3 24 16) wseq w.gen w.host)

def lostPacketRx (instV : Bool) (inst : Fin 256) (wseq : Fin 65536) : Upd := lostWrite instV inst wseq
def writeFaultRx (w0 w1 w2 w3 : Word) : Upd := writeFault w0.toNat w1.toNat w2.toNat w3.toNat

/-! ## Reads on the chain (R577) -/

/-- A read leaves on the chain with a free TAG, or waits for one. -/
def chainRead (dev kind idx len pid a : Nat) (srcHost : Bool) : Upd := .read fun s =>
  let p : Pkt := { type := 2, vc := 2, dst := dev, pid := pid, len := len, w2 := a % 2 ^ 32, addrHi := a / 2 ^ 32 % 256, srcHost := srcHost }
  match (List.range 256).find? fun t => s.b.flk.reads.all (·.tag != t) with
  | some t => .seq (updFlk fun x => { x with reads := x.reads ++ [⟨t, dev, kind, idx, len⟩] }) (flkOut { p with tag := t })
  | none => updFlk fun x => { x with waiting := x.waiting ++ [(⟨0, dev, kind, idx, len⟩, p)] }

/-- A completed read frees its TAG: the next one that waits takes it. -/
def tagFree (t : Nat) : Upd := .read fun s => match s.b.flk.waiting with
  | [] => updFlk fun x => { x with reads := x.reads.filter (·.tag != t) }
  | (r, p) :: rest => .seq
      (updFlk fun x => { x with reads := x.reads.filter (·.tag != t) ++ [{ r with tag := t }], waiting := rest }) (flkOut { p with tag := t })

/-! ## Trackers (R598, R601) -/

/-- HBR_TRK_STAT shows the trackers in use. -/
def showTrk : Upd := .read fun s => .seq
  (set HBR_TRK_STAT_HOST (s.b.hbr.reads.length + (s.b.hbr.barriers.filter (·.host)).length)) (set HBR_TRK_STAT_DEV s.b.hbr.devRd.length)

/-- Trackers that are held. -/
def State.trkHost (s : State) : Nat := s.b.hbr.reads.length + (s.b.hbr.barriers.filter (·.host)).length
def State.trkFree (s : State) : Bool := s.trkHost + s.b.hbr.devRd.length < 64

/-- A read of the module finds a tracker outside the host reserve, and no host read waits. -/
def State.devTrkFree (s : State) : Bool :=
  s.b.hbr.waitRd.isEmpty && s.b.hbr.devRd.length + max s.trkHost (s.get HBR_CFG_HOST_RSV) < 64

/-! ## Barriers (R597) -/

/-- WSYNC_BARRIER: initiator `n` reads its write-sync word; `reply` is the request where the read came over the chain. -/
def wsyncStart (n : Nat) (host : Bool) (reply : Option Pkt := none) : Upd := .read fun s =>
  let devs := ((s.b.hbr.sent.filter (·.recN == n)).map (·.dev)).eraseDups
  seqs [
    updHbr fun h => { h with barriers := h.barriers ++ [⟨n, devs, (mapGet 0 s.b.hbr.wseq n + 65535) % 65536, host, reply⟩] },
    forEach devs fun d => chainRead d 1 n 0 ((s.ctxPid (if n < 256 then 256 + n else 62)).1) 0x100000000 false,
    showTrk]

/-- The value a barrier returns; ERR and OVF start again, the writes covered are forgotten. -/
def wsyncEnd (b : Barrier) (timeout : Bool) : Upd := .read fun s =>
  let e := mapGet none s.b.hbr.err b.recN
  let v := e.isSome.toNat * 2 ^ 31 + (s.b.hbr.ovf.contains b.recN).toNat * 2 ^ 30 + timeout.toNat * 2 ^ 29 + e.getD b.last
  seqs [
    updHbr fun h => { h with
      err := mapPut none h.err b.recN none
      ovf := h.ovf.erase b.recN
      sent := if timeout then h.sent else h.sent.filter (·.recN != b.recN)
      barriers := h.barriers.erase b },
    whenU (b.recN == 256) (setReg HBR_WSYNC v),
    match b.reply with
    | some p => flkOut { type := 3, vc := 2, dst := p.src, dstHost := p.srcHost, tag := p.tag, len := 4, data := leBytes 4 v }
    | none => updFab fun f => { f with resp := { ok := true, data := (leBytes 4 v).map (·.toNat) } },
    showTrk]

/-- WSYNC_DONE: every covered write of record `n` is accounted for. -/
def wsyncDone (n : Fin 257) : Upd := .read fun s => match s.b.hbr.barriers.find? fun b => b.recN == n.val && b.devs.isEmpty with
  | some b => whenU (!s.b.hbr.heldWr.any fun w => w.recN == n.val && decide ((b.last + 65536 - w.wseq) % 65536 < 32768)) (wsyncEnd b false)
  | none => .skip

/-- A device's answer to a barrier's read. -/
def wsyncAnswer (n dev : Nat) : Upd := updHbr fun h => { h with barriers := h.barriers.map fun b =>
  if b.recN = n then { b with devs := b.devs.erase dev } else b }

/-! ## Semaphores (R602, R603) -/

/-- The words KIND, ID and SUB of an owner. -/
def ownerOf (o : Origin) (pid : Nat) : Nat × Nat × Nat := match o with
  | .loc => (2, 0, pid)
  | .host fn => (1, fn, 0)
  | .chain d i => (3, d, i)

def State.semOwner (s : State) (i : Nat) : Nat × Nat × Nat := (s.get (HBR_SEM_KIND i), s.get (HBR_SEM_ID i), s.get (HBR_SEM_SUB i))

def semFree (i : Nat) : Upd := setReg (HBR_SEM i) 0

/-- SEM_TAKE and SEM_RELEASE: a write of HBR_SEM[i]; it stores nothing else. -/
def semHook (i : Nat) (o : Origin) (pid v : Nat) : Upd := .read fun s =>
  let (k, d, b) := ownerOf o pid
  if bit v 29 ∧ s.flag (HBR_SEM_HELD i) ∧ s.semOwner i = (k, d, b) then semFree i
  else whenU (bit v 31 && !s.flag (HBR_SEM_HELD i)) (setReg (HBR_SEM i) (2 ^ 31 + k * 2 ^ 14 + d * 2 ^ 8 + b))

/-- SEM_TIMEOUT. -/
def semTimeout (i : Fin 64) : Upd := .read fun s => whenU (s.flag (HBR_SEM_HELD i.val)) (.seq (semFree i) (raise 14 3))

/-- The semaphore that holds a host access to `n` bytes at `a` by function `fn`. -/
def State.semHolds (s : State) (fn a n : Nat) : Option Nat := (List.range 64).find? fun i =>
  s.flag (HBR_SEM_HELD i) && s.semOwner i != (1, fn, 0) &&
    (let g := s.get (HBR_SEM_ADDR_LO_ADDR i) * 64 + s.get (HBR_SEM_ADDR_HI_ADDR_HI i) * 2 ^ 32
     decide (a < g + 64) && decide (g < a + n))

/-- Semaphores of the functions that `p` names are freed (R605). -/
def semFreeHost (p : Nat → Bool) : Upd := forN 64 fun i => .read fun s =>
  whenU (s.get (HBR_SEM_KIND i) == 1 && p (s.get (HBR_SEM_ID i))) (semFree i)

/-- Writes of the granule address while held, and of a ring's base and size while enabled, are ignored (R609). -/
def State.hbrFilter (s : State) (off old v : Nat) : Nat :=
  if 0x300 ≤ off ∧ off < 0x500 then (if s.flag (HBR_SEM_HELD ((off - 0x300) / 8)) then old else v)
  else if 0x700 ≤ off ∧ off < 0x700 + 8 * 257 then
    let i := (off - 0x700) / 8
    let en := s.flag (HBR_LATE_WRITE_RING_EN i)
    if ¬ en then v
    else if (off - 0x700) % 8 = 0 then withBits (withBits old 5 5 (v / 32)) 4 4 (v / 16) else withBits old 31 22 (v / 2 ^ 22)
  else v

/-- EN of a late-write ring written 1 anew: indices and HALT are 0. -/
def lateRingHook (i old v : Nat) : Upd := whenU (bit v 5 && !bit old 5) (seqs [
  set (HBR_LATE_WRITE_IDX_TAIL i) 0, set (HBR_LATE_WRITE_IDX_HEAD i) 0, set (HBR_LATE_WRITE_IDX_HALT i) 0])

/-! ## The module's reads towards the host (R599 to R601) -/

/-- End of a read of another device towards the host: a completion to it (R577). -/
def devRdEnd (r : DevRd) (ok : Bool) (data : List Byte) : Upd :=
  flkOut { type := 3, vc := 2, dst := r.dev, srcHost := true, tag := r.tag, len := data.length, w2 := if ok then 0 else 2 ^ 28, data := data }

/-- The AER event of such a read: the PF makes it (R600). -/
def devAer (r : DevRd) (e : AerErr) : Upd := aerLog ⟨0, e, true, 3, r.id, r.len⟩

/-- A read towards the host is presented: it takes a tracker or is withdrawn; a disabled bridge holds it (R605). What the host answers is
outside the module: data, UR, CA or nothing yet, by free value (notes/assumptions/12.md). -/
def devRdTry (r : DevRd) : Upd := .read fun s =>
  if ¬ s.flag (BLK_STAT_ENABLED 14) then updHbr fun h => { h with backoff := h.backoff ++ [r] }
  else if ¬ s.devTrkFree then
    let m := s.get HBR_BACKOFF_RETRY_MAX
    .seq (count HBR_CNT_BACKOFF) (if m ≠ 0 ∧ m < r.tries + 1 then .seq (devAer r .timeout) (devRdEnd r false [])
      else updHbr fun h => { h with backoff := h.backoff ++ [{ r with tries := r.tries + 1 }] })
  else .seq (count HBR_CNT_DEV_RD) (free fun v => match v % 4 with
    | 0 => freeBytes r.len fun bs => devRdEnd r true bs
    | 3 => .seq (updHbr fun h => { h with devRd := h.devRd ++ [r] }) showTrk
    | e => .seq (devAer r (aerRefused (e - 1))) (devRdEnd r false []))

/-- BACKOFF_RETRY (R601): a withdrawn request is presented again. -/
def backoffRetry (i : Nat) : Upd := .read fun s => match s.b.hbr.backoff[i]? with
  | none => .skip
  | some r => .seq (updHbr fun h => { h with backoff := h.backoff.erase r }) (devRdTry r)

/-- DEV_READ_TIMEOUT (R599): a read has no completion after DEV_CPL_TO_US. -/
def devReadTimeout (i : Nat) : Upd := .read fun s => match s.b.hbr.devRd[i]? with
  | none => .skip
  | some r => seqs [
      updHbr fun h => { h with devRd := h.devRd.erase r }, count HBR_CNT_DEV_CPL_TO, raise 14 2, showTrk, devAer r .timeout,
      devRdEnd r false []]

/-- HBR_RD_ERR records a host read's error. -/
def rdErr (kind fn : Nat) : Upd := seqs [set HBR_RD_ERR_KIND kind, set HBR_RD_ERR_FUNC fn, inc HBR_RD_ERR_CNT]

/-- A host read ends in an error: AER of its function (R591). -/
def hostRdAer (r : HostRd) (cause : Nat) : Upd := aerLog ⟨r.func, aerOf cause, false, if r.op.isSome then 2 else 0, r.addr, r.len⟩

/-- HOST_READ_TIMEOUT (R599): the `i`-th host read that holds a tracker, or the barrier of the host, has no data after RD_TO_US. -/
def hostReadTimeout (i : Nat) (barrier : Bool) : Upd := .read fun s =>
  let tell (fn : Nat) : Upd := seqs [rdErr 1 fn, raise 14 1, count HBR_CNT_RD_TIMEOUT, msixSend 0 0]
  if barrier then match s.b.hbr.barriers.find? (·.host) with
    | some b => seqs [wsyncEnd b true, tell (s.recFn b.recN), aerLog ⟨s.recFn b.recN, .abort, false, 0, if b.recN < 256 then IOM_IP_WSYNC b.recN else HBR_WSYNC, 4⟩]
    | none => .skip
  else match s.b.hbr.reads[i]? with
    | none => .skip
    | some r => seqs [
        updHbr fun h => { h with reads := h.reads.erase r }, showTrk, tell r.func, hostRdAer r 0,
        updFab fun f => { f with resp := { ok := false, cause := 0 } }]

end Sys2Proof.Machine
end

