-- ==== Sys2Proof/Machine/Lin.lean ====
section
/-!
DEFINITION. The LIN channels: frame table, schedule, results, sleep and wake (18_lin.md).
-/
namespace Sys2Proof.Machine

def State.linCh (s : State) (n : Nat) : LinCh := mapGet {} s.b.lin n
def updLin (n : Nat) (f : LinCh → LinCh) : Upd := upd fun b => { b with lin := mapPut {} b.lin n (f (mapGet {} b.lin n)) }

/-- Word `w` of the entry of frame `f`, and schedule entry `e` (R409, R410). -/
def linEntry (n f w : Nat) : Nat := 0x39800000 + 0x1000 * n + 16 * f + 4 * w
def linSched (n e : Nat) : Nat := 0x39800000 + 0x1000 * n + 0x400 + 4 * e

/-- The length of a frame by its entry. -/
def linLen (w0 : Nat) : Nat := let l := bits w0 3 0; if l = 0 ∨ 8 < l then 8 else l

/-- Set a channel's state. -/
def linState (n st : Nat) : Upd := set (LIN_CH_STAT_STATE n) st

/-- The schedule of a master stops. -/
def linStop (n : Nat) : Upd := .seq (set (LIN_CH_STAT_SCHED n) 0) (updLin n fun x => { x with switch := false, late := false })

/-- Whether the frame's sporadic bit is pending. -/
def State.sporPending (s : State) (n f : Nat) : Bool :=
  if f < 32 then s.bitAt (LIN_SPOR_PEND_LO n) f else s.bitAt (LIN_SPOR_PEND_HI n) (f - 32)

/-- The frame that a header with identifier `f` begins, by its entry; none where the header is ignored. -/
def State.linBegin (s : State) (n f : Nat) (evt spor : Bool) : Option LinFrame :=
  let w0 := s.load (linEntry n f 0) 4
  let dir := bits w0 30 29 % 3
  if 62 ≤ f ∨ ¬ bit w0 31 ∨ dir = 0 then none else
  let raw := s.load (linEntry n f 2) 8
  let rb := s.get (LIN_CH_CFG_RE_BIT n)
  let v := if s.flag (LIN_CH_CFG_RE_EN n) ∧ f = s.get (LIN_CH_CFG_RE_ID n) ∧ dir = 1
    then withBits raw rb rb (s.linCh n).err.toNat else raw
  some ⟨f, dir, linLen w0, evt, spor, (leBytes 8 v).take (linLen w0)⟩

/-- Begin schedule entry `e`: the header is sent unless the slot is sporadic with nothing pending (R410). -/
def linSlot (n e : Nat) : Upd := .read fun s =>
  let w := s.load (linSched n e) 4
  let f := bits w 21 16
  let type := bits w 31 30
  let silent := decide (62 ≤ f) || (type == 2 && !s.sporPending n f)
  seqs [
    set (LIN_CH_STAT_ENTRY n) e,
    updLin n fun x => { x with next := if bit w 29 || e == 63 then x.first else e + 1, late := false },
    whenU (!silent) (match s.linBegin n f (type == 1) (type == 2) with
      | some fr => .seq (updLin n fun x => { x with cur := some fr }) (linState n 3)
      | none => .skip)]

/-- The slot that follows: a switch makes NEXT the table's first entry. -/
def linNextSlot (n : Nat) : Upd := .read fun s =>
  let x := s.linCh n
  if x.switch then .seq (updLin n fun x => { x with switch := false, first := s.get (LIN_SCHED_CTRL_NEXT n) })
    (linSlot n (s.get (LIN_SCHED_CTRL_NEXT n)))
  else linSlot n x.next

/-- The channel goes to sleep (R414). -/
def linAsleep (n : Nat) : Upd := seqs [linStop n, linState n 4, updLin n fun x => { x with sleepReq := false, cur := none }]

/-- The draining of a channel's cell ends. -/
def linDrained (n : Nat) : Upd := .seq (cellDrained 10 n [] (updLin n fun _ => {}))
  (.read fun s => linState n (if s.flag (CELL_STAT_RETIRED 10 n) then 5 else if s.flag (CELL_STAT_ENABLED 10 n) then 1 else 0))

/-- LIN_SLOT_START (R410): the end of the current slot and the start of the next; a slot delayed by a running frame has not begun, so it
does not end. `bad`: a word read for the slot has an uncorrectable error (R413). -/
def linSlotStart (n : Fin 12) (bad : Bool) : Upd := .read fun s =>
  let x := s.linCh n
  whenU (s.cellOn 10 n && s.flag (LIN_CH_CFG_MASTER n) && s.flag (LIN_CH_STAT_SCHED n) && !x.hold && !s.frozenArg 2 16 n) (
    if ¬ s.flag (LIN_SCHED_CTRL_RUN n) then linStop n
    else if x.late then .skip
    else if x.cur.isSome then seqs [
      updLin n fun x => { x with late := true }, inc (LIN_ERR_CNT_SLOT_OVR n), raiseCell 10 n 3]
    else if bad then report 10 (some n) PM
    else linNextSlot n)

/-- Record a result in LIN_CH_STAT, its count and its event (R411). -/
def linResult (n id res : Nat) : Upd := seqs [
  set (LIN_CH_STAT_LAST_ID n) id, set (LIN_CH_STAT_LAST_RES n) res,
  whenU (res == 2 || res == 3) (inc (LIN_ERR_CNT_NO_RESP n)),
  whenU (res == 4) (inc (LIN_ERR_CNT_CHECKSUM n)),
  whenU (res == 5 || res == 6) (inc (LIN_ERR_CNT_FRAMING_BIT n)),
  raiseCell 10 n (if res = 1 then 0 else if res = 7 then 2 else 1)]

/-- The parity bits of an identifier (ISO 17987). -/
def linParity (f : Nat) : Nat :=
  let b (i : Nat) : Nat := (bit f i).toNat
  (b 0 + b 1 + b 2 + b 4) % 2 + 2 * ((1 + b 1 + b 3 + b 4 + b 5) % 2)

/-- LIN_HEADER_RECEIVED (R407, R409): a slave receives a header; `sync`: the sync byte was accepted; `pid`: the protected
identifier; `bad`: the entry has an uncorrectable error. -/
def linHeaderReceived (n : Fin 12) (sync : Bool) (pid : Fin 256) (bad : Bool) : Upd := .read fun s =>
  let f := pid.val % 64
  whenU (s.cellOn 10 n && !s.flag (LIN_CH_CFG_MASTER n) && s.get (LIN_CH_STAT_STATE n) != 4 && (s.linCh n).cur.isNone) (
    if !sync then linResult n f 9
    else if pid.val / 64 ≠ linParity f then linResult n f 8
    else if bad then report 10 (some n) PM
    else match s.linBegin n f false false with
      | some fr => .seq (updLin n fun x => { x with cur := some fr }) (linState n 3)
      | none => .skip)

/-- A frame ends in a result; `data` is what a subscribed response carried (R409 to R412). -/
def linEnd (n res0 : Nat) (data : List Byte) : Upd := .read fun s => match (s.linCh n).cur with
  | none => .skip
  | some fr =>
    let res := if fr.evt ∧ 3 ≤ res0 ∧ res0 ≤ 5 then 7 else res0
    let w1 := s.load (linEntry n fr.id 1) 4
    let stored := res == 1 && fr.dir == 2
    seqs [
      whenU stored (storeBytes (linEntry n fr.id 2) (data.take fr.len)),
      whenU (stored && bit (s.get SRT_SRC_CFG_LIN_SRC) n) (pduPush ⟨16 + n, false, fr.id, data.take fr.len, false⟩),
      store (linEntry n fr.id 1) 4 ((if stored then 2 ^ 31 else bits w1 31 31 * 2 ^ 31)
        + (bits w1 23 16 + (res == 1).toNat) % 256 * 2 ^ 16 + res),
      linResult n fr.id res,
      whenU (res == 1) (.seq (elementOk 10 n) (gladeLinFrame n)),
      updLin n fun x => { x with
        cur := none
        err := if 3 ≤ res ∧ res ≤ 6 then true
          else if res = 1 ∧ fr.dir = 1 ∧ fr.id = s.get (LIN_CH_CFG_RE_ID n) then false else x.err },
      whenU (fr.spor && res == 1) (if fr.id < 32 then clrBit (LIN_SPOR_PEND_LO n) fr.id else clrBit (LIN_SPOR_PEND_HI n) (fr.id - 32)),
      linState n 1,
      .read fun s =>
        if s.flag (CELL_STAT_DRAINING 10 n) then linDrained n
        else if (s.linCh n).sleepReq then linAsleep n
        else whenU ((s.linCh n).late && s.flag (LIN_CH_STAT_SCHED n)) (
          if s.flag (LIN_SCHED_CTRL_RUN n) then linNextSlot n else linStop n)]

/-- LIN_FRAME_END (R411): the response ended; `res`: 1 complete and correct, 4 checksum, 5 framing, 6 bit. -/
def linFrameEnd (n : Fin 12) (res : Fin 7) (data : List Byte) : Upd :=
  whenU (res.val == 1 || 4 ≤ res.val) (linEnd n res data)

/-- LIN_RESPONSE_TIMEOUT (R411): `any`: a response byte came. -/
def linResponseTimeout (n : Fin 12) (any : Bool) : Upd := linEnd n (if any then 3 else 2) []

/-- The schedule of a master starts at START (R410). -/
def linStart (n : Nat) : Upd := .read fun s => .seq
  (updLin n fun x => { x with first := s.get (LIN_SCHED_CTRL_START n), next := s.get (LIN_SCHED_CTRL_START n), switch := false, late := false })
  (set (LIN_CH_STAT_SCHED n) 1)

/-- A write of LIN_SCHED_CTRL: RUN going to 1 starts at START, SWITCH waits for the end of the slot (R410). -/
def linSchedHook (n v old : Nat) : Upd := .read fun s => seqs [
  set (LIN_SCHED_CTRL_SWITCH n) 0,
  whenU (bit v 31 && !bit old 31 && s.cellOn 10 n && s.flag (LIN_CH_CFG_MASTER n) && s.get (LIN_CH_STAT_STATE n) != 4 && !(s.linCh n).hold)
    (linStart n),
  whenU (bit v 30) (updLin n fun x => { x with switch := true })]

/-- A master's schedule is held for 100 ms after a wake pulse and resumes at START (R414). -/
def linWakeHold (n : Nat) : Upd := .read fun s => whenU (s.flag (LIN_CH_CFG_MASTER n)) (seqs [
  updLin n fun x => { x with hold := true }, linStop n])

/-- A write of LIN_CH_CTRL: SLEEP and WAKE_TX (R414). -/
def linCtrlHook (n v : Nat) : Upd := .read fun s => seqs [
  set (LIN_CH_CTRL_SLEEP n) 0, set (LIN_CH_CTRL_WAKE_TX n) 0,
  whenU (bit v 1 && s.cellOn 10 n) (seqs [
    whenU (s.get (LIN_CH_STAT_STATE n) == 4) (linState n 1), updLin n fun x => { x with sleepReq := false }, linWakeHold n]),
  whenU (bit v 0 && s.cellOn 10 n) (if (s.linCh n).cur.isSome then updLin n fun x => { x with sleepReq := true } else linAsleep n)]

/-- A wake pulse on the bus of an enabled channel. -/
def linWakeRx (n : Nat) : Upd := .read fun s =>
  whenU (s.get (LIN_CH_STAT_STATE n) == 4 || (s.linCh n).sleepReq) (seqs [
    whenU (s.get (LIN_CH_STAT_STATE n) == 4) (linState n 1),
    updLin n fun x => { x with sleepReq := false }, raiseCell 10 n 4, linWakeHold n])

/-- LIN_IDLE_4S (R414). -/
def linIdle4s (n : Fin 12) : Upd := .read fun s =>
  whenU (s.cellOn 10 n && !s.flag (LIN_CH_CFG_MASTER n) && s.get (LIN_CH_STAT_STATE n) != 4) (raiseCell 10 n 5)

/-- LIN_WAKE_HOLD_END (R414). -/
def linWakeHoldEnd (n : Fin 12) : Upd := .read fun s => whenU (s.linCh n).hold (.seq
  (updLin n fun x => { x with hold := false }) (whenU (s.flag (LIN_SCHED_CTRL_RUN n)) (linStart n)))

/-- LIN_DOM_TIMEOUT (R413). -/
def linDomTimeout (n : Fin 12) : Upd := .read fun s =>
  whenU (s.flag (CELL_STAT_ENABLED 10 n)) (.seq (raiseCell 10 n 6) (report 10 (some n) TR))

/-- LIN_BUS_STUCK (R413). -/
def linBusStuck (n : Fin 12) : Upd := .read fun s => whenU (s.flag (CELL_STAT_ENABLED 10 n)) (report 10 (some n) TR)

/-- EN = 1 of a channel: RATE and BRK are checked (R408). -/
def linEnable (n : Nat) : Upd := .read fun s =>
  let r := s.get (LIN_CH_RATE_RATE n)
  let b := s.get (LIN_CH_CFG_BRK n)
  if 1000 ≤ r ∧ r ≤ 20000 ∧ 13 ≤ b ∧ b ≤ 26 then seqs [set (CELL_STAT_ENABLED 10 n) 1, linState n 1,
    whenU (s.flag (LIN_CH_CFG_MASTER n) && s.flag (LIN_SCHED_CTRL_RUN n)) (linStart n)]
  else raiseCell 10 n 7

/-- EN = 0, a reset or a retirement of a channel (R415). -/
def linDisable (n : Nat) : Upd := .read fun s => seqs [
  linStop n, setReg (LIN_SPOR_PEND_LO n) 0, setReg (LIN_SPOR_PEND_HI n) 0,
  updLin n fun x => { x with sleepReq := false, hold := false },
  whenU (!s.flag (LIN_CH_CFG_MASTER n) && (s.linCh n).cur.any (·.dir == 2)) (updLin n fun x => { x with cur := none }),
  cellDrain 10 n (fun s => (s.linCh n).cur.isSome) (linDrained n)]

end Sys2Proof.Machine
end

