-- ==== Sys2Proof/Machine/Iom.lean ====
section
/-!
DEFINITION. Instances: binding, mailboxes, vectors, resets and removal, and the host's resets
(27_instances_mailboxes_and_sharing.md, R140, R605).
-/
namespace Sys2Proof.Machine

def updIom (f : Iom → Iom) : Upd := upd fun b => { b with iom := f b.iom }

/-- An event of an instance for the manager (R622): bit `i` of IOM, and the PF's vector while MGR_HOST = 1. -/
def raiseIom (n i : Nat) : Upd := .read fun s => seqs [
  raise 6 i, raiseCell 6 n i,
  whenU (s.flag IOM_CFG_MGR_HOST) (msixSend 0 (if i = 0 then 256 + n else 512 + n))]

def State.instKind (s : State) (n : Nat) : Nat := s.get (IOM_INST_BIND_KIND n)
def State.instArg (s : State) (n : Nat) : Nat := s.get (IOM_INST_BIND_ARG n)
def State.instPid (s : State) (n : Nat) : Nat := s.get (IOM_INST_PID_PID n)
def State.okind (s : State) (n : Nat) : Nat := s.get (IOM_INST_OWNER_OKIND n)
def State.migState (s : State) (n : Nat) : Nat := s.get (IOM_INST_STAT_MIG_STATE n)

/-- The cells a binding names (R610). -/
def cellsOfBind (kind arg : Nat) : List (Nat × Nat) := match kind with
  | 1 => [(9, arg % 16)]
  | 2 => [(10, arg % 16)]
  | 3 => ((List.range 16).filter (bit arg)).map fun c => (16 + bits arg 17 16, c)
  | _ => []

/-- The instance that a cell is bound to (R79). -/
def State.cellInst (s : State) (k c : Nat) : Option Nat :=
  if ¬ s.flag IOM_BOUND_CNT_CNT then none
  else (List.range 256).find? fun n => (cellsOfBind (s.instKind n) (s.instArg n)).contains (k, c)

/-- PID_OK follows the PID table and the instance's PID (R613). -/
def showPidOk (n : Nat) : Upd := .read fun s =>
  let p := s.instPid n
  set (IOM_INST_STAT_PID_OK n) (s.flag (MSU_PID_CTX_VALID (256 + n)) && s.get (MSU_PID_CTX_PID_LO (256 + n)) ≤ p
    && p ≤ s.get (MSU_PID_CTX_PID_HI (256 + n))).toNat

/-! ## Binding (R610, R611) -/

/-- Two bindings share a part of a resource. Router sessions and Glade views have no part of their own to share. -/
def bindConflict (k a k' a' : Nat) : Bool := k == k' && (match k with
  | 1 => a % 16 == a' % 16
  | 2 => a % 16 == a' % 16
  | 3 => bits a 17 16 == bits a' 17 16 && (a % 65536 &&& a' % 65536) != 0
  | 4 => bits a 8 8 == bits a' 8 8 && a % 8 == a' % 8
  | 6 => a % 32 == a' % 32
  | _ => false)

/-- The first check of R611 that fails. -/
def State.bindErr (s : State) (n kind arg : Nat) : Nat :=
  let exists' := decide (1 ≤ kind) && decide (kind ≤ 7) && (kind != 2 || decide (arg % 16 < 12)) && (kind != 3 || arg % 65536 != 0)
  let ok := s.okind n
  let vf := s.get (IOM_INST_OWNER_VF n)
  if ¬ exists' then 1
  else if (List.range 256).any fun m => m != n && bindConflict kind arg (s.instKind m) (s.instArg m) then 2
  else if ok = 0 ∨ (ok = 2 ∧ (¬ s.pcie ∨ (List.range 256).any fun m => m != n && s.instKind m != 0 && s.okind m == 2
      && s.get (IOM_INST_OWNER_VF m) == vf)) then 3
  else if ok = 3 ∧ (kind = 1 ∨ kind = 2) then 4
  else if ¬ s.flag (IOM_INST_STAT_PID_OK n) then 5
  else 0

def showBound : Upd := .read fun s => set IOM_BOUND_CNT_CNT ((List.range 256).filter fun n => s.flag (IOM_INST_STAT_BOUND n)).length

/-! ## Resets (R626 to R628) -/

/-- CELL_RST of a bound cell, which `stop` disables; a retired cell takes none, and one under way stands. -/
def boundRst (k c : Nat) (stop : Upd) : Upd := .read fun s =>
  whenU (!s.flag (CELL_STAT_RETIRED k c) && !s.flag (CELL_CTRL_CELL_RST k c)) (seqs [
    set (CELL_CTRL_EN k c) 0, set (CELL_CTRL_CELL_RST k c) 1, whenU (!s.flag (CELL_STAT_DRAINING k c)) stop])

/-- What bound function an instance's reset resolves, and how (R627). -/
def instResolve (n : Nat) : Upd := .read fun s =>
  let a := s.instArg n
  match s.instKind n with
  | 1 => boundRst 9 (a % 16) (canDisable (a % 16))
  | 2 => boundRst 10 (a % 16) (linDisable (a % 16))
  | 3 => forEach (cellsOfBind 3 a) fun e => boundRst e.1 e.2 (lswDisable (16 * (e.1 - 16) + e.2))
  | 4 =>
    let p := 20 + bits a 8 8
    let q := a % 8
    seqs [set (ETP_QTX_BASE_HI_EN p 0 q) 0, set (ETP_QRX_BASE_HI_EN p 0 q) 0, ringEnHook p q 0, ringEnHook p (8 + q) 0]
  | 5 => updSrt fun x => { x with
      stage := mapPut 0 x.stage (s.instPid n) 0
      rdAddr := mapPut 0 x.rdAddr (s.instPid n) 0
      heldWr := x.heldWr.filter (·.1 != s.instPid n) }
  | 6 => set (VLT_RING_CFG_EN (a % 32)) 0
  | _ => .skip

/-- The reported end of a migration command (R635). -/
def migEnd (code : Nat) : Upd := .seq (set IOM_MIG_RES_BUSY 0) (set IOM_MIG_RES_CODE code)

/-- An instance reset begins (R626). One that is already in progress takes it in. -/
def instBegin (n : Nat) : Upd := .read fun s => whenU (s.flag (IOM_INST_STAT_BOUND n) && !s.flag (IOM_INST_STAT_RESETTING n)) (seqs [
  set (IOM_INST_STAT_RESETTING n) 1,
  whenU (s.flag IOM_MIG_RES_BUSY && s.get IOM_MIG_RES_INST == n && decide (s.get IOM_MIG_RES_OP ≤ 4)) (migEnd 6),
  set (IOM_INST_STAT_MIG_STATE n) 0,
  updIom fun x => { x with
    logs := (let l := mapGet [] x.logs n
      mapPut [] x.logs n (l.set 5 (l.getD 5 0 % 2 ^ 31)))
    restored := mapPut [] x.restored n [] },
  instResolve n])

/-- The owner is lost (R626): reset, OWNER_LOST, vector 3. -/
def ownerLost (n : Nat) : Upd := seqs [
  set (IOM_INST_STAT_OWNER_LOST n) 1, raiseIom n 5, raiseVec n 3, instBegin n]

/-- INST_RESET (R626): CELL_RST of the instance's cell, or a reset that another event starts. -/
def instReset (n : Fin 256) : Upd := instBegin n

/-- Every bound function has reached its element boundary. -/
def State.instQuiet (s : State) (n : Nat) : Bool :=
  (cellsOfBind (s.instKind n) (s.instArg n)).all fun e => !s.flag (CELL_STAT_DRAINING e.1 e.2)

/-- INST_RESET_DONE (R627, R628). -/
def instResetDone (n : Fin 256) : Upd := .read fun s =>
  let n := n.val
  let gone := s.b.iom.removing.contains n
  whenU (s.flag (IOM_INST_STAT_RESETTING n) && s.instQuiet n) (seqs [
    forN 16 fun i => seqs [setReg (IOM_IP_MB_OUT n i) 0, setReg (IOM_IP_MB_IN n i) 0, setReg (IOM_INST_MB_TOMGR n i) 0,
      setReg (IOM_INST_MB_FROMMGR n i) 0],
    set (IOM_INST_STAT_TOMGR_FULL n) 0, set (IOM_INST_STAT_FROMMGR_FULL n) 0, clrBit (IOM_TOMGR_PEND (n / 32)) (n % 32),
    forN 4 fun k => set (IOM_DELIV1_PEND n k) 0,
    set (IOM_IP_APER_APER n) 0,
    incWrap (IOM_INST_GEN_GEN n),
    updHbr fun h => { h with first := mapPut 0 h.first n (mapGet 0 h.wseq n) },
    set (IOM_INST_STAT_RESETTING n) 0, set (CELL_CTRL_CELL_RST 6 n) 0, set (CELL_STAT_DRAINING 6 n) 0, raiseIom n 2,
    if gone then seqs [
      set (IOM_INST_BIND_KIND n) 0, set (IOM_INST_OWNER_OKIND n) 0, set (IOM_INST_STAT_BOUND n) 0,
      updIom fun x => { x with removing := x.removing.erase n }, showBound]
    else raiseVec n 3,
    .read fun s => whenU (s.flag (CELL_CTRL_EN 6 n) && !s.flag (CELL_STAT_RETIRED 6 n)) (set (CELL_STAT_ENABLED 6 n) 1)])

/-- INST_BIND and INST_REMOVE: a write of IOM_INST_BIND, whose register reads `old` before. -/
def instBindHook (n old v : Nat) : Upd := .read fun s =>
  let kind := v / 2 ^ 28 % 16
  let arg := v % 2 ^ 24
  let was := old / 2 ^ 28 % 16
  if kind = 0 then .seq (setReg (IOM_INST_BIND n) old)
    (whenU (was != 0) (.seq (updIom fun x => { x with removing := n :: x.removing.erase n }) (instBegin n)))
  else
    .seq (setReg (IOM_INST_BIND n) old) (
    let e := s.bindErr n kind arg
    if e ≠ 0 then .seq (set (IOM_INST_STAT_BIND_ERR n) e) (raiseIom n 6)
    else seqs [setReg (IOM_INST_BIND n) (kind * 2 ^ 28 + arg), set (IOM_INST_STAT_BOUND n) 1, set (IOM_INST_STAT_BIND_ERR n) 0, showBound])

/-- What a write of IOM_INST_PID or IOM_INST_OWNER stores (R611, R626). -/
def State.iomFilter (s : State) (n off old v : Nat) : Nat :=
  if off = 0x28 ∧ s.instKind n ≠ 0 then old
  else if off = 0x24 ∧ s.instKind n ≠ 0 ∧ ¬ s.flag (IOM_INST_STAT_OWNER_LOST n) then old
  else v

/-- A write of IOM_INST_OWNER clears OWNER_LOST. -/
def ownerHook (n : Nat) : Upd := set (IOM_INST_STAT_OWNER_LOST n) 0

/-! ## Mailboxes (R617 to R620) -/

/-- Word 1 of a message. -/
def State.mbWord1 (s : State) (n dir dev pid : Nat) : Nat :=
  n * 2 ^ 24 + s.get (IOM_INST_GEN_GEN n) * 2 ^ 16 + dir * 2 ^ 15 + dev * 2 ^ 8 + pid

/-- The owner's writes to its page have an effect (R614, R627, R634). -/
def State.ownerLive (s : State) (n : Nat) : Bool :=
  s.flag (CELL_STAT_ENABLED 6 n) && !s.flag (IOM_INST_STAT_RESETTING n) && s.migState n == 0

/-- MB_SEND (R618 step 2), from device `dev`. -/
def mbSendEff (n dev pid : Nat) : Upd := .read fun s => whenU (s.flag (IOM_INST_STAT_BOUND n) && !s.flag (IOM_INST_STAT_TOMGR_FULL n)) (seqs [
  setReg (IOM_IP_MB_OUT n 1) (s.mbWord1 n 0 dev pid),
  .read fun s => forN 16 fun i => setReg (IOM_INST_MB_TOMGR n i) (s.reg (IOM_IP_MB_OUT n i)),
  set (IOM_INST_STAT_TOMGR_FULL n) 1, setBit (IOM_TOMGR_PEND (n / 32)) (n % 32), raiseIom n 0])

/-- MB_ACK (R619 step 4). -/
def mbAckEff (n : Nat) : Upd := .read fun s =>
  if s.flag (IOM_INST_STAT_FROMMGR_FULL n) then seqs [
    set (IOM_INST_STAT_FROMMGR_FULL n) 0, setBit (IOM_FROMMGR_ACKED (n / 32)) (n % 32), raiseIom n 1]
  else staleItem n

/-- A write of IOM_IP_DB by the owner. An ACK comes before a SEND. -/
def ipDbHook (n pid v : Nat) : Upd := .read fun s => .seq (whenU (bit v 1) (mbAckEff n)) (whenU (bit v 0) (mbSendEff n s.devNum pid))

/-- MGR_ACK (R618 step 4). -/
def mgrAckEff (n : Nat) : Upd := .read fun s =>
  if s.flag (IOM_INST_STAT_TOMGR_FULL n) then seqs [
    set (IOM_INST_STAT_TOMGR_FULL n) 0, clrBit (IOM_TOMGR_PEND (n / 32)) (n % 32),
    updIom fun x => { x with acked := n :: x.acked.erase n }, raiseVec n 0]
  else staleItem n

/-- MGR_RING (R619 step 2). -/
def mgrRingEff (n pid : Nat) : Upd := .read fun s => whenU (!s.flag (IOM_INST_STAT_FROMMGR_FULL n)) (seqs [
  setReg (IOM_INST_MB_FROMMGR n 1) (s.mbWord1 n 1 s.devNum pid),
  .read fun s => forN 16 fun i => setReg (IOM_IP_MB_IN n i) (s.reg (IOM_INST_MB_FROMMGR n i)),
  set (IOM_INST_STAT_FROMMGR_FULL n) 1,
  .read fun s =>
    let msg := ((List.range 16).map fun i => leBytes 4 (s.reg (IOM_IP_MB_IN n i))).flatten
    whenU (s.okind n == 3) (flkOut { type := 4, vc := 0, dst := s.get (IOM_INST_OWNER_DEV n), pid := s.instPid n, len := 64,
                                     instV := true, inst := n, data := msg }),
  raiseVec n 0])

/-- A write of IOM_INST_CTRL by the manager: silent in migration states 3 to 5 (R634). -/
def instCtrlHook (n pid v : Nat) : Upd := seqs [
  set (IOM_INST_CTRL_RING n) 0, set (IOM_INST_CTRL_ACK n) 0,
  .read fun s => whenU (decide (s.migState n ≤ 2)) (.seq (whenU (bit v 0) (mgrAckEff n)) (whenU (bit v 1) (mgrRingEff n pid)))]

/-- IOM_IP_STAT as it reads. -/
def State.ipStat (s : State) (n : Nat) : Nat :=
  let w := s.reg (IOM_INST_STAT n)
  bits w 31 31 * 2 ^ 31 + s.instKind n % 16 * 2 ^ 27 + bits w 27 27 * 2 ^ 26 + bits w 26 26 * 2 ^ 25 + bits w 25 25 * 2 ^ 24
    + s.get (CELL_STAT_ENABLED 6 n) * 2 ^ 23 + s.get (IOM_INST_GEN_GEN n) * 2 ^ 8 + n

/-! ## Vectors (R621) -/

/-- The interrupt line of a cell. -/
def State.cellLine (s : State) (k c : Nat) : Bool :=
  let en := s.reg (CELL_IRQ_EN k c)
  (s.reg (CELL_IRQ_STAT k c) % 2 ^ 31 &&& en) != 0 || (s.reg (CELL_ERR_STAT k c) != 0 && bit en 31)

/-- The function line of an instance: a bound cell's line, or DONE of a bound job ring. -/
def State.instLine (s : State) (n : Nat) : Bool := match s.instKind n with
  | 6 => s.flag (VLT_RING_STAT_DONE (s.instArg n % 32))
  | k => (cellsOfBind k (s.instArg n)).any fun e => s.cellLine e.1 e.2

/-- Lines that rose raise vector 1. -/
def instLines : Upd := .read fun s => whenU (s.flag IOM_BOUND_CNT_CNT || !s.b.iom.lines.isEmpty) (
  let now := (List.range 256).filter s.instLine
  .seq (forEach (now.filter fun n => !s.b.iom.lines.contains n) fun n => raiseVec n 1) (updIom fun x => { x with lines := now }))

/-- A vector is delivered through its entry; `post n k` makes the posted write of a local owner. -/
def deliver (post : Nat → Nat → Upd) (n k : Nat) : Upd := .read fun s =>
  if ¬ s.flag (IOM_DELIV1_EN n k) then .skip
  else if s.flag (IOM_DELIV1_MASK n k) ∨ s.migState n ≠ 0 then set (IOM_DELIV1_PEND n k) 1
  else
    let a := s.reg (IOM_DELIV0 n k) + s.get (IOM_DELIV1_ADDR_HI n k) * 2 ^ 32
    let vf := s.get (IOM_INST_OWNER_VF n)
    match s.okind n with
    | 1 => post n k
    | 2 => if k = 2 then msixSend vf 0 else whenU (s.flag (IOM_DELIV1_VF_VEC n k)) (msixSend vf (s.get (IOM_DELIV1_VF_VEC n k)))
    | 3 => chainWrite n { type := 1, vc := 1, dst := s.get (IOM_INST_OWNER_DEV n), pid := s.instPid n, len := 4, w2 := a % 2 ^ 32,
                          addrHi := a / 2 ^ 32, data := leBytes 4 (s.reg (IOM_DELIV2 n k)) } a
    | _ => .skip

/-- A write of word 1 of a delivery entry: clearing MASK sends a pending vector. -/
def delivHook (n k v : Nat) : Upd := .read fun s =>
  whenU (!bit v 30 && s.flag (IOM_DELIV1_PEND n k) && s.migState n == 0)
    (.seq (set (IOM_DELIV1_PEND n k) 0) (raiseVec n k))

/-! ## The host's resets (R140, R605) -/

/-- Traffic and instances of the functions that `p` names are resolved; bound instances of VFs are reset. -/
def hostResolve (p : Nat → Bool) : Upd := .read fun s => seqs [
  updHbr fun h => { h with
    reads := h.reads.filter fun r => !p r.func
    waitRd := h.waitRd.filter fun r => !p r.func
    heldWr := h.heldWr.filter fun r => !p r.func },
  whenU (p 0) (.seq (forEach s.b.hbr.devRd fun r => devRdEnd r false [])
    (.seq (forEach s.b.hbr.backoff fun r => devRdEnd r false [])
      (updHbr fun h => { h with devRd := [], backoff := [], barriers := h.barriers.filter (!·.host) }))),
  semFreeHost p, showTrk,
  forN 256 fun n => .read fun s => whenU (s.instKind n != 0 && s.okind n == 2 && p (s.get (IOM_INST_OWNER_VF n))) (instBegin n)]

/-- FUNCTION_LEVEL_RESET (R605): of the PF (0), which takes every function, or of a VF. -/
def functionLevelReset (fn : Fin 64) : Upd := .read fun s => whenU (s.pcie && s.hostUp) (seqs [
  hostResolve (fun f => fn.val == 0 || f == fn.val),
  updHbr fun h => { h with
    msixOn := h.msixOn.filter fun f => !(fn.val == 0 || f == fn.val)
    msix := h.msix.filter fun e => !(fn.val == 0 || e.1 / 2048 == fn.val)
    pba := h.pba.filter fun e => !(fn.val == 0 || e / 2048 == fn.val) },
  whenU (fn.val == 0) (set HBR_LINK_STAT_NUM_VF 0),
  raise 14 6])

/-- The PCIe link, its configuration and host traffic are reset. -/
def hostDown : Upd := seqs [
  hostResolve (fun _ => true),
  updHbr fun h => { h with msixOn := [], msix := [], pba := [] },
  .read fun s => .seq (whenU (s.flag HBR_LINK_STAT_LINK_UP) (raise 14 5)) (setReg HBR_LINK_STAT (s.get HBR_LINK_STAT_PERST * 2 ^ 30))]

/-- PERST_ASSERT (R140). -/
def perstAssert : Upd := .read fun s => .seq (upd fun b => { b with psm := { b.psm with perstLow := true } })
  (whenU s.pcie (.seq hostDown (set HBR_LINK_STAT_PERST 1)))

/-- PERST_DEASSERT (R140, R708): the link may train again. -/
def perstDeassert : Upd := .read fun s => .seq (upd fun b => { b with psm := { b.psm with perstLow := false } })
  (whenU s.pcie (set HBR_LINK_STAT_PERST 0))

/-- The boot has reached the lock or recovery hold (R708). -/
def State.bootOpen (s : State) : Bool := s.get MSU_BOOT_STAT_PHASE == 3 || s.get MSU_BOOT_STAT_PHASE == 4

/-- PCIE_LINK_CHANGE (R605): the link comes up at a speed and width, or goes down or takes a hot reset. -/
def pcieLinkChange (up : Bool) (speed : Fin 5) (width : Fin 8) : Upd := .read fun s =>
  whenU s.pcie (if up then
      whenU (!s.flag HBR_LINK_STAT_PERST && s.bootOpen && !s.flag HBR_LINK_STAT_LINK_UP)
        (seqs [set HBR_LINK_STAT_LINK_UP 1, set HBR_LINK_STAT_SPEED speed, set HBR_LINK_STAT_WIDTH width, raise 14 5])
    else hostDown)

/-- CONFIGURATION_REQUEST (R708): a request to the configuration space of function `fn`, which may set the number of VFs and whether
the function has MSI-X enabled; before PHASE is 3 or 4 it ends with Configuration Request Retry Status. -/
def configurationRequest (fn : Fin 64) (numVf : Option (Fin 64)) (msix : Option Bool) : Upd := .read fun s =>
  whenU (s.pcie && s.hostUp) (
    if ¬ s.bootOpen then updFab fun f => { f with resp := { ok := false, cause := 0 } }
    else seqs [
      updFab fun f => { f with resp := { ok := true } },
      match numVf with | some v => whenU (fn.val == 0) (set HBR_LINK_STAT_NUM_VF v) | none => .skip,
      match msix with
      | some on => updHbr fun h => { h with msixOn := if on then fn.val :: h.msixOn.erase fn.val else h.msixOn.erase fn.val }
      | none => .skip])

end Sys2Proof.Machine
end

