-- ==== Sys2Proof/Machine/Flk.lean ====
section
/-!
DEFINITION. Finza Link: training, link-level retry, credits and grants, routing, enumeration, breaks, the tunnel's receiving side,
the sideband wires (25_finza_link_and_the_chain.md).
-/
namespace Sys2Proof.Machine

def State.port (s : State) (c : Nat) : LinkPort := mapGet {} s.b.flk.port c
def updPort (c : Nat) (f : LinkPort → LinkPort) : Upd := updFlk fun x => { x with port := mapPut {} x.port c (f (mapGet {} x.port c)) }

/-- A port's link carries packets, or keeps them through a retrain. -/
def State.portUp (s : State) (c : Nat) : Bool := let x := s.get (FLK_LINK_STAT_STATE c); x == 4 || x == 5

def State.chainMode (s : State) : Nat := s.get MSU_BOOT_CFG_CHAIN_MODE

/-- The DN port is trained to the ring return (R562, R575). -/
def State.ringReturn (s : State) : Bool :=
  s.portUp 1 && (s.flag (FLK_LINK_STAT_PARTNER_HOST 1) || (s.flag (FLK_LINK_STAT_PARTNER_VALID 1) && s.get (FLK_LINK_STAT_PARTNER_DEV 1) == 0))

/-- A module is trained on DN that is not the ring return. -/
def State.moduleBelow (s : State) : Bool := s.portUp 1 && !s.ringReturn

/-- The module heads its chain (R562). -/
def State.isHead (s : State) : Bool := s.chainMode != 0 && (s.pcie || (s.portUp 0 && s.flag (FLK_LINK_STAT_PARTNER_HOST 0)))

/-- FLK_DEV.ROLE (R562). -/
def showRole : Upd := .read fun s => set FLK_DEV_ROLE (
  if s.chainMode = 0 then 0 else if s.isHead then 1
  else if ¬ s.flag FLK_DEV_VALID then 4 else if s.moduleBelow then 2 else 3)

/-! ## Reachable devices -/

def State.reach (s : State) : Nat := s.reg64 FLK_REACH_LO FLK_REACH_HI

/-- A new reachable set: SIZE, and the loss of owners that left it (R626). -/
def setReach (m : Nat) : Upd := .read fun s => seqs [
  setReg64 FLK_REACH_LO FLK_REACH_HI m,
  set FLK_CHAIN_SIZE (max 1 ((List.range 64).filter (bit m)).length),
  forN 256 fun n => .read fun t => whenU (t.instKind n != 0 && t.okind n == 3
    && bit s.reach (t.get (IOM_INST_OWNER_DEV n)) && !bit m (t.get (IOM_INST_OWNER_DEV n))) (ownerLost n)]

/-! ## Routing (R575) -/

/-- A packet joins the ones that wait at a port. -/
def portPush (c : Nat) (p : Pkt) (fwd : Bool) : Upd := updPort c fun x => { x with wait := x.wait ++ [(p, fwd)] }

/-- A packet that this module makes for the source of another one. -/
def toSource (p q : Pkt) : Pkt := if p.srcHost then { q with dstHost := true } else { q with dst := p.src }

/-- The output of a packet: a port, or none where it ends here. Behind a break of a closed ring a PCIe host reaches devices through the
ring return (R576). -/
def State.outPort (s : State) (p : Pkt) : Option Nat :=
  if p.dstHost then (if s.isHead ∧ s.pcie then none else some (if s.flag FLK_CHAIN_REVERSED then 1 else 0))
  else if p.dst = s.devNum then none
  else if p.srcHost ∧ bit s.b.flk.far p.dst then some 0
  else some (if s.devNum < p.dst then 1 else 0)

/-- The end of a read of this module on the chain: `status` 0 OK, 1 refused with `cause`, 2 unreachable, 3 timed out (R577). -/
def chainReadEnd (r : ChainRead) (status cause : Nat) (data : List Byte) : Upd :=
  let ok := status == 0
  let resp : Resp := { ok := ok, cause := cause, data := data.map (·.toNat) }
  match r.kind with
  | 0 => .seq (updFab fun f => { f with resp := resp }) (whenU (!ok) (seqs [
      set FLK_CPL_ERR_KIND (match status with | 1 => 3 | 2 => 2 | _ => 1), set FLK_CPL_ERR_DEV r.dev, inc FLK_CPL_ERR_CNT, raise 13 4]))
  | 1 => wsyncAnswer r.idx r.dev
  | 2 => .read fun s => match s.b.hbr.reads.find? (·.id == r.idx) with
    | none => .skip
    | some h =>
      if ok ∧ 1 < h.need then updHbr fun x => { x with
        reads := x.reads.map fun y => if y.id = h.id then { y with need := y.need - 1, got := y.got ++ resp.data } else y }
      else seqs [
        updHbr fun x => { x with reads := x.reads.erase h }, showTrk,
        updFab fun f => { f with resp := if ok then { resp with data := h.got ++ resp.data } else resp },
        whenU (!ok) (.seq (rdErr (if status = 2 then 4 else if status = 1 ∧ (cause = 1 ∨ cause = 4) then 2 else 3) h.func)
          (hostRdAer h (if status = 1 then cause else 0)))]
  | _ => upd fun b => { b with iom := { b.iom with copy := b.iom.copy.map fun e => if e = 0 then (if ok then 100 else 8) else e } }

/-- A completion matches the TAG of a read. -/
def completion (p : Pkt) : Upd := .read fun s => match s.b.flk.reads.find? (·.tag == p.tag) with
  | none => .skip
  | some r => .seq (tagFree r.tag) (chainReadEnd r (min 2 (bits p.w2 31 28)) (bits p.w2 27 24) p.data)

/-- CHAIN_READ_TIMEOUT (R577). -/
def chainReadTimeout (tag : Fin 256) : Upd := .read fun s => match s.b.flk.reads.find? (·.tag == tag.val) with
  | none => .skip
  | some r => .seq (tagFree r.tag) (chainReadEnd r 3 0 [])

/-- A packet that a break keeps from its destination (R576), met at port `c`; `own`: this module originated it. -/
def undeliverable (c : Nat) (p : Pkt) (own : Bool) : Upd :=
  match p.type with
  | 2 => if own then completion { p with w2 := 2 * 2 ^ 28, data := [] }
    else flkOut (toSource p { type := 3, vc := 2, tag := p.tag, w2 := 2 * 2 ^ 28 })
  | 1 => if own then lostWrite p.instV p.inst p.wseq
    else flkOut (toSource p { type := 5, vc := 0, mgmt := some (.lost p.instV p.inst p.wseq) })
  | 6 => if own then lostWrite p.instV p.inst p.wseq
    else flkOut (toSource p { type := 5, vc := 0, mgmt := some (.lost p.instV p.inst p.wseq) })
  | _ => if p.type = 7 ∧ own ∧ p.wseq = 0xFFFF then lostWrite false 0 0xFFFF else count (FLK_CNT_BAD_PKT c)

/-- Send a packet towards a port, or resolve it where its link is Down. -/
def sendTo (c : Nat) (p : Pkt) (fwd : Bool) : Upd := .read fun s =>
  if s.portUp c then portPush c p fwd else undeliverable c p (!fwd)

/-- A packet for the host at a Head whose host port is PCIe (R575, R600). -/
def hostDeliver (p : Pkt) : Upd := match p.type with
  | 1 => count HBR_CNT_DEV_WR
  | 2 => .read fun s => .seq (updHbr fun h => { h with next := h.next + 1 }) (devRdTry ⟨s.b.hbr.next, p.src, p.tag, p.len, 0⟩)
  | 3 => completion p
  | 5 => match p.mgmt with
    | some (.lost v i w) => lostWrite v i w
    | some (.writeFault a b c d) => writeFault a b c d
    | _ => .skip
  | _ => .skip

/-- Packets that the module originated take their route. -/
def routeOut : Upd := .read fun s => .seq (updFlk fun x => { x with out := [] }) (
  forEach s.b.flk.out fun p0 =>
    let p : Pkt := { p0 with src := s.devNum }
    if s.get FLK_DEV_ROLE = 4 ∨ ¬ s.flag (BLK_STAT_ENABLED 13) then undeliverable 0 p true
    else if p.bcast then .seq (whenU (s.portUp 0) (portPush 0 p false)) (whenU (s.portUp 1 && !s.ringReturn) (portPush 1 p false))
    else match s.outPort p with
    | some c => sendTo c p false
    | none => whenU p.dstHost (hostDeliver p))

/-! ## Sending (R569 to R571) -/

/-- The credits of a packet: its 8 B blocks. -/
def pktBlocks (p : Pkt) : Nat := (20 + (if p.type = 2 then 0 else p.data.length) + 7) / 8

/-- The pool of a packet, which is also its class in the grant order: VC0, VC1, VC2 requests, VC2 completions, VC3. -/
def pktPool (p : Pkt) : Nat := match p.vc with | 0 => 0 | 1 => 1 | 2 => if p.type = 2 then 2 else 3 | _ => 4

/-- Credits that a partner's pools hold when empty (R570). -/
def poolSize (i : Nat) : Nat := [256, 1024, 256, 1024, 2048].getD i 0

/-- The next packet of a pool at a port: the host's first, then forwarded and local ones in turn. -/
def LinkPort.head (x : LinkPort) (i : Nat) : Option (Pkt × Bool) :=
  let l := x.wait.filter fun e => pktPool e.1 == i
  match l.find? fun e => e.2 && e.1.srcHost with
  | some e => some e
  | none => match l.find? fun e => e.2 == x.fwdTurn with
    | some e => some e
    | none => l.head?

/-- A read request waits behind an earlier posted write of its source to its destination (R571). -/
def LinkPort.behindWrite (x : LinkPort) (p : Pkt) (fwd : Bool) : Bool :=
  p.type == 2 && (x.wait.takeWhile (· != (p, fwd))).any fun e => (e.1.type == 1 || e.1.type == 6)
    && e.1.src == p.src && e.1.srcHost == p.srcHost && e.1.dst == p.dst && e.1.dstHost == p.dstHost

/-- Whether the next packet of a pool may be sent: its place in the order, credits, replay space, room for the completion of a
forwarded read. -/
def State.poolReady (s : State) (c i : Nat) : Bool :=
  let x := s.port c
  match x.head i with
  | none => false
  | some (p, fwd) =>
    !x.behindWrite p fwd && pktBlocks p ≤ mapGet 0 x.cred i && x.unacked.foldl (fun n q => n + 8 * pktBlocks q) (8 * pktBlocks p) ≤ 32768
      && (p.type != 2 || !fwd || 35 ≤ mapGet 0 (s.port (1 - c)).cred 3)

/-- Send one packet of pool `i`. -/
def sendPool (c i : Nat) : Upd := .read fun s => match (s.port c).head i with
  | none => .skip
  | some (p, fwd) => .seq (count (FLK_CNT_TX_PKT c)) (updPort c fun x => { x with
      wait := x.wait.erase (p, fwd)
      unacked := x.unacked ++ [p]
      txSeq := (x.txSeq + 1) % 4096
      cred := mapPut 0 x.cred i (mapGet 0 x.cred i - pktBlocks p)
      fwdTurn := !fwd })

/-- Send what the grant order, credits and the replay buffer allow. -/
def sendPort (c : Nat) : Nat → Upd
  | 0 => .skip
  | n + 1 => .read fun s =>
    if s.get (FLK_LINK_STAT_STATE c) ≠ 4 then .skip
    else if s.poolReady c 0 then .seq (sendPool c 0) (sendPort c n)
    else if s.poolReady c 3 then .seq (sendPool c 3) (sendPort c n)
    else
      let x := s.port c
      let pool (j : Nat) := [1, 2, 4].getD j 0
      let w (j : Nat) := max 1 (match j with | 0 => s.get FLK_ARB_W_VC1 | 1 => s.get FLK_ARB_W_VC2 | _ => s.get FLK_ARB_W_VC3)
      match wrrGrant 3 (fun j => s.poolReady c (pool j)) w x.left x.ptr with
      | (none, left, ptr) => updPort c fun x => { x with left := left, ptr := ptr }
      | (some j, left, ptr) => seqs [updPort c fun x => { x with left := left, ptr := ptr }, sendPool c (pool j), sendPort c n]

/-- Everything that may move on the chain moves. -/
def flkPump : Upd := seqs [
  .read fun s => whenU (!s.b.flk.out.isEmpty) (.seq routeOut routeOut),
  forN 2 fun c => .read fun s => whenU (!(s.port c).wait.isEmpty) (sendPort c ((s.port c).wait.length + 1))]

/-! ## Enumeration (R572 to R574) -/

/-- The chain is known: at the Head, which broadcasts it. -/
def headSize (n : Nat) (ring : Bool) : Upd := seqs [
  set FLK_CHAIN_RING ring.toNat, set FLK_CHAIN_BROKEN 0, set FLK_CHAIN_REVERSED 0, updFlk fun x => { x with far := 0 }, setReach (2 ^ n - 1), raise 13 0, showRole,
  let m : Mgmt := .chain true ((2 ^ n - 1) % 2 ^ 32) ((2 ^ n - 1) / 2 ^ 32) ring
  .read fun s => whenU s.moduleBelow (portPush 1 { type := 5, vc := 0, bcast := true, src := 0, mgmt := some m } false)]

/-- The module reports itself Tail. -/
def tailReport : Upd := .read fun s =>
  let n := s.devNum + 1
  let ring := s.ringReturn && s.chainMode == 2
  .seq showRole (if s.isHead then headSize n ring
    else whenU (s.portUp 0) (portPush 0 { type := 5, vc := 0, dst := 0, src := s.devNum, mgmt := some (.size n ring) } false))

/-- A numbered module offers the next number below, or finds that nothing follows. -/
def enumDown : Upd := .read fun s =>
  if ¬ s.flag FLK_DEV_VALID then .skip
  else if ¬ s.moduleBelow then whenU s.ringReturn tailReport
  else if s.devNum = 63 then seqs [set FLK_CHAIN_OVERLONG 1, raise 13 1, tailReport]
  else seqs [set FLK_CHAIN_OVERLONG 0, showRole, portPush 1 { type := 5, vc := 0, src := s.devNum, dst := s.devNum + 1, mgmt := some (.enum (s.devNum + 1)) } false]

/-- ENUM_OFFER (R572, R573): a number is offered from above. -/
def enumOffer (n : Nat) : Upd := .read fun s =>
  if s.pcie then raiseCell 13 0 3
  else seqs [
    whenU (s.flag FLK_DEV_VALID && s.get FLK_DEV_DEVNUM != n) (.seq (raise 13 2)
      (forN 256 fun i => .read fun s => whenU (s.instKind i != 0 && s.okind i == 3) (ownerLost i))),
    set FLK_DEV_VALID 1, set FLK_DEV_DEVNUM n, showRole, enumDown]

/-- The Head numbers itself 0 and enumerates; the reachable set is known when the chain is. -/
def enumHead : Upd := .read fun s => whenU s.isHead (seqs [
  set FLK_DEV_VALID 1, set FLK_DEV_DEVNUM 0, set FLK_CHAIN_OVERLONG 0,
  showRole, enumDown])

/-- ENUM_TAIL_TIMEOUT (R572): no module partner on DN within 10 ms of the numbering. -/
def enumTailTimeout : Upd := .read fun s => whenU (s.flag FLK_DEV_VALID && !s.moduleBelow && s.chainMode != 0) tailReport

/-- A write of FLK_ENUM_CTRL (R572): START on the Head. -/
def enumCtrlHook (v : Nat) : Upd := .seq (set FLK_ENUM_CTRL_START 0) (whenU (bit v 0) enumHead)

/-- The devices that left the reachable set: with a closed ring a PCIe host still reaches them through this Head (R576). -/
def breakReach (m : Nat) (ring : Bool) : Upd := .read fun s => .seq
  (whenU (s.isHead && s.pcie && ring) (updFlk fun x => { x with far := x.far ||| s.reach - (s.reach &&& m) })) (setReach m)

/-- The broadcast of the Head, or of the module next to a break; `up`: it came from above (R572, R576). -/
def chainInfo (done : Bool) (m : Nat) (ring up : Bool) : Upd := seqs [
  set FLK_CHAIN_RING ring.toNat,
  if done then seqs [set FLK_CHAIN_BROKEN 0, set FLK_CHAIN_REVERSED 0, raise 13 0, setReach m]
  else seqs [set FLK_CHAIN_BROKEN 1, raise 13 1, whenU (up && ring) (set FLK_CHAIN_REVERSED 1), breakReach m ring],
  showRole]

/-! ## Links going down (R576) -/

/-- What a break at port `c` does: packets there are resolved, the reachable set shrinks. -/
def linkBreak (c : Nat) : Upd := .read fun s =>
  let x := s.port c
  let own := s.devNum
  let m := (List.range 64).foldl (fun m d => if bit s.reach d ∧ (d = own ∨ (if c = 1 then decide (d < own) else decide (own < d)))
    then m + 2 ^ d else m) 0
  -- the link to the ring return is no link between two modules that face each other down the chain
  let ret := if c = 0 then s.chainMode != 0 && s.pcie else s.flag (FLK_LINK_STAT_PARTNER_HOST 1)
    || (s.flag (FLK_LINK_STAT_PARTNER_VALID 1) && s.get (FLK_LINK_STAT_PARTNER_DEV 1) == 0)
  let m := if ret then s.reach else m
  let ring := s.flag FLK_CHAIN_RING && !ret
  seqs [
    updPort c fun _ => {},
    forEach x.unacked fun p => undeliverable c p (p.src == own && !p.srcHost),
    forEach x.wait fun e => undeliverable c e.1 (!e.2),
    set (FLK_LINK_STAT_WIDTH c) 0, set (FLK_LINK_STAT_PARTNER_HOST c) 0, set (FLK_LINK_STAT_PARTNER_VALID c) 0, raiseCell 13 c 0,
    whenU (s.flag FLK_DEV_VALID && s.chainMode != 0) (seqs [
      set FLK_CHAIN_BROKEN 1, set FLK_CHAIN_RING ring.toNat, raise 13 1, breakReach m ring,
      whenU (c == 0 && ring) (set FLK_CHAIN_REVERSED 1),
      let info : Mgmt := .chain false (m % 2 ^ 32) (m / 2 ^ 32) ring
      whenU (s.portUp (1 - c)) (portPush (1 - c) { type := 5, vc := 0, bcast := true, src := own, mgmt := some info } false)]),
    showRole]

/-- A port leaves Up for `st`: 6 Down, 0 Off. -/
def portDown (c st : Nat) : Upd := .read fun s => .seq (set (FLK_LINK_STAT_STATE c) st) (whenU (s.portUp c) (linkBreak c))

/-- FINZA_LINK_DOWN (R576): a chain link goes Down. -/
def finzaLinkDown (c : Fin 2) : Upd := .read fun s => whenU (s.portUp c) (portDown c 6)

/-- A link retrains: unacknowledged packets are kept. -/
def retrain (c : Nat) : Upd := .read fun s => whenU (s.get (FLK_LINK_STAT_STATE c) == 4)
  (.seq (set (FLK_LINK_STAT_STATE c) 5) (count (FLK_CNT_RETRAIN c)))

/-- A write of FLK_LINK_CTRL (R565). -/
def linkCtrlHook (c v : Nat) : Upd := .seq (set (FLK_LINK_CTRL_RETRAIN c) 0) (whenU (bit v 0) (retrain c))

/-- FINZA_TRAIN_TIMEOUT (R565): a retrain does not finish within 10 ms. -/
def finzaTrainTimeout (c : Fin 2) : Upd := .read fun s => whenU (s.get (FLK_LINK_STAT_STATE c) == 5) (portDown c 6)

/-- FINZA_DOWN_RETRY (R565): a Down link restarts lock seeking, and stays Down until it locks. -/
def finzaDownRetry (c : Fin 2) : Upd := .read fun s =>
  whenU (s.get (FLK_LINK_STAT_STATE c) == 6) (updPort c fun _ => {})

/-- FINZA_WIDTH_RETRY (R565): a degraded link tries a full-width retrain. -/
def finzaWidthRetry (c : Fin 2) : Upd := .read fun s => whenU (s.get (FLK_LINK_STAT_WIDTH c) == 1) (retrain c)

/-! ## Training (R563, R565) -/

/-- The partner that the training sequences show may not be joined: DN to DN, UP to UP, or a PCIe module's UP port that is not its own
ring return. -/
def State.wrongPartner (s : State) (c : Nat) (host isUp : Bool) (mode : Nat) (dev : Option Nat) : Bool :=
  if c = 1 then s.chainMode == 0 || (!host && !isUp)
  else if s.pcie then
    host || isUp || !(s.chainMode == 2 && mode == 2 && s.reach != 0 && dev == some (s.get FLK_CHAIN_SIZE - 1))
  else if s.chainMode = 0 then !host
  else !host && isUp

/-- The lanes that a port trains (R584). -/
def State.lanes (s : State) (c : Nat) : Nat := match s.get (FLK_LINK_CFG_LANE_MASK c) with | 1 => 1 | 2 => 1 | _ => 2

/-- FINZA_TRAINED (R565): lanes lock and the partner's sequences and credits arrive: lanes in use, and what the sequences carry. -/
def finzaTrained (c : Fin 2) (width : Fin 3) (host isUp : Bool) (mode : Fin 4) (dev : Option (Fin 64)) : Upd := .read fun s =>
  let c := c.val
  let st := s.get (FLK_LINK_STAT_STATE c)
  let partner := seqs [
    set (FLK_LINK_STAT_PARTNER_HOST c) host.toNat, set (FLK_LINK_STAT_PARTNER_VALID c) dev.isSome.toNat,
    set (FLK_LINK_STAT_PARTNER_DEV c) (match dev with | some d => d.val | none => 0)]
  whenU (s.cellOn 13 c && s.flag (BLK_STAT_ENABLED 13) && st != 0 && st != 4 && width != 0 && decide (width.val ≤ s.lanes c)) (.seq partner (
    if s.wrongPartner c host isUp mode (dev.map (·.val)) then
      .seq (whenU (st != 5) (set (FLK_LINK_STAT_STATE c) 2)) (raiseCell 13 c 3)
    else seqs [
      set (FLK_LINK_STAT_STATE c) 4, set (FLK_LINK_STAT_WIDTH c) width,
      if st = 5 then raiseCell 13 c 2
      else .seq (raiseCell 13 c 0) (updPort c fun x => { x with unacked := [], txSeq := 0, rxSeq := 0, nak := false, replays := 0, acc := 0 }),
      updPort c fun x => { x with cred := (List.range 5).map fun i => (i, poolSize i) },
      whenU (width == 1) (.seq (raiseCell 13 c 1) (report 13 (some c) CE)),
      showRole,
      whenU (st != 5) (if c = 0 then whenU host enumHead else .read fun s => if s.isHead then enumHead else enumDown)]))

/-! ## Receiving (R569, R580) -/

/-- The oldest packet is replayed once more; the fourth time without progress retrains the link. -/
def replay (c : Nat) : Upd := .read fun s => .seq (count (FLK_CNT_REPLAY c))
  (if 3 ≤ (s.port c).replays then seqs [updPort c fun x => { x with replays := 0 }, retrain c, report 13 (some c) TR]
   else updPort c fun x => { x with replays := x.replays + 1 })

/-- Packets up to an LSEQ are acknowledged. -/
def ackUpTo (c seq : Nat) : Upd := updPort c fun x =>
  let k := (seq + 4096 - (x.txSeq + 4096 - x.unacked.length) % 4096) % 4096 + 1
  if k ≤ x.unacked.length then { x with unacked := x.unacked.drop k, replays := 0 } else x

/-- A NAK goes out, unless one is outstanding. -/
def nakOut (c : Nat) : Upd := .seq (count (FLK_CNT_CRC_ERR c)) (updPort c fun x => { x with nak := true })

/-- Whether `lseq` was already accepted. -/
def seqOld (expected lseq : Nat) : Bool := decide (lseq != expected) && decide ((expected + 4096 - lseq) % 4096 < 2048)

/-- An accepted packet at port `c` goes on or is delivered here by `loc` (R571, R575). -/
def packetIn (loc : Pkt → Upd) (c : Nat) (p0 : Pkt) : Upd := .read fun s =>
  let fromHost := c == 0 && s.flag (FLK_LINK_STAT_PARTNER_HOST 0) && (s.isHead || s.chainMode == 0)
  let p : Pkt := if fromHost then { p0 with pid := (s.ctxPid 62).1, srcHost := true } else p0
  if 9 ≤ p.type ∨ p.type = 0 then count (FLK_CNT_BAD_PKT c)
  else match p.mgmt with
  | some (.enum n) => whenU (c == 0 && s.chainMode != 0) (enumOffer n)
  | some (.size n ring) => if s.isHead then headSize n ring else sendTo 0 p true
  | some (.chain d lo hi ring) => .seq (chainInfo d (lo + 2 ^ 32 * hi) ring (c == 0))
      (whenU (s.portUp (1 - c) && !(c == 0 && s.ringReturn)) (portPush (1 - c) p true))
  | _ =>
    if s.chainMode ≠ 0 ∧ ¬ s.flag FLK_DEV_VALID ∧ ¬ s.isHead then
      (match p.type with
      | 2 => portPush c (toSource p { type := 3, vc := 2, tag := p.tag, w2 := 2 * 2 ^ 28 }) false
      | _ => undeliverable c p false)
    else if p.bcast then .seq (loc p) (whenU (s.portUp (1 - c) && !(c == 0 && s.ringReturn)) (portPush (1 - c) p true))
    else match s.outPort p with
    | some o => sendTo o p true
    | none => if p.dstHost then hostDeliver p else loc p

/-- FINZA_PACKET_RX at port `c`, with what local delivery does. -/
def finzaRx (loc : Pkt → Upd) (c : Nat) (i : FinzaIn) : Upd := .read fun s =>
  whenU (s.get (FLK_LINK_STAT_STATE c) == 4 && s.flag (BLK_STAT_ENABLED 13)) (match i with
  | .control ack nak credits => seqs [
      match ack with | some a => .seq (ackUpTo c a) (.read fun t => whenU (decide ((t.port c).unacked.length < (s.port c).unacked.length)) (elementOk 13 c)) | none => .skip,
      match nak with | some n => seqs [count (FLK_CNT_NAK_RX c), ackUpTo c n, replay c] | none => .skip,
      updPort c fun x => { x with cred := credits.foldl (fun l e => mapPut 0 l e.1 (min (poolSize e.1) (mapGet 0 l e.1 + e.2))) x.cred }]
  | .packet p lseq crc =>
    let x := s.port c
    if crc = 3 then .seq (report 13 (some c) TR) (updPort c fun x => { x with nak := true })
    else if crc = 2 then count (FLK_CNT_CRC_ERR c)
    else if crc = 1 then nakOut c
    else if lseq.val ≠ x.rxSeq then (if seqOld x.rxSeq lseq then .skip else nakOut c)
    else seqs [
      updPort c fun x => { x with rxSeq := (x.rxSeq + 1) % 4096, nak := false, acc := if 15 ≤ x.acc then 0 else x.acc + 1 },
      count (FLK_CNT_RX_PKT c), elementOk 13 c, packetIn loc c p])

/-- FINZA_ACK_TIMER (R569): an ACK is sent for the packets accepted in order. -/
def finzaAckTimer (c : Fin 2) : Upd := updPort c fun x => { x with acc := 0 }

/-- FINZA_REPLAY_TIMEOUT (R569): 2 µs without an ACK. -/
def finzaReplayTimeout (c : Fin 2) : Upd := .read fun s =>
  whenU (s.get (FLK_LINK_STAT_STATE c) == 4 && !(s.port c).unacked.isEmpty) (replay c)

/-- FINZA_RX_TIMEOUT (R569): a packet's bytes stop. -/
def finzaRxTimeout (c : Fin 2) : Upd := .read fun s => whenU (s.get (FLK_LINK_STAT_STATE c) == 4) (count (FLK_CNT_PARTIAL_DROP c))

/-! ## The tunnel, receiving (R578, R580) -/

/-- Learn the source of a tunnel frame. -/
def tunnelLearn (f : Frame) (dev : Nat) : Upd := .read fun s =>
  let mac := beValue ((f.drop 6).take 6)
  let l := s.b.flk.learn
  let set' (m : Nat) := Config.tunnelSet m
  if l.any (·.1 == mac) ∨ (l.filter fun e => set' e.1 == set' mac).length < 4 then
    updFlk fun x => { x with learn := x.learn.filter (·.1 != mac) ++ [(mac, dev, s.now)] }
  else inc FLK_TUN_CNT_LEARN_FAIL

/-- A tunnel segment arrives; a segment out of order ends the frame it would belong to. -/
def tunnelRx (p : Pkt) : Upd := .read fun s => whenU (s.flag FLK_TUN_CFG_EN) (
  let id := bits p.w2 31 16
  let seg := bits p.w2 15 8
  let put (r : Option Reasm) : Upd := updFlk fun x => { x with reasm := mapPut none x.reasm p.src r }
  let drop' : Upd := .seq (inc FLK_TUN_CNT_DROPPED) (raise 13 5)
  let go (len : Nat) (data : List Byte) : Upd :=
    if bit p.w2 0 then .seq (put none) (if data.length = len then .seq (tunnelLearn data p.src) (macRx 24 none data s.devTime false false) else drop')
    else put (some ⟨id, seg + 1, len, data⟩)
  if bit p.w2 1 then .seq (whenU ((mapGet none s.b.flk.reasm p.src).isSome) drop') (go (p.inst * 256 + p.addrHi) p.data)
  else match mapGet none s.b.flk.reasm p.src with
  | none => .skip
  | some r => if r.id = id ∧ r.seg = seg then go r.len (r.data ++ p.data) else .seq (put none) drop')

/-- TUNNEL_REASM_TIMEOUT (R578). -/
def tunnelReasmTimeout (src : Fin 64) : Upd := .read fun s => whenU (mapGet none s.b.flk.reasm src.val).isSome (seqs [
  updFlk fun x => { x with reasm := mapPut none x.reasm src.val none }, inc FLK_TUN_CNT_DROPPED, raise 13 5])

/-- TUNNEL_AGE_OUT (R578): the entry of `mac` has gone unused; `bad`: the table word had an uncorrectable error (R580). -/
def tunnelAgeOut (mac : Fin 281474976710656) (bad : Bool) : Upd := .read fun s => .seq
  (whenU bad (report 13 none PM (some 4)))
  (whenU (bad || s.flag FLK_TUN_CFG_AGE_S) (updFlk fun x => { x with learn := x.learn.filter (·.1 != mac.val) }))

/-! ## The sideband wires (R269, R579) -/

/-- FLK_SB_STAT.OWN_IRQ follows its sources. -/
def showOwnIrq : Upd := .read fun s =>
  let run := s.get MSU_PWR_STATE_STATE ≤ 1
  let v := s.chainMode != 0 && run && s.flag FLK_SB_CFG_IRQ_EN
    && (s.flag FLK_SB_CFG_SW_IRQ || (s.flag FLK_SB_CFG_FAULT_IRQ && s.reg MSU_FAULT_STAT % 16 != 0))
  whenU (s.flag FLK_SB_STAT_OWN_IRQ != v) (set FLK_SB_STAT_OWN_IRQ v.toNat)

/-- SIDEBAND_IRQ_FALL (R579): IRQ_N falls while this module does not drive it. -/
def sidebandIrqFall : Upd := .read fun s => whenU (s.chainMode != 0 && !s.flag FLK_SB_STAT_OWN_IRQ) (raise 13 3)

/-- SIDEBAND_FAULT_LOW (R269): FL_FAULT_N is low while this module releases FAULT_N. -/
def sidebandFaultLow : Upd := .read fun s =>
  whenU (s.chainMode != 0 && !s.flag MSU_FAULT_STAT_FAULT_N) (report 29 none TR (some 4))

/-! ## Enable, disable, reset (R565, R566, R581) -/

/-- EN = 1 of a port's cell starts training; the DN port of a Solo module stays off (R562). -/
def flkCellEnable (c : Nat) : Upd := .read fun s => .seq (set (CELL_STAT_ENABLED 13 c) 1)
  (whenU (s.flag (BLK_STAT_ENABLED 13) && (c == 0 || s.chainMode != 0) && (s.chainMode != 0 || !s.pcie) && s.get (FLK_LINK_STAT_STATE c) == 0)
    (set (FLK_LINK_STAT_STATE c) 1))

/-- EN = 0, a reset or a retirement of a port's cell. -/
def flkCellDisable (c : Nat) : Upd := .seq (portDown c 0) (cellDrain 13 c (fun _ => false) (cellDrained 13 c [] .skip))

/-- The block is enabled: a PCIe Head numbers itself; the ports train. -/
def flkEnable : Upd := seqs [
  showRole, enumHead, forN 2 fun c => .read fun s => whenU (s.flag (CELL_STAT_ENABLED 13 c)) (flkCellEnable c)]

/-- BLK_CTRL.EN = 0: both links are given up. -/
def flkDisable : Upd := .seq (forN 2 fun c => portDown c 0) (updFlk fun x => { x with reasm := [] })

/-- A block reset empties the learning table; the number is kept. -/
def flkReset : Upd := updFlk fun x => { x with learn := [], reasm := [] }

end Sys2Proof.Machine
end

