-- ==== Sys2Proof/Machine/Upd.lean ====
section
/-!
DEFINITION. The update engine: the boot record, containers and chunks, relay, commit, trial, confirmation and fallback, the
journal (29_firmware_update.md).
-/
namespace Sys2Proof.Machine

def updFw (f : Update → Update) : Upd := upd fun b => { b with fw := f b.fw }

/-! ## The boot record (R658, R659) -/

/-- The copy in use: the valid one with the higher SEQ. -/
def Update.current (u : Update) : BootRec := match u.copyA, u.copyB with
  | some a, some b => if b.seq ≤ a.seq then a else b
  | some a, none => a
  | none, some b => b
  | none, none => {}

def State.boot (s : State) : BootRec := s.b.fw.current
def State.part (s : State) (k : Nat) : PartEntry := mapGet {} s.boot.parts k

/-- One whole record with SEQ + 1 goes into the older copy, or the one that is not valid. -/
def Update.write (u : Update) (r : BootRec) : Update :=
  let r' := { r with seq := u.current.seq + 1 }
  match u.copyA, u.copyB with
  | some a, some b => if b.seq ≤ a.seq then { u with copyB := some r' } else { u with copyA := some r' }
  | some _, none => { u with copyB := some r' }
  | none, _ => { u with copyA := some r' }

/-- The bytes of a part entry (R658). -/
def PartEntry.bytes (p : PartEntry) : List Byte :=
  BitVec.ofNat 8 (p.present.toNat * 128 + p.trial.toNat * 64 + p.active.toNat) :: BitVec.ofNat 8 p.svn :: 0 :: 0
    :: (leBytes 4 p.version ++ leBytes 4 p.len ++ leBytes 4 0 ++ fit 48 p.digest)

/-- Bytes 0x020 to 0x2DF of the boot record: the installed part manifest (R660). -/
def State.partManifest (s : State) : List Byte := ((List.range 11).map fun k => (s.part k).bytes).flatten

/-- The registers that report the boot record. -/
def showBoot : Upd := .read fun s => seqs [
  set MEM_UPD_STAT_STATE s.boot.state,
  set MEM_UPD_TRIAL_BOOTS s.boot.boots,
  forN 4 fun i => setReg (MEM_UPD_CID i) (s.boot.cid / 2 ^ (32 * i) % 2 ^ 32)]

/-- A change of the boot record. -/
def bootWrite (f : BootRec → BootRec) : Upd := .seq (updFw fun u => u.write (f u.current)) showBoot

/-- A change of one part's entry. -/
def BootRec.setPart (r : BootRec) (k : Nat) (f : PartEntry → PartEntry) : BootRec :=
  { r with parts := mapPut {} r.parts k (f (mapGet {} r.parts k)) }

/-- The migration record, of which one is kept (R648, R679). -/
def State.migRecord (s : State) : Option (List Byte) := (s.b.fw.journal.find? (·.kind == 8)).map (·.data)

/-- IOM_MIG_JRNL shows the migration record: source device, instance and length. -/
def showMigJrnl : Upd := .read fun s => match s.migRecord with
  | some d => setReg IOM_MIG_JRNL (2 ^ 31 + ((d[0x0A]?).getD 0).toNat % 64 * 2 ^ 22 + ((d[0x0B]?).getD 0).toNat * 2 ^ 14 + d.length)
  | none => setReg IOM_MIG_JRNL 0

/-- A record is committed to the journal (R678). -/
def journal (r : JournalRec) : Upd := updFw fun u => { u with journal := u.journal ++ [r] }

def updCode (c : Nat) : Upd := set MEM_UPD_STAT_CODE c

/-! ## Containers (R661 to R663) -/

/-- A little-endian number in a list of bytes. -/
def numAt (l : List Byte) (o n : Nat) : Nat := leValue ((l.drop o).take n)

def cParts (h : List Byte) : Nat := numAt h 0x1D 1
def cId (h : List Byte) : Nat := numAt h 8 16
def cChunks (h : List Byte) : Nat := numAt h 0x58 4
def cEnc (h : List Byte) : Bool := numAt h 0x1C 1 / 2 % 2 == 1
def cBound (h : List Byte) : Bool := numAt h 0x1C 1 % 2 == 1
/-- The end of the manifest: M. -/
def cEndM (h : List Byte) : Nat := 0x891 + 160 * cParts h
/-- The place of manifest entry `e`. -/
def cEntry (e : Nat) : Nat := 0x891 + 160 * e
def ePart (h : List Byte) (e : Nat) : Nat := numAt h (cEntry e) 1
def eSvn (h : List Byte) (e : Nat) : Nat := numAt h (cEntry e + 1) 1
def eVersion (h : List Byte) (e : Nat) : Nat := numAt h (cEntry e + 4) 4
def eLen (h : List Byte) (e : Nat) : Nat := numAt h (cEntry e + 8) 4
def eFirst (h : List Byte) (e : Nat) : Nat := numAt h (cEntry e + 12) 4
def eDigest (h : List Byte) (e : Nat) : List Byte := (h.drop (cEntry e + 16)).take 48
/-- The chunks a part occupies. -/
def eChunks (h : List Byte) (e : Nat) : Nat := (eLen h e + 65471) / 65472
/-- MIN and MAX of part `j` in an entry. -/
def eCompat (h : List Byte) (e j : Nat) : Nat × Nat := (numAt h (cEntry e + 64 + 8 * j) 4, numAt h (cEntry e + 68 + 8 * j) 4)
/-- The entry of part `k`. -/
def entryOf (h : List Byte) (k : Nat) : Option Nat := (List.range (cParts h)).find? fun e => ePart h e == k

/-- The largest image of a part (R654). -/
def capacity (k : Nat) : Nat := match k with
  | 0 => 0x100000 | 1 => 1072 * 1024 | 2 => 1072 * 1024 | 3 => 8192 | 8 => 8176 * 1024
  | 9 => 4 * 2 ^ 30 - 16384 | 10 => 2 ^ 30 - 16384
  | k => if k < 8 then 240 * 1024 else 0

/-! ## Compatibility and order (R669 to R671) -/

/-- What a set of versions is: by part the version and the rules, from the new container for a part installed from it. -/
def State.rules (s : State) (h : List Byte) (new : List Nat) (i j : Nat) : Nat × Nat :=
  if new.contains i then (match entryOf h i with | some e => eCompat h e j | none => (0, 2 ^ 32 - 1))
  else match mapGet none s.b.fw.slots (2 * i + (s.part i).active.toNat) with
    | some (g, _) => (match entryOf g i with | some e => eCompat g e j | none => (0, 2 ^ 32 - 1))
    | none => Config.shippedCompat i j

/-- The version of part `j`, none where it is absent. -/
def State.versionIn (s : State) (h : List Byte) (new : List Nat) (j : Nat) : Option Nat :=
  if new.contains j then (entryOf h j).map (eVersion h)
  else if (s.part j).present then some (s.part j).version else none

/-- The set with the parts `new` installed from the container is compatible (R670). -/
def State.compatible (s : State) (h : List Byte) (new : List Nat) : Bool :=
  (List.range 11).all fun i => (s.versionIn h new i).isNone || (List.range 11).all fun j =>
    i == j || (match s.versionIn h new j with
      | some v => decide ((s.rules h new i j).1 ≤ v) && decide (v ≤ (s.rules h new i j).2)
      | none => true)

/-- The commit order from the parts `done` on, none where no order exists (R671). -/
def State.orderFrom (s : State) (h : List Byte) : Nat → List Nat → Option (List Nat)
  | 0, _ => some []
  | n + 1, new =>
    match (List.range 11).find? fun k => (entryOf h k).isSome && !new.contains k && s.compatible h (k :: new) with
    | none => none
    | some k => (s.orderFrom h n (k :: new)).map (k :: ·)

def State.order (s : State) (h : List Byte) : Option (List Nat) := s.orderFrom h (cParts h) []

/-! ## Opening a container (R664) -/

/-- The first of checks 1 to 3 that fails. -/
def State.openErr1 (s : State) (h : List Byte) : Nat :=
  let m := cEndM h
  let ec := (h.drop 0x90).take 97
  let pq := (h.drop 0xF1).take 1952
  let np := cParts h
  if h.length < 0x891 ∨ numAt h 0 4 ≠ 0x424D5652 ∨ numAt h 4 2 ≠ 1 ∨ np = 0 ∨ 11 < np ∨ numAt h 0x1E 1 = 0 ∨ 3 < numAt h 0x1E 1
    ∨ h.length ≠ m + 3405 then 1
  else if numAt h 6 2 ≠ 0x9664 then 2
  else if (s.authOf ec pq 0).isNone ∨ ¬ Config.verifies .ecdsa 1 ec (sha384 (h.take m)) ((h.drop m).take 96)
    ∨ ¬ Config.verifies .mlDsa 0 pq (ascii "BIMAVER" ++ h.take m) (h.drop (m + 96)) then 3
  else 0

/-- Parts, lengths and chunk ranges (check 5). -/
def manifestErr (h : List Byte) : Nat :=
  let es := List.range (cParts h)
  if es.any fun e => decide (10 < ePart h e) || es.any fun g => decide (g < e) && ePart h g == ePart h e then 1
  else if es.any fun e => decide (capacity (ePart h e) < eLen h e) then 14
  else if es.any fun e => eFirst h e == 0 || decide (cChunks h + 1 < eFirst h e + eChunks h e)
      || es.any fun g => g != e && decide (eFirst h g ≤ eFirst h e) && decide (eFirst h e < eFirst h g + eChunks h g) then 1
  else 0

/-- The unit binding of a container matches (check 4). -/
def State.boundOk (s : State) (h : List Byte) : Bool :=
  !cBound h || (h.drop 0x20).take 48 == sha384 (ascii "ZJ9664-UNIT" ++ s.wordBytes VLT_UNIT_SN 4)

/-- The first of checks 4 to 8 that fails; `pid` wrote OPEN. -/
def State.openErr2 (s : State) (h : List Byte) (pid : Nat) : Nat :=
  let slot := s.get MEM_UPD_CFG_KEY_SLOT
  let a := s.reg (VLT_SLOT_ATTR slot)
  if ¬ s.boundOk h then 4
  else if manifestErr h ≠ 0 then manifestErr h
  else if (List.range (cParts h)).any fun e => decide (eSvn h e < mapGet 0 s.b.vlt.arb (ePart h e)) then 5
  else if (s.order h).isNone then 6
  else if cEnc h ∧ (s.useStatus slot ≠ OK ∨ attrType a ≠ 2 ∨ ¬ bit (attrUsage a) 1 ∨ attrOwner a ≠ pid) then 10
  else 0

/-- A container is discarded, or its place is freed (R665). -/
def discard : Upd := seqs [
  updFw fun u => { u with hdr := [], staged := [], own := u.own.bind fun x => if x.stage then none else some x,
                          rel := u.rel.map fun x => { x with stage := false } },
  bootWrite fun r => { r with state := 0 },
  set MEM_UPD_PROG_NEXT_CHUNK 0]

/-- A chunk is handed to the DN port (R666 to R668). -/
def relayOut (n : Nat) (bs : List Byte) : Upd := .read fun s => whenU (s.flag MEM_UPD_CFG_RELAY_FWD && s.portUp 1)
  (forN ((bs.length + 255) / 256) fun i =>
    let part := (bs.drop (256 * i)).take 256
    flkOut { type := 7, vc := 3, dst := s.devNum + 1, pid := (s.ctxPid 58).1, len := part.length, wseq := 0xFFFE,
             w2 := n * 256 + i, data := part })

/-- Chunk 0 of a container: the stream it opens and the code it ends with. `relayed` tells where the stream is kept. -/
def openChunk (pid : Nat) (relayed : Bool) (h : List Byte) : Upd := .read fun s =>
  let keep (x : Option Stream) : Upd := updFw fun u => if relayed then { u with rel := x } else { u with own := x }
  let e1 := s.openErr1 h
  if e1 ≠ 0 then .seq (keep none) (updCode e1) else
  let e2 := if s.boot.state ≠ 0 then 9 else s.openErr2 h pid
  let first := (h.drop 0x60).take 48
  seqs [
    keep (some { hdr := h, dig := first, stage := e2 == 0 }), relayOut 0 h, updCode e2,
    whenU (e2 == 0) (seqs [
      updFw fun u => { u with hdr := h, staged := [] },
      bootWrite fun r => { r with state := 1, cid := cId h }, set MEM_UPD_PROG_NEXT_CHUNK 1])]

/-! ## Data chunks (R665) -/

/-- The manifest entry that data chunk `n` belongs to. -/
def chunkEntry (h : List Byte) (n : Nat) : Option Nat := (List.range (cParts h)).find? fun e =>
  decide (eFirst h e ≤ n) && decide (n < eFirst h e + eChunks h e)

/-- The plaintext of data chunk `n`, none where its TAG is wrong. -/
def State.chunkText (s : State) (h : List Byte) (n : Nat) (bs : List Byte) : Option (List Byte) :=
  let body := bs.drop 64
  if ¬ cEnc h then some body else
  let num := beBytes 4 n
  let key := mapGet [] s.b.vlt.mat (s.get MEM_UPD_CFG_KEY_SLOT)
  let aux := (h.drop 0x50).take 8 ++ num ++ num ++ bs.take 48
  let inp := leBytes 4 aux.length ++ aux ++ body
  if Config.verifies .aesGcm 16 key inp ((bs.drop 48).take 16) then some (crypt .aesGcm 5 key inp body.length) else none

/-- A chunk that passed its digest is staged; `k` learns the code. -/
def stageChunk (h : List Byte) (n : Nat) (bs : List Byte) (k : Nat → Upd) : Upd := .read fun s =>
  match s.chunkText h n bs with
  | none => k 8
  | some text => match chunkEntry h n with
    | none => k 0
    | some e =>
      let img := (mapGet [] s.b.fw.staged (ePart h e) ++ text).take (eLen h e)
      .seq (updFw fun u => { u with staged := mapPut [] u.staged (ePart h e) img })
        (k (if n + 1 = eFirst h e + eChunks h e ∧ sha384 img ≠ eDigest h e then 11 else 0))

/-- A data chunk of a stream. -/
def dataChunk (relayed : Bool) (x : Stream) (n : Nat) (bs : List Byte) : Upd :=
  let keep (y : Option Stream) : Upd := updFw fun u => if relayed then { u with rel := y } else { u with own := y }
  if n ≠ x.next ∨ sha384 bs ≠ x.dig then seqs [whenU x.stage discard, updCode 7, keep none]
  else
    let last := decide (cChunks x.hdr ≤ n)
    let y : Stream := { x with next := n + 1, dig := bs.take 48 }
    seqs [
      relayOut n bs,
      if x.stage then stageChunk x.hdr n bs fun c =>
        if c ≠ 0 then seqs [discard, keep (if last then none else some { y with stage := false }), updCode c]
        else seqs [keep (if last then none else some y), set MEM_UPD_PROG_NEXT_CHUNK (n + 1), updCode 0,
          whenU last (bootWrite fun r => { r with state := 2 })]
      else keep (if last then none else some y)]

/-- A relayed packet is put with its chunk: from the UP partner, with RELAY_IN = 1 (R667). -/
def relayIn (p : Pkt) : Upd := .read fun s => whenU (s.flag MEM_UPD_CFG_RELAY_IN && p.src + 1 == s.devNum && s.get FLK_DEV_ROLE != 4) (
  let n := p.w2 / 256
  updFw fun u => { u with relay := match u.relay.getLast? with
    | some (m, bs) => if m = n ∧ p.w2 % 256 ≠ 0 then u.relay.dropLast ++ [(n, bs ++ p.data)] else u.relay ++ [(n, p.data)]
    | none => [(n, p.data)] })

/-- RELAY_CHUNK_RX (R667, R668): the oldest relayed chunk is complete. -/
def relayChunkRx : Upd := .read fun s => match s.b.fw.relay with
  | [] => .skip
  | (n, bs) :: t => seqs [
      updFw fun u => { u with relay := t },
      if n = 0 then openChunk (s.ctxPid 58).1 true bs
      else match s.b.fw.rel with
        | some x => dataChunk true x n bs
        | none => .skip]

/-! ## Committing (R672, R673) -/

/-- A software reset follows (R159). -/
def askReset (cause : Nat) : Upd := updFab fun f => { f with reset := some cause }

/-- The confirmed set: STATE Normal, no TRIAL bit, and with AUTO_ARB the counters raised (R675). -/
def confirmed : Upd := .read fun s => seqs [
  bootWrite fun r => (List.range 11).foldl (fun r k => r.setPart k fun p => { p with trial := false })
    { r with state := 0 },
  updFw fun u => { u with window := none }, set MEM_UPD_TRIAL_LEFT_S 0, updCode 0,
  whenU (s.flag MEM_UPD_CFG_AUTO_ARB) (forN 11 fun k => whenU (s.part k).trial (arbRaise k (s.part k).svn fun _ => .skip))]

/-- MEM_NOR_STAT while the slot of part `k` that is not active is being written: a part in NOR keeps its device busy (R215, R654). -/
def norBusy (k : Nat) : Upd := .read fun s => .seq (set MEM_NOR_STAT_BUSY_A (decide (k ≤ 8) && (s.part k).active).toNat)
  (set MEM_NOR_STAT_BUSY_B (decide (k ≤ 8) && !(s.part k).active).toNat)

/-- No step is in progress any more. -/
def commitIdle : Upd := seqs [
  set MEM_NOR_STAT_BUSY_A 0, set MEM_NOR_STAT_BUSY_B 0,
  updFw fun u => { u with steps := [], recheck := false }, set MEM_UPD_STAT_BUSY 0, set MEM_UPD_STAT_STEP 15]

/-- The set installed enters its trial, or is confirmed in recovery hold and a software reset ends it (R146, R672, R677). -/
def enterTrial : Upd := .read fun s => seqs [
  if s.get MSU_BOOT_STAT_PHASE = 4 then .seq confirmed (askReset 5)
  else .seq (bootWrite fun r => { r with state := 4, boots := 0, maxBoots := numAt s.b.fw.hdr 0x1E 1 })
    (whenU (s.flag MEM_UPD_CFG_AUTO_RESET) (askReset 5)),
  updFw fun u => { u with hdr := [], staged := [] }]

/-- The next step begins, or the commit ends. -/
def nextStep : Upd := .read fun s => match s.b.fw.steps with
  | k :: _ => seqs [norBusy k, set MEM_UPD_STAT_STEP k, journal { kind := 2, part := k, cid := s.boot.cid }]
  | [] => seqs [journal { kind := 4, cid := s.boot.cid }, commitIdle, updCode 0, enterTrial]

/-- The commit is abandoned with a code: completed steps stay done (R681). -/
def abandon (code : Nat) : Upd := .read fun s =>
  let done := (List.range 11).any fun k => (s.part k).trial
  seqs [journal { kind := 7, cid := s.boot.cid, data := [BitVec.ofNat 8 code] }, commitIdle, updCode code,
    if done then enterTrial else .seq (updFw fun u => { u with hdr := [], staged := [] }) (bootWrite fun r => { r with state := 0 })]

/-- COMMIT. -/
def commit : Upd := .read fun s =>
  if s.boot.state ≠ 2 then updCode 9 else
  match s.order s.b.fw.hdr with
  | none => updCode 6
  | some l =>
    let act := (List.range 11).foldl (fun m k => m + (s.part k).active.toNat * 2 ^ k) 0
    seqs [
      bootWrite fun r => { r with state := 3, window := min 600 (max 1 (s.get MEM_UPD_CFG_CONFIRM_WINDOW)),
                                  confReq := min 2 (s.get MEM_UPD_CFG_CONF_REQ) },
      journal { kind := 1, cid := s.boot.cid, data := fit 11 (l.map (BitVec.ofNat 8 ·)) ++ leBytes 2 act },
      updFw fun u => { u with steps := l },
      set MEM_UPD_STAT_BUSY 1, set MEM_UPD_STAT_STEPS l.length, set MEM_UPD_STAT_DONE 0, updCode 0, nextStep]

/-- COMMIT_STEP_DONE (R672, R673, R681). `res`: 0 the slot in progress is written and its image reads back with its DIGEST; 1 phase
3 or a write on both devices failed; 2 the check after a reset finds the staged images not intact. -/
def commitStepDone (res : Fin 3) : Upd := .read fun s => match s.b.fw.steps with
  | [] => .skip
  | k :: t => whenU (s.boot.state == 3) (match entryOf s.b.fw.hdr k with
    | none => .skip
    | some e =>
      let h := s.b.fw.hdr
      let img := mapGet [] s.b.fw.staged k
      let slot := 2 * k + (!(s.part k).active).toNat
      if res = 2 then whenU s.b.fw.recheck (abandon 11)
      else if res = 1 then .seq (report 4 none TR) (
        if (List.range 11).any fun k => (s.part k).trial then abandon 12
        else seqs [commitIdle, updCode 12, bootWrite fun r => { r with state := 2 }])
      else seqs [
        updFw fun u => { u with slots := mapPut none u.slots slot (some (fit 16384 h, img)), recheck := false },
        bootWrite fun r => r.setPart k fun p => { p with
          present := true, trial := true, active := !p.active, svn := eSvn h e, version := eVersion h e, len := eLen h e,
          digest := eDigest h e },
        journal { kind := 3, part := k, cid := s.boot.cid },
        inc MEM_UPD_STAT_DONE, updFw fun u => { u with steps := t }, nextStep])

/-! ## Trial, confirmation, fallback (R674 to R676) -/

/-- The image facts of the slot a part returns to: those of the chunk 0 that installed it. -/
def State.slotEntry (s : State) (k : Nat) (p : PartEntry) : PartEntry :=
  let back := { p with trial := false, active := !p.active }
  match mapGet none s.b.fw.slots (2 * k + back.active.toNat) with
  | some (h, _) => (match entryOf h k with
    | some e => { back with svn := eSvn h e, version := eVersion h e, len := eLen h e, digest := eDigest h e }
    | none => back)
  | none => { back with svn := 0, version := 0, len := 0, digest := [] }

/-- A fallback: `why` 1 window, 2 boot count, 3 OP FALLBACK, 4 boot from the other slot; a reset follows except for 2. -/
def fallback (why : Nat) : Upd := .read fun s => seqs [
  journal { kind := 6, cid := s.boot.cid, data := [BitVec.ofNat 8 why] },
  bootWrite fun r => (List.range 11).foldl (fun r k => r.setPart k fun p => if p.trial then s.slotEntry k p else p)
    { r with state := 0 },
  updFw fun u => { u with window := none }, set MEM_UPD_TRIAL_LEFT_S 0, updCode 13,
  whenU (why != 2) (askReset 5)]

/-- The ROM counts a trial boot (R674). -/
def romTrial : Upd := .read fun s => whenU (s.boot.state == 4)
  (if s.boot.maxBoots ≤ s.boot.boots then fallback 2 else bootWrite fun r => { r with boots := r.boots + 1 })

/-- A write of MEM_UPD_CONFIRM, `v` with the bits that the writer may set: what is stored, and what follows (R675). -/
def State.trialRuns (s : State) : Bool := s.boot.state == 4 && s.boot.boots != 0
def updConfirmHook : Upd := .read fun s =>
  if ¬ s.trialRuns then .seq (setReg MEM_UPD_CONFIRM 0) (updCode 9) else
  let h := s.flag MEM_UPD_CONFIRM_HEALTH_CONFIRM
  let f := s.flag MEM_UPD_CONFIRM_SAFE
  whenU (if s.bothSplit then h else match s.boot.confReq with | 0 => h | 1 => f | _ => h && f)
    (.seq (journal { kind := 5, cid := s.boot.cid }) confirmed)

/-- CONFIRM_WINDOW_EXPIRY (R676). -/
def confirmWindowExpiry : Upd := .read fun s => whenU (s.b.fw.window.isSome && s.boot.state == 4) (fallback 1)

/-- MEM_UPD_TRIAL as it reads: the seconds left, begun ones too. -/
def State.trialLeft (s : State) : Nat := match s.b.fw.window with
  | some e => (e - s.devTime + 999999999) / 1000000000
  | none => 0

/-! ## Transactions and commands (R680) -/

def showTxn : Upd := .read fun s => .seq (set MEM_UPD_JRNL_TXN_OPEN s.b.fw.txn.isSome.toNat)
  (set MEM_UPD_JRNL_TXN_LEN ((s.b.fw.txn.getD []).length))

/-- The buffer of a command. -/
def State.updSrc (s : State) : Nat := s.reg MEM_UPD_SRC_LO / 64 * 64 + s.get MEM_UPD_SRC_HI_ADDR_HI * 2 ^ 32
def State.updLen (s : State) : Nat := min 65536 (max 1 (s.get MEM_UPD_LEN_LEN))

/-- A write of MEM_UPD_CMD under `pid` (R664 to R680). -/
def updCmdHook (pid v : Nat) : Upd := .seq (set MEM_UPD_CMD_GO 0) (.read fun s =>
  whenU (bit v 31 && !s.flag MEM_UPD_STAT_BUSY) (
    let st := s.boot.state
    match bits v 27 24 with
    | 1 => if st ≠ 0 then updCode 9 else dmaRead 58 s.updSrc s.updLen fun r => match r with
      | some h => openChunk pid false h
      | none => updCode 1
    | 2 => (match s.b.fw.own with
      | none => updCode 9
      | some x => dmaRead 58 s.updSrc s.updLen fun r => dataChunk false x x.next (r.getD []))
    | 3 => commit
    | 4 => if st = 1 ∨ st = 2 then .seq discard (updCode 0) else updCode 9
    | 5 => if st = 4 then fallback 3 else updCode 9
    | 6 => if s.b.fw.txn.isSome then updCode 9 else dmaRead 58 s.updSrc (min 4096 s.updLen) fun r => match r with
      | some bs => seqs [journal { kind := 9, data := bs }, updFw fun u => { u with txn := some bs }, showTxn, updCode 0]
      | none => updCode 12
    | 7 => if s.b.fw.txn.isNone then updCode 9
      else seqs [journal { kind := 10 }, updFw fun u => { u with txn := none }, showTxn, updCode 0]
    | 8 => (match s.b.fw.txn with
      | none => updCode 9
      | some bs => dmaWrite 58 s.updSrc bs fun ok => updCode (if ok then 0 else 12))
    | _ => updCode 15))

/-! ## After a reset (R681) -/

/-- A module reset stops what the engine does and keeps what is in flash. -/
def updAtReset : Upd := seqs [
  updFw fun u => { u with own := none, rel := none, relay := [], steps := [], recheck := false, window := none },
  showBoot, showTxn, showMigJrnl]

/-- The steps that are left of a commit: the parts of its order that do not run their new image. -/
def State.stepsLeft (s : State) : List Nat :=
  let ord := (s.b.fw.journal.reverse.find? (·.kind == 1)).map fun r => (r.data.take 11).map (·.toNat)
  ((ord.getD []).take (cParts s.b.fw.hdr)).filter fun k => !(s.part k).trial

/-- What the engine does at the lock. -/
def updAtLock : Upd := .read fun s => match s.boot.state with
  | 1 => discard
  | 3 =>
    let l := s.stepsLeft
    seqs [updFw fun u => { u with steps := l, recheck := true },
      set MEM_UPD_STAT_BUSY 1, set MEM_UPD_STAT_STEPS (cParts s.b.fw.hdr), set MEM_UPD_STAT_DONE (cParts s.b.fw.hdr - l.length),
      nextStep]
  | 4 => if s.flag MSU_BOOT_STAT_FALLBACK then fallback 4
    else whenU (s.boot.boots != 0) (.seq (updFw fun u => { u with window := some (s.devTime + s.boot.window * 1000000000) })
      (set MEM_UPD_TRIAL_LEFT_S s.boot.window))
  | _ => .skip

end Sys2Proof.Machine
end

