-- ==== Sys2Proof/Machine/Gld.lean ====
section
/-!
DEFINITION. Glade: sample cells, the decision table, designated loads, wake reasons, false wakes, the store
(05_glade.md).
-/
namespace Sys2Proof.Machine

def updPsm (f : Psm → Psm) : Upd := upd fun b => { b with psm := f b.psm }

def State.gldCell (s : State) (c : Nat) : GldCell := mapGet {} s.b.gld.cells c
def updGldCell (c : Nat) (f : GldCell → GldCell) : Upd := updGld fun x => { x with cells := mapPut {} x.cells c (f (mapGet {} x.cells c)) }

/-- The power state (R92). -/
def State.pwr (s : State) : Nat := s.get MSU_PWR_STATE_STATE
/-- The phase of a power-down (R105). -/
def State.pdPhase (s : State) : Nat := s.get PSM_TRANS_STAT_PHASE
/-- Suspend or Watch. -/
def State.gladeRules (s : State) : Bool := s.pwr == 2 || s.pwr == 3

/-! ## Wake reasons (R128, R129) -/

/-- A reason for a wake is recorded, or adds to EXTRA. -/
def recordWake (kind src entry code : Nat) (id : Option Nat) : Upd := .read fun s =>
  if s.flag GLD_WAKE_REASON_VALID then inc GLD_WAKE_REASON_EXTRA
  else seqs [
    setReg GLD_WAKE_REASON (2 ^ 31 + kind * 2 ^ 28 + src * 2 ^ 22 + entry * 2 ^ 17 + code),
    match id with
    | some i => .seq (set GLD_WAKE_REASON_ID_VALID 1) (setReg GLD_WAKE_ID i)
    | none => .skip]

/-- A wake has started and the module has not come up yet. -/
def State.waking (s : State) : Bool := s.b.psm.resume.isSome || s.b.fab.reset.isSome

/-- A full wake from Suspend or Watch starts: the validation window opens, FL_WAKE is driven (R553), and a resume or a cold boot
falls due; one that has started already takes further reasons only (R128). `fail`: the check of the retained state would fail (R94).
VALIDATE 0 opens no window: that wake is neither counted nor validated (DESIGN CHOICE, notes/assumptions/88.md). -/
def fullWake (src val : Nat) (fail : Bool) : Upd := .read fun s => whenU (!s.waking) (seqs [
  whenU (decide (1 ≤ val ∧ val ≤ 3)) (updGld fun x => { x with wins := x.wins ++ [(src, val)] }),
  updGld fun x => { x with woke := true, slots := x.slots.map fun e => (e.1, { e.2 with retired := false }) },
  whenU (s.b.psm.flwOut && !s.b.psm.noChain && src != 9) (updPsm fun x => { x with flDrive := true }),
  if s.pwr = 2 ∧ ¬ s.b.psm.retLost then updPsm fun x => { x with resume := some fail }
  else askReset (if s.pwr = 2 then 3 else 2)])

/-! ## Designated loads (R122 to R127) -/

/-- The slot may be started: enabled, its channel not named before, no supply condition on its die (R125). -/
def State.slotBlocked (s : State) (k : Nat) : Bool :=
  let d := s.slotCh k / 16
  s.slotDup k || s.b.psm.brown || (s.die d).batLow

/-- The channel's designation holds now: under Glade's command. -/
def State.slotBusy (s : State) (k : Nat) : Bool :=
  let x := s.gldSlot k
  let g := s.slotCh k
  let c := s.chan g
  x.on && !s.lswRetired g && (c.out != .off || !c.tripped || c.retryWait || c.coolWait)
    || (s.flag (GLD_DLOAD_CFG_EN k) && !x.handed && c.out != .off && s.flag PSM_STAT_P_SERVICE)

/-- What GLD_DLOAD_STAT shows of slot `k` (R136). -/
def State.slotShown (s : State) (k : Nat) : Nat :=
  let x := s.gldSlot k
  let g := s.slotCh k
  if ¬ s.flag (GLD_DLOAD_CFG_EN k) then 0
  else if s.slotBlocked k then 7
  else if x.handed then 6
  else if x.retired ∨ (s.lswRetired g ∧ (s.die (g / 16)).on) then 5
  else if x.on ∧ (s.chan g).tripped then 4
  else if x.on then (if x.flash then 2 else 1)
  else if x.expired then 3 else 0

def showSlots : Upd := .read fun s => setReg GLD_DLOAD_STAT ((List.range 8).foldl (fun v k => v + s.slotShown k * 16 ^ k) 0)

/-- A die's gate-locks are engaged unless it is enabled and powered, its stud is up and its oscillator runs (R100). -/
def State.dieLocked (s : State) (d : Nat) : Bool := !(s.die d).on || (s.die d).batLow || !(s.die d).osc

/-- Which dice have their gate-locks engaged (R103, R304). -/
def showLocks : Upd := .read fun s => seqs [
  set PSM_STAT_GATELOCK ((List.range 4).foldl (fun v d => v + (s.dieLocked d).toNat * 2 ^ d) 0),
  forN 4 fun d => whenU (s.die d).on (set (LSW_DIE_STAT_GATELOCK d) (s.dieLocked d).toNat)]

/-- Glade powers a die for its slots (R123): the dice start from their reset configuration, with the wire code of each
designated channel. -/
def servicePower (d : Nat) : Upd := .read fun s => whenU (!(s.die d).on) (
  let mine := (List.range 8).filter fun k => s.flag (GLD_DLOAD_CFG_EN k) && !s.slotDup k && s.slotCh k / 16 == d
  seqs [
    set PSM_STAT_P_SERVICE 1,
    dieUp d (mine.map fun k => (s.slotCh k, s.get (GLD_DLOAD_CFG_WIRE k))),
    forEach mine fun k =>
      let g := s.slotCh k
      seqs [set (CELL_CTRL_EN (lswUnit g) (g % 16)) 1, set (CELL_STAT_ENABLED (lswUnit g) (g % 16)) 1, set (LSW_CH_CFG_MODE g) 1, showCh g],
    showLocks])

/-- Glade commands a designated channel on, or off through its clamp. -/
def gladeOn (g : Nat) : Upd := command g (2 ^ 31 + 4095) 3 false
def gladeOff (g : Nat) : Upd := .read fun s =>
  let l := s.lead g
  .seq (whenU (!s.moduleSafe && !((s.chan l).safe && s.safeCause l))
    (.seq (updChan l fun c => { c with safe := false }) (turnOff l .clamp))) (command g 0 3 false)

/-- SVC_START of one slot (R123 to R125). -/
def slotStart (k : Nat) : Upd := .read fun s =>
  let g := s.slotCh k
  let x := s.gldSlot k
  let p := s.get (GLD_DLOAD_FLASH_PERIOD k)
  let flash := s.get (GLD_DLOAD_CFG_MODE k) == 1 && p != 0 && decide (s.get (GLD_DLOAD_FLASH_ON k) < p)
  whenU (s.flag (GLD_DLOAD_CFG_EN k) && !s.slotBlocked k && !x.retired && !((s.die (g / 16)).on && s.lswRetired g) && !(s.chan g).retryWait && !x.on) (seqs [
    servicePower (g / 16),
    updGldSlot k fun _ => { on := true, flash := flash, phase := true },
    gladeOn g])

/-- SVC_STOP of one slot. -/
def slotStop (k : Nat) : Upd := .read fun s => whenU (s.flag (GLD_DLOAD_CFG_EN k) && !s.slotDup k)
  (.seq (updGldSlot k fun _ => {}) (gladeOff (s.slotCh k)))

/-- A service action on the slots of a mask: 1 start, 2 stop. -/
def service (mask cmd : Nat) : Upd := forN 8 fun k => whenU (bit mask k)
  (if cmd = 1 then slotStart k else if cmd = 2 then slotStop k else .skip)

/-- FLASH_TOGGLE (R124): the channel toggles, also while a supply condition holds it off. -/
def flashToggle (k : Fin 8) : Upd := .read fun s =>
  let x := s.gldSlot k
  whenU (x.on && x.flash && !x.handed) (.seq (updGldSlot k fun x => { x with phase := !x.phase })
    (if x.phase then gladeOff (s.slotCh k) else gladeOn (s.slotCh k)))

/-- MAX_ON_EXPIRY (R124). -/
def maxOnExpiry (k : Fin 8) : Upd := .read fun s =>
  whenU ((s.gldSlot k).on && !(s.gldSlot k).handed && s.flag (GLD_DLOAD_CFG_MAX_ON k))
    (.seq (updGldSlot k fun _ => { expired := true }) (gladeOff (s.slotCh k)))

/-- DLOAD_RETURN (R125): the condition has cleared and the gate passes. -/
def dloadReturn (k : Fin 8) : Upd := .read fun s =>
  whenU ((s.gldSlot k).on && !(s.gldSlot k).handed && !s.slotBlocked k) (gateTry (s.lead (s.slotCh k)))

/-- A slot whose channel is retired in Suspend or Watch stays so until the next full wake, its die powered or not (R125). -/
def slotsRetired : Upd := .read fun s => whenU s.gladeRules (forN 8 fun k =>
  whenU (s.flag (GLD_DLOAD_CFG_EN k) && !s.slotDup k && (s.die (s.slotCh k / 16)).on && s.lswRetired (s.slotCh k) && !(s.gldSlot k).retired)
    (updGldSlot k fun _ => { retired := true }))

/-! ## The store (R131 to R134) -/

/-- The registers of the configuration record. -/
def configReg (a : Nat) : Bool :=
  a == GLD_CFG || ((List.range 8).any fun k => a == GLD_DLOAD_CFG k || a == GLD_DLOAD_FLASH k)
    || (GLD_DT_MASK 0 ≤ a && decide (a < GLD_DT_MASK 0 + 0x200))
    || ((List.range 32).any fun c => a == CELL_CTRL 22 c || a == GLD_CELL_SRC c || a == GLD_CELL_TIME c || a == GLD_CELL_THR c || a == GLD_CELL_FILT c)

def State.configRecord (s : State) : List (Nat × Nat) := (s.regs.filter fun e => configReg e.1).map fun e => (e.1, e.2.toNat)

def State.dynRecord (s : State) : List (Nat × Nat × Bool) :=
  (List.range 64).filterMap fun i => if s.fwCount i ≠ 0 ∨ s.fwDisabled i then some (i, s.fwCount i, s.fwDisabled i) else none

/-- The newer valid copy. -/
def Gld.store (x : Gld) : Option StoreCopy := match x.copyA, x.copyB with
  | some a, some b => some (if b.seq ≤ a.seq then a else b)
  | some a, none => some a
  | none, b => b

/-- Write the older copy. -/
def Gld.save (x : Gld) (cfg : Option (List (Nat × Nat))) (dyn : List (Nat × Nat × Bool)) : Gld :=
  let c : StoreCopy := ⟨(x.store.map (·.seq)).getD 0 + 1, cfg, some dyn⟩
  match x.copyA, x.copyB with
  | some a, some b => if b.seq ≤ a.seq then { x with copyB := some c } else { x with copyA := some c }
  | some _, none => { x with copyB := some c }
  | none, _ => { x with copyA := some c }

/-- GLADE_STORE_SAVE: a write of GLD_STORE_CTRL. A refused save raises STORE_DONE too (DESIGN CHOICE, notes/assumptions/92.md). -/
def storeCtrlHook (v : Nat) : Upd := .seq (set GLD_STORE_CTRL_SAVE 0) (whenU (bit v 31) (.read fun s =>
  if s.updBusy then .seq (set GLD_STORE_CTRL_SAVE_RES 3) (raise 22 2) else updGld fun x => { x with saving := true }))

/-- GLADE_SAVE_DONE (R132): the NOR write ends. -/
def gladeSaveDone (ok : Bool) : Upd := .read fun s => whenU s.b.gld.saving (seqs [
  updGld fun x => let y := { x with saving := false }; if ok then y.save (some s.configRecord) s.dynRecord else y,
  set GLD_STORE_CTRL_SAVE_RES (if ok then 1 else 2), raise 22 2])

/-- Glade's registers and records as they are unpowered. -/
def gladeLost : Upd := seqs [
  clearRegs (onPage 22),
  .act (.memDrop fun a => 0x58000000 ≤ a && a < 0x58004000),
  updGld fun x => { copyA := x.copyA, copyB := x.copyB }]

/-- The boot ROM loads P3 into the retained RAM, and the sequencer runs (R110). -/
def gladeBoot : Upd := .read fun s => seqs [
  match mapGet none s.b.fw.slots (6 + (s.part 3).active.toNat) with
  | some (_, img) => storeBytes 0x58000000 (img.take 8192)
  | none => freeBytes (min 8192 (s.part 3).len) fun bs => storeBytes 0x58000000 bs,
  set GLD_SEQ_STAT_RUN 1]

/-- The sequencer restores the newer valid copy; `k` learns whether a configuration was there (R133, R134). Where it was not, a valid
dynamic record is not restored either (DESIGN CHOICE, notes/assumptions/89.md). -/
def gladeRestore (k : Bool → Upd) : Upd := .read fun s =>
  let c := s.b.gld.store
  match c.bind (·.cfg) with
  | none => .seq (set GLD_STORE_CTRL_RESTORE 2) (k false)
  | some cfg => seqs [
      forEach cfg fun e => setReg e.1 e.2,
      .read fun s => forN 32 fun i => set (CELL_STAT_ENABLED 22 i) (s.get (CELL_CTRL_EN 22 i)),
      set (BLK_CTRL_EN 22) 1, set (BLK_STAT_ENABLED 22) 1, -- in neither record: DESIGN CHOICE, notes/assumptions/89.md
      match c.bind (·.dyn) with
      | some l => .seq (forEach l fun e => .seq (setFw e.1 e.2.1) (setFwDis e.1 e.2.2)) (set GLD_STORE_CTRL_RESTORE 1)
      | none => set GLD_STORE_CTRL_RESTORE 3,
      k true]

/-! ## Sleep states under Glade -/

/-- What is lost when a sleep state is entered from another: the record of the wake reason starts anew (R128). -/
def sleepEntered (st : Nat) : Upd := seqs [
  set MSU_PWR_STATE_STATE st, set MSU_PWR_STATE_REQ st, setReg GLD_WAKE_REASON 0, setReg GLD_WAKE_ID 0,
  updGld fun x => { x with woke := false, maxDropped := false, slots := x.slots.map fun e => (e.1, { e.2 with handed := false }) }]

/-- Entry into Deep Standby: the dynamic record is written where it differs, Glade is unpowered, the dice forget (R132, R314). -/
def enterDeep : Upd := .read fun s => seqs [
  whenU ((s.b.gld.store.bind (·.dyn)).getD [] != s.dynRecord)
    (updGld fun x => x.save (x.store.bind (·.cfg)) s.dynRecord),
  gladeLost,
  forN 4 fun d => updDie d fun x => { x with saved := [] },
  set MSU_PWR_STATE_STATE 4, set MSU_PWR_STATE_REQ 4,
  updPsm fun x => { x with latched := 0 }]

/-- The Deep Standby command (R126): sources that are active are masked (R99). -/
def deepTry : Upd := .read fun s => whenU (s.b.gld.deep && s.pwr == 3 && s.b.fab.reset.isNone && !(List.range 8).any s.slotBusy)
  (seqs [forN 4 fun d => .read fun s => whenU (s.die d).on (dieDown d), showLocks, set PSM_STAT_P_SERVICE 0,
    enterDeep, setReg PSM_DS_MASKED (s.reg PSM_DS_MASKED ||| (s.b.psm.levels &&& s.reg PSM_DS_WAKE_EN))])

/-- GLADE_SERVICE_END (R125). -/
def gladeServiceEnd : Upd := .read fun s => whenU (s.gladeRules && s.flag PSM_STAT_P_SERVICE && !(List.range 8).any s.slotBusy) (seqs [
  forN 4 fun d => .read fun s => whenU (s.die d).on (dieDown d), showLocks, set PSM_STAT_P_SERVICE 0, deepTry])

/-- WATCH_MAX_EXPIRY (R126): dropped until Watch is entered again where an entry fired in the same evaluation (R121), that is with no time
between (DEDUCED, notes/assumptions/90.md). -/
def watchMaxExpiry : Upd := .read fun s => whenU (s.pwr == 3 && s.flag GLD_CFG_WATCH_MAX && !s.b.gld.maxDropped)
  (if s.b.gld.firedAt = some s.now then updGld fun x => { x with maxDropped := true }
   else .seq (updGld fun x => { x with deep := true }) deepTry)

/-! ## The decision table (R118 to R121) -/

/-- The lowest set bit of a number of up to 32 bits. -/
def lowBit (v : Nat) : Option Nat := (List.range 32).find? (bit v)

/-- The entries that fire, each with its source: `now` and `old` are the cell states, `changed` the cells that changed, `ev` the
events; sources disabled for false wakes make no condition true. `first`: every earlier condition counts as false (R133). -/
def State.firings (s : State) (now changed : Nat) (first : Bool) : List (Nat × Nat) :=
  let ev := s.b.gld.events &&& (2 ^ 32 - 1 - s.reg GLD_FW_DIS_LO)
  let dis := s.reg GLD_FW_DIS_HI
  let live := changed &&& (2 ^ 32 - 1 - dis)
  let alt := if first then now else Nat.xor now (changed &&& dis)
  (List.range 32).filterMap fun e =>
    let m := s.reg (GLD_DT_MASK e)
    let t := s.reg (GLD_DT_MATCH e) &&& m
    let evt := s.reg (GLD_DT_EVT e)
    let was := bit s.b.gld.was e && !first
    if ¬ s.flag (GLD_DT_ACT_EN e) ∨ (m = 0 ∧ evt = 0) ∨ was ∨ now &&& m ≠ t ∨ alt &&& m ≠ t then none
    else if evt ≠ 0 then (lowBit (ev &&& evt)).map fun i => (e, i)
    else (lowBit (live &&& m)).map fun c => (e, 32 + c)

/-- The conditions after the evaluation; one with an event term is false again. -/
def State.conditions (s : State) (now : Nat) : Nat := (List.range 32).foldl (fun v e =>
  let m := s.reg (GLD_DT_MASK e)
  v + (decide (now &&& m = s.reg (GLD_DT_MATCH e) &&& m) && s.reg (GLD_DT_EVT e) == 0).toNat * 2 ^ e) 0

/-- A write to the decision table: a condition that it makes false counts as false from then on (R119; DEDUCED,
notes/assumptions/82.md). -/
def conditionsFall : Upd := .read fun s => updGld fun x => { x with was := x.was &&& s.conditions (s.reg GLD_CELL_STATE) }

/-- One evaluation (R120, R121, R112) after `changed` cells and the events that arrived. `id` is the identifier of a waking CAN
frame. -/
def evaluate (changed : Nat) (first : Bool) (id : Option Nat) (fail : Bool) : Upd := .read fun s =>
  let now := s.reg GLD_CELL_STATE
  let fired := s.firings now changed first
  let act (e : Nat) := s.reg (GLD_DT_ACT e)
  let full := fired.filter fun x => bit (act x.1) 30
  let ph := s.pdPhase
  let wakeId (src : Nat) : Option Nat := if 10 ≤ src ∧ src ≤ 17 then id else none
  let svc (f : Nat → Nat → Upd) : Upd := forEach fired fun x =>
    let c := bits (act x.1) 28 27
    whenU (c == 1 || c == 2) (f (bits (act x.1) 23 16) c)
  seqs [
    updGld fun x => { x with events := 0, was := s.conditions now },
    forEach fired fun x => .seq (setBit GLD_FIRED x.1) (raise 22 0),
    whenU (!fired.isEmpty) (updGld fun x => { x with firedAt := some s.now }),
    if ph ≠ 0 then .seq
      (svc fun m c => updGld fun x => { x with held := x.held ++ [(m, c)] })
      (if full.isEmpty then .skip
       else if ph = 3 then forEach full fun y => lateWake { kind := 0, src := y.2, entry := y.1, code := act y.1 % 256, id := wakeId y.2,
                                                            val := bits (act y.1) 26 24 }
       else cancelTransition)
    else if s.gladeRules then .seq (svc service) (match full with
      | x :: _ => .seq
          (forEach full fun y => recordWake 0 y.2 y.1 (act y.1 % 256) (wakeId y.2))
          (fullWake x.2 (bits (act x.1) 26 24) fail)
      | [] => whenU (s.pwr == 3 && (first || fired.any fun x => bit (act x.1) 29))
          (.seq (updGld fun x => { x with deep := true }) deepTry))
    else .skip]

/-- An event source of R118 reaches Glade. -/
def gladeEvent (src : Nat) (id : Option Nat) (fail : Bool) : Upd :=
  .seq (updGld fun x => { x with events := x.events ||| 2 ^ src }) (evaluate 0 false id fail)

/-! ## Sample cells (R113 to R117) -/

/-- The result of the comparison: at or above THR_HI, at or below THR_LO (not above THR_HI), else as it was. Where V equals both
thresholds, both rows of R115 apply: the model takes 1 (DESIGN CHOICE, notes/assumptions/91.md). -/
def compareThr (hi lo v : Nat) (r : Bool) : Bool := if hi ≤ v then true else if v ≤ min lo hi then false else r

/-- The filter takes a sample. `direct`: without filtering (R133). -/
def GldCell.take (x : GldCell) (filt param hi lo v : Nat) (direct : Bool) : GldCell :=
  let r := compareThr hi lo v x.r
  let run := if r = x.r ∧ ¬ x.first then min 15 (x.run + 1) else 1
  let k3 := if param < 3 then 3 else if param % 2 = 0 then min 15 (param + 1) else param
  let hist := (r :: x.hist).take k3
  let ones := (hist.filter id).length
  let sh := min 8 (max 1 param)
  let y := if x.first ∨ direct then 64 * v else iirStep 64 sh x.y v
  let out := if direct then r else match filt with
    | 0 => if max 1 param ≤ run then r else x.out
    | 1 => if hist.length < 2 * ones then true else if 2 * ones < hist.length then false else x.out
    | 2 => if hi * 64 ≤ y then true else if y ≤ min lo hi * 64 then false else x.out
    | _ => r
  { r := r, run := run, hist := hist, out := out, y := y, first := false }

/-- Cell `c` takes the value `v0`; `k` learns whether its state changed. -/
def cellTakes (c v0 : Nat) (direct : Bool) (k : Bool → Upd) : Upd := .read fun s =>
  let src := s.get (GLD_CELL_SRC_SRC c)
  let v := if 57 ≤ src then 0
    else if s.pwr ≤ 1 ∧ src < 48 ∧ s.flag (SNI_IN_CFG_EN src) ∧ s.flag (BLK_STAT_ENABLED 20) then s.get (SNI_IN_RAW_LAST src) / 4
    else v0
  let f := s.get (GLD_CELL_FILT_FILT c)
  let x := (s.gldCell c).take f (s.get (GLD_CELL_FILT_FPARAM c)) (s.get (GLD_CELL_THR_THR_HI c)) (s.get (GLD_CELL_THR_THR_LO c)) v direct
  let st := x.out != s.flag (GLD_CELL_THR_INVERT c)
  let old := s.bitAt GLD_CELL_STATE c
  seqs [
    updGldCell c fun _ => x,
    setReg (GLD_CELL_VAL c) (st.toNat * 2 ^ 31 + (if f = 2 then x.y / 64 else v) * 2 ^ 16 + v),
    putBit GLD_CELL_STATE c st, putBit (CELL_STAT 22 c) 8 st, k (st != old)]

/-- GLADE_SAMPLE_DUE (R113, R115): cell `c` takes the value `v`; `late`: it could not start within its tick (R114). -/
def gladeSampleDue (c : Fin 32) (v : Fin 1024) (late fail : Bool) : Upd := .read fun s =>
  whenU (s.cellOn 22 c && s.pwr != 4) (.seq
    (.seq (elementOk 22 c) (whenU late (.seq (count GLD_OVERRUN) (raise 22 3))))
    (cellTakes c v false fun ch => whenU ch (evaluate (2 ^ c.val) false none fail)))

/-- GLADE_CONVERSION_TIMEOUT (R117). -/
def gladeConversionTimeout (c : Fin 32) : Upd := .read fun s => whenU (s.cellOn 22 c && s.pwr != 4) (report 22 (some c) TR)

/-- A cell is enabled: its filter starts anew. A retired cell reads state 0 (R117). -/
def gladeCellStart (c : Nat) : Upd := updGldCell c fun _ => {}
def gladeCellRetired (c : Nat) : Upd := seqs [
  clrBit GLD_CELL_STATE c, set (GLD_CELL_VAL_STATE c) 0, clrBit (CELL_STAT 22 c) 8]

/-- GLADE_SEQ_WDOG (R110). -/
def gladeSeqWdog : Upd := .read fun s => whenU (s.flag GLD_SEQ_STAT_RUN) (seqs [inc GLD_SEQ_STAT_WDOG_CNT, raise 22 5, report 22 none TR])

/-! ## Deep Standby wakes (R99, R133, R134) -/

/-- An enabled comparator wakes Deep Standby: Glade starts, restores its state, samples each enabled cell once (`samples`) and
evaluates with the comparator as an event that arrived. -/
def deepWake (src : Nat) (samples : List (Fin 1024)) (fail : Bool) : Upd := seqs [
  gladeBoot,
  set MSU_PWR_STATE_STATE 3, set MSU_PWR_STATE_REQ 3,
  gladeRestore fun ok =>
    if ok then seqs [
      .read fun s => forEach ((List.range 32).filter (s.cellOn 22)) fun c =>
        cellTakes c ((samples[c]?).getD 0) true fun _ => .skip,
      updGld fun x => { x with events := 2 ^ src },
      evaluate (2 ^ 32 - 1) true none fail]
    else .seq (recordWake 3 src 0 0xFF none) (fullWake src 0 fail)]

/-! ## False wakes (R129, R130) -/

/-- VALIDATION_WINDOW_EXPIRY: the oldest open window ends. -/
def validationWindowExpiry : Upd := .read fun s => match s.b.gld.wins with
  | [] => .skip
  | (src, _) :: t =>
    let th := s.get GLD_CFG_FW_TH
    let n := min 255 (s.fwCount src + 1)
    .seq (updGld fun x => { x with wins := t }) (whenU (th != 0) (.seq (setFw src n)
      (whenU (decide (th ≤ n)) (.seq (setFwDis src true) (raise 22 1)))))

/-- A write of GLD_WAKE_ACK, whatever its ACK bit (R129, R136). -/
def wakeAckHook : Upd := gladeValidate fun _ v => v == 3

/-- A write of GLD_WAKE_REASON with VALID = 1. -/
def wakeReasonHook (v : Nat) : Upd := whenU (bit v 31) (setReg GLD_WAKE_REASON 0)

/-- Writes of 1 to the false-wake disable bits. -/
def fwDisHook (base v : Nat) : Upd := forN 32 fun i => whenU (bit v i) (setFwDis (base + i) false)

/-- What a write of GLD_DT_ACT stores: codes above 0xBF become 0xBF. -/
def dtActStored (v : Nat) : Nat := if 0xBF < v % 256 then v - v % 256 + 0xBF else v

/-- WAKE_HOLD ends with the validation window of its source (R543). -/
def wakeHolds : Upd := .read fun s => forN 8 fun c =>
  whenU (s.flag (NMC_CH_STAT_WAKE_HOLD c) && !s.b.gld.wins.any (·.1 == 10 + c)) (.seq (set (NMC_CH_STAT_WAKE_HOLD c) 0) (nmLocalClear c))

end Sys2Proof.Machine
end

