-- ==== Sys2Proof/Machine/Psm.lean ====
section
/-!
DEFINITION. The supply manager: supply thresholds, lost connections, the power states and the transitions between them, the gate-locks,
the wake comparators (04_power_states.md), and the wakes of the buses (R547, R552).
-/
namespace Sys2Proof.Machine

/-! ## Power dice (R100, R718) -/

/-- The stud of a die is above BAT_OK. -/
def State.studOk (s : State) (d : Nat) : Bool := if d < 2 then s.flag PSM_STAT_BAT1_OK else s.flag PSM_STAT_BAT2_OK

/-- An enabled die whose stud is up and whose oscillator runs releases its gate-locks. -/
def dieStart (d : Nat) : Upd := .read fun s => whenU (s.bitAt PSM_DIE_EN d && s.studOk d && !(s.die d).on && (s.die d).osc && decide (s.pwr ≤ 1))
  (.seq (dieUp d []) showLocks)

/-- A write of PSM_DIE_EN. -/
def dieEnHook : Upd := forN 4 dieStart

/-- DIE_CLOCK_LOSS (R100): the oscillator stops, and the gate-locks engage. The spec names no event that starts it again: it runs when the
die is next powered afresh (DEDUCED, notes/assumptions/93.md). -/
def dieClockLoss (d : Fin 4) : Upd := .read fun s => whenU (s.die d).on (seqs [dieDown d, updDie d fun x => { x with osc := false }, showLocks])

/-! ## Thresholds (R86 to R90) -/

/-- SURGE_ENTER and SURGE_EXIT. -/
def surgeEnter : Upd := .read fun s => whenU (!s.flag PSM_STAT_SURGE)
  (seqs [set PSM_STAT_SURGE 1, inc PSM_EVT_CNT_SURGE, raise 21 6])
def surgeExit : Upd := set PSM_STAT_SURGE 0

/-- OV_LONG (R88, R91): SURGE stayed set for 400 ms. -/
def ovLong : Upd := .read fun s => whenU (s.flag PSM_STAT_SURGE) (seqs [
  forN 4 fun d => .seq (updDie d fun x => { x with ovLong := true }) (dieClampOff d),
  raise 21 7, report 21 none PM])

/-- OV_LONG_RELEASE (R88). -/
def ovLongRelease : Upd := .read fun s => whenU (!s.flag PSM_STAT_SURGE)
  (forN 4 fun d => .seq (updDie d fun x => { x with ovLong := false }) (dieGateTry d))

/-- LOWV_ENTER (R87): Canopy is clock-stopped while PSM_STAT.LOWV = 1, the links of the U, X and G ports go down. -/
def lowvEnter : Upd := .read fun s => whenU (!s.flag PSM_STAT_LOWV)
  (seqs [set PSM_STAT_LOWV 1, inc PSM_EVT_CNT_LOWV, raise 21 4, forN 18 linkDown])
def lowvExit : Upd := .read fun s => whenU (s.flag PSM_STAT_LOWV) (.seq (set PSM_STAT_LOWV 0) (raise 21 5))

/-- BROWNOUT (R89, R99): from Run and Reduced a module reset that lasts until V_LOGIC is back; in Suspend and Watch only the
channels that Glade drives turn off (R125). -/
def brownout : Upd := .read fun s => whenU (!s.b.psm.brown) (seqs [
  updPsm fun x => { x with brown := true },
  forN 4 fun d => .seq (updDie d fun x => { x with brown := true }) (dieClampOff d),
  whenU (decide (s.pwr ≤ 1)) (.seq (inc PSM_EVT_CNT_BROWNOUT) (askReset 1))])

/-- BROWNOUT_RECOVERY (R89): V_LOGIC is above 6.5 V again. -/
def brownoutRecovery : Upd := .read fun s => whenU s.b.psm.brown (seqs [
  updPsm fun x => { x with brown := false },
  forN 4 fun d => updDie d fun x => { x with brown := false }])

/-- DRAM reads as never written after its supply was lost. -/
def dramLost : Upd := .seq (.act (.memDrop isDram)) (updMem fun m => { m with
  lineKey := m.lineKey.filter fun e => !isDram (64 * e.1)
  poison := m.poison.filter fun l => !isDram (64 * l) })

/-- RETENTION_LOSS (R89, R111): in Suspend or Watch every retained state is discarded. -/
def retentionLoss : Upd := .read fun s => whenU s.gladeRules (seqs [
  updPsm fun x => { x with retLost := true }, inc PSM_EVT_CNT_RET_LOST,
  dramLost, gladeLost,
  forN 4 fun d => .read fun s => whenU (s.die d).on (dieDown d), showLocks, set PSM_STAT_P_SERVICE 0])

/-! ## Lost connections (R91) -/

/-- KL30_LOST and KL30_RESTORED of input `i`. -/
def kl30Lost (i : Fin 2) : Upd := .read fun s =>
  let f : Fld := if i.val = 0 then PSM_STAT_KL30_1_OK else PSM_STAT_KL30_2_OK
  let o : Fld := if i.val = 0 then PSM_STAT_KL30_2_OK else PSM_STAT_KL30_1_OK
  whenU (s.flag f) (.seq (set f 0) (whenU (s.flag o) (.seq (raise 21 i) (report 21 none CE))))
def kl30Restored (i : Fin 2) : Upd := set (if i.val = 0 then PSM_STAT_KL30_1_OK else PSM_STAT_KL30_2_OK) 1

/-- BAT_LOST of stud `i`: its two dice hold their channels off. -/
def batLost (i : Fin 2) : Upd := seqs [
  set (if i.val = 0 then PSM_STAT_BAT1_OK else PSM_STAT_BAT2_OK) 0,
  forN 2 fun j => let d := 2 * i.val + j; seqs [updDie d fun x => { x with batLow := true }, dieClampOff d, testsAbandon d],
  showLocks, raise 21 (2 + i.val), report 21 none TR]

/-- BAT_RESTORED of stud `i`; channels of designated slots return by DLOAD_RETURN. -/
def batRestored (i : Fin 2) : Upd := seqs [
  set (if i.val = 0 then PSM_STAT_BAT1_OK else PSM_STAT_BAT2_OK) 1,
  forN 2 fun j =>
    let d := 2 * i.val + j
    seqs [updDie d fun x => { x with batLow := false }, showLocks, dieStart d,
      .read fun s => forEach (s.loads.filter fun l => l / 16 == d && (s.chan l).nextSrc != 3) gateTry]]

/-- GND_LOSS (R91, R99, R302). -/
def gndLoss : Upd := .read fun s => whenU (s.flag PSM_STAT_GND_OK) (seqs [
  set PSM_STAT_GND_OK 0, raise 21 8,
  forN 4 fun d => .seq (updDie d fun x => { x with gnd := true, down := false }) (dieClampOff d),
  whenU (s.b.psm.trans.isSome && decide (2 ≤ s.b.psm.trans.getD 0)) (seqs [
    updPsm fun x => { x with trans := none, late := [], latched := 0 }, updGld fun x => { x with held := [] },
    set PSM_TRANS_STAT_PHASE 0, set MSU_PWR_STATE_REQ s.pwr, set PSM_SLEEP_CONSENT_SAFE_OK 0]),
  report 21 none FT, dueReaction ⟨21, none, 6, FT, 16 * 21 + FT, false⟩])

/-! ## Transitions (R95 to R98) -/

/-- A hart starts (R95, R213). -/
def hartGo (h : Nat) : Upd := .seq (clrBit CNP_HART_STAT (h + CNP_HART_STAT_HELD.lo)) (setBit CNP_HART_STAT (h + CNP_HART_STAT_RUNNING.lo))

/-- The module is in Run: the harts whose start was held start (R95). -/
def heldHartsGo : Upd := .read fun s => forN 12 fun h => whenU (s.bitAt CNP_HART_STAT (h + CNP_HART_STAT_HELD.lo)) (hartGo h)

/-- TRANSITION_DONE (R96): Run and Reduced; held harts start in Run. -/
def transitionDone : Upd := .read fun s => match s.b.psm.trans with
  | some t => whenU (decide (t ≤ 1)) (seqs [
      updPsm fun x => { x with trans := none },
      set MSU_PWR_STATE_STATE t, set MSU_PWR_STATE_REQ t, set PSM_SLEEP_CONSENT_SAFE_OK 0, raise 21 9,
      if t = 1 then forN 6 linkDown
      else heldHartsGo])
  | none => .skip

/-- Every load that Glade does not drive is off. -/
def State.allLoadsOff (s : State) : Bool := s.loads.all fun l => (s.chan l).out == .off || s.get (LSW_CH_STATUS0_CMD_SRC l) == 3

/-- Work at step 2 of a power-down that other blocks do (R688, R689): bound instances are reset and removed, a container being
received is discarded. -/
def powerDownWork : Upd := .read fun s => whenU (s.pdPhase == 1) (.seq
  (forN 256 fun n => .read fun s => whenU (s.instKind n != 0 && !s.b.iom.removing.contains n)
    (.seq (updIom fun x => { x with removing := n :: x.removing }) (instBegin n)))
  (whenU (s.boot.state == 1) discard))

/-- TRANSITION_LOADS_OFF (R97): the last channel is off, then (`commit`) the point of no return, where every transceiver is
commanded to sleep and every NM channel is in state 0 (R551). -/
def transitionLoadsOff (commit : Bool) : Upd := .read fun s =>
  if ¬ commit then whenU (s.pdPhase == 1 && s.allLoadsOff) (set PSM_TRANS_STAT_PHASE 2)
  else whenU (s.pdPhase == 2) (seqs [
    set PSM_TRANS_STAT_PHASE 3,
    forN 36 fun c => .seq (whenU (s.get (NMC_CH_STAT_STATE c) != 7) (.seq (set (NMC_CH_STAT_STATE c) 0) (sleepBit c true)))
      (whenU (decide (c < 16) || s.b.psm.trans == some 2) (trxSleep c)),
    forN 4 linAsleep])

/-- SUSPEND_MAX_EXPIRY (R96). -/
def suspendMaxExpiry : Upd := .read fun s => whenU (s.pwr == 2 && s.flag PSM_CFG_SUSPEND_MAX)
  (seqs [dramLost, sleepEntered 3, set FLK_DEV_VALID 0, set FLK_DEV_DEVNUM 0])

/-! ## Wakes (R97 to R99, R101, R547, R552) -/

/-- A source of R97 other than Glade's cells: cancels or meets a power-down; resumes from Suspend, whether Glade has disabled it for false
wakes or not (DESIGN CHOICE, notes/assumptions/88.md), and is an event of the decision table there too (R118); goes through the table in
Watch. -/
def wakeSource (src : Nat) (id : Option Nat) (fail : Bool) : Upd := .read fun s =>
  if s.pdPhase ≠ 0 then wakeDuring src id
  else match s.pwr with
  | 2 => seqs [recordWake 1 src 0 (0xC0 + src) id, fullWake src (directValidate src) fail, gladeEvent src id fail]
  | 3 => whenU (src != 22) (gladeEvent src id fail)
  | _ => .skip

/-- WAKE_COMPARATOR_EVENT (R101): input `i` (0 to 7 WAKE, 8 IGN, 9 FL_WAKE) rises through its active level, or falls back.
`samples` are what Glade's cells sample at the first evaluation after Deep Standby (R133). -/
def wakeComparatorEvent (i : Fin 10) (rise : Bool) (samples : List (Fin 1024)) (fail : Bool) : Upd := .read fun s =>
  let on := s.bitAt PSM_DS_WAKE_EN i && !s.bitAt PSM_DS_MASKED i
  if ¬ rise then updPsm fun x => { x with levels := x.levels &&& (1023 - 2 ^ i.val) }
  else .seq (updPsm fun x => { x with levels := x.levels ||| 2 ^ i.val }) (
    if s.b.psm.trans = some 4 ∧ s.pdPhase ≠ 0 then
      whenU (s.bitAt PSM_DS_WAKE_EN i) (if s.pdPhase = 3 then updPsm fun x => { x with latched := x.latched ||| 2 ^ i.val } else cancelTransition)
    else match s.pwr with
    | 4 => whenU on (deepWake i samples fail)
    | 2 => wakeSource i none fail
    | 3 => wakeSource i none fail
    | _ => if s.pdPhase ≠ 0 then wakeSource i none fail else whenU (!s.b.psm.por) (gladeEvent i none fail))

/-- DS_MASK_REARM (R99). -/
def dsMaskRearm (i : Fin 10) : Upd := .seq (clrBit PSM_DS_MASKED i) (updPsm fun x => { x with levels := x.levels &&& (1023 - 2 ^ i.val) })

/-- A frame is a wake-up frame under channel `c`'s NMC_SWK settings (R547). -/
def State.wakeFrame (s : State) (c : Nat) (f : CanFrame) (data : List Byte) : Bool :=
  let m := s.get (NMC_SWK_IDM_MASK c)
  let dm (k : Nat) : Nat := bits (if k < 4 then s.reg (NMC_SWK_DM_LO c) else s.reg (NMC_SWK_DM_HI c)) (8 * (k % 4) + 7) (8 * (k % 4))
  let d := fit (frameLen f.fmt f.dlc f.rmt) data
  f.fmt.val == 0 && f.ext == s.flag (NMC_SWK_ID_XTD c) && (f.id.val &&& m) == (s.get (NMC_SWK_ID_ID c) &&& m)
    && (!s.flag (NMC_SWK_CFG_DATA_EN c) || (f.dlc.val == s.get (NMC_SWK_CFG_DLC c)
      && (f.dlc.val == 0 || (List.range 8).any fun k => ((d[k]?).getD 0).toNat &&& dm k != 0)))

/-- The frame error counter after what the transceiver saw; FD frames count as errors unless they are ignored (R547). -/
def State.swkCount (s : State) (c : Nat) (e : SwkEvent) : Nat :=
  let n := s.get (NMC_SWK_STAT_ERR_CNT c)
  match e with
  | .pattern => n
  | .badFrame => min 32 (n + 1)
  | .frame f => if f.fmt.val = 0 then n - 1 else if f.fmt.val = 1 ∧ s.flag (NMC_SWK_CFG_FD_PASSIVE c) then n else min 32 (n + 1)

/-- What the transceiver saw wakes it: MODE 1 the pattern, MODE 2 a wake-up frame, or the error counter at 32 (R547). -/
def State.swkWakes (s : State) (c : Nat) (e : SwkEvent) (data : List Byte) : Bool :=
  if s.get (NMC_SWK_CFG_MODE c) = 1 then e == .pattern
  else (s.flag (NMC_SWK_CFG_ERR_WAKE c) && s.swkCount c e == 32) || (match e with | .frame f => s.wakeFrame c f data | _ => false)

/-- SELECTIVE_WAKE (R547): what the transceiver of CAN channel `c` sees while it sleeps armed, or in a power-down while it would be a
wake (R552); `data` is what a frame carries. -/
def selectiveWake (c : Fin 8) (e : SwkEvent) (data : List Byte) (fail : Bool) : Upd := .read fun s =>
  let asleep := s.flag (NMC_CH_STAT_TRX_ASLEEP c) && s.flag (NMC_SWK_STAT_ARMED c) && decide (s.pwr ≤ 1)
  let id := match e with | .frame f => some (f.ext.toNat * 2 ^ 31 + f.id.val) | _ => none
  whenU (s.flag (NMC_SWK_CFG_MODE c) && (asleep || decide (2 ≤ s.pwr) || s.pdPhase != 0)) (.seq
    (whenU (s.get (NMC_SWK_CFG_MODE c) != 1) (set (NMC_SWK_STAT_ERR_CNT c) (s.swkCount c e)))
    (whenU (s.swkWakes c e data) (seqs [
      set (NMC_SWK_STAT_WOKE c) 1, set (NMC_SWK_STAT_ARMED c) 0,
      if s.pwr ≤ 1 ∧ s.pdPhase = 0 then trxWakes c (id.getD 0) false else wakeSource (10 + c.val) id fail])))

/-- The sleep handshake of a T1 port completed: its PHY sleeps and its link is down (R546). -/
def t1Asleep (p : Nat) : Upd := seqs [
  set (ETP_T1_SLEEP_STATE p) 2, set (NMC_CH_STAT_TRX_ASLEEP (16 + p)) 1, .read fun s => whenU (s.flag (ETP_PORT_STAT_LINK_UP p)) (linkDown p),
  raiseCell 7 p 17]

/-- T1_PARTNER_SLEEP_REQ (R546): accepted where SLEEP_ACCEPT says so, and as the partner's part of a handshake this port began
(notes/assumptions/110.md). -/
def t1PartnerSleepReq (p : Fin 18) : Upd := .read fun s =>
  whenU (s.flag (ETP_T1_SLEEP_TC10_EN p) && decide (s.pwr ≤ 1) && s.get (ETP_T1_SLEEP_STATE p) != 2) (.seq (raiseCell 7 p 16)
    (whenU (s.flag (ETP_T1_SLEEP_SLEEP_ACCEPT p) || s.get (ETP_T1_SLEEP_STATE p) == 1) (t1Asleep p)))

/-- LIN_WAKE_PULSE (R414): a wake pulse on channel `n`; LIN0 to LIN3 wake the module. -/
def linWakePulse (n : Fin 12) (fail : Bool) : Upd := .read fun s =>
  .seq (linWakeRx n) (whenU (decide (n.val < 4) && (s.pdPhase != 0 || decide (2 ≤ s.pwr))) (wakeSource (18 + n.val) none fail))

/-- T1_WAKE_SIGNALLING (R97): sleep/wake signalling on port `p`. -/
def t1WakeSignalling (p : Fin 18) (fail : Bool) : Upd := .read fun s =>
  if s.pdPhase ≠ 0 ∨ s.pwr = 2 then wakeSource 22 none fail
  else whenU (decide (s.pwr ≤ 1)) (trxWake ⟨16 + p.val, by omega⟩ none false)

/-- FL_WAKE_DRIVE_END (R553). -/
def flWakeDriveEnd : Upd := updPsm fun x => { x with flDrive := false }

/-- The always-on copy of FLW_OUT and of whether CHAIN_MODE is 0 (R553). -/
def flwCopy : Upd := .read fun s => updPsm fun x => { x with flwOut := s.flag NMC_CFG_FLW_OUT, noChain := s.chainMode == 0 }

/-! ## Clearing the loop count (R141) -/

/-- LOOP_CNT_CLEAR. -/
def loopCntClear : Upd := .read fun s => whenU (s.get MSU_BOOT_STAT_PHASE == 3 && decide (s.pwr ≤ 1)) (set MSU_RST_CAUSE_LOOP_CNT 0)

end Sys2Proof.Machine
end

