-- ==== Sys2Proof/Machine/Cnp.lean ====
section
/-!
DEFINITION. Canopy's clusters and harts and the memory block: page retirement, the patrol scrub, re-keys (08_canopy_and_memory.md).
-/
namespace Sys2Proof.Machine

/-! ## Harts and clusters (R189 to R197, R213) -/

/-- CNP_HART_PID.VALID of hart `h`: the value selected lies inside the range of its entry (R193). -/
def showHvpid (h : Nat) : Upd := .read fun s =>
  let p := s.get (CNP_HART_PID_PID h)
  let i := 4 * h + 3
  set (CNP_HART_PID_VALID h) (decide (s.get (MSU_PID_CTX_PID_LO i) ≤ p) && decide (p ≤ s.get (MSU_PID_CTX_PID_HI i))).toNat

/-- HVPID_WRITE (R193): hart `h` writes hvpid, or reads it (none), in M-mode (0), HS-mode (1), U-mode (2), VS-mode (3) or VU-mode (4).
Access from VS-mode ends in a virtual-instruction exception, from U-mode and VU-mode in an illegal-instruction exception, which the
completion shows as 100 plus the exception's number. A hart that is stopped or clock-stopped executes nothing (R87, R213). -/
def hvpidWrite (h : Fin 12) (mode : Fin 5) (v : Option (BitVec 64)) : Upd := .read fun s => whenU (!s.ctxIdle (4 * h)) (match mode.val with
  | 3 => updFab fun f => { f with resp := { ok := false, cause := 122 } }
  | 2 => updFab fun f => { f with resp := { ok := false, cause := 102 } }
  | 4 => updFab fun f => { f with resp := { ok := false, cause := 102 } }
  | _ => match v with
    | none => updFab fun f => { f with resp := { data := [s.get (CNP_HART_PID_PID h)] } }
    | some v => seqs [set (CNP_HART_PID_PID h) (v.toNat % 64), showHvpid h, updFab fun f => { f with resp := {} }])

/-- SPEC_BAR (R197): it has no other effect than to order its hart's instructions, which this model runs in order. -/
def specBar (h : Fin 12) : Upd := let _ := h; .skip

/-- CBO_FLUSH (R194): the line is at the point of coherence, where every request of this model is served. -/
def cboFlush (h : Fin 12) (addr : BitVec 64) : Upd := let _ := (h, addr); .skip

/-- A write of CNP_CLU_CLK starts a frequency change. -/
def cluClkHook (k : Nat) : Upd := set (CNP_CLU_CLK_BUSY k) 1

/-- CLOCK_CHANGE_DONE (R189, R214). -/
def clockChangeDone (k : Fin 3) : Upd := .read fun s => whenU (s.flag (CNP_CLU_CLK_BUSY k)) (.seq (set (CNP_CLU_CLK_BUSY k) 0) (raise 0 0))

/-- A hart runs, or its start is held, at the lock or at a write (R95, R213). -/
def hartStart (h : Nat) : Upd := .read fun s => whenU (!s.bitAt CNP_HART_STAT (h + CNP_HART_STAT_RUNNING.lo)) (
  if h ≠ 0 ∧ (s.pwr = 1 ∨ s.b.psm.trans = some 1) then .seq (setBit CNP_HART_STAT (h + CNP_HART_STAT_HELD.lo)) (raise 0 1)
  else hartGo h)

def hartHalt (h : Nat) : Upd := .seq (clrBit CNP_HART_STAT (h + CNP_HART_STAT_RUNNING.lo)) (clrBit CNP_HART_STAT (h + CNP_HART_STAT_HELD.lo))

/-- A write of CNP_HART_EN, whose register read `old`: bits set before the lock take effect there. -/
def hartEnHook (old : Nat) : Upd := .read fun s =>
  let new := s.get CNP_HART_EN_RUN
  forN 12 fun h =>
    if bit new h then whenU (!bit old h && s.locked) (hartStart h) else whenU (bit old h) (hartHalt h)

/-! ## Page retirement (R205, R206) -/

/-- The DRAM page of a line. -/
def pageOf (line : Nat) : Nat := line / 64

/-- The page is mapped to a spare, or its copy is in progress or waits. -/
def State.pageRetired (s : State) (p : Nat) : Bool := s.b.mem.retiring.contains p
  || (List.range (s.get MEM_RETIRE_STAT_SPARE_USED)).any fun i => s.get (MEM_SPARE_MAP_PAGE i) == p

/-- A page reached its threshold. -/
def retirePage (p : Nat) : Upd := .read fun s =>
  if s.pageRetired p then .skip
  else if 256 ≤ s.get MEM_RETIRE_STAT_SPARE_USED + s.b.mem.retiring.length then raise 4 3
  else updMem fun m => { m with retiring := m.retiring ++ [p] }

/-- The index of the table entry whose latest error is the oldest. -/
def oldestPage (t : List (Nat × List Nat)) : Option Nat := match t with
  | [] => none
  | e :: l => some (l.foldl (fun b x => if x.2.headD 0 < b.2.headD 0 then x else b) e).1

/-- A corrected error of a line is recorded for retirement. -/
def recordCe (line : Nat) : Upd := .read fun s =>
  let p := pageOf line
  let win := max 1 (s.get MEM_ECC_CFG_CE_WIN) * 3600000 * msCycles
  let t := s.b.mem.table
  let times := (s.now :: ((t.find? (·.1 == p)).map (·.2)).getD []).filter fun x => decide (s.now < x + win)
  let rest := t.filter (·.1 != p)
  let rest := if rest.length < 64 then rest else match oldestPage rest with
    | some o => rest.filter (·.1 != o)
    | none => rest
  .seq (updMem fun m => { m with table := (p, times) :: rest })
    (whenU (decide (max 1 (s.get MEM_ECC_CFG_CE_TH) ≤ times.length))
      (.seq (updMem fun m => { m with table := m.table.filter (·.1 != p) }) (retirePage p)))

/-- A corrected error (R203): `kind` 1 on a read, 2 by the scrub. Shared SRAM has no page to retire (R210). -/
def memCe (kind pid line : Nat) : Upd := seqs [
  memError kind pid line, count MEM_CE_CNT, raise 4 0, report 4 none CE, whenU (isDram (64 * line)) (recordCe line)]

/-- An uncorrectable error (R203): `kind` 3 on a read, 4 by the scrub: the line takes the poison mark, its page is retired. -/
def memUeNew (kind pid line : Nat) : Upd := seqs [
  memUe kind pid line,
  updMem fun m => { m with poison := if m.poison.contains line then m.poison else line :: m.poison },
  whenU (isDram (64 * line)) (retirePage (pageOf line))]

/-! ## The patrol scrub (R204) -/

/-- The lines of the data range and the spare pool. -/
def scrubLines : Nat := 15872 * 16384

/-- The line that a line of the spare pool holds: that of the page mapped to the spare, else its own (R205). -/
def State.spareLine (s : State) (line : Nat) : Nat :=
  let i := (line - 0x13DFF00000 / 64) / 64
  if 0x13DFF00000 / 64 ≤ line ∧ i < s.get MEM_RETIRE_STAT_SPARE_USED then s.get (MEM_SPARE_MAP_PAGE i) * 64 + line % 64 else line

/-- SCRUB_STEP: the next line, which has no error, a single-bit error or an uncorrectable one. -/
def scrubStep (ecc : Fin 3) : Upd := .read fun s => whenU (s.flag MEM_ECC_CFG_SCRUB_EN && s.flag (BLK_CTRL_EN 4) && decide (s.pwr ≤ 1)) (
  let line := s.spareLine (0x1000000000 / 64 + s.b.mem.scrub)
  let last := scrubLines ≤ s.b.mem.scrub + 1
  seqs [
    set MEM_SCRUB_STAT_RUNNING 1,
    if s.b.mem.poison.contains line then memUe 4 0 line
    else match ecc.val with | 0 => .skip | 1 => memCe 2 0 line | _ => memUeNew 4 0 line,
    updMem fun m => { m with scrub := if last then 0 else m.scrub + 1 },
    whenU last (seqs [incWrap MEM_SCRUB_STAT_PASSES, set MEM_SCRUB_STAT_RUNNING 0, raise 4 4])])

end Sys2Proof.Machine
end

