-- ==== Sys2Proof/Machine/Iw.lean ====
section
/-!
DEFINITION. The Ironwood triplets (09_ironwood_triplets.md, R216 to R239): votes, resynchronisation, retirement, fatal errors,
self-tests, restarts, interrupts and timers; and a debugger's halts (R691). Triplet x is unit 1 + x.
-/
namespace Sys2Proof.Machine

def State.iw (s : State) (x : Nat) : Triplet := mapGet {} s.b.iw x
def updIw (x : Nat) (f : Triplet → Triplet) : Upd := upd fun b => { b with iw := mapPut {} b.iw x (f (mapGet {} b.iw x)) }
def updPar (f : Par → Par) : Upd := upd fun b => { b with par := f b.par }

def iwLevel (x k : Nat) : Fld := match k with | 0 => IW_CORE_FLT_LEVEL0 x | 1 => IW_CORE_FLT_LEVEL1 x | _ => IW_CORE_FLT_LEVEL2 x
def iwRearms (x k : Nat) : Fld := match k with | 0 => IW_CORE_FLT_REARMS0 x | 1 => IW_CORE_FLT_REARMS1 x | _ => IW_CORE_FLT_REARMS2 x
def iwResyncs (x k : Nat) : Fld := match k with | 0 => IW_RESYNC_CNT_CORE0 x | 1 => IW_RESYNC_CNT_CORE1 x | _ => IW_RESYNC_CNT_CORE2 x

/-- Bit `k` of a three-bit field to `b`. -/
def putCore (f : Fld) (k : Nat) (b : Bool) : Upd := .read fun s => set f (withBits (s.get f) k k b.toNat)

def State.iwSplit (s : State) (x : Nat) : Bool := s.flag (IW_STAT_SPLIT x)
def State.iwRetired (s : State) (x k : Nat) : Bool := bit (s.get (IW_STAT_RETIRED x)) k
def State.iwRuns (s : State) (x k : Nat) : Bool := bit (s.get (IW_STAT_RUNNING x)) k
def countBits3 (m : Nat) : Nat := m % 2 + m / 2 % 2 + m / 4 % 2

/-- The triplet executes: running, or resynchronising a core. -/
def State.iwRunning (s : State) (x : Nat) : Bool := s.get (IW_STAT_STATE x) == 2 || s.get (IW_STAT_STATE x) == 3

def parSynced (x : Nat) : Fld := if x = 0 then PAR_HEALTH_A_SYNCED else PAR_HEALTH_B_SYNCED
def parMarchFail (x : Nat) : Fld := if x = 0 then PAR_HEALTH_A_MARCH_FAIL else PAR_HEALTH_B_MARCH_FAIL

/-- A triplet halts or is restarted: SYNCED clears, a self-test unit in it is cut short (R247, R252). -/
def parLeaves (x : Nat) : Upd := .read fun s => seqs [
  set (parSynced x) 0,
  whenU (s.b.par.unit == some x) (updPar fun p => { p with unit := none }),
  updIw x fun t => { t with slice := none }]

/-- Channels of the DMA engine that run end in error (R237). -/
def iwDmaStop (x : Nat) : Upd := .read fun s =>
  updIw x fun t => { t with ending := (List.range 4).filter fun c => s.flag (IW_DMA_STAT_BUSY x c) }

/-- A fatal error (R227). -/
def iwFatal (x cause : Nat) : Upd := seqs [
  set (IW_STAT_STATE x) 4, set (IW_STAT_RUNNING x) 0,
  set (IW_FATAL_CAUSE_VALID x) 1, set (IW_FATAL_CAUSE_CAUSE x) cause,
  updIw x fun t => { t with resync := none, stopped := none },
  iwDmaStop x, parLeaves x, raise (1 + x) 2, report (1 + x) none FT]

/-- A core is retired (R225), from a self-test slice too. A split triplet has no detection-only pair. -/
def iwRetire (x k : Nat) : Upd := seqs [
  putCore (IW_STAT_RETIRED x) k true, putCore (IW_CORE_CTRL_RETIRE x) k true, putCore (IW_STAT_RUNNING x) k false,
  .read fun s => set (IW_STAT_DMR x) (!s.iwSplit x).toNat,
  updIw x fun t => { t with shaken := true, slice := t.slice.filter (· != k) },
  raise (1 + x) 1, report (1 + x) none PM]

def State.iwPermTh (s : State) (x : Nat) : Nat := max 1 (s.get (IW_FLT_CFG_PERM_TH x))

/-- Core `k` dissents while the other two agree (R223 to R225). -/
def iwDissent (x k : Nat) : Upd := .read fun s => .seq (inc (iwLevel x k)) (
  if s.iwPermTh x ≤ min 255 (s.get (iwLevel x k) + 1) then iwRetire x k
  else seqs [set (IW_STAT_STATE x) 3, putCore (IW_STAT_RUNNING x) k false,
    updIw x fun t => { t with resync := some (k, false), shaken := true }])

/-- IW_VOTE (R223): `v` and `c` say what the voter and the comparator see: 0 all copies agree, 1 to 3 core 0 to 2 differs from
the other two, 4 all three differ (in a pair, anything but 0 is a difference). `part` is a failing part of R222: 1 voter rails,
2 delay lines, 3 comparator rails, 4 the controllers' copies. `tcm` is an error of the TCM word that the cycle reads, and
whether it is uncorrectable (every core of the cycle then gets an access fault, R218). A pair compares while a third core is re-armed (R226). -/
def iwVote (x : Fin 2) (v c part : Fin 5) (tcm : Option (Fin 131072 × Bool)) : Upd := .read fun s =>
  whenU (s.iwRunning x) (seqs [
    match tcm with
    | some (w, ue) => .seq (tcmError x 0 w.val ue) (whenU ue (updFab fun f => { f with resp := { ok := false } }))
    | none => .skip,
    if part.val ≠ 0 then iwFatal x ([0, 3, 5, 6, 8].getD part.val 0)
    else if s.iwSplit x ∨ (v.val = 0 ∧ c.val = 0) then .skip
    else if s.flag (IW_STAT_DMR x) then iwFatal x 2
    else if s.get (IW_STAT_STATE x) = 3 ∨ (s.iw x).slice.isSome ∨ v.val = 4 ∨ c.val = 4 ∨ (v.val ≠ 0 ∧ c.val ≠ 0 ∧ v ≠ c) then
      iwFatal x 1
    else iwDissent x (max v.val c.val - 1)])

/-- RESYNC_DONE (R224, R226): the state copy is complete, or its two sources differed. A debugger's halt holds it. -/
def resyncDone (x : Fin 2) (ok : Bool) : Upd := .read fun s => whenU (s.get (IW_STAT_STATE x) == 3) (match (s.iw x).resync with
  | none => .skip
  | some (k, rearm) =>
    if ¬ ok then iwFatal x 1
    else seqs [
      updIw x fun t => { t with resync := none },
      set (IW_STAT_STATE x) 2, putCore (IW_STAT_RUNNING x) k true, raise (1 + x) 0,
      if rearm then seqs [putCore (IW_STAT_RETIRED x) k false, putCore (IW_CORE_CTRL_RETIRE x) k false,
          .read fun s => set (IW_STAT_DMR x) (s.flag (IW_STAT_RETIRED x)).toNat]
      else .seq (inc (iwResyncs x k)) (report (1 + x) none TR)])

/-! ## Commands on cores (R225, R226) -/

def iwDeny (x : Nat) (no : Bool) : Upd := set (IW_CORE_CTRL_CMD_DENIED x) no.toNat

/-- RETIRE of one core; refused where fewer than two cores would run (R226). -/
def iwRetireCmd (x k : Nat) : Upd := .read fun s =>
  if s.iwRetired x k then .skip
  else if countBits3 (withBits (s.get (IW_STAT_RUNNING x)) k k 0) < 2 then iwDeny x true
  else seqs [iwDeny x false,
    whenU ((s.iw x).resync == some (k, false)) (.seq (updIw x fun t => { t with resync := none }) (set (IW_STAT_STATE x) 2)),
    iwRetire x k]

/-- REARM of one core. -/
def iwRearmCmd (x k : Nat) : Upd := .read fun s =>
  if ¬ s.iwRetired x k ∨ s.iwSplit x ∨ s.get (IW_STAT_STATE x) ≠ 2 ∨ 2 ≤ s.get (iwRearms x k) then iwDeny x true
  else seqs [iwDeny x false, set (iwLevel x k) 0, inc (iwRearms x k), set (IW_STAT_STATE x) 3,
    updIw x fun t => { t with resync := some (k, true) }]

/-- A write of IWx_CORE_CTRL by PID 1: `v` as written. -/
def coreCtrlHook (x old v : Nat) : Upd := seqs [
  setReg (IW_CORE_CTRL x) old,
  forN 3 fun k => whenU (bit v k) (iwRetireCmd x k),
  forN 3 fun k => whenU (bit v (4 + k)) (iwRearmCmd x k)]

/-- IW_DECAY_TICK (R225). -/
def iwDecayTick (x : Fin 2) : Upd := .read fun s => whenU (decide (s.pwr ≤ 1)) (forN 3 fun k => dec (iwLevel x k))

/-! ## Self-tests (R229, R231) -/

/-- VOTER_SELFTEST_INJECT (R229): both rails of both checks caught the mismatch, or not. -/
def voterSelftestInject (x : Fin 2) (ok : Bool) : Upd := .read fun s =>
  whenU (s.iwRunning x && !s.iwSplit x) (
    if ¬ ok then iwFatal x 4
    else
      let n := if s.flag (IW_STAT_DMR x) then 2 else 3
      let t := s.iw x
      let whole := decide (78 * n ≤ t.vPos + 1)
      seqs [incWrap (IW_SELFTEST_STAT_INJECTIONS x) 2,
        updIw x fun t => { t with vPos := if whole then 0 else t.vPos + 1, cPos := if 51 * n ≤ t.cPos + 1 then 0 else t.cPos + 1 },
        whenU whole (.seq (incWrap (IW_SELFTEST_STAT_SWEEPS x)) (raise (1 + x) 3))])

/-- STARTUP_SELFTEST_DONE (R231): `fails` names the cores that fail. -/
def startupSelftestDone (x : Fin 2) (fails : Fin 8) : Upd := .read fun s => whenU (s.get (IW_STAT_STATE x) == 1) (
  let f := fails.val
  if s.iwSplit x then
    let new := f &&& (7 - s.get (IW_STAT_RETIRED x))
    let f := f ||| s.get (IW_STAT_RETIRED x)
    if f = 7 then .seq (iwFatal x 7) (report (1 + x) none PM)
    else
      let spare := bit f 2 == false && f != 0
      seqs [set (IW_STAT_STATE x) 2,
        set (IW_STAT_RUNNING x) (if f = 0 ∨ f = 4 then 3 else if spare then 7 - f else 3 &&& (7 - f)),
        whenU spare (set (IW_STAT_SPARE_USED x) 1),
        whenU (new != 0 && new != 4) (report (1 + x) none PM)]
  else
    let left := (List.range 3).filter fun k => !s.iwRetired x k && !bit f k
    seqs [
      forN 3 fun k => whenU (!s.iwRetired x k && bit f k) (iwRetire x k),
      if left.length < 2 then iwFatal x 7
      else .seq (set (IW_STAT_STATE x) 2) (set (IW_STAT_RUNNING x) (left.foldl (fun m k => m + 2 ^ k) 0))])

/-- A triplet leaves reset: at the lock in the configuration latched there (R147, R232). -/
def iwLeaveReset (x : Nat) : Upd := .read fun s =>
  let split := s.flag (if x = 0 then MSU_BOOT_CFG_IW_SPLIT_A else MSU_BOOT_CFG_IW_SPLIT_B)
  seqs [set (IW_STAT_SPLIT x) split.toNat, set (BLK_CAP_OPTIONS (1 + x)) split.toNat,
    set (BLK_CTRL_EN (1 + x)) 1, set (BLK_STAT_ENABLED (1 + x)) 1, set (IW_STAT_STATE x) 1]

/-- The registers that a restart returns to their reset values: not the triplet's state, levels and commands, its block header's
control and status, nor how its DMA channels ended (R231, R237). -/
def iwRestartSet (x a : Nat) : Bool :=
  onPage (1 + x) a && !([BLK_CTRL (1 + x), BLK_STAT (1 + x), BLK_CAP (1 + x), BLK_LOCK (1 + x), IW_STAT x, IW_CORE_FLT x, IW_CORE_CTRL x,
    IW_DMA_STAT x 0, IW_DMA_STAT x 1, IW_DMA_STAT x 2, IW_DMA_STAT x 3].contains a)

/-- A restart (R231, R237): TRIPLET_RESTART, or BLOCK_RESET as a reaction. A triplet that has not left reset, before the lock, does not
start by it (DESIGN CHOICE: R81 states no restart there; notes/assumptions/99.md). -/
def iwRestart (x : Nat) : Upd := .read fun s => whenU (s.get (IW_STAT_STATE x) != 0) (seqs [
  iwDmaStop x, resetRegs (iwRestartSet x), parLeaves x, set (parMarchFail x) 0,
  updIw x fun t => { t with resync := none, claimed := [], timer := [], stopped := none },
  set (IW_STAT_SPARE_USED x) 0, set (IW_STAT_RUNNING x) 0, set (IW_STAT_STATE x) 1])

/-! ## Interrupts and the timer (R233, R234) -/

/-- BLK_IRQ_STAT as it reads: ERR and CELL follow their sources (R73). -/
def State.blkIrqStat (s : State) (k : Nat) : Nat :=
  s.reg (BLK_IRQ_STAT k) % 2 ^ 30 + (if (List.range (unitCells k).1).any (s.cellLine k) then 2 ^ 30 else 0)
    + (if s.reg (BLK_ERR_STAT k) % 16 = 0 then 0 else 2 ^ 31)

/-- The interrupt line of a block or region page. -/
def State.blkLine (s : State) (k : Nat) : Bool := (s.blkIrqStat k &&& s.reg (BLK_IRQ_EN k)) != 0

/-- The wired sources of R200. -/
def State.wiredLine (s : State) (n : Nat) : Bool :=
  let r := (n - 1) / 16
  let b := (n - 1) % 16
  if n = 0 then false
  else if n = 64 then s.reg MSU_FAULT_STAT % 16 != 0
  else if 60 ≤ n then decide (n ≤ 63) && s.blkLine (n - 37)
  else decide (b < [7, 9, 6, 1].getD r 0) && s.blkLine ([0, 7, 16, 22].getD r 0 + b)

/-- Source `n` of a triplet is asserted. -/
def State.iwLine (s : State) (x n : Nat) : Bool :=
  if n ≤ 64 then s.wiredLine n
  else if n ≤ 72 then s.bitAt (BLK_IRQ_STAT 3) (n - 65)
  else if n < 80 then false
  else if n ≤ 83 then s.flag (IW_DMA_CTRL_IRQ_EN x (n - 80)) && s.reg (IW_DMA_STAT x (n - 80)) % 4 != 0
  else decide (n = 84) && (s.bitAt (BLK_IRQ_STAT (1 + x)) 0 || s.bitAt (BLK_IRQ_STAT (1 + x)) 1 || s.bitAt (BLK_IRQ_STAT (1 + x)) 3)

/-- IWx_IRQ_PEND as it reads. -/
def State.iwPend (s : State) (x c j : Nat) : Nat := let _ := c
  (List.range 32).foldl (fun m i => if s.iwLine x (32 * j + i) then m + 2 ^ i else m) 0

/-- The source that a claim returns. -/
def State.iwNext (s : State) (x c : Nat) : Nat := ((List.range 256).find? fun n =>
  s.iwLine x n && s.bitAt (IW_IRQ_EN x c (n / 32)) (n % 32) && !(s.iw x).claimed.contains (256 * c + n)).getD 0

/-- A register set exists: set 1 only in the split configuration (R238). -/
def State.iwSet (s : State) (x c : Nat) : Bool := c == 0 || s.iwSplit x

/-- The machine external interrupt of a register set's cores (R233): a source pends that is enabled and not claimed. -/
def State.iwExternal (s : State) (x c : Nat) : Bool := s.iwNext x c != 0

/-- A read of IWx_IRQ_CLAIM (R233). -/
def claimRead (x c : Nat) (k : Nat → Upd) : Upd := .read fun s =>
  let n := s.iwNext x c
  .seq (whenU (n != 0) (updIw x fun t => { t with claimed := (256 * c + n) :: t.claimed })) (k n)

/-- A write of IWx_IRQ_CLAIM. -/
def claimHook (x c v : Nat) : Upd := .seq (setReg (IW_IRQ_CLAIM x c) 0)
  (updIw x fun t => { t with claimed := t.claimed.filter (· != 256 * c + v % 256) })

def State.timeCmp (s : State) (x c : Nat) : Nat := s.reg (IW_TIMECMP_LO x c) + 2 ^ 32 * s.reg (IW_TIMECMP_HI x c)

/-- MACHINE_TIMER_INTERRUPT (R234): the comparison of a register set. -/
def machineTimerInterrupt (x c : Fin 2) : Upd := .read fun s => whenU (s.iwSet x c) (
  updIw x fun t => { t with timer := if s.timeCmp x c.val ≤ s.devTime then (if t.timer.contains c.val then t.timer else c.val :: t.timer)
                                     else t.timer.filter (· != c.val) })

/-! ## DMA (R235) -/

/-- A write of IWx_DMA_CTRL with GO; an engine in reset or halted starts nothing (R142, R227). -/
def iwDmaHook (x c v : Nat) : Upd := .read fun s => .seq
  (set (IW_DMA_CTRL_GO x c) (s.get (IW_DMA_STAT_BUSY x c)))
  (whenU (bit v 31 && !s.flag (IW_DMA_STAT_BUSY x c) && s.iwDmaRuns x) (.seq (set (IW_DMA_CTRL_GO x c) 1) (set (IW_DMA_STAT_BUSY x c) 1)))

/-! ## Debug (R236, R691) -/

/-- Whether a debugger may halt target `t`: harts 0 to 11 (scope bit 0), cores 12 + 3x + c (scope bit 1, R185); all while debug is open
without a record (R186). -/
def State.debugScope (s : State) (t : Nat) : Bool :=
  s.debugOpen || s.flag VLT_DBG_STAT_UNLOCKED && bit (s.get VLT_DBG_STAT_SCOPE) (if t < 12 then 0 else 1)

/-- DEBUG_HALT. -/
def debugHalt (t : Fin 18) : Upd := .read fun s => whenU (s.debugScope t) (
  let x := (t.val - 12) / 3
  let mark (l : List Nat) := upd fun b => { b with vlt := { b.vlt with halted := l ++ b.vlt.halted.filter fun h => !l.contains h } }
  if t.val < 12 ∨ s.iwSplit x then mark [t.val]
  else whenU (s.iwRunning x) (seqs [mark [12 + 3 * x, 13 + 3 * x, 14 + 3 * x], parLeaves x,
    updIw x fun y => { y with stopped := some (s.get (IW_STAT_STATE x)) }, set (IW_STAT_STATE x) 4]))

/-- A triplet that a debugger halted resumes. -/
def iwResume (x : Nat) : Upd := .read fun s => match (s.iw x).stopped with
  | some st => .seq (updIw x fun y => { y with stopped := none }) (set (IW_STAT_STATE x) st)
  | none => .skip

/-- DEBUG_RESUME. -/
def debugResume (t : Fin 18) : Upd := .read fun s =>
  let x := (t.val - 12) / 3
  let l := if t.val < 12 ∨ s.iwSplit x then [t.val] else [12 + 3 * x, 13 + 3 * x, 14 + 3 * x]
  .seq (upd fun b => { b with vlt := { b.vlt with halted := b.vlt.halted.filter fun h => !l.contains h } })
    (whenU (decide (12 ≤ t.val) && !s.iwSplit x) (iwResume x))

end Sys2Proof.Machine
end

