-- ==== Sys2Proof/Machine/Par.lean ====
section
/-!
DEFINITION. The pair controller (10_pair_and_failover.md, R240 to R258): the snapshot, the compare point, grades, the pair's
states, joins, the standby's self-test and the automatic return. Triplet 0 is A, 1 is B.
-/
namespace Sys2Proof.Machine

def State.side (s : State) (x : Nat) : ParSide := if x = 0 then s.b.par.a else s.b.par.b
def updSide (x : Nat) (f : ParSide → ParSide) : Upd := updPar fun p => if x = 0 then { p with a := f p.a } else { p with b := f p.b }
def parGrade (x : Nat) : Fld := if x = 0 then PAR_HEALTH_A_GRADE else PAR_HEALTH_B_GRADE
def parVecInvalid (x : Nat) : Fld := if x = 0 then PAR_HEALTH_A_VEC_INVALID else PAR_HEALTH_B_VEC_INVALID
def parGoodMs (x : Nat) : Fld := if x = 0 then PAR_HEALTH_A_GOOD_MS else PAR_HEALTH_B_GOOD_MS
def parHword (x : Nat) : Nat := if x = 0 then PAR_HWORD_A else PAR_HWORD_B

/-- The address of a triplet's output vector (R242). -/
def State.vecAddr (s : State) (x : Nat) : Nat := tcmBase x + 256 * s.get PAR_TCM_MAP_OUT

/-- The cycle length that PAR_MODE.CYCLE asks for, in units of 250 µs (R240). -/
def State.parCycle (s : State) : Nat := [1, 2, 4, 4].getD (s.get PAR_MODE_CYCLE) 4
def State.cmpLead (s : State) : Nat := min 100 (max 10 (s.get PAR_CFG_CMP_LEAD))
def State.other (x : Nat) : Nat := 1 - x

/-! ## Comparison (R244) -/

/-- A field of a word in two's complement or unsigned. -/
def fieldInt (signed : Bool) (w v : Nat) : Int := if signed && bit v (w - 1) then (v : Int) - 2 ^ w else v

/-- An enabled tolerance of word `w`: its bits' mask, and whether the two values are within it. -/
def State.tolOf (s : State) (w a b k : Nat) : Option (Nat × Bool) :=
  if s.flag (PAR_TOL_SEL_EN k) ∧ s.get (PAR_TOL_SEL_WORD k) = w then
    let lsb := s.get (PAR_TOL_SEL_LSB k)
    let n := min (s.get (PAR_TOL_SEL_WIDTHM1 k) + 1) (32 - lsb)
    let f (v : Nat) := fieldInt (s.flag (PAR_TOL_SEL_SIGNED k)) n (v / 2 ^ lsb % 2 ^ n)
    some ((2 ^ n - 1) * 2 ^ lsb, decide ((f a - f b).natAbs ≤ s.reg (PAR_TOL_MAX k) % 65536))
  else none

/-- Word `w` of the two vectors matches. -/
def State.wordMatches (s : State) (w a b : Nat) : Bool :=
  let tols := (List.range 16).filterMap (s.tolOf w a b)
  let out := tols.foldl (fun m t => m ||| t.1) 0
  (a ^^^ b) &&& s.reg (PAR_MASK w) &&& (2 ^ 32 - 1 - out) == 0 && tols.all (·.2)

/-- The lowest word of 4 to 323 that differs. -/
def State.firstDiff (s : State) (a b : List Nat) : Option Nat :=
  ((List.range 320).map (· + 4)).find? fun w => !s.wordMatches w (a.getD w 0) (b.getD w 0)

/-! ## The compare point (R243 to R249) -/

def bytesWords : List Byte → List Nat
  | a :: b :: c :: d :: t => leValue [a, b, c, d] :: bytesWords t
  | _ => []

/-- What PAR reads of a triplet's vector (R243). -/
def readVector (x : Nat) : Upd := .read fun s => dmaRead 56 (s.vecAddr x) 1296 fun r => .read fun s =>
  let w := match r with | some l => bytesWords l | none => []
  let seq := s.reg PAR_SEQ
  let full := !w.isEmpty && w.getD 0 0 == seq && w.getD 3 0 == 0x5A5A0000 + seq % 65536
  let valid := full && bit (w.getD 1 0) 31 && s.iwRunning x && !s.iwSplit x
  seqs [
    updSide x fun p => { p with words := w, valid := valid },
    whenU full (setReg (parHword x) (w.getD 1 0)),
    set (parVecInvalid x) (!valid).toNat,
    whenU (!valid && !s.iwSplit x) (.seq (inc PAR_EVT_CNT_DEADLINE) (raise 3 5))]

/-- The grade of a triplet (R246): 0 BAD, 1 DEGRADED, 2 GOOD. -/
def State.gradeOf (s : State) (x : Nat) : Nat :=
  let p := s.side x
  if s.iwSplit x ∨ ¬ s.iwRunning x ∨ s.flag (IW_FATAL_CAUSE_VALID x) ∨ ¬ p.valid ∨ bit (p.words.getD 1 0) 30 ∨ s.flag (parMarchFail x)
  then 0
  else if s.flag (IW_STAT_DMR x) ∨ (s.iw x).shaken ∨ ¬ s.flag (parSynced x) then 1 else 2

/-- Grade a triplet. A grade other than GOOD sets GOOD_MS to 0; one that becomes GOOD counts from this compare point. -/
def gradeSide (x : Nat) : Upd := .read fun s =>
  let g := s.gradeOf x
  seqs [set (parGrade x) g, updIw x fun t => { t with shaken := false },
    whenU (g != 2) (.seq (set (parGoodMs x) 0) (updSide x fun p => { p with goodUs := 0, whole := false }))]

/-- A mismatch (R248, R249): `sb` is the standby, `w` the lowest differing word. -/
def parMismatch (sb w : Nat) : Upd := .read fun s =>
  let lv := min 255 (s.get PAR_MM_STAT_LEVEL + 1)
  seqs [
    updPar fun p => { p with run := 0 },
    updSide sb fun p => { p with goodUs := 0, whole := false }, set (parGoodMs sb) 0,
    inc PAR_EVT_CNT_MISMATCH, raise 3 2, set PAR_MM_STAT_LEVEL lv, set PAR_MM_STAT_WORD w,
    whenU (decide (max 1 (s.get PAR_CFG_MM_TH) ≤ lv)) (.seq (report 3 none FT) (dueReaction ⟨3, none, 6, FT, 51, false⟩))]

/-- COMPARE_POINT. -/
def comparePoint : Upd := .read fun s => whenU (s.locked && decide (s.pwr ≤ 1)) (seqs [
  readVector 0, readVector 1,
  updPar fun p => { p with compared := true, matched := false },
  gradeSide 0, gradeSide 1,
  .read fun s =>
    let a := s.get PAR_ACTIVE_ACTIVE
    let b := 1 - a
    if s.get PAR_ACTIVE_PAIR_STATE ≠ 0 ∨ s.get (parGrade a) = 0 ∨ s.get (parGrade b) = 0 ∨ ¬ s.flag (parSynced b) then
      updPar fun p => { p with run := 0 }
    else match s.firstDiff (s.side a).words (s.side b).words with
      | none => updPar fun p => { p with run := p.run + 1, matched := true }
      | some w => parMismatch b w])

/-- MM_DECAY_TICK (R249). -/
def mmDecayTick : Upd := .read fun s => whenU (s.locked && decide (s.pwr ≤ 1)) (dec PAR_MM_STAT_LEVEL)

/-! ## Applying a vector (R243, R271) -/

def applyVector (w : List Nat) : Upd := .read fun s => whenU (!s.moduleSafe) (.seq
  (forN 64 fun c => whenU (if c < 32 then s.bitAt PAR_LOAD_EN_LO c else s.bitAt PAR_LOAD_EN_HI (c - 32))
    (command (ofGlobal c) (w.getD (4 + c) 0) 1 false))
  (forN 64 fun e => let h := w.getD (68 + 4 * e) 0
    whenU (bit h 31) (sigInternal (h % 2 ^ 31) (w.getD (70 + 4 * e) 0 + 2 ^ 32 * w.getD (71 + 4 * e) 0))))

/-! ## The pair's states (R248, R250 to R253) -/

def setPair (st act : Nat) : Upd := .seq (set PAR_ACTIVE_PAIR_STATE st) (set PAR_ACTIVE_ACTIVE act)

/-- A triplet is synced: GOOD_MS counts from this boundary. -/
def parSync (x : Nat) : Upd := .seq (set (parSynced x) 1) (updSide x fun p => { p with goodUs := 0, whole := true })

/-- The pair enters None (R250, R251): `fault` where no triplet is eligible. -/
def parNone (fault : Bool) : Upd := .read fun s => seqs [
  setPair 3 3, raise 3 6, updPar fun p => { p with run := 0 },
  forEach (s.loads.filter fun l => s.flag (LSW_CH_SAFETY_SAFETY l)) enterSafe,
  whenU fault (report 3 none FT)]

/-- A voted triplet runs. -/
def State.parUp (s : State) (x : Nat) : Bool := !s.iwSplit x && s.iwRunning x

/-- A triplet is BAD at a boundary (R246, R255): graded so at this cycle's compare point, or halted or restarted since. -/
def State.parBad (s : State) (x : Nat) (synced : Bool) : Bool :=
  !s.b.par.compared || s.get (parGrade x) == 0 || !s.parUp x || (synced && !s.flag (parSynced x))

/-- The boundary's decision where BLK_CTRL.EN = 1. -/
def parDecide : Upd := .read fun s =>
  let st := s.get PAR_ACTIVE_PAIR_STATE
  let a := s.get PAR_ACTIVE_ACTIVE
  let b := 1 - a
  let vec (x : Nat) := applyVector (s.side x).words
  if st = 3 then
    let p := s.get PAR_MODE_PRIMARY
    let c := if ¬ s.parBad p false then some p else if ¬ s.parBad (1 - p) false then some (1 - p) else none
    match c with
    | some x => seqs [setPair (1 + x) x, parSync x, vec x]
    | none => .skip
  else if st ≠ 0 then
    if s.parBad a true then parNone true
    else .seq (vec a) (
      whenU (s.b.par.compared && (s.side b).valid && s.parUp b && bit ((s.side b).words.getD 1 0) 29) (.read fun s =>
        let n := min 64 (s.get PAR_STATE_MAP_LEN) * 256
        let o := 256 * s.get PAR_STATE_MAP_OFS
        seqs [whenU (n != 0) (dmaRead 56 (tcmBase a + o) n fun r => match r with
            | some l => dmaWrite 56 (tcmBase b + o) l fun _ => .skip
            | none => .skip),
          parSync b, raise 3 1, setPair 0 a, updPar fun p => { p with run := 0 }]))
  else
    let badA := s.parBad a true
    let badB := s.parBad b true
    if badA ∧ badB then parNone true
    else if badA then seqs [
      inc PAR_EVT_CNT_FAILOVER, raise 3 3, updPar fun p => { p with run := 0 },
      if s.parUp a ∧ s.flag (parSynced a) then setPair 0 b else .seq (setPair (1 + b) b) (raise 3 6),
      vec b]
    else if badB then seqs [setPair (1 + a) a, raise 3 6, updPar fun p => { p with run := 0 }, vec a]
    else
      let due := s.flag PAR_MODE_EN_REVERT && s.get PAR_MODE_PRIMARY == b && s.b.par.matched
        && decide (max 1 (s.get PAR_REVERT_HOLD_MATCH_N) ≤ s.b.par.run)
        && s.get (parGrade b) == 2 && decide (min 60000 (max 100 (s.get PAR_REVERT_HOLD_HOLD_MS)) ≤ s.get (parGoodMs b))
      if due then seqs [setPair 0 b, inc PAR_EVT_CNT_REVERT, raise 3 4, vec b] else vec a

/-- GOOD_MS at a boundary: the cycle that ends, or its part since the compare point where the grade became GOOD there (R246). -/
def countGood (x us : Nat) : Upd := .read fun s =>
  whenU (s.b.par.compared && s.get (parGrade x) == 2) (
    let n := (s.side x).goodUs + (if (s.side x).whole then us else s.cmpLead)
    .seq (updSide x fun p => { p with goodUs := n, whole := true }) (set (parGoodMs x) (min 65535 (n / 1000))))

/-! ## The snapshot (R241) -/

/-- The slots of the signals of PAR_SUB from `i` on. -/
def subSlots : Nat → List Byte → (List Byte → Upd) → Upd
  | 0, acc, k => k acc
  | n + 1, acc, k => .read fun s =>
    let i := 127 - n
    if s.flag (PAR_SUB_EN i) ∧ s.get (PAR_SUB_DEV i) = s.devNum ∧ s.flag (BLK_STAT_ENABLED 11) then
      sigFetch (s.get (PAR_SUB_GSID i)) fun l => subSlots n (acc ++ wordsBytes l) k
    else subSlots n (acc ++ List.replicate 16 0) k

/-- Latch the snapshot. `ok` names the sources that answer: bits 0 to 3 the dice, bit 4 the sense inputs. What stands in place of
a source that cannot be read is not stated. -/
def latchSnapshot (ok : Nat) : Upd := .read fun s =>
  let mask := (List.range 4).foldl (fun m d => if bit ok d && (s.die d).on then m + 2 ^ d else m)
    (if bit ok 4 && s.flag (BLK_STAT_ENABLED 20) then 16 else 0)
  freeBytes (64 * 16 + 48 * 4) fun junk =>
    let ch (c : Nat) := let g := ofGlobal c
      if bit mask (g / 16) then wordsBytes [s.reg (LSW_CH_STATUS0 g), s.reg (LSW_CH_STATUS1 g), s.reg (LSW_CH_STATUS2 g), s.reg (LSW_CH_STATUS3 g)]
      else (junk.drop (16 * c)).take 16
    let sni (n : Nat) := if bit mask 4 then s.reg (SNI_IN_VAL n) else leValue ((junk.drop (1024 + 4 * n)).take 4) % 2 ^ 31
    subSlots 128 [] fun subs => updPar fun p => { p with snap := some (
      leBytes 4 (s.reg PAR_SEQ) ++ leBytes 4 (s.reg PAR_ACTIVE) ++ leBytes 8 s.devTime ++ leBytes 4 mask ++ List.replicate 12 0
        ++ ((List.range 64).map ch).flatten ++ wordsBytes ((List.range 48).map sni) ++ subs) }

/-- SNAPSHOT_READY: the snapshot stands in the TCM of each voted triplet. -/
def snapshotReady : Upd := .read fun s => match s.b.par.snap with
  | some l => seqs [
      forN 2 fun x => whenU (!s.iwSplit x) (dmaWrite 56 (tcmBase x + 256 * s.get PAR_TCM_MAP_SNAP) l fun _ => .skip),
      updPar fun p => { p with snap := none }, raise 3 0]
  | none => .skip

/-! ## Self-test of the standby (R247) -/

/-- The standby of a Paired pair. -/
def State.standby (s : State) : Option Nat := if s.get PAR_ACTIVE_PAIR_STATE = 0 then some (1 - s.get PAR_ACTIVE_ACTIVE) else none

/-- The cycle counts as skipped. -/
def stSkip : Upd := .seq (inc PAR_ST_STAT_SKIPPED) (updPar fun p => { p with tried := true })

/-- ST_UNIT_START: the unit starts, or too little time is left. -/
def stUnitStart (go : Bool) : Upd := .read fun s => match s.standby with
  | none => .skip
  | some x => whenU (s.flag PAR_MODE_ST_EN && !s.b.par.tried && s.b.par.unit.isNone) (
    if ¬ go ∨ s.get (IW_STAT_STATE x) ≠ 2 then stSkip
    else .seq (updPar fun p => { p with unit := some x, tried := true })
      (whenU (!s.flag (IW_STAT_DMR x)) (
        let k := s.get PAR_ST_STAT_SLICE / 48
        .seq (updIw x fun t => { t with slice := some k }) (putCore (IW_STAT_RUNNING x) k false))))

/-- The core under test returns to the vote, by the copy of R224. -/
def sliceReturn (x : Nat) : Upd := .read fun s => match (s.iw x).slice with
  | some k => .seq (updIw x fun t => { t with slice := none }) (whenU (s.iwRunning x) (putCore (IW_STAT_RUNNING x) k true))
  | none => .skip

/-- A unit whose triplet is no longer the standby advances nothing. -/
def stCut : Upd := .read fun s => match s.b.par.unit with
  | some x => whenU (s.standby != some x) (.seq (updPar fun p => { p with unit := none }) (sliceReturn x))
  | none => .skip

/-- ST_UNIT_END: whether the slice and the march pass. -/
def stUnitEnd (slice march : Bool) : Upd := .read fun s => match s.b.par.unit with
  | none => .skip
  | some x =>
    let core := (s.iw x).slice
    let next := s.get PAR_ST_STAT_SLICE + 1
    seqs [
      updPar fun p => { p with unit := none },
      match core with
      | some k => .seq (sliceReturn x) (if slice then raise (1 + x) 0 else iwRetire x k)
      | none => .skip,
      whenU (!march) (seqs [set (parMarchFail x) 1, raise 3 7, report 3 none PM]),
      whenU core.isSome (.seq (set PAR_ST_STAT_SLICE (next % 144)) (whenU (next == 144) (incWrap PAR_ST_STAT_PASSES))),
      set PAR_ST_STAT_MARCH ((s.get PAR_ST_STAT_MARCH + 1) % 256)]

/-! ## The block (R256, R258) -/

/-- A reset of PAR: it restarts in None. -/
def parReset : Upd := .seq (resetRegs fun a => onPage 3 a && !([BLK_CTRL 3, BLK_STAT 3, BLK_LOCK 3, BLK_CAP 3].contains a))
  (updPar fun p => { len := p.len })

/-- The boundary that ends a disable: None, and the reset that waits for it. -/
def parStopped : Upd := .read fun s => seqs [
  whenU (s.get PAR_ACTIVE_PAIR_STATE != 3) (parNone false),
  set (BLK_STAT_DRAINING 3) 0,
  whenU (s.flag (BLK_CTRL_SOFT_RST 3)) (seqs [parReset, set (BLK_CTRL_SOFT_RST 3) 0, set (BLK_STAT_RST_BUSY 3) 0, set (BLK_CTRL_EN 3) 1]),
  .read fun s => whenU (s.flag (BLK_CTRL_EN 3)) (set (BLK_STAT_ENABLED 3) 1)]

/-- A write of EN = 0 of PAR. -/
def parDisable : Upd := .seq (set (BLK_STAT_ENABLED 3) 0) (set (BLK_STAT_DRAINING 3) 1)

/-- At the lock (R147, R240): PAR runs. -/
def parLock : Upd := .read fun s => seqs [
  set (BLK_CTRL_EN 3) 1, set (BLK_STAT_ENABLED 3) 1, setReg PAR_SEQ 0, updPar fun p => { p with len := s.parCycle }]

/-- CYCLE_BOUNDARY (R240, R248, R250): `ok` names the sources of the snapshot that answer. -/
def cycleBoundary (ok : Fin 32) : Upd := .read fun s => whenU (s.locked && decide (s.pwr ≤ 1)) (
  let us := 250 * s.b.par.len
  let len := s.parCycle
  let at' := (s.devTime + 125000) / 250000
  seqs [
    whenU (s.standby.isSome && s.flag PAR_MODE_ST_EN && !s.b.par.tried) stSkip,
    countGood 0 us, countGood 1 us,
    if s.flag (BLK_STAT_ENABLED 3) then parDecide else parStopped,
    stCut,
    whenU (at' % len == 0) (updPar fun p => { p with len := len }),
    updPar fun p => { p with compared := false, matched := false, tried := false },
    .read fun s => setReg PAR_SEQ ((s.reg PAR_SEQ + 1) % 2 ^ 32),
    latchSnapshot ok.val])

/-- A write of PAR_TCM_MAP or PAR_STATE_MAP takes effect unless areas overlap or leave the TCM (R258). -/
def State.parMapOk (s : State) : Bool :=
  let n := min 64 (s.get PAR_STATE_MAP_LEN) * 256
  let l := [(256 * s.get PAR_TCM_MAP_SNAP, 3296), (256 * s.get PAR_TCM_MAP_OUT, 1296)]
    ++ (if n = 0 then [] else [(256 * s.get PAR_STATE_MAP_OFS, n)])
  let apart (x y : Nat × Nat) : Bool := x.1 + x.2 ≤ y.1 || y.1 + y.2 ≤ x.1
  l.all (fun x => x.1 + x.2 ≤ 0x80000) && (match l with
    | [x, y] => apart x y
    | [x, y, z] => apart x y && apart x z && apart y z
    | _ => true)

def parMapHook (a old : Nat) : Upd := .read fun s => whenU (!s.parMapOk) (setReg a old)

end Sys2Proof.Machine
end

