-- ==== Sys2Proof/Machine/Cells.lean ====
section
/-!
DEFINITION. Blocks and cells as a whole (03_register_pages.md, R71 to R81; 11_fault_handling.md): enabling, disabling, resetting,
isolating and retiring them, re-arms, the decay ticks, error injection, the safe state, heartbeats and the watchdogs.
-/
namespace Sys2Proof.Machine

/-! ## What a cell reset adds in each block -/

/-- A channel's flat number on the LSW pages. -/
def lswCellG (k c : Nat) : Nat := 16 * (k - 16) + c

def isLsw (k : Nat) : Bool := 16 ≤ k && k ≤ 19

/-- The header registers of a cell page that a reset returns where the block keeps the rest (R187, R626). -/
def cellHeadReset (k c : Nat) : Upd := resetRegs fun a => onCell k c a && [0x00, 0x08, 0x0C, 0x10].contains (a - cellBase k c)

/-- The registers and the record of a cell as after a cell reset (R81). -/
def cellCleared (k c : Nat) : Upd := .read fun s =>
  if isLsw k then
    let g := lswCellG k c
    .seq (cellRegsReset k c lswKeep) (lswAfterReset g (s.get (LSW_DG_OLON_STAT_OLON_CNT g)) (s.get (LSW_PR_STAT_LATCH_TJ g))
      (s.get (LSW_PR_STAT_LATCH_WIRE g)))
  else match k with
  | 5 => .seq (cellHeadReset k c) (zeroSlot c)
  | 6 => cellHeadReset k c
  | 7 => .seq (cellRegsReset k c []) (etpCellRst c)
  | 9 => .seq (cellRegsReset k c []) (updCan c fun _ => {})
  | 10 => .seq (cellRegsReset k c []) (updLin c fun _ => {})
  | 22 => .seq (cellRegsReset k c []) (gladeCellStart c)
  | _ => cellRegsReset k c []

/-- A cell's work is still short of its element boundary. -/
def State.cellBusy (s : State) (k c : Nat) : Bool :=
  if isLsw k then s.lswBusy (lswCellG k c)
  else match k with
  | 6 => s.flag (IOM_INST_STAT_RESETTING c)
  | 7 => s.etpBusy c
  | 9 => (s.canCh c).tx.isSome
  | 10 => (s.linCh c).cur.isSome
  | _ => false

/-- The end of a cell's draining. -/
def cellFin (k c : Nat) : Upd :=
  if isLsw k then lswDrained (lswCellG k c)
  else match k with
  | 5 => .read fun s => let rst := s.flag (CELL_CTRL_CELL_RST k c)
      seqs [set (CELL_STAT_DRAINING k c) 0, whenU rst (seqs [cellHeadReset k c, eraseSlot c, touchSlot c])]
  | 6 => set (CELL_STAT_DRAINING k c) 0
  | 7 => .seq (etpDrained c) (cellDrained k c [] (etpCellRst c))
  | 9 => canDrained c
  | 10 => linDrained c
  | 22 => cellDrained k c [] (gladeCellStart c)
  | _ => cellDrained k c [] .skip

/-- A cell stops accepting work: EN = 0, a reset or a retirement. -/
def cellStop (k c : Nat) : Upd :=
  if isLsw k then lswDisable (lswCellG k c)
  else match k with
  | 6 => .read fun s => .seq (set (CELL_STAT_ENABLED k c) 0)
      (whenU (s.flag (CELL_CTRL_CELL_RST k c) || s.flag (CELL_STAT_RETIRED k c)) (
        if s.flag (IOM_INST_STAT_BOUND c) then .seq (set (CELL_STAT_DRAINING k c) 1) (instBegin c) else whenU (s.flag (CELL_CTRL_CELL_RST k c)) (cellHeadReset k c)))
  | 9 => canDisable c
  | 10 => linDisable c
  | 13 => flkCellDisable c
  | k => cellDrain k c (·.cellBusy k c) (cellFin k c)

/-- A cell that may accept work starts, by the checks of its own block. -/
def cellStart (k c : Nat) : Upd := .read fun s =>
  whenU (s.flag (CELL_CTRL_EN k c) && s.flag (BLK_STAT_ENABLED k) && !s.flag (CELL_STAT_RETIRED k c) && !s.flag (CELL_STAT_DRAINING k c)) (
    if isLsw k then .seq (set (CELL_STAT_ENABLED k c) 1) (showLoad (s.lead (lswCellG k c)))
    else match k with
    | 9 => canEnable c
    | 10 => linEnable c
    | 13 => flkCellEnable c
    | 22 => .seq (set (CELL_STAT_ENABLED k c) 1) (gladeCellStart c)
    | _ => set (CELL_STAT_ENABLED k c) 1)

/-- A drained cell that is to be enabled starts by its block's checks. -/
def cellBack (k c : Nat) : Upd := .read fun s => whenU (s.flag (CELL_STAT_ENABLED k c)) (.seq (set (CELL_STAT_ENABLED k c) 0) (cellStart k c))

/-! ## Blocks (R81) -/

/-- Registers of a page that a block reset leaves alone whatever the block: control, state, lock, and what R81 keeps of cells. -/
def blockKept (k a : Nat) : Bool :=
  [BLK_CTRL k, BLK_STAT k, BLK_LOCK k, BLK_CAP k, BLK_ID k].contains a
    || (0x1000 ≤ a - unitBase k && decide (0 < (unitCells k).2) && [0x04, 0x14, 0x18].contains ((a - unitBase k) % max 1 (unitCells k).2))

/-- The read-only bits of a register: they show the block's state, not a setting. -/
def roBits (a : Nat) : Nat := match locate a with
  | none => 0
  | some l => l.row.fs.foldl (fun m f => if f.acc = .ro then m ||| ((2 ^ (f.hi - f.lo + 1) - 1) <<< f.lo) else m) 0

/-- Registers whose read-only bits record something past, so that a reset returns them (R81): error captures, results, sums of cells that
are reset with the block. The others show what the block holds, and follow it (notes/assumptions/86.md). -/
def recorded : List Nat := [MEM_ERR_ADDR_LO, MEM_ERR_ADDR_HI, VLT_SLOT_RES, VLT_MEAS_CTRL, CAN_BO_SUM, CAN_EP_SUM, FLK_CPL_ERR, HBR_RD_ERR]

/-- Return registers to their reset values but for their SP and BL bits, and the read-only bits that show what the block holds. -/
def resetSettings (p : Nat → Bool) : Upd := .seq (.act (.regsMap fun a v =>
  let kept := BitVec.ofNat 32 (keptBits a ||| (if recorded.contains a then 0 else roBits a))
  if p a then (v &&& kept) ||| (regDefault a &&& ~~~ kept) else v)) (highCleared p)

/-- The registers of a block-wide reset, without cell pages. -/
def blockPage (k a : Nat) : Bool := onPage k a && !blockKept k a && decide (a - unitBase k < 0x1000)

/-- What each block's reset returns and keeps (R187, R213, R480, R510, R535, R558, R581, R605, R626). -/
def blockCleared (k : Nat) : Upd := .read fun s =>
  if isLsw k then seqs [resetSettings (blockPage k), forN 16 fun c => cellCleared k c, showSums]
  else match k with
  | 5 => seqs [.read fun s => .seq (resetSettings fun a => blockPage 5 a) (set VLT_MEAS_CTRL_R0_CLOSE (s.get VLT_MEAS_CTRL_R0_CLOSE)),
      forN 32 fun r => .seq (set (VLT_RING_HEAD_INDEX r) 0) (set (VLT_RING_STAT_HALT r) 0),
      updVlt fun v => { v with purge := v.purge.map fun _ => (0, 512), rrLeft := [], rrPtr := 0 }]
  | 6 => seqs [resetSettings (blockPage 6), forN 256 fun n => .seq (instBegin n) (resetRegs fun a =>
      onCell 6 n a && [0x00, 0x08, 0x0C, 0x10].contains (a - cellBase 6 n))]
  | 7 => seqs [resetSettings (blockPage 7), forN 25 (cellCleared 7)]
  | 8 => .seq swcReset (resetRegs fun a => onPage 8 a && !blockKept 8 a && !([SWC_ISO_STAT, SWC_TBL_VERSION, SWC_BUF_STAT].contains a))
  | 9 => seqs [resetSettings (blockPage 9), forN 16 (cellCleared 9)]
  | 10 => seqs [resetSettings (blockPage 10), forN 12 (cellCleared 10)]
  | 11 => seqs [srtReset, .read fun s => .seq (resetRegs fun a => onPage 11 a && !blockKept 11 a && a != SRT_EPOCH)
      (.seq (setReg SRT_EPOCH (s.reg SRT_EPOCH)) (.seq (set SRT_EPOCH_PENDING 0) (set SRT_EPOCH_COMMIT 0)))]
  | 12 => .seq (resetRegs fun a => onPage 12 a && !blockKept 12 a && !tmbKept a) (tmbReset (s.reg TMB_STAT))
  | 13 => seqs [flkReset, resetSettings (blockPage 13), forN 2 (cellCleared 13), showRole]
  | 14 => seqs [forEach s.b.hbr.devRd fun r => devRdEnd r false [],
      updHbr fun h => { h with devRd := [], backoff := [] }, semFreeHost fun _ => true, forN 64 semFree,
      resetSettings (blockPage 14), showTrk]
  | 15 => seqs [resetRegs fun a => blockPage 15 a && decide (a - unitBase 15 < 0xE00)
        && !(NMC_FALSE_WAKE_CNT 0 ≤ a && a ≤ NMC_FALSE_WAKE_CNT 63),
      set NMC_ISO_STAT_ISOLATED (s.get NMC_ISO_STAT_ISOLATED), set NMC_STAT_ISOLATED (s.get NMC_ISO_STAT_ISOLATED),
      upd fun b => { b with nmc := {} }]
  | 20 => seqs [resetRegs fun a => onPage 20 a && !blockKept 20 a, upd fun b => { b with sni := [] }]
  | 21 => .seq (resetSettings fun a => blockPage 21 a && !([PSM_DIE_EN, PSM_DS_WAKE_EN, PSM_DS_MASKED, PSM_EVT_CNT].contains a))
      (set PSM_TRANS_STAT_REFUSE_CAUSE 0)
  | 22 => seqs [resetSettings fun a => blockPage 22 a && !([GLD_FW_DIS_LO, GLD_FW_DIS_HI].contains a), forN 32 (cellCleared 22),
      updGld fun x => { x with was := 0, events := 0, held := [], deep := false }]
  | _ => resetSettings (blockPage k)

/-- The cells of a unit. -/
def cellCount (k : Nat) : Nat := (unitCells k).1

/-- A block's work is short of its element boundary. -/
def State.blockBusy (s : State) (k : Nat) : Bool := match k with
  | 3 => true
  | 8 => s.b.swq.tx.any (·.2.isSome) || s.b.swq.out.any fun e => !e.2.isEmpty
  | 6 => (List.range 256).any fun n => s.flag (IOM_INST_STAT_RESETTING n)
  | 4 => !s.b.mem.retiring.isEmpty || s.flag MEM_NOR_STAT_BUSY_A || s.flag MEM_NOR_STAT_BUSY_B
  | k => (List.range (cellCount k)).any fun c => s.flag (CELL_STAT_DRAINING k c)

/-- BLOCK_ENABLE: a block with EN = 1 accepts work, by its own checks (R516, R581). -/
def blockStart (k : Nat) : Upd := .read fun s =>
  if k = 11 ∧ ¬ s.srtAreasOk then .seq (set (BLK_CTRL_EN 11) 0) (raise 11 7)
  else seqs [
    set (BLK_STAT_ENABLED k) 1,
    match k with
    | 4 => updMem fun m => { m with held := false }
    | 11 => srtCachesEmpty
    | 13 => flkEnable
    | 14 => hbrStart
    | 20 => sniEnabled
    | _ => .skip,
    forN (cellCount k) (cellStart k)]

/-- The end of a block's draining: a pending reset takes place; EN = 1 enables again (R81). -/
def blockFinish (k : Nat) : Upd := .read fun s =>
  let rst := s.flag (BLK_CTRL_SOFT_RST k)
  seqs [
    set (BLK_STAT_DRAINING k) 0,
    whenU (k == 8) swcDrainEnd,
    whenU rst (seqs [blockCleared k, setReg (BLK_CTRL k) (s.reg (BLK_CTRL k) % 2), set (BLK_STAT_ISOLATED k) 0, set (BLK_STAT_RST_BUSY k) 0, reportLate k]),
    .read fun s => whenU (s.flag (BLK_CTRL_EN k) && !s.flag (BLK_CTRL_ISOLATE k)) (blockStart k)]

/-- BLOCK_DISABLE: no new work; draining until the element boundary. -/
def blockStop (k : Nat) : Upd :=
  if k = 3 then parDisable else seqs [
    set (BLK_STAT_ENABLED k) 0, set (BLK_STAT_DRAINING k) 1,
    match k with
    | 4 => updMem fun m => { m with held := true }
    | 8 => swcDisable
    | 11 => srtDisable
    | 13 => flkDisable
    | 15 => .read fun s => forN 36 fun c => whenU (s.flag (NMC_CH_STAT_TRX_ASLEEP c)) (trxAwake c)
    | 20 => sniDisabled
    | _ => .skip,
    if k = 5 ∨ k = 6 then .skip
    else .read fun s => forN (cellCount k) fun c => whenU (s.flag (CELL_STAT_ENABLED k c)) (cellStop k c),
    .read fun s => whenU (!s.blockBusy k) (blockFinish k)]

/-- A block reset begins: SOFT_RST written 1, or a BLOCK_RESET reaction. The triplets restart (R231); CNP's harts are untouched
(R213). -/
def blockReset (k : Nat) : Upd := .read fun s =>
  if k = 1 ∨ k = 2 then iwRestart (k - 1)
  else if k = 0 then seqs [resetSettings fun a => blockPage 0 a && a != CNP_HART_EN && a != CNP_CLU_CLK 0 && a != CNP_CLU_CLK 1 && a != CNP_CLU_CLK 2,
    set (BLK_CTRL_ISOLATE 0) 0, set (BLK_STAT_ISOLATED 0) 0]
  else whenU (!s.flag (BLK_CTRL_SOFT_RST k)) (seqs [
    set (BLK_CTRL_EN k) 0, set (BLK_CTRL_SOFT_RST k) 1, set (BLK_STAT_RST_BUSY k) 1, whenU (k == 8) swcDrainEnd,
    if s.flag (BLK_STAT_DRAINING k) then .skip
    else if isLsw k || k == 9 || k == 10 || k == 7 then .seq (forN (cellCount k) fun c => whenU (!s.flag (CELL_STAT_RETIRED k c)) (set (CELL_CTRL_CELL_RST k c) 1)) (blockStop k)
    else blockStop k])

/-- A write of BLK_CTRL: `old` is the register before, `v` the word as written. EN and SOFT_RST of region pages and the MSU, EN of
CNP, IWA and IWB ignore writes (R71, R213, R236); EN of an LSW page reads 0 while its die is off (R304). -/
def blkCtrlHook (k old v : Nat) : Upd := seqs [setReg (BLK_CTRL k) old,
  if 23 ≤ k then .skip else .read fun s =>
    let en := bit v 0
    let iso := bit v 2
    seqs [
      whenU (iso != bit old 2) (.seq (set (BLK_CTRL_ISOLATE k) iso.toNat)
        (if iso then .seq (set (BLK_STAT_ISOLATED k) 1) (whenU (decide (3 ≤ k) && s.flag (BLK_STAT_ENABLED k)) (blockStop k))
         else .seq (set (BLK_STAT_ISOLATED k) 0)
           (whenU (decide (3 ≤ k) && s.flag (BLK_CTRL_EN k) && !s.flag (BLK_STAT_DRAINING k)) (blockStart k)))),
      if bit v 1 ∧ ¬ bit old 1 then blockReset k
      else if k ≤ 2 ∨ (isLsw k ∧ ¬ (s.die (k - 16)).on) then .skip
      else if en ∧ ¬ bit old 0 then .seq (set (BLK_CTRL_EN k) 1)
        (.read fun s => if k = 3 then whenU (!s.flag (BLK_STAT_DRAINING 3)) (set (BLK_STAT_ENABLED 3) 1)
          else whenU (!s.flag (BLK_STAT_DRAINING k) && !s.flag (BLK_CTRL_ISOLATE k)) (blockStart k))
      else whenU (!en && bit old 0) (.seq (set (BLK_CTRL_EN k) 0) (whenU (s.flag (BLK_STAT_ENABLED k)) (blockStop k)))]]

/-! ## Cells: control, retirement, re-arm (R77, R263, R264) -/

/-- A write of CELL_CTRL. -/
def cellCtrlHook (k c old v : Nat) : Upd := .read fun s =>
  let rst := bit v 1 && !bit old 1 && !s.flag (CELL_STAT_RETIRED k c)
  if rst then seqs [set (CELL_CTRL_EN k c) 0, set (CELL_CTRL_CELL_RST k c) 1,
    if s.flag (CELL_STAT_DRAINING k c) then .skip
    else if k = 6 ∨ s.flag (CELL_STAT_ENABLED k c) ∨ s.cellBusy k c then cellStop k c
    else cellFin k c]
  else seqs [
    set (CELL_CTRL_CELL_RST k c) (bit old 1).toNat,
    if bit v 0 then whenU (!bit old 0) (cellStart k c)
    else whenU (bit old 0 && s.flag (CELL_STAT_ENABLED k c)) (cellStop k c)]

/-- A cell is retired (R263). -/
def retireCell (k c : Nat) : Upd := .read fun s => whenU (!s.flag (CELL_STAT_RETIRED k c)) (seqs [
  set (CELL_STAT_RETIRED k c) 1, set (CELL_RETIRE_RETIRE k c) 1, set (CELL_STAT_FAULT k c) 0, inc (BLK_STAT_RETIRED k),
  cellStop k c,
  match k with
  | 5 => vltRetire c
  | 22 => gladeCellRetired c
  | k => whenU (isLsw k) (dloadFault (lswCellG k c))])

/-- A re-arm request (R264). -/
def rearmCell (k c : Nat) : Upd := .read fun s =>
  let r := s.get (CELL_FAULT_CNT_REARMS k c)
  let closed := s.flag (BLK_STAT_RST_BUSY k) || s.flag (BLK_CTRL_ISOLATE k) || (decide (7 ≤ k) && decide (k ≤ 15) && s.isolated 1)
    || (decide (21 ≤ k) && s.isolated 3)
  if ¬ s.flag (CELL_STAT_RETIRED k c) ∨ s.get (MSU_FLT_CFG_REARM_MAX k) ≤ r ∨ closed then set (CELL_RETIRE_REARM_DENIED k c) 1
  else seqs [
    cellCleared k c,
    set (CELL_STAT_RETIRED k c) 0, set (CELL_STAT_DRAINING k c) 0, set (CELL_STAT_ENABLED k c) 0,
    set (CELL_RETIRE_RETIRE k c) 0, set (CELL_RETIRE_REARM_DENIED k c) 0,
    set (CELL_FAULT_CNT_LEVEL k c) 0, set (CELL_FAULT_CNT_REARMS k c) (r + 1),
    .read fun s => set (BLK_STAT_RETIRED k) (s.get (BLK_STAT_RETIRED k) - 1),
    if isLsw k then showCh (lswCellG k c)
    else if k = 9 then canState c 0 else if k = 10 then linState c 0 else .skip]

/-- A write of CELL_RETIRE by PID 1: a retirement is a PM fault of the cell whose reaction is the retirement alone. -/
def cellRetireHook (k c old v : Nat) : Upd := seqs [
  setReg (CELL_RETIRE k c) old,
  .read fun s => whenU (bit v 0 && !s.flag (CELL_STAT_RETIRED k c)) (.read fun s =>
    let due := s.b.fab.due
    seqs [report k (some c) PM, updFab fun f => { f with due := due ++ [⟨k, some c, 1, PM, 16 * k + PM, false⟩] }, retireCell k c]),
  whenU (bit v 1) (rearmCell k c)]

/-- DRAIN_COMPLETE: a cell's, or the block's, work has reached its boundary. In SWC the copies not started are discarded
(R464). -/
def drainComplete (k : Fin 23) (c : Option (Fin 512)) : Upd := .read fun s => match c with
  | some c => whenU (s.flag (CELL_STAT_DRAINING k c) && !s.cellBusy k c) (.seq (cellFin k c) (cellBack k c))
  | none =>
    if k.val = 8 then whenU (s.flag (BLK_STAT_DRAINING 8) && !s.b.swq.tx.any (·.2.isSome)) (.seq swcDrainEnd (blockFinish 8))
    else whenU (s.flag (BLK_STAT_DRAINING k) && !s.blockBusy k) (blockFinish k)

/-- Blocks whose work has reached its boundary finish. -/
def drainsEnd : Upd := .read fun s => forN 23 fun k => whenU (s.flag (BLK_STAT_DRAINING k) && !s.blockBusy k) (blockFinish k)

/-- LEVEL_DECAY_TICK (R262). -/
def levelDecayTick (k : Fin 23) : Upd := .read fun s =>
  whenU (decide (s.pwr ≤ 1) || k.val == 22) (forN (cellCount k) fun c => dec (CELL_FAULT_CNT_LEVEL k c))

/-! ## Error injection (R274) -/

/-- Whether BLK_ERR_INJ names a target that takes faults. -/
def State.injTarget (s : State) (k : Nat) : Bool :=
  let c := s.get (BLK_ERR_INJ_CELL k)
  c == 0xFFF || (c < cellCount k && !s.flag (CELL_STAT_RETIRED k c))

/-- The fault is injected. -/
def inject (k : Nat) : Upd := .read fun s =>
  let c := s.get (BLK_ERR_INJ_CELL k)
  seqs [set (BLK_ERR_INJ_ARM k) 0,
    whenU (s.injTarget k) (seqs [
      updFab fun f => { f with injecting := true },
      report k (if c = 0xFFF then none else some c) (s.get (BLK_ERR_INJ_CLASS k)),
      updFab fun f => { f with injecting := false }])]

/-- The next operation of unit `k`, in cell `c` where it has one, begins: an armed fault strikes its target. -/
def injFire (k : Nat) (c : Option Nat) : Upd := .read fun s =>
  let t := s.get (BLK_ERR_INJ_CELL k)
  whenU (hasPage k && s.flag (BLK_ERR_INJ_ARM k) && (t == 0xFFF || c == some t)) (inject k)

/-- An element of work of unit `k` begins, in cell `c` where it has one (R81): where the unit and the cell work, an armed fault
strikes. -/
def workFire (k : Nat) (c : Option Nat) : Upd := .read fun s =>
  whenU (s.flag (BLK_STAT_ENABLED k) && (match c with | some i => s.flag (CELL_STAT_ENABLED k i) | none => true)) (injFire k c)

/-- ERR_INJ_TIMEOUT: 1 ms after ARM. -/
def errInjTimeout (k : Fin 28) : Upd := .read fun s => whenU (s.flag (BLK_ERR_INJ_ARM k)) (inject k)

/-- A write of BLK_ERR_INJ: ARM aimed at a retired or absent cell is cleared. -/
def errInjHook (k old v : Nat) : Upd := .seq (set (BLK_ERR_INJ_ARM k) (bit old 31 || bit v 31).toNat)
  (.read fun s => whenU (!s.injTarget k) (set (BLK_ERR_INJ_ARM k) 0))

/-! ## The safe state (R271, R272) -/

/-- FAULT_N follows its causes (R271): MSU_FAULT_STAT.FAULT_N reads 1 while it is asserted. With the compute die unpowered its driver is
high-impedance (R36). -/
def assertFaultN : Upd := .read fun s => whenU (decide (s.pwr ≤ 1)) (set MSU_FAULT_STAT_FAULT_N 1)

/-- The module enters the safe state for source `src`. -/
def enterModuleSafe (src : Nat) : Upd := .read fun s => seqs [
  assertFaultN,
  whenU (!s.moduleSafe) (seqs [
    set MSU_FAULT_STAT_SAFE 1, set MSU_SAFE_STAT_CAUSE_SRC src,
    forEach s.loads fun l => .seq (testAbandon l) (enterSafe l),
    forN 4 fun d => set (LSW_DIE_STAT_SAFE_LINE d) 1,
    isolate true 2])]

/-- A class FT source is pending. -/
def State.ftPending (s : State) : Bool := (List.range 32).any fun k =>
  s.bitAt (MSU_FCU_PEND (k / 2)) (16 * (k % 2) + 3) || (k == 28 && (List.range 4).any fun i =>
    s.flag (MSU_WDOG_CFG_FT i) && s.bitAt (MSU_FCU_PEND 14) (4 + i))

/-- A write of MSU_SAFE_CTRL with EXIT (R272). -/
def safeCtrlHook (v : Nat) : Upd := .seq (set MSU_SAFE_CTRL_EXIT 0) (whenU (bit v 0) (.read fun s =>
  if bits v 15 8 ≠ 0x3C then set MSU_SAFE_STAT_REFUSE 1
  else if s.ftPending then set MSU_SAFE_STAT_REFUSE 2
  else if ¬ s.flag PSM_STAT_GND_OK then set MSU_SAFE_STAT_REFUSE 3
  else seqs [set MSU_SAFE_STAT_REFUSE 0, inc MSU_SAFE_STAT_EXITS,
    set MSU_FAULT_STAT_SAFE 0, set MSU_FAULT_STAT_FAULT_N 0, forN 4 fun d => set (LSW_DIE_STAT_SAFE_LINE d) 0,
    forEach s.loads showLoad]))

/-- HEARTBEAT_MISS: a die goes to its safe states by itself. -/
def heartbeatMiss (d : Fin 4) : Upd := .read fun s => whenU (s.die d).on (seqs [
  updDie d fun x => { x with hbLost := true }, set (LSW_DIE_STAT_HB_LOST d) 1,
  forEach (s.loads.filter fun l => l / 16 == d.val) enterSafe])

/-- HEARTBEAT_RESUME. -/
def heartbeatResume (d : Fin 4) : Upd := .read fun s => whenU (s.die d).hbLost (seqs [
  set (LSW_DIE_STAT_HB_LOST d) 0, report (16 + d) none FT, updDie d fun x => { x with hbLost := false }])

/-! ## Watchdogs (R273) -/

/-- Watchdog `i` counts: enabled, after the lock, not in a sleep state, debug locked. -/
def State.wdogRuns (s : State) (i : Nat) : Bool := s.flag (MSU_WDOG_STAT_RUNNING i)

/-- Start or stop the counting of every watchdog as its conditions stand; a start takes a full interval. -/
def wdogShow : Upd := .read fun s => forN 4 fun i =>
  let run := s.locked && s.flag (MSU_WDOG_CFG_EN i) && decide (s.pwr ≤ 1) && !s.flag VLT_DBG_STAT_UNLOCKED
  whenU (run != s.wdogRuns i) (.seq (set (MSU_WDOG_STAT_RUNNING i) run.toNat)
    (whenU run (updFab fun f => { f with wdog := mapPut 0 f.wdog i f.now })))

/-- An expiry of watchdog `i`. -/
def wdogExpire (i : Nat) : Upd := .read fun s => seqs [
  inc (MSU_WDOG_STAT_EXPIRED i), set (MSU_WDOG_STAT_NEXT_KEY i) 0x5A,
  updFab fun f => { f with wdog := mapPut 0 f.wdog i f.now },
  report 28 none (if s.flag (MSU_WDOG_CFG_FT i) then FT else TR) (some (4 + i))]

/-- WDOG_EXPIRY: MAX_MS have passed without a correct kick. -/
def wdogExpiry (i : Fin 4) : Upd := .read fun s => whenU (s.wdogRuns i) (wdogExpire i)

/-- A write of MSU_WDOG_KICK. -/
def wdogKickHook (i v : Nat) : Upd := .seq (setReg (MSU_WDOG_KICK i) 0) (.read fun s => whenU (s.wdogRuns i) (
  let t := s.now - mapGet 0 s.b.fab.wdog i
  if t < s.get (MSU_WDOG_CFG_MIN_MS i) * msCycles ∨ max 1 (s.get (MSU_WDOG_CFG_MAX_MS i)) * msCycles ≤ t
      ∨ v % 256 ≠ s.get (MSU_WDOG_STAT_NEXT_KEY i) then wdogExpire i
  else .seq (set (MSU_WDOG_STAT_NEXT_KEY i) (255 - s.get (MSU_WDOG_STAT_NEXT_KEY i))) (updFab fun f => { f with wdog := mapPut 0 f.wdog i f.now })))

end Sys2Proof.Machine
end

