-- ==== Sys2Proof/Machine/Rst.lean ====
section
/-!
DEFINITION. Module resets, the boot, the protection lock, the end of a power-down and the resume (04_power_states.md,
06_reset_and_boot.md).
-/
namespace Sys2Proof.Machine

/-! ## What a module reset keeps (R138, R139) -/

/-- Registers of the always-on part, or that the boot NOR brings back: Glade's page but for CFG_LOCK, an armed injection and the
cells' fault counts; PSM's flags, voltages, wake enables, counts, settings, refusal cause and consent (R102 to R107; that PSM_CFG and the
refusal cause are among them is DEDUCED, notes/assumptions/94.md); the cause of the reset; selective wake; spare pages. -/
def alwaysOn (a : Nat) : Bool :=
  (onPage 22 a && !(a == BLK_LOCK 22 || a == BLK_ERR_INJ 22 || (List.range 32).any fun c => a == CELL_FAULT_CNT 22 c))
    || [PSM_STAT, PSM_V_KL30, PSM_V_BAT, PSM_DS_WAKE_EN, PSM_DS_MASKED, PSM_EVT_CNT, PSM_CFG, PSM_TRANS_STAT, PSM_SLEEP_CONSENT, MSU_RST_CAUSE, MEM_RETIRE_STAT].contains a
    || (MEM_SPARE_MAP 0 ≤ a && a ≤ MEM_SPARE_MAP 255)
    || (NMC_SWK_CFG 0 ≤ a && a < NMC_SWK_CFG 8)
    || (NMC_FALSE_WAKE_CNT 0 ≤ a && a ≤ NMC_FALSE_WAKE_CNT 63)

/-- Die `d` serves a designated channel under Glade. -/
def State.serves (s : State) (d : Nat) : Bool := (s.die d).on && (List.range 8).any fun k => s.slotBusy k && s.slotCh k / 16 == d

/-- Memory that a power-down of the compute die or a module reset clears besides DRAM: shared SRAM and the TCMs (`cores`), the memory
windows, the upper half of Glade's RAM (`glade`). -/
def volatileMem (cores glade : Bool) (a : Nat) : Bool :=
  (cores && ((0x1000000 ≤ a && a < 0x1400000) || (0x8000000 ≤ a && a < 0x9000000)))
    || (0x30000000 ≤ a && a < 0x40000000) || (glade && 0x58002000 ≤ a && a < 0x58004000)

/-- What the OTP of the vault holds. -/
def Vlt.otp (v : Vlt) : Vlt :=
  { bankA := v.bankA, bankB := v.bankB, lifecycle := v.lifecycle, digests := v.digests, authStat := v.authStat, arb := v.arb }

/-- The records of the load side with those dice kept that `p` names; the interface dice keep their saved values. -/
def Lsw.keep (l : Lsw) (p : Nat → Bool) : Lsw :=
  { ch := l.ch.filter fun e => p (e.1 / 16)
    die := l.die.map fun e => (e.1, if p e.1 then { e.2 with down := false } else
      { batLow := e.2.batLow, ovLong := e.2.ovLong, brown := e.2.brown, downAt := e.2.downAt, saved := e.2.saved }) }

/-- The records after a module reset: the dice that `p` names keep theirs. -/
def Blocks.afterReset (b : Blocks) (p : Nat → Bool) : Blocks :=
  { fab := { now := b.fab.now, free := b.fab.free }
    psm := { b.psm with trans := none, latched := 0, late := [], resume := none, retLost := false }
    gld := { b.gld with held := [], deep := false, saving := false }
    vlt := b.vlt.otp
    mem := { lineKey := b.mem.lineKey, keyGen := b.mem.keyGen }
    lsw := b.lsw.keep p
    fw := b.fw }

/-- The firmware of a power die starts once the die is enabled through PSM_DIE_EN and the set-up is locked, never under Glade service
(R341): its image is loaded then, which no command shows (DEDUCED, notes/assumptions/101.md). -/
def dieFwWork : Upd := forN 4 fun d => .read fun s =>
  whenU (s.locked && decide (s.pwr ≤ 1) && (s.die d).on && !(s.die d).fw && s.bitAt PSM_DIE_EN d && !s.serves d && (s.part (4 + d)).present)
    (seqs [updDie d fun x => { x with fw := true }, set (LSW_DG_STAT_FW_RUN d) 1, set (LSW_DG_STAT_FW_VER d) ((s.part (4 + d)).version % 256)])

/-- The PHY firmware starts once the set-up is locked and its part is there (R145, R437); its load has no command either
(DEDUCED, notes/assumptions/101.md). A firmware that stopped starts again at the next power-up of its die only. -/
def phyFwWork : Upd := .read fun s =>
  whenU (s.locked && decide (s.pwr ≤ 1) && !s.b.fab.phyStarted && (s.part 8).present) (seqs [
    upd fun b => { b with fab := { b.fab with phyStarted := true } },
    set ETP_PHY_FW_RUN 1, set ETP_PHY_FW_VER ((s.part 8).version % 65536)])

/-! ## Module reset (R139) -/

/-- A module reset of `cause` begins. A power die that conducts switches its channels off, a brown-out through their clamps, and
stays in reset until the module's last one is off; a die that serves Glade at a wake keeps its state (R142). A debug reset keeps the debug
module, with its halts (R138). -/
def moduleReset (cause : Nat) : Upd := .read fun s =>
  let kept (d : Nat) : Bool := (cause == 2 || cause == 3) && s.serves d
  let going (d : Nat) : Bool := (s.die d).on && !kept d
  seqs [
    forN 4 fun d => whenU (going d) (forEach (s.loads.filter fun l => l / 16 == d) fun l => seqs [
      updChan l fun c => { c with applied := 0, hold := false, gate := false, retryWait := false, coolWait := false, shed := .none, tripped := false },
      turnOff l (if cause = 1 then .clamp else .meter), testAbandon l]),
    .read fun s' => seqs [
      clearRegs fun a => !(alwaysOn a || (List.range 4).any fun d => (kept d || going d) && lswPage d a),
      .act (.memDrop (volatileMem true true)),
      upd fun b => b.afterReset fun d => kept d || going d,
      forN 4 fun d => whenU (going d) (diePageReset d true),
      forN 4 fun d => updDie d fun x => { x with gnd := false },
      forN 4 fun d => whenU (going d) (seqs [updDie d fun x => { x with resetting := true },
        forEach (s'.loads.filter fun l => l / 16 == d) showLoad]),
      forN 4 fun d => putBit PSM_DIE_EN d (kept d)],
    showLocks, set PSM_STAT_P_SERVICE 0, set PSM_STAT_GND_OK 1, set PSM_TRANS_STAT_PHASE 0, set (BLK_STAT_LOCKED 22) 0,
    whenU s.b.psm.trans.isSome (set PSM_SLEEP_CONSENT_SAFE_OK 0),
    whenU (cause != 2 && cause != 3) (updGld fun x => { x with slots := [], woke := false }),
    whenU (cause == 7) (updVlt fun v => { v with halted := s.b.vlt.halted }),
    set MSU_FAULT_STAT_FAULT_N 1, showLifecycle,
    set MSU_RST_CAUSE_PREV (s.get MSU_RST_CAUSE_CAUSE), set MSU_RST_CAUSE_CAUSE cause, set MSU_RST_CAUSE_RESUMED 0,
    whenU (decide (4 ≤ cause)) (inc MSU_RST_CAUSE_LOOP_CNT),
    updAtReset]

/-- The dice held in reset go down with the module's last channel (R139); enabled meanwhile, they start anew. -/
def diceReset : Upd := .read fun s =>
  let held := (List.range 4).filter fun d => (s.die d).resetting
  whenU (!held.isEmpty && (s.loads.filter fun l => held.contains (l / 16)).all fun l => (s.chan l).out == .off)
    (forEach held fun d => seqs [dieDown d, updDie d fun x => { x with resetting := false, osc := true }, diePageReset d false,
      upd fun b => { b with lsw := { b.lsw with ch := b.lsw.ch.filter fun e => e.1 / 16 != d } },
      showLocks, dieStart d])

/-- What a power-on leaves (R138): only the OTP, the boot NOR and the flash keep their contents. -/
def powerOn : Upd := .read fun s => seqs [
  clearRegs fun a => !(a == MEM_RETIRE_STAT || (MEM_SPARE_MAP 0 ≤ a && a ≤ MEM_SPARE_MAP 255)),
  .act (.memDrop fun _ => true),
  upd fun b =>
    { fab := { now := b.fab.now, free := b.fab.free }
      psm := { levels := b.psm.levels, perstLow := b.psm.perstLow }
      gld := { copyA := b.gld.copyA, copyB := b.gld.copyB }
      vlt := b.vlt.otp
      fw := b.fw },
  set MSU_FAULT_STAT_FAULT_N 1,
  forN 4 fun d => updDie d fun x => { x with batLow := !s.studOk d },
  updAtReset]

/-- POR_ASSERT (R89): below POR all state is lost. -/
def porAssert : Upd := .seq powerOn (updPsm fun x => { x with por := true })

/-- POWER_ON_RESET (R138): the rising crossing of POR. REVERSAL_END (R90): the module starts as at power-on. -/
def powerOnReset : Upd := .seq powerOn (updPsm fun x => { x with por := false })
def reversalEnd : Upd := powerOnReset

/-- BOOT_TIMEOUT (R148). -/
def bootTimeout : Upd := .read fun s => whenU (s.get MSU_BOOT_STAT_PHASE == 2 && !s.flag VLT_DBG_STAT_UNLOCKED) (askReset 6)

/-- DEBUG_RESET (R138): accepted while debug is unlocked. -/
def debugReset : Upd := .read fun s => whenU (s.flag VLT_DBG_STAT_UNLOCKED) (askReset 7)

/-- TEST_ACCESS_RESET (R138): its scope is the J9 test access port, of which the spec gives no state. -/
def testAccessReset : Upd := .skip

/-- A write of MSU_RST_CTRL (R159). -/
def rstCtrlHook (v : Nat) : Upd := .seq (setReg MSU_RST_CTRL 0) (whenU (bits v 15 8 == 0x5A && bit v 0) (askReset 5))

/-! ## Boot (R143 to R146) -/

/-- The ROM enters recovery hold, with the host port enabled (R146, R677). -/
def recoveryHold : Upd := seqs [set MSU_BOOT_STAT_PHASE 4, isolate true 3, set FLK_DRAM_AP_EN 1, set (BLK_CTRL_EN 14) 1, blockStart 14]

/-- P0 of slot `b` (true: B) is measured and entered, register 0 closed (R183), DRAM trained (DEDUCED, notes/assumptions/97.md); the digest of an image that the unit shipped with is a free value. -/
def bootP0 (b fallback : Bool) : Upd := .read fun s =>
  let go (dig : List Byte) : Upd := seqs [
    measExtendBy 0 dig, set VLT_MEAS_CTRL_R0_CLOSE 1, set MEM_DRAM_STAT_READY 1, set MSU_BOOT_STAT_P0_SLOT b.toNat, set MSU_BOOT_STAT_FALLBACK fallback.toNat, set MSU_BOOT_STAT_PHASE 2]
  match mapGet none s.b.fw.slots b.toNat with
  | some (_, img) => go (sha384 img)
  | none => freeBytes 48 go

def slotFail (b : Bool) : Upd := set (if b then MSU_BOOT_STAT_SLOT_B_FAIL else MSU_BOOT_STAT_SLOT_A_FAIL) 1

/-- The slot selection of R144: `ok` tells whether slots A and B pass step 3 of R143. -/
def selectP0 (ok : Bool → Bool) : Upd := .read fun s =>
  let good := s.b.fw.copyA.isSome || s.b.fw.copyB.isSome
  let n := good && (s.part 0).active
  seqs [
    whenU (!good) (set MSU_BOOT_STAT_RECORD_BAD 1),
    if s.get MSU_RST_CAUSE_CAUSE = 6 then
      if ok (!n) then bootP0 (!n) true
      else .seq (slotFail (!n)) (if ok n then bootP0 n false else .seq (slotFail n) recoveryHold)
    else
      if ok n then bootP0 n false
      else .seq (slotFail n) (if ok (!n) then bootP0 (!n) true else .seq (slotFail (!n)) recoveryHold)]

/-- The wake reasons that NMC shows after the compute die powers up: Glade's false-wake values (R550), WAKE_HOLD of the buses whose
validation is open (R543), the always-on copy of FLW_OUT (R558). -/
def nmcAwake : Upd := .read fun s => seqs [
  forN 64 fun i => .seq (set (NMC_FALSE_WAKE_CNT_COUNT i) (s.fwCount i)) (set (NMC_FALSE_WAKE_CNT_DISABLED i) (s.fwDisabled i).toNat),
  forN 8 fun c => whenU (s.b.gld.wins.any (·.1 == 10 + c)) (set (NMC_CH_STAT_WAKE_HOLD c) 1),
  set NMC_CFG_FLW_OUT s.b.psm.flwOut.toNat]

/-- The image of P0 in slot `b` passes step 3 of R143: what a container installed there is checked by the ROM (header and hardware type,
both signatures by a pair with the IMAGE role, unit binding, SVN against counter 0, digest), an image that the unit shipped with, in slot
A alone, is of SVN 0 and otherwise as `ok` says; `ok` also tells whether the device reads back. -/
def State.p0Ok (s : State) (b ok : Bool) : Bool := ok && match mapGet none s.b.fw.slots b.toNat with
  | some (h0, img) =>
    let h := h0.take (cEndM h0 + 3405)
    s.openErr1 h == 0 && s.boundOk h && (match entryOf h 0 with
      | some e => decide (mapGet 0 s.b.vlt.arb 0 ≤ eSvn h e) && sha384 img == eDigest h e
      | none => false)
  | none => !b && mapGet 0 s.b.vlt.arb 0 == 0

/-- What P0 checks of an installed part before the lock (R660): the container in its slot header, its entry against the part table, the SVN
against the counter. What the unit shipped with in slot A has no container here and passes (notes/assumptions/112.md). -/
def State.partOk (s : State) (k : Nat) : Bool :=
  let p := s.part k
  !p.present || (decide (mapGet 0 s.b.vlt.arb k ≤ p.svn) && (match mapGet none s.b.fw.slots (2 * k + p.active.toNat) with
    | some (h0, _) =>
      let h := h0.take (cEndM h0 + 3405)
      s.openErr1 h == 0 && s.boundOk h && (match entryOf h k with
        | some e => eSvn h e == p.svn && eVersion h e == p.version && eLen h e == p.len && eDigest h e == p.digest
        | none => false)
    | none => true))

/-- The installed set passes R660: each part, and every part that a container installed accepts the others (R670). -/
def State.installedOk (s : State) : Bool :=
  ((List.range 11).all s.partOk) && (List.range 11).all fun i => !(s.part i).present
    || (mapGet none s.b.fw.slots (2 * i + (s.part i).active.toNat)).isNone || (List.range 11).all fun j => i == j
    || !(s.part j).present || (decide ((s.rules [] [] i j).1 ≤ (s.part j).version) && decide ((s.part j).version ≤ (s.rules [] [] i j).2))

/-- P0's check before the lock failed (R660): the trial falls back, or the boot ends in recovery hold. -/
def installedBad : Upd := .read fun s => if s.boot.state = 4 then fallback 5 else recoveryHold

/-- MODULE_RESET_RELEASE (R143): HOSTSEL is sampled (R31), the vault starts, and the ROM runs to the jump to P0. A PCIe interface stays in
reset while PE_PERST_N is low (R34, R140). In Blank the ROM halts where the entropy source failed its tests (R162), and where power fails
during the programming the boot goes no further. `recA`, `recB`: the copies of the boot record can be read; `okA`, `okB`: the P0 images in
slots A and B read back, and the one that the unit shipped with passes step 3. -/
def moduleResetRelease (x : BootIn) (recA recB okA okB : Bool) : Upd := .read fun s =>
  whenU (s.get MSU_BOOT_STAT_PHASE == 0 && !s.b.psm.brown && !s.b.psm.por && decide (s.pwr = 0)) (seqs [
    set MSU_BOOT_STAT_PHASE 1, set MSU_BOOT_CFG_HOST_PORT_SEL x.host.toNat,
    .read fun s => whenU s.pcie (set HBR_LINK_STAT_PERST s.b.psm.perstLow.toNat),
    vaultStart x.entropy x.prog x.ecc,
    setBit CNP_HART_STAT CNP_HART_STAT_RUNNING.lo,
    isolate true 1, nmcAwake,
    whenU (s.get MSU_RST_CAUSE_CAUSE == 1) (raise 21 12),
    whenU (!s.flag GLD_SEQ_STAT_RUN) gladeBoot,
    set MEM_NOR_STAT_PRESENT_A 1, set MEM_NOR_STAT_PRESENT_B 1,
    .read fun s =>
      if s.b.vlt.lifecycle = 4 ∨ (s.b.vlt.lifecycle = 0 ∧ ¬ x.entropy) then set MSU_BOOT_STAT_PHASE 5
      else whenU (s.b.vlt.lifecycle != 0) (seqs [
        updFw fun u => { u with copyA := if recA then u.copyA else none, copyB := if recB then u.copyB else none },
        romTrial, showBoot,
        .read fun s => if 8 ≤ s.get MSU_RST_CAUSE_LOOP_CNT then recoveryHold
          else selectP0 fun b => s.p0Ok b (if b then okB else okA)])])

/-! ## The protection lock (R147, R156) -/

/-- A valid entry of the PID table that the lock corrects. -/
def State.badCtx (s : State) (i : Nat) : Bool :=
  let lo := s.get (MSU_PID_CTX_PID_LO i)
  let hi := s.get (MSU_PID_CTX_PID_HI i)
  let range := s.flag (MSU_PID_CTX_RANGE i)
  let one := if range then lo ≤ 1 && 1 ≤ hi else lo == 1
  s.flag (MSU_PID_CTX_VALID i) && (
    (!range && lo == 0) || (range && (decide (lo < 3) || decide (hi < lo)))
      || (one && !([48, 51, 52, 55, 56].contains i))
      || (one && (i == 48 || i == 51) && s.flag MSU_BOOT_CFG_IW_SPLIT_A)
      || (one && (i == 52 || i == 55) && s.flag MSU_BOOT_CFG_IW_SPLIT_B)
      || (range && !((decide (i < 48) && i % 4 == 3) || decide (256 ≤ i))))

/-- The corrections at the lock. -/
def lockFix : Upd := seqs [
  forN 512 fun i => .read fun s => whenU (s.badCtx i) (.seq (set (MSU_PID_CTX_VALID i) 0) (inc MSU_BOOT_STAT_LOCK_FIX)),
  forN 23 fun k => .read fun s => whenU (s.get (⟨BLK_OWNER k, 5, 0⟩) == 0) (.seq (set (⟨BLK_OWNER k, 5, 0⟩) 3) (inc MSU_BOOT_STAT_LOCK_FIX))]

/-- The bits of BL fields in a register. -/
def blBits (a : Nat) : Nat := match locate a with
  | none => 0
  | some l => l.row.fs.foldl (fun m f => if f.acc = .bl then m ||| ((2 ^ (f.hi - f.lo + 1) - 1) <<< f.lo) else m) 0

/-- The set-up of R150 as the registers that differ from their reset values: BL fields (the firewall windows and MSU_PID_CTX among them),
BLK_LOCK and MSU_PROT_LOCK. -/
def State.setup (s : State) : List (Nat × Nat) := s.regs.filterMap fun e =>
  let m := if (List.range 27).any fun k => e.1 == BLK_LOCK k then 2 ^ 32 - 1 else if e.1 = MSU_PROT_LOCK then 2 ^ 32 - 1 else blBits e.1
  if m = 0 then none else some (e.1, e.2.toNat &&& m)

/-- MSU_PROT_LOCK.LOCK is set, by a write that PID 0 may make; the vault measures the set-up (R183). -/
def lockSet : Upd := seqs [
  lockFix, set MSU_PROT_LOCK_LOCK 1,
  .read fun s => measExtendBy 8 (fit 48 (Config.setupDigest s.setup)),
  iwLeaveReset 0, iwLeaveReset 1, parLock,
  set (BLK_CTRL_EN 0) 1, set (BLK_STAT_ENABLED 0) 1,
  .read fun s => forN 12 fun h => whenU (s.bitAt CNP_HART_EN h) (hartStart h),
  .read fun s => set MSU_FAULT_STAT_FAULT_N s.moduleSafe.toNat,
  set MSU_BOOT_STAT_PHASE 3,
  wdogShow, flwCopy, updAtLock]

/-! ## The end of a power-down (R97) and the resume (R94) -/

/-- The bits of a register that a power-down keeps: in Suspend the retained set-up (R150), the triplets, the pair, memory's and the
vault's registers, the chain's numbers (R566), the time base's rate (R472), lock bits, fault counts and retirements; in Watch
and Deep Standby the always-on part. -/
def sleepKept (suspend : Bool) (a : Nat) : Nat :=
  let all := 2 ^ 32 - 1
  if alwaysOn a || (onPage 21 a && a != PSM_DIE_EN) then all
  else if ¬ suspend then 0
  else if ((List.range 6).any fun k => onPage k a) || onPage 27 a
      || [FLK_DEV, FLK_CHAIN, TMB_RATE, TMB_CFG, TMB_STAT].contains a then all
  else if (List.range 27).any fun k => a == BLK_LOCK k then all
  else if (List.range 27).any fun k => a == BLK_STAT k then 0xFFFF0000 + 2 ^ (BLK_STAT_LOCKED 0).lo
  else match locate a with
  | some l => if l.cell.isSome ∧ l.off = 0x14 then all
      else if l.cell.isSome ∧ (l.off = 0x18 ∨ l.off = 0x04) then (if l.off = 0x04 then 1 <<< (CELL_STAT_RETIRED 9 0).lo else 1)
      else blBits a
  | none => 0

/-- The module is powered down for target state `t`; the dice that serve Glade stay. -/
def asleep (t : Nat) : Upd := .read fun s =>
  let susp := decide (t = 2)
  let kept (d : Nat) : Bool := t != 4 && s.serves d
  seqs [
    updPsm fun x => { x with dieSaved := s.reg PSM_DIE_EN % 16, trans := none, late := [], latched := 0 },
    forN 4 fun d => whenU ((s.die d).on && !kept d) (dieDown d),
    .act (.regsMap fun a v =>
      if (List.range 4).any fun d => kept d && lswPage d a then v
      else
        let k := BitVec.ofNat 32 (sleepKept susp a)
        (v &&& k) ||| (regDefault a &&& ~~~ k)),
    .act (.memDrop (volatileMem (!susp) false)),
    whenU (!susp) dramLost,
    upd fun b =>
      let w := b.afterReset fun _ => true
      let x := { w with psm := { w.psm with retLost := b.psm.retLost }, gld := b.gld }
      if susp then { x with aia := b.aia, vlt := b.vlt, mem := b.mem, iw := b.iw, par := b.par, tmb := { acc := b.tmb.acc } } else x,
    forN 4 fun d => updDie d fun x => { x with down := false, osc := true },
    set PSM_TRANS_STAT_PHASE 0, set PSM_SLEEP_CONSENT_SAFE_OK 0, raise 21 9,
    set MSU_FAULT_STAT_FAULT_N 0,
    whenU susp (.seq (set MEM_DRAM_STAT_READY 0) (set MEM_DRAM_STAT_SELFREF 1)),
    showLocks, set PSM_STAT_P_SERVICE ((List.range 4).any kept).toNat,
    wdogShow]

/-- POWER_DOWN_COMPLETE (R97 step 5, R98, R99, R112): the target state is reached, Glade applies what it held, and a wake that
arrived at or after step 4 takes effect. `samples` and `fail` are those of a wake that follows. -/
def powerDownComplete (samples : List (Fin 1024)) (fail : Bool) : Upd := .read fun s => match s.b.psm.trans with
  | none => .skip
  | some t =>
    let busy := t = 2 ∧ (s.get (IW_STAT_STATE 0) = 1 ∨ s.get (IW_STAT_STATE 0) = 3 ∨ s.get (IW_STAT_STATE 1) = 1 ∨ s.get (IW_STAT_STATE 1) = 3)
    whenU (s.pdPhase == 3 && !decide busy) (
      let held := s.b.gld.held
      let late := s.b.psm.late
      seqs [
        whenU (t == 2) (seqs [bankFinish, srtWriteBack, forN s.b.mem.retiring.length fun _ => pageRetireDone]),
        asleep t,
        updGld fun x => { x with held := [] },
        if t = 4 then enterDeep else sleepEntered t,
        whenU (t != 4) (forEach held fun h => service h.1 h.2),
        match late with
        | w :: _ => .seq (forEach late fun w => recordWake w.kind w.src w.entry w.code w.id) (fullWake w.src w.val fail)
        | [] => .skip,
        if t = 4 then match (List.range 10).find? (bit s.b.psm.latched) with
          | some i => deepWake i samples fail
          | none => .skip
        else .skip])

/-- A resume from Suspend falls due (R94, R472, R718): it ends in Run, or in a cold boot where its check fails. -/
def resumeRun (fail : Bool) : Upd := .seq (updPsm fun x => { x with resume := none }) (
  if fail then .seq (inc PSM_EVT_CNT_RET_LOST) (askReset 3)
  else seqs [
    set MSU_PWR_STATE_STATE 0, set MSU_PWR_STATE_REQ 0, set MSU_RST_CAUSE_RESUMED 1,
    free fun v => upd fun b => { b with tmb := { b.tmb with acc := b.tmb.acc + v } },
    set MEM_DRAM_STAT_READY 1, set MEM_DRAM_STAT_SELFREF 0,
    set TMB_STAT_ESTIMATED 1, set TMB_STAT_SLEWING 0, set TMB_STAT_DIE_UNSYNC 0,
    .read fun s => setReg PSM_DIE_EN s.b.psm.dieSaved,
    forN 4 dieStart,
    set PSM_STAT_P_SERVICE 0, raise 21 9,
    nmcAwake, isolate true 1, heldHartsGo,
    .read fun s => whenU s.moduleSafe assertFaultN,
    wdogShow])

end Sys2Proof.Machine
end

