-- ==== Sys2Proof/Machine/Access.lean ====
section
/-!
DEFINITION. Reads and writes of registers and memory windows: access codes, ownership, locks, clear-on-read, and what a write
starts (R71 to R84, and the register rules of each chapter).
-/
namespace Sys2Proof.Machine

/-! ## Bits by access code (R78) -/

/-- The bits of a row whose access codes `p` accepts. -/
def Row.bitsOf (r : Row) (p : Acc → Bool) : Nat :=
  r.fs.foldl (fun m f => if p f.acc then m ||| ((2 ^ (f.hi - f.lo + 1) - 1) <<< f.lo) else m) 0

/-- The bits of `v` that `m` does not name. -/
def without (v m : Nat) : Nat := v - (v &&& m)

/-- What a field of a write holds afterwards. -/
def FSpec.store (f : FSpec) (old v : Nat) : Nat :=
  let o := bits old f.hi f.lo
  let n := bits v f.hi f.lo
  match f.acc with
  | .rw => n
  | .sp => n
  | .bl => n
  | .w1c => without o n
  | .w1s => o ||| n
  | .spW1s => o ||| n
  | .sc => o ||| n
  | .spSc => o ||| n
  | _ => o

/-- What a register holds after a write that is accepted, field by field. -/
def Row.store (r : Row) (old v : Nat) : Nat := r.fs.foldl (fun w f => withBits w f.hi f.lo (f.store old v)) old

/-- Whether a write acts on a field with an SP code: it would change the field, or writes a 1 to it. -/
def FSpec.actsSp (f : FSpec) (old v : Nat) : Bool :=
  match f.acc with
  | .sp => bits v f.hi f.lo != bits old f.hi f.lo
  | .spSc => bits v f.hi f.lo != 0
  | .spW1s => bits v f.hi f.lo != 0
  | _ => false

/-- Whether a write acts on a BL field. -/
def FSpec.actsBl (f : FSpec) (old v : Nat) : Bool := f.acc == .bl && bits v f.hi f.lo != bits old f.hi f.lo

/-- Fields that R79 restricts. -/
def Acc.owned : Acc → Bool
  | .rw => true
  | .w1c => true
  | .w1s => true
  | .wo => true
  | .sc => true
  | _ => false

/-! ## Who may write (R79) -/

/-- R79 for unit `k`, and a cell of it. -/
def State.admits (s : State) (k : Nat) (c : Option Nat) (pid : Nat) : Bool :=
  pid == 1 || (pid == 0 && !s.locked)
    || (if 23 ≤ k ∧ k ≤ 27 then pid == 3 else pid == bits (s.reg (BLK_OWNER (if 32 ≤ k then 6 else k))) 5 0)
    || (match c with
      | some c => (match s.cellInst k c with | some n => pid == s.instPid n | none => false)
      | none => false)

/-- A page that takes no access beyond its header, because its block is isolated (R71). -/
def State.closed (s : State) (l : Loc) : Bool :=
  s.flag (BLK_CTRL_ISOLATE (if 32 ≤ l.unit then 6 else l.unit)) && l.unit != 27 && !(23 ≤ l.unit && l.unit ≤ 26)
    && (l.cell.isSome || 0x40 ≤ l.off)

/-- A register that BLK_LOCK covers, once locked (R76). -/
def State.frozenReg (s : State) (l : Loc) : Bool := l.row.lock && bits (s.reg (BLK_LOCK l.unit)) 0 0 == 1

/-- The register's page is IWA's or IWB's second set while the triplet is voted (R238). -/
def State.noSet (s : State) (l : Loc) : Bool :=
  (l.unit == 1 || l.unit == 2) && 0x240 ≤ l.off && l.off < 0x290 && !s.iwSplit (l.unit - 1)

/-- The cause with which a write is refused by access code or ownership, 0 where it is accepted (R78, R79, R82, and the registers
that name their own writers). `adm`: the path has admitted the writer in place of R79 (R615). PID 0 writes MSU_PROT_LOCK after the lock
without a refusal (DESIGN CHOICE between R79 and R84; notes/assumptions/99.md). -/
def State.writeCause (s : State) (adm : Bool) (pid a v : Nat) : Nat :=
  match locate a with
  | none => 0
  | some l =>
    let old := s.reg a
    if s.closed l ∨ s.frozenReg l ∨ s.noSet l then 0
    else if l.row.fs.any (·.actsSp old v) ∧ pid ≠ 1 then 6
    else if l.row.fs.any (·.actsBl old v) ∧ ¬ (pid = 0 ∧ ¬ s.locked) then 7
    else if l.unit = 27 ∧ l.off = 0x104 then (if pid = 0 then 0 else 8)
    else if l.unit = 27 ∧ 0x164 ≤ l.off ∧ l.off < 0x1A4 ∧ l.off % 16 = 4 then
      (if pid = s.get (MSU_WDOG_CFG_PID ((l.off - 0x164) / 16)) then 0 else 8)
    else if (l.unit = 1 ∨ l.unit = 2 ∨ l.unit = 3) ∧ l.cell = none ∧ l.off = 8 then (if pid = 1 then 0 else 8)
    else if l.unit = 4 ∧ l.off = 8 ∧ ¬ bit v 0 ∧ bit old 0 ∧ pid ≠ 1 then 6
    else if l.unit = 14 ∧ 0x200 ≤ l.off ∧ l.off < 0x300 then 0
    else if 16 ≤ l.unit ∧ l.unit ≤ 19 ∧ l.cell.isSome ∧ l.off = 0x24 then
      (let g := 16 * (l.unit - 16) + l.cell.getD 0
       if s.moduleSafe then 5
       else if s.flag (LSW_CH_SAFETY_SAFETY (s.lead g)) ∧ pid ≠ 1 then 8
       else if adm ∨ s.admits l.unit l.cell pid then 0 else 8)
    else if l.row.fs.any (·.acc.owned) ∧ ¬ adm ∧ ¬ s.admits l.unit l.cell pid then 8
    else 0

/-! ## What a write starts -/

/-- What a write of a register is before it is stored: the word that goes on, none where it is silent or acts without being stored,
and what happens instead. -/
def State.preWrite (s : State) (org : Origin) (adm : Bool) (pid a v : Nat) (l : Loc) : Option Nat × Upd :=
  let o := l.off
  let old := s.reg a
  let busy (k c : Nat) : Bool := s.flag (CELL_STAT_ENABLED k c) || s.flag (CELL_STAT_DRAINING k c)
  match l.unit, l.cell with
  | 5, none => if 0x400 ≤ o ∧ o < 0x800 ∧ o % 32 = 0x10 ∧ ¬ adm ∧ ((List.range 256).any fun n =>
      s.instKind n == 6 && s.instArg n % 32 == (o - 0x400) / 32) then (none, .skip) else (some v, .skip)
  | 6, none =>
    let n := s.get IOM_MIG_SEL_INST
    if o = 0x808 then (some (v / 64 * 64), .skip)
    else if o = 0x824 ∨ o = 0x828 ∨ o = 0x82C then
      (none, whenU (s.logWord n 5 / 2 ^ 31 == 0) (putLog n ((o - 0x824) / 4) (v &&& l.row.mask)))
    else if o = 0x800 then (if s.flag IOM_MIG_RES_BUSY && bit v 31 then (none, .skip) else (some v, .skip))
    else (some v, .skip)
  | 6, some n => if o = 0x24 ∨ o = 0x28 then (some (s.iomFilter n o old v), .skip) else (some v, .skip)
  | 7, some p =>
    if etpUnused p o ∨ (18 ≤ p ∧ o = 0x38) then (none, .skip)
    else let (w, rej) := s.etpFilter p o old v
      (w, whenU rej (cfgRej p))
  | 9, some c =>
    if [0x20, 0x24, 0x28, 0x2C, 0x30, 0x34, 0x38, 0x3C, 0xA0, 0xA4, 0xA8, 0xAC, 0xB0, 0xB4, 0xFC].contains o ∧ busy 9 c
    then (none, raiseCan c 10)
    else if o = 0x64 then (none, txRequest c v)
    else if o = 0x68 then (none, txStopHook c v)
    else if o = 0xE0 then (none, txqStopHook c v)
    else (some v, .skip)
  | 10, some c => if (o = 0x20 ∨ o = 0x24) ∧ busy 10 c then (none, raiseCell 10 c 7) else (some v, .skip)
  | 11, none =>
    if (o = 0x100 ∨ o = 0x104 ∨ (0x200 ≤ o ∧ o < 0x210)) ∧ s.flag (BLK_STAT_ENABLED 11) then (none, raise 11 7)
    else if o = 0x130 then (none, sigValHook pid v false)
    else if o = 0x134 then (none, sigValHook pid v true)
    else if o = 0x138 then (none, sigWrHook pid v)
    else if o = 0x13C then (none, updSrt fun x => { x with rdAddr := mapPut 0 x.rdAddr pid (v % 2 ^ 31) })
    else (some v, .skip)
  | 8, none => if s.gclSilent o then (none, .skip) else (some v, .skip)
  | 12, none => if o = 0x110 then (none, tmbAdjHook v) else (some v, .skip)
  | 14, none => if 0x200 ≤ o ∧ o < 0x300 then (none, semHook ((o - 0x200) / 4) org pid v) else (some (s.hbrFilter o old v), .skip)
  | 22, none => if 0x400 ≤ o ∧ o < 0x600 ∧ o % 16 = 12 then (some (dtActStored v), .skip) else (some v, .skip)
  | 27, none =>
    if o = 0x108 then (none, whenU (decide (bits v 10 8 ≤ 4)) (powerRequest (bits v 10 8)))
    else (some v, .skip)
  | k, some c =>
    if 16 ≤ k ∧ k ≤ 19 then
      let g := 16 * (k - 16) + c
      if o = 0x24 then (none, command g v 0 true)
      else if o = 0xAC then (none, whenU (bit v 31) (olonClearHook g))
      else (some v, .skip)
    else (some v, .skip)
  | _, none => (some v, .skip)

/-- WO fields whose written words a later command takes: VLT_KEY_DATA and VLT_MEAS_DIG (R173, R183). -/
def keepsWritten (l : Loc) : Bool := l.unit == 5 && l.cell == none && ((0x140 ≤ l.off && l.off < 0x180) || (0x240 ≤ l.off && l.off < 0x270))

/-- What an accepted write of a header register starts (R71 to R77, R263, R264, R274). -/
def headerHook (l : Loc) (old v : Nat) : Upd :=
  let k := l.unit
  match l.cell, l.off with
  | none, 0x08 => blkCtrlHook k old v
  | none, 0x18 => .read fun s => setReg (BLK_IRQ_STAT k) (s.reg (BLK_IRQ_STAT k) ||| (v % 2 ^ 30))
  | none, 0x28 => errInjHook k old v
  | none, 0x34 => whenU (bit v 0) (set (BLK_STAT_LOCKED k) 1)
  | some c, 0x00 => cellCtrlHook k c old v
  | some c, 0x18 => cellRetireHook k c old v
  | _, _ => .skip

/-- What an accepted write of a register of a region C block starts. -/
def hookC (l : Loc) (pid a old v : Nat) : Upd :=
  let o := l.off
  match l.unit, l.cell with
  | 0, _ => if o = 0x110 then hartEnHook old else whenU (decide (0x100 ≤ o ∧ o < 0x10C)) (cluClkHook ((o - 0x100) / 4))
  | 1, _ => iwHook 0 o
  | 2, _ => iwHook 1 o
  | 3, _ => whenU (o == 0x110 || o == 0x114) (parMapHook a old)
  | 4, _ => if o = 0x200 then updCmdHook pid v else whenU (o == 0x218) updConfirmHook
  | 5, none =>
    if o = 0x100 then slotCtrlHook pid v
    else if o = 0x190 then lcCmdHook pid v
    else if o = 0x200 then measCtrlHook pid v
    else whenU (decide (0x400 ≤ o ∧ o < 0x800 ∧ o % 32 = 8)) (ringCfgHook ((o - 0x400) / 32) old)
  | 6, some n =>
    if o = 0x20 then instBindHook n old v
    else if o = 0x24 then ownerHook n
    else if o = 0x28 then showPidOk n
    else whenU (o == 0x34) (instCtrlHook n pid v)
  | 6, none => whenU (o == 0x800 && bit v 31) (.read fun s => seqs [
      set IOM_MIG_CMD_GO 0, set IOM_MIG_RES_BUSY 1, set IOM_MIG_RES_OP (s.get IOM_MIG_CMD_OP),
      set IOM_MIG_RES_INST (s.get IOM_MIG_CMD_INST)])
  | 33, _ => whenU (decide (o % 16 = 4 ∧ o < 0x40)) (delivHook ((a - 0x2B401000) / 0x80) (o / 16) v)
  | _, _ => .skip
where
  iwHook (x o : Nat) : Upd :=
    if o = 0x10C then coreCtrlHook x old v
    else if o = 0x180 ∨ o = 0x280 then claimHook x ((o - 0x180) / 256) v
    else whenU (decide (0x400 ≤ o ∧ o < 0x480 ∧ o % 32 = 0x14)) (iwDmaHook x ((o - 0x400) / 32) v)

/-- What an accepted write of a register of a region N block starts. -/
def hookN (l : Loc) (pid old v : Nat) : Upd :=
  let o := l.off
  match l.unit, l.cell with
  | 7, some p =>
    let q := (o - 0x500) / 32
    if o = 0x2C then txThrHook p
    else if 0x200 ≤ o ∧ o < 0x480 ∧ o % 32 = 0 then saHook p ((o - 0x200) / 32) pid v
    else if 0x500 ≤ o ∧ o < 0x600 then
      (match o % 32 with
      | 0x04 => ringEnHook p q v
      | 0x14 => .seq (ringEnHook p (8 + q) v) (whenU (bit v 31) (rxTailHook p q))
      | 0x18 => rxTailHook p q
      | _ => .skip)
    else whenU (o == 0x30 && !bit v 31) (lpiLeave p)
  | 8, _ =>
    if o = 0x104 then tblCmdHook v
    else if o = 0x120 then swcDrainHook v
    else if o = 0x12C then pmapHook 8 old
    else if 0x140 ≤ o ∧ o < 0x160 then pmapHook ((o - 0x140) / 4) old
    else if 0xB00 ≤ o ∧ o < 0xB00 + 32 * 25 then
      (match o % 32 with | 0 => gclCfgHook ((o - 0xB00) / 32) v | 0x10 => gclCtrlHook ((o - 0xB00) / 32) v | _ => .skip)
    else .skip
  | 9, none => whenU (o == 0x108) (canTsSyncHook v)
  | 9, some c =>
    (match o with
    | 0x3C => canTsCfgHook c old
    | 0x50 => canBoCfgHook c v old
    | 0x54 => canBoCtrlHook c v
    | 0xCC => rxNewHook c v 0
    | 0xD0 => rxNewHook c v 32
    | 0xDC => txqPush c
    | 0xE4 => rxRelease c v
    | _ => .skip)
  | 10, some n => if o = 0x28 then linSchedHook n v old else whenU (o == 0x2C) (linCtrlHook n v)
  | 11, _ =>
    if 0x400 ≤ o ∧ o < 0x500 then srtKeyHook ((o - 0x400) / 4) pid v else
    (match o with
    | 0x210 => epochHook v
    | 0x228 => shdPutHook
    | 0x230 => shdClearHook
    | 0x244 => drainCtrlHook v
    | 0x250 => rcPreloadHook v
    | 0x25C => rcInvHook
    | 0x2A0 => rtRdHook v
    | _ => .skip)
  | 12, _ =>
    (match o with
    | 0x120 => tmbStepHook v
    | 0x134 => canCapHook v
    | 0x158 => tsPopHook
    | 0x160 => ptpTxHook v
    | _ => .skip)
  | 13, none => whenU (o == 0x11C) (enumCtrlHook v)
  | 13, some c => whenU (o == 0x24) (linkCtrlHook c v)
  | 14, _ => whenU (decide (0x700 ≤ o ∧ o < 0x700 + 8 * 257 ∧ o % 8 = 0)) (lateRingHook ((o - 0x700) / 8) old v)
  | 15, _ =>
    if o = 0x100 then flwCopy
    else if o = 0x108 then .seq (set NMC_ISO_CTRL_ISO 0) (.seq (set NMC_ISO_CTRL_REL 0) (isoCtrlHook v))
    else if o = 0x10C then isoRel3Hook v
    else if o = 0x144 then nmLogPopHook
    else if 0x400 ≤ o ∧ o < 0x400 + 64 * 36 then
      (let c := (o - 0x400) / 64
       match o % 64 with
       | 0x14 => nmReqHook c v old
       | 0x18 => nmSreqHook c v old
       | 0x38 => ignClearHook c
       | _ => .skip)
    else .skip
  | _, _ => .skip

/-- What an accepted write of a register of region P, region A or the MSU starts. -/
def hookP (l : Loc) (old v : Nat) : Upd :=
  let o := l.off
  match l.unit, l.cell with
  | 20, _ => whenU (decide (0x400 ≤ o ∧ o < 0x400 + 32 * 48)) (sniConfigHook ((o - 0x400) / 32) (o % 32 / 4) old v)
  | 21, _ => whenU (o == 0x124) dieEnHook
  | 22, none =>
    (match o with
    | 0x104 => wakeReasonHook v
    | 0x10C => wakeAckHook
    | 0x118 => fwDisHook 0 v
    | 0x11C => fwDisHook 32 v
    | 0x120 => storeCtrlHook v
    | _ => whenU (decide (0x400 ≤ o ∧ o < 0x600)) conditionsFall)
  | 27, _ =>
    if o = 0x104 then whenU (bit v 0 && !bit old 0) (.read fun s => if s.b.fab.waiting.isEmpty then lockSet else updFab fun f => { f with lockDue := true })
    else if o = 0x144 then rstCtrlHook v
    else if o = 0x14C then safeCtrlHook v
    else if 0x164 ≤ o ∧ o < 0x1A4 ∧ o % 16 = 4 then wdogKickHook ((o - 0x164) / 16) v
    else if 0x400 ≤ o ∧ o < 0xC00 then
      (let i := (o - 0x400) / 4
       if i < 48 then showHvpid (i / 4) else whenU (decide (256 ≤ i)) (showPidOk (i - 256)))
    else .skip
  | k, some c => whenU (decide (16 ≤ k ∧ k ≤ 19)) (
      let g := 16 * (k - 16) + c
      if o = 0x20 then cfgHook g old
      else if o = 0x34 then bindHook g
      else .read fun s => whenU ((o == 0x64 && bits (s.reg (LSW_PR_WIRE g)) 3 0 != bits old 3 0) -- CODE and the custom fields (R314)
          || (o == 0x68 && s.reg (LSW_PR_WIRE_CUST0 g) != old) || (o == 0x6C && s.reg (LSW_PR_WIRE_CUST1 g) != old)) (wireRestart g))
  | _, _ => .skip

/-- An accepted write: stored field by field, then what it starts. -/
def applyWrite (org : Origin) (adm : Bool) (pid a v : Nat) : Upd := .read fun s => match locate a with
  | none => .skip
  | some l =>
    if s.closed l ∨ s.frozenReg l ∨ s.noSet l then .skip
    else
      let old := s.reg a
      let (w, u) := s.preWrite org adm pid a v l
      .seq u (match w with
        | none => .skip
        | some w => seqs [
            setReg a (let n := l.row.store old w
              if keepsWritten l then w else if l.unit = 27 ∧ l.off = 0x104 then old else n),
            headerHook l old w, hookC l pid a old w, hookN l pid old w, hookP l old w])

/-- A write reaches a register: its outcome goes to the requester, a refusal is recorded (R64, R82). -/
def regWrite (org : Origin) (adm : Bool) (pid a v : Nat) : Upd := .read fun s =>
  let c := s.writeCause adm pid a v
  .seq (updFab fun f => { f with resp := { ok := c == 0, cause := c } })
    (if c = 0 then applyWrite org adm pid a v else violation pid a 1 c)

/-! ## Reads (R78, R80) -/

/-- The field that reading a register clears though it is not RC. -/
def readClears (l : Loc) (a : Nat) : Option Fld :=
  let o := l.off
  match l.unit, l.cell with
  | 1, _ => if o = 0x11C then some (IW_TCM_ERR_KIND 0) else none
  | 2, _ => if o = 0x11C then some (IW_TCM_ERR_KIND 1) else none
  | 4, _ => if o = 0x114 then some MEM_ERR_ADDR_HI_KIND else none
  | 9, some c => if o = 0xF8 then some (CAN_MR_ERR_KIND c) else none
  | 11, _ => if o = 0x260 then some SRT_RT_ERR_KIND else none
  | 13, none => if o = 0x12C then some FLK_CPL_ERR_KIND else none
  | 14, _ => if o = 0x118 then some HBR_RD_ERR_KIND else none
  | 27, _ => if o = 0x134 then some ⟨a, 31, 28⟩ else none
  | k, none => if 23 ≤ k ∧ k ≤ 26 ∧ o = 0x134 then some ⟨a, 31, 28⟩
    else if 16 ≤ k ∧ k ≤ 19 ∧ o = 0x100 then some (LSW_DIE_STAT_HB_LOST (k - 16)) else none
  | _, _ => none

/-- A read of a register that holds what it reads: WO fields read 0, RC fields and those of `readClears` are cleared; the low word of a
64-bit counter latches its high word, which the register after it holds, and clears both (R80). -/
def storedRead (l : Loc) (a : Nat) (k : Nat → Upd) : Upd := .read fun s =>
  let v := s.reg a
  let out := without v (l.row.bitsOf (· == .wo))
  if l.row.fs.any (·.acc == .rc64Lo) then seqs [
    setReg (a + 4) (mapGet 0 s.b.fab.high a), setReg a 0,
    updFab fun f => { f with high := mapPut 0 f.high a 0 }, k out]
  else
    let rc := l.row.bitsOf (· == .rc)
    seqs [
      whenU (rc != 0) (setReg a (without v rc)),
      match readClears l a with | some f => set f 0 | none => .skip,
      k out]

/-- The levels of FLK_SB_STAT: a wire that this module drives low reads 0; what other devices drive is outside the module. -/
def sidebandRead (s : State) (k : Nat → Upd) : Upd := free fun v =>
  let own := s.get FLK_SB_STAT_OWN_IRQ
  let fault := s.chainMode != 0 && s.flag MSU_FAULT_STAT_FAULT_N
  k (own * 2 ^ 31 + (if own = 1 then 0 else v % 2 * 8) + (if fault then 0 else v / 2 % 2 * 4) + s.get FLK_SB_STAT_SYNC * 2
    + (s.b.psm.flDrive || Machine.bit s.b.psm.levels 9).toNat)

/-- A read of a located register by `pid`. -/
def locRead (org : Origin) (pid a : Nat) (l : Loc) (k : Nat → Upd) : Upd := .read fun s =>
  let o := l.off
  match l.unit, l.cell with
  | u, none =>
    if o = 0x10 ∧ u ≤ 27 then k (s.blkIrqStat u) else
    (match u with
    | 1 => iwRead 0 s
    | 2 => iwRead 1 s
    | 4 => if o = 0x220 then k (withBits (s.reg a) 9 0 s.trialLeft) else storedRead l a k
    | 5 => if 0x1A0 ≤ o ∧ o < 0x1B0 then k (Config.unitSerial ((o - 0x1A0) / 4)).toNat else storedRead l a k
    | 6 =>
      let n := s.get IOM_MIG_SEL_INST
      if 0x824 ≤ o ∧ o < 0x838 then k (s.logWord n ((o - 0x824) / 4))
      else if o = 0x840 then k (s.logWord n 5)
      else storedRead l a k
    | 8 => if noGcl o then k 0 else storedRead l a k
    | 11 =>
      if o = 0x130 then k (mapGet 0 s.b.srt.stage pid % 2 ^ 32)
      else if o = 0x134 then k (mapGet 0 s.b.srt.stage pid / 2 ^ 32)
      else if o = 0x13C then k (mapGet 0 s.b.srt.rdAddr pid)
      else if 0x140 ≤ o ∧ o < 0x150 then sigRdData pid ((o - 0x140) / 4) k
      else storedRead l a k
    | 12 =>
      if o = 0x100 then .seq (updTmb fun x => { x with latch := s.devTime / 2 ^ 32 % 2 ^ 32 }) (k (s.devTime % 2 ^ 32))
      else if o = 0x104 then k s.b.tmb.latch
      else if o = 0x110 then k s.adjRead
      else storedRead l a k
    | 13 => if o = 0x124 then sidebandRead s k else storedRead l a k
    | 15 => if 0x400 ≤ o ∧ o < 0x400 + 64 * 36 ∧ o % 64 = 0x34 then k (s.nmAwake ((o - 0x400) / 64)) else storedRead l a k
    | 21 => if o = 0x104 ∨ o = 0x108 then free fun v => k (v % 2 ^ 32) else storedRead l a k -- measured voltages (R104)
    | 14 =>
      if 0x200 ≤ o ∧ o < 0x300 then
        (let i := (o - 0x200) / 4
         k (withBits (s.reg a) 30 30 (s.flag (HBR_SEM_HELD i) && s.semOwner i == ownerOf org pid).toNat))
      else storedRead l a k
    | _ => storedRead l a k)
  | 7, some p => if etpUnused p o ∨ (18 ≤ p ∧ o = 0x38) then k 0 else headRead 7 p s
  | 9, some c => if o = 0x40 then k (s.canTs c) else if o = 0x58 then canBoRead c k else headRead 9 c s
  | u, some c => headRead u c s
where
  iwRead (x : Nat) (s : State) : Upd :=
    let o := l.off
    if s.noSet l then k 0
    else if (0x160 ≤ o ∧ o < 0x180) ∨ (0x260 ≤ o ∧ o < 0x280) then k (s.iwPend x ((o - 0x160) / 256) (o % 32 / 4))
    else if o = 0x180 ∨ o = 0x280 then claimRead x ((o - 0x180) / 256) k
    else storedRead l a k
  headRead (u c : Nat) (s : State) : Upd :=
    if l.off = 8 then k (s.reg a % 2 ^ 31 + (if s.reg (CELL_ERR_STAT u c) = 0 then 0 else 2 ^ 31)) else storedRead l a k

/-- A read of the register at `a`; an offset without a register, or beyond the header of an isolated block, reads 0. -/
def regRead (org : Origin) (pid a : Nat) (k : Nat → Upd) : Upd := .read fun s => match locate a with
  | none => k 0
  | some l => if s.closed l then k 0 else locRead org pid a l k

/-! ## Memory windows (R59, R109, R387, R409, R463, R486) -/

/-- The block and cell whose memory window holds an address. -/
def windowOf (a : Nat) : Nat × Option Nat :=
  if a < 0x39000000 then (8, none)
  else if a < 0x39800000 then (9, some ((a - 0x39000000) / 0x20000))
  else if a < 0x3A000000 then (10, some ((a - 0x39800000) / 0x1000))
  else if a < 0x50000000 then (11, none)
  else (22, none)

/-- The cause with which a write in a window is refused. Glade's RAM names no writers. -/
def State.windowCause (s : State) (adm : Bool) (pid a : Nat) : Nat :=
  let (k, c) := windowOf a
  if adm ∨ k = 22 ∨ s.flag (BLK_CTRL_ISOLATE k) ∨ s.admits k c pid then 0 else 8

/-- A word of a pending transmit slot takes no writes (R400). -/
def State.slotHeld (s : State) (c w : Nat) : Bool := (s.pendingSlots c).any fun i =>
  let e := elemWord s c 4 (s.slotNo c i)
  decide (e ≤ w ∧ w < e + secWords s c 4)

/-- The bits of a window's word that its layout defines, where a fixed address gives the word one layout: a frame and a schedule entry of
LIN (R5, R409, R410). -/
def windowMask (a : Nat) : Nat :=
  if a < 0x39800000 ∨ 0x3A000000 ≤ a then 0xFFFFFFFF
  else if a % 0x1000 < 0x400 then (match a % 16 with | 0 => 0xF000000F | 4 => 0x80FF000F | _ => 0xFFFFFFFF)
  else 0xE03F0FFF

/-- A word is written in a window. -/
def windowWrite (a w : Nat) : Upd := .read fun s =>
  let (k, c) := windowOf a
  let v := w &&& windowMask a
  if s.flag (BLK_CTRL_ISOLATE k) then .skip
  else match k, c with
  | 9, some c => if s.slotHeld c (a % 0x20000 / 4) then raiseCan c 29 else store a 4 v
  | 11, _ => if s.srtSilent a then srtSilentHook a else .seq (store a 4 v) (srtWindowHook a (s.load a 4) v)
  | 8, _ => if s.swcSilent a then .skip else .seq (store a 4 v) (swcWindowHook a)
  | _, _ => store a 4 v

/-- A word is read in a window. -/
def windowRead (pid a : Nat) (k : Nat → Upd) : Upd := .read fun s =>
  let (u, c) := windowOf a
  if s.flag (BLK_CTRL_ISOLATE u) then k 0
  else match u, c with
  | 9, some c => .seq (mramReadEffect c pid (a % 0x20000 / 4)) (k (s.load a 4))
  | _, _ => k (s.load a 4)

/-! ## Instance pages (R612 to R616) -/

/-- The owner of instance `n` makes the access (R612); a host that owns one as a chain device is device 0 (R693). -/
def State.isOwner (s : State) (n : Nat) (org : Origin) (pid : Nat) : Bool :=
  s.flag (IOM_INST_STAT_BOUND n) && pid == s.instPid n && (match s.okind n, org with
    | 1, .loc => true
    | 2, .host f => f == s.get (IOM_INST_OWNER_VF n)
    | 3, .chain d _ => d == s.get (IOM_INST_OWNER_DEV n)
    | 3, .host 0 => s.get (IOM_INST_OWNER_DEV n) == 0
    | _, _ => false)

/-- The target of an access to function-space address `x` of instance `n` (R615): its fabric address, and whether it takes writes. -/
def State.funcTarget (s : State) (n x : Nat) : Option (Nat × Bool) :=
  let arg := s.instArg n
  match s.instKind n with
  | 1 =>
    let c := arg % 16
    if x < 0x200 then some (cellBase 9 c + x, true)
    else if 0x20000 ≤ x ∧ x < 0x40000 then some (mram c + (x - 0x20000), true) else none
  | 2 =>
    let c := arg % 16
    if x < 0x100 then some (cellBase 10 c + x, true)
    else if 0x1000 ≤ x ∧ x < 0x2000 then some (0x39800000 + 0x1000 * c + (x - 0x1000), true) else none
  | 3 => if x < 0x1000 ∧ bit arg (x / 0x100) then some (cellBase (16 + bits arg 17 16) (x / 0x100) + x % 0x100, true) else none
  | 4 => if x < 0x20 then some (cellBase 7 (20 + bits arg 8 8) + 0x500 + 32 * (arg % 8) + x, true) else none
  | 5 => if x < 0x20 then some (unitBase 11 + 0x130 + x, true) else none
  | 6 => match x with
    | 0x0 => some (VLT_RING_HEAD (arg % 32), true)
    | 0x4 => some (VLT_RING_TAIL (arg % 32), false)
    | 0x8 => some (VLT_RING_STAT (arg % 32), true)
    | _ => none
  | 7 => match x with
    | 0x0 => some (GLD_WAKE_REASON, false)
    | 0x4 => some (GLD_WAKE_ID, false)
    | 0x8 => some (GLD_FIRED, false)
    | 0xC => some (GLD_CELL_STATE, false)
    | _ => none
  | _ => none

/-- The target leads to a word: a register or a word of a window. -/
def targetMapped (t : Nat) : Bool := match placeOf t with | .window => true | .page _ => true | _ => false

/-- The target of a function-window access lies in an isolated region (R65). -/
def State.funcShut (s : State) (n x : Nat) : Bool := match s.funcTarget n x with
  | some (t, _) => s.shut t
  | none => false

/-- The cause with which a function-window write is refused at its target. -/
def State.funcCause (s : State) (n x v : Nat) : Nat := if s.funcShut n x then 5 else match s.funcTarget n x with
  | none => 0
  | some (_, false) => 0
  | some (t, true) => match placeOf t with
    | .page _ => s.writeCause true (s.instPid n) t v
    | .window => s.windowCause true (s.instPid n) t
    | _ => 1

/-- A write through the function window. -/
def funcWrite (org : Origin) (n x v : Nat) : Upd := .read fun s =>
  let c := s.funcCause n x v
  if c = 1 ∨ s.funcShut n x then (match s.funcTarget n x with | some (t, _) => refuse (s.instPid n) t 1 c | none => .skip)
  else if c ≠ 0 then (match s.funcTarget n x with | some (t, _) => violation (s.instPid n) t 1 c | none => .skip)
  else match s.funcTarget n x with
  | some (t, true) => (match placeOf t with
    | .page _ => applyWrite org true (s.instPid n) t v
    | .window => windowWrite t v
    | _ => .skip)
  | _ => .skip

/-- A read through the function window; none where the target refuses it. -/
def funcRead (org : Origin) (n x : Nat) (k : Option Nat → Upd) : Upd := .read fun s => match s.funcTarget n x with
  | none => k (some 0)
  | some (t, _) => if s.funcShut n x then .seq (refuse (s.instPid n) t 0 5) (k none) else match placeOf t with
    | .page _ => regRead org (s.instPid n) t (k ∘ some)
    | .window => windowRead (s.instPid n) t (k ∘ some)
    | _ => .seq (refuse (s.instPid n) t 0 1) (k none)

/-- The instance whose page holds an address, and the offset in the page. -/
def pageInst (a : Nat) : Nat × Nat := (a % 0x400000 / 0x4000, a % 0x4000)

/-- The cause with which an access to an instance page is refused (R614, R615). -/
def State.ipCause (s : State) (org : Origin) (pid a v : Nat) (wr : Bool) : Nat :=
  let (n, o) := pageInst a
  if ¬ (pid = 1 ∨ pid = 3 ∨ s.isOwner n org pid) then 8
  else if s.flag (BLK_CTRL_ISOLATE 6) ∨ o < 0x2000 then 0
  else if ¬ wr then (if s.funcShut n (s.get (IOM_IP_APER_APER n) * 0x2000 + (o - 0x2000)) then 5 else 0)
  else if s.isOwner n org pid ∧ ¬ s.ownerLive n then 0
  else s.funcCause n (s.get (IOM_IP_APER_APER n) * 0x2000 + (o - 0x2000)) v

/-- FUNC_DOORBELL (R616). -/
def funcDb (n v : Nat) : Upd := .read fun s =>
  let arg := s.instArg n
  let put (t w : Nat) : Upd := if s.shut t then refuse (s.instPid n) t 1 5 else applyWrite .loc true (s.instPid n) t w
  match s.instKind n with
  | 4 => put (if bit v 31 then ETP_QRX_TAIL (20 + bits arg 8 8) 0 (arg % 8) else ETP_QTX_TAIL (20 + bits arg 8 8) 0 (arg % 8)) (v % 2 ^ 12)
  | 6 => put (VLT_RING_TAIL (arg % 32)) (v % 2 ^ 10)
  | _ => .skip

/-- An accepted write to an instance page. -/
def ipWrite (org : Origin) (pid a v : Nat) : Upd := .read fun s =>
  let (n, o) := pageInst a
  if s.flag (BLK_CTRL_ISOLATE 6) ∨ (s.isOwner n org pid ∧ ¬ s.ownerLive n) then .skip
  else if o < 0x40 then whenU (!s.flag (IOM_INST_STAT_TOMGR_FULL n)) (setReg a v)
  else if 0x2000 ≤ o then funcWrite org n (s.get (IOM_IP_APER_APER n) * 0x2000 + (o - 0x2000)) v
  else match o with
  | 0x80 => ipDbHook n pid v
  | 0x88 => set (IOM_IP_APER_APER n) (v % 32)
  | 0x8C => funcDb n v
  | 0x94 => applyWrite org true pid (HBR_LATE_WRITE_RING n) v
  | 0x98 => applyWrite org true pid (HBR_LATE_WRITE_IDX n) v
  | _ => .skip

/-- A read of an instance page; none where the function's target refuses it. A read of the write-sync word starts a barrier, which
answers when it completes. -/
def ipRead (org : Origin) (a : Nat) (k : Option Nat → Upd) : Upd := .read fun s =>
  let (n, o) := pageInst a
  if s.flag (BLK_CTRL_ISOLATE 6) then k (some 0)
  else if 0x2000 ≤ o then funcRead org n (s.get (IOM_IP_APER_APER n) * 0x2000 + (o - 0x2000)) k
  else match o with
  | 0x84 => k (some (s.ipStat n))
  | 0x94 => k (some (s.reg (HBR_LATE_WRITE_RING n)))
  | 0x98 => k (some (s.reg (HBR_LATE_WRITE_IDX n)))
  | _ => k (some (if o < 0x80 ∨ o = 0x88 then s.reg a else 0))

end Sys2Proof.Machine
end

