-- ==== Sys2Proof/Machine/Aia.lean ====
section
/-!
DEFINITION. Canopy's interrupt controllers (R199, R200): the two APLIC domains in MSI delivery mode with the wired sources, and the IMSIC
files that take messages. The spec gives the domains, the files, their addresses and the sources; the registers within are those of
the RISC-V Advanced Interrupt Architecture that it names (PRESUMED; notes/assumptions/84.md).
-/
namespace Sys2Proof.Machine

def updAia (f : Aia → Aia) : Upd := upd fun b => { b with aia := f b.aia }

/-! ## IMSIC files -/

/-- Identity `i` becomes pending in file `f` of the twelve harts' nine. A file has the identities 1 to 2047 (R199). -/
def imsicSet (f i : Nat) : Upd := whenU (decide (1 ≤ i ∧ i ≤ 2047 ∧ f < 108)) (updAia fun x =>
  let l := mapGet [] x.files f
  { x with files := if l.contains i then x.files else mapPut [] x.files f (l ++ [i]) })

/-- A word with its bytes in reverse order. -/
def swap32 (v : Nat) : Nat := v % 256 * 2 ^ 24 + v / 256 % 256 * 2 ^ 16 + v / 2 ^ 16 % 256 * 256 + v / 2 ^ 24 % 256

/-- The file whose page holds an address, and the offset in the page. -/
def imsicOf (a : Nat) : Option (Nat × Nat) :=
  if 0x28100000 ≤ a ∧ a < 0x2810C000 then some (9 * ((a - 0x28100000) / 0x1000), a % 0x1000)
  else if 0x28400000 ≤ a ∧ a < 0x28460000 then some (9 * ((a - 0x28400000) / 0x8000) + 1 + (a - 0x28400000) % 0x8000 / 0x1000, a % 0x1000)
  else none

/-! ## APLIC domains -/

/-- A stored word of domain `d`. -/
def State.aplic (s : State) (d o : Nat) : Nat := mapGet 0 s.b.aia.word (0x4000 * d + o)
def aplicPut (d o v : Nat) : Upd := updAia fun x => { x with word := mapPut 0 x.word (0x4000 * d + o) v }

/-- The source mode of source `i` in domain `d`: 0 inactive, 1 detached, 4 and 5 rising and falling edge, 6 and 7 high and low level. A
source that the machine domain does not delegate is inactive in the supervisor domain. -/
def State.srcMode (s : State) (d i : Nat) : Nat :=
  let m := s.aplic 0 (4 * i)
  if d = 0 then (if bit m 10 then 0 else m % 8) else if bit m 10 then s.aplic 1 (4 * i) % 8 else 0

/-- The line of source `i`, inverted in the modes of a falling edge and a low level. Sources 65 to 1023 are not connected (R200). -/
def State.rectified (s : State) (d i : Nat) : Bool :=
  let m := s.srcMode d i
  decide (4 ≤ m) && (s.b.aia.lines.contains i != (m == 5 || m == 7))

/-- A flag of a source in a list. -/
def flagPut (l : List Nat) (i : Nat) (on : Bool) : List Nat := if on then (if l.contains i then l else l ++ [i]) else l.filter (· != i)

/-- Source `i` of domain `d` becomes pending by a write, or ceases to be: a level source only as its line allows. -/
def aplicPend (d i : Nat) (on : Bool) : Upd := .read fun s =>
  let m := s.srcMode d i
  whenU (m != 0 && decide (1 ≤ i) && (!on || m < 6 || s.rectified d i))
    (updAia fun x => { x with pend := flagPut x.pend (1024 * d + i) on })

/-- Source `i` of domain `d` is enabled or disabled. -/
def aplicEn (d i : Nat) (on : Bool) : Upd := .read fun s => whenU (s.srcMode d i != 0 && decide (1 ≤ i))
  (updAia fun x => { x with en := flagPut x.en (1024 * d + i) on })

/-- A domain's message: to the hart's machine file from the machine domain, to its file `g` from the supervisor domain. -/
def aplicMsi (d hart g id : Nat) : Upd := whenU (decide (hart < 12 ∧ g < 8)) (imsicSet (9 * hart + (if d = 0 then 0 else 1 + g)) id)

/-- Pending enabled sources of an enabled domain are forwarded, lowest first. -/
def aplicForward (d : Nat) : Upd := .read fun s => whenU (bit (s.aplic d 0) 8) (
  forEach ((s.b.aia.pend.filter fun p => p / 1024 == d && s.b.aia.en.contains p)) fun p =>
    let t := s.aplic d (0x3000 + 4 * (p % 1024))
    .seq (updAia fun x => { x with pend := x.pend.filter (· != p) }) (aplicMsi d (bits t 31 18) (bits t 17 12) (bits t 10 0)))

/-- The wired lines changed: edges and levels make sources pending. -/
def aiaLines (now : List Nat) : Upd := .read fun s =>
  let moved := (now.filter fun i => !s.b.aia.lines.contains i) ++ s.b.aia.lines.filter fun i => !now.contains i
  seqs [updAia fun x => { x with lines := now },
    forN 2 fun d => forEach moved fun i => .read fun t =>
      if t.rectified d i then updAia fun x => { x with pend := flagPut x.pend (1024 * d + i) true }
      else whenU (decide (6 ≤ t.srcMode d i)) (updAia fun x => { x with pend := flagPut x.pend (1024 * d + i) false })]

/-- The wired sources of R200 reach the APLIC, and what is pending leaves it. -/
def aiaWork : Upd := .read fun s =>
  let now := (List.range 65).filter s.wiredLine
  .seq (whenU (now != s.b.aia.lines) (aiaLines now)) (.read fun t => whenU (!t.b.aia.pend.isEmpty) (.seq (aplicForward 0) (aplicForward 1)))

/-- A write of sourcecfg: the modes 2 and 3 and a delegation from the supervisor domain, which has no child, leave the source inactive. An
inactive source is neither pending nor enabled. -/
def sourceCfg (d i v : Nat) : Upd := .read fun s =>
  let sm := if v % 8 = 2 ∨ v % 8 = 3 then 0 else v % 8
  let w := if bit v 10 then (if d = 0 then 0x400 else 0) else sm
  whenU (d == 0 || bit (s.aplic 0 (4 * i)) 10) (seqs [
    aplicPut d (4 * i) w,
    forN 2 fun e => .read fun t => whenU (t.srcMode e i == 0) (updAia fun x =>
      { x with pend := x.pend.filter (· != 1024 * e + i), en := x.en.filter (· != 1024 * e + i) }),
    .read fun t => whenU (decide (6 ≤ t.srcMode d i) && t.rectified d i) (updAia fun x => { x with pend := flagPut x.pend (1024 * d + i) true })])

/-- Every source whose bit a word of 32 sources has. -/
def eachBit (k v : Nat) (f : Nat → Upd) : Upd := forN 32 fun j => whenU (bit v j) (f (32 * k + j))

/-- A write at offset `o` of domain `d`. -/
def aplicWrite (d o v : Nat) : Upd :=
  if o = 0 then aplicPut d 0 (v &&& 0x100)
  else if o < 0x1000 then sourceCfg d (o / 4) v
  else if 0x1C00 ≤ o ∧ o < 0x1C80 then eachBit ((o - 0x1C00) / 4) v fun i => aplicPend d i true
  else if o = 0x1CDC ∨ o = 0x2000 then aplicPend d (v % 1024) true
  else if o = 0x2004 then aplicPend d (swap32 v % 1024) true
  else if 0x1D00 ≤ o ∧ o < 0x1D80 then eachBit ((o - 0x1D00) / 4) v fun i => aplicPend d i false
  else if o = 0x1DDC then aplicPend d (v % 1024) false
  else if 0x1E00 ≤ o ∧ o < 0x1E80 then eachBit ((o - 0x1E00) / 4) v fun i => aplicEn d i true
  else if o = 0x1EDC then aplicEn d (v % 1024) true
  else if 0x1F00 ≤ o ∧ o < 0x1F80 then eachBit ((o - 0x1F00) / 4) v fun i => aplicEn d i false
  else if o = 0x1FDC then aplicEn d (v % 1024) false
  else if o = 0x3000 then aplicMsi d (bits v 31 18) 0 (bits v 10 0)
  else whenU (decide (0x3000 < o)) (aplicPut d o (v &&& 0xFFFFF7FF))

/-- A word of a domain as it reads. -/
def State.aplicRead (s : State) (d o : Nat) : Nat :=
  let word (k : Nat) (p : Nat → Bool) : Nat := (List.range 32).foldl (fun m j => if p (32 * k + j) then m + 2 ^ j else m) 0
  if o = 0 then 0x80000004 + s.aplic d 0
  else if o < 0x1000 then (if d = 0 ∨ bit (s.aplic 0 o) 10 then s.aplic d o else 0)
  else if 0x1C00 ≤ o ∧ o < 0x1C80 then word ((o - 0x1C00) / 4) fun i => s.b.aia.pend.contains (1024 * d + i)
  else if 0x1D00 ≤ o ∧ o < 0x1D80 then word ((o - 0x1D00) / 4) fun i => s.rectified d i
  else if 0x1E00 ≤ o ∧ o < 0x1E80 then word ((o - 0x1E00) / 4) fun i => s.b.aia.en.contains (1024 * d + i)
  else if 0x3000 < o ∧ s.srcMode d ((o - 0x3000) / 4) ≠ 0 then s.aplic d o
  else 0

/-! ## Accesses of the memory window of CNP (R199) -/

/-- A word written to the controllers: a message for a file, or a register of a domain. -/
def aiaWrite (a v : Nat) : Upd := match imsicOf a with
  | some (f, 0) => imsicSet f v
  | some (f, 4) => imsicSet f (swap32 v)
  | some _ => .skip
  | none => .seq (aplicWrite (a / 0x4000 % 2) (a % 0x4000) v) (.seq (aplicForward 0) (aplicForward 1))

/-- A word read from the controllers; the files' pages read 0. -/
def State.aiaRead (s : State) (a : Nat) : Nat := match imsicOf a with
  | some _ => 0
  | none => s.aplicRead (a / 0x4000 % 2) (a % 0x4000)

end Sys2Proof.Machine
end

