-- ==== Sys2Proof/Machine/Request.lean ====
section
/-!
DEFINITION. Requests at the fabric: the checks of R63 and what serves them, atomics, memory and window errors, requests that wait,
and the commands of 02_architecture.md.
-/
namespace Sys2Proof.Machine

/-- What the requester receives (R64). -/
def answer (r : Resp) : Upd := updFab fun f => { f with resp := r }

def okResp (bs : List Byte) : Resp := { ok := true, data := bs.map (·.toNat) }
def errResp (cause : Nat) : Resp := { ok := false, cause := cause }

/-! ## Page accesses -/

/-- The unit and the cell whose page, or whose block's memory window, an access touches. -/
def touched (a : Nat) : Option (Nat × Option Nat) := match placeOf a with
  | .page 32 => some (6, none)
  | .page 33 => some (6, none)
  | .page k => some (k, (locate a).bind (·.cell))
  | .window => some ((windowOf a).1, none)
  | _ => none

/-- An armed fault of a block strikes at an access to its page, but not at one to BLK_ERR_INJ (R274). -/
def pageFire (a : Nat) : Upd := .read fun s => match touched a with
  | none => .skip
  | some (k, c) => whenU (hasPage k && s.flag (BLK_ERR_INJ_ARM k) && a != BLK_ERR_INJ k) (match c with
    | some _ => injFire k c
    | none => inject k)

/-- A read of a word of a register page or a window; a read of a write-sync word starts its barrier and answers later, `reply`
being the request where it came over the chain (R597). -/
def wordRead (org : Origin) (pid : Nat) (reply : Option Pkt) (a : Nat) (k : Resp → Upd) : Upd := .seq (pageFire a) (.read fun s =>
  let host := match org with | .host _ => s.pcie | _ => false
  let done (r : Option Nat) : Upd := match r with
    | some v => k (okResp (leBytes 4 v))
    | none => k (errResp 1)
  match placeOf a with
  | .page 32 =>
    if s.ipCause org pid a 0 false = 5 then funcRead org (pageInst a).1 (s.get (IOM_IP_APER_APER (pageInst a).1) * 0x2000
      + ((pageInst a).2 - 0x2000)) fun _ => k (errResp 5)
    else if s.ipCause org pid a 0 false ≠ 0 then .seq (violation pid a 0 8) (k (errResp 8))
    else if (pageInst a).2 = 0x90 then wsyncStart (pageInst a).1 host reply
    else ipRead org a done
  | .page _ => if a = HBR_WSYNC ∧ ¬ s.flag (BLK_CTRL_ISOLATE 14) then wsyncStart 256 host reply else regRead org pid a (done ∘ some)
  | .window => windowRead pid a (done ∘ some)
  | _ => k (errResp 1))

/-- A write of a word of a register page or a window. -/
def wordWrite (org : Origin) (pid a v : Nat) (k : Resp → Upd) : Upd := .seq (pageFire a) (.read fun s =>
  let c := match placeOf a with
    | .page 32 => s.ipCause org pid a v true
    | .page _ => s.writeCause false pid a v
    | .window => s.windowCause false pid a
    | _ => 1
  if c ≠ 0 then .seq (match placeOf a with
      | .page 32 => if (pageInst a).2 < 0x2000 ∨ (c = 8 ∧ ¬ s.isOwner (pageInst a).1 org pid) then violation pid a 1 c
          else funcWrite org (pageInst a).1 (s.get (IOM_IP_APER_APER (pageInst a).1) * 0x2000 + ((pageInst a).2 - 0x2000)) v
      | _ => violation pid a 1 c) (k (errResp c))
  else .seq (match placeOf a with
      | .page 32 => ipWrite org pid a v
      | .page _ => applyWrite org false pid a v
      | _ => windowWrite a v) (k (okResp [])))

/-- Reads of one word or of two, lower address first (R62). -/
def wordsRead (org : Origin) (pid : Nat) (reply : Option Pkt) (a n : Nat) (k : Resp → Upd) : Upd :=
  wordRead org pid reply a fun r => if n = 8 ∧ r.ok then wordRead org pid reply (a + 4) fun r' =>
    k (if r'.ok then { r' with data := r.data ++ r'.data } else r') else k r

def wordsWrite (org : Origin) (pid a : Nat) (bs : List Byte) (k : Resp → Upd) : Upd :=
  wordWrite org pid a (leValue (bs.take 4)) fun r => if bs.length = 8 then wordWrite org pid (a + 4) (leValue (bs.drop 4)) fun r' =>
    k (if r.ok then r' else r) else k r

/-! ## Memory -/

/-- What the Canopy caches did on the way (R195): `cache` 1 a corrected error, 2 one that poisons the line. Answers whether the request
goes on. -/
def cacheError (a cache : Nat) (k : Bool → Upd) : Upd :=
  let line := a / 64
  match cache with
  | 0 => k true
  | 1 => .seq (report 0 none CE) (k true)
  | _ => seqs [report 0 none PM, updMem fun m => { m with poison := if m.poison.contains line then m.poison else line :: m.poison }, k false]

/-- A read of a TCM over the fabric port (R218): an uncorrectable error stays in its word. -/
def tcmRead (pid x a n ecc : Nat) (k : Option (List Byte) → Upd) : Upd := match ecc with
  | 0 => memRead pid a n k
  | 1 => .seq (tcmError x 1 (a % 0x80000 / 4) false) (memRead pid a n k)
  | _ => .seq (updMem fun m => { m with tcmBad := if m.tcmBad.contains (a / 4) then m.tcmBad else (a / 4) :: m.tcmBad }) (memRead pid a n k)

/-- A read of memory, with what it finds (R203, R210, R218): `ecc` 1 a corrected error, 2 an uncorrectable one; none where no data may be
returned. A line that is poisoned already reads as such. -/
def eccRead (pid a n ecc : Nat) (k : Option (List Byte) → Upd) : Upd := .read fun s =>
  match placeOf a with
  | .tcm x => tcmRead pid x a n ecc k
  | .rom => memRead pid a n k
  | _ =>
    if (linesOf a n).any fun l => s.b.mem.poison.contains l then memRead pid a n k
    else match ecc with
    | 0 => memRead pid a n k
    | 1 => .seq (memCe 1 pid (a / 64)) (memRead pid a n k)
    | _ => .seq (memUeNew 3 pid (a / 64)) (k none)

/-- What an atomic operation leaves in memory: 0 swap, 1 add, 2 and, 3 or, 4 xor, 5 and 6 signed minimum and maximum, 7 and 8
unsigned, of `n` bytes; 9 compare and swap, the compare value below the new one. -/
def amo (op n old v : Nat) : Nat :=
  let w := 8 * n
  let x := v % 2 ^ w
  match op with
  | 0 => x
  | 1 => (old + x) % 2 ^ w
  | 2 => old &&& x
  | 3 => old ||| x
  | 4 => old ^^^ x
  | 5 => if signed w old ≤ signed w x then old else x
  | 6 => if signed w old ≤ signed w x then x else old
  | 7 => min old x
  | 8 => max old x
  | _ => if old = x then v / 2 ^ w % 2 ^ w else old

/-- An error in a word of a window that a fabric read meets (R402, R413, R463, R509). -/
def windowErrors (a ecc : Nat) (k : Bool → Upd) : Upd :=
  let (u, c) := windowOf a
  match ecc with
  | 0 => k true
  | 1 => .seq (match u, c with
      | 9, some c => .seq (setReg (CAN_MR_ERR c) (2 ^ 30 + 2 ^ 29 + a % 0x20000 / 4)) (report 9 (some c) CE)
      | _, _ => report u c CE) (k true)
  | _ => match u, c with
    | 9, some c => seqs [setReg (CAN_MR_ERR c) (2 ^ 31 + 2 ^ 29 + a % 0x20000 / 4), report 9 (some c) TR, k false]
    | 10, c => .seq (report 10 c TR) (k false)
    | 11, _ => seqs [updSrt fun x => { x with bad := srtEntry (a - srtWin) :: x.bad }, report 11 none PM (some 4), k false]
    | 8, _ => seqs [report 8 none PM (some 4), k false]
    | u, c => .seq (report u c PM) (k false)

/-! ## One transfer (R63) -/

/-- A transfer at the fabric: the region it enters at, the context of its class and the record of its chain writes (R592), the identity,
who makes it, the request of the chain it answers; the address, kind (0 read, 1 write, 2 atomic), length, operation, bytes, the errors
memory and caches find, the points where its age promoted it. -/
structure Xfer where
  src : Nat
  ctx : Nat
  rcd : Nat
  who : Nat × Bool
  org : Origin := .loc
  reply : Option Pkt := none
  addr : Nat
  kind : Nat
  n : Nat
  op : Nat := 0
  data : List Byte := []
  ecc : Nat := 0
  cache : Nat := 0
  prom : List Nat := []

/-- A transfer whose target is memory. -/
def memServe (x : Xfer) (a : Nat) (k : Resp → Upd) : Upd :=
  let pid := x.who.1
  cacheError a x.cache fun go => if ¬ go then k (errResp 0) else match x.kind with
  | 0 => eccRead pid a x.n x.ecc fun r => match r with
    | some d => k (okResp d)
    | none => k (errResp 0)
  | 1 => .read fun s =>
    let bad := s.writePoisoned a x.data.length
    .seq (memWrite pid a x.data) (k (if bad then errResp 0 else okResp []))
  | _ => eccRead pid a x.n x.ecc fun r => match r with
    | some d => .seq (memWrite pid a (leBytes x.n (amo x.op x.n (leValue d) (leValue x.data)))) (k (okResp d))
    | none => k (errResp 0)

/-- How a window whose registers belong to another standard ends a transfer without them: an isolated block takes none, reads being 0
(R71), and the IOMMU's page takes writes from PID 1 and PID 3 only (R624); none where the registers decide. -/
def State.deviceEnd (s : State) (pid a kind : Nat) : Option Nat :=
  if s.flag (BLK_CTRL_ISOLATE (if placeOf a = .ufs then 4 else 6)) then some 0
  else if placeOf a = .iommu ∧ kind ≠ 0 ∧ pid ≠ 1 ∧ pid ≠ 3 then some 8
  else none

/-- A transfer into such a window. -/
def deviceServe (pid a kind n : Nat) (k : Resp → Upd) : Upd := .read fun s => match s.deviceEnd pid a kind with
  | some 0 => k (okResp (if kind = 0 then List.replicate n 0 else []))
  | some c => .seq (violation pid a kind c) (k (errResp c))
  | none => k (errResp 1)

/-- A transfer whose checks passed, at its resolved address; `rd` makes its read on the chain. -/
def serveAt (x : Xfer) (a : Nat) (rd : Nat → Upd) (k : Resp → Upd) : Upd :=
  let pid := x.who.1
  match placeOf a with
  | .chain d _ => if x.kind = 0 then rd d else .seq (flkWrite x.rcd d pid a x.data) (k (okResp []))
  | .page _ => if x.kind = 0 then wordsRead x.org pid x.reply a x.n k else wordsWrite x.org pid a x.data k
  | .window => if x.kind = 0 then windowErrors a x.ecc fun ok => (if ok then wordsRead x.org pid x.reply a x.n k else k (errResp 0))
      else wordsWrite x.org pid a x.data k
  | .aia => .read fun s =>
    if s.flag (BLK_CTRL_ISOLATE 0) then k (okResp (if x.kind = 0 then [0, 0, 0, 0] else []))
    else if x.kind = 0 then k (okResp (leBytes 4 (s.aiaRead a)))
    else .seq (aiaWrite a (leValue x.data)) (k (okResp []))
  | .ufs => deviceServe pid a x.kind x.n k
  | .iommu => deviceServe pid a x.kind x.n k
  | .unmapped => k (errResp 1)
  | _ => memServe x a k

/-- A transfer of one requester: the checks, the refusal or the service. The refusal records the local address that an access through the
module's own chain window reaches (DESIGN CHOICE: the spec names no address; notes/assumptions/83.md). -/
def serve (x : Xfer) (rd : Nat → Upd) (k : Resp → Upd) : Upd := .read fun s =>
  let a := s.resolve x.addr
  let cause := s.checkAt x.who a x.n x.kind
  if cause ≠ 0 then .seq (refuse x.who.1 a x.kind cause) (k (errResp cause))
  else .seq (account x.src x.ctx x.who.1 a x.n x.prom) (serveAt x a rd k)

/-! ## Requests that wait (R45 to R49, R65, R149, R182, R205, R213) -/

/-- The bytes a transfer moves. -/
def xferLen (kind len : Nat) (bs : List Byte) : Nat := if kind = 1 then bs.length else len

abbrev reqLen (q : FabReq) : Nat := xferLen q.kind q.len q.data

/-- A request of context `q.ctx` under the identity it entered with. -/
def requestGo (src : Nat) (who : Nat × Bool) (prom : List Nat) (q : FabReq) : Upd := .read fun s =>
  serve { src := src, ctx := q.ctx, rcd := recOf q.ctx, who := who, addr := q.addr, kind := q.kind, n := (reqLen q), op := q.op,
          data := q.data, ecc := q.ecc, cache := q.cache, prom := prom }
    (fun d => chainRead d 0 q.ctx (reqLen q) who.1 (s.resolve q.addr) false) answer

/-- A request waits at a point: 0 to 3 the interconnect of a region, 4 the root. -/
def waitAt (w : WaitReq) : Upd := .read fun s => updFab fun f => { f with waiting := f.waiting ++ [{ w with since := s.now }] }

/-- The interconnect where a request enters is occupied: requests of region C to DRAM do not cross it (R48). -/
def State.contends (s : State) (src : Nat) (q : FabReq) : Bool := q.contended && !(src == 0 && portOf (s.resolve q.addr) == 5)

/-- A request with another address. -/
def withAddr (q : FabReq) (a : Nat) : FabReq := { q with addr := ⟨a % 1099511627776, Nat.mod_lt _ (by decide)⟩ }

/-- A core's access to its triplet's own TCM (R217, R218): no window is checked; an uncorrectable error returns an access fault. -/
def tcmLocal (x a : Nat) (q : FabReq) : Upd := .read fun s =>
  let n := reqLen q
  let w := a / 4
  if q.kind = 1 then .seq (memWrite 0 a q.data) (answer (okResp []))
  else match (if q.ecc = 2 then some w else (wordsOf a n).find? fun w => s.b.mem.tcmBad.contains w) with
    | some w => seqs [
        updMem fun m => { m with tcmBad := if m.tcmBad.contains w then m.tcmBad else w :: m.tcmBad },
        tcmError x 0 (w % 0x20000) true, answer (errResp 0)]
    | none => seqs [
        whenU (q.ecc == 1) (tcmError x 0 (w % 0x20000) false),
        whenU (q.kind == 2) (memWrite 0 a (leBytes n (amo q.op n (leValue (s.bytes a n)) (leValue q.data)))),
        answer (okResp (s.bytes a n))]

/-- A request whose address is a fabric address. One that its block or its region does not let out ends with an error (R65). -/
def fabricEnter (q : FabReq) : Upd := .read fun s =>
  let src := s.ctxRegion q.ctx
  let who := s.ctxPid q.ctx
  let a := s.resolve q.addr
  let w : WaitReq := { pid := who.1, ok := who.2, q := q, src := src, cls := (s.qosOf q.ctx who.1).1, point := src }
  if s.muted src q.ctx a then answer (errResp 5)
  else if s.contends src q then .seq (waitAt w) (updFab fun f => { f with occupied := src :: f.occupied })
  else if s.checkAt who a (reqLen q) q.kind = 0 ∧ s.mustWait src who.1 a (reqLen q) then waitAt { w with point := 4 }
  else requestGo src who [] q

/-- The requester can make the transfer: it is powered (Run, Reduced) and runs, and the transfer moves 1 to 256 B (R47). -/
def State.canRequest (s : State) (q : FabReq) : Bool :=
  decide (s.pwr ≤ 1) && reqLen q != 0 && decide (reqLen q ≤ 256) && !s.ctxIdle q.ctx

/-- FABRIC_REQUEST (R63), its address as its requester issues it (R217): a core's access to an unmapped address ends in an access
fault of the core and reaches no bus. -/
def fabricRequest (q : FabReq) : Upd := .read fun s => whenU (s.canRequest q) (match s.coreReach q.ctx q.addr (reqLen q) with
  | .fault => answer (errResp 0)
  | .tcm a => tcmLocal ((q.ctx - 48) / 4) a q
  | .fabric a => fabricEnter (withAddr q a))

/-- The admitted request leads to registers that the spec leaves to another standard: the UFS host controller's, the IOMMU's (R58, R212,
R624). -/
def deviceGuard (q : FabReq) (s : State) : Option Nat := match s.coreReach q.ctx q.addr (reqLen q) with
  | .fabric f =>
    let a := s.resolve f
    let who := s.ctxPid q.ctx
    if s.canRequest q ∧ ¬ s.muted (s.ctxRegion q.ctx) q.ctx a ∧ s.checkAt who a (reqLen q) q.kind = 0 ∧ s.deviceEnd who.1 a q.kind = none then
      match placeOf a with
      | .ufs => some a
      | .iommu => some a
      | _ => none
    else none
  | _ => none

/-! ### Arbitration -/

/-- The class in which a waiting request competes where it waits: real-time where its age promoted it, at the root after 1,024 cycles (R46,
R48); bulk where it is real-time and the region's regulator is empty (R45). -/
def State.classNow (s : State) (w : WaitReq) : Nat :=
  let old := w.prom.contains w.point || (w.point == 4 && decide (w.since + 1024 < s.now))
  let c := if old then min w.cls 1 else w.cls
  let t := s.get (RG_RT_REG_RT_TOKENS w.point)
  if c = 1 ∧ w.point < 4 ∧ t ≠ 0 ∧ t ≤ mapGet 0 s.b.fab.rtUsed w.point then 2 else c

/-- The requester that a point's round-robin sees: the context at a region, the port at the root. -/
def WaitReq.key (w : WaitReq) : Nat := if w.point = 4 then w.src else w.q.ctx.val

/-- The request whose requester comes first after the one last served, the earliest of that requester. -/
def rrPick (last : Nat) (l : List WaitReq) : Option WaitReq := match l with
  | [] => none
  | w :: t => some (t.foldl (fun b x => if (x.key + 511 - last) % 512 < (b.key + 511 - last) % 512 then x else b) w)

/-- The weights of a point: bulk (0) and background (1); 0 acts as 1, the root has 3 and 1 (R48, R52). -/
def State.arbWeight (s : State) (p j : Nat) : Nat :=
  if p = 4 then (if j = 0 then 3 else 1)
  else max 1 (if j = 0 then s.get (RG_QOS_CFG_BULK_WT p) else s.get (RG_QOS_CFG_BG_WT p))

/-- The grant of R45 at point `p` among the requests `l` that wait there and may go, and the point afterwards. Bulk and background requests
of one class go in the order they came (notes/assumptions/85.md). -/
def State.arbGrant (s : State) (p : Nat) (l : List WaitReq) : Option WaitReq × Arb :=
  let x := mapGet {} s.b.fab.arb p
  let of (c : Nat) : List WaitReq := l.filter fun w => s.classNow w == c
  match rrPick x.safe (of 0), rrPick x.rt (of 1) with
  | some w, _ => (some w, { x with safe := w.key })
  | none, some w => (some w, { x with rt := w.key })
  | none, none =>
    match wrrGrant 2 (fun j => !(of (2 + j)).isEmpty) (s.arbWeight p) x.left x.ptr with
    | (some j, left, ptr) => ((of (2 + j)).head?, { x with left := left, ptr := ptr })
    | (none, left, ptr) => (none, { x with left := left, ptr := ptr })

/-- A waiting request may be granted now: its interconnect is free, or the root may take it. -/
def State.mayGo (s : State) (w : WaitReq) : Bool :=
  if w.point = 4 then !s.mustWait w.src w.pid (s.resolve w.q.addr) (reqLen w.q) else !s.b.fab.occupied.contains w.point

/-- A granted request: discarded where its block or region no longer lets it out (R65, R81), on to the root where it waits again, or
served. -/
def grantGo (w : WaitReq) : Upd := .read fun s =>
  let a := s.resolve w.q.addr
  if s.muted w.src w.q.ctx a then answer (errResp 5)
  else if w.point < 4 ∧ s.checkAt (w.pid, w.ok) a (reqLen w.q) w.q.kind = 0 ∧ s.mustWait w.src w.pid a (reqLen w.q) then waitAt { w with point := 4 }
  else requestGo w.src (w.pid, w.ok) w.prom w.q

/-- At most `m` grants at point `p`. -/
def releaseAt (p : Nat) : Nat → Upd
  | 0 => .skip
  | m + 1 => .read fun s =>
    let l := s.b.fab.waiting.filter fun w => w.point == p && s.mayGo w
    whenU (!l.isEmpty) (match s.arbGrant p l with
      | (some w, x) => seqs [
          updFab fun f => { f with waiting := f.waiting.erase w, arb := mapPut {} f.arb p x }, grantGo w, releaseAt p m]
      | (none, _) => .skip)

/-- Requests that waited and may go on are granted, at the regions and then at the root. -/
def retryWaiting : Upd := .read fun s => whenU (!s.b.fab.waiting.isEmpty)
  (let m := s.b.fab.waiting.length
   seqs [releaseAt 0 m, releaseAt 1 m, releaseAt 4 m])

/-- The requests of PID 0 that the root accepted complete, as PID 0, and then MSU_PROT_LOCK is set (R149). -/
def lockWork : Upd := .read fun s => whenU s.b.fab.lockDue (seqs [
  updFab fun f => { f with waiting := [], lockDue := false },
  forEach s.b.fab.waiting fun w => requestGo w.src (w.pid, w.ok) w.prom w.q, lockSet])

/-- The interconnects that a granted transfer occupied are free. -/
def interconnectsFree : Upd := .read fun s => whenU (!s.b.fab.occupied.isEmpty) (updFab fun f => { f with occupied := [] })

/-! ## Arbitration, regulation, isolation (R46, R49, R53, R65) -/

/-- AGE_PROMOTION at region `r`: its oldest waiting bulk or background request that no age promoted there becomes real-time. -/
def agePromotion (r : Fin 4) : Upd := .read fun s =>
  whenU (s.get (RG_QOS_CFG_AGE_LIMIT r) != 0) (
    match s.b.fab.waiting.find? fun w => w.point == r.val && decide (2 ≤ w.cls) && !w.prom.contains r.val with
    | none => .skip
    | some w => .seq (count (RG_PROMOTE_CNT r)) (updFab fun f =>
        { f with waiting := f.waiting.map fun x => if x = w then { x with prom := r.val :: x.prom } else x }))

/-- BW_PERIOD_START. -/
def bwPeriodStart : Upd := updFab fun f => { f with moved := [] }

/-- RT_REGULATOR_PERIOD of region `r`. -/
def rtRegulatorPeriod (r : Fin 4) : Upd := updFab fun f => { f with rtUsed := mapPut 0 f.rtUsed r.val 0 }

/-- ISOLATION_RESPONSE_TIMEOUT: a request from region C that the root port of the isolated region N accepted, a read on the chain, has no
response 10 µs after: the root completes it. Reads of the host bridge stay within region N. -/
def isolationResponseTimeout (tag : Fin 256) : Upd := .read fun s => whenU (s.isolated 1) (
  match s.b.flk.reads.find? fun r => r.tag == tag.val && ((r.kind == 0 && s.ctxRegion r.idx == 0) || r.kind == 3) with
  | some r => .seq (tagFree r.tag) (if r.kind = 0 then answer (errResp 5) else chainReadEnd r 1 5 [])
  | none => .skip)

/-! ## Register accesses (R63, R78 to R80) -/

/-- An access to the register or the word at `a` by `pid`, as the row names it: the requesters are powered in Run and Reduced (R93), and the
four checks come first (R63). -/
def wordAccess (pid a kind : Nat) (u : Upd) : Upd := .read fun s => whenU (decide (s.pwr ≤ 1)) (
  let c := s.checkAt (pid, true) a 4 kind
  if c = 0 then u else .seq (refuse pid a kind c) (answer (errResp c)))

/-- REGISTER_WRITE: `v` to the register, or the word of a window or an instance page, at `a`. -/
def registerWrite (pid : Pid) (a : Fin 1099511627776) (v : Word) : Upd :=
  wordAccess pid (a / 4 * 4) 1 (wordWrite .loc pid (a / 4 * 4) v.toNat answer)

/-- CLEAR_ON_READ: a read of a register. -/
def clearOnRead (pid : Pid) (a : Fin 1099511627776) : Upd := wordAccess pid (a / 4 * 4) 0 (wordRead .loc pid none (a / 4 * 4) answer)

end Sys2Proof.Machine
end

