-- ==== Sys2Proof/Machine/WriteRows.lean ====
section
/-!
DEFINITION. The commands that are writes (or, for a claim, the read) of one register by a partition: each builds the register's word
and goes through the path of REGISTER_WRITE, so access codes, ownership and locks apply (R76 to R82).
-/
namespace Sys2Proof.Machine

/-- A word is written to the register at `a` by `pid`, a local requester. -/
def put (pid : Pid) (a v : Nat) : Upd := wordAccess pid a 1 (wordWrite .loc pid a v answer)

/-- The update where unit `k` has a cell `c`. -/
def onPageOf (k : Fin 23) (c : Fin 512) (u : Upd) : Upd := whenU (decide (c.val < cellCount k)) u

/-- An access that the owner of instance `n` makes: its origin and its PID (R612). -/
def byOwner (n : Fin 256) (f : Origin → Nat → Upd) : Upd := .read fun s => match s.okind n with
  | 1 => f .loc (s.instPid n)
  | 2 => f (.host (s.get (IOM_INST_OWNER_VF n))) (s.instPid n)
  | 3 => f (.chain (s.get (IOM_INST_OWNER_DEV n)) n) (s.instPid n)
  | _ => .skip

/-- BLOCK_ENABLE (R71, R81). -/
def blockEnable (pid : Pid) (k : Fin 28) : Upd := .read fun s => put pid (BLK_CTRL k) (withBits (s.reg (BLK_CTRL k)) 1 0 1)

/-- BLOCK_DISABLE (R71, R81). -/
def blockDisable (pid : Pid) (k : Fin 28) : Upd := .read fun s => put pid (BLK_CTRL k) (withBits (s.reg (BLK_CTRL k)) 1 0 0)

/-- BLOCK_SOFT_RESET (R71, R81). -/
def blockSoftReset (pid : Pid) (k : Fin 28) : Upd := .read fun s => put pid (BLK_CTRL k) (withBits (s.reg (BLK_CTRL k)) 1 1 1)

/-- BLOCK_ISOLATE (R65, R71; on false ends it). -/
def blockIsolate (pid : Pid) (k : Fin 28) (on : Bool) : Upd := .read fun s => put pid (BLK_CTRL k) (withBits (withBits (s.reg (BLK_CTRL k)) 1 1 0) 2 2 on.toNat)

/-- CELL_ENABLE (R77, R81). -/
def cellEnable (pid : Pid) (k : Fin 23) (c : Fin 512) : Upd := onPageOf k c (put pid (CELL_CTRL k c) 1)

/-- CELL_DISABLE (R77, R81). -/
def cellDisable (pid : Pid) (k : Fin 23) (c : Fin 512) : Upd := onPageOf k c (put pid (CELL_CTRL k c) 0)

/-- CELL_RESET (R77, R81). -/
def cellReset (pid : Pid) (k : Fin 23) (c : Fin 512) : Upd := onPageOf k c (.read fun s => put pid (CELL_CTRL k c) (withBits (s.reg (CELL_CTRL k c)) 1 1 1))

/-- CELL_RETIRE_WRITE (R263). -/
def cellRetireWrite (pid : Pid) (k : Fin 23) (c : Fin 512) : Upd := onPageOf k c (put pid (CELL_RETIRE k c) 1)

/-- CELL_REARM (R264). -/
def cellRearm (pid : Pid) (k : Fin 23) (c : Fin 512) : Upd := onPageOf k c (put pid (CELL_RETIRE k c) 2)

/-- IRQ_SET (R73). -/
def irqSet (pid : Pid) (k : Fin 28) (v : Word) : Upd := put pid (BLK_IRQ_SET k) v.toNat

/-- CONFIG_LOCK (R76). -/
def configLock (pid : Pid) (k : Fin 28) : Upd := put pid (BLK_LOCK k) 1

/-- ERR_INJ_ARM (R274). -/
def errInjArm (pid : Pid) (k : Fin 28) (c : Fin 4096) (cls : Fin 4) : Upd := put pid (BLK_ERR_INJ k) (2 ^ 31 + c.val * 2 ^ 16 + cls.val)

/-- SAFE_EXIT (R272). -/
def safeExit (pid : Pid) (key : Fin 256) : Upd := put pid MSU_SAFE_CTRL (key.val * 2 ^ 8 + 1)

/-- WDOG_KICK (R273). -/
def wdogKick (pid : Pid) (i : Fin 4) (key : Fin 256) : Upd := put pid (MSU_WDOG_KICK i) key.val

/-- PROT_LOCK (R147): P0, as PID 0, checks the installed set and writes the lock (R660). -/
def protLock (pid : Pid) : Upd := .read fun s =>
  if pid.val = 0 ∧ s.get MSU_BOOT_STAT_PHASE = 2 ∧ ¬ s.installedOk then installedBad else put pid MSU_PROT_LOCK 1

/-- PWR_STATE_REQUEST (R95). -/
def pwrStateRequest (pid : Pid) (t : Fin 8) : Upd := put pid MSU_PWR_STATE (t.val * 2 ^ 8)

/-- DIE_ENABLE (R718). -/
def dieEnable (pid : Pid) (d : Fin 4) : Upd := put pid PSM_DIE_EN (2 ^ d.val)

/-- WAKE_REASON_CLEAR (R136). -/
def wakeReasonClear (pid : Pid) : Upd := put pid GLD_WAKE_REASON (2 ^ 31)

/-- GLD_WAKE_ACK (R129). -/
def gldWakeAck (pid : Pid) : Upd := put pid GLD_WAKE_ACK 1

/-- FW_DIS_CLEAR (R130). -/
def fwDisClear (pid : Pid) (hi : Bool) (v : Word) : Upd := put pid (if hi then GLD_FW_DIS_HI else GLD_FW_DIS_LO) v.toNat

/-- GLADE_STORE_SAVE (R132). -/
def gladeStoreSave (pid : Pid) : Upd := put pid GLD_STORE_CTRL (2 ^ 31)

/-- SOFTWARE_RESET (R159). -/
def softwareReset (pid : Pid) (key : Fin 256) : Upd := put pid MSU_RST_CTRL (key.val * 2 ^ 8 + 1)

/-- SLOT_WRITE (R173). -/
def slotWrite (pid : Pid) (slot : Fin 512) : Upd := put pid VLT_SLOT_CTRL (2 ^ 31 + 1 * 2 ^ 24 + slot.val)

/-- SLOT_GENERATE (R173). -/
def slotGenerate (pid : Pid) (slot : Fin 512) : Upd := put pid VLT_SLOT_CTRL (2 ^ 31 + 2 * 2 ^ 24 + slot.val)

/-- SLOT_DERIVE (R174). -/
def slotDerive (pid : Pid) (slot : Fin 512) : Upd := put pid VLT_SLOT_CTRL (2 ^ 31 + 3 * 2 ^ 24 + slot.val)

/-- SLOT_INVALIDATE (R175). -/
def slotInvalidate (pid : Pid) (slot : Fin 512) : Upd := put pid VLT_SLOT_CTRL (2 ^ 31 + 4 * 2 ^ 24 + slot.val)

/-- SLOT_ERASE (R175). -/
def slotErase (pid : Pid) (slot : Fin 512) : Upd := put pid VLT_SLOT_CTRL (2 ^ 31 + 5 * 2 ^ 24 + slot.val)

/-- LIFECYCLE_COMMAND (R166). -/
def lifecycleCommand (pid : Pid) (key : Fin 256) (target : Fin 8) : Upd := put pid VLT_LC_CMD (key.val * 2 ^ 24 + target.val)

/-- VLT_RING_DOORBELL (R179). -/
def vltRingDoorbell (pid : Pid) (r : Fin 32) (tail : Fin 1024) : Upd := put pid (VLT_RING_TAIL r) tail.val

/-- MEAS_EXTEND (R183). -/
def measExtend (pid : Pid) (m : Fin 16) : Upd := put pid VLT_MEAS_CTRL (2 ^ 31 + m.val)

/-- MEAS_R0_CLOSE (R183). -/
def measR0Close (pid : Pid) : Upd := put pid VLT_MEAS_CTRL (2 ^ 30)

/-- CLUSTER_CLOCK_CHANGE (R189). -/
def clusterClockChange (pid : Pid) (k : Fin 3) (v : Word) : Upd := put pid (CNP_CLU_CLK k) v.toNat

/-- HART_RUN (R213). -/
def hartRun (pid : Pid) (h : Fin 12) : Upd := .read fun s => put pid CNP_HART_EN (withBits (s.reg CNP_HART_EN) h h 1)

/-- HART_STOP (R213). -/
def hartStop (pid : Pid) (h : Fin 12) : Upd := .read fun s => put pid CNP_HART_EN (withBits (s.reg CNP_HART_EN) h h 0)

/-- IW_CORE_RETIRE_CMD (R225). -/
def iwCoreRetireCmd (pid : Pid) (x : Fin 2) (k : Fin 3) : Upd := put pid (IW_CORE_CTRL x) (2 ^ k.val)

/-- IW_CORE_REARM (R226). -/
def iwCoreRearm (pid : Pid) (x : Fin 2) (k : Fin 3) : Upd := put pid (IW_CORE_CTRL x) (2 ^ (4 + k.val))

/-- TRIPLET_RESTART (R231). -/
def tripletRestart (pid : Pid) (x : Fin 2) : Upd := .read fun s => put pid (BLK_CTRL (1 + x.val)) (withBits (s.reg (BLK_CTRL (1 + x.val))) 1 1 1)

/-- IRQ_CLAIM (R233). -/
def irqClaim (pid : Pid) (x : Fin 2) (c : Fin 2) : Upd :=
  wordAccess pid (IW_IRQ_CLAIM x c) 0 (wordRead .loc pid none (IW_IRQ_CLAIM x c) answer)

/-- IRQ_COMPLETE (R233). -/
def irqComplete (pid : Pid) (x : Fin 2) (c : Fin 2) (n : Fin 256) : Upd := put pid (IW_IRQ_CLAIM x c) n.val

/-- IW_DMA_START (R235). -/
def iwDmaStart (pid : Pid) (x : Fin 2) (ch : Fin 4) (irq : Bool) : Upd := put pid (IW_DMA_CTRL x ch) (2 ^ 31 + irq.toNat)

/-- SNI_CONFIG_WRITE (R361; `r` 0 IN_CFG, 1 IN_TIME, 2 IN_THR, 3 IN_FILT). -/
def sniConfigWrite (pid : Pid) (n : Fin 48) (r : Fin 4) (w : Word) : Upd := put pid (SNI_IN_CFG n + 4 * r.val) w.toNat

/-- CAN_TXBUF_REQUEST (R370). -/
def canTxbufRequest (pid : Pid) (c : Fin 16) (v : Word) : Upd := put pid (CAN_TXBUF_GO c) v.toNat

/-- CAN_TXBUF_CANCEL (R372). -/
def canTxbufCancel (pid : Pid) (c : Fin 16) (v : Word) : Upd := put pid (CAN_TXBUF_STOP c) v.toNat

/-- CAN_RECOVER (R379). -/
def canRecover (pid : Pid) (c : Fin 16) : Upd := put pid (CAN_BO_CTRL c) 1

/-- CAN_BO_DISCARD_WRITE (R378). -/
def canBoDiscardWrite (pid : Pid) (c : Fin 16) : Upd := .read fun s => put pid (CAN_BO_CFG c) (withBits (s.reg (CAN_BO_CFG c)) 30 30 1)

/-- CAN_TS_SYNC (R383). -/
def canTsSync (pid : Pid) (v : Fin 65536) : Upd := put pid CAN_TS_SYNC v.val

/-- CAN_RX_RELEASE (R398). -/
def canRxRelease (pid : Pid) (c : Fin 16) (ack : Bool) (target : Fin 4) (buf : Fin 64) : Upd := put pid (CAN_RX_RELEASE c) (ack.toNat * 2 ^ 31 + target.val * 2 ^ 8 + buf.val)

/-- CAN_RXBUF_NEW_CLEAR (R398). -/
def canRxbufNewClear (pid : Pid) (c : Fin 16) (hi : Bool) (v : Word) : Upd := put pid (if hi then CAN_RXBUF_NEW_HI c else CAN_RXBUF_NEW_LO c) v.toNat

/-- CAN_TXQ_PUSH (R400). -/
def canTxqPush (pid : Pid) (c : Fin 16) : Upd := put pid (CAN_TXQ_PUSH c) 1

/-- CAN_TXQ_CANCEL (R400). -/
def canTxqCancel (pid : Pid) (c : Fin 16) (v : Word) : Upd := put pid (CAN_TXQ_STOP c) v.toNat

/-- LIN_SCHED_RUN (R410). -/
def linSchedRun (pid : Pid) (n : Fin 12) (run : Bool) (start : Fin 64) : Upd := .read fun s => put pid (LIN_SCHED_CTRL n) (withBits 0 13 8 (s.get (LIN_SCHED_CTRL_NEXT n)) + run.toNat * 2 ^ 31 + start.val)

/-- LIN_SCHED_SWITCH (R410). -/
def linSchedSwitch (pid : Pid) (n : Fin 12) (next : Fin 64) : Upd := .read fun s => put pid (LIN_SCHED_CTRL n) (withBits (withBits (s.reg (LIN_SCHED_CTRL n)) 30 30 1) 13 8 next.val)

/-- LIN_SLEEP (R414). -/
def linSleep (pid : Pid) (n : Fin 12) : Upd := put pid (LIN_CH_CTRL n) 1

/-- LIN_WAKE_TX (R414). -/
def linWakeTx (pid : Pid) (n : Fin 12) : Upd := put pid (LIN_CH_CTRL n) 2

/-- TX_THR_WRITE (R423). -/
def txThrWrite (pid : Pid) (p : Fin 25) (step : Fin 256) (start : Fin 256) : Upd := put pid (ETP_TX_THR p) (step.val * 2 ^ 8 + start.val)

/-- C_TX_TAIL_WRITE (R426). -/
def cTxTailWrite (pid : Pid) (p : Fin 2) (q : Fin 8) (tail : Fin 4096) : Upd := put pid (ETP_QTX_TAIL (20 + p.val) 0 q) tail.val

/-- C_RX_TAIL_WRITE (R431). -/
def cRxTailWrite (pid : Pid) (p : Fin 2) (q : Fin 8) (tail : Fin 4096) : Upd := put pid (ETP_QRX_TAIL (20 + p.val) 0 q) tail.val

/-- MACSEC_SA_ENABLE (R434). -/
def macsecSaEnable (pid : Pid) (p : Fin 25) (e : Fin 20) (slot : Fin 512) : Upd := put pid (ETP_SA_CTRL p 0 e) (2 ^ 31 + slot.val)

/-- PMAP_WRITE (R449; `j` = 8 is SWC_HASH_CFG). -/
def pmapWrite (pid : Pid) (j : Fin 9) (v : Word) : Upd := put pid (if j.val = 8 then SWC_HASH_CFG else SWC_PMAP j) v.toNat

/-- TBL_READ (R451). -/
def tblRead (pid : Pid) (table : Fin 16) (index : Fin 65536) : Upd := put pid SWC_TBL_CMD (2 ^ 31 + 0 * 2 ^ 28 + table.val * 2 ^ 24 + index.val)

/-- TBL_WRITE (R459). -/
def tblWrite (pid : Pid) (table : Fin 16) (index : Fin 65536) (hold : Bool) : Upd := put pid SWC_TBL_CMD (2 ^ 31 + hold.toNat * 2 ^ 30 + 1 * 2 ^ 28 + table.val * 2 ^ 24 + index.val)

/-- TBL_DELETE (R459). -/
def tblDelete (pid : Pid) (table : Fin 16) (index : Fin 65536) (hold : Bool) : Upd := put pid SWC_TBL_CMD (2 ^ 31 + hold.toNat * 2 ^ 30 + 2 * 2 ^ 28 + table.val * 2 ^ 24 + index.val)

/-- TBL_SEARCH (R451). -/
def tblSearch (pid : Pid) (table : Fin 16) (index : Fin 65536) : Upd := put pid SWC_TBL_CMD (2 ^ 31 + 3 * 2 ^ 28 + table.val * 2 ^ 24 + index.val)

/-- SWC_DRAIN_REQUEST (R461). -/
def swcDrainRequest (pid : Pid) (tmo : Fin 65536) : Upd := put pid SWC_DRAIN_CTRL (2 ^ 31 + tmo.val)

/-- GCL_CHANGE_REQUEST (R462). -/
def gclChangeRequest (pid : Pid) (p : Fin 25) : Upd := put pid (SWC_GCL_CTRL p) 1

/-- TMB_RATE_WRITE (R468). -/
def tmbRateWrite (pid : Pid) (v : Word) : Upd := put pid TMB_RATE v.toNat

/-- TMB_ADJ_WRITE (R469). -/
def tmbAdjWrite (pid : Pid) (v : Word) : Upd := put pid TMB_ADJ v.toNat

/-- TMB_STEP (R470). -/
def tmbStep (pid : Pid) : Upd := put pid TMB_STEP_CTRL 1

/-- TS_POP (R475). -/
def tsPop (pid : Pid) : Upd := put pid TMB_TS_POP 1

/-- PTP_TX (R476). -/
def ptpTx (pid : Pid) (port : Fin 32) (len : Fin 256) : Upd := put pid TMB_PTP_TX (2 ^ 31 + port.val * 2 ^ 24 + len.val)

/-- CAN_CAPTURE (R479). -/
def canCapture (pid : Pid) (ch : Fin 16) : Upd := .read fun s => put pid TMB_CAN_CAP (2 ^ 31 + ch.val * 2 ^ 16 + s.get TMB_CAN_CAP_AUTO_MS)

/-- SIG_WRITE (R501). -/
def sigWrite (pid : Pid) (addr : Fin 2147483648) : Upd := put pid SRT_SIG_WR addr.val

/-- SIG_READ (R501). -/
def sigRead (pid : Pid) (addr : Fin 2147483648) : Upd := put pid SRT_SIG_RD_ADDR addr.val

/-- SRT_KEY_ENABLE (R495). -/
def srtKeyEnable (pid : Pid) (i : Fin 64) (slot : Fin 512) : Upd := put pid (SRT_KEY i) (2 ^ 31 + slot.val)

/-- SHD_PUT (R524). -/
def shdPut (pid : Pid) : Upd := put pid SRT_SHD_PUT 1

/-- SHD_CLEAR (R524). -/
def shdClear (pid : Pid) : Upd := put pid SRT_SHD_CLEAR 1

/-- EPOCH_COMMIT (R525). -/
def epochCommit (pid : Pid) : Upd := put pid SRT_EPOCH (2 ^ 31)

/-- SRT_DRAIN_REQUEST (R529). -/
def srtDrainRequest (pid : Pid) (tmo : Fin 65536) : Upd := put pid SRT_DRAIN_CTRL (2 ^ 31 + tmo.val)

/-- RC_PRELOAD (R526). -/
def rcPreload (pid : Pid) (start : Fin 33554432) : Upd := put pid SRT_RC_PRELOAD (2 ^ 31 + start.val)

/-- RC_INVALIDATE (R526). -/
def rcInvalidate (pid : Pid) : Upd := put pid SRT_RC_INV 1

/-- RT_READ (R538). -/
def rtRead (pid : Pid) (gsid : Fin 33554432) : Upd := put pid SRT_RT_RD_GSID gsid.val

/-- NM_SW_REQUEST (R544). -/
def nmSwRequest (pid : Pid) (c : Fin 36) (on : Bool) : Upd := put pid (NMC_CH_REQ c) on.toNat

/-- NM_RMR_REQUEST (R544). -/
def nmRmrRequest (pid : Pid) (c : Fin 36) : Upd := .read fun s => put pid (NMC_CH_REQ c) (2 + s.get (NMC_CH_REQ_SW c))

/-- NM_SAFE_REQUEST (R543). -/
def nmSafeRequest (pid : Pid) (c : Fin 36) (on : Bool) : Upd := put pid (NMC_CH_SREQ c) on.toNat

/-- IGN_CLEAR (R549). -/
def ignClear (pid : Pid) (c : Fin 36) : Upd := put pid (NMC_CH_IGN_CLR c) 1

/-- ISO_REQUEST (R555). -/
def isoRequest (pid : Pid) (key : Fin 256) : Upd := put pid NMC_ISO_CTRL (key.val * 2 ^ 8 + 2)

/-- ISO_RELEASE (R555). -/
def isoRelease (pid : Pid) (key : Fin 256) : Upd := put pid NMC_ISO_CTRL (key.val * 2 ^ 8 + 1)

/-- ISO_RELEASE3 (R555). -/
def isoRelease3 (pid : Pid) (key : Fin 256) : Upd := put pid NMC_ISO_REL3 (key.val * 2 ^ 8 + 1)

/-- NM_LOG_POP (R556). -/
def nmLogPop (pid : Pid) : Upd := put pid NMC_LOG_POP 1

/-- FINZA_RETRAIN (R565). -/
def finzaRetrain (pid : Pid) (c : Fin 2) : Upd := put pid (FLK_LINK_CTRL c) 1

/-- ENUM_RESTART (R572). -/
def enumRestart (pid : Pid) : Upd := put pid FLK_ENUM_CTRL 1

/-- SEM_TAKE (R602). -/
def semTake (pid : Pid) (i : Fin 64) : Upd := put pid (HBR_SEM i) (2 ^ 31)

/-- SEM_RELEASE (R602). -/
def semRelease (pid : Pid) (i : Fin 64) : Upd := put pid (HBR_SEM i) (2 ^ 29)

/-- INST_BIND (R611). -/
def instBind (pid : Pid) (n : Fin 256) (kind : Fin 16) (arg : Fin 16777216) : Upd := put pid (IOM_INST_BIND n) (kind.val * 2 ^ 28 + arg.val)

/-- INST_REMOVE (R628). -/
def instRemove (pid : Pid) (n : Fin 256) : Upd := put pid (IOM_INST_BIND n) 0

/-- MB_SEND (R618). -/
def mbSend (n : Fin 256) : Upd := byOwner n fun o pid => wordAccess pid (IOM_IP_DB n) 1 (wordWrite o pid (IOM_IP_DB n) 1 answer)

/-- MGR_ACK (R618). -/
def mgrAck (pid : Pid) (n : Fin 256) : Upd := put pid (IOM_INST_CTRL n) 1

/-- MGR_RING (R619). -/
def mgrRing (pid : Pid) (n : Fin 256) : Upd := put pid (IOM_INST_CTRL n) 2

/-- MB_ACK (R619). -/
def mbAck (n : Fin 256) : Upd := byOwner n fun o pid => wordAccess pid (IOM_IP_DB n) 1 (wordWrite o pid (IOM_IP_DB n) 2 answer)

/-- FUNC_DOORBELL (R616). -/
def funcDoorbell (n : Fin 256) (v : Word) : Upd := byOwner n fun o pid =>
  wordAccess pid (IOM_IP_FUNC_DB n) 1 (wordWrite o pid (IOM_IP_FUNC_DB n) v.toNat answer)

/-- FUNC_WINDOW_ACCESS (R615: word `w` of the window of 8 KiB at 0x2000, read where no value is given). -/
def funcWindowAccess (n : Fin 256) (w : Fin 2048) (v : Option Word) : Upd := byOwner n fun o pid =>
  let a := 0x2B000000 + 0x4000 * n.val + 0x2000 + 4 * w.val
  match v with
  | some v => wordAccess pid a 1 (wordWrite o pid a v.toNat answer)
  | none => wordAccess pid a 0 (wordRead o pid none a answer)

/-- DELIVERY_UNMASK (R621). -/
def deliveryUnmask (pid : Pid) (n : Fin 256) (k : Fin 4) : Upd := .read fun s => put pid (IOM_DELIV1 n k) (withBits (s.reg (IOM_DELIV1 n k)) 30 30 0)

/-- MIG_FREEZE (R637). -/
def migFreeze (pid : Pid) (n : Fin 256) : Upd := put pid IOM_MIG_CMD (2 ^ 31 + 1 * 2 ^ 24 + n.val)

/-- MIG_SAVE (R638, R648). -/
def migSave (pid : Pid) (n : Fin 256) (jrnl : Bool) : Upd := put pid IOM_MIG_CMD (2 ^ 31 + 2 * 2 ^ 24 + jrnl.toNat * 2 ^ 20 + n.val)

/-- MIG_RESUME (R642). -/
def migResume (pid : Pid) (n : Fin 256) : Upd := put pid IOM_MIG_CMD (2 ^ 31 + 3 * 2 ^ 24 + n.val)

/-- MIG_RESTORE (R641). -/
def migRestore (pid : Pid) (n : Fin 256) : Upd := put pid IOM_MIG_CMD (2 ^ 31 + 4 * 2 ^ 24 + n.val)

/-- MIG_LOG_ON (R644; of the instance that IOM_MIG_SEL names). -/
def migLogOn (pid : Pid) : Upd := .read fun s => put pid IOM_MIG_CMD (2 ^ 31 + 5 * 2 ^ 24 + s.get IOM_MIG_SEL_INST)

/-- MIG_LOG_OFF (R635; of the instance that IOM_MIG_SEL names). -/
def migLogOff (pid : Pid) : Upd := .read fun s => put pid IOM_MIG_CMD (2 ^ 31 + 6 * 2 ^ 24 + s.get IOM_MIG_SEL_INST)

/-- MIG_SWAP (R645; of the instance that IOM_MIG_SEL names). -/
def migSwap (pid : Pid) : Upd := .read fun s => put pid IOM_MIG_CMD (2 ^ 31 + 7 * 2 ^ 24 + s.get IOM_MIG_SEL_INST)

/-- MIG_COPY (R646). -/
def migCopy (pid : Pid) : Upd := put pid IOM_MIG_CMD (2 ^ 31 + 8 * 2 ^ 24)

/-- MIG_RECOVER (R649). -/
def migRecover (pid : Pid) : Upd := put pid IOM_MIG_CMD (2 ^ 31 + 9 * 2 ^ 24)

/-- UPD_OPEN (R664). -/
def updOpen (pid : Pid) : Upd := put pid MEM_UPD_CMD (2 ^ 31 + 1 * 2 ^ 24)

/-- UPD_CHUNK (R665). -/
def updChunk (pid : Pid) : Upd := put pid MEM_UPD_CMD (2 ^ 31 + 2 * 2 ^ 24)

/-- UPD_COMMIT (R672). -/
def updCommit (pid : Pid) : Upd := put pid MEM_UPD_CMD (2 ^ 31 + 3 * 2 ^ 24)

/-- UPD_ABORT (R665). -/
def updAbort (pid : Pid) : Upd := put pid MEM_UPD_CMD (2 ^ 31 + 4 * 2 ^ 24)

/-- UPD_FALLBACK (R676). -/
def updFallback (pid : Pid) : Upd := put pid MEM_UPD_CMD (2 ^ 31 + 5 * 2 ^ 24)

/-- UPD_TXN_BEGIN (R680). -/
def updTxnBegin (pid : Pid) : Upd := put pid MEM_UPD_CMD (2 ^ 31 + 6 * 2 ^ 24)

/-- UPD_TXN_END (R680). -/
def updTxnEnd (pid : Pid) : Upd := put pid MEM_UPD_CMD (2 ^ 31 + 7 * 2 ^ 24)

/-- UPD_TXN_READ (R680). -/
def updTxnRead (pid : Pid) : Upd := put pid MEM_UPD_CMD (2 ^ 31 + 8 * 2 ^ 24)

/-- UPD_CONFIRM (R675). -/
def updConfirm (pid : Pid) (health : Bool) (safe : Bool) : Upd := put pid MEM_UPD_CONFIRM (safe.toNat * 2 + health.toNat)

/-- CHANNEL_COMMAND (R281): a write of LSW_CH_CMD. -/
def channelCommand (pid : Pid) (g : Fin 64) (w : Word) : Upd := put pid (LSW_CH_CMD g) w.toNat

/-- CHANNEL_CONFIG_WRITE (R286): a write of LSW_CH_CFG. -/
def channelConfigWrite (pid : Pid) (g : Fin 64) (w : Word) : Upd := put pid (LSW_CH_CFG g) w.toNat

/-- OLON_CLEAR (R343): OLON of LSW_DG_OLON_STAT written 1. -/
def olonClear (pid : Pid) (g : Fin 64) : Upd := put pid (LSW_DG_OLON_STAT g) (2 ^ 31)

end Sys2Proof.Machine
end

