-- ==== Sys2Proof/Machine/Rx.lean ====
section
/-!
DEFINITION. Requests from outside the module: packets of the chain that end here, reads and writes of a PCIe host, write-sync
barriers; and the transfers of the triplets' DMA channels (09, 25, 26).
-/
namespace Sys2Proof.Machine

/-! ## Packets for this device (R60, R61, R568, R604, R620) -/

/-- A local address that another device's packets reach: the slices of R60. -/
def State.sliceHolds (s : State) (a : Nat) : Bool :=
  (decide (a % 0x10000000 < 0x1000000) && decide (0x10000000 ≤ a) && decide (a < 0x60000000))
    || (s.flag FLK_DRAM_AP_EN && decide (s.get FLK_DRAM_AP_BASE * 0x8000000 ≤ a) && decide (a < (s.get FLK_DRAM_AP_BASE + 1) * 0x8000000))

/-- The address a packet reaches here; a bulk packet names any of this device (R646). -/
def State.pktAddr (s : State) (p : Pkt) : Option Nat :=
  let a := p.w2 % 2 ^ 32 + p.addrHi % 256 * 2 ^ 32
  match placeOf a with
  | .chain d off => if d = s.devNum then s.sliceAddr off else none
  | _ => if p.type = 7 ∨ s.sliceHolds a then some a else none

/-- Who makes a packet's request. -/
def pktOrigin (p : Pkt) : Origin := if p.srcHost then .host 0 else .chain p.src (if p.instV then p.inst else 0)

/-- A failed posted write is reported to its source (R594). -/
def faultBack (p : Pkt) (a cause : Nat) : Upd := .read fun s =>
  flkOut (toSource p { type := 5, vc := 0, mgmt := some (.writeFault
    (2 ^ 31 + 2 ^ 28 + cause * 2 ^ 24 + s.devNum * 2 ^ 16 + p.pid % 64 * 2 ^ 8 + p.instV.toNat)
    (p.wseq % 65536 * 2 ^ 16 + p.inst % 256) (a % 2 ^ 32) (p.data.length * 2 ^ 16 + a / 2 ^ 32)) })

/-- The completion of a packet's read (R567). -/
def readBack (p : Pkt) (r : Resp) : Upd :=
  flkOut (toSource p { type := 3, vc := 2, tag := p.tag, len := r.data.length, w2 := if r.ok then 0 else 2 ^ 28 + r.cause * 2 ^ 24,
                       data := r.data.map (BitVec.ofNat 8) })

/-- The transfer that a packet makes at the fabric: it enters in region N (notes/assumptions/85.md: with the class of the Finza ports'
context, or of the physical function where a host made it). -/
def pktXfer (p : Pkt) (a kind : Nat) (reply : Option Pkt) : Xfer :=
  { src := 1, ctx := if p.srcHost then 62 else 63, rcd := 256, who := (p.pid, true), org := pktOrigin p, reply := reply, addr := a,
    kind := kind, n := if kind = 0 then p.len else p.data.length, data := if kind = 0 then [] else p.data }

/-- A packet's read or write is served; not beyond region N while that is isolated (R65). -/
def pktServe (p : Pkt) : Upd := .read fun s =>
  let a := (s.pktAddr p).getD (p.w2 % 2 ^ 32 + p.addrHi % 256 * 2 ^ 32)
  if s.muted 1 (if p.srcHost then 62 else 63) a then (if p.type = 2 then readBack p (errResp 5) else faultBack p a 5)
  else if p.type = 2 then
    if p.len = 0 then readBack p {}
    else if (s.pktAddr p).isNone then .seq (refuse p.pid a 0 1) (readBack p (errResp 1))
    else serve (pktXfer p a 0 (some p)) (fun _ => readBack p (errResp 1)) (readBack p)
  else if p.data.isEmpty then .skip
  else if (s.pktAddr p).isNone then .seq (refuse p.pid a 1 1) (faultBack p a 1)
  else serve (pktXfer p a 1 none) (fun _ => .skip) fun r =>
    if r.ok then .skip else faultBack p a r.cause

/-- A packet waits: a semaphore holds the host's access (R603, R604), memory holds it, or an earlier one of its source waits. -/
def State.pktHeld (s : State) (p : Pkt) : Bool :=
  s.b.hbr.heldPkt.any (fun q => q.src == p.src && q.srcHost == p.srcHost)
    || (match s.pktAddr p with
      | some a => (p.srcHost && (s.semHolds 0 a (max p.len p.data.length)).isSome) || s.mustWait 1 p.pid a (max p.len p.data.length)
      | none => false)

/-- A read or write packet: at once, or behind what holds it. -/
def pktAccess (p : Pkt) : Upd := .read fun s =>
  if s.pktHeld p then updHbr fun h => { h with heldPkt := h.heldPkt ++ [p] } else pktServe p

/-- Packets that waited go on, in order. -/
def retryPackets : Upd := .read fun s => whenU (!s.b.hbr.heldPkt.isEmpty)
  (.seq (updHbr fun h => { h with heldPkt := [] }) (forEach s.b.hbr.heldPkt pktAccess))

/-- A mailbox packet (R619, R620): a message of a manager (DIR 1) for the receive address of the instance's owner here, or a message or an
acknowledgement for the instance, accepted from its OKIND 3 owner (notes/assumptions/111.md). -/
def pktMailbox (p : Pkt) : Upd := .read fun s =>
  let n := p.inst % 256
  let own := s.flag (IOM_INST_STAT_BOUND n) && s.okind n == 3 && s.get (IOM_INST_OWNER_DEV n) == (if p.srcHost then 0 else p.src)
  if own ∨ ¬ bit (leValue ((p.data.drop 4).take 4)) 15 then
    if ¬ own ∨ p.pid ≠ s.instPid n then faultBack p 0 8
    else if p.data.isEmpty then whenU (s.ownerLive n) (mbAckEff n)
    else if s.flag (IOM_INST_STAT_TOMGR_FULL n) then faultBack p 0 8
    else whenU (s.ownerLive n) (seqs [
      forN 16 fun i => setReg (IOM_IP_MB_OUT n i) (leValue ((p.data.drop (4 * i)).take 4)), mbSendEff n p.src p.pid])
  else
    let a := s.reg (IOM_RMBOX_LO n) + s.reg (IOM_RMBOX_HI n) % 256 * 2 ^ 32
    if s.isolated 1 then faultBack p a 5
    else serve (pktXfer p a 1 none) (fun _ => .skip) fun r => if r.ok then .skip else faultBack p a r.cause

/-- A packet that ends at this device. -/
def pktLocal (p : Pkt) : Upd := match p.type with
  | 1 => pktAccess p
  | 2 => pktAccess p
  | 3 => completion p
  | 4 => pktMailbox p
  | 5 => (match p.mgmt with
    | some (.lost v i w) => lostWrite v i w
    | some (.writeFault a b c d) => writeFault a b c d
    | _ => .skip)
  | 6 => sigByAddr (leValue (p.data.take 4) % 2 ^ 31) (leValue ((p.data.drop 8).take 8)) (p.pid % 64) 0xFFFF true
  | 7 => if p.wseq = 0xFFFE then relayIn p else pktAccess p
  | 8 => tunnelRx p
  | _ => .skip

/-- FINZA_PACKET_RX (R567 to R571): bytes arrive at port `c`. -/
def finzaPacketRx (c : Fin 2) (i : FinzaIn) : Upd := finzaRx pktLocal c i

/-! ## The PCIe host (R585 to R593, R598, R603, R608) -/

/-- Where an access of a function leads: a fabric address, a word of an MSI-X table by vector, a word of a pending bit array, bytes of
a BAR that read 0, or nowhere. -/
inductive HostPlace where
  | fabric (a : Nat) | msix (v w : Nat) | pba (i : Nat) | zero | unmapped
  deriving DecidableEq, Repr

/-- The bound instance that a VF owns (R588). -/
def State.vfInst (s : State) (fn : Nat) : Option Nat :=
  (List.range 256).find? fun n => s.flag (IOM_INST_STAT_BOUND n) && s.okind n == 2 && s.get (IOM_INST_OWNER_VF n) == fn

/-- The BAR maps of R586 to R588. -/
def State.hostPlace (s : State) (fn : Nat) (bar2 : Bool) (o : Nat) : HostPlace :=
  if fn = 0 then
    if bar2 then .fabric (0x100000000 + o % 0x400000000)
    else if o < 0x800000 then .fabric (0x10000000 + o)
    else if o < 0x808000 then .msix (o % 0x8000 / 16) (o % 16 / 4)
    else if o < 0x808100 then .pba (o % 256 / 4)
    else if 0x1000000 ≤ o ∧ o < 0x4000000 then .fabric (0x10000000 * (o / 0x1000000 + 1) + o % 0x1000000)
    else .unmapped
  else if s.get HBR_LINK_STAT_NUM_VF < fn then .unmapped
  else if bar2 then (if o < 0x200 then .msix (o / 16) (o % 16 / 4) else if o = 0x800 then .pba 0 else .zero)
  else match s.vfInst fn with
    | none => .unmapped
    | some n => if o < 0x4000 then .fabric (0x2B000000 + 0x4000 * n + o) else .zero

/-- The record, the context and the generation of a function's accesses (R586, R588, R592). -/
def State.hostRec (s : State) (fn : Nat) : Nat := if fn = 0 then 256 else (s.vfInst fn).getD 256
def State.hostCtx (s : State) (fn : Nat) : Nat := if s.hostRec fn = 256 then 62 else 256 + s.hostRec fn
def State.hostGen (s : State) (fn : Nat) : Nat := if s.hostRec fn = 256 then 0 else s.get (IOM_INST_GEN_GEN (s.hostRec fn))

/-- The port takes requests of the host. -/
def State.hostOpen (s : State) : Bool := s.pcie && s.hostUp && s.bootOpen

/-- A host access to `n` bytes at `a` waits: for a semaphore, or for memory. -/
def State.hostHeld (s : State) (fn a n : Nat) : Bool :=
  (s.semHolds fn a n).isSome || s.mustWait 1 (s.ctxPid (s.hostCtx fn)).1 (s.resolve a) (min n 256)

/-- The transfer of a function's access: it enters in region N. -/
def State.hostXfer (s : State) (fn a kind n op : Nat) (data : List Byte) : Xfer :=
  { src := 1, ctx := s.hostCtx fn, rcd := s.hostRec fn, who := s.ctxPid (s.hostCtx fn), org := .host fn, addr := a, kind := kind, n := n,
    op := op, data := data }

/-- The refusal cause of a host's access: devices beyond a break of a closed ring stay reachable from the host (R576). -/
def State.hostCheck (s : State) (who : Nat × Bool) (a n kind : Nat) : Nat := match placeOf a with
  | .chain d off => if d ≠ s.devNum ∧ bit s.b.flk.far d ∧ sliceMapped off ∧ ¬ s.isolated 1 then 0 else s.checkAt who a n kind
  | _ => s.checkAt who a n kind

/-- A write with its number goes to its target. -/
def hostWrGo (w : HeldWr) : Upd := .read fun s =>
  let ctx := s.hostCtx w.func
  let who := s.ctxPid ctx
  let a := s.resolve w.addr
  let gen := s.hostGen w.func
  let fail (cause : Nat) : Upd := lateRecord w.recN 1 cause s.devNum who.1 a w.data.length w.wseq gen true
  if s.muted 1 62 a then fail 5
  else
    let cause := s.hostCheck who a w.data.length 1
    if cause ≠ 0 then .seq (refuse who.1 a 1 cause) (fail cause)
    else .seq (account 1 ctx who.1 a w.data.length) (match placeOf a with
      | .chain d _ => chainSend w.recN w.wseq { writePkt d who.1 a w.data with srcHost := true } (targetAddr a)
      | _ => serveAt (s.hostXfer w.func a 1 w.data.length 0 w.data) a (fun _ => .skip) fun r => if r.ok then .skip else fail r.cause)

/-- A write is held, behind an earlier one of its function or by what holds its address, or goes. -/
def hostWrSend (w : HeldWr) : Upd := .read fun s =>
  if s.b.hbr.heldWr.any (·.func == w.func) ∨ s.hostHeld w.func w.addr w.data.length then
    updHbr fun h => { h with heldWr := h.heldWr ++ [w] }
  else hostWrGo w

/-- Words of a host write to a table in the bridge. -/
def tableWrite (fn v w : Nat) (data : List Byte) : Upd := forN (data.length / 4) fun i =>
  msixWrite fn (v + (w + i) / 4) ((w + i) % 4) (leValue ((data.drop (4 * i)).take 4))

/-- HOST_WRITE (R593): a posted write of function `fn` at an offset of a BAR (PF: BAR0 or BAR2). `err`: the bridge queue finds no error, a
corrected one or an uncorrectable one; 3: the TLP is poisoned and the write discarded (R591). With 256 writes waiting the host has no credits to send. -/
def hostWrite (fn : Fin 64) (bar2 : Bool) (off : Fin 17179869184) (data : List Byte) (err : Fin 4) : Upd := .read fun s =>
  whenU (s.hostOpen && !data.isEmpty && decide (s.b.hbr.heldWr.length < 256)) (
    if err = 3 then aerLog ⟨fn, .poisoned, true, 1, off, data.length⟩
    else if ¬ s.flag (BLK_STAT_ENABLED 14) then answer (errResp 0)
    else
      let rcd := s.hostRec fn
      seqs [
        count HBR_CNT_HOST_WR,
        match err.val with | 0 => .skip | 1 => report 14 none CE | _ => report 14 none TR,
        match s.hostPlace fn bar2 off with
        | .fabric a => forN ((data.length + 255) / 256) fun i =>
            let part := (data.drop (256 * i)).take 256
            takeWseq rcd fun q => if err = 2 then lateRecord rcd 3 0 s.devNum (s.ctxPid (s.hostCtx fn)).1 (a + 256 * i) part.length q (s.hostGen fn) true
              else hostWrSend ⟨fn, rcd, q, a + 256 * i, part⟩
        | .msix v w => whenU (err != 2) (tableWrite fn v w data)
        | .pba _ => .skip
        | .zero => .skip
        | .unmapped => if fn.val = 0 then takeWseq 256 fun q => .seq (refuse (s.ctxPid 62).1 off 1 1)
              (lateRecord 256 1 1 s.devNum (s.ctxPid 62).1 off data.length q 0 true)
            else .seq (answer (errResp 1)) (aerLog ⟨fn, .unsupported, false, 1, off, data.length⟩)])

/-- A host read has its data or its error (R64, R591). -/
def hostRdEnd (h : HostRd) (r : Resp) : Upd :=
  .seq (answer r) (whenU (!r.ok) (.seq (rdErr (if r.cause = 1 ∨ r.cause = 4 then 2 else 3) h.func) (hostRdAer h r.cause)))

/-- Reads of at most 256 B each, in address order. -/
def hostParts (h : HostRd) : Nat → Nat → Nat → List Nat → Upd
  | 0, _, _, got => hostRdEnd h { ok := true, data := got }
  | m + 1, a, n, got => .read fun s => serve (s.hostXfer h.func a 0 (min n 256) 0 []) (fun _ => hostRdEnd h (errResp 1)) fun r =>
      if ¬ r.ok then hostRdEnd h r
      else if n ≤ 256 then hostRdEnd h { ok := true, data := got ++ r.data }
      else hostParts h m (a + 256) (n - 256) (got ++ r.data)

/-- A read that holds a tracker and that nothing holds proceeds. -/
def hostRdGo (r : HostRd) : Upd := .read fun s =>
  let ctx := s.hostCtx r.func
  let who := s.ctxPid ctx
  let a := s.resolve r.addr
  if s.muted 1 62 a then hostRdEnd r (errResp 5)
  else match r.op with
  | some (op, bs) => serve (s.hostXfer r.func a 2 r.len op bs) (fun _ => .skip) (hostRdEnd r)
  | none => match placeOf a, s.hostCheck who a (min r.len 256) 0 with
    | .chain d _, 0 =>
      let n := (r.len + 255) / 256
      seqs [forN n fun i => account 1 ctx who.1 a (min 256 (r.len - 256 * i)),
        updHbr fun h => { h with reads := h.reads ++ [{ r with chain := true, need := n }] },
        forN n fun i => chainRead d 2 r.id (min 256 (r.len - 256 * i)) who.1 (a + 256 * i) true,
        showTrk]
    | _, _ => hostParts r ((r.len + 255) / 256) a r.len []

/-- A read with a tracker: it waits behind a write of its function, for a semaphore or for memory, or proceeds. -/
def hostRdTake (r : HostRd) : Upd := .read fun s =>
  if s.b.hbr.heldWr.any (·.func == r.func) ∨ s.hostHeld r.func r.addr r.len then
    .seq (updHbr fun h => { h with reads := h.reads ++ [r] }) showTrk
  else hostRdGo r

/-- A read takes a free tracker, or waits for one. -/
def hostRdStart (r : HostRd) : Upd := .read fun s =>
  if s.trkFree ∧ s.b.hbr.waitRd.isEmpty then hostRdTake r else updHbr fun h => { h with waitRd := h.waitRd ++ [r] }

/-- HOST_READ (R593, R598): a read of function `fn` of `len` bytes, or an AtomicOp: 0 swap, 1 add, 2 compare and swap (R585), its operand
bytes; `err` as for a write. -/
def hostRead (fn : Fin 64) (bar2 : Bool) (off : Fin 17179869184) (len : Fin 4097) (atomic : Option (Fin 3 × List Byte)) (err : Fin 4) : Upd :=
  .read fun s => let op := atomic.map fun e => ((if e.1 = 2 then 9 else e.1.val), e.2)
    let req (a : Nat) : HostRd := ⟨s.b.hbr.next, fn, a, len, op, false, 0, []⟩
    whenU (s.hostOpen && len != 0) (
    if err = 3 then seqs [answer (errResp 0), rdErr 3 fn, aerLog ⟨fn, .poisoned, true, if op.isSome then 2 else 0, off, len⟩]
    else if ¬ s.flag (BLK_STAT_ENABLED 14) then hostRdEnd (req off) (errResp 0)
    else seqs [
      count HBR_CNT_HOST_RD,
      match err.val with | 0 => .skip | 1 => report 14 none CE | _ => report 14 none TR,
      if err = 2 then hostRdEnd (req off) (errResp 0)
      else match s.hostPlace fn bar2 off with
      | .fabric a => .seq (updHbr fun h => { h with next := h.next + 1 }) (hostRdStart (req a))
      | .msix v w => answer { ok := true, data := ((List.range (len / 4)).map fun i =>
          (leBytes 4 ((s.msixEntry fn (v + (w + i) / 4)).getD ((w + i) % 4) 0)).map (·.toNat)).flatten }
      | .pba i => answer { ok := true, data := ((List.range len).map fun j =>
          (List.range 8).foldl (fun m b => if s.b.hbr.pba.contains (2048 * fn + 32 * i + 8 * j + b) then m + 2 ^ b else m) 0) }
      | .zero => answer { ok := true, data := List.replicate len 0 }
      | .unmapped => .seq (whenU (fn.val == 0) (refuse (s.ctxPid 62).1 off 0 1)) (hostRdEnd (req off) (errResp 1))])

/-- Host accesses that waited go on: writes in order, then reads that hold trackers, then reads that wait for one. -/
def retryHost : Upd := seqs [
  .read fun s => whenU (!s.b.hbr.heldWr.isEmpty)
    (.seq (updHbr fun h => { h with heldWr := [] }) (forEach s.b.hbr.heldWr hostWrSend)),
  .read fun s => forEach (s.b.hbr.reads.filter fun r => !r.chain) fun r =>
    seqs [updHbr fun h => { h with reads := h.reads.erase r }, hostRdTake r, showTrk],
  .read fun s => forEach s.b.hbr.waitRd fun r => .read fun t => whenU t.trkFree
    (.seq (updHbr fun h => { h with waitRd := h.waitRd.erase r }) (hostRdTake r))]

/-- WSYNC_BARRIER (R597): a read of HBR_WSYNC, or of the write-sync word of instance `n` by its owner. -/
def wsyncBarrier (pid : Pid) (n : Fin 257) : Upd :=
  if h : n.val < 256 then byOwner ⟨n.val, h⟩ fun o p =>
    wordAccess p (IOM_IP_WSYNC n) 0 (wordRead o p none (IOM_IP_WSYNC n) answer)
  else wordAccess pid HBR_WSYNC 0 (wordRead .loc pid none HBR_WSYNC answer)

/-! ## The DMA channels of the triplets (R235, R237) -/

/-- A channel ends. -/
def iwDmaEnd (x ch : Nat) (err : Bool) : Upd := .read fun s => seqs [
  set (IW_DMA_STAT_BUSY x ch) 0, set (IW_DMA_CTRL_GO x ch) 0,
  if err then set (IW_DMA_STAT_ERR x ch) 1 else set (IW_DMA_STAT_DONE x ch) 1,
  whenU (s.flag (IW_DMA_CTRL_IRQ_EN x ch)) (raise (1 + x) 6)]

/-- At most `m` transfers of a channel, each within one block of 256 B at both ends: `left` bytes from `src` to `dst`. `stop`: the channel
ends in error after them. -/
def iwDmaCopy (x ch : Nat) (stop : Bool) : Nat → Nat → Nat → Nat → Upd
  | 0, _, _, _ => iwDmaEnd x ch stop
  | m + 1, src, dst, left => if left = 0 then iwDmaEnd x ch stop else .read fun s =>
    let ctx := 51 + 4 * x
    let who := s.ctxPid ctx
    let n := min (s.pieceLen who.1 src left) (s.pieceLen who.1 dst left)
    engineRead 0 ctx who src n fun r => match r with
      | none => iwDmaEnd x ch true
      | some d => engineWrite 0 ctx who dst d fun ok => if ok then iwDmaCopy x ch stop m (src + n) (dst + n) (left - n) else iwDmaEnd x ch true

/-- The addresses and the length of a channel; LEN = 0 stands for 16 MiB. -/
def State.iwDmaArgs (s : State) (x ch : Nat) : Nat × Nat × Nat :=
  let l := s.reg (IW_DMA_LEN x ch) % 2 ^ 24
  (s.reg (IW_DMA_SRC_LO x ch) + s.reg (IW_DMA_SRC_HI x ch) % 256 * 2 ^ 32, s.reg (IW_DMA_DST_LO x ch) + s.reg (IW_DMA_DST_HI x ch) % 256 * 2 ^ 32,
    if l = 0 then 0x1000000 else l)

/-- The transfers that `n` bytes take at most. -/
def iwDmaFuel (n : Nat) : Nat := 2 * pieceFuel n

/-- IW_DMA_DONE: a running channel has moved its bytes, or ended in error. It does not end while MEM holds the DRAM port (R213). -/
def iwDmaDone (x : Fin 2) (ch : Fin 4) : Upd := .read fun s => whenU (s.flag (IW_DMA_STAT_BUSY x ch) && s.iwDmaRuns x && !s.b.mem.held) (
  let (src, dst, n) := s.iwDmaArgs x ch
  iwDmaCopy x ch false (iwDmaFuel n) src dst n)

/-- A fatal error or a restart ends a channel: how many of its transfers were granted before is a free value. -/
def iwDmaStopped (x ch : Nat) : Upd := .read fun s => whenU (s.flag (IW_DMA_STAT_BUSY x ch)) (
  let (src, dst, n) := s.iwDmaArgs x ch
  free fun v => iwDmaCopy x ch true (v % iwDmaFuel n) src dst n)

end Sys2Proof.Machine
end

