-- ==== Sys2Proof/Machine/Mig.lean ====
section
/-!
DEFINITION. Migrating instances: the commands of IOM_MIG_CMD, the Instance State Block, dirty logging's commands, copying across the
chain (28_migrating_instances.md).
-/
namespace Sys2Proof.Machine

/-- CRC-32C (reflected, initial value and final XOR all ones). -/
def crc32c (l : List Byte) : Nat :=
  (l.foldl (fun c b => (List.range 8).foldl (fun c _ => if c % 2 = 1 then (c / 2) ^^^ 0x82F63B78 else c / 2) (c ^^^ b.toNat)) 0xFFFFFFFF) ^^^ 0xFFFFFFFF

/-- The address of IOM_MIG_BUF. -/
def State.migBuf (s : State) : Nat := s.reg IOM_MIG_BUF_LO + s.get IOM_MIG_BUF_HI_ADDR_HI * 2 ^ 32

def setMig (n v : Nat) : Upd := set (IOM_INST_STAT_MIG_STATE n) v

/-! ## Freezing (R637) -/

/-- The bound function is at its element boundary. -/
def State.migQuiet (s : State) (n : Nat) : Bool :=
  let a := s.instArg n
  match s.instKind n with
  | 1 => (s.canCh (a % 16)).tx.isNone
  | 2 => (s.linCh (a % 16)).cur.isNone
  | 4 => match mapGet none s.b.swq.rxWait (8 * (20 + bits a 8 8) + a % 8) with | some w => w.first | none => true
  | _ => true

/-- MIG_FROZEN: the element in flight has ended. -/
def migFrozen (n : Fin 256) : Upd := .read fun s => whenU (s.migState n == 1 && s.migQuiet n) (setMig n 2)

/-! ## The Instance State Block (R638, R639) -/

/-- Registers that take writes but are not carried, by KIND and function-space address. -/
def migOmits (kind x : Nat) (l : Loc) : Bool := match kind with
  | 1 => [0x00, 0x54, 0x64, 0x68, 0xDC, 0xE0, 0xE4].contains x
  | 2 => x == 0x00 || x == 0x2C
  | 3 => l.off == 0 || l.row.fs.any fun f => f.acc == .sp || f.acc == .spSc || f.acc == .spW1s
  | 5 => x == 8
  | _ => false

/-- The function-space addresses of the OP 1 entries. -/
def State.migRegs (s : State) (n : Nat) : List Nat := ((List.range 0x400).map (4 * ·)).filter fun x => match s.funcTarget n x with
  | some (t, true) => (match placeOf t, locate t with
    | .page _, some l => l.row.fs.any (·.acc.owned) && !migOmits (s.instKind n) x l
    | _, _ => false)
  | _ => false

/-- The value an OP 1 entry carries. -/
def State.migValue (s : State) (n x : Nat) : Nat := match s.instKind n with
  | 4 => let v := s.reg (((s.funcTarget n x).getD (0, true)).1)
         if x = 4 ∨ x = 0x14 then v % 2 ^ 31 else v
  | 5 => let p := s.instPid n
         if x = 0 then mapGet 0 s.b.srt.stage p % 2 ^ 32 else if x = 4 then mapGet 0 s.b.srt.stage p / 2 ^ 32 else mapGet 0 s.b.srt.rdAddr p
  | _ => s.reg (((s.funcTarget n x).getD (0, true)).1)

/-- The bits of a FIFO's GET, PUT and FILL. -/
def fifoBits : Nat := 0x7F3F3F

/-- The OP 2 items and their values. -/
def State.migItems (s : State) (n : Nat) : List (Nat × Nat) :=
  let a := s.instArg n
  let c := a % 16
  let p := 20 + bits a 8 8
  match s.instKind n with
  | 1 => [(0x0101, s.reg (CAN_TXBUF_PEND c)), (0x0102, s.reg (CAN_TXQ_PEND c)), (0x0103, s.reg (CAN_FIFO0_STAT c) &&& fifoBits),
      (0x0104, s.reg (CAN_FIFO1_STAT c) &&& fifoBits), (0x0105, s.reg (CAN_EVT_STAT c) &&& fifoBits), (0x0106, s.reg (CAN_RXBUF_NEW_LO c)),
      (0x0107, s.reg (CAN_RXBUF_NEW_HI c))]
  | 2 => [(0x0201, s.get (LIN_SCHED_CTRL_RUN c) * 2 ^ 31 + (s.linCh c).next % 64 * 2 ^ 8 + s.get (LIN_SCHED_CTRL_START c)),
      (0x0202, s.reg (LIN_SPOR_PEND_LO c)), (0x0203, s.reg (LIN_SPOR_PEND_HI c))]
  | 3 => [(0x0301, (cellsOfBind 3 a).foldl (fun m e => if s.flag (CELL_CTRL_EN e.1 e.2) then m + 2 ^ e.2 else m) 0)]
  | 4 => [(0x0401, s.get (ETP_QTX_HEAD_INDEX p 0 (a % 8))), (0x0402, s.get (ETP_QRX_HEAD_INDEX p 0 (a % 8))),
      (0x0403, s.get (ETP_QTX_BASE_HI_EN p 0 (a % 8)) + 2 * s.get (ETP_QRX_BASE_HI_EN p 0 (a % 8)))]
  | 6 => [(0x0601, s.get (VLT_RING_HEAD_INDEX (a % 32))), (0x0602, s.get (VLT_RING_TAIL_INDEX (a % 32))), (0x0603, s.reg (VLT_RING_CFG (a % 32)))]
  | _ => []

/-- The ISB of instance `n`. -/
def State.isb (s : State) (n : Nat) : List Byte :=
  let body := ((s.migRegs n).map fun x => leBytes 4 (2 ^ 28 + x) ++ leBytes 4 (s.migValue n x)).flatten
    ++ ((s.migItems n).map fun e => leBytes 4 (2 ^ 29 + e.1) ++ leBytes 4 e.2).flatten
  let e := body.length / 8
  let flags := s.logWord n 5 / 2 ^ 31 % 2 + 2 * s.get (IOM_INST_STAT_TOMGR_FULL n) + 4 * s.get (IOM_INST_STAT_FROMMGR_FULL n)
    + (List.range 4).foldl (fun m k => m + s.get (IOM_DELIV1_PEND n k) * 2 ^ (4 + k)) 0
  let words (f : Nat → Nat) : List Byte := ((List.range 16).map fun i => leBytes 4 (s.reg (f i))).flatten
  let head := leBytes 2 1 ++ leBytes 2 (192 + 8 * e) ++ [BitVec.ofNat 8 (s.instKind n), BitVec.ofNat 8 (s.okind n), BitVec.ofNat 8 s.devNum,
      BitVec.ofNat 8 n, BitVec.ofNat 8 (s.get (IOM_INST_GEN_GEN n)), BitVec.ofNat 8 flags] ++ leBytes 2 e
    ++ leBytes 4 (s.instArg n) ++ leBytes 4 (s.get (IOM_IP_APER_APER n)) ++ leBytes 8 s.devTime
  let rest := leBytes 28 0 ++ words (IOM_IP_MB_OUT n) ++ words (IOM_IP_MB_IN n) ++ body
  leBytes 4 0x1B599664 ++ head ++ leBytes 4 (crc32c (leBytes 4 0 ++ head ++ leBytes 4 0 ++ rest)) ++ rest

/-- MIG_SAVE_DONE (R638, R648): the ISB is written with the identity of context 58, then the journal record where asked for. A refused
write leaves the instance FROZEN. -/
def migSaveDone : Upd := .read fun s =>
  let n := s.get IOM_MIG_RES_INST
  whenU (s.flag IOM_MIG_RES_BUSY && s.get IOM_MIG_RES_OP == 2 && s.migState n == 3) (
    let d := s.isb n
    dmaWrite 58 (s.migBuf + 4) (d.drop 4) fun ok => if ¬ ok then .seq (setMig n 2) (migEnd 5)
      else dmaWrite 58 s.migBuf (d.take 4) fun ok => if ¬ ok then .seq (setMig n 2) (migEnd 5)
      else seqs [
        set IOM_MIG_LEN_LEN d.length,
        whenU s.b.iom.jrnl (seqs [updFw fun u => { u with journal := u.journal.filter (·.kind != 8) }, journal { kind := 8, data := d }, showMigJrnl]),
        setMig n 4, migEnd 0])

/-! ## RESTORE (R640, R641) -/

/-- The two words of every body entry. -/
def isbBody : Nat → List Byte → List (Nat × Nat)
  | 0, _ => []
  | e + 1, l => (leValue (l.take 4), leValue ((l.drop 4).take 4)) :: isbBody e (l.drop 8)

/-- An item belongs to a KIND. -/
def itemOf (kind i : Nat) : Bool := match kind with
  | 1 => decide (0x0101 ≤ i) && decide (i ≤ 0x0107)
  | 2 => decide (0x0201 ≤ i) && decide (i ≤ 0x0203)
  | 3 => i == 0x0301
  | 4 => decide (0x0401 ≤ i) && decide (i ≤ 0x0403)
  | 6 => decide (0x0601 ≤ i) && decide (i ≤ 0x0603)
  | _ => false

/-- The first check of R640 that an ISB of `d.length` bytes fails. -/
def State.isbErr (s : State) (n : Nat) (d : List Byte) : Nat :=
  let w (o k : Nat) := leValue ((d.drop o).take k)
  let len := w 6 2
  let e := w 0x0E 2
  let zeroed := leBytes 4 0 ++ (d.take 0x20).drop 4 ++ leBytes 4 0 ++ (d.take len).drop 0x24
  if w 0 4 ≠ 0x1B599664 ∨ len < 192 ∨ 4096 < len ∨ len ≠ 192 + 8 * e ∨ w 0x20 4 ≠ crc32c zeroed then 3
  else if 1 < w 4 2 then 3
  else if w 8 1 ≠ s.instKind n then 4
  else if (isbBody e (d.drop 0xC0)).any fun x => !(match x.1 / 2 ^ 28 with
    | 1 => (s.funcTarget n (x.1 % 2 ^ 20)).isSome
    | 2 => itemOf (s.instKind n) (x.1 % 2 ^ 16)
    | _ => false) then 3
  else 0

/-- OP 1 entries in order; the continuation learns whether one was refused. -/
def migApply (n : Nat) : List (Nat × Nat) → (Bool → Upd) → Upd
  | [], k => k true
  | e :: es, k => .read fun s =>
    let x := e.1 % 2 ^ 20
    if e.1 / 2 ^ 28 ≠ 1 then migApply n es k
    else if s.funcCause n x e.2 ≠ 0 then .seq (funcWrite .loc n x e.2) (k false)
    else .seq (funcWrite .loc n x e.2) (migApply n es k)

/-- An ISB that passed its checks is applied. -/
def migRestoreGo (n : Nat) (d : List Byte) : Upd :=
  let body := isbBody (leValue ((d.drop 0x0E).take 2)) (d.drop 0xC0)
  let flags := ((d[0x0D]?).getD 0).toNat
  let word (o i : Nat) := leValue ((d.drop (o + 4 * i)).take 4)
  .seq (setMig n 5) (migApply n body fun ok => if ¬ ok then seqs [
      updIom fun x => { x with restored := mapPut [] x.restored n [(0, 0)] }, setMig n 2, migEnd 5] else seqs [
    updIom fun x => { x with restored := mapPut [] x.restored n ((0, 0) :: (body.filter fun e => e.1 / 2 ^ 28 = 2).map fun e => (e.1 % 2 ^ 16, e.2)) },
    forN 16 fun i => seqs [setReg (IOM_IP_MB_OUT n i) (word 0x40 i), setReg (IOM_IP_MB_IN n i) (word 0x80 i),
      whenU (bit flags 1) (setReg (IOM_INST_MB_TOMGR n i) (word 0x40 i)), whenU (bit flags 2) (setReg (IOM_INST_MB_FROMMGR n i) (word 0x80 i))],
    set (IOM_INST_STAT_TOMGR_FULL n) (bit flags 1).toNat, putBit (IOM_TOMGR_PEND (n / 32)) (n % 32) (bit flags 1),
    set (IOM_INST_STAT_FROMMGR_FULL n) (bit flags 2).toNat,
    set (IOM_IP_APER_APER n) (word 0x14 0 % 32),
    forN 4 fun k => set (IOM_DELIV1_PEND n k) (bit flags (4 + k)).toNat,
    setMig n 2, migEnd 0])

/-- Every bound cell of the instance is disabled, and every ring. -/
def State.migDisabled (s : State) (n : Nat) : Bool :=
  let a := s.instArg n
  match s.instKind n with
  | 4 => !s.flag (ETP_QTX_BASE_HI_EN (20 + bits a 8 8) 0 (a % 8)) && !s.flag (ETP_QRX_BASE_HI_EN (20 + bits a 8 8) 0 (a % 8))
  | 6 => !s.flag (VLT_RING_CFG_EN (a % 32))
  | k => (cellsOfBind k a).all fun e => !s.flag (CELL_STAT_ENABLED e.1 e.2)

def migRestoreRun (n : Nat) : Upd := .read fun s => dmaRead 58 s.migBuf 192 fun r => match r with
  | none => migEnd 5
  | some h =>
    let len := leValue ((h.drop 6).take 2)
    if len < 192 ∨ 4096 < len then migEnd 3
    else dmaRead 58 (s.migBuf + 192) (len - 192) fun r => match r with
      | none => migEnd 5
      | some t => let e := s.isbErr n (h ++ t)
                  if e ≠ 0 then migEnd e else migRestoreGo n (h ++ t)

/-! ## RESUME (R642) -/

/-- What RESUME does first on a restored instance; the continuation learns whether every enable was accepted. -/
def migRevive (n : Nat) (items : List (Nat × Nat)) (k : Bool → Upd) : Upd := .read fun s =>
  let a := s.instArg n
  let item (i : Nat) : Option Nat := (items.find? (·.1 == i)).map (·.2)
  let v (i : Nat) : Nat := (item i).getD 0
  let put (i : Nat) (u : Upd) : Upd := whenU (item i).isSome u -- an item that the ISB did not list leaves its register
  match s.instKind n with
  | 1 =>
    let c := a % 16
    seqs [set (CELL_CTRL_EN 9 c) 1, cellStart 9 c, .read fun s => if ¬ s.flag (CELL_STAT_ENABLED 9 c) then k false else seqs [
      forN 32 fun i => whenU (bit (v 0x0101) i) (makePending c i),
      forN 32 fun i => whenU (bit (v 0x0102) i) (makePending c (32 + i)),
      put 0x0103 (setReg (CAN_FIFO0_STAT c) (v 0x0103 &&& fifoBits)), put 0x0104 (setReg (CAN_FIFO1_STAT c) (v 0x0104 &&& fifoBits)),
      put 0x0105 (setReg (CAN_EVT_STAT c) (v 0x0105 &&& fifoBits)),
      setReg (CAN_RXBUF_NEW_LO c) (v 0x0106), setReg (CAN_RXBUF_NEW_HI c) (v 0x0107), k true]]
  | 2 =>
    let c := a % 16
    seqs [set (CELL_CTRL_EN 10 c) 1, cellStart 10 c, .read fun s => if ¬ s.flag (CELL_STAT_ENABLED 10 c) then k false else seqs [
      setReg (LIN_SPOR_PEND_LO c) (v 0x0202), setReg (LIN_SPOR_PEND_HI c) (v 0x0203),
      whenU (bit (v 0x0201) 31) (seqs [
        updLin c fun x => { x with first := v 0x0201 % 64, next := bits (v 0x0201) 13 8 },
        whenU (s.flag (LIN_CH_CFG_MASTER c)) (set (LIN_CH_STAT_SCHED c) 1)]),
      k true]]
  | 3 => seqs [
      forEach ((cellsOfBind 3 a).filter fun e => bit (v 0x0301) e.2) fun e => .seq (set (CELL_CTRL_EN e.1 e.2) 1) (cellStart e.1 e.2),
      k true]
  | 4 =>
    let p := 20 + bits a 8 8
    let q := a % 8
    seqs [set (ETP_QTX_BASE_HI_EN p 0 q) (v 0x0403 % 2), set (ETP_QRX_BASE_HI_EN p 0 q) (v 0x0403 / 2 % 2),
      put 0x0401 (set (ETP_QTX_HEAD_INDEX p 0 q) (v 0x0401)), put 0x0402 (set (ETP_QRX_HEAD_INDEX p 0 q) (v 0x0402)), k true]
  | 6 =>
    let r := a % 32
    seqs [put 0x0603 (setReg (VLT_RING_CFG r) (v 0x0603)), put 0x0601 (set (VLT_RING_HEAD_INDEX r) (v 0x0601)),
      put 0x0602 (set (VLT_RING_TAIL_INDEX r) (v 0x0602)), k true]
  | _ => k true

/-- Commands and signal writes that FREEZE stored take their turn. -/
def migRelease (n : Nat) (restored : Bool) : Upd := .read fun s => match s.instKind n with
  | 3 => forEach (cellsOfBind 3 (s.instArg n)) fun e =>
      let g := 16 * (e.1 - 16) + e.2
      .read fun s => whenU ((s.chan g).frz || (restored && s.flag (CELL_CTRL_EN e.1 e.2)))
        (.seq (updChan g fun c => { c with frz := false }) (command g (s.reg (LSW_CH_CMD g)) (s.chan g).nextSrc true))
  | 5 =>
    let p := s.instPid n
    .seq (updSrt fun x => { x with heldWr := x.heldWr.filter (·.1 != p) }) (forEach (s.b.srt.heldWr.filter (·.1 == p)) fun w => sigWrHook w.1 w.2)
  | _ => .skip

def migResumeRun (n : Nat) : Upd := .read fun s =>
  let items := mapGet [] s.b.iom.restored n
  let go : Upd := seqs [
    updIom fun x => { x with restored := mapPut [] x.restored n [] },
    setMig n 0, migRelease n (!items.isEmpty),
    .read fun s => forN 4 fun k => whenU (s.flag (IOM_DELIV1_PEND n k) && s.flag (IOM_DELIV1_EN n k) && !s.flag (IOM_DELIV1_MASK n k))
      (.seq (set (IOM_DELIV1_PEND n k) 0) (raiseVec n k)),
    migEnd 0]
  if items.isEmpty then go else migRevive n items fun ok => if ok then go else migEnd 5

/-! ## Copying (R646, R647) -/

/-- At most `m` parts of 256 B: to the module itself, or in bulk packets. -/
def migCopyRun (dev pid : Nat) : Nat → Nat → Nat → Nat → (Nat → Upd) → Upd
  | 0, _, _, _, k => k 0
  | m + 1, src, dst, left, k =>
    let n := min 256 left
    dmaRead 58 src n fun r => match r with
      | none => k 5
      | some d => .read fun s =>
        if dev = s.devNum then dmaWrite 58 dst d fun ok => if ok then migCopyRun dev pid m (src + n) (dst + n) (left - n) k else k 5
        else .seq (flkOut { type := 7, vc := 3, dst := dev, pid := pid, len := n, w2 := dst % 2 ^ 32, addrHi := dst / 2 ^ 32 % 256, wseq := 0xFFFF, data := d })
          (migCopyRun dev pid m (src + n) (dst + n) (left - n) k)

def migCopyStart : Upd := .read fun s =>
  let dev := s.get IOM_MIG_DEV_DEV
  let len := s.get IOM_MIG_LEN_LEN
  let dst := s.reg IOM_MIG_DST_LO + s.get IOM_MIG_DST_HI_ADDR_HI * 2 ^ 32
  let pid := (s.ctxPid 58).1
  let own := dev = s.devNum
  if ¬ own ∧ ¬ s.inChain dev then migEnd 8
  else .seq (updIom fun x => { x with copy := some 0 }) (migCopyRun dev pid ((len + 255) / 256) s.migBuf dst len fun code =>
    if code ≠ 0 then updIom fun x => { x with copy := some code }
    else if own then updIom fun x => { x with copy := some 100 }
    else chainRead dev 3 0 0 pid 0x100000000 false)

/-- COPY ends with the code it met. -/
def migCopyEnd (c : Nat) : Upd := .seq (updIom fun x => { x with copy := none }) (migEnd (if c = 100 then 0 else c))

/-- MIG_COPY_DONE: every byte has arrived. -/
def migCopyDone : Upd := .read fun s => whenU (s.flag IOM_MIG_RES_BUSY && s.b.iom.copy == some 100) (migCopyEnd 100)

/-! ## The commands (R635) -/

/-- The command that IOM_MIG_CMD started runs; SAVE and COPY go on until MIG_SAVE_DONE and MIG_COPY_DONE. -/
def migJob : Upd := .read fun s => whenU (s.flag IOM_MIG_RES_BUSY) (
  let n := s.get IOM_MIG_RES_INST
  let m := s.get IOM_MIG_SEL_INST
  let bound (i : Nat) : Bool := s.flag (IOM_INST_STAT_BOUND i)
  let st := s.migState n
  let on := decide (2 ^ 31 ≤ s.logWord m 5)
  match s.get IOM_MIG_RES_OP with
  | 1 => if ¬ bound n then migEnd 2 else if st ≠ 0 ∨ s.flag (IOM_INST_STAT_RESETTING n) then migEnd 1 else .seq (setMig n 1) (migEnd 0)
  | 2 =>
    if st = 3 then .skip
    else if ¬ bound n then migEnd 2
    else if st ≠ 2 ∨ !(mapGet [] s.b.iom.restored n).isEmpty then migEnd 1
    else .seq (updIom fun x => { x with jrnl := s.flag IOM_MIG_CMD_JRNL }) (setMig n 3)
  | 3 => if ¬ bound n then migEnd 2 else if st ≠ 2 ∧ st ≠ 4 then migEnd 1 else migResumeRun n
  | 4 =>
    if ¬ bound n then migEnd 2
    else if st ≠ 0 ∨ s.flag (IOM_INST_STAT_RESETTING n) ∨ ¬ s.migDisabled n then migEnd 1
    else migRestoreRun n
  | 5 =>
    if ¬ bound m ∨ (s.okind m ≠ 1 ∧ s.okind m ≠ 3) then migEnd 7
    else if on then migEnd 0
    else seqs [putLog m 3 (s.reg IOM_LOG_SWAP_LO), putLog m 4 (s.reg IOM_LOG_SWAP_HI),
      .read fun s => putLog m 5 (2 ^ 31 + s.logWord m 5 % 2 ^ 29), migEnd 0]
  | 6 => .seq (whenU on (putLog m 5 (s.logWord m 5 % 2 ^ 31))) (migEnd 0)
  | 7 =>
    if ¬ on then migEnd 1
    else seqs [putLog m 3 (s.reg IOM_LOG_SWAP_LO), putLog m 4 (s.reg IOM_LOG_SWAP_HI),
      putLog m 5 (2 ^ 31 + bits (s.logWord m 5) 30 29 * 2 ^ 27),
      setReg IOM_LOG_SWAP_LO (s.logWord m 3), setReg IOM_LOG_SWAP_HI (s.logWord m 4), migEnd 0]
  | 8 => (match s.b.iom.copy with
    | none => migCopyStart
    | some c => whenU (c != 0 && c != 100) (migCopyEnd c))
  | 9 => (match s.migRecord with
    | none => migEnd 9
    | some d => dmaWrite 58 s.migBuf d fun ok => migEnd (if ok then 0 else 5))
  | _ => migEnd 10)

end Sys2Proof.Machine
end

