-- ==== Sys2Proof/Machine/React.lean ====
section
/-!
DEFINITION. What follows a command at once: the reactions that fell due (R260 step 5, R265 to R268, R271), resets and resumes that
were started, work that a condition releases, interrupts and messages that leave the module; and a command's operation as a step.
-/
namespace Sys2Proof.Machine

/-! ## Reactions (R265 to R268) -/

/-- The code of a due reaction where its unit carries it out (R228, R266). -/
def Due.effect (d : Due) : Nat :=
  if 27 ≤ d.unit then (if d.code ≤ 3 then min d.code 1 else max d.code 6)
  else if 23 ≤ d.unit then (match d.code with | 2 => 1 | 3 => 1 | 4 => 5 | c => c)
  else if d.unit = 1 ∨ d.unit = 2 then (if d.code = 2 ∨ d.code = 3 then 1 else d.code)
  else if d.cell.isSome then d.code
  else (match d.code with | 2 => 1 | 3 => 4 | c => c)

/-- The cell that a due fault retires: its final class is PM or FT, or its code says so (R263). -/
def Due.retires (d : Due) : Option (Nat × Nat) := match d.cell with
  | some c => if d.unit ≠ 1 ∧ d.unit ≠ 2 ∧ d.unit ≤ 22 ∧ (PM ≤ d.cls ∨ d.code = 3) then some (d.unit, c) else none
  | none => none

/-- The region of a block or of a region page: 0 C, 1 N, 2 P, 3 A. -/
def regionOfUnit (k : Nat) : Nat := if 23 ≤ k then k - 23 else if k ≤ 6 then 0 else if k ≤ 15 then 1 else if k ≤ 20 then 2 else 3

/-- BLOCK_RESET reactions of unit `k` in the last 10 s. -/
def State.recentResets (s : State) (k : Nat) : Nat :=
  s.b.fab.resets.countP fun e => e.1 == k && decide (s.now < e.2 + 10000 * msCycles)

/-- REGION_ISOLATE on region `r` for source `src`; on C and P it is MODULE_SAFE (R66, R267). A region already isolated
only counts it (R275). -/
def regionIsolate (r src : Nat) : Upd := .read fun s =>
  if r = 0 ∨ r = 2 then enterModuleSafe src
  else if s.isolated r then inc ⟨BLK_ERR_CNT (23 + r), 8 * PM + 7, 8 * PM⟩
  else seqs [set (BLK_CTRL_ISOLATE (23 + r)) 1, set (BLK_STAT_ISOLATED (23 + r)) 1, report (23 + r) none PM]

/-- A BLOCK_RESET reaction of unit `k`, isolated instead after RST_MAX of them (R268). -/
def resetReaction (k src : Nat) : Upd := .read fun s =>
  let m := s.get (MSU_FLT_CFG_RST_MAX k)
  if m ≠ 0 ∧ m ≤ s.recentResets k then regionIsolate (regionOfUnit k) src
  else .seq (updFab fun f => { f with resets := (k, s.now) :: f.resets.filter fun e => decide (s.now < e.2 + 10000 * msCycles) }) (blockReset k)

/-- The highest code below MODULE_RESET that fell due for unit `k`, and its source. -/
def topDue (l : List Due) (k : Nat) : Nat × Nat := (l.filter (·.unit == k)).foldl (fun m d => if m.1 < d.effect then (d.effect, d.src) else m) (0, 0)

/-- The reactions of one moment, combined unit by unit. -/
def dueWork : Upd := .read fun s =>
  let l := s.b.fab.due
  whenU (!l.isEmpty) (.seq (updFab fun f => { f with due := [] }) (
    if l.any fun d => d.effect == 7 then .seq assertFaultN (askReset 4)
    else seqs [
      whenU (s.flag MSU_FAULT_CFG_FAULTN_ALL_FT && l.any fun d => d.cls == FT && !d.dry) assertFaultN,
      forEach l fun d => match d.retires with | some (k, c) => retireCell k c | none => .skip,
      forN 30 fun k => match topDue l k with
        | (4, src) => resetReaction k src
        | (5, src) => regionIsolate (regionOfUnit k) src
        | (6, src) => enterModuleSafe src
        | _ => .skip]))

/-! ## Work that conditions release -/

/-- Loaded keys whose slot changed are lost (R434, R495). -/
def keysLost : Upd := .read fun s => seqs [
  forEach s.b.srt.keys fun e => match e.2 with | some k => whenU (s.keyLost k) (srtKeyLost e.1) | none => .skip,
  forEach s.b.swq.keys fun e => match e.2 with | some k => whenU (s.keyLost k) (saKeyLost (e.1 / 32) (e.1 % 32)) | none => .skip]

/-- The posted write of vector `k` of an instance with a local owner (R621). -/
def vecPost (n k : Nat) : Upd := .read fun s =>
  let x : Xfer :=
    { src := 0, ctx := 256 + n, rcd := n, who := (s.instPid n, true), kind := 1, n := 4, data := leBytes 4 (s.reg (IOM_DELIV2 n k)),
      addr := s.reg (IOM_DELIV0 n k) + s.get (IOM_DELIV1_ADDR_HI n k) * 2 ^ 32 }
  whenU (!s.flag (BLK_CTRL_ISOLATE 6)) (serve x (fun _ => .skip) (fun _ => .skip))

/-- Raised vectors are delivered in order. -/
def vectors : Upd := .read fun s => whenU (!s.b.iom.vecs.isEmpty)
  (.seq (updIom fun x => { x with vecs := [] }) (forEach s.b.iom.vecs fun e => deliver vecPost e.1 e.2))

/-- Wired sources that rose send their message to the PCIe host (R590). -/
def wiredVectors : Upd := .read fun s => whenU (s.pcie && s.hostUp) (
  let up := (List.range 65).filter s.wiredLine
  whenU (up != s.b.hbr.wired) (.seq (updHbr fun h => { h with wired := up })
    (forEach (up.filter fun i => !s.b.hbr.wired.contains i) fun i => msixSend 0 i)))

/-- Triplets: DMA channels that a fatal error or restart ended, and triplets whose debugger let go. -/
def tripletWork : Upd := forN 2 fun x => .read fun s => seqs [
  whenU (!(s.iw x).ending.isEmpty) (.seq (updIw x fun t => { t with ending := [] }) (forEach (s.iw x).ending (iwDmaStopped x))),
  whenU ((s.iw x).stopped.isSome && !s.b.vlt.halted.contains (12 + 3 * x)) (iwResume x)]

/-- Below BROWN a wake from Suspend or Watch waits until V_LOGIC is back (R89). -/
def State.wakeHeld (s : State) : Bool := s.b.psm.brown && s.gladeRules

/-- A reset or a resume that was started takes place. -/
def startedWork : Upd := seqs [
  .read fun s => match s.b.fab.reset with | some c => whenU (!s.wakeHeld) (moduleReset c) | none => .skip,
  diceReset,
  .read fun s => match s.b.psm.resume with | some f => whenU (!s.wakeHeld) (resumeRun f) | none => .skip]

/-- One round of everything that follows. -/
def settleRound : Upd := seqs [
  dueWork, startedWork, dieFwWork, phyFwWork, keysLost, tripletWork, migJob, instLines, vectors, wiredVectors, retryHost, retryPackets, retryWaiting, lockWork, aiaWork, flkPump,
  forN 5 fun i => internalLink (20 + i), sweepFrames, showOwnIrq, powerDownWork, slotsRetired, showSlots, deepTry, wakeHolds, drainsEnd, nmWork, wdogShow]

/-- Something waits for another round. -/
def State.unsettled (s : State) : Bool := !s.b.fab.due.isEmpty || (s.waking && !s.wakeHeld) || !s.b.iom.vecs.isEmpty
  || !s.b.flk.out.isEmpty

/-- Rounds until nothing waits; at most `n` more. -/
def settleMore : Nat → Upd
  | 0 => .skip
  | n + 1 => .read fun s => whenU s.unsettled (.seq settleRound (settleMore n))

def settle : Upd := seqs [settleRound, settleMore 16, interconnectsFree]

/-- A command's operation, then what follows from it. -/
def finish (u : Upd) (s : State) : Host.Outcome State Fault Refusal := .next ((Upd.seq u settle).run s)

end Sys2Proof.Machine
end

