-- ==== Sys2Proof/Machine/Exec.lean ====
section
/-!
DEFINITION. The meaning of each command as a step: its operation, then the reactions of the faults it reported (R260 step 5,
R268) carried out at once.
-/
namespace Sys2Proof.Machine

/-- FABRIC_REQUEST (R63); refused by name where it leads into a window that belongs to another standard. -/
def execFabricRequest (q : FabReq) (s : State) : Host.Outcome State Fault Refusal :=
  match deviceGuard q s with
  | some a => .refused (.deviceWindow a)
  | none => finish (fabricRequest q) s

/-- AGE_PROMOTION (R46). -/
def execAgePromotion (r : Fin 4) (s : State) : Host.Outcome State Fault Refusal :=
  finish (agePromotion r) s

/-- BW_PERIOD_START (R49). -/
def execBwPeriodStart (s : State) : Host.Outcome State Fault Refusal :=
  finish (bwPeriodStart) s

/-- ISOLATION_RESPONSE_TIMEOUT (R65). -/
def execIsolationResponseTimeout (tag : Fin 256) (s : State) : Host.Outcome State Fault Refusal :=
  finish (isolationResponseTimeout tag) s

/-- REGISTER_WRITE (R78). -/
def execRegisterWrite (pid : Pid) (a : Fin 1099511627776) (v : Word) (s : State) : Host.Outcome State Fault Refusal :=
  finish (registerWrite pid a v) s

/-- CLEAR_ON_READ (R80). -/
def execClearOnRead (pid : Pid) (a : Fin 1099511627776) (s : State) : Host.Outcome State Fault Refusal :=
  finish (clearOnRead pid a) s

/-- BLOCK_ENABLE (R81). -/
def execBlockEnable (pid : Pid) (k : Fin 28) (s : State) : Host.Outcome State Fault Refusal :=
  finish (blockEnable pid k) s

/-- BLOCK_DISABLE (R81). -/
def execBlockDisable (pid : Pid) (k : Fin 28) (s : State) : Host.Outcome State Fault Refusal :=
  finish (blockDisable pid k) s

/-- BLOCK_SOFT_RESET (R81). -/
def execBlockSoftReset (pid : Pid) (k : Fin 28) (s : State) : Host.Outcome State Fault Refusal :=
  finish (blockSoftReset pid k) s

/-- BLOCK_ISOLATE (R71). -/
def execBlockIsolate (pid : Pid) (k : Fin 28) (on : Bool) (s : State) : Host.Outcome State Fault Refusal :=
  finish (blockIsolate pid k on) s

/-- DRAIN_COMPLETE (R81). -/
def execDrainComplete (k : Fin 23) (c : Option (Fin 512)) (s : State) : Host.Outcome State Fault Refusal :=
  finish (drainComplete k c) s

/-- CELL_ENABLE (R81). -/
def execCellEnable (pid : Pid) (k : Fin 23) (c : Fin 512) (s : State) : Host.Outcome State Fault Refusal :=
  finish (cellEnable pid k c) s

/-- CELL_DISABLE (R81). -/
def execCellDisable (pid : Pid) (k : Fin 23) (c : Fin 512) (s : State) : Host.Outcome State Fault Refusal :=
  finish (cellDisable pid k c) s

/-- CELL_RESET (R77). -/
def execCellReset (pid : Pid) (k : Fin 23) (c : Fin 512) (s : State) : Host.Outcome State Fault Refusal :=
  finish (cellReset pid k c) s

/-- CELL_RETIRE_WRITE (R263). -/
def execCellRetireWrite (pid : Pid) (k : Fin 23) (c : Fin 512) (s : State) : Host.Outcome State Fault Refusal :=
  finish (cellRetireWrite pid k c) s

/-- CELL_REARM (R264). -/
def execCellRearm (pid : Pid) (k : Fin 23) (c : Fin 512) (s : State) : Host.Outcome State Fault Refusal :=
  finish (cellRearm pid k c) s

/-- IRQ_SET (R73). -/
def execIrqSet (pid : Pid) (k : Fin 28) (v : Word) (s : State) : Host.Outcome State Fault Refusal :=
  finish (irqSet pid k v) s

/-- CONFIG_LOCK (R76). -/
def execConfigLock (pid : Pid) (k : Fin 28) (s : State) : Host.Outcome State Fault Refusal :=
  finish (configLock pid k) s

/-- ERR_INJ_ARM (R274). -/
def execErrInjArm (pid : Pid) (k : Fin 28) (c : Fin 4096) (cls : Fin 4) (s : State) : Host.Outcome State Fault Refusal :=
  finish (errInjArm pid k c cls) s

/-- ERR_INJ_TIMEOUT (R274). -/
def execErrInjTimeout (k : Fin 28) (s : State) : Host.Outcome State Fault Refusal :=
  finish (errInjTimeout k) s

/-- LEVEL_DECAY_TICK (R262). -/
def execLevelDecayTick (k : Fin 23) (s : State) : Host.Outcome State Fault Refusal :=
  finish (levelDecayTick k) s

/-- HEARTBEAT_MISS (R271). -/
def execHeartbeatMiss (d : Fin 4) (s : State) : Host.Outcome State Fault Refusal :=
  finish (heartbeatMiss d) s

/-- HEARTBEAT_RESUME (R271). -/
def execHeartbeatResume (d : Fin 4) (s : State) : Host.Outcome State Fault Refusal :=
  finish (heartbeatResume d) s

/-- SAFE_EXIT (R272). -/
def execSafeExit (pid : Pid) (key : Fin 256) (s : State) : Host.Outcome State Fault Refusal :=
  finish (safeExit pid key) s

/-- WDOG_KICK (R273). -/
def execWdogKick (pid : Pid) (w : Fin 4) (key : Fin 256) (s : State) : Host.Outcome State Fault Refusal :=
  finish (wdogKick pid w key) s

/-- WDOG_EXPIRY (R273). -/
def execWdogExpiry (i : Fin 4) (s : State) : Host.Outcome State Fault Refusal :=
  finish (wdogExpiry i) s

/-- PROT_LOCK (R147). -/
def execProtLock (pid : Pid) (s : State) : Host.Outcome State Fault Refusal :=
  finish (protLock pid) s

/-- PWR_STATE_REQUEST (R95). -/
def execPwrStateRequest (pid : Pid) (t : Fin 8) (s : State) : Host.Outcome State Fault Refusal :=
  finish (pwrStateRequest pid t) s

/-- TRANSITION_DONE (R96). -/
def execTransitionDone (s : State) : Host.Outcome State Fault Refusal :=
  finish (transitionDone) s

/-- TRANSITION_LOADS_OFF (R97). -/
def execTransitionLoadsOff (commit : Bool) (s : State) : Host.Outcome State Fault Refusal :=
  finish (transitionLoadsOff commit) s

/-- POWER_DOWN_COMPLETE (R97). -/
def execPowerDownComplete (samples : List (Fin 1024)) (fail : Bool) (s : State) : Host.Outcome State Fault Refusal :=
  finish (powerDownComplete samples fail) s

/-- SUSPEND_MAX_EXPIRY (R96). -/
def execSuspendMaxExpiry (s : State) : Host.Outcome State Fault Refusal :=
  finish (suspendMaxExpiry) s

/-- DIE_ENABLE (R718). -/
def execDieEnable (pid : Pid) (d : Fin 4) (s : State) : Host.Outcome State Fault Refusal :=
  finish (dieEnable pid d) s

/-- SURGE_ENTER (R86). -/
def execSurgeEnter (s : State) : Host.Outcome State Fault Refusal :=
  finish (surgeEnter) s

/-- SURGE_EXIT (R86). -/
def execSurgeExit (s : State) : Host.Outcome State Fault Refusal :=
  finish (surgeExit) s

/-- OV_LONG (R88). -/
def execOvLong (s : State) : Host.Outcome State Fault Refusal :=
  finish (ovLong) s

/-- OV_LONG_RELEASE (R88). -/
def execOvLongRelease (s : State) : Host.Outcome State Fault Refusal :=
  finish (ovLongRelease) s

/-- LOWV_ENTER (R87). -/
def execLowvEnter (s : State) : Host.Outcome State Fault Refusal :=
  finish (lowvEnter) s

/-- LOWV_EXIT (R87). -/
def execLowvExit (s : State) : Host.Outcome State Fault Refusal :=
  finish (lowvExit) s

/-- BROWNOUT (R89). -/
def execBrownout (s : State) : Host.Outcome State Fault Refusal :=
  finish (brownout) s

/-- BROWNOUT_RECOVERY (R89). -/
def execBrownoutRecovery (s : State) : Host.Outcome State Fault Refusal :=
  finish (brownoutRecovery) s

/-- RETENTION_LOSS (R89). -/
def execRetentionLoss (s : State) : Host.Outcome State Fault Refusal :=
  finish (retentionLoss) s

/-- POR_ASSERT (R89). -/
def execPorAssert (s : State) : Host.Outcome State Fault Refusal :=
  finish (porAssert) s

/-- POWER_ON_RESET (R138). -/
def execPowerOnReset (s : State) : Host.Outcome State Fault Refusal :=
  finish (powerOnReset) s

/-- REVERSAL_END (R90). -/
def execReversalEnd (s : State) : Host.Outcome State Fault Refusal :=
  finish (reversalEnd) s

/-- KL30_LOST (R91). -/
def execKl30Lost (i : Fin 2) (s : State) : Host.Outcome State Fault Refusal :=
  finish (kl30Lost i) s

/-- KL30_RESTORED (R86). -/
def execKl30Restored (i : Fin 2) (s : State) : Host.Outcome State Fault Refusal :=
  finish (kl30Restored i) s

/-- BAT_LOST (R91). -/
def execBatLost (i : Fin 2) (s : State) : Host.Outcome State Fault Refusal :=
  finish (batLost i) s

/-- BAT_RESTORED (R91). -/
def execBatRestored (i : Fin 2) (s : State) : Host.Outcome State Fault Refusal :=
  finish (batRestored i) s

/-- GND_LOSS (R91). -/
def execGndLoss (s : State) : Host.Outcome State Fault Refusal :=
  finish (gndLoss) s

/-- WAKE_COMPARATOR_EVENT (R101). -/
def execWakeComparatorEvent (i : Fin 10) (rise : Bool) (samples : List (Fin 1024)) (fail : Bool) (s : State) : Host.Outcome State Fault Refusal :=
  finish (wakeComparatorEvent i rise samples fail) s

/-- DS_MASK_REARM (R99). -/
def execDsMaskRearm (i : Fin 10) (s : State) : Host.Outcome State Fault Refusal :=
  finish (dsMaskRearm i) s

/-- GLADE_SAMPLE_DUE (R113), an element of work at which an armed fault strikes (R274). -/
def execGladeSampleDue (c : Fin 32) (v : Fin 1024) (late : Bool) (fail : Bool) (s : State) : Host.Outcome State Fault Refusal :=
  finish (.seq (workFire 22 (some c.val)) (gladeSampleDue c v late fail)) s

/-- GLADE_CONVERSION_TIMEOUT (R117). -/
def execGladeConversionTimeout (c : Fin 32) (s : State) : Host.Outcome State Fault Refusal :=
  finish (gladeConversionTimeout c) s

/-- FLASH_TOGGLE (R124). -/
def execFlashToggle (k : Fin 8) (s : State) : Host.Outcome State Fault Refusal :=
  finish (flashToggle k) s

/-- MAX_ON_EXPIRY (R124). -/
def execMaxOnExpiry (k : Fin 8) (s : State) : Host.Outcome State Fault Refusal :=
  finish (maxOnExpiry k) s

/-- DLOAD_RETURN (R125). -/
def execDloadReturn (k : Fin 8) (s : State) : Host.Outcome State Fault Refusal :=
  finish (dloadReturn k) s

/-- GLADE_SERVICE_END (R125). -/
def execGladeServiceEnd (s : State) : Host.Outcome State Fault Refusal :=
  finish (gladeServiceEnd) s

/-- WATCH_MAX_EXPIRY (R126). -/
def execWatchMaxExpiry (s : State) : Host.Outcome State Fault Refusal :=
  finish (watchMaxExpiry) s

/-- GLADE_SEQ_WDOG (R110). -/
def execGladeSeqWdog (s : State) : Host.Outcome State Fault Refusal :=
  finish (gladeSeqWdog) s

/-- WAKE_REASON_CLEAR (R136). -/
def execWakeReasonClear (pid : Pid) (s : State) : Host.Outcome State Fault Refusal :=
  finish (wakeReasonClear pid) s

/-- GLD_WAKE_ACK (R129). -/
def execGldWakeAck (pid : Pid) (s : State) : Host.Outcome State Fault Refusal :=
  finish (gldWakeAck pid) s

/-- VALIDATION_WINDOW_EXPIRY (R130). -/
def execValidationWindowExpiry (s : State) : Host.Outcome State Fault Refusal :=
  finish (validationWindowExpiry) s

/-- FW_DIS_CLEAR (R130). -/
def execFwDisClear (pid : Pid) (hi : Bool) (v : Word) (s : State) : Host.Outcome State Fault Refusal :=
  finish (fwDisClear pid hi v) s

/-- GLADE_STORE_SAVE (R132). -/
def execGladeStoreSave (pid : Pid) (s : State) : Host.Outcome State Fault Refusal :=
  finish (gladeStoreSave pid) s

/-- GLADE_SAVE_DONE (R132). -/
def execGladeSaveDone (ok : Bool) (s : State) : Host.Outcome State Fault Refusal :=
  finish (gladeSaveDone ok) s

/-- MODULE_RESET_RELEASE (R143). -/
def execModuleResetRelease (x : BootIn) (recA recB okA okB : Bool) (s : State) : Host.Outcome State Fault Refusal :=
  finish (moduleResetRelease x recA recB okA okB) s

/-- BOOT_TIMEOUT (R148). -/
def execBootTimeout (s : State) : Host.Outcome State Fault Refusal :=
  finish (bootTimeout) s

/-- SOFTWARE_RESET (R159). -/
def execSoftwareReset (pid : Pid) (key : Fin 256) (s : State) : Host.Outcome State Fault Refusal :=
  finish (softwareReset pid key) s

/-- DEBUG_RESET (R138). -/
def execDebugReset (s : State) : Host.Outcome State Fault Refusal :=
  finish (debugReset) s

/-- LOOP_CNT_CLEAR (R141). -/
def execLoopCntClear (s : State) : Host.Outcome State Fault Refusal :=
  finish (loopCntClear) s

/-- PERST_ASSERT (R140). -/
def execPerstAssert (s : State) : Host.Outcome State Fault Refusal :=
  finish (perstAssert) s

/-- PERST_DEASSERT (R140). -/
def execPerstDeassert (s : State) : Host.Outcome State Fault Refusal :=
  finish (perstDeassert) s

/-- TEST_ACCESS_RESET (R138). -/
def execTestAccessReset (s : State) : Host.Outcome State Fault Refusal :=
  finish (testAccessReset) s

/-- SLOT_WRITE (R173). -/
def execSlotWrite (pid : Pid) (slot : Fin 512) (s : State) : Host.Outcome State Fault Refusal :=
  finish (slotWrite pid slot) s

/-- SLOT_GENERATE (R173). -/
def execSlotGenerate (pid : Pid) (slot : Fin 512) (s : State) : Host.Outcome State Fault Refusal :=
  finish (slotGenerate pid slot) s

/-- SLOT_DERIVE (R174). -/
def execSlotDerive (pid : Pid) (slot : Fin 512) (s : State) : Host.Outcome State Fault Refusal :=
  finish (slotDerive pid slot) s

/-- SLOT_INVALIDATE (R175). -/
def execSlotInvalidate (pid : Pid) (slot : Fin 512) (s : State) : Host.Outcome State Fault Refusal :=
  finish (slotInvalidate pid slot) s

/-- SLOT_ERASE (R175). -/
def execSlotErase (pid : Pid) (slot : Fin 512) (s : State) : Host.Outcome State Fault Refusal :=
  finish (slotErase pid slot) s

/-- PURGE_VISIT (R176). -/
def execPurgeVisit (s : State) : Host.Outcome State Fault Refusal :=
  finish (purgeVisit) s

/-- TRNG_HEALTH_FAIL (R164). -/
def execTrngHealthFail (s : State) : Host.Outcome State Fault Refusal :=
  finish (trngHealthFail) s

/-- DRBG_RESEED (R162). -/
def execDrbgReseed (s : State) : Host.Outcome State Fault Refusal :=
  finish (drbgReseed) s

/-- LIFECYCLE_COMMAND (R166). -/
def execLifecycleCommand (pid : Pid) (key : Fin 256) (target : Fin 8) (s : State) : Host.Outcome State Fault Refusal :=
  finish (lifecycleCommand pid key target) s

/-- LIFECYCLE_FUSE_BLOWN (R166). -/
def execLifecycleFuseBlown (s : State) : Host.Outcome State Fault Refusal :=
  finish (lifecycleFuseBlown) s

/-- VLT_RING_DOORBELL (R179). -/
def execVltRingDoorbell (pid : Pid) (r : Fin 32) (tail : Fin 1024) (s : State) : Host.Outcome State Fault Refusal :=
  finish (vltRingDoorbell pid r tail) s

/-- JOB_CIPHER (R181), an element of work at which an armed fault strikes (R274). -/
def execJobCipher (s : State) (bad : Bool := false) : Host.Outcome State Fault Refusal :=
  finish (.seq (workFire 5 none) (jobCipher bad)) s

/-- JOB_MAC (R181), an element of work at which an armed fault strikes (R274). -/
def execJobMac (s : State) (bad : Bool := false) : Host.Outcome State Fault Refusal :=
  finish (.seq (workFire 5 none) (jobMac bad)) s

/-- JOB_HASH (R181), an element of work at which an armed fault strikes (R274). -/
def execJobHash (s : State) : Host.Outcome State Fault Refusal :=
  finish (.seq (workFire 5 none) (jobHash)) s

/-- JOB_SIGN (R181), an element of work at which an armed fault strikes (R274). -/
def execJobSign (s : State) (bad : Bool := false) : Host.Outcome State Fault Refusal :=
  finish (.seq (workFire 5 none) (jobSign bad)) s

/-- JOB_VERIFY (R181), an element of work at which an armed fault strikes (R274). -/
def execJobVerify (s : State) (bad : Bool := false) : Host.Outcome State Fault Refusal :=
  finish (.seq (workFire 5 none) (jobVerify bad)) s

/-- JOB_AGREE (R181), an element of work at which an armed fault strikes (R274). -/
def execJobAgree (s : State) (bad : Bool := false) : Host.Outcome State Fault Refusal :=
  finish (.seq (workFire 5 none) (jobAgree bad)) s

/-- JOB_DERIVE (R174), an element of work at which an armed fault strikes (R274). -/
def execJobDerive (s : State) (bad : Bool := false) : Host.Outcome State Fault Refusal :=
  finish (.seq (workFire 5 none) (jobDerive bad)) s

/-- JOB_PUBKEY (R181), an element of work at which an armed fault strikes (R274). -/
def execJobPubkey (s : State) (bad : Bool := false) : Host.Outcome State Fault Refusal :=
  finish (.seq (workFire 5 none) (jobPubkey bad)) s

/-- JOB_RANDOM (R181), an element of work at which an armed fault strikes (R274). -/
def execJobRandom (s : State) : Host.Outcome State Fault Refusal :=
  finish (.seq (workFire 5 none) (jobRandom)) s

/-- JOB_QUOTE (R184), an element of work at which an armed fault strikes (R274). -/
def execJobQuote (s : State) (bad : Bool := false) : Host.Outcome State Fault Refusal :=
  finish (.seq (workFire 5 none) (jobQuote bad)) s

/-- JOB_AUTH (R169), an element of work at which an armed fault strikes (R274). -/
def execJobAuth (s : State) : Host.Outcome State Fault Refusal :=
  finish (.seq (workFire 5 none) (jobAuth)) s

/-- JOB_ARB (R168), an element of work at which an armed fault strikes (R274). -/
def execJobArb (s : State) : Host.Outcome State Fault Refusal :=
  finish (.seq (workFire 5 none) (jobArb)) s

/-- JOB_OTP_AUTH (R181), an element of work at which an armed fault strikes (R274). -/
def execJobOtpAuth (s : State) : Host.Outcome State Fault Refusal :=
  finish (.seq (workFire 5 none) (jobOtpAuth)) s

/-- JOB_ERASE (R181), an element of work at which an armed fault strikes (R274). -/
def execJobErase (s : State) : Host.Outcome State Fault Refusal :=
  finish (.seq (workFire 5 none) (jobErase)) s

/-- MEAS_EXTEND (R183). -/
def execMeasExtend (pid : Pid) (m : Fin 16) (s : State) : Host.Outcome State Fault Refusal :=
  finish (measExtend pid m) s

/-- MEAS_R0_CLOSE (R183). -/
def execMeasR0Close (pid : Pid) (s : State) : Host.Outcome State Fault Refusal :=
  finish (measR0Close pid) s

/-- DEBUG_AUTH (R185). -/
def execDebugAuth (op : DbgAuth) (s : State) : Host.Outcome State Fault Refusal :=
  finish (debugAuth op) s

/-- HVPID_WRITE (R193). -/
def execHvpidWrite (h : Fin 12) (mode : Fin 5) (v : Option (BitVec 64)) (s : State) : Host.Outcome State Fault Refusal :=
  finish (hvpidWrite h mode v) s

/-- SPEC_BAR (R197). -/
def execSpecBar (h : Fin 12) (s : State) : Host.Outcome State Fault Refusal :=
  finish (specBar h) s

/-- CBO_FLUSH (R194). -/
def execCboFlush (h : Fin 12) (addr : BitVec 64) (s : State) : Host.Outcome State Fault Refusal :=
  finish (cboFlush h addr) s

/-- CLUSTER_CLOCK_CHANGE (R189). -/
def execClusterClockChange (pid : Pid) (k : Fin 3) (v : Word) (s : State) : Host.Outcome State Fault Refusal :=
  finish (clusterClockChange pid k v) s

/-- CLOCK_CHANGE_DONE (R189). -/
def execClockChangeDone (k : Fin 3) (s : State) : Host.Outcome State Fault Refusal :=
  finish (clockChangeDone k) s

/-- HART_RUN (R213). -/
def execHartRun (pid : Pid) (h : Fin 12) (s : State) : Host.Outcome State Fault Refusal :=
  finish (hartRun pid h) s

/-- HART_STOP (R213). -/
def execHartStop (pid : Pid) (h : Fin 12) (s : State) : Host.Outcome State Fault Refusal :=
  finish (hartStop pid h) s

/-- PAGE_RETIRE_DONE (R205). -/
def execPageRetireDone (s : State) : Host.Outcome State Fault Refusal :=
  finish (pageRetireDone) s

/-- SCRUB_STEP (R204), an element of work at which an armed fault strikes (R274). -/
def execScrubStep (ecc : Fin 3) (s : State) : Host.Outcome State Fault Refusal :=
  finish (.seq (workFire 4 none) (scrubStep ecc)) s

/-- REKEY_DONE (R209). -/
def execRekeyDone (s : State) : Host.Outcome State Fault Refusal :=
  finish (rekeyDone) s

/-- IW_VOTE (R223), an element of work at which an armed fault strikes (R274). -/
def execIwVote (x : Fin 2) (v : Fin 5) (c : Fin 5) (part : Fin 5) (tcm : Option (Fin 131072 × Bool)) (s : State) : Host.Outcome State Fault Refusal :=
  finish (.seq (workFire (1 + x.val) none) (iwVote x v c part tcm)) s

/-- RESYNC_DONE (R224). -/
def execResyncDone (x : Fin 2) (ok : Bool) (s : State) : Host.Outcome State Fault Refusal :=
  finish (resyncDone x ok) s

/-- IW_CORE_RETIRE_CMD (R225). -/
def execIwCoreRetireCmd (pid : Pid) (x : Fin 2) (k : Fin 3) (s : State) : Host.Outcome State Fault Refusal :=
  finish (iwCoreRetireCmd pid x k) s

/-- IW_CORE_REARM (R226). -/
def execIwCoreRearm (pid : Pid) (x : Fin 2) (k : Fin 3) (s : State) : Host.Outcome State Fault Refusal :=
  finish (iwCoreRearm pid x k) s

/-- IW_DECAY_TICK (R225). -/
def execIwDecayTick (x : Fin 2) (s : State) : Host.Outcome State Fault Refusal :=
  finish (iwDecayTick x) s

/-- VOTER_SELFTEST_INJECT (R229). -/
def execVoterSelftestInject (x : Fin 2) (ok : Bool) (s : State) : Host.Outcome State Fault Refusal :=
  finish (voterSelftestInject x ok) s

/-- STARTUP_SELFTEST_DONE (R231). -/
def execStartupSelftestDone (x : Fin 2) (fails : Fin 8) (s : State) : Host.Outcome State Fault Refusal :=
  finish (startupSelftestDone x fails) s

/-- TRIPLET_RESTART (R231). -/
def execTripletRestart (pid : Pid) (x : Fin 2) (s : State) : Host.Outcome State Fault Refusal :=
  finish (tripletRestart pid x) s

/-- IRQ_CLAIM (R233). -/
def execIrqClaim (pid : Pid) (x : Fin 2) (c : Fin 2) (s : State) : Host.Outcome State Fault Refusal :=
  finish (irqClaim pid x c) s

/-- IRQ_COMPLETE (R233). -/
def execIrqComplete (pid : Pid) (x : Fin 2) (c : Fin 2) (n : Fin 256) (s : State) : Host.Outcome State Fault Refusal :=
  finish (irqComplete pid x c n) s

/-- MACHINE_TIMER_INTERRUPT (R234). -/
def execMachineTimerInterrupt (x : Fin 2) (c : Fin 2) (s : State) : Host.Outcome State Fault Refusal :=
  finish (machineTimerInterrupt x c) s

/-- IW_DMA_START (R235). -/
def execIwDmaStart (pid : Pid) (x : Fin 2) (ch : Fin 4) (irq : Bool) (s : State) : Host.Outcome State Fault Refusal :=
  finish (iwDmaStart pid x ch irq) s

/-- IW_DMA_DONE (R235), an element of work at which an armed fault strikes (R274). -/
def execIwDmaDone (x : Fin 2) (ch : Fin 4) (s : State) : Host.Outcome State Fault Refusal :=
  finish (.seq (workFire (1 + x.val) none) (iwDmaDone x ch)) s

/-- DEBUG_HALT (R691). -/
def execDebugHalt (t : Fin 18) (s : State) : Host.Outcome State Fault Refusal :=
  finish (debugHalt t) s

/-- DEBUG_RESUME (R691). -/
def execDebugResume (t : Fin 18) (s : State) : Host.Outcome State Fault Refusal :=
  finish (debugResume t) s

/-- CYCLE_BOUNDARY (R240), an element of work at which an armed fault strikes (R274). -/
def execCycleBoundary (ok : Fin 32) (s : State) : Host.Outcome State Fault Refusal :=
  finish (.seq (workFire 3 none) (cycleBoundary ok)) s

/-- SNAPSHOT_READY (R241), an element of work at which an armed fault strikes (R274). -/
def execSnapshotReady (s : State) : Host.Outcome State Fault Refusal :=
  finish (.seq (workFire 3 none) (snapshotReady)) s

/-- COMPARE_POINT (R243). -/
def execComparePoint (s : State) : Host.Outcome State Fault Refusal :=
  finish (comparePoint) s

/-- MM_DECAY_TICK (R249). -/
def execMmDecayTick (s : State) : Host.Outcome State Fault Refusal :=
  finish (mmDecayTick) s

/-- ST_UNIT_START (R247). -/
def execStUnitStart (go : Bool) (s : State) : Host.Outcome State Fault Refusal :=
  finish (stUnitStart go) s

/-- ST_UNIT_END (R247). -/
def execStUnitEnd (slice : Bool) (march : Bool) (s : State) : Host.Outcome State Fault Refusal :=
  finish (stUnitEnd slice march) s

/-- CHANNEL_COMMAND (R281). -/
def execChannelCommand (pid : Pid) (g : Fin 64) (w : Word) (s : State) : Host.Outcome State Fault Refusal :=
  finish (channelCommand pid g w) s

/-- CHANNEL_CONFIG_WRITE (R286). -/
def execChannelConfigWrite (pid : Pid) (g : Fin 64) (w : Word) (s : State) : Host.Outcome State Fault Refusal :=
  finish (channelConfigWrite pid g w) s

/-- PWM_PERIOD_START (R289), an element of work at which an armed fault strikes (R274). -/
def execPwmPeriodStart (g : Fin 64) (t : Nat) (s : State) : Host.Outcome State Fault Refusal :=
  finish (.seq (workFire (16 + g.val / 16) (some (g.val % 16))) (pwmPeriodStart g t)) s

/-- PWM_ON_PHASE_END (R281), an element of work at which an armed fault strikes (R274). -/
def execPwmOnPhaseEnd (g : Fin 64) (t : Nat) (uj : Nat) (s : State) : Host.Outcome State Fault Refusal :=
  finish (.seq (workFire (16 + g.val / 16) (some (g.val % 16))) (pwmOnPhaseEnd g t uj)) s

/-- MOTOR_RAMP_STEP (R287), an element of work at which an armed fault strikes (R274). -/
def execMotorRampStep (g : Fin 64) (s : State) : Host.Outcome State Fault Refusal :=
  finish (.seq (workFire (16 + g.val / 16) (some (g.val % 16))) (motorRampStep g)) s

/-- MOTOR_START_WINDOW_END (R287). -/
def execMotorStartWindowEnd (g : Fin 64) (s : State) : Host.Outcome State Fault Refusal :=
  finish (motorStartWindowEnd g) s

/-- VALVE_PEAK_END (R288). -/
def execValvePeakEnd (g : Fin 64) (s : State) : Host.Outcome State Fault Refusal :=
  finish (valvePeakEnd g) s

/-- CURRENT_SAMPLE (R293), an element of work at which an armed fault strikes (R274). -/
def execCurrentSample (g : Fin 64) (x : LoadSample) (s : State) : Host.Outcome State Fault Refusal :=
  finish (.seq (workFire (16 + g.val / 16) (some (g.val % 16))) (currentSample g x)) s

/-- CHANNEL_PUBLISH (R295), an element of work at which an armed fault strikes (R274). -/
def execChannelPublish (g : Fin 64) (s : State) : Host.Outcome State Fault Refusal :=
  finish (.seq (workFire (16 + g.val / 16) (some (g.val % 16))) (channelPublish g)) s

/-- BOUND_SIGNAL_UPDATE (R296). -/
def execBoundSignalUpdate (g : Fin 64) (s : State) : Host.Outcome State Fault Refusal :=
  finish (boundSignalUpdate g) s

/-- BIND_TIMEOUT (R297). -/
def execBindTimeout (g : Fin 64) (s : State) : Host.Outcome State Fault Refusal :=
  finish (bindTimeout g) s

/-- GOVERNOR_EVAL (R298). -/
def execGovernorEval (s : State) : Host.Outcome State Fault Refusal :=
  finish (governorEval) s

/-- GOVERNOR_OVERRUN_SHED (R300). -/
def execGovernorOverrunShed (b : Fin 3) (s : State) : Host.Outcome State Fault Refusal :=
  finish (governorOverrunShed b) s

/-- TURN_OFF_COMPLETE (R303), an element of work at which an armed fault strikes (R274). -/
def execTurnOffComplete (g : Fin 64) (uj : Nat) (vClamp : Nat) (tNs : Nat) (s : State) : Host.Outcome State Fault Refusal :=
  finish (.seq (workFire (16 + g.val / 16) (some (g.val % 16))) (turnOffComplete g uj vClamp tNs)) s

/-- LIMIT_TIME_TRIP (R309). -/
def execLimitTimeTrip (g : Fin 64) (s : State) : Host.Outcome State Fault Refusal :=
  finish (limitTimeTrip g) s

/-- WIRE_MODEL_STEP (R312). -/
def execWireModelStep (g : Fin 64) (s : State) : Host.Outcome State Fault Refusal :=
  finish (wireModelStep g) s

/-- THERMAL_SHUTDOWN (R316). -/
def execThermalShutdown (g : Fin 64) (s : State) : Host.Outcome State Fault Refusal :=
  finish (thermalShutdown g) s

/-- THERMAL_LATCH_CLEAR (R317). -/
def execThermalLatchClear (g : Fin 64) (wire : Bool) (s : State) : Host.Outcome State Fault Refusal :=
  finish (thermalLatchClear g wire) s

/-- DIE_TEMP_CHANGE (R318). -/
def execDieTempChange (d : Fin 4) (t : Fin 256) (s : State) : Host.Outcome State Fault Refusal :=
  finish (dieTempChange d t) s

/-- DIE_SHED_STEP (R318). -/
def execDieShedStep (d : Fin 4) (s : State) : Host.Outcome State Fault Refusal :=
  finish (dieShedStep d) s

/-- DIE_UV_SET (R319). -/
def execDieUvSet (d : Fin 4) (s : State) : Host.Outcome State Fault Refusal :=
  finish (dieUvSet d) s

/-- DIE_UV_CLEAR (R319). -/
def execDieUvClear (d : Fin 4) (s : State) : Host.Outcome State Fault Refusal :=
  finish (dieUvClear d) s

/-- CLAMP_BUDGET_EXCEEDED (R321). -/
def execClampBudgetExceeded (g : Fin 64) (s : State) : Host.Outcome State Fault Refusal :=
  finish (clampBudgetExceeded g) s

/-- SOFT_RAMP_HOT (R323). -/
def execSoftRampHot (g : Fin 64) (s : State) : Host.Outcome State Fault Refusal :=
  finish (softRampHot g) s

/-- REPETITIVE_CLAMP_TRIP (R325). -/
def execRepetitiveClampTrip (g : Fin 64) (s : State) : Host.Outcome State Fault Refusal :=
  finish (repetitiveClampTrip g) s

/-- RETRY_DELAY_EXPIRY (R326). -/
def execRetryDelayExpiry (g : Fin 64) (s : State) : Host.Outcome State Fault Refusal :=
  finish (retryDelayExpiry g) s

/-- RETRY_BUDGET_REFILL (R326). -/
def execRetryBudgetRefill (g : Fin 64) (s : State) : Host.Outcome State Fault Refusal :=
  finish (retryBudgetRefill g) s

/-- COOL_WAIT_EXPIRY (R327). -/
def execCoolWaitExpiry (g : Fin 64) (s : State) : Host.Outcome State Fault Refusal :=
  finish (coolWaitExpiry g) s

/-- OFFSTATE_TEST_START (R341), an element of work at which an armed fault strikes (R274). -/
def execOffstateTestStart (g : Fin 64) (t : Nat) (s : State) : Host.Outcome State Fault Refusal :=
  finish (.seq (workFire (16 + g.val / 16) (some (g.val % 16))) (offstateTestStart g t)) s

/-- OFFSTATE_TEST_DONE (R337). -/
def execOffstateTestDone (g : Fin 64) (v : Fin 4096) (s : State) : Host.Outcome State Fault Refusal :=
  finish (offstateTestDone g v) s

/-- OLON_DETECT (R343). -/
def execOlonDetect (g : Fin 64) (s : State) : Host.Outcome State Fault Refusal :=
  finish (olonDetect g) s

/-- OLON_CLEAR (R343). -/
def execOlonClear (pid : Pid) (g : Fin 64) (s : State) : Host.Outcome State Fault Refusal :=
  finish (olonClear pid g) s

/-- LAMP_COMP_UPDATE (R346). -/
def execLampCompUpdate (g : Fin 64) (s : State) : Host.Outcome State Fault Refusal :=
  finish (lampCompUpdate g) s

/-- INRUSH_WINDOW_END (R347). -/
def execInrushWindowEnd (g : Fin 64) (s : State) : Host.Outcome State Fault Refusal :=
  finish (inrushWindowEnd g) s

/-- DG_FW_STOP (R341). -/
def execDgFwStop (d : Fin 4) (s : State) : Host.Outcome State Fault Refusal :=
  finish (dgFwStop d) s

/-- SNI_SAMPLE_DUE (R354), an element of work at which an armed fault strikes (R274). -/
def execSniSampleDue (n : Fin 48) (raw : Fin 4096) (late : Bool) (s : State) : Host.Outcome State Fault Refusal :=
  finish (.seq (workFire 20 none) (sniSampleDue n raw late)) s

/-- SNI_CONV_TIMEOUT (R355). -/
def execSniConvTimeout (n : Fin 48) (s : State) : Host.Outcome State Fault Refusal :=
  finish (sniConvTimeout n) s

/-- SNI_PUBLISH (R360). -/
def execSniPublish (n : Fin 48) (s : State) : Host.Outcome State Fault Refusal :=
  finish (sniPublish n) s

/-- SNI_CONFIG_WRITE (R361). -/
def execSniConfigWrite (pid : Pid) (n : Fin 48) (r : Fin 4) (w : Word) (s : State) : Host.Outcome State Fault Refusal :=
  finish (sniConfigWrite pid n r w) s

/-- CAN_INTEGRATED (R369). -/
def execCanIntegrated (c : Fin 16) (s : State) : Host.Outcome State Fault Refusal :=
  finish (canIntegrated c) s

/-- CAN_TXBUF_REQUEST (R370). -/
def execCanTxbufRequest (pid : Pid) (c : Fin 16) (v : Word) (s : State) : Host.Outcome State Fault Refusal :=
  finish (canTxbufRequest pid c v) s

/-- CAN_TXBUF_CANCEL (R372). -/
def execCanTxbufCancel (pid : Pid) (c : Fin 16) (v : Word) (s : State) : Host.Outcome State Fault Refusal :=
  finish (canTxbufCancel pid c v) s

/-- CAN_ARBITRATION (R370), an element of work at which an armed fault strikes (R274). -/
def execCanArbitration (c : Fin 16) (ecc : Fin 3) (word : Nat) (s : State) : Host.Outcome State Fault Refusal :=
  finish (.seq (workFire 9 (some c.val)) (canArbitration c ecc word)) s

/-- CAN_TX_SUCCESS (R376). -/
def execCanTxSuccess (c : Fin 16) (dly : Option (Fin 128)) (s : State) : Host.Outcome State Fault Refusal :=
  finish (canTxSuccess c dly) s

/-- CAN_TX_ERROR (R373). -/
def execCanTxError (c : Fin 16) (e : Option CanError) (dly : Option (Fin 128)) (s : State) : Host.Outcome State Fault Refusal :=
  finish (canTxError c e dly) s

/-- CAN_BO_DELAY_EXPIRY (R379). -/
def execCanBoDelayExpiry (c : Fin 16) (s : State) : Host.Outcome State Fault Refusal :=
  finish (canBoDelayExpiry c) s

/-- CAN_RECOVER (R379). -/
def execCanRecover (pid : Pid) (c : Fin 16) (s : State) : Host.Outcome State Fault Refusal :=
  finish (canRecover pid c) s

/-- CAN_RECOVERY_DONE (R379). -/
def execCanRecoveryDone (c : Fin 16) (s : State) : Host.Outcome State Fault Refusal :=
  finish (canRecoveryDone c) s

/-- CAN_BO_DISCARD_WRITE (R378). -/
def execCanBoDiscardWrite (pid : Pid) (c : Fin 16) (s : State) : Host.Outcome State Fault Refusal :=
  finish (canBoDiscardWrite pid c) s

/-- CAN_ERROR_DETECTED (R375). -/
def execCanErrorDetected (c : Fin 16) (e : CanError) (exc : Bool) (s : State) : Host.Outcome State Fault Refusal :=
  finish (canErrorDetected c e exc) s

/-- CAN_DOM_TIMEOUT (R382). -/
def execCanDomTimeout (c : Fin 16) (s : State) : Host.Outcome State Fault Refusal :=
  finish (canDomTimeout c) s

/-- CAN_TS_WRAP (R383). -/
def execCanTsWrap (c : Fin 16) (s : State) : Host.Outcome State Fault Refusal :=
  finish (canTsWrap c) s

/-- CAN_TS_SYNC (R383). -/
def execCanTsSync (pid : Pid) (v : Fin 65536) (s : State) : Host.Outcome State Fault Refusal :=
  finish (canTsSync pid v) s

/-- CAN_ARB_FIELD_FILTER (R393), an element of work at which an armed fault strikes (R274). -/
def execCanArbFieldFilter (c : Fin 16) (f : CanFrame) (ago : Nat) (ecc : Fin 3) (word : Nat) (s : State) : Host.Outcome State Fault Refusal :=
  finish (.seq (workFire 9 (some c.val)) (canArbFieldFilter c f ago ecc word)) s

/-- CAN_FRAME_VALID (R396), an element of work at which an armed fault strikes (R274). -/
def execCanFrameValid (c : Fin 16) (data : List Byte) (s : State) : Host.Outcome State Fault Refusal :=
  finish (.seq (workFire 9 (some c.val)) (canFrameValid c data)) s

/-- CAN_LOCK_READ (R397). -/
def execCanLockRead (pid : Pid) (c : Fin 16) (sec : Fin 4) (buf : Fin 64) (s : State) : Host.Outcome State Fault Refusal :=
  finish (canLockRead pid c sec buf) s

/-- CAN_RELEASE_READ (R397). -/
def execCanReleaseRead (pid : Pid) (c : Fin 16) (sec : Fin 4) (buf : Fin 64) (s : State) : Host.Outcome State Fault Refusal :=
  finish (canReleaseRead pid c sec buf) s

/-- CAN_LOCK_TIMEOUT (R398). -/
def execCanLockTimeout (c : Fin 16) (sec : Fin 4) (s : State) : Host.Outcome State Fault Refusal :=
  finish (canLockTimeout c sec) s

/-- CAN_RX_RELEASE (R398). -/
def execCanRxRelease (pid : Pid) (c : Fin 16) (ack : Bool) (target : Fin 4) (buf : Fin 64) (s : State) : Host.Outcome State Fault Refusal :=
  finish (canRxRelease pid c ack target buf) s

/-- CAN_RXBUF_NEW_CLEAR (R398). -/
def execCanRxbufNewClear (pid : Pid) (c : Fin 16) (hi : Bool) (v : Word) (s : State) : Host.Outcome State Fault Refusal :=
  finish (canRxbufNewClear pid c hi v) s

/-- CAN_TXQ_PUSH (R400). -/
def execCanTxqPush (pid : Pid) (c : Fin 16) (s : State) : Host.Outcome State Fault Refusal :=
  finish (canTxqPush pid c) s

/-- CAN_TXQ_CANCEL (R400). -/
def execCanTxqCancel (pid : Pid) (c : Fin 16) (v : Word) (s : State) : Host.Outcome State Fault Refusal :=
  finish (canTxqCancel pid c v) s

/-- LIN_SLOT_START (R410), an element of work at which an armed fault strikes (R274). -/
def execLinSlotStart (n : Fin 12) (bad : Bool) (s : State) : Host.Outcome State Fault Refusal :=
  finish (.seq (workFire 10 (some n.val)) (linSlotStart n bad)) s

/-- LIN_HEADER_RECEIVED (R407), an element of work at which an armed fault strikes (R274). -/
def execLinHeaderReceived (n : Fin 12) (sync : Bool) (pid : Fin 256) (bad : Bool) (s : State) : Host.Outcome State Fault Refusal :=
  finish (.seq (workFire 10 (some n.val)) (linHeaderReceived n sync pid bad)) s

/-- LIN_FRAME_END (R411). -/
def execLinFrameEnd (n : Fin 12) (res : Fin 7) (data : List Byte) (s : State) : Host.Outcome State Fault Refusal :=
  finish (linFrameEnd n res data) s

/-- LIN_RESPONSE_TIMEOUT (R411). -/
def execLinResponseTimeout (n : Fin 12) (any : Bool) (s : State) : Host.Outcome State Fault Refusal :=
  finish (linResponseTimeout n any) s

/-- LIN_SCHED_RUN (R410). -/
def execLinSchedRun (pid : Pid) (n : Fin 12) (run : Bool) (start : Fin 64) (s : State) : Host.Outcome State Fault Refusal :=
  finish (linSchedRun pid n run start) s

/-- LIN_SCHED_SWITCH (R410). -/
def execLinSchedSwitch (pid : Pid) (n : Fin 12) (next : Fin 64) (s : State) : Host.Outcome State Fault Refusal :=
  finish (linSchedSwitch pid n next) s

/-- LIN_SLEEP (R414). -/
def execLinSleep (pid : Pid) (n : Fin 12) (s : State) : Host.Outcome State Fault Refusal :=
  finish (linSleep pid n) s

/-- LIN_WAKE_TX (R414). -/
def execLinWakeTx (pid : Pid) (n : Fin 12) (s : State) : Host.Outcome State Fault Refusal :=
  finish (linWakeTx pid n) s

/-- LIN_WAKE_PULSE (R414). -/
def execLinWakePulse (n : Fin 12) (fail : Bool) (s : State) : Host.Outcome State Fault Refusal :=
  finish (linWakePulse n fail) s

/-- LIN_IDLE_4S (R414). -/
def execLinIdle4s (n : Fin 12) (s : State) : Host.Outcome State Fault Refusal :=
  finish (linIdle4s n) s

/-- LIN_WAKE_HOLD_END (R414). -/
def execLinWakeHoldEnd (n : Fin 12) (s : State) : Host.Outcome State Fault Refusal :=
  finish (linWakeHoldEnd n) s

/-- LIN_DOM_TIMEOUT (R413). -/
def execLinDomTimeout (n : Fin 12) (s : State) : Host.Outcome State Fault Refusal :=
  finish (linDomTimeout n) s

/-- LIN_BUS_STUCK (R413). -/
def execLinBusStuck (n : Fin 12) (s : State) : Host.Outcome State Fault Refusal :=
  finish (linBusStuck n) s

/-- ETH_LINK_CHANGE (R418). -/
def execEthLinkChange (p : Fin 20) (up : Bool) (master : Bool) (sqi : Fin 8) (capable : Bool) (twMin : Fin 16384) (s : State) : Host.Outcome State Fault Refusal :=
  finish (ethLinkChange p up master sqi capable twMin) s

/-- ETH_FRAME_RX (R420), an element of work at which an armed fault strikes (R274). -/
def execEthFrameRx (p : Fin 25) (f : List Byte) (phyErr : Bool) (fcsErr : Bool) (ago : Nat) (ce : Bool) (saBad : Option (Fin 20)) (s : State) : Host.Outcome State Fault Refusal :=
  finish (.seq (workFire 7 (some p.val)) (ethFrameRx p f phyErr fcsErr ago ce saBad)) s

/-- ETH_DROP_INTERVAL (R421). -/
def execEthDropInterval (p : Fin 25) (s : State) : Host.Outcome State Fault Refusal :=
  finish (ethDropInterval p) s

/-- MAC_TX_START (R423), an element of work at which an armed fault strikes (R274). -/
def execMacTxStart (p : Fin 25) (fail : Fin 6) (ago : Nat) (s : State) : Host.Outcome State Fault Refusal :=
  finish (.seq (workFire 7 (some p.val)) (macTxStart p fail ago)) s

/-- MAC_UNDERRUN (R424). -/
def execMacUnderrun (p : Fin 25) (late : Nat) (s : State) : Host.Outcome State Fault Refusal :=
  finish (macUnderrun p late) s

/-- TX_THR_WRITE (R423). -/
def execTxThrWrite (pid : Pid) (p : Fin 25) (step : Fin 256) (start : Fin 256) (s : State) : Host.Outcome State Fault Refusal :=
  finish (txThrWrite pid p step start) s

/-- C_TX_TAIL_WRITE (R426). -/
def execCTxTailWrite (pid : Pid) (p : Fin 2) (q : Fin 8) (tail : Fin 4096) (s : State) : Host.Outcome State Fault Refusal :=
  finish (cTxTailWrite pid p q tail) s

/-- C_PORT_SEND (R427), an element of work at which an armed fault strikes (R274). -/
def execCPortSend (x : Fin 2) (stop : Fin 3) (n : Nat) (s : State) : Host.Outcome State Fault Refusal :=
  finish (.seq (workFire 7 (some (20 + x.val))) (cPortSend x stop n)) s

/-- C_RX_TAIL_WRITE (R431). -/
def execCRxTailWrite (pid : Pid) (p : Fin 2) (q : Fin 8) (tail : Fin 4096) (s : State) : Host.Outcome State Fault Refusal :=
  finish (cRxTailWrite pid p q tail) s

/-- LPI_ENTER (R432). -/
def execLpiEnter (p : Fin 18) (s : State) : Host.Outcome State Fault Refusal :=
  finish (lpiEnter p) s

/-- LPI_EXIT (R432). -/
def execLpiExit (p : Fin 18) (s : State) : Host.Outcome State Fault Refusal :=
  finish (lpiExit p) s

/-- MACSEC_SA_ENABLE (R434). -/
def execMacsecSaEnable (pid : Pid) (p : Fin 25) (e : Fin 20) (slot : Fin 512) (s : State) : Host.Outcome State Fault Refusal :=
  finish (macsecSaEnable pid p e slot) s

/-- PHY_FW_STOP (R437). -/
def execPhyFwStop (s : State) : Host.Outcome State Fault Refusal :=
  finish (phyFwStop) s

/-- SWITCH_DECISION (R445), an element of work at which an armed fault strikes (R274). -/
def execSwitchDecision (p : Fin 25) (head : List Byte) (ecc : Option (Nat × Nat)) (ce : Bool) (s : State) : Host.Outcome State Fault Refusal :=
  finish (.seq (workFire 8 none) (switchDecision p head ecc ce)) s

/-- CELL_TIME_MATCH (R447). -/
def execCellTimeMatch (plane : Fin 2) (s : State) : Host.Outcome State Fault Refusal :=
  finish (cellTimeMatch plane) s

/-- PMAP_WRITE (R449). -/
def execPmapWrite (pid : Pid) (j : Fin 9) (v : Word) (s : State) : Host.Outcome State Fault Refusal :=
  finish (pmapWrite pid j v) s

/-- PMAP_APPLY (R449). -/
def execPmapApply (s : State) : Host.Outcome State Fault Refusal :=
  finish (pmapApply) s

/-- TBL_READ (R451). -/
def execTblRead (pid : Pid) (table : Fin 16) (index : Fin 65536) (s : State) : Host.Outcome State Fault Refusal :=
  finish (tblRead pid table index) s

/-- TBL_WRITE (R459). -/
def execTblWrite (pid : Pid) (table : Fin 16) (index : Fin 65536) (hold : Bool) (s : State) : Host.Outcome State Fault Refusal :=
  finish (tblWrite pid table index hold) s

/-- TBL_DELETE (R459). -/
def execTblDelete (pid : Pid) (table : Fin 16) (index : Fin 65536) (hold : Bool) (s : State) : Host.Outcome State Fault Refusal :=
  finish (tblDelete pid table index hold) s

/-- TBL_SEARCH (R451). -/
def execTblSearch (pid : Pid) (table : Fin 16) (index : Fin 65536) (s : State) : Host.Outcome State Fault Refusal :=
  finish (tblSearch pid table index) s

/-- FDB_AGE_OUT (R450). -/
def execFdbAgeOut (i : Fin 32768) (s : State) : Host.Outcome State Fault Refusal :=
  finish (fdbAgeOut i) s

/-- WRED_AVG_TICK (R454). -/
def execWredAvgTick (p : Fin 25) (t : Fin 8) (s : State) : Host.Outcome State Fault Refusal :=
  finish (wredAvgTick p t) s

/-- QUEUE_HOLD_EXPIRY (R456). -/
def execQueueHoldExpiry (p : Fin 25) (s : State) : Host.Outcome State Fault Refusal :=
  finish (queueHoldExpiry p) s

/-- GATE_FIT_DROP (R456). -/
def execGateFitDrop (p : Fin 25) (t : Fin 8) (s : State) : Host.Outcome State Fault Refusal :=
  finish (gateFitDrop p t) s

/-- SWC_DRAIN_REQUEST (R461). -/
def execSwcDrainRequest (pid : Pid) (tmo : Fin 65536) (s : State) : Host.Outcome State Fault Refusal :=
  finish (swcDrainRequest pid tmo) s

/-- SWC_DRAIN_DONE (R461). -/
def execSwcDrainDone (s : State) : Host.Outcome State Fault Refusal :=
  finish (swcDrainDone) s

/-- SWC_DRAIN_TIMEOUT (R461). -/
def execSwcDrainTimeout (s : State) : Host.Outcome State Fault Refusal :=
  finish (swcDrainTimeout) s

/-- GCL_CHANGE_REQUEST (R462). -/
def execGclChangeRequest (pid : Pid) (p : Fin 25) (s : State) : Host.Outcome State Fault Refusal :=
  finish (gclChangeRequest pid p) s

/-- GCL_CHANGE (R462). -/
def execGclChange (p : Fin 25) (s : State) : Host.Outcome State Fault Refusal :=
  finish (gclChange p) s

/-- GCL_ENTRY_ADVANCE (R462). -/
def execGclEntryAdvance (p : Fin 25) (s : State) : Host.Outcome State Fault Refusal :=
  finish (gclEntryAdvance p) s

/-- TMB_RATE_WRITE (R468). -/
def execTmbRateWrite (pid : Pid) (v : Word) (s : State) : Host.Outcome State Fault Refusal :=
  finish (tmbRateWrite pid v) s

/-- TMB_ADJ_WRITE (R469). -/
def execTmbAdjWrite (pid : Pid) (v : Word) (s : State) : Host.Outcome State Fault Refusal :=
  finish (tmbAdjWrite pid v) s

/-- SLEW_DONE (R469). -/
def execSlewDone (s : State) : Host.Outcome State Fault Refusal :=
  finish (slewDone) s

/-- TMB_STEP (R470). -/
def execTmbStep (pid : Pid) (s : State) : Host.Outcome State Fault Refusal :=
  finish (tmbStep pid) s

/-- DIE_TIME_UPDATE (R473), an element of work at which an armed fault strikes (R274). -/
def execDieTimeUpdate (got : Fin 16) (s : State) : Host.Outcome State Fault Refusal :=
  finish (.seq (workFire 12 none) (dieTimeUpdate got)) s

/-- DIE_UNSYNC (R473). -/
def execDieUnsync (d : Fin 4) (s : State) : Host.Outcome State Fault Refusal :=
  finish (dieUnsync d) s

/-- TS_POP (R475). -/
def execTsPop (pid : Pid) (s : State) : Host.Outcome State Fault Refusal :=
  finish (tsPop pid) s

/-- PTP_TX (R476). -/
def execPtpTx (pid : Pid) (port : Fin 32) (len : Fin 256) (s : State) : Host.Outcome State Fault Refusal :=
  finish (ptpTx pid port len) s

/-- PPS_PULSE (R477), an element of work at which an armed fault strikes (R274). -/
def execPpsPulse (s : State) : Host.Outcome State Fault Refusal :=
  finish (.seq (workFire 12 none) (ppsPulse)) s

/-- PPS_PULSE_END (R477). -/
def execPpsPulseEnd (s : State) : Host.Outcome State Fault Refusal :=
  finish (ppsPulseEnd) s

/-- PPS_CAPTURE (R478). -/
def execPpsCapture (s : State) : Host.Outcome State Fault Refusal :=
  finish (ppsCapture) s

/-- CAN_CAPTURE (R479). -/
def execCanCapture (pid : Pid) (ch : Fin 16) (s : State) : Host.Outcome State Fault Refusal :=
  finish (canCapture pid ch) s

/-- CAN_CAPTURE_AUTO (R479). -/
def execCanCaptureAuto (s : State) : Host.Outcome State Fault Refusal :=
  finish (canCaptureAuto) s

/-- PDU_INGRESS (R487), an element of work at which an armed fault strikes (R274). -/
def execPduIngress (commit : Option Nat) (ecc : Option Nat) (ce : Bool) (s : State) : Host.Outcome State Fault Refusal :=
  finish (.seq (workFire 11 none) (pduIngress commit ecc ce)) s

/-- PDU_RX_TIMEOUT (R497). -/
def execPduRxTimeout (d : Fin 65536) (s : State) : Host.Outcome State Fault Refusal :=
  finish (pduRxTimeout d) s

/-- SIG_WRITE (R501). -/
def execSigWrite (pid : Pid) (addr : Fin 2147483648) (s : State) : Host.Outcome State Fault Refusal :=
  finish (sigWrite pid addr) s

/-- SIG_READ (R501). -/
def execSigRead (pid : Pid) (addr : Fin 2147483648) (s : State) : Host.Outcome State Fault Refusal :=
  finish (sigRead pid addr) s

/-- CYCLIC_SEND_DUE (R502), an element of work at which an armed fault strikes (R274). -/
def execCyclicSendDue (d : Fin 65536) (s : State) : Host.Outcome State Fault Refusal :=
  finish (.seq (workFire 11 none) (cyclicSendDue d)) s

/-- MIN_GAP_END (R502). -/
def execMinGapEnd (d : Fin 65536) (s : State) : Host.Outcome State Fault Refusal :=
  finish (minGapEnd d) s

/-- HELD_SEND_RELEASE (R503). -/
def execHeldSendRelease (d : Fin 65536) (s : State) : Host.Outcome State Fault Refusal :=
  finish (heldSendRelease d) s

/-- SR_BUNDLE_EXPIRY (R488). -/
def execSrBundleExpiry (s : State) : Host.Outcome State Fault Refusal :=
  finish (srBundleExpiry) s

/-- SRT_KEY_ENABLE (R495). -/
def execSrtKeyEnable (pid : Pid) (i : Fin 64) (slot : Fin 512) (s : State) : Host.Outcome State Fault Refusal :=
  finish (srtKeyEnable pid i slot) s

/-- REMOTE_SIGNAL_IN (R498), an element of work at which an armed fault strikes (R274). -/
def execRemoteSignalIn (pid : Pid) (addr : Fin 2147483648) (v : Nat) (s : State) : Host.Outcome State Fault Refusal :=
  finish (.seq (workFire 11 none) (remoteSignalIn pid addr v)) s

/-- SHD_PUT (R524). -/
def execShdPut (pid : Pid) (s : State) : Host.Outcome State Fault Refusal :=
  finish (shdPut pid) s

/-- SHD_CLEAR (R524). -/
def execShdClear (pid : Pid) (s : State) : Host.Outcome State Fault Refusal :=
  finish (shdClear pid) s

/-- EPOCH_COMMIT (R525). -/
def execEpochCommit (pid : Pid) (s : State) : Host.Outcome State Fault Refusal :=
  finish (epochCommit pid) s

/-- EPOCH_TAKES_EFFECT (R525). -/
def execEpochTakesEffect (s : State) : Host.Outcome State Fault Refusal :=
  finish (epochTakesEffect) s

/-- BANK_APPLY_DONE (R526). -/
def execBankApplyDone (s : State) : Host.Outcome State Fault Refusal :=
  finish (bankApplyDone) s

/-- SRT_DRAIN_REQUEST (R529). -/
def execSrtDrainRequest (pid : Pid) (tmo : Fin 65536) (s : State) : Host.Outcome State Fault Refusal :=
  finish (srtDrainRequest pid tmo) s

/-- SRT_DRAIN_DONE (R529). -/
def execSrtDrainDone (s : State) : Host.Outcome State Fault Refusal :=
  finish (srtDrainDone) s

/-- SRT_DRAIN_TIMEOUT (R529). -/
def execSrtDrainTimeout (s : State) : Host.Outcome State Fault Refusal :=
  finish (srtDrainTimeout) s

/-- RC_PRELOAD (R526). -/
def execRcPreload (pid : Pid) (start : Fin 33554432) (s : State) : Host.Outcome State Fault Refusal :=
  finish (rcPreload pid start) s

/-- RC_PRELOAD_DONE (R526). -/
def execRcPreloadDone (s : State) : Host.Outcome State Fault Refusal :=
  finish (rcPreloadDone) s

/-- RC_INVALIDATE (R526). -/
def execRcInvalidate (pid : Pid) (s : State) : Host.Outcome State Fault Refusal :=
  finish (rcInvalidate pid) s

/-- RT_READ (R538). -/
def execRtRead (pid : Pid) (gsid : Fin 33554432) (s : State) : Host.Outcome State Fault Refusal :=
  finish (rtRead pid gsid) s

/-- NM_MSG_CYCLE (R542), an element of work at which an armed fault strikes (R274). -/
def execNmMsgCycle (c : Fin 36) (s : State) : Host.Outcome State Fault Refusal :=
  finish (.seq (workFire 15 none) (nmMsgCycle c)) s

/-- NM_REPEAT_EXPIRY (R544). -/
def execNmRepeatExpiry (c : Fin 36) (s : State) : Host.Outcome State Fault Refusal :=
  finish (nmRepeatExpiry c) s

/-- NM_TIMER_EXPIRY (R544). -/
def execNmTimerExpiry (c : Fin 36) (s : State) : Host.Outcome State Fault Refusal :=
  finish (nmTimerExpiry c) s

/-- NM_WAIT_SLEEP_EXPIRY (R544). -/
def execNmWaitSleepExpiry (c : Fin 36) (s : State) : Host.Outcome State Fault Refusal :=
  finish (nmWaitSleepExpiry c) s

/-- NM_SW_REQUEST (R544). -/
def execNmSwRequest (pid : Pid) (c : Fin 36) (on : Bool) (s : State) : Host.Outcome State Fault Refusal :=
  finish (nmSwRequest pid c on) s

/-- NM_RMR_REQUEST (R544). -/
def execNmRmrRequest (pid : Pid) (c : Fin 36) (s : State) : Host.Outcome State Fault Refusal :=
  finish (nmRmrRequest pid c) s

/-- NM_SAFE_REQUEST (R543). -/
def execNmSafeRequest (pid : Pid) (c : Fin 36) (on : Bool) (s : State) : Host.Outcome State Fault Refusal :=
  finish (nmSafeRequest pid c on) s

/-- T1_SLEEP_HANDSHAKE_FAIL (R546). -/
def execT1SleepHandshakeFail (p : Fin 18) (s : State) : Host.Outcome State Fault Refusal :=
  finish (t1SleepHandshakeFail p) s

/-- T1_PARTNER_SLEEP_REQ (R546). -/
def execT1PartnerSleepReq (p : Fin 18) (s : State) : Host.Outcome State Fault Refusal :=
  finish (t1PartnerSleepReq p) s

/-- SELECTIVE_WAKE (R547). -/
def execSelectiveWake (c : Fin 8) (e : SwkEvent) (data : List Byte) (fail : Bool) (s : State) : Host.Outcome State Fault Refusal :=
  finish (selectiveWake c e data fail) s

/-- TRX_WAKE (R548). -/
def execTrxWake (c : Fin 36) (id : Option (Fin 4294967296)) (tx : Bool) (s : State) : Host.Outcome State Fault Refusal :=
  finish (trxWake c id tx) s

/-- MAX_AWAKE_REACHED (R549). -/
def execMaxAwakeReached (c : Fin 36) (s : State) : Host.Outcome State Fault Refusal :=
  finish (maxAwakeReached c) s

/-- IGN_CLEAR (R549). -/
def execIgnClear (pid : Pid) (c : Fin 36) (s : State) : Host.Outcome State Fault Refusal :=
  finish (ignClear pid c) s

/-- ISO_REQUEST (R555). -/
def execIsoRequest (pid : Pid) (key : Fin 256) (s : State) : Host.Outcome State Fault Refusal :=
  finish (isoRequest pid key) s

/-- ISO_RELEASE (R555). -/
def execIsoRelease (pid : Pid) (key : Fin 256) (s : State) : Host.Outcome State Fault Refusal :=
  finish (isoRelease pid key) s

/-- ISO_RELEASE3 (R555). -/
def execIsoRelease3 (pid : Pid) (key : Fin 256) (s : State) : Host.Outcome State Fault Refusal :=
  finish (isoRelease3 pid key) s

/-- NM_LOG_POP (R556). -/
def execNmLogPop (pid : Pid) (s : State) : Host.Outcome State Fault Refusal :=
  finish (nmLogPop pid) s

/-- FL_WAKE_DRIVE_END (R553). -/
def execFlWakeDriveEnd (s : State) : Host.Outcome State Fault Refusal :=
  finish (flWakeDriveEnd) s

/-- FINZA_TRAINED (R565). -/
def execFinzaTrained (c : Fin 2) (width : Fin 3) (host : Bool) (isUp : Bool) (mode : Fin 4) (dev : Option (Fin 64)) (s : State) : Host.Outcome State Fault Refusal :=
  finish (finzaTrained c width host isUp mode dev) s

/-- FINZA_RETRAIN (R565). -/
def execFinzaRetrain (pid : Pid) (c : Fin 2) (s : State) : Host.Outcome State Fault Refusal :=
  finish (finzaRetrain pid c) s

/-- FINZA_TRAIN_TIMEOUT (R565). -/
def execFinzaTrainTimeout (c : Fin 2) (s : State) : Host.Outcome State Fault Refusal :=
  finish (finzaTrainTimeout c) s

/-- FINZA_DOWN_RETRY (R565). -/
def execFinzaDownRetry (c : Fin 2) (s : State) : Host.Outcome State Fault Refusal :=
  finish (finzaDownRetry c) s

/-- FINZA_WIDTH_RETRY (R565). -/
def execFinzaWidthRetry (c : Fin 2) (s : State) : Host.Outcome State Fault Refusal :=
  finish (finzaWidthRetry c) s

/-- FINZA_PACKET_RX (R567), an element of work at which an armed fault strikes (R274). -/
def execFinzaPacketRx (c : Fin 2) (i : FinzaIn) (s : State) : Host.Outcome State Fault Refusal :=
  finish (.seq (workFire 13 (some c.val)) (finzaPacketRx c i)) s

/-- FINZA_REPLAY_TIMEOUT (R569). -/
def execFinzaReplayTimeout (c : Fin 2) (s : State) : Host.Outcome State Fault Refusal :=
  finish (finzaReplayTimeout c) s

/-- FINZA_RX_TIMEOUT (R569). -/
def execFinzaRxTimeout (c : Fin 2) (s : State) : Host.Outcome State Fault Refusal :=
  finish (finzaRxTimeout c) s

/-- ENUM_TAIL_TIMEOUT (R572). -/
def execEnumTailTimeout (s : State) : Host.Outcome State Fault Refusal :=
  finish (enumTailTimeout) s

/-- ENUM_RESTART (R572). -/
def execEnumRestart (pid : Pid) (s : State) : Host.Outcome State Fault Refusal :=
  finish (enumRestart pid) s

/-- FINZA_LINK_DOWN (R576). -/
def execFinzaLinkDown (c : Fin 2) (s : State) : Host.Outcome State Fault Refusal :=
  finish (finzaLinkDown c) s

/-- CHAIN_READ_TIMEOUT (R577). -/
def execChainReadTimeout (tag : Fin 256) (s : State) : Host.Outcome State Fault Refusal :=
  finish (chainReadTimeout tag) s

/-- TUNNEL_REASM_TIMEOUT (R578). -/
def execTunnelReasmTimeout (src : Fin 64) (s : State) : Host.Outcome State Fault Refusal :=
  finish (tunnelReasmTimeout src) s

/-- TUNNEL_AGE_OUT (R578). -/
def execTunnelAgeOut (mac : Fin 281474976710656) (bad : Bool) (s : State) : Host.Outcome State Fault Refusal :=
  finish (tunnelAgeOut mac bad) s

/-- SIDEBAND_IRQ_FALL (R579). -/
def execSidebandIrqFall (s : State) : Host.Outcome State Fault Refusal :=
  finish (sidebandIrqFall) s

/-- SIDEBAND_FAULT_LOW (R269). -/
def execSidebandFaultLow (s : State) : Host.Outcome State Fault Refusal :=
  finish (sidebandFaultLow) s

/-- HOST_WRITE (R593), an element of work at which an armed fault strikes (R274). -/
def execHostWrite (fn : Fin 64) (bar2 : Bool) (off : Fin 17179869184) (data : List Byte) (err : Fin 4) (s : State) : Host.Outcome State Fault Refusal :=
  finish (.seq (workFire 14 none) (hostWrite fn bar2 off data err)) s

/-- HOST_READ (R593), an element of work at which an armed fault strikes (R274). -/
def execHostRead (fn : Fin 64) (bar2 : Bool) (off : Fin 17179869184) (len : Fin 4097) (atomic : Option (Fin 3 × List Byte)) (err : Fin 4) (s : State) : Host.Outcome State Fault Refusal :=
  finish (.seq (workFire 14 none) (hostRead fn bar2 off len atomic err)) s

/-- HOST_READ_TIMEOUT (R599). -/
def execHostReadTimeout (i : Nat) (barrier : Bool) (s : State) : Host.Outcome State Fault Refusal :=
  finish (hostReadTimeout i barrier) s

/-- DEV_READ_TIMEOUT (R599). -/
def execDevReadTimeout (i : Nat) (s : State) : Host.Outcome State Fault Refusal :=
  finish (devReadTimeout i) s

/-- WRITE_FAULT_RX (R594). -/
def execWriteFaultRx (w0 : Word) (w1 : Word) (w2 : Word) (w3 : Word) (s : State) : Host.Outcome State Fault Refusal :=
  finish (writeFaultRx w0 w1 w2 w3) s

/-- LOST_PACKET_RX (R576). -/
def execLostPacketRx (instV : Bool) (inst : Fin 256) (wseq : Fin 65536) (s : State) : Host.Outcome State Fault Refusal :=
  finish (lostPacketRx instV inst wseq) s

/-- WSYNC_BARRIER (R597). -/
def execWsyncBarrier (pid : Pid) (n : Fin 257) (s : State) : Host.Outcome State Fault Refusal :=
  finish (wsyncBarrier pid n) s

/-- WSYNC_DONE (R597). -/
def execWsyncDone (n : Fin 257) (s : State) : Host.Outcome State Fault Refusal :=
  finish (wsyncDone n) s

/-- BACKOFF_RETRY (R601). -/
def execBackoffRetry (i : Nat) (s : State) : Host.Outcome State Fault Refusal :=
  finish (backoffRetry i) s

/-- SEM_TAKE (R602). -/
def execSemTake (pid : Pid) (i : Fin 64) (s : State) : Host.Outcome State Fault Refusal :=
  finish (semTake pid i) s

/-- SEM_RELEASE (R602). -/
def execSemRelease (pid : Pid) (i : Fin 64) (s : State) : Host.Outcome State Fault Refusal :=
  finish (semRelease pid i) s

/-- SEM_TIMEOUT (R602). -/
def execSemTimeout (i : Fin 64) (s : State) : Host.Outcome State Fault Refusal :=
  finish (semTimeout i) s

/-- FUNCTION_LEVEL_RESET (R605). -/
def execFunctionLevelReset (fn : Fin 64) (s : State) : Host.Outcome State Fault Refusal :=
  finish (functionLevelReset fn) s

/-- INST_BIND (R611). -/
def execInstBind (pid : Pid) (n : Fin 256) (kind : Fin 16) (arg : Fin 16777216) (s : State) : Host.Outcome State Fault Refusal :=
  finish (instBind pid n kind arg) s

/-- INST_REMOVE (R628). -/
def execInstRemove (pid : Pid) (n : Fin 256) (s : State) : Host.Outcome State Fault Refusal :=
  finish (instRemove pid n) s

/-- MB_SEND (R618). -/
def execMbSend (n : Fin 256) (s : State) : Host.Outcome State Fault Refusal :=
  finish (mbSend n) s

/-- MGR_ACK (R618). -/
def execMgrAck (pid : Pid) (n : Fin 256) (s : State) : Host.Outcome State Fault Refusal :=
  finish (mgrAck pid n) s

/-- MGR_RING (R619). -/
def execMgrRing (pid : Pid) (n : Fin 256) (s : State) : Host.Outcome State Fault Refusal :=
  finish (mgrRing pid n) s

/-- MB_ACK (R619). -/
def execMbAck (n : Fin 256) (s : State) : Host.Outcome State Fault Refusal :=
  finish (mbAck n) s

/-- FUNC_DOORBELL (R616). -/
def execFuncDoorbell (n : Fin 256) (v : Word) (s : State) : Host.Outcome State Fault Refusal :=
  finish (funcDoorbell n v) s

/-- FUNC_WINDOW_ACCESS (R615). -/
def execFuncWindowAccess (n : Fin 256) (w : Fin 2048) (v : Option Word) (s : State) : Host.Outcome State Fault Refusal :=
  finish (funcWindowAccess n w v) s

/-- DELIVERY_UNMASK (R621). -/
def execDeliveryUnmask (pid : Pid) (n : Fin 256) (k : Fin 4) (s : State) : Host.Outcome State Fault Refusal :=
  finish (deliveryUnmask pid n k) s

/-- INST_RESET (R626). -/
def execInstReset (n : Fin 256) (s : State) : Host.Outcome State Fault Refusal :=
  finish (instReset n) s

/-- INST_RESET_DONE (R627). -/
def execInstResetDone (n : Fin 256) (s : State) : Host.Outcome State Fault Refusal :=
  finish (instResetDone n) s

/-- MIG_FREEZE (R637). -/
def execMigFreeze (pid : Pid) (n : Fin 256) (s : State) : Host.Outcome State Fault Refusal :=
  finish (migFreeze pid n) s

/-- MIG_FROZEN (R637). -/
def execMigFrozen (n : Fin 256) (s : State) : Host.Outcome State Fault Refusal :=
  finish (migFrozen n) s

/-- MIG_SAVE (R638). -/
def execMigSave (pid : Pid) (n : Fin 256) (jrnl : Bool) (s : State) : Host.Outcome State Fault Refusal :=
  finish (migSave pid n jrnl) s

/-- MIG_SAVE_DONE (R648). -/
def execMigSaveDone (s : State) : Host.Outcome State Fault Refusal :=
  finish (migSaveDone) s

/-- MIG_RESTORE (R641). -/
def execMigRestore (pid : Pid) (n : Fin 256) (s : State) : Host.Outcome State Fault Refusal :=
  finish (migRestore pid n) s

/-- MIG_RESUME (R642). -/
def execMigResume (pid : Pid) (n : Fin 256) (s : State) : Host.Outcome State Fault Refusal :=
  finish (migResume pid n) s

/-- MIG_LOG_ON (R644). -/
def execMigLogOn (pid : Pid) (s : State) : Host.Outcome State Fault Refusal :=
  finish (migLogOn pid) s

/-- MIG_LOG_OFF (R635). -/
def execMigLogOff (pid : Pid) (s : State) : Host.Outcome State Fault Refusal :=
  finish (migLogOff pid) s

/-- MIG_SWAP (R645). -/
def execMigSwap (pid : Pid) (s : State) : Host.Outcome State Fault Refusal :=
  finish (migSwap pid) s

/-- MIG_COPY (R646). -/
def execMigCopy (pid : Pid) (s : State) : Host.Outcome State Fault Refusal :=
  finish (migCopy pid) s

/-- MIG_COPY_DONE (R647). -/
def execMigCopyDone (s : State) : Host.Outcome State Fault Refusal :=
  finish (migCopyDone) s

/-- MIG_RECOVER (R649). -/
def execMigRecover (pid : Pid) (s : State) : Host.Outcome State Fault Refusal :=
  finish (migRecover pid) s

/-- UPD_OPEN (R664). -/
def execUpdOpen (pid : Pid) (s : State) : Host.Outcome State Fault Refusal :=
  finish (updOpen pid) s

/-- UPD_CHUNK (R665). -/
def execUpdChunk (pid : Pid) (s : State) : Host.Outcome State Fault Refusal :=
  finish (updChunk pid) s

/-- RELAY_CHUNK_RX (R667). -/
def execRelayChunkRx (s : State) : Host.Outcome State Fault Refusal :=
  finish (relayChunkRx) s

/-- UPD_COMMIT (R672). -/
def execUpdCommit (pid : Pid) (s : State) : Host.Outcome State Fault Refusal :=
  finish (updCommit pid) s

/-- COMMIT_STEP_DONE (R672). -/
def execCommitStepDone (res : Fin 3) (s : State) : Host.Outcome State Fault Refusal :=
  finish (commitStepDone res) s

/-- UPD_ABORT (R665). -/
def execUpdAbort (pid : Pid) (s : State) : Host.Outcome State Fault Refusal :=
  finish (updAbort pid) s

/-- UPD_FALLBACK (R676). -/
def execUpdFallback (pid : Pid) (s : State) : Host.Outcome State Fault Refusal :=
  finish (updFallback pid) s

/-- UPD_TXN_BEGIN (R680). -/
def execUpdTxnBegin (pid : Pid) (s : State) : Host.Outcome State Fault Refusal :=
  finish (updTxnBegin pid) s

/-- UPD_TXN_END (R680). -/
def execUpdTxnEnd (pid : Pid) (s : State) : Host.Outcome State Fault Refusal :=
  finish (updTxnEnd pid) s

/-- UPD_TXN_READ (R680). -/
def execUpdTxnRead (pid : Pid) (s : State) : Host.Outcome State Fault Refusal :=
  finish (updTxnRead pid) s

/-- UPD_CONFIRM (R675). -/
def execUpdConfirm (pid : Pid) (health : Bool) (safe : Bool) (s : State) : Host.Outcome State Fault Refusal :=
  finish (updConfirm pid health safe) s

/-- CONFIRM_WINDOW_EXPIRY (R676). -/
def execConfirmWindowExpiry (s : State) : Host.Outcome State Fault Refusal :=
  finish (confirmWindowExpiry) s

/-- RT_REGULATOR_PERIOD (R53). -/
def execRtRegulatorPeriod (r : Fin 4) (s : State) : Host.Outcome State Fault Refusal :=
  finish (rtRegulatorPeriod r) s

/-- FINZA_ACK_TIMER (R569). -/
def execFinzaAckTimer (c : Fin 2) (s : State) : Host.Outcome State Fault Refusal :=
  finish (finzaAckTimer c) s

/-- PCIE_LINK_CHANGE (R605). -/
def execPcieLinkChange (up : Bool) (speed : Fin 5) (width : Fin 8) (s : State) : Host.Outcome State Fault Refusal :=
  finish (pcieLinkChange up speed width) s

/-- CONFIGURATION_REQUEST (R708). -/
def execConfigurationRequest (fn : Fin 64) (numVf : Option (Fin 64)) (msix : Option Bool) (s : State) : Host.Outcome State Fault Refusal :=
  finish (configurationRequest fn numVf msix) s

/-- RX_LPI_CHANGE (R432). -/
def execRxLpiChange (p : Fin 18) (v : Bool) (s : State) : Host.Outcome State Fault Refusal :=
  finish (rxLpiChange p v) s

/-- T1_WAKE_SIGNALLING (R97). -/
def execT1WakeSignalling (p : Fin 18) (fail : Bool) (s : State) : Host.Outcome State Fault Refusal :=
  finish (t1WakeSignalling p fail) s

/-- DIE_CLOCK_LOSS (R100). -/
def execDieClockLoss (d : Fin 4) (s : State) : Host.Outcome State Fault Refusal :=
  finish (dieClockLoss d) s

end Sys2Proof.Machine
end

