-- ==== Sys2Proof/Machine/Dispatch.lean ====
section
/-!
DEFINITION. One arm per command: a direct call of its meaning.
-/
namespace Sys2Proof.Machine

def exec (i : Instr) (s : State) : Host.Outcome State Fault Refusal :=
  match i with
  | .fabricRequest q => Sys2Proof.Machine.execFabricRequest q s
  | .agePromotion r => Sys2Proof.Machine.execAgePromotion r s
  | .bwPeriodStart => Sys2Proof.Machine.execBwPeriodStart s
  | .isolationResponseTimeout tag => Sys2Proof.Machine.execIsolationResponseTimeout tag s
  | .registerWrite pid a v => Sys2Proof.Machine.execRegisterWrite pid a v s
  | .clearOnRead pid a => Sys2Proof.Machine.execClearOnRead pid a s
  | .blockEnable pid k => Sys2Proof.Machine.execBlockEnable pid k s
  | .blockDisable pid k => Sys2Proof.Machine.execBlockDisable pid k s
  | .blockSoftReset pid k => Sys2Proof.Machine.execBlockSoftReset pid k s
  | .blockIsolate pid k on => Sys2Proof.Machine.execBlockIsolate pid k on s
  | .drainComplete k c => Sys2Proof.Machine.execDrainComplete k c s
  | .cellEnable pid k c => Sys2Proof.Machine.execCellEnable pid k c s
  | .cellDisable pid k c => Sys2Proof.Machine.execCellDisable pid k c s
  | .cellReset pid k c => Sys2Proof.Machine.execCellReset pid k c s
  | .cellRetireWrite pid k c => Sys2Proof.Machine.execCellRetireWrite pid k c s
  | .cellRearm pid k c => Sys2Proof.Machine.execCellRearm pid k c s
  | .irqSet pid k v => Sys2Proof.Machine.execIrqSet pid k v s
  | .configLock pid k => Sys2Proof.Machine.execConfigLock pid k s
  | .errInjArm pid k c cls => Sys2Proof.Machine.execErrInjArm pid k c cls s
  | .errInjTimeout k => Sys2Proof.Machine.execErrInjTimeout k s
  | .levelDecayTick k => Sys2Proof.Machine.execLevelDecayTick k s
  | .heartbeatMiss d => Sys2Proof.Machine.execHeartbeatMiss d s
  | .heartbeatResume d => Sys2Proof.Machine.execHeartbeatResume d s
  | .safeExit pid key => Sys2Proof.Machine.execSafeExit pid key s
  | .wdogKick pid w key => Sys2Proof.Machine.execWdogKick pid w key s
  | .wdogExpiry ix => Sys2Proof.Machine.execWdogExpiry ix s
  | .protLock pid => Sys2Proof.Machine.execProtLock pid s
  | .pwrStateRequest pid t => Sys2Proof.Machine.execPwrStateRequest pid t s
  | .transitionDone => Sys2Proof.Machine.execTransitionDone s
  | .transitionLoadsOff commit => Sys2Proof.Machine.execTransitionLoadsOff commit s
  | .powerDownComplete samples fail => Sys2Proof.Machine.execPowerDownComplete samples fail s
  | .suspendMaxExpiry => Sys2Proof.Machine.execSuspendMaxExpiry s
  | .dieEnable pid d => Sys2Proof.Machine.execDieEnable pid d s
  | .surgeEnter => Sys2Proof.Machine.execSurgeEnter s
  | .surgeExit => Sys2Proof.Machine.execSurgeExit s
  | .ovLong => Sys2Proof.Machine.execOvLong s
  | .ovLongRelease => Sys2Proof.Machine.execOvLongRelease s
  | .lowvEnter => Sys2Proof.Machine.execLowvEnter s
  | .lowvExit => Sys2Proof.Machine.execLowvExit s
  | .brownout => Sys2Proof.Machine.execBrownout s
  | .brownoutRecovery => Sys2Proof.Machine.execBrownoutRecovery s
  | .retentionLoss => Sys2Proof.Machine.execRetentionLoss s
  | .porAssert => Sys2Proof.Machine.execPorAssert s
  | .powerOnReset => Sys2Proof.Machine.execPowerOnReset s
  | .reversalEnd => Sys2Proof.Machine.execReversalEnd s
  | .kl30Lost ix => Sys2Proof.Machine.execKl30Lost ix s
  | .kl30Restored ix => Sys2Proof.Machine.execKl30Restored ix s
  | .batLost ix => Sys2Proof.Machine.execBatLost ix s
  | .batRestored ix => Sys2Proof.Machine.execBatRestored ix s
  | .gndLoss => Sys2Proof.Machine.execGndLoss s
  | .wakeComparatorEvent ix rise samples fail => Sys2Proof.Machine.execWakeComparatorEvent ix rise samples fail s
  | .dsMaskRearm ix => Sys2Proof.Machine.execDsMaskRearm ix s
  | .gladeSampleDue c v late fail => Sys2Proof.Machine.execGladeSampleDue c v late fail s
  | .gladeConversionTimeout c => Sys2Proof.Machine.execGladeConversionTimeout c s
  | .flashToggle k => Sys2Proof.Machine.execFlashToggle k s
  | .maxOnExpiry k => Sys2Proof.Machine.execMaxOnExpiry k s
  | .dloadReturn k => Sys2Proof.Machine.execDloadReturn k s
  | .gladeServiceEnd => Sys2Proof.Machine.execGladeServiceEnd s
  | .watchMaxExpiry => Sys2Proof.Machine.execWatchMaxExpiry s
  | .gladeSeqWdog => Sys2Proof.Machine.execGladeSeqWdog s
  | .wakeReasonClear pid => Sys2Proof.Machine.execWakeReasonClear pid s
  | .gldWakeAck pid => Sys2Proof.Machine.execGldWakeAck pid s
  | .validationWindowExpiry => Sys2Proof.Machine.execValidationWindowExpiry s
  | .fwDisClear pid hi v => Sys2Proof.Machine.execFwDisClear pid hi v s
  | .gladeStoreSave pid => Sys2Proof.Machine.execGladeStoreSave pid s
  | .gladeSaveDone ok => Sys2Proof.Machine.execGladeSaveDone ok s
  | .moduleResetRelease x recA recB okA okB => Sys2Proof.Machine.execModuleResetRelease x recA recB okA okB s
  | .bootTimeout => Sys2Proof.Machine.execBootTimeout s
  | .softwareReset pid key => Sys2Proof.Machine.execSoftwareReset pid key s
  | .debugReset => Sys2Proof.Machine.execDebugReset s
  | .loopCntClear => Sys2Proof.Machine.execLoopCntClear s
  | .perstAssert => Sys2Proof.Machine.execPerstAssert s
  | .perstDeassert => Sys2Proof.Machine.execPerstDeassert s
  | .testAccessReset => Sys2Proof.Machine.execTestAccessReset s
  | .slotWrite pid slot => Sys2Proof.Machine.execSlotWrite pid slot s
  | .slotGenerate pid slot => Sys2Proof.Machine.execSlotGenerate pid slot s
  | .slotDerive pid slot => Sys2Proof.Machine.execSlotDerive pid slot s
  | .slotInvalidate pid slot => Sys2Proof.Machine.execSlotInvalidate pid slot s
  | .slotErase pid slot => Sys2Proof.Machine.execSlotErase pid slot s
  | .purgeVisit => Sys2Proof.Machine.execPurgeVisit s
  | .trngHealthFail => Sys2Proof.Machine.execTrngHealthFail s
  | .drbgReseed => Sys2Proof.Machine.execDrbgReseed s
  | .lifecycleCommand pid key target => Sys2Proof.Machine.execLifecycleCommand pid key target s
  | .lifecycleFuseBlown => Sys2Proof.Machine.execLifecycleFuseBlown s
  | .vltRingDoorbell pid r tail => Sys2Proof.Machine.execVltRingDoorbell pid r tail s
  | .jobCipher bad => Sys2Proof.Machine.execJobCipher s bad
  | .jobMac bad => Sys2Proof.Machine.execJobMac s bad
  | .jobHash => Sys2Proof.Machine.execJobHash s
  | .jobSign bad => Sys2Proof.Machine.execJobSign s bad
  | .jobVerify bad => Sys2Proof.Machine.execJobVerify s bad
  | .jobAgree bad => Sys2Proof.Machine.execJobAgree s bad
  | .jobDerive bad => Sys2Proof.Machine.execJobDerive s bad
  | .jobPubkey bad => Sys2Proof.Machine.execJobPubkey s bad
  | .jobRandom => Sys2Proof.Machine.execJobRandom s
  | .jobQuote bad => Sys2Proof.Machine.execJobQuote s bad
  | .jobAuth => Sys2Proof.Machine.execJobAuth s
  | .jobArb => Sys2Proof.Machine.execJobArb s
  | .jobOtpAuth => Sys2Proof.Machine.execJobOtpAuth s
  | .jobErase => Sys2Proof.Machine.execJobErase s
  | .measExtend pid m => Sys2Proof.Machine.execMeasExtend pid m s
  | .measR0Close pid => Sys2Proof.Machine.execMeasR0Close pid s
  | .debugAuth op => Sys2Proof.Machine.execDebugAuth op s
  | .hvpidWrite h mode v => Sys2Proof.Machine.execHvpidWrite h mode v s
  | .specBar h => Sys2Proof.Machine.execSpecBar h s
  | .cboFlush h addr => Sys2Proof.Machine.execCboFlush h addr s
  | .clusterClockChange pid k v => Sys2Proof.Machine.execClusterClockChange pid k v s
  | .clockChangeDone k => Sys2Proof.Machine.execClockChangeDone k s
  | .hartRun pid h => Sys2Proof.Machine.execHartRun pid h s
  | .hartStop pid h => Sys2Proof.Machine.execHartStop pid h s
  | .pageRetireDone => Sys2Proof.Machine.execPageRetireDone s
  | .scrubStep ecc => Sys2Proof.Machine.execScrubStep ecc s
  | .rekeyDone => Sys2Proof.Machine.execRekeyDone s
  | .iwVote x v c part tcm => Sys2Proof.Machine.execIwVote x v c part tcm s
  | .resyncDone x ok => Sys2Proof.Machine.execResyncDone x ok s
  | .iwCoreRetireCmd pid x k => Sys2Proof.Machine.execIwCoreRetireCmd pid x k s
  | .iwCoreRearm pid x k => Sys2Proof.Machine.execIwCoreRearm pid x k s
  | .iwDecayTick x => Sys2Proof.Machine.execIwDecayTick x s
  | .voterSelftestInject x ok => Sys2Proof.Machine.execVoterSelftestInject x ok s
  | .startupSelftestDone x fails => Sys2Proof.Machine.execStartupSelftestDone x fails s
  | .tripletRestart pid x => Sys2Proof.Machine.execTripletRestart pid x s
  | .irqClaim pid x c => Sys2Proof.Machine.execIrqClaim pid x c s
  | .irqComplete pid x c n => Sys2Proof.Machine.execIrqComplete pid x c n s
  | .machineTimerInterrupt x c => Sys2Proof.Machine.execMachineTimerInterrupt x c s
  | .iwDmaStart pid x ch irq => Sys2Proof.Machine.execIwDmaStart pid x ch irq s
  | .iwDmaDone x ch => Sys2Proof.Machine.execIwDmaDone x ch s
  | .debugHalt t => Sys2Proof.Machine.execDebugHalt t s
  | .debugResume t => Sys2Proof.Machine.execDebugResume t s
  | .cycleBoundary ok => Sys2Proof.Machine.execCycleBoundary ok s
  | .snapshotReady => Sys2Proof.Machine.execSnapshotReady s
  | .comparePoint => Sys2Proof.Machine.execComparePoint s
  | .mmDecayTick => Sys2Proof.Machine.execMmDecayTick s
  | .stUnitStart go => Sys2Proof.Machine.execStUnitStart go s
  | .stUnitEnd slice march => Sys2Proof.Machine.execStUnitEnd slice march s
  | .channelCommand pid g w => Sys2Proof.Machine.execChannelCommand pid g w s
  | .channelConfigWrite pid g w => Sys2Proof.Machine.execChannelConfigWrite pid g w s
  | .pwmPeriodStart g t => Sys2Proof.Machine.execPwmPeriodStart g t s
  | .pwmOnPhaseEnd g t uj => Sys2Proof.Machine.execPwmOnPhaseEnd g t uj s
  | .motorRampStep g => Sys2Proof.Machine.execMotorRampStep g s
  | .motorStartWindowEnd g => Sys2Proof.Machine.execMotorStartWindowEnd g s
  | .valvePeakEnd g => Sys2Proof.Machine.execValvePeakEnd g s
  | .currentSample g x => Sys2Proof.Machine.execCurrentSample g x s
  | .channelPublish g => Sys2Proof.Machine.execChannelPublish g s
  | .boundSignalUpdate g => Sys2Proof.Machine.execBoundSignalUpdate g s
  | .bindTimeout g => Sys2Proof.Machine.execBindTimeout g s
  | .governorEval => Sys2Proof.Machine.execGovernorEval s
  | .governorOverrunShed b => Sys2Proof.Machine.execGovernorOverrunShed b s
  | .turnOffComplete g uj vClamp tNs => Sys2Proof.Machine.execTurnOffComplete g uj vClamp tNs s
  | .limitTimeTrip g => Sys2Proof.Machine.execLimitTimeTrip g s
  | .wireModelStep g => Sys2Proof.Machine.execWireModelStep g s
  | .thermalShutdown g => Sys2Proof.Machine.execThermalShutdown g s
  | .thermalLatchClear g wire => Sys2Proof.Machine.execThermalLatchClear g wire s
  | .dieTempChange d t => Sys2Proof.Machine.execDieTempChange d t s
  | .dieShedStep d => Sys2Proof.Machine.execDieShedStep d s
  | .dieUvSet d => Sys2Proof.Machine.execDieUvSet d s
  | .dieUvClear d => Sys2Proof.Machine.execDieUvClear d s
  | .clampBudgetExceeded g => Sys2Proof.Machine.execClampBudgetExceeded g s
  | .softRampHot g => Sys2Proof.Machine.execSoftRampHot g s
  | .repetitiveClampTrip g => Sys2Proof.Machine.execRepetitiveClampTrip g s
  | .retryDelayExpiry g => Sys2Proof.Machine.execRetryDelayExpiry g s
  | .retryBudgetRefill g => Sys2Proof.Machine.execRetryBudgetRefill g s
  | .coolWaitExpiry g => Sys2Proof.Machine.execCoolWaitExpiry g s
  | .offstateTestStart g t => Sys2Proof.Machine.execOffstateTestStart g t s
  | .offstateTestDone g v => Sys2Proof.Machine.execOffstateTestDone g v s
  | .olonDetect g => Sys2Proof.Machine.execOlonDetect g s
  | .olonClear pid g => Sys2Proof.Machine.execOlonClear pid g s
  | .lampCompUpdate g => Sys2Proof.Machine.execLampCompUpdate g s
  | .inrushWindowEnd g => Sys2Proof.Machine.execInrushWindowEnd g s
  | .dgFwStop d => Sys2Proof.Machine.execDgFwStop d s
  | .sniSampleDue n raw late => Sys2Proof.Machine.execSniSampleDue n raw late s
  | .sniConvTimeout n => Sys2Proof.Machine.execSniConvTimeout n s
  | .sniPublish n => Sys2Proof.Machine.execSniPublish n s
  | .sniConfigWrite pid n r w => Sys2Proof.Machine.execSniConfigWrite pid n r w s
  | .canIntegrated c => Sys2Proof.Machine.execCanIntegrated c s
  | .canTxbufRequest pid c v => Sys2Proof.Machine.execCanTxbufRequest pid c v s
  | .canTxbufCancel pid c v => Sys2Proof.Machine.execCanTxbufCancel pid c v s
  | .canArbitration c ecc word => Sys2Proof.Machine.execCanArbitration c ecc word s
  | .canTxSuccess c dly => Sys2Proof.Machine.execCanTxSuccess c dly s
  | .canTxError c e dly => Sys2Proof.Machine.execCanTxError c e dly s
  | .canBoDelayExpiry c => Sys2Proof.Machine.execCanBoDelayExpiry c s
  | .canRecover pid c => Sys2Proof.Machine.execCanRecover pid c s
  | .canRecoveryDone c => Sys2Proof.Machine.execCanRecoveryDone c s
  | .canBoDiscardWrite pid c => Sys2Proof.Machine.execCanBoDiscardWrite pid c s
  | .canErrorDetected c e exc => Sys2Proof.Machine.execCanErrorDetected c e exc s
  | .canDomTimeout c => Sys2Proof.Machine.execCanDomTimeout c s
  | .canTsWrap c => Sys2Proof.Machine.execCanTsWrap c s
  | .canTsSync pid v => Sys2Proof.Machine.execCanTsSync pid v s
  | .canArbFieldFilter c f ago ecc word => Sys2Proof.Machine.execCanArbFieldFilter c f ago ecc word s
  | .canFrameValid c data => Sys2Proof.Machine.execCanFrameValid c data s
  | .canLockRead pid c sec buf => Sys2Proof.Machine.execCanLockRead pid c sec buf s
  | .canReleaseRead pid c sec buf => Sys2Proof.Machine.execCanReleaseRead pid c sec buf s
  | .canLockTimeout c sec => Sys2Proof.Machine.execCanLockTimeout c sec s
  | .canRxRelease pid c ack target buf => Sys2Proof.Machine.execCanRxRelease pid c ack target buf s
  | .canRxbufNewClear pid c hi v => Sys2Proof.Machine.execCanRxbufNewClear pid c hi v s
  | .canTxqPush pid c => Sys2Proof.Machine.execCanTxqPush pid c s
  | .canTxqCancel pid c v => Sys2Proof.Machine.execCanTxqCancel pid c v s
  | .linSlotStart n bad => Sys2Proof.Machine.execLinSlotStart n bad s
  | .linHeaderReceived n sync pid bad => Sys2Proof.Machine.execLinHeaderReceived n sync pid bad s
  | .linFrameEnd n res data => Sys2Proof.Machine.execLinFrameEnd n res data s
  | .linResponseTimeout n any => Sys2Proof.Machine.execLinResponseTimeout n any s
  | .linSchedRun pid n run start => Sys2Proof.Machine.execLinSchedRun pid n run start s
  | .linSchedSwitch pid n next => Sys2Proof.Machine.execLinSchedSwitch pid n next s
  | .linSleep pid n => Sys2Proof.Machine.execLinSleep pid n s
  | .linWakeTx pid n => Sys2Proof.Machine.execLinWakeTx pid n s
  | .linWakePulse n fail => Sys2Proof.Machine.execLinWakePulse n fail s
  | .linIdle4s n => Sys2Proof.Machine.execLinIdle4s n s
  | .linWakeHoldEnd n => Sys2Proof.Machine.execLinWakeHoldEnd n s
  | .linDomTimeout n => Sys2Proof.Machine.execLinDomTimeout n s
  | .linBusStuck n => Sys2Proof.Machine.execLinBusStuck n s
  | .ethLinkChange p up master sqi capable twMin => Sys2Proof.Machine.execEthLinkChange p up master sqi capable twMin s
  | .ethFrameRx p f phyErr fcsErr ago ce saBad => Sys2Proof.Machine.execEthFrameRx p f phyErr fcsErr ago ce saBad s
  | .ethDropInterval p => Sys2Proof.Machine.execEthDropInterval p s
  | .macTxStart p fail ago => Sys2Proof.Machine.execMacTxStart p fail ago s
  | .macUnderrun p late => Sys2Proof.Machine.execMacUnderrun p late s
  | .txThrWrite pid p step start => Sys2Proof.Machine.execTxThrWrite pid p step start s
  | .cTxTailWrite pid p q tail => Sys2Proof.Machine.execCTxTailWrite pid p q tail s
  | .cPortSend x stop n => Sys2Proof.Machine.execCPortSend x stop n s
  | .cRxTailWrite pid p q tail => Sys2Proof.Machine.execCRxTailWrite pid p q tail s
  | .lpiEnter p => Sys2Proof.Machine.execLpiEnter p s
  | .lpiExit p => Sys2Proof.Machine.execLpiExit p s
  | .macsecSaEnable pid p e slot => Sys2Proof.Machine.execMacsecSaEnable pid p e slot s
  | .phyFwStop => Sys2Proof.Machine.execPhyFwStop s
  | .switchDecision p head ecc ce => Sys2Proof.Machine.execSwitchDecision p head ecc ce s
  | .cellTimeMatch plane => Sys2Proof.Machine.execCellTimeMatch plane s
  | .pmapWrite pid j v => Sys2Proof.Machine.execPmapWrite pid j v s
  | .pmapApply => Sys2Proof.Machine.execPmapApply s
  | .tblRead pid table index => Sys2Proof.Machine.execTblRead pid table index s
  | .tblWrite pid table index hold => Sys2Proof.Machine.execTblWrite pid table index hold s
  | .tblDelete pid table index hold => Sys2Proof.Machine.execTblDelete pid table index hold s
  | .tblSearch pid table index => Sys2Proof.Machine.execTblSearch pid table index s
  | .fdbAgeOut ix => Sys2Proof.Machine.execFdbAgeOut ix s
  | .wredAvgTick p t => Sys2Proof.Machine.execWredAvgTick p t s
  | .queueHoldExpiry p => Sys2Proof.Machine.execQueueHoldExpiry p s
  | .gateFitDrop p t => Sys2Proof.Machine.execGateFitDrop p t s
  | .swcDrainRequest pid tmo => Sys2Proof.Machine.execSwcDrainRequest pid tmo s
  | .swcDrainDone => Sys2Proof.Machine.execSwcDrainDone s
  | .swcDrainTimeout => Sys2Proof.Machine.execSwcDrainTimeout s
  | .gclChangeRequest pid p => Sys2Proof.Machine.execGclChangeRequest pid p s
  | .gclChange p => Sys2Proof.Machine.execGclChange p s
  | .gclEntryAdvance p => Sys2Proof.Machine.execGclEntryAdvance p s
  | .tmbRateWrite pid v => Sys2Proof.Machine.execTmbRateWrite pid v s
  | .tmbAdjWrite pid v => Sys2Proof.Machine.execTmbAdjWrite pid v s
  | .slewDone => Sys2Proof.Machine.execSlewDone s
  | .tmbStep pid => Sys2Proof.Machine.execTmbStep pid s
  | .dieTimeUpdate got => Sys2Proof.Machine.execDieTimeUpdate got s
  | .dieUnsync d => Sys2Proof.Machine.execDieUnsync d s
  | .tsPop pid => Sys2Proof.Machine.execTsPop pid s
  | .ptpTx pid port len => Sys2Proof.Machine.execPtpTx pid port len s
  | .ppsPulse => Sys2Proof.Machine.execPpsPulse s
  | .ppsPulseEnd => Sys2Proof.Machine.execPpsPulseEnd s
  | .ppsCapture => Sys2Proof.Machine.execPpsCapture s
  | .canCapture pid ch => Sys2Proof.Machine.execCanCapture pid ch s
  | .canCaptureAuto => Sys2Proof.Machine.execCanCaptureAuto s
  | .pduIngress commit ecc ce => Sys2Proof.Machine.execPduIngress commit ecc ce s
  | .pduRxTimeout d => Sys2Proof.Machine.execPduRxTimeout d s
  | .sigWrite pid addr => Sys2Proof.Machine.execSigWrite pid addr s
  | .sigRead pid addr => Sys2Proof.Machine.execSigRead pid addr s
  | .cyclicSendDue d => Sys2Proof.Machine.execCyclicSendDue d s
  | .minGapEnd d => Sys2Proof.Machine.execMinGapEnd d s
  | .heldSendRelease d => Sys2Proof.Machine.execHeldSendRelease d s
  | .srBundleExpiry => Sys2Proof.Machine.execSrBundleExpiry s
  | .srtKeyEnable pid ix slot => Sys2Proof.Machine.execSrtKeyEnable pid ix slot s
  | .remoteSignalIn pid addr v => Sys2Proof.Machine.execRemoteSignalIn pid addr v s
  | .shdPut pid => Sys2Proof.Machine.execShdPut pid s
  | .shdClear pid => Sys2Proof.Machine.execShdClear pid s
  | .epochCommit pid => Sys2Proof.Machine.execEpochCommit pid s
  | .epochTakesEffect => Sys2Proof.Machine.execEpochTakesEffect s
  | .bankApplyDone => Sys2Proof.Machine.execBankApplyDone s
  | .srtDrainRequest pid tmo => Sys2Proof.Machine.execSrtDrainRequest pid tmo s
  | .srtDrainDone => Sys2Proof.Machine.execSrtDrainDone s
  | .srtDrainTimeout => Sys2Proof.Machine.execSrtDrainTimeout s
  | .rcPreload pid start => Sys2Proof.Machine.execRcPreload pid start s
  | .rcPreloadDone => Sys2Proof.Machine.execRcPreloadDone s
  | .rcInvalidate pid => Sys2Proof.Machine.execRcInvalidate pid s
  | .rtRead pid gsid => Sys2Proof.Machine.execRtRead pid gsid s
  | .nmMsgCycle c => Sys2Proof.Machine.execNmMsgCycle c s
  | .nmRepeatExpiry c => Sys2Proof.Machine.execNmRepeatExpiry c s
  | .nmTimerExpiry c => Sys2Proof.Machine.execNmTimerExpiry c s
  | .nmWaitSleepExpiry c => Sys2Proof.Machine.execNmWaitSleepExpiry c s
  | .nmSwRequest pid c on => Sys2Proof.Machine.execNmSwRequest pid c on s
  | .nmRmrRequest pid c => Sys2Proof.Machine.execNmRmrRequest pid c s
  | .nmSafeRequest pid c on => Sys2Proof.Machine.execNmSafeRequest pid c on s
  | .t1SleepHandshakeFail p => Sys2Proof.Machine.execT1SleepHandshakeFail p s
  | .t1PartnerSleepReq p => Sys2Proof.Machine.execT1PartnerSleepReq p s
  | .selectiveWake c e data fail => Sys2Proof.Machine.execSelectiveWake c e data fail s
  | .trxWake c id tx => Sys2Proof.Machine.execTrxWake c id tx s
  | .maxAwakeReached c => Sys2Proof.Machine.execMaxAwakeReached c s
  | .ignClear pid c => Sys2Proof.Machine.execIgnClear pid c s
  | .isoRequest pid key => Sys2Proof.Machine.execIsoRequest pid key s
  | .isoRelease pid key => Sys2Proof.Machine.execIsoRelease pid key s
  | .isoRelease3 pid key => Sys2Proof.Machine.execIsoRelease3 pid key s
  | .nmLogPop pid => Sys2Proof.Machine.execNmLogPop pid s
  | .flWakeDriveEnd => Sys2Proof.Machine.execFlWakeDriveEnd s
  | .finzaTrained c width host isUp mode dev => Sys2Proof.Machine.execFinzaTrained c width host isUp mode dev s
  | .finzaRetrain pid c => Sys2Proof.Machine.execFinzaRetrain pid c s
  | .finzaTrainTimeout c => Sys2Proof.Machine.execFinzaTrainTimeout c s
  | .finzaDownRetry c => Sys2Proof.Machine.execFinzaDownRetry c s
  | .finzaWidthRetry c => Sys2Proof.Machine.execFinzaWidthRetry c s
  | .finzaPacketRx c ix => Sys2Proof.Machine.execFinzaPacketRx c ix s
  | .finzaReplayTimeout c => Sys2Proof.Machine.execFinzaReplayTimeout c s
  | .finzaRxTimeout c => Sys2Proof.Machine.execFinzaRxTimeout c s
  | .enumTailTimeout => Sys2Proof.Machine.execEnumTailTimeout s
  | .enumRestart pid => Sys2Proof.Machine.execEnumRestart pid s
  | .finzaLinkDown c => Sys2Proof.Machine.execFinzaLinkDown c s
  | .chainReadTimeout tag => Sys2Proof.Machine.execChainReadTimeout tag s
  | .tunnelReasmTimeout src => Sys2Proof.Machine.execTunnelReasmTimeout src s
  | .tunnelAgeOut mac bad => Sys2Proof.Machine.execTunnelAgeOut mac bad s
  | .sidebandIrqFall => Sys2Proof.Machine.execSidebandIrqFall s
  | .sidebandFaultLow => Sys2Proof.Machine.execSidebandFaultLow s
  | .hostWrite fn bar2 off data err => Sys2Proof.Machine.execHostWrite fn bar2 off data err s
  | .hostRead fn bar2 off len atomic err => Sys2Proof.Machine.execHostRead fn bar2 off len atomic err s
  | .hostReadTimeout ix barrier => Sys2Proof.Machine.execHostReadTimeout ix barrier s
  | .devReadTimeout ix => Sys2Proof.Machine.execDevReadTimeout ix s
  | .writeFaultRx w0 w1 w2 w3 => Sys2Proof.Machine.execWriteFaultRx w0 w1 w2 w3 s
  | .lostPacketRx instV inst wseq => Sys2Proof.Machine.execLostPacketRx instV inst wseq s
  | .wsyncBarrier pid n => Sys2Proof.Machine.execWsyncBarrier pid n s
  | .wsyncDone n => Sys2Proof.Machine.execWsyncDone n s
  | .backoffRetry ix => Sys2Proof.Machine.execBackoffRetry ix s
  | .semTake pid ix => Sys2Proof.Machine.execSemTake pid ix s
  | .semRelease pid ix => Sys2Proof.Machine.execSemRelease pid ix s
  | .semTimeout ix => Sys2Proof.Machine.execSemTimeout ix s
  | .functionLevelReset fn => Sys2Proof.Machine.execFunctionLevelReset fn s
  | .instBind pid n kind arg => Sys2Proof.Machine.execInstBind pid n kind arg s
  | .instRemove pid n => Sys2Proof.Machine.execInstRemove pid n s
  | .mbSend n => Sys2Proof.Machine.execMbSend n s
  | .mgrAck pid n => Sys2Proof.Machine.execMgrAck pid n s
  | .mgrRing pid n => Sys2Proof.Machine.execMgrRing pid n s
  | .mbAck n => Sys2Proof.Machine.execMbAck n s
  | .funcDoorbell n v => Sys2Proof.Machine.execFuncDoorbell n v s
  | .funcWindowAccess n w v => Sys2Proof.Machine.execFuncWindowAccess n w v s
  | .deliveryUnmask pid n k => Sys2Proof.Machine.execDeliveryUnmask pid n k s
  | .instReset n => Sys2Proof.Machine.execInstReset n s
  | .instResetDone n => Sys2Proof.Machine.execInstResetDone n s
  | .migFreeze pid n => Sys2Proof.Machine.execMigFreeze pid n s
  | .migFrozen n => Sys2Proof.Machine.execMigFrozen n s
  | .migSave pid n jrnl => Sys2Proof.Machine.execMigSave pid n jrnl s
  | .migSaveDone => Sys2Proof.Machine.execMigSaveDone s
  | .migRestore pid n => Sys2Proof.Machine.execMigRestore pid n s
  | .migResume pid n => Sys2Proof.Machine.execMigResume pid n s
  | .migLogOn pid => Sys2Proof.Machine.execMigLogOn pid s
  | .migLogOff pid => Sys2Proof.Machine.execMigLogOff pid s
  | .migSwap pid => Sys2Proof.Machine.execMigSwap pid s
  | .migCopy pid => Sys2Proof.Machine.execMigCopy pid s
  | .migCopyDone => Sys2Proof.Machine.execMigCopyDone s
  | .migRecover pid => Sys2Proof.Machine.execMigRecover pid s
  | .updOpen pid => Sys2Proof.Machine.execUpdOpen pid s
  | .updChunk pid => Sys2Proof.Machine.execUpdChunk pid s
  | .relayChunkRx => Sys2Proof.Machine.execRelayChunkRx s
  | .updCommit pid => Sys2Proof.Machine.execUpdCommit pid s
  | .commitStepDone res => Sys2Proof.Machine.execCommitStepDone res s
  | .updAbort pid => Sys2Proof.Machine.execUpdAbort pid s
  | .updFallback pid => Sys2Proof.Machine.execUpdFallback pid s
  | .updTxnBegin pid => Sys2Proof.Machine.execUpdTxnBegin pid s
  | .updTxnEnd pid => Sys2Proof.Machine.execUpdTxnEnd pid s
  | .updTxnRead pid => Sys2Proof.Machine.execUpdTxnRead pid s
  | .updConfirm pid health safe => Sys2Proof.Machine.execUpdConfirm pid health safe s
  | .confirmWindowExpiry => Sys2Proof.Machine.execConfirmWindowExpiry s
  | .rtRegulatorPeriod r => Sys2Proof.Machine.execRtRegulatorPeriod r s
  | .finzaAckTimer c => Sys2Proof.Machine.execFinzaAckTimer c s
  | .pcieLinkChange up speed width => Sys2Proof.Machine.execPcieLinkChange up speed width s
  | .configurationRequest fn numVf msix => Sys2Proof.Machine.execConfigurationRequest fn numVf msix s
  | .rxLpiChange p v => Sys2Proof.Machine.execRxLpiChange p v s
  | .t1WakeSignalling p fail => Sys2Proof.Machine.execT1WakeSignalling p fail s
  | .dieClockLoss d => Sys2Proof.Machine.execDieClockLoss d s

end Sys2Proof.Machine
end

