-- ==== Sys2Proof/Safety.lean ====
section
/-!
DEFINITION. What the claims call a legal state, a quiet one, a completed command and an untouched part of the state.
-/
namespace Sys2Proof.Machine

/-- The memory is in its canonical form, and so is the register file, whose registers keep their reserved bits at the reset value. -/
def State.legal (s : State) : Prop := Memory.wf s.mem = true ∧ Regs.wf s.regs = true

/-- Nothing is left of what follows a command: no reaction is due, no reset or resume has started, no vector or packet waits. -/
def State.settled (s : State) : Prop := s.unsettled = false

/-- Command `c` completes in state `s`: the step answers a next state, `t` with all that follows from it carried out. -/
def Completes (c : Instr) (s t : State) : Prop := exec c s = .next (settle.run t)

/-- No byte of memory differs. -/
def SameMem (s t : State) : Prop := ∀ a, t.byte a = s.byte a

/-- No register outside those that `p` names differs. -/
def OnlyRegs (p : Nat → Bool) (s t : State) : Prop := ∀ a, p a = false → t.reg a = s.reg a

/-- No byte of memory differs, and no register outside those that `p` names. -/
def Untouched (p : Nat → Bool) (s t : State) : Prop := SameMem s t ∧ OnlyRegs p s t

/-- Command `c` completes in state `s` with the effect `u` (and all that follows from it); the effect leaves memory and every
register outside those that `p` names alone. -/
def Does (c : Instr) (u : Upd) (p : Nat → Bool) (s : State) : Prop := Completes c s (u.run s) ∧ Untouched p s (u.run s)

/-- No fault is armed to strike unit `k`'s next operation. -/
def State.unarmed (s : State) (k : Nat) : Bool := !s.flag (BLK_ERR_INJ_ARM k)

/-- A write of `v` to the register at `a` by `pid` is accepted and acts (R63, R76, R78, R79, R93): requesters are powered, no check of the
fabric and no access code refuses it, its page is open, its register not locked, and no fault is armed to strike its unit. -/
def State.accepts (s : State) (pid a v : Nat) : Bool := match locate a with
  | none => false
  | some l => decide (s.pwr ≤ 1) && s.checkAt (pid, true) a 4 1 == 0 && s.writeCause false pid a v == 0 && !s.closed l && !s.frozenReg l && !s.noSet l
      && s.unarmed (if 32 ≤ l.unit then 6 else l.unit)

/-- What a write of `v` leaves in the register at `a`, field by field (R78). -/
def stored (a v : Nat) : Upd := .read fun s => match locate a with
  | none => .skip
  | some l => setReg a (l.row.store (s.reg a) v)

/-- Command `c` is an accepted write of `v` to the register at `a` by `pid`: it completes with the effect `u` and an answer without error;
the effect leaves memory and every register outside those that `p` names alone. -/
def Writes (c : Instr) (pid a v : Nat) (u : Upd) (p : Nat → Bool) (s : State) : Prop :=
  s.accepts pid a v = true → Does c (.seq u (answer (okResp []))) p s

/-- The same of a command whose effect reaches further: `Writes` without a frame. -/
def WritesAll (c : Instr) (pid a v : Nat) (u : Upd) (s : State) : Prop :=
  s.accepts pid a v = true → Completes c s ((Upd.seq u (answer (okResp []))).run s)

/-- The vault fetches job `j` in state `s` (R179, R180): its ring is served next, `l` and `p` being what the grant leaves, its descriptor
lies in the ring's window, and the read of the descriptor answers the job's words and leaves state `t`. -/
def State.fetches (s t : State) (j : Job) (l : Tbl Nat) (p : Nat) : Prop :=
  s.ringGrant = (some j.ring, l, p) ∧ j.at_ = s.ringBase j.ring + 64 * s.get (VLT_RING_HEAD_INDEX j.ring) ∧
    s.inRingWin j.ring j.at_ 64 = true ∧ ∃ d : List Byte,
    j.w = (List.range 16).map (fun i => leValue ((d.drop (4 * i)).take 4)) ∧
    ∀ k : Option (List Byte) → Upd, (dmaRead 57 j.at_ 64 k).run s = (k (some d)).run t

/-- Operation `op` of the vault's next job runs as command `c`, `bad` being the command's word on its key load: a job of that operation that
has the random numbers it needs is carried out after the grant, one that names an address outside its ring's window ends with WINDOW, a
descriptor outside the window is passed over, and with no ring ready only the round-robin moves on. -/
def RunsJob (c : Instr) (op : Nat) (bad : Bool) : Prop :=
  (∀ (s t : State) (j : Job) (l : Tbl Nat) (p : Nat), s.unarmed 5 = true → s.fetches t j l p → j.op = op → j.bad = bad →
    (s.jobRandomly j = false ∨ s.flag VLT_TRNG_STAT_OK = true ∨ s.flag VLT_TRNG_STAT_FAILED = true) →
    Completes c s ((if s.jobInWin j then doJob j else jobEnd j WINDOW 0).run ((updVlt fun v => { v with rrLeft := l, rrPtr := p }).run t))) ∧
  (∀ (s : State) (r : Nat) (l : Tbl Nat) (p : Nat), s.unarmed 5 = true → s.ringGrant = (some r, l, p) →
    s.inRingWin r (s.ringBase r + 64 * s.get (VLT_RING_HEAD_INDEX r)) 64 = false →
    Completes c s ((ringNext r).run ((updVlt fun v => { v with rrLeft := l, rrPtr := p }).run s))) ∧
  (∀ (s : State) (l : Tbl Nat) (p : Nat), s.unarmed 5 = true → s.ringGrant = (none, l, p) →
    Does c (updVlt fun v => { v with rrLeft := l, rrPtr := p }) (fun _ => false) s)

/-- The registers of the MSU that a fault's report may write (R260, R270): MSU_FAULT_STAT, MSU_INJ_CTRL, MSU_FCU_FIRST and
MSU_FCU_PEND 0 to 15. -/
def faultRegs (a : Nat) : Bool :=
  a == 0x10000110 || a == 0x10000154 || a == 0x10000158 || (decide (0x10000C00 ≤ a) && decide (a < 0x10000C40))

/-- The pages of the four load-switch dice. -/
def lswPages (a : Nat) : Bool := decide (0x40000000 ≤ a) && decide (a < 0x40310000)

/-- What a fault of unit `k` may write: its page, the fault registers of the MSU. -/
def faultFoot (k a : Nat) : Bool := onPage k a || faultRegs a

/-- What a trip of channel `g` may write: its die's page, the fault registers, BLK_IRQ_STAT of Glade. -/
def tripFoot (g a : Nat) : Bool := onPage (lswUnit g) a || faultRegs a || a == 0x50000010

end Sys2Proof.Machine
end

