-- ==== Sys2Proof/Certificates/Slice0/Obligations.lean ====
section
/-!
DEFINITION. The statements for the provers, from the rules of spec/.
-/
open Sys2Proof Sys2Proof.Machine

/-- A step runs the command at the front of the queue; on an empty queue one cycle passes -/
def Obligations.StepRunsFront : Prop :=
  (∀ (c : Instr) (l : List Instr) (s : State), s.pending = c :: l → step s = exec c { s with pending := l }) ∧
  (∀ (c : Instr) (l : List Instr) (s : State), step { s with pending := c :: l } = exec c { s with pending := l }) ∧
  (∀ s : State, s.pending = [] → ∃ t, step s = .next t ∧ t.pending = [] ∧ t.now = s.now + 1 ∧ Untouched (fun _ => false) s t)
/-- A step keeps the state legal -/
def Obligations.StepKeepsLegal : Prop :=
  ∀ s t : State, s.legal → step s = .next t → t.legal
/-- The state after reset is legal, its queue empty, and no command pends -/
def Obligations.ResetIsLegal : Prop :=
  State.reset.legal ∧ State.reset.settled ∧ State.reset.pending = [] ∧ State.reset.mem = [] ∧
  State.reset.get MSU_BOOT_STAT_PHASE = 0 ∧ State.reset.reg MSU_PROT_LOCK = 0 ∧
  State.reset.reg PSM_DS_WAKE_EN = 0x3FF ∧ State.reset.reg PSM_DS_MASKED = 0
/-- Commands leave the queue alone, and a step takes exactly the front command off it -/
def Obligations.QueueIsFifo : Prop :=
  (∀ (c : Instr) (s t : State), exec c s = .next t → t.pending = s.pending) ∧
  (∀ (c : Instr) (l : List Instr) (s t : State), s.pending = c :: l → step s = .next t → t.pending = l) ∧
  (∀ (s t : State), step s = .next t → t.pending = s.pending.drop 1)
/-- Every command completes in every state, but for a fabric request into a window the spec leaves to another standard -/
def Obligations.EveryCommandCompletes : Prop :=
  (∀ (c : Instr) (s : State) (f : Fault), exec c s ≠ .fault f) ∧
  (∀ (c : Instr) (s : State), (∀ q, c ≠ .fabricRequest q) → ∃ t, exec c s = .next t) ∧
  (∀ (q : FabReq) (s : State), (∃ t, exec (.fabricRequest q) s = .next t) ↔ deviceGuard q s = none) ∧
  (∀ (q : FabReq) (s : State) (a : Nat), deviceGuard q s = some a → exec (.fabricRequest q) s = .refused (.deviceWindow a)) ∧
  (∀ (c : Instr) (s : State) (r : Refusal), exec c s = .refused r → ∃ q a, c = .fabricRequest q ∧ r = .deviceWindow a ∧ deviceGuard q s = some a)
/-- Registers and memory read back what was written, and nothing else moves -/
def Obligations.ReadBack : Prop :=
  (∀ (f : Fld) (v : Nat) (s : State), f.fits = true → ((set f v).run s).get f = v % 2 ^ (f.hi - f.lo + 1)) ∧
  (∀ (f g : Fld) (v : Nat) (s : State), f.fits = true → g.fits = true → (f.reg ≠ g.reg ∨ f.hi < g.lo ∨ g.hi < f.lo) →
    ((set f v).run s).get g = s.get g) ∧
  (∀ (a v c : Nat) (s : State), a ≠ c → ((setReg a v).run s).reg c = s.reg c) ∧
  (∀ (a n v : Nat) (s : State), ((store a n v).run s).load a n = v % 2 ^ (8 * n)) ∧
  (∀ (a n v c : Nat) (s : State), c < a ∨ a + n ≤ c → ((store a n v).run s).byte c = s.byte c)
/-- R5: reserved fields read 0 and take no writes -/
def Obligations.ReservedFields : Prop :=
  (∀ (a i : Nat) (s : State), s.legal → i < 32 → (regMask a).testBit i = false → s.bitAt a i = false) ∧
  (∀ (a v w : Nat) (s : State), (∀ i, (regMask a).testBit i = true → v.testBit i = w.testBit i) →
    (setReg a v).run s = (setReg a w).run s) ∧
  (∀ (a i v : Nat) (s : State), (regMask a).testBit i = false → ((setReg a v).run s).bitAt a i = false)
/-- R66: an isolation of region C or P is carried out as MODULE_SAFE -/
def Obligations.IsolationOfCAndP : Prop :=
  (∀ (r src : Nat) (s : State), r = 0 ∨ r = 2 → (regionIsolate r src).run s = (enterModuleSafe src).run s) ∧
  (∀ (src : Nat) (s : State), let t := (enterModuleSafe src).run s
    t.moduleSafe = true ∧ (s.pwr ≤ 1 → t.flag MSU_FAULT_STAT_FAULT_N = true) ∧ t.isolated 0 = s.isolated 0 ∧ t.isolated 2 = s.isolated 2) ∧
  (∀ (d : Due) (s : State), s.b.fab.due = [d] → d.effect = 5 → d.cell = none → d.cls < 3 → d.unit < 30 →
    (regionOfUnit d.unit = 0 ∨ regionOfUnit d.unit = 2) →
    dueWork.run s = (enterModuleSafe d.src).run ((updFab fun f => { f with due := [] }).run s))
/-- R117: conversions that do not complete, and retired sample cells -/
def Obligations.GladeConversions : Prop :=
  (∀ (c : Fin 32) (s : State), s.cellOn 22 c = true → s.pwr ≠ 4 →
    ∃ t, Completes (.gladeConversionTimeout c) s t ∧ t = (report 22 (some c.val) TR).run s ∧ t.reg GLD_CELL_STATE = s.reg GLD_CELL_STATE ∧
      t.reg (GLD_CELL_VAL c) = s.reg (GLD_CELL_VAL c) ∧ t.gldCell c = s.gldCell c) ∧
  (∀ (c : Fin 32) (s : State), s.flag (CELL_STAT_RETIRED 22 c) = false →
    let t := (retireCell 22 c).run s
    t.flag (CELL_STAT_RETIRED 22 c) = true ∧ t.bitAt GLD_CELL_STATE c = false ∧ t.flag (GLD_CELL_VAL_STATE c) = false) ∧
  (∀ (c : Fin 32) (v : Fin 1024) (l f : Bool) (s : State), s.unarmed 22 = true → s.flag (CELL_STAT_RETIRED 22 c) = true →
    Does (.gladeSampleDue c v l f) .skip (fun _ => false) s)
/-- R148: the time to set the protection lock -/
def Obligations.BootTimeoutRule : Prop :=
  (∀ s : State, s.get MSU_BOOT_STAT_PHASE = 2 → s.flag VLT_DBG_STAT_UNLOCKED = false →
    ∃ t, Completes .bootTimeout s t ∧ t.b.fab.reset = some 6 ∧ Untouched (fun _ => false) s t) ∧
  (∀ s : State, ((moduleReset 6).run s).get MSU_RST_CAUSE_CAUSE = 6) ∧
  (∀ s : State, s.get MSU_BOOT_STAT_PHASE ≠ 2 → Does .bootTimeout .skip (fun _ => false) s) ∧
  (∀ s : State, (lockSet.run s).get MSU_BOOT_STAT_PHASE ≠ 2) ∧
  (∀ s : State, s.flag VLT_DBG_STAT_UNLOCKED = true → Does .bootTimeout .skip (fun _ => false) s)
/-- R602: hardware semaphores -/
def Obligations.Semaphores : Prop :=
  (∀ (i : Fin 64) (o : Origin) (p : Pid) (s : State), s.flag (HBR_SEM_HELD i) = false →
    (ownerOf o p).2.1 < 64 → (ownerOf o p).2.2 < 256 →
    let t := (semHook i o p (2 ^ 31)).run s
    t.flag (HBR_SEM_HELD i) = true ∧ t.semOwner i = ownerOf o p ∧ Untouched (· == HBR_SEM i) s t) ∧
  (∀ (i : Fin 64) (o : Origin) (p : Pid) (s : State), s.flag (HBR_SEM_HELD i) = true → (semHook i o p (2 ^ 31)).run s = s) ∧
  (∀ (i : Fin 64) (o : Origin) (p : Pid) (s : State), s.flag (HBR_SEM_HELD i) = true → s.semOwner i = ownerOf o p →
    let t := (semHook i o p (2 ^ 29)).run s
    t.flag (HBR_SEM_HELD i) = false ∧ Untouched (· == HBR_SEM i) s t) ∧
  (∀ (i : Fin 64) (o : Origin) (p : Pid) (s : State), s.semOwner i ≠ ownerOf o p → (semHook i o p (2 ^ 29)).run s = s) ∧
  (∀ (fn d n p : Nat), ownerOf (.host fn) p = (1, fn, 0) ∧ ownerOf (.chain d n) p = (3, d, n) ∧ ownerOf .loc p = (2, 0, p)) ∧
  (∀ (i : Fin 64) (p : Pid) (v : Word) (s : State), s.writeCause false p (HBR_SEM i) v.toNat = 0) ∧
  (∀ (i : Fin 64) (s : State), s.flag (HBR_SEM_HELD i) = true →
    ∃ t, Completes (.semTimeout i) s t ∧ t.flag (HBR_SEM_HELD i) = false ∧ t.bitAt (BLK_IRQ_STAT 14) 3 = true) ∧
  (∀ (f a n i : Nat) (s : State), s.semHolds f a n = some i →
    s.flag (HBR_SEM_HELD i) = true ∧ s.semOwner i ≠ (1, f, 0) ∧
    (let g := s.get (HBR_SEM_ADDR_LO_ADDR i) * 64 + s.get (HBR_SEM_ADDR_HI_ADDR_HI i) * 2 ^ 32
     a < g + 64 ∧ g < a + n))
/-- R628: removing an instance -/
def Obligations.InstanceRemoval : Prop :=
  (∀ (n : Fin 256) (old : Nat) (s : State), old / 2 ^ 28 % 16 ≠ 0 → s.flag (IOM_INST_STAT_BOUND n) = true →
    s.flag (IOM_INST_STAT_RESETTING n) = false →
    let t := (instBindHook n old 0).run s
    t.flag (IOM_INST_STAT_RESETTING n) = true ∧ t.b.iom.removing.contains n.val = true) ∧
  (∀ (n : Fin 256) (s : State), s.flag (IOM_INST_STAT_RESETTING n) = true → s.instQuiet n = true → s.b.iom.removing.contains n.val = true →
    ∃ t, Completes (.instResetDone n) s t ∧ t.instKind n = 0 ∧ t.okind n = 0 ∧ t.flag (IOM_INST_STAT_BOUND n) = false ∧
      t.b.iom.vecs = s.b.iom.vecs) ∧
  (∀ (n : Fin 256) (s : State), s.flag (IOM_INST_STAT_RESETTING n) = true → s.instQuiet n = true → s.b.iom.removing.contains n.val = false →
    ∃ t, Completes (.instResetDone n) s t ∧ t.instKind n = s.instKind n ∧ t.b.iom.vecs = s.b.iom.vecs ++ [(n.val, 3)])
/-- R80: 64-bit counters that a read clears -/
def Obligations.ClearedCounters : Prop :=
  (∀ (pid : Pid) (p : Fin 25) (s : State), s.pwr ≤ 1 → s.checkAt (pid, true) (ETP_CNT_TX_OCTETS p) 4 0 = 0 →
    s.unarmed 7 = true → s.flag (BLK_CTRL_ISOLATE 7) = false →
    ∃ t, Completes (.clearOnRead pid (Fin.ofNat _ (ETP_CNT_TX_OCTETS p))) s t ∧
      t.b.fab.resp = okResp (leBytes 4 (s.reg (ETP_CNT_TX_OCTETS p))) ∧ t.reg (ETP_CNT_TX_OCTETS p) = 0 ∧
      t.reg (ETP_CNT_TX_OCTETS p + 4) = mapGet 0 s.b.fab.high (ETP_CNT_TX_OCTETS p) % 2 ^ 32 ∧
      mapGet 0 t.b.fab.high (ETP_CNT_TX_OCTETS p) = 0 ∧
      Untouched (fun a => a == ETP_CNT_TX_OCTETS p || a == ETP_CNT_TX_OCTETS p + 4) s t) ∧
  (∀ (pid : Pid) (p : Fin 25) (s : State), s.pwr ≤ 1 → s.checkAt (pid, true) (ETP_CNT_TX_OCTETS p + 4) 4 0 = 0 →
    s.unarmed 7 = true → s.flag (BLK_CTRL_ISOLATE 7) = false →
    ∃ t, Completes (.clearOnRead pid (Fin.ofNat _ (ETP_CNT_TX_OCTETS p + 4))) s t ∧
      t.b.fab.resp = okResp (leBytes 4 (s.reg (ETP_CNT_TX_OCTETS p + 4))) ∧ Untouched (fun _ => false) s t) ∧
  (∀ p : Fin 25, State.reset.reg (ETP_CNT_TX_OCTETS p + 4) = 0) ∧
  (∀ (p : Fin 25) (n : Nat) (s : State), let t := (count64 (ETP_CNT_TX_OCTETS p) n).run s
    t.reg (ETP_CNT_TX_OCTETS p) + 2 ^ 32 * mapGet 0 t.b.fab.high (ETP_CNT_TX_OCTETS p) =
      (s.reg (ETP_CNT_TX_OCTETS p) + 2 ^ 32 * mapGet 0 s.b.fab.high (ETP_CNT_TX_OCTETS p) + n) % 2 ^ 64) ∧
  (∀ (a n : Nat) (s : State), (whole a).fits = true → ((count a n).run s).reg a = min (2 ^ 32 - 1) (s.reg a + n))
/-- The phases of a load's mode: PWM periods and on-phases, motor steps, and the ends of the motor, valve and inrush windows -/
def Obligations.LoadPhaseEvents : Prop :=
  (∀ (g : Fin 64) (t : Nat) (s : State), let l := s.lead g; let c := s.chan l
    s.unarmed (16 + g.val / 16) = true → c.out = .on → s.inPwm l = true → s.aligned l t = true →
    (c.wait || decide (c.start + c.period ≤ t)) = true →
    ∃ t', Completes (.pwmPeriodStart g t) s t' ∧ (t'.chan l).start = t ∧ (t'.chan l).period = s.pwmPeriod l ∧
      (t'.chan l).onNs = onTime l (s.pwmPeriod l) (s.nextDuty l) ∧ (t'.chan l).phase = (onTime l (s.pwmPeriod l) (s.nextDuty l) != 0) ∧
      (t'.chan l).wait = false ∧ t'.get (LSW_CH_STATUS3_EFF_DUTY l) = s.nextDuty l % 4096 ∧ Untouched (onPage (lswUnit g)) s t') ∧
  (∀ (g : Fin 64) (t uj : Nat) (s : State), let l := s.lead g; let c := s.chan l
    s.unarmed (16 + g.val / 16) = true → c.out = .on → s.inPwm l = true → c.phase = true → c.wait = false → c.start + c.onNs ≤ t →
    (c.onNs != c.period || !s.aligned l t) = true → s.olonPaused l = true →
    let ends := seqs [updChan l fun c => { c with phase := false },
      forEach (s.members l) fun x => set (LSW_CH_STATUS0_LIMIT x) 0, clampEnergy l uj true, showLoad l]
    (s.vBat l < 4000 → s.overBudget l (s.ePred l (s.loadUA l)) = true → Does (.pwmOnPhaseEnd g t uj) (trip l 5) (tripFoot g) s) ∧
    (s.vBat l < 4000 → s.overBudget l (s.ePred l (s.loadUA l)) = false → Does (.pwmOnPhaseEnd g t uj) ends (onPage (lswUnit g)) s) ∧
    (4000 ≤ s.vBat l → Does (.pwmOnPhaseEnd g t uj) (free fun v => if s.overBudget l (v, 1) then trip l 5 else ends) (tripFoot g) s)) ∧
  (∀ (g : Fin 64) (s : State), let l := s.lead g; let c := s.chan l; let r := bits c.motor 15 0; let goal := cmdDuty c.applied
    s.unarmed (16 + g.val / 16) = true → c.out = .on → s.mode l = 4 → c.down = false → r ≠ 0 →
    Does (.motorRampStep g) (.seq
      (updChan l fun x => { x with effNext := if c.effNext ≤ goal then min goal (c.effNext + r) else max goal (c.effNext - r) }) (showLoad l))
      (onPage (lswUnit g)) s) ∧
  (∀ (g : Fin 64) (s : State), let l := s.lead g; let c := s.chan l
    s.unarmed (16 + g.val / 16) = true → c.out = .on → s.mode l = 4 → c.down = true → 0 < c.effNext → c.effNext ≤ bits c.motor 15 0 →
    Does (.motorRampStep g) (seqs [updChan l fun c => { c with effNext := 0 }, turnOff l .meter, showLoad l]) (onPage (lswUnit g)) s) ∧
  (∀ (g : Fin 64) (s : State), let l := s.lead g
    (s.chan l).win = true → s.flag (LSW_PR_DIE_STAT_UV (g.val / 16)) = false →
    ∃ t', Completes (.motorStartWindowEnd g) s t' ∧ (t'.chan l).win = false ∧ (t'.chan l).limUs = 0 ∧ Untouched (onPage (lswUnit g)) s t') ∧
  (∀ (g : Fin 64) (s : State), let l := s.lead g
    (s.chan l).inrush = true → s.flag (LSW_PR_DIE_STAT_UV (g.val / 16)) = false →
    ∃ t', Completes (.inrushWindowEnd g) s t' ∧ (t'.chan l).inrush = false ∧ (t'.chan l).limUs = 0 ∧ Untouched (onPage (lswUnit g)) s t') ∧
  (∀ (g : Fin 64) (s : State), let l := s.lead g
    (s.chan l).out = .on → s.mode l = 6 → (s.chan l).peak = true →
    ∃ t', Completes (.valvePeakEnd g) s t' ∧ (t'.chan l).peak = false ∧ (t'.chan l).wait = true ∧
      (t'.chan l).effNext = min 4095 (s.holdDuty l) ∧ Untouched (onPage (lswUnit g)) s t') ∧
  (∀ (g : Fin 64) (s : State), let l := s.lead g
    (s.chan l).out = .on → (s.mode l = 3 ∨ s.mode l = 5) →
    ∃ t', Completes (.lampCompUpdate g) s t' ∧ (t'.chan l).effNext = min 4095 (s.lampDuty l (cmdDuty (s.chan l).applied)) ∧
      t'.flag (LSW_CH_STATUS0_COMP_SAT l) = decide (4095 < s.lampDuty l (cmdDuty (s.chan l).applied)) ∧ Untouched (onPage (lswUnit g)) s t')
/-- Samples, published values, bound signals and the wire model of a load channel -/
def Obligations.LoadSampleEvents : Prop :=
  (∀ (g : Fin 64) (x : LoadSample) (s : State), s.unarmed (16 + g.val / 16) = true → (s.die (g.val / 16)).on = true →
    ∃ t, Completes (.currentSample g x) s t ∧ t.get (LSW_CH_MEAS_RAW_SAMPLE g) = x.code.val ∧
      t.flag (LSW_CH_MEAS_RAW_VALID g) = s.flag (CELL_STAT_ENABLED (lswUnit g) (g.val % 16)) ∧
      (t.chan g).num = (s.chan g).num + 1 ∧ (t.chan g).sum = (s.chan g).sum + x.code.val ∧
      Untouched (fun a => lswPages a || faultRegs a || a == 0x50000010) s t) ∧
  (∀ (g : Fin 64) (x : LoadSample) (s : State), s.unarmed (16 + g.val / 16) = true → (s.die (g.val / 16)).on = false →
    Does (.currentSample g x) .skip (fun _ => false) s) ∧
  (∀ (g : Fin 64) (x : LoadSample) (s : State), s.unarmed (16 + g.val / 16) = true → (s.die (g.val / 16)).on = true →
    ((s.chan (s.lead g)).out = .on → (s.chan (s.lead g)).phase = false) → x.slow = none → (s.chan (s.lead g)).win = false → (s.chan (s.lead g)).inrush = false →
    ∃ t, Completes (.currentSample g x) s t ∧ t.get (LSW_CH_MEAS_RAW_SAMPLE g) = x.code.val ∧ t.flag (LSW_CH_MEAS_RAW_VALID g) = s.flag (CELL_STAT_ENABLED (lswUnit g) (g.val % 16)) ∧
      (t.chan g).num = (s.chan g).num + 1 ∧ (t.chan g).sum = (s.chan g).sum + x.code.val ∧ t.flag (LSW_CH_STATUS0_LIMIT g) = false ∧
      (t.chan g).tripped = (s.chan g).tripped ∧ Untouched (onPage (lswUnit g)) s t) ∧
  (∀ (g : Fin 64) (s : State), let base := s.get (LSW_CH_PUBLISH_GSID_BASE g); let addr := s.devNum * 2 ^ 25 + base
    s.unarmed (16 + g.val / 16) = true → base ≤ 0x1FFFFFD →
    Completes (.channelPublish g) s ((seqs [
      whenU (s.flag (LSW_CH_PUBLISH_EN_I g)) (sigInternal addr (2 * s.get (LSW_CH_STATUS1_I_AVG g))),
      whenU (s.flag (LSW_CH_PUBLISH_EN_V g)) (.read fun s => sigInternal (addr + 1) (10 * s.get (LSW_CH_STATUS1_V_OUT g))),
      whenU (s.flag (LSW_CH_PUBLISH_EN_T g)) (.read fun s => sigInternal (addr + 2) ((s.tj g + 2 ^ 32 - 64) % 2 ^ 32))]).run s)) ∧
  (∀ (g : Fin 64) (s : State), s.unarmed (16 + g.val / 16) = true → 0x1FFFFFD < s.get (LSW_CH_PUBLISH_GSID_BASE g) →
    Does (.channelPublish g) .skip (fun _ => false) s) ∧
  (∀ (g : Fin 64) (s : State) (u : Nat × Nat × Nat × Nat), s.b.lsw.bound.find? (·.1 = g.val) = some u →
    let ignored := s.moduleSafe || s.lswRetired g || !s.loadEnabled g || s.lead g != g || !s.flag (LSW_CH_BIND_EN g)
      || u.2.2.2 != s.reg (LSW_CH_BIND g) % 2 ^ 31
    let taken := upd fun b => { b with lsw := { b.lsw with bound := b.lsw.bound.erase u } }
    if ignored then Does (.boundSignalUpdate g) taken (fun _ => false) s
    else if s.flag (LSW_CH_SAFETY_SAFETY g) ∧ u.2.2.1 ≠ 1 then Does (.boundSignalUpdate g) (.seq taken (raiseCh g 4)) (onPage (lswUnit g)) s
    else Does (.boundSignalUpdate g) (seqs [taken, updChan g fun c => { c with bindTo := false }, set (LSW_CH_STATUS0_BIND_STALE g) 0,
      command g (boundWord (s.get (LSW_CH_BIND_MAP_FORMAT g)) (u.2.1 % 2 ^ 32)) 2 false])
      lswPages s) ∧
  (∀ (g : Fin 64) (s : State), s.flag (LSW_CH_BIND_EN g) = true → s.flag (LSW_CH_BIND_MAP_TO_MS g) = true → s.lead g = g →
    let mark := Upd.seq (set (LSW_CH_STATUS0_BIND_STALE g) 1) (raiseCh g 3)
    match s.get (LSW_CH_BIND_MAP_TO_ACT g) with
    | 0 => Does (.bindTimeout g) mark (onPage (lswUnit g)) s
    | 2 => Does (.bindTimeout g) (seqs [mark, updChan g fun c => { c with bindTo := true },
        whenU (s.loadEnabled g && !s.lswRetired g) (enterSafe g)]) (onPage (lswUnit g)) s
    | _ => Does (.bindTimeout g) (.seq mark (command g (s.get (LSW_CH_CMD_DUTY g)) 2 false))
        lswPages s) ∧
  (∀ (g : Fin 64) (s : State), (s.chan (s.lead g)).out ≠ .on →
    ∃ t r, Completes (.wireModelStep g) s t ∧ r < 2 ∧ (t.chan g).num = 0 ∧ (t.chan g).sum = 0 ∧ (t.chan g).sq = 0 ∧
      (t.chan g).t = (wireStep (fullUA g) (s.wire g) (s.ambient g * 2 ^ 32) (s.chan g).t (s.chan g).sq (max 1 (s.chan g).num)).toNat + r ∧
      t.get (LSW_CH_STATUS2_T_WIRE g) = min 255 ((t.chan g).t / 2 ^ 32) ∧ Untouched (onPage (lswUnit g)) s t)
/-- Protection of loads: trips, thermal shutdown and latches, clamp and soft-ramp limits, retries and waits -/
def Obligations.LoadProtectionEvents : Prop :=
  (∀ (g : Fin 64) (s : State), let l := s.lead g
    s.limitAllow l ≤ (s.chan g).limUs → (s.chan l).out = .on → Does (.limitTimeTrip g) (trip g 2) (tripFoot g) s) ∧
  (∀ (g : Fin 64) (s : State), let l := s.lead g
    (s.chan l).out = .on → repMJ l * s.scale l * 1000 < (s.chan l).eRep → Does (.repetitiveClampTrip g) (trip g 5) (tripFoot g) s) ∧
  (∀ (g : Fin 64) (s : State), let l := s.lead g
    match (s.chan l).out with
    | .off => Does (.thermalShutdown g) .skip (fun _ => false) s
    | .on => Does (.thermalShutdown g) (.seq (set (LSW_PR_STAT_LATCH_TJ g) 1) (trip g 3)) (tripFoot g) s
    | _ => Does (.thermalShutdown g) (seqs [set (LSW_PR_STAT_LATCH_TJ g) 1, raiseCh g 10, turnOff l .clamp (s.chan l).tripOff, showLoad l])
        (onPage (lswUnit g)) s) ∧
  (∀ (g : Fin 64) (wire : Bool) (s : State),
    Does (.thermalLatchClear g wire) (seqs [
      if wire then (if (s.chan g).t ≤ s.tRel g * 2 ^ 32 then set (LSW_PR_STAT_LATCH_WIRE g) 0 else .skip)
      else (if s.tj g ≤ 214 then set (LSW_PR_STAT_LATCH_TJ g) 0 else .skip),
      showCh g, gateTry (s.lead g)]) lswPages s) ∧
  (∀ (g : Fin 64) (s : State), let l := s.lead g; let c := s.chan l
    c.out = .clamp → c.fixed = false → Does (.clampBudgetExceeded g)
      (seqs [updChan l fun c => { c with eRep := c.eRep + c.budUJ }, beginRamp l true, showLoad l]) (onPage (lswUnit g)) s) ∧
  (∀ (g : Fin 64) (s : State), let l := s.lead g; let c := s.chan l
    c.out = .clamp → c.fixed = true → c.tripOff = true → s.loadRetired l = false →
    Does (.clampBudgetExceeded g) (forEach ((s.members l).filter fun x => (s.chan x).detected) fun x =>
      seqs [raiseCh x 12, retract (lswUnit x) (x % 16), report (lswUnit x) (some (x % 16)) PM]) (tripFoot g) s) ∧
  (∀ (g : Fin 64) (s : State), let l := s.lead g; let c := s.chan l
    (c.out ≠ .clamp ∨ (c.fixed = true ∧ (c.tripOff = false ∨ s.loadRetired l = true))) → Does (.clampBudgetExceeded g) .skip (fun _ => false) s) ∧
  (∀ (g : Fin 64) (s : State), (s.chan (s.lead g)).out = .ramp →
    ∃ t, Completes (.softRampHot g) s t ∧ (t.chan (s.lead g)).steep = true ∧ Untouched (fun _ => false) s t) ∧
  (∀ (g : Fin 64) (s : State), let l := s.lead g; let c := s.chan l
    c.retryWait = true → c.out = .off → s.gateOpen l = true → Does (.retryDelayExpiry g) (restart l) (onPage (lswUnit g)) s) ∧
  (∀ (g : Fin 64) (s : State), let l := s.lead g; let c := s.chan l
    c.retryWait = true → c.out = .off → s.gateOpen l = false →
    ∃ t, Completes (.retryDelayExpiry g) s t ∧ (t.chan l).coolWait = true ∧ (t.chan l).retryWait = false ∧
      (t.chan l).coolMs = max 1 (s.get (LSW_PR_THERM_COOL_MAX l)) * 100 ∧ Untouched (onPage (lswUnit g)) s t) ∧
  (∀ (g : Fin 64) (s : State), let l := s.lead g
    (s.chan l).restarted = true → (s.chan l).out = .on →
    ∃ t, Completes (.retryBudgetRefill g) s t ∧ t.get (LSW_CH_STATUS3_RETRY_LEFT l) = s.get (LSW_PR_RETRY_RETRY_MAX l) % 16 ∧
      (t.chan l).restarted = false ∧ Untouched (onPage (lswUnit g)) s t) ∧
  (∀ (g : Fin 64) (s : State), let l := s.lead g
    (s.chan l).coolWait = true →
    Does (.coolWaitExpiry g) (seqs [updChan l fun c => { c with coolWait := false, coolMs := 0 }, raiseCh l 12,
      report (lswUnit l) (some (l % 16)) PM, showLoad l]) (tripFoot g) s)
/-- The budget governor, the temperature and undervoltage of a load-switch die, and the end of a turn-off -/
def Obligations.LoadGovernorAndDie : Prop :=
  (∀ s : State, (s.computeOff = false ∨ s.flag PSM_STAT_P_SERVICE = true) → ∃ u,
    (∀ g < 64, (u.chan g).slots = ((s.chan g).slot :: (s.chan g).slots).take 10 ∧ (u.chan g).slot = (0, 0)) ∧
    (∀ l ∈ s.loads, (u.chan l).acc = u.accounted l) ∧
    u.govSum 0 = (s.loads.filter (studOf · == 0)).foldl (fun a l => a + (u.chan l).acc) 0 ∧
    u.govSum 1 = (s.loads.filter (studOf · == 1)).foldl (fun a l => a + (u.chan l).acc) 0 ∧
    u.govSum 2 = s.loads.foldl (fun a l => a + (u.chan l).acc) 0 ∧ Untouched lswPages s u ∧
    Completes .governorEval s (showSums.run ((match u.restoreCandidate with | some l => restore l | none => .skip).run u))) ∧
  (∀ s : State, s.computeOff = true → s.flag PSM_STAT_P_SERVICE = false → Does .governorEval .skip (fun _ => false) s) ∧
  (∀ (b : Fin 3) (s : State) (l : Nat) (ls : List Nat), s.budget b < s.govSum b →
    s.shedOrder (fun l => b.val == 2 || studOf l == b.val) = l :: ls →
    Does (.governorOverrunShed b) (shedLoad l .budget .meter) lswPages s) ∧
  (∀ (b : Fin 3) (s : State), s.govSum b ≤ s.budget b → Does (.governorOverrunShed b) .skip (fun _ => false) s) ∧
  (∀ (d : Fin 4) (t : Fin 256) (s : State), ∃ t', Completes (.dieTempChange d t) s t' ∧ t'.get (LSW_DIE_STAT_T_DIE d) = t.val ∧
    t'.flag (LSW_PR_DIE_STAT_HOT d) = (decide (s.dieWarn d ≤ t) || (s.flag (LSW_PR_DIE_STAT_HOT d) && decide (s.dieWarn d ≤ t.val + 10))) ∧
    t'.flag (LSW_PR_DIE_STAT_SHEDDING d) = (decide (s.dieShed d ≤ t) || (s.flag (LSW_PR_DIE_STAT_SHEDDING d) && decide (s.dieShed d ≤ t.val + 10))) ∧
    Untouched (fun a => lswPages a || faultRegs a || a == 0x50000010) s t') ∧
  (∀ (d : Fin 4) (t : Fin 256) (s : State), t.val < s.dieWarn d → s.flag (LSW_PR_DIE_STAT_HOT d) = false → t.val < s.dieShed d →
    s.flag (LSW_PR_DIE_STAT_SHEDDING d) = false →
    Does (.dieTempChange d t) (seqs [set (LSW_DIE_STAT_T_DIE d) t, set (LSW_PR_DIE_STAT_HOT d) 0, set (LSW_PR_DIE_STAT_SHEDDING d) 0,
      dieGateTry d]) lswPages s) ∧
  (∀ (d : Fin 4) (t : Fin 256) (s : State), s.dieWarn d ≤ t.val → t.val < s.dieShed d → s.flag (LSW_PR_DIE_STAT_SHEDDING d) = false →
    (∀ l ∈ s.loads, l / 16 = d.val → (s.chan l).out ≠ .on) → s.flag (LSW_PR_DIE_STAT_HOT d) = false →
    Does (.dieTempChange d t) (seqs [set (LSW_DIE_STAT_T_DIE d) t, set (LSW_PR_DIE_STAT_HOT d) 1, set (LSW_PR_DIE_STAT_SHEDDING d) 0,
      raise (16 + d.val) 13, inc (LSW_PR_EVT_CNT_HOT_ENTRIES d), dieGateTry d]) lswPages s) ∧
  (∀ (d : Fin 4) (s : State) (l : Nat) (ls : List Nat), s.flag (LSW_PR_DIE_STAT_SHEDDING d) = true →
    s.shedOrder (fun l => l / 16 == d.val) = l :: ls → Does (.dieShedStep d) (shedLoad l .heat .meter) lswPages s) ∧
  (∀ (d : Fin 4) (s : State), s.flag (LSW_PR_DIE_STAT_UV d) = false →
    Does (.dieUvSet d) (seqs [set (LSW_PR_DIE_STAT_UV d) 1, raise (16 + d.val) 15, inc (LSW_PR_EVT_CNT_UV_ENTRIES d),
      forN 16 fun c => .seq (testAbandon (16 * d.val + c)) (showCh (16 * d.val + c))]) (onPage (16 + d.val)) s) ∧
  (∀ (d : Fin 4) (s : State),
    ∃ t, Completes (.dieUvClear d) s t ∧ t.flag (LSW_PR_DIE_STAT_UV d) = false ∧ Untouched (onPage (16 + d.val)) s t) ∧
  (∀ (g : Fin 64) (uj v n : Nat) (s : State), let l := s.lead g; let c := s.chan l
    s.unarmed (16 + g.val / 16) = true → (c.out = .clamp ∨ c.out = .ramp) → c.after = false →
    ∃ t, Completes (.turnOffComplete g uj v n) s t ∧ (t.chan l).out = .off ∧ Untouched lswPages s t) ∧
  (∀ (g : Fin 64) (uj v n : Nat) (s : State), let c := s.chan (s.lead g)
    s.unarmed (16 + g.val / 16) = true → c.out ≠ .clamp → c.out ≠ .ramp → Does (.turnOffComplete g uj v n) .skip (fun _ => false) s) ∧
  (∀ (g : Fin 64) (uj v n : Nat) (s : State), let l := s.lead g; let c := s.chan l
    s.unarmed (16 + g.val / 16) = true → c.out = .ramp → c.tripped = true → c.after = false →
    (∀ x ∈ s.members l, s.flag (CELL_STAT_DRAINING (lswUnit x) (x % 16)) = false) →
    Does (.turnOffComplete g uj v n) (seqs [
      updChan l fun c => { c with out := .off, after := false, tripOff := false, fixed := false, steep := false },
      clampEnergy l uj false, showLoad l]) (onPage (lswUnit g)) s)
/-- Diagnostics of loads: off-state tests, the on-state detection, and a die whose firmware stops -/
def Obligations.LoadDiagnosticEvents : Prop :=
  (∀ (g : Fin 64) (t : Nat) (s : State), let l := s.lead g; let d := g.val / 16
    s.unarmed (16 + g.val / 16) = true → s.flag (LSW_DG_OFF_CFG_EN l) = true → s.flag (LSW_DG_STAT_FW_RUN d) = true → s.testable l t = true →
    (s.chan l).test = false →
    if s.vBat l < s.sbTh l + 100 ∨ s.flag (LSW_PR_DIE_STAT_UV d) = true
    then Does (.offstateTestStart g t) (seqs [set (LSW_DG_RESULT_LAST l) 4, set (LSW_CH_STATUS0_DG_LAST l) 4, inc (LSW_DG_CNT_SKIPPED d)])
      (onPage (lswUnit g)) s
    else Does (.offstateTestStart g t) (seqs [updChan l fun c => { c with test := true }, setBit (LSW_DG_STAT d) (l % 16), showLoad l])
      (onPage (lswUnit g)) s) ∧
  (∀ (g : Fin 64) (v : Fin 4096) (s : State), let l := s.lead g; let c := s.chan l
    let r := if v.val < s.olTh l then 1 else if v.val < s.sbTh l then 2 else 3
    c.test = true →
    ∃ t, Completes (.offstateTestDone g v) s t ∧ t.get (LSW_DG_RESULT_LAST l) = r ∧ t.get (LSW_DG_RESULT_V_TEST l) = v.val ∧
      t.get (LSW_DG_RESULT_AGE_MS l) = 0 ∧ (t.chan l).test = false ∧ (t.chan l).runOl = (if r = 2 then c.runOl + 1 else 0) ∧
      (t.chan l).runSb = (if r = 3 then c.runSb + 1 else 0) ∧ Untouched (onPage (lswUnit g)) s t) ∧
  (∀ (g : Fin 64) (s : State), let l := s.lead g
    (s.chan l).olonRun = true → s.flag (LSW_DG_OLON_CFG_OLON_EN l) = true → s.chState l = 1 → s.flag (LSW_DG_OLON_STAT_OLON l) = false →
    Does (.olonDetect g) (seqs [set (LSW_DG_OLON_STAT_OLON l) 1, set (LSW_CH_STATUS0_OL_ON l) 1, inc (LSW_DG_OLON_STAT_OLON_CNT l),
      inc (LSW_DG_EVT_CNT_OLON l), raiseCh l 18]) (onPage (lswUnit g)) s) ∧
  (∀ (d : Fin 4) (s : State),
    ∃ t, Completes (.dgFwStop d) s t ∧ t.flag (LSW_DG_STAT_FW_RUN d) = false ∧ t.get (LSW_DG_STAT_FW_VER d) = 0 ∧
      t.bitAt (BLK_IRQ_STAT (16 + d.val)) 21 = true ∧ Untouched (onPage (16 + d.val)) s t)
/-- The end of a drain, an injected fault, the decay of LEVEL, heartbeats and watchdogs -/
def Obligations.UnitAndCellEvents : Prop :=
  (∀ (k : Fin 23) (c : Fin 512) (s : State), s.flag (CELL_STAT_DRAINING k c) = true → s.cellBusy k c = false →
    Completes (.drainComplete k (some c)) s ((Upd.seq (cellFin k c) (cellBack k c)).run s)) ∧
  (∀ (k : Fin 23) (s : State), k.val ≠ 8 → s.flag (BLK_STAT_DRAINING k) = true → s.blockBusy k = false →
    s.flag (BLK_CTRL_EN k) = false → s.flag (BLK_CTRL_SOFT_RST k) = false →
    ∃ t, Completes (.drainComplete k none) s t ∧ t.flag (BLK_STAT_DRAINING k) = false ∧ Untouched (· == BLK_STAT k) s t) ∧
  (∀ (k : Fin 23) (s : State), k.val ≠ 8 → s.flag (BLK_STAT_DRAINING k) = true → s.blockBusy k = false →
    Completes (.drainComplete k none) s ((blockFinish k).run s)) ∧
  (∀ s : State, s.flag (BLK_STAT_DRAINING 8) = true → (s.b.swq.tx.any fun e => e.2.isSome) = false →
    Completes (.drainComplete 8 none) s ((Upd.seq swcDrainEnd (blockFinish 8)).run s)) ∧
  (∀ (k : Fin 28) (s : State), s.flag (BLK_ERR_INJ_ARM k) = true → s.injTarget k = true →
    Completes (.errInjTimeout k) s ((seqs [set (BLK_ERR_INJ_ARM k) 0, updFab fun f => { f with injecting := true },
      report k (if s.get (BLK_ERR_INJ_CELL k) = 0xFFF then none else some (s.get (BLK_ERR_INJ_CELL k))) (s.get (BLK_ERR_INJ_CLASS k)),
      updFab fun f => { f with injecting := false }]).run s)) ∧
  (∀ (k : Fin 23) (s : State), 1 < s.pwr → k.val ≠ 22 → Does (.levelDecayTick k) .skip (fun _ => false) s) ∧
  (∀ (k : Fin 28) (s : State), s.flag (BLK_ERR_INJ_ARM k) = true → s.get (BLK_ERR_INJ_CELL k) = 0xFFF →
    ∃ t, Completes (.errInjTimeout k) s t ∧ t.flag (BLK_ERR_INJ_ARM k) = false ∧
      t.bitAt (BLK_ERR_STAT k) (s.get (BLK_ERR_INJ_CLASS k)) = true ∧ Untouched (faultFoot k) s t) ∧
  (∀ (k : Fin 28) (s : State), s.flag (BLK_ERR_INJ_ARM k) = true → s.injTarget k = false →
    Does (.errInjTimeout k) (set (BLK_ERR_INJ_ARM k) 0) (onPage k) s) ∧
  (∀ (k : Fin 23) (s : State), s.pwr ≤ 1 ∨ k.val = 22 →
    ∃ t, Completes (.levelDecayTick k) s t ∧ Untouched (onPage k) s t ∧
      ∀ c, c < (unitCells k).1 → t.get (CELL_FAULT_CNT_LEVEL k c) = s.get (CELL_FAULT_CNT_LEVEL k c) - 1) ∧
  (∀ (d : Fin 4) (s : State), (s.die d).on = true →
    ∃ t, Completes (.heartbeatMiss d) s t ∧ (t.die d).hbLost = true ∧ t.flag (LSW_DIE_STAT_HB_LOST d) = true ∧
      Untouched (onPage (16 + d.val)) s t) ∧
  (∀ (d : Fin 4) (s : State), (s.die d).hbLost = true →
    ∃ t, Completes (.heartbeatResume d) s t ∧ (t.die d).hbLost = false ∧ t.flag (LSW_DIE_STAT_HB_LOST d) = false ∧
      t.bitAt (BLK_ERR_STAT (16 + d.val)) 3 = true ∧ Untouched (faultFoot (16 + d.val)) s t) ∧
  (∀ (i : Fin 4) (s : State), s.flag (MSU_WDOG_STAT_RUNNING i) = true →
    ∃ t, Completes (.wdogExpiry i) s t ∧ t.get (MSU_WDOG_STAT_EXPIRED i) = min 255 (s.get (MSU_WDOG_STAT_EXPIRED i) + 1) ∧
      t.get (MSU_WDOG_STAT_NEXT_KEY i) = 0x5A ∧ mapGet 0 t.b.fab.wdog i = s.now ∧
      Untouched (fun a => faultRegs a || a == MSU_WDOG_STAT i) s t)
/-- Hart identifiers, cluster clocks, page retirement, the patrol scrub and re-keys -/
def Obligations.CanopyAndMemoryEvents : Prop :=
  (∀ (h : Fin 12) (m : Fin 5) (v : Option (BitVec 64)) (s : State), s.ctxIdle (4 * h) = true →
    Does (.hvpidWrite h m v) .skip (fun _ => false) s) ∧
  (∀ (h : Fin 12) (m : Fin 5) (s : State), s.ctxIdle (4 * h) = false → m.val ≤ 1 →
    Does (.hvpidWrite h m none) (updFab fun f => { f with resp := { data := [s.get (CNP_HART_PID_PID h)] } }) (fun _ => false) s) ∧
  (∀ (h : Fin 12) (m : Fin 5) (v : BitVec 64) (s : State), s.ctxIdle (4 * h) = false → m.val ≤ 1 →
    let p := v.toNat % 64; let i := 4 * h.val + 3
    ∃ t, Completes (.hvpidWrite h m (some v)) s t ∧ t.get (CNP_HART_PID_PID h) = p ∧
      t.flag (CNP_HART_PID_VALID h) = (decide (s.get (MSU_PID_CTX_PID_LO i) ≤ p) && decide (p ≤ s.get (MSU_PID_CTX_PID_HI i))) ∧
      t.b.fab.resp.ok = true ∧ Untouched (· == CNP_HART_PID h) s t) ∧
  (∀ (h : Fin 12) (m : Fin 5) (v : Option (BitVec 64)) (s : State), s.ctxIdle (4 * h) = false → 2 ≤ m.val →
    Does (.hvpidWrite h m v) (updFab fun f => { f with resp := { ok := false, cause := if m.val = 3 then 122 else 102 } }) (fun _ => false) s) ∧
  (∀ (h : Fin 12) (s : State), Does (.specBar h) .skip (fun _ => false) s) ∧
  (∀ (h : Fin 12) (a : BitVec 64) (s : State), Does (.cboFlush h a) .skip (fun _ => false) s) ∧
  (∀ (k : Fin 3) (s : State), s.flag (CNP_CLU_CLK_BUSY k) = true →
    ∃ t, Completes (.clockChangeDone k) s t ∧ t.flag (CNP_CLU_CLK_BUSY k) = false ∧ t.bitAt (BLK_IRQ_STAT 0) 0 = true ∧
      Untouched (onPage 0) s t) ∧
  (∀ (s : State) (p : Nat) (ps : List Nat), s.b.mem.retiring = p :: ps → p < 2 ^ 28 → s.get MEM_RETIRE_STAT_SPARE_USED < 256 →
    let i := s.get MEM_RETIRE_STAT_SPARE_USED
    ∃ t, Completes .pageRetireDone s t ∧ t.flag (MEM_SPARE_MAP_VALID i) = true ∧ t.get (MEM_SPARE_MAP_PAGE i) = p ∧
      t.get MEM_RETIRE_STAT_SPARE_USED = i + 1 ∧ t.get MEM_RETIRE_STAT_SPARE_LEFT = 255 - i ∧ t.b.mem.retiring = ps ∧
      t.bitAt (BLK_IRQ_STAT 4) 2 = true ∧ Untouched (onPage 4) s t) ∧
  (∀ (s : State), s.unarmed 4 = true → s.flag MEM_ECC_CFG_SCRUB_EN = true → s.flag (BLK_CTRL_EN 4) = true → s.pwr ≤ 1 →
    s.b.mem.poison.contains (s.spareLine (0x1000000000 / 64 + s.b.mem.scrub)) = false →
    if s.b.mem.scrub + 1 < scrubLines then
      ∃ t, Completes (.scrubStep 0) s t ∧ t.b.mem.scrub = s.b.mem.scrub + 1 ∧ t.flag MEM_SCRUB_STAT_RUNNING = true ∧
        Untouched (onPage 4) s t
    else ∃ t, Completes (.scrubStep 0) s t ∧ t.b.mem.scrub = 0 ∧ t.flag MEM_SCRUB_STAT_RUNNING = false ∧
        t.bitAt (BLK_IRQ_STAT 4) 4 = true ∧ Untouched (onPage 4) s t) ∧
  (∀ (s : State), s.unarmed 4 = true → s.flag MEM_ECC_CFG_SCRUB_EN = true → s.flag (BLK_CTRL_EN 4) = true → s.pwr ≤ 1 →
    s.b.mem.scrub + 1 < scrubLines → s.b.mem.poison.contains (s.spareLine (0x1000000000 / 64 + s.b.mem.scrub)) = false →
    ∃ t, Completes (.scrubStep 1) s t ∧ t.b.mem.scrub = s.b.mem.scrub + 1 ∧
      t.reg MEM_CE_CNT = min (2 ^ 32 - 1) (s.reg MEM_CE_CNT + 1) ∧ t.bitAt (BLK_IRQ_STAT 4) 0 = true ∧
      t.bitAt (BLK_ERR_STAT 4) CE = true ∧ Untouched (fun a => onPage 4 a || faultRegs a) s t) ∧
  (∀ (s : State), s.unarmed 4 = true → s.flag MEM_ECC_CFG_SCRUB_EN = true → s.flag (BLK_CTRL_EN 4) = true → s.pwr ≤ 1 →
    let line := s.spareLine (0x1000000000 / 64 + s.b.mem.scrub)
    s.b.mem.poison.contains line = false →
    ∃ t, Completes (.scrubStep 2) s t ∧ t.b.mem.scrub = (if s.b.mem.scrub + 1 < scrubLines then s.b.mem.scrub + 1 else 0) ∧
      t.b.mem.poison.contains line = true ∧ t.reg MEM_UE_CNT = min (2 ^ 32 - 1) (s.reg MEM_UE_CNT + 1) ∧
      t.bitAt (BLK_ERR_STAT 4) PM = true ∧ Untouched (fun a => onPage 4 a || faultRegs a) s t) ∧
  (∀ (e : Fin 3) (s : State), s.unarmed 4 = true → (s.flag MEM_ECC_CFG_SCRUB_EN = false ∨ s.flag (BLK_CTRL_EN 4) = false ∨ 1 < s.pwr) →
    Does (.scrubStep e) .skip (fun _ => false) s) ∧
  (∀ (s : State) (p : Nat) (ps : List (Nat × Bool)), s.b.mem.rekey = (p, false) :: ps → s.copies p = false →
    ∃ t, Completes .rekeyDone s t ∧ t.b.mem.rekey = ps ∧ mapGet 0 t.b.mem.keyGen p = mapGet 0 s.b.mem.keyGen p + 1 ∧
      t.bitAt (BLK_IRQ_STAT 4) 5 = true ∧ Untouched (onPage 4) s t) ∧
  (∀ (s : State) (p : Nat) (ps : List (Nat × Bool)), s.b.mem.rekey = (p, false) :: ps → s.copies p = true →
    Does .rekeyDone .skip (fun _ => false) s) ∧
  (∀ (s : State) (p : Nat) (ps : List (Nat × Bool)), s.b.mem.rekey = (p, true) :: ps →
    ∃ t, Completes .rekeyDone s t ∧ t.b.mem.rekey = ps ∧ t.b.mem.keyGen = s.b.mem.keyGen ∧ t.bitAt (BLK_IRQ_STAT 4) 5 = true ∧
      Untouched (onPage 4) s t)
/-- Resets, their release into the boot, and the end of a power-down -/
def Obligations.ResetsBootAndPowerDown : Prop :=
  (∀ s : State, ∃ t, Completes .porAssert s t ∧ t.mem = [] ∧ t.flag MSU_FAULT_STAT_FAULT_N = true ∧ t.b.psm.por = true) ∧
  (∀ s : State, ∃ t, Completes .powerOnReset s t ∧ t.mem = [] ∧ t.flag MSU_FAULT_STAT_FAULT_N = true ∧ t.b.psm.por = false) ∧
  (∀ s : State, ∃ t, Completes .reversalEnd s t ∧ t.mem = [] ∧ t.flag MSU_FAULT_STAT_FAULT_N = true ∧ t.b.psm.por = false) ∧
  (∀ (x : BootIn) (recA recB okA okB : Bool) (s : State), s.get MSU_BOOT_STAT_PHASE = 0 → s.b.psm.brown = false → s.b.psm.por = false → s.pwr = 0 →
    ∃ t, Completes (.moduleResetRelease x recA recB okA okB) s t ∧ t.get MSU_BOOT_CFG_HOST_PORT_SEL = x.host.toNat ∧
      t.bitAt CNP_HART_STAT CNP_HART_STAT_RUNNING.lo = true ∧ t.flag NMC_ISO_STAT_ISOLATED = true ∧
      (t.get MSU_BOOT_STAT_PHASE = 2 ∨ t.get MSU_BOOT_STAT_PHASE = 4 ∨ t.get MSU_BOOT_STAT_PHASE = 5 ∨
        (t.get MSU_BOOT_STAT_PHASE = 1 ∧ t.b.vlt.lifecycle = 0)) ∧ (s.b.vlt.lifecycle = 4 → t.get MSU_BOOT_STAT_PHASE = 5)) ∧
  (∀ (x : BootIn) (recA recB okA okB : Bool) (s : State), (s.get MSU_BOOT_STAT_PHASE ≠ 0 ∨ s.b.psm.brown = true ∨ s.b.psm.por = true ∨ s.pwr ≠ 0) →
    Does (.moduleResetRelease x recA recB okA okB) .skip (fun _ => false) s) ∧
  (∀ s : State, s.get MSU_BOOT_STAT_PHASE = 2 → s.flag VLT_DBG_STAT_UNLOCKED = false →
    Does .bootTimeout (askReset 6) (fun _ => false) s) ∧
  (∀ s : State, Does .debugReset (if s.flag VLT_DBG_STAT_UNLOCKED then askReset 7 else .skip) (fun _ => false) s) ∧
  (∀ s : State, Does .testAccessReset .skip (fun _ => false) s) ∧
  (∀ (x : List (Fin 1024)) (f : Bool) (s : State), s.b.psm.trans = none → Does (.powerDownComplete x f) .skip (fun _ => false) s) ∧
  (∀ (x : List (Fin 1024)) (f : Bool) (s : State), s.b.psm.trans = some 2 → s.pdPhase = 3 → s.b.psm.late = [] →
    s.b.gld.held = [] → s.get (IW_STAT_STATE 0) ≠ 1 → s.get (IW_STAT_STATE 0) ≠ 3 →
    s.get (IW_STAT_STATE 1) ≠ 1 → s.get (IW_STAT_STATE 1) ≠ 3 →
    ∃ t, Completes (.powerDownComplete x f) s t ∧ t.get MSU_PWR_STATE_STATE = 2 ∧ t.reg GLD_WAKE_REASON = 0 ∧ t.b.psm.trans = none ∧
      t.flag MEM_DRAM_STAT_SELFREF = true ∧ t.get PSM_TRANS_STAT_PHASE = 0) ∧
  (∀ (x : List (Fin 1024)) (f : Bool) (s : State), s.b.psm.trans = some 3 → s.pdPhase = 3 → s.b.psm.late = [] → s.b.gld.held = [] →
    ∃ t, Completes (.powerDownComplete x f) s t ∧ t.get MSU_PWR_STATE_STATE = 3 ∧ t.reg GLD_WAKE_REASON = 0 ∧ t.b.psm.trans = none) ∧
  (∀ (x : List (Fin 1024)) (f : Bool) (s : State), s.b.psm.trans = some 4 → s.pdPhase = 3 → s.b.psm.late = [] → s.b.psm.latched = 0 →
    ∃ t, Completes (.powerDownComplete x f) s t ∧ t.get MSU_PWR_STATE_STATE = 4 ∧ t.b.psm.trans = none)
/-- Supply thresholds, lost connections and the gate-locks -/
def Obligations.SupplyEvents : Prop :=
  (∀ s : State, s.flag PSM_STAT_SURGE = false →
    ∃ t, Completes .surgeEnter s t ∧ t.flag PSM_STAT_SURGE = true ∧ t.bitAt (BLK_IRQ_STAT 21) 6 = true ∧
      t.get PSM_EVT_CNT_SURGE = min (2 ^ (PSM_EVT_CNT_SURGE.hi - PSM_EVT_CNT_SURGE.lo + 1) - 1) (s.get PSM_EVT_CNT_SURGE + 1) ∧
      Untouched (onPage 21) s t) ∧
  (∀ s : State, ∃ t, Completes .surgeExit s t ∧ t.flag PSM_STAT_SURGE = false ∧ Untouched (· == PSM_STAT) s t) ∧
  (∀ s : State, s.flag PSM_STAT_SURGE = true →
    Does .ovLong (seqs [forN 4 fun d => .seq (updDie d fun x => { x with ovLong := true }) (dieClampOff d), raise 21 7, report 21 none PM])
      (fun a => onPage 21 a || lswPages a || faultRegs a) s) ∧
  (∀ s : State, s.flag PSM_STAT_SURGE = false →
    Does .ovLongRelease (forN 4 fun d => .seq (updDie d fun x => { x with ovLong := false }) (dieGateTry d)) lswPages s) ∧
  (∀ s : State, s.flag PSM_STAT_LOWV = false →
    Completes .lowvEnter s ((seqs [set PSM_STAT_LOWV 1, inc PSM_EVT_CNT_LOWV, raise 21 4, forN 18 linkDown]).run s)) ∧
  (∀ s : State, s.flag PSM_STAT_LOWV = true →
    ∃ t, Completes .lowvExit s t ∧ t.flag PSM_STAT_LOWV = false ∧ t.bitAt (BLK_IRQ_STAT 21) 5 = true ∧ Untouched (onPage 21) s t) ∧
  (∀ s : State, s.b.psm.brown = false →
    Does .brownout (seqs [updPsm fun x => { x with brown := true },
      forN 4 fun d => .seq (updDie d fun x => { x with brown := true }) (dieClampOff d),
      whenU (decide (s.pwr ≤ 1)) (.seq (inc PSM_EVT_CNT_BROWNOUT) (askReset 1))]) (fun a => onPage 21 a || lswPages a) s) ∧
  (∀ s : State, s.b.psm.brown = true →
    ∃ t, Completes .brownoutRecovery s t ∧ t.b.psm.brown = false ∧ (∀ d : Fin 4, (t.die d).brown = false) ∧
      Untouched (fun _ => false) s t) ∧
  (∀ s : State, s.gladeRules = true →
    ∃ t, Completes .retentionLoss s t ∧ t.b.psm.retLost = true ∧ (∀ a, isDram a = true → t.byte a = memDefault a) ∧
      ∀ d : Fin 4, (t.die d).on = false) ∧
  (∀ (i : Fin 2) (s : State), let f : Fld := if i.val = 0 then PSM_STAT_KL30_1_OK else PSM_STAT_KL30_2_OK
    s.flag f = true →
    ∃ t, Completes (.kl30Lost i) s t ∧ t.flag f = false ∧
      (s.flag (if i.val = 0 then PSM_STAT_KL30_2_OK else PSM_STAT_KL30_1_OK) = true → t.bitAt (BLK_IRQ_STAT 21) i = true) ∧
      Untouched (faultFoot 21) s t) ∧
  (∀ (i : Fin 2) (s : State), ∃ t, Completes (.kl30Restored i) s t ∧
      t.flag (if i.val = 0 then PSM_STAT_KL30_1_OK else PSM_STAT_KL30_2_OK) = true ∧ Untouched (· == PSM_STAT) s t) ∧
  (∀ (i : Fin 2) (s : State),
    ∃ t, Completes (.batLost i) s t ∧ t.flag (if i.val = 0 then PSM_STAT_BAT1_OK else PSM_STAT_BAT2_OK) = false ∧
      t.bitAt (BLK_IRQ_STAT 21) (2 + i.val) = true ∧ (t.die (2 * i.val)).batLow = true ∧ (t.die (2 * i.val + 1)).batLow = true ∧
      Untouched (fun a => faultFoot 21 a || lswPages a) s t) ∧
  (∀ (i : Fin 2) (s : State), Completes (.batRestored i) s ((seqs [
    set (if i.val = 0 then PSM_STAT_BAT1_OK else PSM_STAT_BAT2_OK) 1,
    forN 2 fun j => let d := 2 * i.val + j
      seqs [updDie d fun x => { x with batLow := false }, showLocks, dieStart d,
        .read fun s => forEach (s.loads.filter fun l => l / 16 == d && (s.chan l).nextSrc != 3) gateTry]]).run s)) ∧
  (∀ s : State, s.flag PSM_STAT_GND_OK = true → s.b.psm.trans = none →
    ∃ t, Completes .gndLoss s t ∧ t.flag PSM_STAT_GND_OK = false ∧ t.bitAt (BLK_IRQ_STAT 21) 8 = true ∧
      t.bitAt (BLK_ERR_STAT 21) FT = true ∧ (∀ d : Fin 4, (t.die d).gnd = true) ∧
      Untouched (fun a => faultFoot 21 a || lswPages a) s t) ∧
  (∀ (d : Fin 4) (s : State), (s.die d).on = true →
    ∃ t, Completes (.dieClockLoss d) s t ∧ (t.die d).on = false ∧ t.flag (LSW_DIE_STAT_GATELOCK d) = true ∧
      t.flag (LSW_DIE_STAT_CLK_OK d) = false ∧ (∀ c : Fin 16, (t.chan (16 * d.val + c.val)).out = .off) ∧
      (t.die d).osc = false ∧ Untouched (fun a => lswPages a || a == PSM_STAT) s t)
/-- Transitions between power states and the wakes of the module -/
def Obligations.TransitionsAndWakes : Prop :=
  (∀ (s : State) (t : Nat), s.b.psm.trans = some t → t ≤ 1 →
    ∃ v, Completes .transitionDone s v ∧ v.pwr = t ∧ v.get MSU_PWR_STATE_REQ = t ∧ v.b.psm.trans = none ∧
      v.bitAt (BLK_IRQ_STAT 21) 9 = true) ∧
  (∀ s : State, s.pdPhase = 1 → s.allLoadsOff = true →
    ∃ t, Completes (.transitionLoadsOff false) s t ∧ t.pdPhase = 2 ∧ Untouched (· == PSM_TRANS_STAT) s t) ∧
  (∀ s : State, s.pdPhase = 2 →
    ∃ t, Completes (.transitionLoadsOff true) s t ∧ t.pdPhase = 3 ∧ SameMem s t) ∧
  (∀ s : State, s.pwr = 2 → s.flag PSM_CFG_SUSPEND_MAX = true →
    ∃ t, Completes .suspendMaxExpiry s t ∧ t.pwr = 3 ∧ t.flag FLK_DEV_VALID = false ∧
      (∀ a, t.byte a = if isDram a then memDefault a else s.byte a)) ∧
  (∀ (i : Fin 10) (x : List (Fin 1024)) (f : Bool) (s : State), Does (.wakeComparatorEvent i false x f)
    (updPsm fun x => { x with levels := x.levels &&& (1023 - 2 ^ i.val) }) (fun _ => false) s) ∧
  (∀ (i : Fin 10) (x : List (Fin 1024)) (f : Bool) (s : State), s.pdPhase = 0 →
    let mark := updPsm fun x => { x with levels := x.levels ||| 2 ^ i.val }
    (s.pwr ≤ 1 → s.b.psm.por = false → Completes (.wakeComparatorEvent i true x f) s ((Upd.seq mark (gladeEvent i none f)).run s)) ∧
    (s.pwr = 2 → Completes (.wakeComparatorEvent i true x f) s ((seqs [mark,
      recordWake 1 i.val 0 (0xC0 + i.val) none, fullWake i.val (directValidate i.val) f, gladeEvent i none f]).run s)) ∧
    (s.pwr = 3 → Completes (.wakeComparatorEvent i true x f) s ((Upd.seq mark (gladeEvent i none f)).run s)) ∧
    (s.pwr = 4 → s.bitAt PSM_DS_WAKE_EN i = true → s.bitAt PSM_DS_MASKED i = false →
      Completes (.wakeComparatorEvent i true x f) s ((Upd.seq mark (deepWake i x f)).run s)) ∧
    (s.pwr = 4 → (s.bitAt PSM_DS_WAKE_EN i = false ∨ s.bitAt PSM_DS_MASKED i = true) →
      Does (.wakeComparatorEvent i true x f) mark (fun _ => false) s)) ∧
  (∀ (i : Fin 10) (s : State), ∃ t, Completes (.dsMaskRearm i) s t ∧ t.bitAt PSM_DS_MASKED i = false ∧
    t.b.psm.levels = s.b.psm.levels &&& (1023 - 2 ^ i.val) ∧ Untouched (· == PSM_DS_MASKED) s t) ∧
  (∀ (c : Fin 8) (e : SwkEvent) (d : List Byte) (f : Bool) (s : State), s.flag (NMC_SWK_CFG_MODE c) = true → s.pdPhase = 0 →
    (s.pwr = 2 ∨ s.pwr = 3 ∨ (s.pwr ≤ 1 ∧ s.flag (NMC_CH_STAT_TRX_ASLEEP c) = true ∧ s.flag (NMC_SWK_STAT_ARMED c) = true)) →
    let cnt := whenU (s.get (NMC_SWK_CFG_MODE c) != 1) (set (NMC_SWK_STAT_ERR_CNT c) (s.swkCount c e))
    let id := match e with | .frame f => some (f.ext.toNat * 2 ^ 31 + f.id.val) | _ => none
    let woke := .seq (set (NMC_SWK_STAT_WOKE c) 1) (set (NMC_SWK_STAT_ARMED c) 0)
    (s.swkWakes c e d = false → Does (.selectiveWake c e d f) cnt (· == NMC_SWK_STAT c) s) ∧
    (s.swkWakes c e d = true → 2 ≤ s.pwr → Completes (.selectiveWake c e d f) s ((seqs [cnt, woke, wakeSource (10 + c.val) id f]).run s)) ∧
    (s.swkWakes c e d = true → s.pwr ≤ 1 → Completes (.selectiveWake c e d f) s ((seqs [cnt, woke, trxWakes c (id.getD 0) false]).run s))) ∧
  (∀ (c : Fin 8) (e : SwkEvent) (d : List Byte) (f : Bool) (s : State), (s.flag (NMC_SWK_CFG_MODE c) = false ∨
      (s.pdPhase = 0 ∧ s.pwr ≤ 1 ∧ (s.flag (NMC_CH_STAT_TRX_ASLEEP c) = false ∨ s.flag (NMC_SWK_STAT_ARMED c) = false))) →
    Does (.selectiveWake c e d f) .skip (fun _ => false) s) ∧
  (∀ (n : Fin 12) (f : Bool) (s : State), 4 ≤ n.val ∨ (s.pdPhase = 0 ∧ s.pwr ≤ 1) → Completes (.linWakePulse n f) s ((linWakeRx n).run s)) ∧
  (∀ (n : Fin 12) (f : Bool) (s : State), n.val < 4 → s.pdPhase ≠ 0 ∨ 2 ≤ s.pwr →
    Completes (.linWakePulse n f) s ((Upd.seq (linWakeRx n) (wakeSource (18 + n.val) none f)).run s)) ∧
  (∀ (p : Fin 18) (f : Bool) (s : State), s.pdPhase = 0 → s.pwr = 2 →
    Completes (.t1WakeSignalling p f) s ((seqs [recordWake 1 22 0 (0xC0 + 22) none, fullWake 22 (directValidate 22) f,
      gladeEvent 22 none f]).run s)) ∧
  (∀ (p : Fin 18) (f : Bool) (s : State), s.pdPhase = 0 → 3 ≤ s.pwr → Does (.t1WakeSignalling p f) .skip (fun _ => false) s) ∧
  (∀ (p : Fin 18) (f : Bool) (s : State), s.pdPhase = 0 → s.pwr ≤ 1 →
    Completes (.t1WakeSignalling p f) s ((trxWake ⟨16 + p.val, by omega⟩ none false).run s)) ∧
  (∀ s : State, Does .flWakeDriveEnd (updPsm fun x => { x with flDrive := false }) (fun _ => false) s) ∧
  (∀ s : State, s.get MSU_BOOT_STAT_PHASE = 3 → s.pwr ≤ 1 →
    ∃ t, Completes .loopCntClear s t ∧ t.get MSU_RST_CAUSE_LOOP_CNT = 0 ∧ Untouched (· == MSU_RST_CAUSE) s t)
/-- A CAN channel joins the bus, arbitrates, ends its attempts and recovers from bus-off -/
def Obligations.CanTransmitEvents : Prop :=
  (∀ (c : Fin 16) (s : State), s.get (CAN_STATUS_STATE c) ≠ 1 ∨ s.flag (NMC_CH_STAT_TRX_ASLEEP c) = true →
    Does (.canIntegrated c) .skip (fun _ => false) s) ∧
  (∀ (c : Fin 16) (s : State), s.get (CAN_STATUS_STATE c) = 1 → s.flag (NMC_CH_STAT_TRX_ASLEEP c) = false →
    ∃ t, Completes (.canIntegrated c) s t ∧
      t.get (CAN_STATUS_STATE c) = (if 128 ≤ s.get (CAN_ERRCNT_TEC c) ∨ 128 ≤ s.get (CAN_ERRCNT_REC c) then 3 else 2) ∧
      t.flag (CAN_STATUS_EXC c) = false ∧ Untouched (onPage 9) s t) ∧
  (∀ (c : Fin 16) (w i : Nat) (s : State), s.unarmed 9 = true → s.canActive c = true → s.flag (CELL_STAT_ENABLED 9 c) = true →
    (s.canCh c).tx = none → s.txChoice c = some i → s.pendingSlots c ≠ [] → s.flag (CAN_CH_MODE_LISTEN c) = false →
    s.flag (CAN_CH_MODE_RESTRICT c) = false → s.frozenArg 1 16 c = false → s.formatBad c i = false →
    ∃ t, Completes (.canArbitration c 0 w) s t ∧ (t.canCh c).tx = some i ∧ t.get (CAN_STATUS_ACTIVITY c) = 2 ∧
      Untouched (onPage 9) s t) ∧
  (∀ (c : Fin 16) (e : Fin 3) (w : Nat) (s : State), s.unarmed 9 = true → s.canActive c = true → s.flag (CELL_STAT_ENABLED 9 c) = true →
    (s.canCh c).tx = none → s.pendingSlots c ≠ [] → s.flag (CAN_CH_MODE_LISTEN c) = false → s.flag (CAN_CH_MODE_RESTRICT c) = false →
    s.frozenArg 1 16 c = false → Completes (.canArbitration c e w) s ((Upd.seq (canMramErr c e w) (whenU (e.val != 2) (canOffer c 65))).run s)) ∧
  (∀ (c : Fin 16) (d : Option (Fin 128)) (i : Nat) (s : State), (s.canCh c).tx = some i →
    Completes (.canTxSuccess c d) s ((seqs [canLoopDelay c d, elementOk 9 c, endSlot c i (if (s.slotInfo c i).cancelled then 9 else 1),
      set (CAN_STATUS_ACK_ALONE c) 0, updCan c fun x => { x with ackRun := 0 },
      setCounters c (s.get (CAN_ERRCNT_TEC c) - 1) (s.get (CAN_ERRCNT_REC c)), canTxOver c]).run s)) ∧
  (∀ (c : Fin 16) (i : Nat) (s : State), (s.canCh c).tx = some i → s.flag (CAN_TX_CFG_ARB_CNT c) = false →
    (s.slotInfo c i).cancelled = false → s.flag (CELL_STAT_DRAINING 9 c) = false →
    ∃ t, Completes (.canTxError c none none) s t ∧ (t.canCh c).tx = none ∧
      t.reg (CAN_ERRCNT c) = s.reg (CAN_ERRCNT c) ∧ Untouched (onPage 9) s t) ∧
  (∀ (c : Fin 16) (i : Nat) (e : CanError) (d : Option (Fin 128)) (s : State), (s.canCh c).tx = some i → e.unsignalled = false →
    e.code.val ≠ 1 → e.code.val ≠ 4 → (s.get (CAN_STATUS_STATE c) = 2 ∨ s.get (CAN_STATUS_STATE c) = 3) → s.flag (CELL_STAT_DRAINING 9 c) = false →
    ∃ t, Completes (.canTxError c (some e) d) s t ∧ (t.canCh c).tx = none ∧ t.get (CAN_ERRCNT_TEC c) = min 511 (s.get (CAN_ERRCNT_TEC c) + 8) ∧
      t.get (if e.dataPhase then CAN_STATUS_LAST_ERR_DATA c else CAN_STATUS_LAST_ERR c) = e.code.val) ∧
  (∀ (c : Fin 16) (s : State), s.get (CAN_STATUS_STATE c) = 4 → s.flag (CAN_BO_CFG_AUTO c) = true →
    ∃ t, Completes (.canBoDelayExpiry c) s t ∧ t.get (CAN_STATUS_STATE c) = 5 ∧ t.get (CAN_BO_STAT_SEQ_CNT c) = 0 ∧
      Untouched (onPage 9) s t) ∧
  (∀ (c : Fin 16) (s : State), s.get (CAN_STATUS_STATE c) = 5 →
    ∃ t, Completes (.canRecoveryDone c) s t ∧ t.get (CAN_STATUS_STATE c) = 2 ∧ t.get (CAN_ERRCNT_TEC c) = 0 ∧
      t.get (CAN_ERRCNT_REC c) = 0 ∧ t.flag (CAN_STATUS_WARN c) = false ∧ t.bitAt (CELL_IRQ_STAT 9 c) 5 = true ∧
      Untouched (onPage 9) s t) ∧
  (∀ (c : Fin 16) (s : State), (s.flag (CELL_STAT_ENABLED 9 c) = true ∨ s.flag (CELL_STAT_DRAINING 9 c) = true) →
    s.flag (BLK_STAT_RST_BUSY 9) = false →
    ∃ t, Completes (.canDomTimeout c) s t ∧ t.bitAt (CELL_IRQ_STAT 9 c) 9 = true ∧ t.bitAt (CELL_ERR_STAT 9 c) (s.finalClass 9 (some c) TR) = true ∧
      Untouched (faultFoot 9) s t) ∧
  (∀ (c : Fin 16) (s : State), s.flag (CAN_TS_CFG_EN c) = true →
    ∃ t, Completes (.canTsWrap c) s t ∧ (t.canCh c).tsStart = s.now ∧ (t.canCh c).tsHeld = 0 ∧ t.bitAt (CELL_IRQ_STAT 9 c) 8 = true ∧
      Untouched (onPage 9) s t)
/-- Received CAN frames: filtering, storing, errors and locks -/
def Obligations.CanReceiveEvents : Prop :=
  (∀ (c : Fin 16) (f : CanFrame) (ago w : Nat) (s : State), s.unarmed 9 = true → s.canActive c = true → s.flag (CELL_STAT_ENABLED 9 c) = true →
    (s.canCh c).tx = none → f.fmt.val = 0 → bit (s.get SRT_SRC_CFG_RUNAHEAD) c = false →
    ∃ t, Completes (.canArbFieldFilter c f ago 0 w) s t ∧ t.get (CAN_STATUS_ACTIVITY c) = 1 ∧
      (t.canCh c).rx = some { s.filterFrame c f (s.stamp c ago) (s.devTime - ago) (s.flag (CAN_TS_CFG_DT_CAP c)) with ahead := none } ∧
      Untouched (onPage 9) s t) ∧
  (∀ (c : Fin 16) (f : CanFrame) (ago w : Nat) (s : State), s.unarmed 9 = true → s.canActive c = true → s.flag (CELL_STAT_ENABLED 9 c) = true →
    (s.canCh c).tx = none →
    (f.fmt.val = 1 ∧ s.flag (CAN_CH_MODE_FD_EN c) = false ∨ f.fmt.val = 2 ∧ s.flag (CAN_CH_MODE_XL_EN c) = false) → s.flag (CAN_CH_MODE_EXC_OFF c) = false →
    ∃ t, Completes (.canArbFieldFilter c f ago 0 w) s t ∧ t.flag (CAN_STATUS_EXC c) = true ∧ t.get (CAN_STATUS_STATE c) = 1 ∧
      t.bitAt (CELL_IRQ_STAT 9 c) 7 = true ∧ (t.canCh c).rx = none ∧ Untouched (onPage 9) s t) ∧
  (∀ (c : Fin 16) (data : List Byte) (r : CanRx) (s : State), s.unarmed 9 = true → (s.canCh c).rx = some r → (s.canCh c).tx = none →
    let d := fit (frameLen r.f.fmt r.f.dlc r.f.rmt) data
    Completes (.canFrameValid c data) s ((seqs [
      updCan c fun x => { x with rx := none }, elementOk 9 c, set (CAN_STATUS_ACTIVITY c) 0,
      whenU (!s.flag (CAN_CH_MODE_RESTRICT c)) (recDown (s.get (CAN_ERRCNT_REC c)) fun v => setCounters c (s.get (CAN_ERRCNT_TEC c)) v),
      nmOfferCan c r.f d, whenU r.router (pduPush ⟨c, r.f.ext, r.f.id, d, r.ahead.isSome⟩),
      whenU ((r.target != 0 && !s.savedCan c) || r.router) (rxPlace c (if s.savedCan c then { r with target := 0 } else r) d)]).run s)) ∧
  (∀ (c : Fin 16) (data : List Byte) (s : State), s.unarmed 9 = true → (s.canCh c).rx = none →
    Does (.canFrameValid c data) .skip (fun _ => false) s) ∧
  (∀ (c : Fin 16) (e : CanError) (x : Bool) (s : State), s.canActive c = false → Does (.canErrorDetected c e x) .skip (fun _ => false) s) ∧
  (∀ (c : Fin 16) (e : CanError) (s : State), s.canActive c = true → s.flag (CAN_CH_MODE_EXC_OFF c) = true →
    Completes (.canErrorDetected c e true) s ((canRxError c { e with code := 3 }).run s)) ∧
  (∀ (c : Fin 16) (e : CanError) (s : State), s.canActive c = true →
    Completes (.canErrorDetected c e false) s ((canRxError c e).run s)) ∧
  (∀ (c : Fin 16) (e : CanError) (s : State), s.canActive c = true → s.flag (CAN_CH_MODE_EXC_OFF c) = false →
    ∃ t, Completes (.canErrorDetected c e true) s t ∧ t.flag (CAN_STATUS_EXC c) = true ∧ t.get (CAN_STATUS_STATE c) = 1 ∧
      (t.canCh c).rx = none ∧ t.bitAt (CELL_IRQ_STAT 9 c) 7 = true ∧ Untouched (onPage 9) s t) ∧
  (∀ (p : Pid) (c : Fin 16) (sec : Fin 4) (b : Fin 64) (s : State),
    let w := if sec.val = 3 then elemWord s c 3 b else elemWord s c sec (s.get (fifoGet c sec))
    Does (.canLockRead p c sec b) (mramReadEffect c p w) (onPage 9) s ∧
    Does (.canReleaseRead p c sec b) (mramReadEffect c p (w + s.lastWord c sec w)) (onPage 9) s) ∧
  (∀ (c : Fin 16) (sec : Fin 4) (s : State), ((s.canCh c).lock sec).isSome = true →
    ∃ t, Completes (.canLockTimeout c sec) s t ∧ (t.canCh c).lock sec = none ∧ t.bitAt (CELL_IRQ_STAT 9 c) 28 = true ∧
      Untouched (onPage 9) s t)
/-- The LIN channels: slots, headers, results, sleep and wake -/
def Obligations.LinChannelEvents : Prop :=
  (∀ (n : Fin 12) (s : State), s.unarmed 10 = true → s.cellOn 10 n = true → s.flag (LIN_CH_CFG_MASTER n) = true →
    s.flag (LIN_CH_STAT_SCHED n) = true → (s.linCh n).hold = false → s.frozenArg 2 16 n = false →
    (s.flag (LIN_SCHED_CTRL_RUN n) = false → ∀ bad,
      ∃ t, Completes (.linSlotStart n bad) s t ∧ t.flag (LIN_CH_STAT_SCHED n) = false ∧ Untouched (onPage 10) s t) ∧
    (s.flag (LIN_SCHED_CTRL_RUN n) = true → (s.linCh n).late = true → ∀ bad, Does (.linSlotStart n bad) .skip (fun _ => false) s) ∧
    (s.flag (LIN_SCHED_CTRL_RUN n) = true → (s.linCh n).late = false → (s.linCh n).cur.isSome = true → ∀ bad,
      ∃ t, Completes (.linSlotStart n bad) s t ∧ (t.linCh n).late = true ∧ t.bitAt (CELL_IRQ_STAT 10 n) 3 = true ∧
        (t.linCh n).cur = (s.linCh n).cur ∧ Untouched (onPage 10) s t) ∧
    (s.flag (LIN_SCHED_CTRL_RUN n) = true → (s.linCh n).late = false → (s.linCh n).cur = none →
      Does (.linSlotStart n true) (report 10 (some n) PM) (faultFoot 10) s ∧ Does (.linSlotStart n false) (linNextSlot n) (onPage 10) s)) ∧
  (∀ (n : Fin 12) (p : Fin 256) (s : State), s.unarmed 10 = true → s.cellOn 10 n = true → s.flag (LIN_CH_CFG_MASTER n) = false →
    s.get (LIN_CH_STAT_STATE n) ≠ 4 → (s.linCh n).cur = none →
    Does (.linHeaderReceived n false p false) (linResult n (p.val % 64) 9) (onPage 10) s ∧
    (p.val / 64 ≠ linParity (p.val % 64) → Does (.linHeaderReceived n true p false) (linResult n (p.val % 64) 8) (onPage 10) s) ∧
    (∀ fr, p.val / 64 = linParity (p.val % 64) → s.linBegin n (p.val % 64) false false = some fr →
      ∃ t, Completes (.linHeaderReceived n true p false) s t ∧ (t.linCh n).cur = some fr ∧ t.get (LIN_CH_STAT_STATE n) = 3 ∧
        Untouched (onPage 10) s t)) ∧
  (∀ (n : Fin 12) (r : Fin 7) (data : List Byte) (s : State), r.val = 1 ∨ 4 ≤ r.val →
    Completes (.linFrameEnd n r data) s ((linEnd n r data).run s)) ∧
  (∀ (n : Fin 12) (r : Fin 7) (data : List Byte) (fr : LinFrame) (s : State), r.val = 1 ∨ 4 ≤ r.val → (s.linCh n).cur = some fr →
    fr.evt = false → fr.id < 64 → (s.linCh n).late = false → (s.linCh n).sleepReq = false → s.flag (CELL_STAT_DRAINING 10 n) = false →
    ∃ t, Completes (.linFrameEnd n r data) s t ∧ (t.linCh n).cur = none ∧ t.get (LIN_CH_STAT_LAST_ID n) = fr.id ∧
      t.get (LIN_CH_STAT_LAST_RES n) = r.val ∧ t.bitAt (CELL_IRQ_STAT 10 n) (if r.val = 1 then 0 else 1) = true) ∧
  (∀ (n : Fin 12) (r : Fin 7) (data : List Byte) (any : Bool) (s : State), (s.linCh n).cur = none →
    Does (.linFrameEnd n r data) .skip (fun _ => false) s ∧ Does (.linResponseTimeout n any) .skip (fun _ => false) s) ∧
  (∀ (n : Fin 12) (any : Bool) (s : State), Completes (.linResponseTimeout n any) s ((linEnd n (if any then 3 else 2) []).run s)) ∧
  (∀ (n : Fin 12) (s : State), s.cellOn 10 n = true → s.flag (LIN_CH_CFG_MASTER n) = false → s.get (LIN_CH_STAT_STATE n) ≠ 4 →
    ∃ t, Completes (.linIdle4s n) s t ∧ t.bitAt (CELL_IRQ_STAT 10 n) 5 = true ∧ Untouched (onPage 10) s t) ∧
  (∀ (n : Fin 12) (s : State), (s.linCh n).hold = true →
    ∃ t, Completes (.linWakeHoldEnd n) s t ∧ (t.linCh n).hold = false ∧ (t.linCh n).next = s.get (LIN_SCHED_CTRL_START n) ∧
      (s.flag (LIN_SCHED_CTRL_RUN n) = true → t.flag (LIN_CH_STAT_SCHED n) = true) ∧ Untouched (onPage 10) s t) ∧
  (∀ (n : Fin 12) (s : State), s.flag (CELL_STAT_ENABLED 10 n) = true →
    Does (.linBusStuck n) (report 10 (some n) TR) (faultFoot 10) s ∧
    Does (.linDomTimeout n) (.seq (raiseCell 10 n 6) (report 10 (some n) TR)) (faultFoot 10) s)
/-- Network management: messages, timers, sleep handshakes and wakes -/
def Obligations.NetworkManagementEvents : Prop :=
  (∀ (c : Fin 36) (s : State), s.unarmed 15 = true → s.nmAvail c = true → s.nmState c = 1 ∨ s.nmState c = 2 →
    Completes (.nmMsgCycle c) s ((nmSend c).run s)) ∧
  (∀ (c : Fin 36) (s : State), s.unarmed 15 = true → s.nmAvail c = true → s.nmState c = 1 ∨ s.nmState c = 2 → 16 ≤ c.val →
    s.powerDown = false → s.flag (ETP_PORT_STAT_LINK_UP (c.val - 16)) = false →
    ∃ t, Completes (.nmMsgCycle c) s t ∧ t.bitAt (BLK_IRQ_STAT 15) 7 = true ∧ Untouched (onPage 15) s t) ∧
  (∀ (c : Fin 36) (s : State), s.nmAvail c = true → s.nmState c = 1 →
    Completes (.nmRepeatExpiry c) s ((nmEnter c (if s.nmLocal c then 2 else 3)).run s)) ∧
  (∀ (c : Fin 36) (s : State), s.nmAvail c = true → s.nmState c = 3 →
    ∃ t, Completes (.nmTimerExpiry c) s t ∧ t.nmState c = 4 ∧ t.bitAt (BLK_IRQ_STAT 15) 0 = true ∧ Untouched (onPage 15) s t) ∧
  (∀ (c : Fin 36) (s : State), s.nmAvail c = true → s.nmState c = 4 →
    Completes (.nmWaitSleepExpiry c) s ((nmEnter c 0).run s)) ∧
  (∀ (p : Fin 18) (s : State), s.get (ETP_T1_SLEEP_STATE p) = 1 →
    ∃ t, Completes (.t1SleepHandshakeFail p) s t ∧ t.get (ETP_T1_SLEEP_STATE p) = 0 ∧ t.bitAt (CELL_IRQ_STAT 7 p) 19 = true ∧
      Untouched (onPage 7) s t) ∧
  (∀ (p : Fin 18) (s : State), s.flag (ETP_T1_SLEEP_TC10_EN p) = true → s.pwr ≤ 1 → s.get (ETP_T1_SLEEP_STATE p) ≠ 2 →
    (s.flag (ETP_T1_SLEEP_SLEEP_ACCEPT p) = false → s.get (ETP_T1_SLEEP_STATE p) ≠ 1 →
      Does (.t1PartnerSleepReq p) (raiseCell 7 p 16) (onPage 7) s) ∧
    ((s.flag (ETP_T1_SLEEP_SLEEP_ACCEPT p) = true ∨ s.get (ETP_T1_SLEEP_STATE p) = 1) →
      ∃ t, Completes (.t1PartnerSleepReq p) s t ∧ t.bitAt (CELL_IRQ_STAT 7 p) 16 = true ∧ t.bitAt (CELL_IRQ_STAT 7 p) 17 = true ∧
        t.get (ETP_T1_SLEEP_STATE p) = 2 ∧ t.flag (NMC_CH_STAT_TRX_ASLEEP (16 + p.val)) = true ∧ t.flag (ETP_PORT_STAT_LINK_UP p) = false)) ∧
  (∀ (c : Fin 36) (id : Option (Fin 4294967296)) (tx : Bool) (s : State), s.flag (NMC_CH_STAT_TRX_ASLEEP c) = false →
    Does (.trxWake c id tx) .skip (fun _ => false) s) ∧
  (∀ (c : Fin 36) (id : Option (Fin 4294967296)) (s : State), s.flag (NMC_CH_STAT_TRX_ASLEEP c) = true → s.pwr ≤ 1 → s.pdPhase ≠ 3 →
    (8 ≤ c.val ∨ s.flag (NMC_SWK_STAT_ARMED c) = true) →
    ∃ t, Completes (.trxWake c id false) s t ∧ t.flag (NMC_CH_STAT_TRX_ASLEEP c) = false ∧ t.bitAt (BLK_IRQ_STAT 15) 3 = true ∧
      (s.nmAvail c = true → s.nmState c = 0 → t.nmState c =
        if s.get (NMC_CH_STAT_IGN_N c) = 0 ∧ s.flag (NMC_CH_STAT_IGNORE_ALL c) = false then 1 else 3) ∧
      (s.nmAvail c = false → Untouched (fun a => onPage 15 a || onPage 7 a) s t)) ∧
  (∀ (c : Fin 36) (id : Option (Fin 4294967296)) (s : State), s.flag (NMC_CH_STAT_TRX_ASLEEP c) = true → s.pwr ≤ 1 → s.pdPhase ≠ 3 →
    s.flag (BLK_STAT_ENABLED 15) = true → s.nmPending c = true →
    (s.flag (NMC_CH_CFG_TX_WAKE c) = true → Completes (.trxWake c id true) s ((trxWakes c 0 true).run s)) ∧
    (s.flag (NMC_CH_CFG_TX_WAKE c) = false → Does (.trxWake c id true) .skip (fun _ => false) s)) ∧
  (∀ (c : Fin 36) (s : State), s.nmCounts c = true → s.flag NMC_CFG_MAX_AWAKE = true →
    ∃ t, Completes (.maxAwakeReached c) s t ∧ t.bitAt (BLK_IRQ_STAT 15) 2 = true ∧
      t.reg (NMC_CH_AWAKE c) = (if s.chainSize ≤ 8 then min 65535 (60 * min 1440 (s.get NMC_CFG_MAX_AWAKE)) else 0) ∧ Untouched (onPage 15) s t)
/-- The Ethernet ports: links, frames received and sent, underruns, low-power idle -/
def Obligations.EthernetPortEvents : Prop :=
  (∀ (p : Fin 20) (m c : Bool) (q : Fin 8) (w : Fin 16384) (s : State),
    s.cellOn 7 p = true → s.flag (BLK_STAT_ENABLED 7) = true → (18 ≤ p.val ∨ s.flag ETP_PHY_FW_RUN = true) → s.phyOn p = true →
    s.flag (ETP_PORT_STAT_LINK_UP p) = false →
    ∃ t, Completes (.ethLinkChange p true m q c w) s t ∧ t.flag (ETP_PORT_STAT_LINK_UP p) = true ∧ t.bitAt ETP_LINK_SUM p = true ∧
      t.get (ETP_PORT_STAT_SQI p) = q ∧ t.flag (ETP_PORT_STAT_MASTER p) = s.roleOf p m ∧ t.bitAt (CELL_IRQ_STAT 7 p) 0 = true ∧
      Untouched (onPage 7) s t) ∧
  (∀ (p : Fin 20) (m c : Bool) (q : Fin 8) (w : Fin 16384) (s : State), s.flag (ETP_PORT_STAT_LINK_UP p) = false →
    ∃ t, Completes (.ethLinkChange p false m q c w) s t ∧ t.get (ETP_PORT_STAT_SQI p) = q ∧ Untouched (onPage 7) s t) ∧
  (∀ (p : Fin 20) (m c : Bool) (q : Fin 8) (w : Fin 16384) (s : State), s.flag (ETP_PORT_STAT_LINK_UP p) = true →
    ∃ t, Completes (.ethLinkChange p false m q c w) s t ∧ t.flag (ETP_PORT_STAT_LINK_UP p) = false ∧ t.bitAt ETP_LINK_SUM p = false ∧
      t.bitAt (CELL_IRQ_STAT 7 p) 0 = true ∧ Untouched (fun a => onPage 7 a || onPage 8 a) s t) ∧
  (∀ (p : Fin 25) (f : List Byte) (pe fe : Bool) (ago : Nat) (s : State), s.unarmed 7 = true → s.flag (BLK_STAT_ENABLED 7) = true →
    s.openFrame p = none → s.b.swq.cut.contains p.val = false →
    Completes (.ethFrameRx p f pe fe ago false none) s ((Upd.seq (macRx p none f (s.devTime - ago) pe fe)
      (whenU (!pe && !fe && s.portOn p) (.seq (elementOk 7 p) (tsStamp p false f (s.devTime - ago))))).run s)) ∧
  (∀ (p : Fin 25) (f : List Byte) (pe fe : Bool) (ago : Nat) (s : State), s.unarmed 7 = true → s.flag (BLK_STAT_ENABLED 7) = true →
    s.portOn p = false → s.b.swq.cut.contains p.val = true →
    Completes (.ethFrameRx p f pe fe ago false none) s ((cutEnds p).run s)) ∧
  (∀ (p : Fin 25) (f : List Byte) (pe fe : Bool) (ago : Nat) (s : State), s.unarmed 7 = true → s.flag (BLK_STAT_ENABLED 7) = false →
    s.flag (BLK_STAT_DRAINING 7) = false → Does (.ethFrameRx p f pe fe ago false none) .skip (fun _ => false) s) ∧
  (∀ (p : Fin 25) (s : State), ∃ t, Completes (.ethDropInterval p) s t ∧ mapGet 0 t.b.swq.drops p = 0 ∧
      (s.flag (ETP_PORT_CFG_DROP_TH p) = true → s.get (ETP_PORT_CFG_DROP_TH p) ≤ mapGet 0 s.b.swq.drops p → t.bitAt (CELL_IRQ_STAT 7 p) 2 = true) ∧
      Untouched (onPage 7) s t) ∧
  (∀ (p : Fin 25) (f : Fin 6) (ago : Nat) (s : State), s.unarmed 7 = true → s.txPick p = none →
    Does (.macTxStart p f ago) .skip (fun _ => false) s) ∧
  (∀ (p : Fin 25) (ago q : Nat) (c : SwCopy) (x : SwFrame) (s : State), s.unarmed 7 = true → s.portOn p = true →
    s.flag (BLK_STAT_ENABLED 7) = true → s.flag (ETP_PORT_STAT_TX_LPI p) = false → mapGet none s.b.swq.tx p = none →
    s.txPick p = some (q, c) → s.frame c.fid = some x →
    let gone := seqs [unqueue p q c, freeCells c.cells, unstage c.fid p]
    Completes (.macTxStart p 1 ago) s ((Upd.seq gone (count64 (ETP_CNT_TX_LINK_ABORT p))).run s) ∧
    (p = 18 ∨ p = 19 → s.plcaRuns p = false → Completes (.macTxStart p 2 ago) s ((Upd.seq gone (count64 (ETP_CNT_TX_COLLISION p))).run s)) ∧
    Completes (.macTxStart p 3 ago) s ((seqs [gone, underrunAt p x.data.length, report 7 (some p) PM]).run s) ∧
    Completes (.macTxStart p 5 ago) s ((Upd.seq (cutAbort c.fid) (report 8 none TR)).run s) ∧
    (x.isOpen = false → c.cells ≤ c.inBuf → Completes (.macTxStart p 0 ago) s ((Upd.seq gone
      (sent p q x.injected (s.egress p x c) x.time ago)).run s)) ∧
    ((x.isOpen = true ∨ c.inBuf < c.cells) → Completes (.macTxStart p 0 ago) s ((Upd.seq (unqueue p q c)
      (updSw fun y => { y with tx := mapPut none y.tx p (some c) })).run s))) ∧
  (∀ (p : Fin 25) (late : Nat) (c : SwCopy) (s : State), mapGet none s.b.swq.tx p = some c →
    ∃ t, Completes (.macUnderrun p late) s t ∧ mapGet none t.b.swq.tx p = none ∧ t.bitAt (CELL_IRQ_STAT 7 p) 1 = true ∧
      t.get (ETP_TX_THR_CUR p) = (let cur := s.get (ETP_TX_THR_CUR p); let new := cur + max 1 (s.get (ETP_TX_THR_STEP p))
        if cur = 0 ∨ 144 < new then 0 else new) ∧ Untouched (fun a => onPage 7 a || onPage 8 a) s t) ∧
  (∀ (x : Fin 2) (k : Fin 3) (n : Nat) (s : State), s.unarmed 7 = true →
    s.portOn (20 + x.val) = true → s.flag (BLK_STAT_ENABLED 7) = true → k ≠ 2 → (∀ q < 8, s.txReady (20 + x.val) q = false) →
    ∃ l i, Does (.cPortSend x k n) (updSw fun y => { y with rr := mapPut ([], 0) y.rr (20 + x.val) (l, i) }) (fun _ => false) s) ∧
  (∀ (x : Fin 2) (k : Fin 3) (n : Nat) (s : State), s.unarmed 7 = true → s.flag (BLK_STAT_ENABLED 7) = false →
    Does (.cPortSend x k n) .skip (fun _ => false) s) ∧
  (∀ (p : Fin 18) (s : State), s.portOn p = true → s.flag (ETP_EEE_CFG_EN p) = true → s.flag (ETP_EEE_STAT_CAPABLE p) = true →
    s.flag (ETP_PORT_STAT_TX_LPI p) = false → mapGet none s.b.swq.tx p = none → (∀ t < 8, s.outQ p t = []) → s.flag (SWC_GCL_STAT_OPER p) = false →
    ∃ t, Completes (.lpiEnter p) s t ∧ t.flag (ETP_PORT_STAT_TX_LPI p) = true ∧ t.bitAt (CELL_IRQ_STAT 7 p) 12 = true ∧
      Untouched (onPage 7) s t) ∧
  (∀ (p : Fin 18) (s : State), s.flag (ETP_PORT_STAT_TX_LPI p) = true →
    ∃ t, Completes (.lpiExit p) s t ∧ t.flag (ETP_PORT_STAT_TX_LPI p) = false ∧ t.bitAt (CELL_IRQ_STAT 7 p) 12 = true ∧
      Untouched (onPage 7) s t) ∧
  (∀ (p : Fin 18) (v : Bool) (s : State), s.portOn p = true → s.flag (ETP_EEE_CFG_EN p) = true → s.flag (ETP_EEE_STAT_CAPABLE p) = true →
    s.flag (ETP_PORT_STAT_RX_LPI p) ≠ v →
    ∃ t, Completes (.rxLpiChange p v) s t ∧ t.flag (ETP_PORT_STAT_RX_LPI p) = v ∧ t.bitAt (CELL_IRQ_STAT 7 p) 12 = true ∧
      Untouched (onPage 7) s t) ∧
  (∀ s : State, s.flag ETP_PHY_FW_RUN = false → Does .phyFwStop .skip (fun _ => false) s) ∧
  (∀ s : State, s.flag ETP_PHY_FW_RUN = true → ∃ t, Completes .phyFwStop s t ∧ t.flag ETP_PHY_FW_RUN = false ∧ t.bitAt (BLK_IRQ_STAT 7) 0 = true ∧
      t.bitAt (BLK_ERR_STAT 7) PM = true ∧ (∀ p : Fin 18, t.flag (ETP_PORT_STAT_LINK_UP p) = false) ∧
      Untouched (fun a => onPage 7 a || onPage 8 a || faultRegs a) s t)
/-- The switch: cell times, decisions, plane maps, gates, ageing and drains -/
def Obligations.SwitchEvents : Prop :=
  (∀ (pl : Fin 2) (s : State),
    let m := (List.range 3).foldl (matchRound pl (fun i => mapGet [] s.b.swq.stage (32 * pl.val + i))) { gptr := s.b.swq.gptr, aptr := s.b.swq.aptr, ucTurn := s.b.swq.ucTurn }
    Completes (.cellTimeMatch pl) s ((seqs [updSw fun x => { x with gptr := m.gptr, aptr := m.aptr, ucTurn := m.ucTurn },
      forEach m.sends fun e => crossCell pl e.1 e.2.1 e.2.2, forN 20 txFinish]).run s)) ∧
  (∀ (p : Fin 25) (h : List Byte) (i : SwIn) (s : State), s.unarmed 8 = true → s.b.swq.inp.find? (·.port == p.val) = some i →
    s.flag (BLK_STAT_ENABLED 8) = true →
    Completes (.switchDecision p h none false) s ((Upd.seq (updSw fun x => { x with inp := x.inp.erase i })
      (if s.mustStore p i.data then swDecide p i.queue i.data false i.time
      else .seq (swDecide p i.queue i.data true i.time) (.read fun s => match s.openFrame p with
        | some id => swClose id i.data
        | none => .skip))).run s)) ∧
  (∀ (p : Fin 25) (h : List Byte) (s : State), s.unarmed 8 = true → s.b.swq.inp.find? (·.port == p.val) = none →
    s.flag (BLK_STAT_ENABLED 8) = true → p.val < 20 ∨ p.val = 22 → s.portOn p = true → s.openFrame p = none →
    s.b.swq.cut.contains p.val = false → s.mustStore p h = false →
    Completes (.switchDecision p h none false) s ((swDecide p none h true s.devTime).run s)) ∧
  (∀ s : State, s.flag SWC_PMAP_STAT_PENDING = true → (s.b.swq.stage.all fun e => e.2.isEmpty) = true →
    ∃ t, Completes .pmapApply s t ∧ t.flag SWC_PMAP_STAT_PENDING = false ∧ t.b.swq.pmap = none ∧ Untouched (· == SWC_PMAP_STAT) s t) ∧
  (∀ (i : Fin 32768) (s : State), s.flag SWC_AGE_CFG_AGE_S = true → bit (s.swcWord 1 i 1) 31 = true → bit (s.swcWord 1 i 1) 30 = false →
    ∃ t, Completes (.fdbAgeOut i) s t ∧ (∀ w, t.swcWord 1 i w = 0) ∧ Untouched (fun _ => false) s t) ∧
  (∀ (i : Fin 32768) (s : State), bit (s.swcWord 1 i 1) 30 = true → Does (.fdbAgeOut i) .skip (fun _ => false) s) ∧
  (∀ (p : Fin 25) (c : Fin 8) (s : State), s.outQ p c = [] → let q := 8 * p.val + c.val
    ∃ t, Completes (.wredAvgTick p c) s t ∧
      mapGet 0 t.b.swq.avg q = avgStep (mapGet 0 s.b.swq.avg q) (bits (s.queueWord q 0) 27 24) 0 ∧ Untouched (fun _ => false) s t) ∧
  (∀ (p : Fin 25) (s : State), s.flag (ETP_PORT_STAT_LINK_UP p) = false →
    Does (.queueHoldExpiry p) (dropCopies p (SWC_OUT_UNAVAIL p) fun _ c => c.old) (onPage 8) s) ∧
  (∀ (p : Fin 25) (c : Fin 8) (x : SwCopy) (xs : List SwCopy) (s : State), s.outQ p c = x :: xs → s.flag (SWC_GCL_STAT_OPER p) = true →
    Does (.gateFitDrop p c) (dropCopies p (SWC_OUT_GATE_DROP p) fun t' c' => t' == c.val && c'.fid == x.fid) (onPage 8) s) ∧
  (∀ (p : Fin 25) (s : State), s.flag (SWC_GCL_STAT_PENDING p) = true →
    ∃ t, Completes (.gclChange p) s t ∧ t.flag (SWC_GCL_STAT_PENDING p) = false ∧ t.flag (SWC_GCL_STAT_OPER p) = true ∧
      t.get (SWC_GCL_STAT_ENTRY p) = 0 ∧ (t.gcl p).cycle = (s.gcl p).change ∧ t.bitAt (BLK_IRQ_STAT 8) 4 = true ∧
      (∀ i < 0x800, t.byte (gclOper p + i) = s.byte (gclAdmin p + i)) ∧
      (∀ a, a < gclAdmin p ∨ gclAdmin p + 0x1000 ≤ a → t.byte a = s.byte a) ∧ OnlyRegs (onPage 8) s t) ∧
  (∀ (p : Fin 25) (s : State), s.flag (SWC_GCL_STAT_OPER p) = true →
    let x := s.gcl p; let e := s.get (SWC_GCL_STAT_ENTRY p); let fin := s.entryEnd p e x.entry x.cycle
    if x.cycle + x.cyc ≤ fin then
      ∃ t, Completes (.gclEntryAdvance p) s t ∧ t.get (SWC_GCL_STAT_ENTRY p) = 0 ∧ x.cycle + x.cyc ≤ (t.gcl p).cycle ∧ Untouched (onPage 8) s t
    else ∃ t, Completes (.gclEntryAdvance p) s t ∧ t.get (SWC_GCL_STAT_ENTRY p) = (e + 1) % 256 ∧ (t.gcl p).entry = fin ∧ Untouched (onPage 8) s t) ∧
  (∀ s : State, s.flag SWC_DRAIN_STAT_BUSY = true → s.olderFrames = [] →
    ∃ t, Completes .swcDrainDone s t ∧ t.flag SWC_DRAIN_STAT_BUSY = false ∧ t.flag SWC_DRAIN_STAT_DONE = true ∧
      t.bitAt (BLK_IRQ_STAT 8) 0 = true ∧ Untouched (onPage 8) s t) ∧
  (∀ s : State, s.flag SWC_DRAIN_STAT_BUSY = true → s.flag SWC_DRAIN_CTRL_TO_MS = true →
    ∃ t, Completes .swcDrainTimeout s t ∧ t.flag SWC_DRAIN_STAT_BUSY = false ∧ t.flag SWC_DRAIN_STAT_TIMEOUT = true ∧
      t.bitAt (BLK_IRQ_STAT 8) 0 = true ∧ Untouched (onPage 8) s t)
/-- The signal router: PDUs in, timeouts, sends, signals from other devices -/
def Obligations.SignalRouterEvents : Prop :=
  (∀ (c e : Option Nat) (ce : Bool) (s : State), s.unarmed 11 = true → s.b.srt.input = [] →
    Does (.pduIngress c e ce) .skip (fun _ => false) s) ∧
  (∀ (c : Option Nat) (p : Pdu) (ps : List Pdu) (s : State), s.unarmed 11 = true → s.b.srt.input = p :: ps → s.classify p = none →
    ∃ t, Completes (.pduIngress c none false) s t ∧ t.b.srt.input = ps ∧ t.reg SRT_CNT_NO_PDU = min (2 ^ 32 - 1) (s.reg SRT_CNT_NO_PDU + 1) ∧
      Untouched (onPage 11) s t) ∧
  (∀ (c : Option Nat) (p : Pdu) (ps : List Pdu) (d : Nat) (s : State), s.unarmed 11 = true → s.b.srt.input = p :: ps → s.classify p = some d →
    Completes (.pduIngress c none false) s ((Upd.seq (updSrt fun x => { x with input := ps })
      (withDesc d false (pduRun d p c) (count SRT_CNT_NO_PDU))).run s)) ∧
  (∀ (d : Fin 65536) (s : State), s.descEn d = false → Does (.pduRxTimeout d) .skip (fun _ => false) s) ∧
  (∀ (d : Fin 65536) (s : State), s.descEn d = true → s.descOk d = true → s.dDir d = false → s.flag (BLK_STAT_ENABLED 11) = true →
    s.dTime d ≠ 0 → ∃ t, Completes (.pduRxTimeout d) s t ∧ t.bitAt (BLK_IRQ_STAT 11) 2 = true) ∧
  (∀ (d : Fin 65536) (s : State), s.unarmed 11 = true → (s.dTrig d = 1 ∨ s.dTrig d = 2) → s.dTime d ≠ 0 →
    Completes (.cyclicSendDue d) s ((withDesc d true (sendDue d) .skip).run s)) ∧
  (∀ (d : Fin 65536) (s : State), (mapGet {} s.b.srt.tx d).due = false →
    ∃ t, Completes (.minGapEnd d) s t ∧ (mapGet {} t.b.srt.tx d).gap = false ∧ Untouched (fun _ => false) s t) ∧
  (∀ (d : Fin 65536) (s : State), (mapGet {} s.b.srt.tx d).due = true → s.flag (BLK_STAT_ENABLED 11) = true →
    Completes (.minGapEnd d) s ((Upd.seq (updTx d fun x => { x with gap := false }) (sendTry d)).run s)) ∧
  (∀ (d : Fin 65536) (s : State), (mapGet {} s.b.srt.tx d).busy = true → s.flag (BLK_STAT_ENABLED 11) = true →
    Completes (.heldSendRelease d) s ((sendTry d).run s)) ∧
  (∀ s : State, s.b.srt.bundle = [] → Does .srBundleExpiry .skip (fun _ => false) s) ∧
  (∀ s : State, s.b.srt.bundle ≠ [] → ∃ t, Completes .srBundleExpiry s t ∧ t.b.srt.bundle = []) ∧
  (∀ (pid : Pid) (a : Fin 2147483648) (v : Nat) (s : State), s.unarmed 11 = true → s.flag (BLK_STAT_ENABLED 11) = true →
    Completes (.remoteSignalIn pid a v) s ((Upd.seq (sigUpdate ⟨a % 2 ^ 25, v % 2 ^ 64, pid, 0xFFFF, false, false, true, true⟩ false false) srtPack).run s)) ∧
  (∀ (pid : Pid) (a : Fin 2147483648) (v : Nat) (s : State), s.unarmed 11 = true → s.flag (BLK_STAT_ENABLED 11) = false →
    Does (.remoteSignalIn pid a v) .skip (fun _ => false) s)
/-- Epochs, banks, drains and preloads of the signal router -/
def Obligations.SignalRouterEpochs : Prop :=
  (∀ s : State, s.flag SRT_EPOCH_PENDING = true → s.flag SRT_EPOCH_APPLYING = false →
    ∃ t, Completes .epochTakesEffect s t ∧
      t.get SRT_EPOCH_EPOCH = (s.get SRT_EPOCH_EPOCH + 1) % 2 ^ (SRT_EPOCH_EPOCH.hi - SRT_EPOCH_EPOCH.lo + 1) ∧
      t.flag SRT_EPOCH_PENDING = false ∧ t.flag SRT_EPOCH_APPLYING = true ∧ t.get SRT_EPOCH_BANK = 1 - s.get SRT_EPOCH_BANK ∧
      t.b.srt.applying = s.b.srt.fill ∧ t.b.srt.fill = [] ∧ t.bitAt (BLK_IRQ_STAT 11) 16 = true) ∧
  (∀ s : State, (s.flag SRT_EPOCH_PENDING = false ∨ s.flag SRT_EPOCH_APPLYING = true) → Does .epochTakesEffect .skip (fun _ => false) s) ∧
  (∀ s : State, s.flag SRT_EPOCH_APPLYING = true →
    ∃ t, Completes .bankApplyDone s t ∧ t.flag SRT_EPOCH_APPLYING = false ∧ t.b.srt.applying = [] ∧ t.bitAt (BLK_IRQ_STAT 11) 17 = true) ∧
  (∀ s : State, s.flag SRT_EPOCH_APPLYING = false → Does .bankApplyDone .skip (fun _ => false) s) ∧
  (∀ s : State, s.flag SRT_DRAIN_STAT_BUSY = true →
    ∃ t, Completes .srtDrainDone s t ∧ t.flag SRT_DRAIN_STAT_BUSY = false ∧ t.flag SRT_DRAIN_STAT_DONE = true ∧
      t.bitAt (BLK_IRQ_STAT 11) 18 = true ∧ Untouched (onPage 11) s t) ∧
  (∀ s : State, s.flag SRT_DRAIN_STAT_BUSY = true → s.flag SRT_DRAIN_CTRL_TO_MS = true →
    ∃ t, Completes .srtDrainTimeout s t ∧ t.flag SRT_DRAIN_STAT_BUSY = false ∧ t.flag SRT_DRAIN_STAT_TIMEOUT = true ∧
      t.bitAt (BLK_IRQ_STAT 11) 18 = true ∧ Untouched (onPage 11) s t) ∧
  (∀ (s : State) (x : Nat × Nat), s.b.srt.preload = some x →
    ∃ t, Completes .rcPreloadDone s t ∧ t.b.srt.preload = none ∧ t.flag SRT_RC_STAT_PRELOADING = false ∧ t.bitAt (BLK_IRQ_STAT 11) 22 = true) ∧
  (∀ s : State, s.b.srt.preload = none → Does .rcPreloadDone .skip (fun _ => false) s)
/-- The time base: slews, the dice's copies, the pulse per second and captures -/
def Obligations.TimeBaseEvents : Prop :=
  (∀ s : State, s.flag TMB_STAT_SLEWING = true →
    ∃ t, Completes .slewDone s t ∧ t.b.tmb.acc = ((s.b.tmb.acc : Int) + s.b.tmb.rem).toNat ∧ t.b.tmb.rem = 0 ∧
      t.flag TMB_STAT_SLEWING = false ∧ t.bitAt (BLK_IRQ_STAT 12) 4 = true ∧ Untouched (onPage 12) s t) ∧
  (∀ (got : Fin 16) (s : State), s.unarmed 12 = true →
    ∃ t, Completes (.dieTimeUpdate got) s t ∧ Untouched (· == TMB_STAT) s t ∧
      ∀ d : Fin 4, t.bitAt TMB_STAT (16 + d.val) = (s.bitAt TMB_STAT (16 + d.val) && !((s.die d).on && bit got d))) ∧
  (∀ (d : Fin 4) (s : State), (s.die d).on = true →
    ∃ t, Completes (.dieUnsync d) s t ∧ t.bitAt TMB_STAT (16 + d.val) = true ∧ t.bitAt (BLK_IRQ_STAT 12) 5 = true ∧
      t.bitAt (BLK_ERR_STAT 12) TR = true ∧ Untouched (faultFoot 12) s t) ∧
  (∀ s : State, s.unarmed 12 = true → s.flag TMB_PPS_CFG_DRIVE = true → s.get MSU_BOOT_CFG_CHAIN_MODE ≠ 0 → s.flag (BLK_STAT_ENABLED 12) = true →
    s.b.tmb.sync = false → s.flag TMB_PPS_CFG_FOLLOW = false →
    ∃ t, Completes .ppsPulse s t ∧ t.b.tmb.sync = true ∧ t.flag FLK_SB_STAT_SYNC = true ∧
      t.reg TMB_PPS_CAP_LO = s.devTime % 2 ^ 32 ∧ t.bitAt (BLK_IRQ_STAT 12) 2 = true ∧ Untouched (fun a => onPage 12 a || a == FLK_SB_STAT) s t) ∧
  (∀ s : State, s.b.tmb.sync = true →
    ∃ t, Completes .ppsPulseEnd s t ∧ t.b.tmb.sync = false ∧ t.flag FLK_SB_STAT_SYNC = false ∧ Untouched (· == FLK_SB_STAT) s t) ∧
  (∀ s : State, s.b.tmb.sync = false → s.flag (BLK_STAT_ENABLED 12) = true → s.flag TMB_PPS_CFG_FOLLOW = false →
    ∃ t, Completes .ppsCapture s t ∧ t.reg TMB_PPS_CAP_LO = s.devTime % 2 ^ 32 ∧ t.bitAt (BLK_IRQ_STAT 12) 2 = true ∧
      t.b.tmb.rem = s.b.tmb.rem ∧ Untouched (onPage 12) s t) ∧
  (∀ s : State, s.b.tmb.sync = true → Does .ppsCapture .skip (fun _ => false) s) ∧
  (∀ s : State, s.flag TMB_CAN_CAP_AUTO_MS = true → s.flag (BLK_STAT_ENABLED 12) = true →
    ∃ t, Completes .canCaptureAuto s t ∧ t.reg TMB_CAN_CNT = s.canTs (s.get TMB_CAN_CAP_CH) % 2 ^ 32 ∧
      t.reg TMB_CAN_DT_LO = s.devTime % 2 ^ 32 ∧ t.bitAt (BLK_IRQ_STAT 12) 6 = true ∧ Untouched (onPage 12) s t)
/-- The sense inputs: samples, filters, thresholds, timeouts and publishing -/
def Obligations.SenseInputEvents : Prop :=
  (∀ (n : Fin 48) (raw : Fin 4096) (s : State), s.unarmed 20 = true → s.flag (SNI_IN_CFG_EN n) = true → s.flag (BLK_STAT_ENABLED 20) = true →
    s.get (SNI_IN_FILT_FILT n) = 2 → (mapGet {} s.b.sni n).first = false → s.flag (SNI_IN_PUB_ON_CHG n) = false →
    let r := s.sniCompare n raw (mapGet {} s.b.sni n).r
    ∃ t, Completes (.sniSampleDue n raw false) s t ∧ t.get (SNI_IN_RAW_LAST n) = raw ∧ t.get (SNI_IN_VAL_VALUE n) = raw ∧
      t.flag (SNI_IN_VAL_VALID n) = true ∧ t.flag (SNI_IN_VAL_STATE n) = (r != s.flag (SNI_IN_THR_INVERT n)) ∧
      (mapGet {} t.b.sni n).r = r ∧ Untouched (onPage 20) s t) ∧
  (∀ (n : Fin 48) (raw : Fin 4096) (late : Bool) (s : State), s.unarmed 20 = true → s.flag (SNI_IN_CFG_EN n) = false →
    Does (.sniSampleDue n raw late) .skip (fun _ => false) s) ∧
  (∀ (n : Fin 48) (s : State), s.flag (SNI_IN_CFG_EN n) = true → s.flag (BLK_STAT_ENABLED 20) = true →
    ∃ t, Completes (.sniConvTimeout n) s t ∧ t.flag (SNI_IN_VAL_VALID n) = false ∧ t.bitAt (BLK_IRQ_STAT 20) 2 = true ∧
      t.bitAt (BLK_ERR_STAT 20) TR = true ∧ Untouched (faultFoot 20) s t) ∧
  (∀ (n : Fin 48) (s : State), s.flag (SNI_IN_CFG_EN n) = false → Does (.sniConvTimeout n) .skip (fun _ => false) s ∧
    Does (.sniPublish n) .skip (fun _ => false) s) ∧
  (∀ (n : Fin 48) (s : State), s.flag (SNI_IN_PUB_EN n) = true → s.flag (SNI_IN_PUB_CFG_PERIOD_MS n) = true → s.flag (SNI_IN_CFG_EN n) = true →
    s.flag (BLK_STAT_ENABLED 20) = true →
    Completes (.sniPublish n) s ((sigInternal (s.devNum * 2 ^ 25 + s.get (SNI_IN_PUB_GSID n)) (s.reg (SNI_IN_VAL n))).run s))
/-- The Ironwood triplets: votes, resynchronisation, self-tests, timers and a debugger's halts -/
def Obligations.TripletEvents : Prop :=
  (∀ (x : Fin 2) (s : State), s.unarmed (1 + x.val) = true → Does (.iwVote x 0 0 0 none) .skip (fun _ => false) s) ∧
  (∀ (x : Fin 2) (v c part : Fin 5) (s : State), s.unarmed (1 + x.val) = true → s.iwRunning x = true → part ≠ 0 →
    ∃ t, Completes (.iwVote x v c part none) s t ∧ t.get (IW_STAT_STATE x) = 4 ∧ t.get (IW_STAT_RUNNING x) = 0 ∧
      t.flag (IW_FATAL_CAUSE_VALID x) = true ∧ t.get (IW_FATAL_CAUSE_CAUSE x) = [0, 3, 5, 6, 8].getD part 0 ∧
      t.bitAt (BLK_IRQ_STAT (1 + x.val)) 2 = true ∧ Untouched (fun a => faultFoot (1 + x.val) a || onPage 3 a) s t) ∧
  (∀ (x : Fin 2) (v c : Fin 5) (s : State), s.unarmed (1 + x.val) = true → s.iwRunning x = true → s.iwSplit x = false →
    s.flag (IW_STAT_DMR x) = true → (v ≠ 0 ∨ c ≠ 0) →
    ∃ t, Completes (.iwVote x v c 0 none) s t ∧ t.get (IW_STAT_STATE x) = 4 ∧ t.get (IW_FATAL_CAUSE_CAUSE x) = 2 ∧
      Untouched (fun a => faultFoot (1 + x.val) a || onPage 3 a) s t) ∧
  (∀ (x : Fin 2) (k : Fin 3) (s : State), s.unarmed (1 + x.val) = true → s.get (IW_STAT_STATE x) = 2 → s.iwSplit x = false →
    s.flag (IW_STAT_DMR x) = false → (s.iw x).slice = none → s.get (iwLevel x k) + 1 < s.iwPermTh x →
    ∃ t, Completes (.iwVote x ⟨k.val + 1, by omega⟩ 0 0 none) s t ∧ t.get (IW_STAT_STATE x) = 3 ∧ t.iwRuns x k = false ∧
      t.get (iwLevel x k) = s.get (iwLevel x k) + 1 ∧ (t.iw x).resync = some (k.val, false) ∧ Untouched (onPage (1 + x.val)) s t) ∧
  (∀ (x : Fin 2) (ok : Bool) (s : State), s.get (IW_STAT_STATE x) ≠ 3 → Does (.resyncDone x ok) .skip (fun _ => false) s) ∧
  (∀ (x : Fin 2) (k : Nat) (s : State), s.get (IW_STAT_STATE x) = 3 → (s.iw x).resync = some (k, false) → k < 3 →
    ∃ t, Completes (.resyncDone x true) s t ∧ t.get (IW_STAT_STATE x) = 2 ∧ t.iwRuns x k = true ∧ (t.iw x).resync = none ∧
      t.bitAt (BLK_IRQ_STAT (1 + x.val)) 0 = true ∧ Untouched (faultFoot (1 + x.val)) s t) ∧
  (∀ (x : Fin 2) (k : Nat × Bool) (s : State), s.get (IW_STAT_STATE x) = 3 → (s.iw x).resync = some k →
    ∃ t, Completes (.resyncDone x false) s t ∧ t.get (IW_STAT_STATE x) = 4 ∧ t.get (IW_FATAL_CAUSE_CAUSE x) = 1 ∧
      Untouched (fun a => faultFoot (1 + x.val) a || onPage 3 a) s t) ∧
  (∀ (x : Fin 2) (s : State), s.pwr ≤ 1 →
    ∃ t, Completes (.iwDecayTick x) s t ∧ Untouched (· == IW_CORE_FLT x) s t ∧
      ∀ k < 3, t.get (iwLevel x k) = s.get (iwLevel x k) - 1) ∧
  (∀ (x : Fin 2) (s : State), s.iwRunning x = true → s.iwSplit x = false →
    (∃ t, Completes (.voterSelftestInject x true) s t ∧ t.get (IW_STAT_STATE x) = s.get (IW_STAT_STATE x) ∧
      Untouched (onPage (1 + x.val)) s t) ∧
    (∃ t, Completes (.voterSelftestInject x false) s t ∧ t.get (IW_STAT_STATE x) = 4 ∧ t.get (IW_FATAL_CAUSE_CAUSE x) = 4)) ∧
  (∀ (x : Fin 2) (s : State), s.get (IW_STAT_STATE x) = 1 → s.iwSplit x = false → s.get (IW_STAT_RETIRED x) = 0 →
    ∃ t, Completes (.startupSelftestDone x 0) s t ∧ t.get (IW_STAT_STATE x) = 2 ∧ t.get (IW_STAT_RUNNING x) = 7 ∧
      Untouched (· == IW_STAT x) s t) ∧
  (∀ (x c : Fin 2) (s : State), s.iwSet x c = true →
    ∃ t, Completes (.machineTimerInterrupt x c) s t ∧ ((t.iw x).timer.contains c.val = decide (s.timeCmp x c ≤ s.devTime)) ∧
      Untouched (fun _ => false) s t) ∧
  (∀ (n : Fin 18) (s : State), s.debugScope n = true → n.val < 12 →
    ∃ t, Completes (.debugHalt n) s t ∧ t.b.vlt.halted.contains n.val = true ∧ Untouched (fun _ => false) s t) ∧
  (∀ (n : Fin 18) (s : State), s.debugScope n = false → Does (.debugHalt n) .skip (fun _ => false) s) ∧
  (∀ (n : Fin 18) (s : State), n.val < 12 →
    ∃ t, Completes (.debugResume n) s t ∧ t.b.vlt.halted.contains n.val = false ∧ Untouched (fun _ => false) s t)
/-- The pair controller: boundaries, the compare point, snapshots and self-test units -/
def Obligations.PairControllerEvents : Prop :=
  (∀ (ok : Fin 32) (s : State), s.unarmed 3 = true → s.locked = true → s.pwr ≤ 1 → s.flag (BLK_STAT_ENABLED 3) = true →
    ∃ t, Completes (.cycleBoundary ok) s t ∧ t.reg PAR_SEQ = (s.reg PAR_SEQ + 1) % 2 ^ 32 ∧ t.b.par.compared = false ∧
      t.b.par.snap.isSome = true) ∧
  (∀ (ok : Fin 32) (s : State), s.unarmed 3 = true → s.locked = false → Does (.cycleBoundary ok) .skip (fun _ => false) s) ∧
  (∀ (s : State) (l : List Byte), s.unarmed 3 = true → s.b.par.snap = some l →
    ∃ t, Completes .snapshotReady s t ∧ t.bitAt (BLK_IRQ_STAT 3) 0 = true ∧ t.b.par.snap = none) ∧
  (∀ s : State, s.unarmed 3 = true → s.b.par.snap = none → Does .snapshotReady .skip (fun _ => false) s) ∧
  (∀ s : State, s.locked = true → s.pwr ≤ 1 → ∃ t, Completes .comparePoint s t ∧ t.b.par.compared = true) ∧
  (∀ s : State, s.locked = false → Does .comparePoint .skip (fun _ => false) s) ∧
  (∀ s : State, s.locked = true → s.pwr ≤ 1 →
    ∃ t, Completes .mmDecayTick s t ∧ t.get PAR_MM_STAT_LEVEL = s.get PAR_MM_STAT_LEVEL - 1 ∧ Untouched (· == PAR_MM_STAT) s t) ∧
  (∀ (s : State) (x : Nat), s.standby = some x → s.flag PAR_MODE_ST_EN = true → s.b.par.tried = false → s.b.par.unit = none →
    ∃ t, Completes (.stUnitStart false) s t ∧ t.b.par.tried = true ∧ t.b.par.unit = none ∧ Untouched (· == PAR_ST_STAT) s t) ∧
  (∀ (s : State) (x : Nat), s.standby = some x → s.flag PAR_MODE_ST_EN = true → s.b.par.tried = false → s.b.par.unit = none →
    s.get (IW_STAT_STATE x) = 2 →
    ∃ t, Completes (.stUnitStart true) s t ∧ t.b.par.unit = some x ∧ Untouched (· == IW_STAT x) s t) ∧
  (∀ (v : Bool) (s : State) (x : Nat), s.b.par.unit = some x → (s.iw x).slice = none →
    ∃ t, Completes (.stUnitEnd v true) s t ∧ t.b.par.unit = none ∧ t.get PAR_ST_STAT_MARCH = (s.get PAR_ST_STAT_MARCH + 1) % 256 ∧
      t.get PAR_ST_STAT_SLICE = s.get PAR_ST_STAT_SLICE ∧ Untouched (· == PAR_ST_STAT) s t) ∧
  (∀ (a b : Bool) (s : State), s.b.par.unit = none → Does (.stUnitEnd a b) .skip (fun _ => false) s)
/-- Chain links: training, replay, breaks, timers and the sideband wires -/
def Obligations.ChainLinkEvents : Prop :=
  (∀ (c : Fin 2) (w : Fin 3) (h u : Bool) (m : Fin 4) (d : Option (Fin 64)) (s : State), s.cellOn 13 c = true → s.flag (BLK_STAT_ENABLED 13) = true →
    s.get (FLK_LINK_STAT_STATE c) ≠ 0 → s.get (FLK_LINK_STAT_STATE c) ≠ 4 → w ≠ 0 → w.val ≤ s.lanes c → s.wrongPartner c h u m (d.map (·.val)) = true →
    ∃ t, Completes (.finzaTrained c w h u m d) s t ∧ t.get (FLK_LINK_STAT_STATE c) = (if s.get (FLK_LINK_STAT_STATE c) = 5 then 5 else 2) ∧ t.bitAt (CELL_IRQ_STAT 13 c) 3 = true ∧
      t.flag (FLK_LINK_STAT_PARTNER_HOST c) = h ∧ Untouched (onPage 13) s t) ∧
  (∀ (c : Fin 2) (h u : Bool) (m : Fin 4) (d : Option (Fin 64)) (s : State), s.cellOn 13 c = true → s.flag (BLK_STAT_ENABLED 13) = true →
    s.get (FLK_LINK_STAT_STATE c) = 5 → s.lanes c = 2 → s.wrongPartner c h u m (d.map (·.val)) = false →
    ∃ t, Completes (.finzaTrained c 2 h u m d) s t ∧ t.get (FLK_LINK_STAT_STATE c) = 4 ∧ t.get (FLK_LINK_STAT_WIDTH c) = 2 ∧
      t.bitAt (CELL_IRQ_STAT 13 c) 2 = true ∧ SameMem s t) ∧
  (∀ (c : Fin 2) (s : State), s.get (FLK_LINK_STAT_STATE c) = 5 → Completes (.finzaTrainTimeout c) s ((portDown c 6).run s)) ∧
  (∀ (c : Fin 2) (s : State), s.get (FLK_LINK_STAT_STATE c) = 6 →
    ∃ t, Completes (.finzaDownRetry c) s t ∧ t.port c = {} ∧ Untouched (fun _ => false) s t) ∧
  (∀ (c : Fin 2) (s : State), s.get (FLK_LINK_STAT_WIDTH c) = 1 → s.get (FLK_LINK_STAT_STATE c) = 4 →
    ∃ t, Completes (.finzaWidthRetry c) s t ∧ t.get (FLK_LINK_STAT_STATE c) = 5 ∧
      t.reg (FLK_CNT_RETRAIN c) = min (2 ^ 32 - 1) (s.reg (FLK_CNT_RETRAIN c) + 1) ∧ Untouched (onPage 13) s t) ∧
  (∀ (c : Fin 2) (s : State), s.get (FLK_LINK_STAT_STATE c) = 4 → (s.port c).unacked ≠ [] → (s.port c).replays < 3 →
    ∃ t, Completes (.finzaReplayTimeout c) s t ∧ (t.port c).replays = (s.port c).replays + 1 ∧
      t.reg (FLK_CNT_REPLAY c) = min (2 ^ 32 - 1) (s.reg (FLK_CNT_REPLAY c) + 1) ∧ Untouched (onPage 13) s t) ∧
  (∀ (c : Fin 2) (s : State), s.get (FLK_LINK_STAT_STATE c) = 4 →
    ∃ t, Completes (.finzaRxTimeout c) s t ∧
      t.reg (FLK_CNT_PARTIAL_DROP c) = min (2 ^ 32 - 1) (s.reg (FLK_CNT_PARTIAL_DROP c) + 1) ∧ Untouched (onPage 13) s t) ∧
  (∀ (c : Fin 2) (s : State), ∃ t, Completes (.finzaAckTimer c) s t ∧ (t.port c).acc = 0 ∧ Untouched (fun _ => false) s t) ∧
  (∀ (c : Fin 2) (s : State), s.portUp c = true →
    ∃ t, Completes (.finzaLinkDown c) s t ∧ t = (portDown c 6).run s ∧ t.bitAt (CELL_IRQ_STAT 13 c) 0 = true) ∧
  (∀ s : State, s.chainMode ≠ 0 → s.flag FLK_SB_STAT_OWN_IRQ = false →
    ∃ t, Completes .sidebandIrqFall s t ∧ t.bitAt (BLK_IRQ_STAT 13) 3 = true ∧ Untouched (onPage 13) s t) ∧
  (∀ s : State, s.chainMode ≠ 0 → s.flag MSU_FAULT_STAT_FAULT_N = false → Does .sidebandFaultLow (report 29 none TR (some 4)) faultRegs s)
/-- The chain's packets, reads, enumeration and tunnel -/
def Obligations.ChainPacketEvents : Prop :=
  (∀ (c : Fin 2) (i : FinzaIn) (s : State), s.unarmed 13 = true → s.get (FLK_LINK_STAT_STATE c) ≠ 4 →
    Does (.finzaPacketRx c i) .skip (fun _ => false) s) ∧
  (∀ (c : Fin 2) (p : Pkt) (q : Fin 4096) (s : State), s.unarmed 13 = true → s.get (FLK_LINK_STAT_STATE c) = 4 →
    s.flag (BLK_STAT_ENABLED 13) = true →
    ∃ t, Completes (.finzaPacketRx c (.packet p q 1)) s t ∧ (t.port c).nak = true ∧
      t.reg (FLK_CNT_CRC_ERR c) = min (2 ^ 32 - 1) (s.reg (FLK_CNT_CRC_ERR c) + 1) ∧ Untouched (onPage 13) s t) ∧
  (∀ (c : Fin 2) (p : Pkt) (q : Fin 4096) (s : State), s.unarmed 13 = true → s.get (FLK_LINK_STAT_STATE c) = 4 →
    s.flag (BLK_STAT_ENABLED 13) = true → q.val = (s.port c).rxSeq →
    Completes (.finzaPacketRx c (.packet p q 0)) s ((seqs [
      updPort c fun x => { x with rxSeq := (x.rxSeq + 1) % 4096, nak := false, acc := if 15 ≤ x.acc then 0 else x.acc + 1 },
      count (FLK_CNT_RX_PKT c), elementOk 13 c, packetIn pktLocal c p]).run s)) ∧
  (∀ s : State, s.flag FLK_DEV_VALID = true → s.moduleBelow = false → s.chainMode ≠ 0 → Completes .enumTailTimeout s (tailReport.run s)) ∧
  (∀ s : State, s.flag FLK_DEV_VALID = false → Does .enumTailTimeout .skip (fun _ => false) s) ∧
  (∀ (g : Fin 256) (r : ChainRead) (s : State), s.b.flk.reads.find? (·.tag == g.val) = some r →
    Completes (.chainReadTimeout g) s ((Upd.seq (tagFree r.tag) (chainReadEnd r 3 0 [])).run s)) ∧
  (∀ (g : Fin 256) (s : State), s.b.flk.reads.find? (·.tag == g.val) = none → Does (.chainReadTimeout g) .skip (fun _ => false) s) ∧
  (∀ (n : Fin 64) (r : Reasm) (s : State), mapGet none s.b.flk.reasm n = some r →
    ∃ t, Completes (.tunnelReasmTimeout n) s t ∧ mapGet none t.b.flk.reasm n = none ∧ t.bitAt (BLK_IRQ_STAT 13) 5 = true ∧
      Untouched (onPage 13) s t) ∧
  (∀ (m : Fin 281474976710656) (s : State), s.flag FLK_TUN_CFG_AGE_S = true →
    ∃ t, Completes (.tunnelAgeOut m false) s t ∧ (t.b.flk.learn.any (·.1 == m.val)) = false ∧ Untouched (fun _ => false) s t)
/-- The host bridge: timeouts, lost writes, barriers, back-off and semaphores -/
def Obligations.HostBridgeEvents : Prop :=
  (∀ (i : Nat) (r : HostRd) (s : State), s.b.hbr.reads[i]? = some r →
    ∃ t, Completes (.hostReadTimeout i false) s t ∧ t.b.hbr.reads = s.b.hbr.reads.erase r ∧ t.b.fab.resp.ok = false ∧
      t.bitAt (BLK_IRQ_STAT 14) 1 = true ∧ t.get HBR_RD_ERR_KIND = 1 ∧ Untouched (onPage 14) s t) ∧
  (∀ (b : Barrier) (s : State), s.b.hbr.barriers.find? (·.host) = some b →
    ∃ t, Completes (.hostReadTimeout 0 true) s t ∧ t.b.hbr.barriers = s.b.hbr.barriers.erase b ∧ t.bitAt (BLK_IRQ_STAT 14) 1 = true ∧
      Untouched (onPage 14) s t) ∧
  (∀ (i : Nat) (r : DevRd) (s : State), s.b.hbr.devRd[i]? = some r →
    ∃ t, Completes (.devReadTimeout i) s t ∧ t.b.hbr.devRd = s.b.hbr.devRd.erase r ∧ t.bitAt (BLK_IRQ_STAT 14) 2 = true ∧
      t.reg HBR_CNT_DEV_CPL_TO = min (2 ^ 32 - 1) (s.reg HBR_CNT_DEV_CPL_TO + 1) ∧ Untouched (onPage 14) s t) ∧
  (∀ (i : Nat) (s : State), s.b.hbr.devRd[i]? = none → Does (.devReadTimeout i) .skip (fun _ => false) s) ∧
  (∀ (v : Bool) (n : Fin 256) (w : Fin 65536) (s : State), s.b.iom.copy = none → s.chainSent (if v then n.val else 256) w = none →
    Does (.lostPacketRx v n w) .skip (fun _ => false) s) ∧
  (∀ (v : Bool) (n : Fin 256) (w : Fin 65536) (x : ChainWrite) (s : State), s.b.iom.copy = none →
    s.chainSent (if v then n.val else 256) w = some x → x.isSig = false →
    Completes (.lostPacketRx v n w) s ((Upd.seq (forget (if v then n.val else 256) w)
      (lateRecord (if v then n.val else 256) 2 0 x.dev x.pid x.addr x.len w x.gen x.host)).run s)) ∧
  (∀ (w0 w1 w2 w3 : Word) (x : ChainWrite) (s : State), s.b.iom.copy = none → bit w0.toNat 0 = false →
    s.chainSent 256 (w1.toNat / 2 ^ 16 % 2 ^ 16) = some x → x.isSig = false →
    Completes (.writeFaultRx w0 w1 w2 w3) s ((Upd.seq (forget 256 (w1.toNat / 2 ^ 16 % 2 ^ 16))
      (lateRecord 256 (bits w0.toNat 30 28) (bits w0.toNat 27 24) (bits w0.toNat 21 16) (bits w0.toNat 13 8)
        (w2.toNat + bits w3.toNat 7 0 * 2 ^ 32) (bits w3.toNat 24 16) (w1.toNat / 2 ^ 16 % 2 ^ 16) x.gen x.host)).run s)) ∧
  (∀ (w0 w1 w2 w3 : Word) (s : State), s.b.iom.copy = none →
    s.chainSent (if bit w0.toNat 0 then w1.toNat % 256 else 256) (w1.toNat / 2 ^ 16 % 2 ^ 16) = none →
    Does (.writeFaultRx w0 w1 w2 w3) .skip (fun _ => false) s) ∧
  (∀ (n : Fin 257) (b : Barrier) (s : State), (s.b.hbr.barriers.find? fun b => b.recN == n.val && b.devs.isEmpty) = some b →
    (s.b.hbr.heldWr.any fun w => w.recN == n.val && decide ((b.last + 65536 - w.wseq) % 65536 < 32768)) = false →
    Completes (.wsyncDone n) s ((wsyncEnd b false).run s)) ∧
  (∀ (n : Fin 257) (s : State), (s.b.hbr.barriers.find? fun b => b.recN == n.val && b.devs.isEmpty) = none →
    Does (.wsyncDone n) .skip (fun _ => false) s) ∧
  (∀ (i : Nat) (r : DevRd) (s : State), s.b.hbr.backoff[i]? = some r →
    Completes (.backoffRetry i) s ((Upd.seq (updHbr fun h => { h with backoff := h.backoff.erase r }) (devRdTry r)).run s)) ∧
  (∀ (i : Fin 64) (s : State), s.flag (HBR_SEM_HELD i) = true →
    ∃ t, Completes (.semTimeout i) s t ∧ t.reg (HBR_SEM i) = 0 ∧ t.bitAt (BLK_IRQ_STAT 14) 3 = true ∧ Untouched (onPage 14) s t) ∧
  (∀ (i : Fin 64) (s : State), s.flag (HBR_SEM_HELD i) = false → Does (.semTimeout i) .skip (fun _ => false) s)
/-- Requests at the fabric: refusals, waits, memory, registers, arbitration and isolation -/
def Obligations.FabricRequests : Prop :=
  (∀ (q : FabReq) (s : State) (a : Nat), deviceGuard q s = some a → exec (.fabricRequest q) s = .refused (.deviceWindow a)) ∧
  (∀ (q : FabReq) (s : State), deviceGuard q s = none → exec (.fabricRequest q) s = .next (settle.run ((fabricRequest q).run s))) ∧
  (∀ (q : FabReq) (s : State), s.canRequest q = false → Does (.fabricRequest q) .skip (fun _ => false) s) ∧
  (∀ (q : FabReq) (s : State), s.canRequest q = true → s.coreReach q.ctx q.addr (reqLen q) = .fault →
    Does (.fabricRequest q) (answer (errResp 0)) (fun _ => false) s) ∧
  (∀ (q : FabReq) (s : State) (a : Nat), s.canRequest q = true → s.coreReach q.ctx q.addr (reqLen q) = .tcm a → q.kind.val = 0 → q.ecc.val = 0 →
    s.b.mem.tcmBad = [] → Does (.fabricRequest q) (answer (okResp (s.bytes a (reqLen q)))) (fun _ => false) s) ∧
  (∀ (q : FabReq) (s : State) (f : Nat), s.canRequest q = true → s.coreReach q.ctx q.addr (reqLen q) = .fabric f → f < 1099511627776 →
    let a := s.resolve f
    s.muted (s.ctxRegion q.ctx) q.ctx a = true → Does (.fabricRequest q) (answer (errResp 5)) (fun _ => false) s) ∧
  (∀ (q : FabReq) (s : State) (f : Nat), s.canRequest q = true → s.coreReach q.ctx q.addr (reqLen q) = .fabric f → f < 1099511627776 →
    let a := s.resolve f
    deviceGuard q s = none → s.muted (s.ctxRegion q.ctx) q.ctx a = false → s.contends (s.ctxRegion q.ctx) (withAddr q f) = true →
    ∃ (t : State) (w : WaitReq), Completes (.fabricRequest q) s t ∧ t.b.fab.waiting = s.b.fab.waiting ++ [w] ∧ w.q = withAddr q f ∧
      w.point = s.ctxRegion q.ctx ∧ Untouched (fun _ => false) s t) ∧
  (∀ (q : FabReq) (s : State) (f c : Nat), s.canRequest q = true → s.coreReach q.ctx q.addr (reqLen q) = .fabric f → f < 1099511627776 →
    let a := s.resolve f
    s.muted (s.ctxRegion q.ctx) q.ctx a = false → s.contends (s.ctxRegion q.ctx) (withAddr q f) = false →
    s.checkAt (s.ctxPid q.ctx) a (reqLen q) q.kind = c → c ≠ 0 →
    ∃ t, Completes (.fabricRequest q) s t ∧ t.b.fab.resp = errResp c ∧
      Untouched (fun a => faultRegs a || onPage 23 a || onPage 24 a || onPage 25 a || onPage 26 a || onPage 27 a) s t) ∧
  (∀ (q : FabReq) (s : State) (f : Nat), s.canRequest q = true → s.coreReach q.ctx q.addr (reqLen q) = .fabric f → f < 1099511627776 →
    let a := s.resolve f
    s.muted (s.ctxRegion q.ctx) q.ctx a = false → s.contends (s.ctxRegion q.ctx) (withAddr q f) = false → q.kind.val = 1 →
    placeOf a = .sram → s.checkAt (s.ctxPid q.ctx) a q.data.length 1 = 0 →
    s.mustWait (s.ctxRegion q.ctx) (s.ctxPid q.ctx).1 a q.data.length = false → q.cache.val = 0 → s.b.mem.poison = [] →
    ∃ t, Completes (.fabricRequest q) s t ∧ t.b.fab.resp = okResp [] ∧
      (∀ i, i < q.data.length → t.byte (a + i) = q.data.getD i 0) ∧
      (∀ x, x < a ∨ a + q.data.length ≤ x → t.byte x = s.byte x)) ∧
  (∀ (q : FabReq) (s : State) (f : Nat), s.canRequest q = true → s.coreReach q.ctx q.addr (reqLen q) = .fabric f → f < 1099511627776 →
    let a := s.resolve f
    s.muted (s.ctxRegion q.ctx) q.ctx a = false → s.contends (s.ctxRegion q.ctx) (withAddr q f) = false → q.kind.val = 0 →
    q.ecc.val = 0 → q.cache.val = 0 → placeOf a = .sram → s.checkAt (s.ctxPid q.ctx) a q.len 0 = 0 →
    s.mustWait (s.ctxRegion q.ctx) (s.ctxPid q.ctx).1 a q.len = false → s.b.mem.poison = [] →
    ∃ t, Completes (.fabricRequest q) s t ∧ t.b.fab.resp = okResp (s.bytes a q.len) ∧ SameMem s t) ∧
  (∀ (pid : Pid) (a : Fin 1099511627776) (v : Word) (s : State) (c : Nat), s.pwr ≤ 1 → s.checkAt (pid, true) (a / 4 * 4) 4 1 = c → c ≠ 0 →
    ∃ t, Completes (.registerWrite pid a v) s t ∧ t.b.fab.resp = errResp c ∧
      Untouched (fun a => faultRegs a || onPage 23 a || onPage 24 a || onPage 25 a || onPage 26 a || onPage 27 a) s t) ∧
  (∀ (pid : Pid) (a : Fin 1099511627776) (v : Word) (s : State) (k u : Nat) (c : Option Nat), s.pwr ≤ 1 → s.checkAt (pid, true) (a / 4 * 4) 4 1 = 0 →
    touched (a / 4 * 4) = some (u, c) → s.unarmed u = true →
    placeOf (a / 4 * 4) = .page k → k ≠ 32 → s.writeCause false pid (a / 4 * 4) v.toNat ≠ 0 →
    ∃ t, Completes (.registerWrite pid a v) s t ∧ t.b.fab.resp = errResp (s.writeCause false pid (a / 4 * 4) v.toNat) ∧
      t.reg MSU_ACC_VIOL_ADDR_LO = a / 4 * 4 % 2 ^ 32 ∧
      t.reg MSU_ACC_VIOL_CNT = min (2 ^ 32 - 1) (s.reg MSU_ACC_VIOL_CNT + 1) ∧ Untouched (fun a => faultRegs a || onPage 27 a) s t) ∧
  (∀ (pid : Pid) (a : Fin 1099511627776) (v : Word) (s : State) (k u : Nat) (c : Option Nat), s.pwr ≤ 1 → s.checkAt (pid, true) (a / 4 * 4) 4 1 = 0 →
    touched (a / 4 * 4) = some (u, c) → s.unarmed u = true →
    placeOf (a / 4 * 4) = .page k → k ≠ 32 → s.writeCause false pid (a / 4 * 4) v.toNat = 0 →
    Completes (.registerWrite pid a v) s ((Upd.seq (applyWrite .loc false pid (a / 4 * 4) v.toNat) (answer (okResp []))).run s)) ∧
  (∀ (pid : Pid) (a : Fin 1099511627776) (v : Word) (s : State), 1 < s.pwr → Does (.registerWrite pid a v) .skip (fun _ => false) s) ∧
  (∀ (pid : Pid) (s : State), s.pwr ≤ 1 → s.unarmed 27 = true →
    ∃ t, Completes (.clearOnRead pid ⟨MSU_ACC_VIOL_ADDR_HI, by decide⟩) s t ∧ t.b.fab.resp = okResp (leBytes 4 (s.reg MSU_ACC_VIOL_ADDR_HI)) ∧
      t.get ⟨MSU_ACC_VIOL_ADDR_HI, 31, 28⟩ = 0 ∧ Untouched (· == MSU_ACC_VIOL_ADDR_HI) s t) ∧
  (∀ (r : Fin 4) (w : WaitReq) (s : State), s.get (RG_QOS_CFG_AGE_LIMIT r) ≠ 0 →
    (s.b.fab.waiting.find? fun w => w.point == r.val && decide (2 ≤ w.cls) && !w.prom.contains r.val) = some w →
    ∃ t, Completes (.agePromotion r) s t ∧ t.reg (RG_PROMOTE_CNT r) = min (2 ^ 32 - 1) (s.reg (RG_PROMOTE_CNT r) + 1) ∧
      t.b.fab.waiting = s.b.fab.waiting.map (fun x => if x = w then { x with prom := r.val :: x.prom } else x) ∧
      Untouched (· == RG_PROMOTE_CNT r) s t) ∧
  (∀ (r : Fin 4) (s : State), (s.get (RG_QOS_CFG_AGE_LIMIT r) = 0 ∨
    (s.b.fab.waiting.find? fun w => w.point == r.val && decide (2 ≤ w.cls) && !w.prom.contains r.val) = none) →
    Does (.agePromotion r) .skip (fun _ => false) s) ∧
  (∀ s : State, ∃ t, Completes .bwPeriodStart s t ∧ t.b.fab.moved = [] ∧ Untouched (fun _ => false) s t) ∧
  (∀ (r : Fin 4) (s : State), ∃ t, Completes (.rtRegulatorPeriod r) s t ∧ mapGet 0 t.b.fab.rtUsed r = 0 ∧ Untouched (fun _ => false) s t) ∧
  (∀ (g : Fin 256) (r : ChainRead) (s : State), s.isolated 1 = true →
    (s.b.flk.reads.find? fun r => r.tag == g.val && ((r.kind == 0 && s.ctxRegion r.idx == 0) || r.kind == 3)) = some r → r.kind = 0 →
    ∃ t, Completes (.isolationResponseTimeout g) s t ∧ t.b.fab.resp = errResp 5 ∧ Untouched (fun _ => false) s t) ∧
  (∀ (g : Fin 256) (s : State), s.isolated 1 = false → Does (.isolationResponseTimeout g) .skip (fun _ => false) s)
/-- Accesses of the PCIe host, the host's and the owners' barriers, and the ends of DMA channels -/
def Obligations.HostAccesses : Prop :=
  (∀ (f : Fin 64) (b : Bool) (o : Fin 17179869184) (d : List Byte) (e : Fin 4) (s : State), s.unarmed 14 = true → s.hostOpen = false →
    Does (.hostWrite f b o d e) .skip (fun _ => false) s) ∧
  (∀ (f : Fin 64) (b : Bool) (o : Fin 17179869184) (d : List Byte) (s : State), s.unarmed 14 = true → s.hostOpen = true →
    d ≠ [] → s.b.hbr.heldWr.length < 256 →
    Does (.hostWrite f b o d 3) (aerLog ⟨f, .poisoned, true, 1, o, d.length⟩) (fun _ => false) s) ∧
  (∀ (f : Fin 64) (b : Bool) (o : Fin 17179869184) (d : List Byte) (e : Fin 4) (s : State), s.unarmed 14 = true → s.hostOpen = true →
    d ≠ [] → s.b.hbr.heldWr.length < 256 → e ≠ 3 → s.flag (BLK_STAT_ENABLED 14) = false →
    Does (.hostWrite f b o d e) (answer (errResp 0)) (fun _ => false) s) ∧
  (∀ (f : Fin 64) (b : Bool) (o : Fin 17179869184) (d : List Byte) (v w : Nat) (s : State), s.unarmed 14 = true → s.hostOpen = true →
    d ≠ [] → s.b.hbr.heldWr.length < 256 → s.flag (BLK_STAT_ENABLED 14) = true → s.hostPlace f b o = .msix v w →
    Does (.hostWrite f b o d 0) (.seq (count HBR_CNT_HOST_WR) (tableWrite f v w d)) (onPage 14) s) ∧
  (∀ (f : Fin 64) (b : Bool) (o : Fin 17179869184) (d : List Byte) (a : Nat) (s : State), s.unarmed 14 = true → s.hostOpen = true →
    d ≠ [] → d.length ≤ 256 → s.b.hbr.heldWr.length < 256 → s.flag (BLK_STAT_ENABLED 14) = true → s.hostPlace f b o = .fabric a →
    Completes (.hostWrite f b o d 0) s ((Upd.seq (count HBR_CNT_HOST_WR) (takeWseq (s.hostRec f) fun q =>
      hostWrSend ⟨f, s.hostRec f, q, a, d⟩)).run s)) ∧
  (∀ (f : Fin 64) (b : Bool) (o : Fin 17179869184) (n : Fin 4097) (x : Option (Fin 3 × List Byte)) (e : Fin 4) (s : State), s.unarmed 14 = true →
    s.hostOpen = false → Does (.hostRead f b o n x e) .skip (fun _ => false) s) ∧
  (∀ (f : Fin 64) (b : Bool) (o : Fin 17179869184) (n : Fin 4097) (x : Option (Fin 3 × List Byte)) (s : State), s.unarmed 14 = true →
    s.hostOpen = true → n ≠ 0 → s.flag (BLK_STAT_ENABLED 14) = true → s.hostPlace f b o = .zero →
    ∃ t, Completes (.hostRead f b o n x 0) s t ∧ t.b.fab.resp = { ok := true, data := List.replicate n 0 } ∧
      t.reg HBR_CNT_HOST_RD = min (2 ^ 32 - 1) (s.reg HBR_CNT_HOST_RD + 1) ∧ Untouched (· == HBR_CNT_HOST_RD) s t) ∧
  (∀ (f : Fin 64) (b : Bool) (o : Fin 17179869184) (n : Fin 4097) (a : Nat) (s : State), s.unarmed 14 = true →
    s.hostOpen = true → n ≠ 0 → s.flag (BLK_STAT_ENABLED 14) = true → s.hostPlace f b o = .fabric a →
    Completes (.hostRead f b o n none 0) s ((seqs [count HBR_CNT_HOST_RD, updHbr fun h => { h with next := h.next + 1 },
      hostRdStart ⟨s.b.hbr.next, f, a, n, none, false, 0, []⟩]).run s)) ∧
  (∀ (pid : Pid) (s : State), s.pwr ≤ 1 → s.checkAt (pid, true) HBR_WSYNC 4 0 = 0 → s.unarmed 14 = true → s.flag (BLK_CTRL_ISOLATE 14) = false →
    Does (.wsyncBarrier pid ⟨256, by decide⟩) (wsyncStart 256 false none) (onPage 14) s) ∧
  (∀ (x : Fin 2) (c : Fin 4) (s : State), s.unarmed (1 + x.val) = true →
    (s.flag (IW_DMA_STAT_BUSY x c) = false ∨ s.iwDmaRuns x = false ∨ s.b.mem.held = true) →
    Does (.iwDmaDone x c) .skip (fun _ => false) s) ∧
  (∀ (x : Fin 2) (c : Fin 4) (s : State), s.unarmed (1 + x.val) = true → s.flag (IW_DMA_STAT_BUSY x c) = true → s.iwDmaRuns x = true →
    s.b.mem.held = false → let (src, dst, n) := s.iwDmaArgs x c
    Completes (.iwDmaDone x c) s ((iwDmaCopy x c false (iwDmaFuel n) src dst n).run s))
/-- Glade: samples, designated loads, services, the watchdog, false wakes and the store -/
def Obligations.GladeEvents : Prop :=
  (∀ (c : Fin 32) (v : Fin 1024) (late fail : Bool) (s : State), s.unarmed 22 = true → s.cellOn 22 c = false →
    Does (.gladeSampleDue c v late fail) .skip (fun _ => false) s) ∧
  (∀ (c : Fin 32) (v : Fin 1024) (fail : Bool) (s : State), s.unarmed 22 = true → s.cellOn 22 c = true → s.pwr ≠ 4 →
    Completes (.gladeSampleDue c v false fail) s ((Upd.seq (elementOk 22 c.val) (cellTakes c v false fun ch => whenU ch (evaluate (2 ^ c.val) false none fail))).run s)) ∧
  (∀ (c : Fin 32) (v : Fin 1024) (fail : Bool) (s : State), s.unarmed 22 = true → s.cellOn 22 c = true → s.pwr ≠ 4 →
    Completes (.gladeSampleDue c v true fail) s
      ((seqs [elementOk 22 c.val, count GLD_OVERRUN, raise 22 3, cellTakes c v false fun ch => whenU ch (evaluate (2 ^ c.val) false none fail)]).run s)) ∧
  (∀ (c : Fin 32) (v : Nat) (s : State), s.get (GLD_CELL_SRC_SRC c) < 57 → s.get (GLD_CELL_FILT_FILT c) = 3 → 1 < s.pwr →
    s.get (GLD_CELL_THR_THR_HI c) ≤ v →
    let t := (cellTakes c v false fun _ => .skip).run s
    t.bitAt GLD_CELL_STATE c = !s.flag (GLD_CELL_THR_INVERT c) ∧ Untouched (onPage 22) s t) ∧
  (∀ (c : Fin 32) (s : State), s.cellOn 22 c = true → s.pwr ≠ 4 →
    Completes (.gladeConversionTimeout c) s ((report 22 (some c.val) TR).run s)) ∧
  (∀ (k : Fin 8) (s : State), (s.gldSlot k).on = true → (s.gldSlot k).flash = true → (s.gldSlot k).handed = false → (s.gldSlot k).phase = true →
    ∃ t, Completes (.flashToggle k) s t ∧ (t.gldSlot k).phase = false ∧
      t = (gladeOff (s.slotCh k)).run ((updGldSlot k fun x => { x with phase := false }).run s)) ∧
  (∀ (k : Fin 8) (s : State), (s.gldSlot k).on = true → (s.gldSlot k).flash = true → (s.gldSlot k).handed = false → (s.gldSlot k).phase = false →
    ∃ t, Completes (.flashToggle k) s t ∧ (t.gldSlot k).phase = true ∧
      t = (gladeOn (s.slotCh k)).run ((updGldSlot k fun x => { x with phase := true }).run s)) ∧
  (∀ (k : Fin 8) (s : State), (s.gldSlot k).on = false → Does (.flashToggle k) .skip (fun _ => false) s) ∧
  (∀ (k : Fin 8) (s : State), (s.gldSlot k).on = true → (s.gldSlot k).handed = false → s.get (GLD_DLOAD_CFG_MAX_ON k) ≠ 0 →
    ∃ t, Completes (.maxOnExpiry k) s t ∧ t.gldSlot k = { expired := true }) ∧
  (∀ (k : Fin 8) (s : State), (s.gldSlot k).on = true → (s.gldSlot k).handed = false → s.slotBlocked k = false →
    Completes (.dloadReturn k) s ((gateTry (s.lead (s.slotCh k))).run s)) ∧
  (∀ s : State, s.pwr ≤ 1 → Does .gladeServiceEnd .skip (fun _ => false) s) ∧
  (∀ s : State, s.gladeRules = true → s.flag PSM_STAT_P_SERVICE = true → (∀ k, k < 8 → s.slotBusy k = false) →
    Completes .gladeServiceEnd s ((seqs [forN 4 fun d => .read fun s => whenU (s.die d).on (dieDown d), showLocks,
      set PSM_STAT_P_SERVICE 0, deepTry]).run s)) ∧
  (∀ s : State, s.pwr = 3 → s.get GLD_CFG_WATCH_MAX ≠ 0 → s.b.gld.maxDropped = false → s.b.gld.firedAt ≠ some s.now →
    Completes .watchMaxExpiry s ((Upd.seq (updGld fun x => { x with deep := true }) deepTry).run s)) ∧
  (∀ s : State, s.pwr = 3 → s.get GLD_CFG_WATCH_MAX ≠ 0 → s.b.gld.maxDropped = false → s.b.gld.firedAt = some s.now →
    Does .watchMaxExpiry (updGld fun x => { x with maxDropped := true }) (fun _ => false) s) ∧
  (∀ s : State, s.pwr ≠ 3 → Does .watchMaxExpiry .skip (fun _ => false) s) ∧
  (∀ s : State, s.flag GLD_SEQ_STAT_RUN = true →
    Completes .gladeSeqWdog s ((seqs [inc GLD_SEQ_STAT_WDOG_CNT, raise 22 5, report 22 none TR]).run s)) ∧
  (∀ (src v : Nat) (l : List (Nat × Nat)) (s : State), s.b.gld.wins = (src, v) :: l → s.get GLD_CFG_FW_TH = 0 →
    ∃ t, Completes .validationWindowExpiry s t ∧ t.b.gld.wins = l ∧ Untouched (fun _ => false) s t) ∧
  (∀ (src v : Nat) (l : List (Nat × Nat)) (s : State), s.b.gld.wins = (src, v) :: l → s.get GLD_CFG_FW_TH ≠ 0 → src < 64 →
    s.get GLD_CFG_FW_TH ≤ min 255 (s.fwCount src + 1) →
    ∃ t, Completes .validationWindowExpiry s t ∧ t.fwCount src = min 255 (s.fwCount src + 1) ∧ t.fwDisabled src = true ∧
      t.bitAt (BLK_IRQ_STAT 22) 1 = true ∧ Untouched (fun a => onPage 22 a || onPage 15 a) s t) ∧
  (∀ s : State, s.b.gld.saving = true →
    ∃ t, Completes (.gladeSaveDone true) s t ∧ t.get GLD_STORE_CTRL_SAVE_RES = 1 ∧ t.b.gld.saving = false ∧
      t.b.gld.store = some ⟨(s.b.gld.store.map (·.seq)).getD 0 + 1, some s.configRecord, some s.dynRecord⟩ ∧ Untouched (onPage 22) s t) ∧
  (∀ s : State, s.b.gld.saving = true →
    ∃ t, Completes (.gladeSaveDone false) s t ∧ t.get GLD_STORE_CTRL_SAVE_RES = 2 ∧ t.b.gld.store = s.b.gld.store ∧
      t.bitAt (BLK_IRQ_STAT 22) 2 = true ∧ Untouched (onPage 22) s t)
/-- Host resets, the PCIe link and configuration requests -/
def Obligations.HostLinkEvents : Prop :=
  (∀ s : State, s.pcie = false →
    Does .perstAssert (upd fun b => { b with psm := { b.psm with perstLow := true } }) (fun _ => false) s ∧
    Does .perstDeassert (upd fun b => { b with psm := { b.psm with perstLow := false } }) (fun _ => false) s) ∧
  (∀ (up : Bool) (sp : Fin 5) (w : Fin 8) (s : State), s.pcie = false → Does (.pcieLinkChange up sp w) .skip (fun _ => false) s) ∧
  (∀ s : State, s.pcie = true →
    ∃ t, Completes .perstAssert s t ∧ t = (set HBR_LINK_STAT_PERST 1).run (hostDown.run ((upd fun b => { b with psm := { b.psm with perstLow := true } }).run s)) ∧
      t.flag HBR_LINK_STAT_PERST = true ∧ t.b.psm.perstLow = true ∧
      t.flag HBR_LINK_STAT_LINK_UP = false) ∧
  (∀ s : State, s.pcie = true →
    ∃ t, Completes .perstDeassert s t ∧ t.flag HBR_LINK_STAT_PERST = false ∧ t.b.psm.perstLow = false ∧ Untouched (· == HBR_LINK_STAT) s t) ∧
  (∀ (sp : Fin 5) (w : Fin 8) (s : State), s.pcie = true → Completes (.pcieLinkChange false sp w) s (hostDown.run s)) ∧
  (∀ (sp : Fin 5) (w : Fin 8) (s : State), s.pcie = true → s.flag HBR_LINK_STAT_PERST = false → s.bootOpen = true →
    s.flag HBR_LINK_STAT_LINK_UP = false →
    ∃ t, Completes (.pcieLinkChange true sp w) s t ∧ t.flag HBR_LINK_STAT_LINK_UP = true ∧ t.get HBR_LINK_STAT_SPEED = sp.val ∧
      t.get HBR_LINK_STAT_WIDTH = w.val ∧ t.bitAt (BLK_IRQ_STAT 14) 5 = true ∧ Untouched (onPage 14) s t) ∧
  (∀ (sp : Fin 5) (w : Fin 8) (s : State), s.flag HBR_LINK_STAT_PERST = true →
    Does (.pcieLinkChange true sp w) .skip (fun _ => false) s) ∧
  (∀ (f : Fin 64) (s : State), s.hostUp = false → Does (.functionLevelReset f) .skip (fun _ => false) s) ∧
  (∀ (f : Fin 64) (s : State), s.pcie = true → s.hostUp = true →
    ∃ t, Completes (.functionLevelReset f) s t ∧ t.bitAt (BLK_IRQ_STAT 14) 6 = true ∧ t.b.hbr.msixOn.contains f.val = false) ∧
  (∀ (f : Fin 64) (n : Option (Fin 64)) (m : Option Bool) (s : State), s.pcie = true → s.hostUp = true → s.bootOpen = false →
    ∃ t, Completes (.configurationRequest f n m) s t ∧ t.b.fab.resp = { ok := false, cause := 0 } ∧ Untouched (fun _ => false) s t) ∧
  (∀ (v : Fin 64) (s : State), s.pcie = true → s.hostUp = true → s.bootOpen = true →
    ∃ t, Completes (.configurationRequest 0 (some v) none) s t ∧ t.b.fab.resp = { ok := true } ∧ t.get HBR_LINK_STAT_NUM_VF = v.val ∧
      Untouched (· == HBR_LINK_STAT) s t) ∧
  (∀ (f : Fin 64) (s : State), s.pcie = true → s.hostUp = true → s.bootOpen = true →
    ∃ t, Completes (.configurationRequest f none (some true)) s t ∧ t.b.hbr.msixOn.contains f.val = true ∧ Untouched (fun _ => false) s t)
/-- Resets of instances and the ends of migration work -/
def Obligations.InstanceEvents : Prop :=
  (∀ (n : Fin 256) (s : State), s.flag (IOM_INST_STAT_BOUND n) = false → Does (.instReset n) .skip (fun _ => false) s) ∧
  (∀ (n : Fin 256) (s : State), s.flag (IOM_INST_STAT_RESETTING n) = true → Does (.instReset n) .skip (fun _ => false) s) ∧
  (∀ (n : Fin 256) (s : State), s.flag (IOM_INST_STAT_BOUND n) = true → s.flag (IOM_INST_STAT_RESETTING n) = false →
    ∃ t, Completes (.instReset n) s t ∧ t.flag (IOM_INST_STAT_RESETTING n) = true ∧ t.migState n = 0) ∧
  (∀ (n : Fin 256) (s : State), s.flag (IOM_INST_STAT_RESETTING n) = false → Does (.instResetDone n) .skip (fun _ => false) s) ∧
  (∀ (n : Fin 256) (s : State), s.instQuiet n = false → Does (.instResetDone n) .skip (fun _ => false) s) ∧
  (∀ (n : Fin 256) (s : State), s.flag (IOM_INST_STAT_RESETTING n) = true → s.instQuiet n = true → s.b.iom.removing.contains n.val = false →
    ∃ t, Completes (.instResetDone n) s t ∧ t.flag (IOM_INST_STAT_RESETTING n) = false ∧ t.instKind n = s.instKind n ∧
      t.get (IOM_INST_GEN_GEN n) = (s.get (IOM_INST_GEN_GEN n) + 1) % 256 ∧ t.flag (IOM_INST_STAT_TOMGR_FULL n) = false ∧
      (∀ i, i < 16 → t.reg (IOM_IP_MB_OUT n i) = 0 ∧ t.reg (IOM_IP_MB_IN n i) = 0)) ∧
  (∀ (n : Fin 256) (s : State), s.flag (IOM_INST_STAT_RESETTING n) = true → s.instQuiet n = true → s.b.iom.removing.contains n.val = true →
    ∃ t, Completes (.instResetDone n) s t ∧ t.flag (IOM_INST_STAT_BOUND n) = false ∧ t.instKind n = 0 ∧ t.okind n = 0) ∧
  (∀ (n : Fin 256) (s : State), s.migState n = 1 → s.migQuiet n = true →
    ∃ t, Completes (.migFrozen n) s t ∧ t.migState n = 2 ∧ Untouched (· == IOM_INST_STAT n) s t) ∧
  (∀ (n : Fin 256) (s : State), s.migState n ≠ 1 → Does (.migFrozen n) .skip (fun _ => false) s) ∧
  (∀ s : State, s.flag IOM_MIG_RES_BUSY = false → Does .migSaveDone .skip (fun _ => false) s ∧ Does .migCopyDone .skip (fun _ => false) s) ∧
  (∀ s : State, s.flag IOM_MIG_RES_BUSY = true → s.b.iom.copy = some 100 →
    ∃ t, Completes .migCopyDone s t ∧ t.get IOM_MIG_RES_CODE = 0 ∧ t.flag IOM_MIG_RES_BUSY = false ∧ t.b.iom.copy = none ∧
      Untouched (· == IOM_MIG_RES) s t) ∧
  (∀ s : State, s.flag IOM_MIG_RES_BUSY = true → s.get IOM_MIG_RES_OP = 2 → s.migState (s.get IOM_MIG_RES_INST) = 3 →
    ∃ t, Completes .migSaveDone s t ∧ t.flag IOM_MIG_RES_BUSY = false ∧
      (t.migState (s.get IOM_MIG_RES_INST) = 4 ∧ t.get IOM_MIG_RES_CODE = 0 ∨
        t.migState (s.get IOM_MIG_RES_INST) = 2 ∧ t.get IOM_MIG_RES_CODE = 5))
/-- The update engine's events: relayed chunks, commit steps and the end of the confirmation window -/
def Obligations.UpdateEvents : Prop :=
  (∀ s : State, s.b.fw.relay = [] → Does .relayChunkRx .skip (fun _ => false) s) ∧
  (∀ (bs : List Byte) (l : List (Nat × List Byte)) (s : State), s.b.fw.relay = (0, bs) :: l →
    Completes .relayChunkRx s ((seqs [updFw fun u => { u with relay := l }, openChunk (s.ctxPid 58).1 true bs]).run s)) ∧
  (∀ (n : Nat) (bs : List Byte) (l : List (Nat × List Byte)) (x : Stream) (s : State), s.b.fw.relay = (n, bs) :: l → n ≠ 0 →
    s.b.fw.rel = some x →
    Completes .relayChunkRx s ((seqs [updFw fun u => { u with relay := l }, dataChunk true x n bs]).run s)) ∧
  (∀ (n : Nat) (bs : List Byte) (l : List (Nat × List Byte)) (s : State), s.b.fw.relay = (n, bs) :: l → n ≠ 0 → s.b.fw.rel = none →
    ∃ t, Completes .relayChunkRx s t ∧ t.b.fw.relay = l ∧ Untouched (fun _ => false) s t) ∧
  (∀ (r : Fin 3) (s : State), s.b.fw.steps = [] → Does (.commitStepDone r) .skip (fun _ => false) s) ∧
  (∀ (r : Fin 3) (s : State), s.boot.state ≠ 3 → Does (.commitStepDone r) .skip (fun _ => false) s) ∧
  (∀ (k e : Nat) (l : List Nat) (s : State), s.b.fw.steps = k :: l → s.boot.state = 3 → entryOf s.b.fw.hdr k = some e →
    (∀ j, j < 11 → (s.part j).trial = false) →
    ∃ t, Completes (.commitStepDone 1) s t ∧ t.get MEM_UPD_STAT_CODE = 12 ∧ t.get MEM_UPD_STAT_BUSY = 0 ∧ t.boot.state = 2 ∧
      t.b.fw.steps = [] ∧ t.b.fw.hdr = s.b.fw.hdr) ∧
  (∀ (k e : Nat) (l : List Nat) (s : State), s.b.fw.steps = k :: l → s.boot.state = 3 → entryOf s.b.fw.hdr k = some e → l ≠ [] →
    ∃ t, Completes (.commitStepDone 0) s t ∧ (t.part k).trial = true ∧ (t.part k).present = true ∧
      (t.part k).active = (!(s.part k).active) ∧ (t.part k).version = eVersion s.b.fw.hdr e ∧ t.b.fw.steps = l ∧
      (∀ j, j ≠ k → t.part j = s.part j)) ∧
  (∀ s : State, s.b.fw.window.isSome = true → s.boot.state = 4 →
    ∃ t, Completes .confirmWindowExpiry s t ∧ t.boot.state = 0 ∧ t.get MEM_UPD_STAT_CODE = 13 ∧ t.b.fw.window = none ∧
      t.b.fab.reset = some 5 ∧ SameMem s t) ∧
  (∀ s : State, s.b.fw.window = none → Does .confirmWindowExpiry .skip (fun _ => false) s)
/-- The vault's events: purge, random source, fuses, records of the debug port -/
def Obligations.VaultEvents : Prop :=
  (∀ s : State, s.b.vlt.purge = none → Does .purgeVisit .skip (fun _ => false) s) ∧
  (∀ (c : Nat) (s : State), s.b.vlt.purge = some (c, 1) →
    ∃ t, Completes .purgeVisit s t ∧ t.b.vlt.purge = none ∧ t.b.vlt.touched = [] ∧ t.bitAt (BLK_IRQ_STAT 5) 3 = true ∧ SameMem s t) ∧
  (∀ (c n : Nat) (s : State), s.b.vlt.purge = some (c, n) → 1 < n → c < 512 → s.orphan c = false →
    ∃ t, Completes .purgeVisit s t ∧ t.b.vlt.purge = some ((c + 1) % 512, n - 1) ∧ Untouched (fun _ => false) s t) ∧
  (∀ (c n : Nat) (s : State), s.b.vlt.purge = some (c, n) → 1 < n → c < 512 → s.orphan c = true →
    ∃ t, Completes .purgeVisit s t ∧ t.flag (VLT_SLOT_ATTR_PURGED c) = true ∧ mapGet [] t.b.vlt.mat c = [] ∧
      t.reg VLT_ORPHAN_CNT = min (2 ^ 32 - 1) (s.reg VLT_ORPHAN_CNT + 1) ∧ Untouched (onPage 5) s t) ∧
  (∀ s : State, (s.b.vlt.fails.filter fun t => decide (s.now < t + 1000 * msCycles)).length < 2 →
    ∃ t, Completes .trngHealthFail s t ∧ t.flag VLT_TRNG_STAT_OK = false ∧ t.bitAt (BLK_IRQ_STAT 5) 4 = true ∧
      t.flag VLT_TRNG_STAT_FAILED = s.flag VLT_TRNG_STAT_FAILED) ∧
  (∀ s : State, 2 ≤ (s.b.vlt.fails.filter fun t => decide (s.now < t + 1000 * msCycles)).length →
    ∃ t, Completes .trngHealthFail s t ∧ t.flag VLT_TRNG_STAT_OK = false ∧ t.flag VLT_TRNG_STAT_FAILED = true) ∧
  (∀ s : State, s.flag VLT_TRNG_STAT_FAILED = false → s.b.vlt.slotDue = none →
    ∃ t, Completes .drbgReseed s t ∧ t.flag VLT_TRNG_STAT_OK = true ∧ t.b.vlt.drbg = 0 ∧ Untouched (· == VLT_TRNG_STAT) s t) ∧
  (∀ s : State, s.flag VLT_TRNG_STAT_FAILED = true → Does .drbgReseed .skip (fun _ => false) s) ∧
  (∀ s : State, s.b.vlt.lcNext = none → Does .lifecycleFuseBlown .skip (fun _ => false) s) ∧
  (∀ s : State, s.b.vlt.lcNext = some 2 → s.b.vlt.lifecycle ≤ 2 →
    ∃ t, Completes .lifecycleFuseBlown s t ∧ t.b.vlt.lifecycle = 2 ∧ t.b.vlt.lcNext = none ∧ t.get MSU_LIFECYCLE_STATE = 2 ∧
      t.flag VLT_LC_CMD_BUSY = false ∧ t.flag VLT_DBG_STAT_UNLOCKED = false ∧ t.bitAt (BLK_IRQ_STAT 5) 5 = true ∧ SameMem s t) ∧
  (∀ s : State, s.b.vlt.lcNext = some 3 → s.b.vlt.lifecycle ≤ 3 →
    ∃ t, Completes .lifecycleFuseBlown s t ∧ t.b.vlt.lifecycle = 3 ∧ t.slotGen 0 = (s.slotGen 0 + 1) % 256 ∧
      t.flag VLT_DBG_STAT_UNLOCKED = true ∧ SameMem s t) ∧
  (∀ s : State, 3 ≤ s.get VLT_DBG_STAT_REJECTS →
    ∃ t, Completes (.debugAuth .start) s t ∧ t.b.vlt.authRes = 2 ∧ t.b.vlt.authData = [] ∧ t.b.vlt.authStat = s.b.vlt.authStat ∧
      t.b.vlt.lifecycle = s.b.vlt.lifecycle ∧ t.b.vlt.lcNext = s.b.vlt.lcNext ∧ t.flag VLT_DBG_STAT_UNLOCKED = s.flag VLT_DBG_STAT_UNLOCKED ∧
      t.bitAt (BLK_IRQ_STAT 5) 7 = true ∧ Untouched (onPage 5) s t) ∧
  (∀ (w : Word) (s : State), ∃ t, Completes (.debugAuth (.data w)) s t ∧ t.b.vlt.authData = s.b.vlt.authData ++ leBytes 4 w.toNat ∧
    Untouched (fun _ => false) s t) ∧
  (∀ s : State, ∃ t, Completes (.debugAuth .result) s t ∧ t.b.fab.resp.data = [s.b.vlt.authRes] ∧ Untouched (fun _ => false) s t) ∧
  (∀ (i : Fin 8) (s : State), ∃ t, Completes (.debugAuth (.nonce i)) s t ∧ t.b.fab.resp.data = [s.reg (VLT_AUTH_NONCE i)] ∧
    Untouched (fun _ => false) s t) ∧
  (∀ (r : List Byte) (s : State), s.get VLT_DBG_STAT_REJECTS < 3 → s.b.vlt.lifecycle = 1 → leValue (r.take 4) = 3 →
    leValue ((r.drop 4).take 4) < 4 → s.revocable (leValue ((r.drop 4).take 4)) = true → r.length = 5510 →
    (r.drop 8).take 16 = s.wordBytes VLT_UNIT_SN 4 → (r.drop 24).take 32 = s.wordBytes VLT_AUTH_NONCE 8 →
    s.now ≤ s.b.vlt.nonceAt + 60000 * msCycles →
    let t := (authRecord false r fun _ => .skip).run s
    t.b.vlt.authStat = s.b.vlt.authStat ||| 2 ^ (8 * leValue ((r.drop 4).take 4) + 6) ∧
      t.get VLT_DBG_STAT_REJECTS = s.get VLT_DBG_STAT_REJECTS ∧ Untouched (onPage 5) s t)
/-- Each JOB command runs the vault's next job of its operation -/
def Obligations.VaultJobsRun : Prop :=
  (∀ b : Bool, RunsJob (.jobCipher b) 1 b ∧ RunsJob (.jobMac b) 2 b ∧ RunsJob (.jobSign b) 4 b ∧ RunsJob (.jobVerify b) 5 b ∧
    RunsJob (.jobAgree b) 6 b ∧ RunsJob (.jobDerive b) 7 b ∧ RunsJob (.jobPubkey b) 8 b ∧ RunsJob (.jobQuote b) 10 b) ∧
  RunsJob .jobHash 3 false ∧ RunsJob .jobRandom 9 false ∧ RunsJob .jobAuth 11 false ∧ RunsJob .jobArb 12 false ∧
  RunsJob .jobOtpAuth 13 false ∧ RunsJob .jobErase 14 false
/-- What a job's end leaves, and the checks that end a job of each operation -/
def Obligations.VaultJobEnds : Prop :=
  (∀ (j : Job) (c n : Nat) (s : State), j.ring < 32 →
    let t := (jobEnd j c n).run s
    t.get (VLT_RING_HEAD_INDEX j.ring) = (s.get (VLT_RING_HEAD_INDEX j.ring) + 1) % s.ringSize j.ring ∧
      t.flag (VLT_RING_STAT_DONE j.ring) = true ∧ t.bitAt (BLK_IRQ_STAT 5) 1 = true) ∧
  (∀ (j : Job) (s : State), j.nokey = false → (j.slot = 0 → s.underiv 0 = false) → s.useStatus j.slot = OK → attrOwner (s.reg (VLT_SLOT_ATTR j.slot)) ≠ s.ringOwner j →
    (doMac j).run s = (jobEnd j DENIED 0).run s ∧ (doSign j).run s = (jobEnd j DENIED 0).run s ∧
      (doCipher j).run s = (jobEnd j DENIED 0).run s ∧ (doDerive j).run s = (jobEnd j DENIED 0).run s ∧
      (bits j.param 1 0 = 0 → (doAgree j).run s = (jobEnd j DENIED 0).run s)) ∧
  (∀ (j : Job) (s : State), j.nokey = false → (j.slot = 0 → s.underiv 0 = false) → s.useStatus j.slot = OK → bit (attrUsage (s.reg (VLT_SLOT_ATTR j.slot))) 4 = false →
    (doDerive j).run s = (jobEnd j DENIED 0).run s) ∧
  (∀ (j : Job) (s : State), j.nokey = false → (j.slot = 0 → s.underiv 0 = false) → s.b.vlt.heartBad = false → s.orphan j.slot = false → s.get (VLT_SLOT_ATTR_STATE j.slot) ≠ 1 →
    (doMac j).run s = (jobEnd j SLOT_STATE 0).run s ∧ (doSign j).run s = (jobEnd j SLOT_STATE 0).run s ∧
      (doDerive j).run s = (jobEnd j SLOT_STATE 0).run s) ∧
  (∀ (j : Job) (s : State), j.nokey = false → s.useStatus j.slot = OK → attrOwner (s.reg (VLT_SLOT_ATTR j.slot)) = s.ringOwner j →
    bit (attrUsage (s.reg (VLT_SLOT_ATTR j.slot))) 5 = true → j.bad = true →
    (doMac j).run s = (jobEnd j KEY_ERROR 0).run ((report 5 (some j.slot) PM).run s)) ∧
  (∀ (j : Job) (s : State), j.nokey = true → (doMac j).run s = (jobEnd j BAD_PARAM 0).run s ∧ (doSign j).run s = (jobEnd j BAD_PARAM 0).run s ∧
    (doCipher j).run s = (jobEnd j BAD_PARAM 0).run s ∧ (doDerive j).run s = (jobEnd j BAD_PARAM 0).run s ∧
    (doPubkey j).run s = (jobEnd j BAD_PARAM 0).run s ∧ (doErase j).run s = (jobEnd j BAD_PARAM 0).run s) ∧
  (∀ (j : Job) (s : State), j.nokey = false → s.orphan j.slot = true →
    (doMac j).run s = (jobEnd j ORPHANED 0).run ((markOrphan j.slot).run s)) ∧
  (∀ (j : Job) (s : State), 5 < bits j.param 3 0 → (doHash j).run s = (jobEnd j BAD_PARAM 0).run s) ∧
  (∀ (j : Job) (s : State), 3 < bits j.param 3 0 → (doVerify j).run s = (jobEnd j BAD_PARAM 0).run s) ∧
  (∀ (j : Job) (s : State), 4096 < j.dstLen → (doRandom j).run s = (jobEnd j BAD_PARAM 0).run s) ∧
  (∀ (j : Job) (s : State), s.ringOwner j ≠ 2 → (doAuth j).run s = (jobEnd j DENIED 0).run s ∧
    (doArb j).run s = (jobEnd j DENIED 0).run s ∧ (doOtpAuth j).run s = (jobEnd j DENIED 0).run s) ∧
  (∀ (j : Job) (s : State), j.nokey = false → s.get (VLT_SLOT_ATTR_OWNER j.slot) ≠ s.ringOwner j → (doErase j).run s = (jobEnd j DENIED 0).run s) ∧
  (∀ (j : Job) (s : State), j.nokey = false → generalSlot j.slot = true → s.get (VLT_SLOT_ATTR_OWNER j.slot) = s.ringOwner j → s.purgeBusy j.slot = false →
    (doErase j).run s = (seqs [eraseSlot j.slot, touchSlot j.slot, jobEnd j OK 0]).run s) ∧
  (∀ (i v c : Nat) (s : State), mapGet 0 s.b.vlt.arb c ≤ mapGet 0 ((arbRaise i v fun _ => .skip).run s).b.vlt.arb c)
/-- The commands that write the header registers of blocks and cells -/
def Obligations.BlockAndCellWrites : Prop :=
  (∀ (pid : Pid) (k : Fin 28) (s : State),
    WritesAll (.blockEnable pid k) pid (BLK_CTRL k) (withBits (s.reg (BLK_CTRL k)) 1 0 1) (seqs [stored (BLK_CTRL k) (withBits (s.reg (BLK_CTRL k)) 1 0 1), blkCtrlHook k (s.reg (BLK_CTRL k)) (withBits (s.reg (BLK_CTRL k)) 1 0 1)]) s) ∧
  (∀ (pid : Pid) (k : Fin 28) (s : State),
    WritesAll (.blockDisable pid k) pid (BLK_CTRL k) (withBits (s.reg (BLK_CTRL k)) 1 0 0) (seqs [stored (BLK_CTRL k) (withBits (s.reg (BLK_CTRL k)) 1 0 0), blkCtrlHook k (s.reg (BLK_CTRL k)) (withBits (s.reg (BLK_CTRL k)) 1 0 0)]) s) ∧
  (∀ (pid : Pid) (k : Fin 28) (s : State),
    WritesAll (.blockSoftReset pid k) pid (BLK_CTRL k) (withBits (s.reg (BLK_CTRL k)) 1 1 1) (seqs [stored (BLK_CTRL k) (withBits (s.reg (BLK_CTRL k)) 1 1 1), blkCtrlHook k (s.reg (BLK_CTRL k)) (withBits (s.reg (BLK_CTRL k)) 1 1 1)]) s) ∧
  (∀ (pid : Pid) (k : Fin 28) (on : Bool) (s : State),
    WritesAll (.blockIsolate pid k on) pid (BLK_CTRL k) (withBits (withBits (s.reg (BLK_CTRL k)) 1 1 0) 2 2 on.toNat) (seqs [stored (BLK_CTRL k) (withBits (withBits (s.reg (BLK_CTRL k)) 1 1 0) 2 2 on.toNat), blkCtrlHook k (s.reg (BLK_CTRL k)) (withBits (withBits (s.reg (BLK_CTRL k)) 1 1 0) 2 2 on.toNat)]) s) ∧
  (∀ (pid : Pid) (k : Fin 23) (c : Fin 512) (s : State), c.val < cellCount k →
    WritesAll (.cellEnable pid k c) pid (CELL_CTRL k c) 1 (seqs [stored (CELL_CTRL k c) 1, cellCtrlHook k c (s.reg (CELL_CTRL k c)) 1]) s) ∧
  (∀ (pid : Pid) (k : Fin 23) (c : Fin 512) (s : State), c.val < cellCount k →
    WritesAll (.cellDisable pid k c) pid (CELL_CTRL k c) 0 (seqs [stored (CELL_CTRL k c) 0, cellCtrlHook k c (s.reg (CELL_CTRL k c)) 0]) s) ∧
  (∀ (pid : Pid) (k : Fin 23) (c : Fin 512) (s : State), c.val < cellCount k →
    WritesAll (.cellReset pid k c) pid (CELL_CTRL k c) (withBits (s.reg (CELL_CTRL k c)) 1 1 1) (seqs [stored (CELL_CTRL k c) (withBits (s.reg (CELL_CTRL k c)) 1 1 1), cellCtrlHook k c (s.reg (CELL_CTRL k c)) (withBits (s.reg (CELL_CTRL k c)) 1 1 1)]) s) ∧
  (∀ (pid : Pid) (k : Fin 23) (c : Fin 512) (s : State), c.val < cellCount k →
    WritesAll (.cellRetireWrite pid k c) pid (CELL_RETIRE k c) 1 (seqs [stored (CELL_RETIRE k c) 1, cellRetireHook k c (s.reg (CELL_RETIRE k c)) 1]) s) ∧
  (∀ (pid : Pid) (k : Fin 23) (c : Fin 512) (s : State), c.val < cellCount k →
    WritesAll (.cellRearm pid k c) pid (CELL_RETIRE k c) 2 (seqs [stored (CELL_RETIRE k c) 2, cellRetireHook k c (s.reg (CELL_RETIRE k c)) 2]) s) ∧
  (∀ (pid : Pid) (k : Fin 28) (v : Word) (s : State),
    Writes (.irqSet pid k v) pid (BLK_IRQ_SET k) v.toNat (seqs [stored (BLK_IRQ_SET k) v.toNat, .read fun s => setReg (BLK_IRQ_STAT k) (s.reg (BLK_IRQ_STAT k) ||| (v.toNat % 2 ^ 30))]) (onPage k) s) ∧
  (∀ (pid : Pid) (k : Fin 28) (s : State),
    Writes (.configLock pid k) pid (BLK_LOCK k) 1 (seqs [stored (BLK_LOCK k) 1, set (BLK_STAT_LOCKED k) 1]) (onPage k) s) ∧
  (∀ (pid : Pid) (k : Fin 28) (c : Fin 4096) (cls : Fin 4) (s : State),
    Writes (.errInjArm pid k c cls) pid (BLK_ERR_INJ k) (2 ^ 31 + c.val * 2 ^ 16 + cls.val) (seqs [stored (BLK_ERR_INJ k) (2 ^ 31 + c.val * 2 ^ 16 + cls.val), errInjHook k (s.reg (BLK_ERR_INJ k)) (2 ^ 31 + c.val * 2 ^ 16 + cls.val)]) (onPage k) s) ∧
  (∀ (pid : Pid) (k : Fin 23) (c : Fin 512) (s : State), cellCount k ≤ c.val →
    Does (.cellEnable pid k c) .skip (fun _ => false) s ∧ Does (.cellDisable pid k c) .skip (fun _ => false) s ∧
    Does (.cellReset pid k c) .skip (fun _ => false) s ∧ Does (.cellRetireWrite pid k c) .skip (fun _ => false) s ∧
    Does (.cellRearm pid k c) .skip (fun _ => false) s)
/-- The commands that write the MSU, the power state machine, Glade, the sense inputs and load-switch channels -/
def Obligations.SystemAndPowerWrites : Prop :=
  (∀ (pid : Pid) (key : Fin 256) (s : State),
    WritesAll (.safeExit pid key) pid MSU_SAFE_CTRL (key.val * 2 ^ 8 + 1) (seqs [stored MSU_SAFE_CTRL (key.val * 2 ^ 8 + 1), safeCtrlHook (key.val * 2 ^ 8 + 1)]) s) ∧
  (∀ (pid : Pid) (i : Fin 4) (key : Fin 256) (s : State),
    WritesAll (.wdogKick pid i key) pid (MSU_WDOG_KICK i) key.val (seqs [stored (MSU_WDOG_KICK i) key.val, wdogKickHook i key.val]) s) ∧
  (∀ (pid : Pid) (s : State), ¬ (pid.val = 0 ∧ s.get MSU_BOOT_STAT_PHASE = 2 ∧ s.installedOk = false) →
    WritesAll (.protLock pid) pid MSU_PROT_LOCK 1 (Upd.seq (setReg MSU_PROT_LOCK (s.reg MSU_PROT_LOCK)) (whenU (!bit (s.reg MSU_PROT_LOCK) 0)
      (if s.b.fab.waiting.isEmpty then lockSet else updFab fun f => { f with lockDue := true }))) s) ∧
  (∀ (pid : Pid) (s : State), pid.val = 0 → s.get MSU_BOOT_STAT_PHASE = 2 → s.installedOk = false → Completes (.protLock pid) s (installedBad.run s)) ∧
  (∀ (pid : Pid) (t : Fin 8) (s : State),
    WritesAll (.pwrStateRequest pid t) pid MSU_PWR_STATE (t.val * 2 ^ 8) (whenU (decide (t.val ≤ 4)) (powerRequest t)) s) ∧
  (∀ (pid : Pid) (key : Fin 256) (s : State),
    Writes (.softwareReset pid key) pid MSU_RST_CTRL (key.val * 2 ^ 8 + 1) (seqs [stored MSU_RST_CTRL (key.val * 2 ^ 8 + 1), rstCtrlHook (key.val * 2 ^ 8 + 1)]) (· == MSU_RST_CTRL) s) ∧
  (∀ (pid : Pid) (d : Fin 4) (s : State), WritesAll (.dieEnable pid d) pid PSM_DIE_EN (2 ^ d.val) (seqs [stored PSM_DIE_EN (2 ^ d.val), dieEnHook]) s) ∧
  (∀ (pid : Pid) (s : State),
    Writes (.wakeReasonClear pid) pid GLD_WAKE_REASON (2 ^ 31) (seqs [stored GLD_WAKE_REASON (2 ^ 31), wakeReasonHook (2 ^ 31)]) (· == GLD_WAKE_REASON) s) ∧
  (∀ (pid : Pid) (s : State),
    Writes (.gldWakeAck pid) pid GLD_WAKE_ACK 1 (seqs [stored GLD_WAKE_ACK 1, wakeAckHook]) (fun a => onPage 22 a || onPage 15 a) s) ∧
  (∀ (pid : Pid) (hi : Bool) (v : Word) (s : State),
    Writes (.fwDisClear pid hi v) pid (if hi then GLD_FW_DIS_HI else GLD_FW_DIS_LO) v.toNat (seqs [stored (if hi then GLD_FW_DIS_HI else GLD_FW_DIS_LO) v.toNat, fwDisHook (if hi then 32 else 0) v.toNat]) (fun a => onPage 22 a || onPage 15 a) s) ∧
  (∀ (pid : Pid) (s : State),
    Writes (.gladeStoreSave pid) pid GLD_STORE_CTRL (2 ^ 31) (seqs [stored GLD_STORE_CTRL (2 ^ 31), storeCtrlHook (2 ^ 31)]) (onPage 22) s) ∧
  (∀ (pid : Pid) (n : Fin 48) (r : Fin 4) (w : Word) (s : State),
    Writes (.sniConfigWrite pid n r w) pid (SNI_IN_CFG n + 4 * r.val) w.toNat (seqs [stored (SNI_IN_CFG n + 4 * r.val) w.toNat, sniConfigHook n r (s.reg (SNI_IN_CFG n + 4 * r.val)) w.toNat]) (onPage 20) s) ∧
  (∀ (pid : Pid) (g : Fin 64) (w : Word) (s : State), WritesAll (.channelCommand pid g w) pid (LSW_CH_CMD g) w.toNat (command g w.toNat 0 true) s) ∧
  (∀ (pid : Pid) (g : Fin 64) (w : Word) (s : State),
    Writes (.channelConfigWrite pid g w) pid (LSW_CH_CFG g) w.toNat (seqs [stored (LSW_CH_CFG g) w.toNat, cfgHook g (s.reg (LSW_CH_CFG g))]) (onPage (lswUnit g)) s) ∧
  (∀ (pid : Pid) (g : Fin 64) (s : State), Writes (.olonClear pid g) pid (LSW_DG_OLON_STAT g) (2 ^ 31) (olonClearHook g) (onPage (lswUnit g)) s)
/-- The commands that write the vault, the application clusters and the triplets -/
def Obligations.RegionCWrites : Prop :=
  (∀ (pid : Pid) (slot : Fin 512) (s : State),
    Writes (.slotWrite pid slot) pid VLT_SLOT_CTRL (2 ^ 31 + 1 * 2 ^ 24 + slot.val) (seqs [stored VLT_SLOT_CTRL (2 ^ 31 + 1 * 2 ^ 24 + slot.val), slotCtrlHook pid (2 ^ 31 + 1 * 2 ^ 24 + slot.val)]) (onPage 5) s) ∧
  (∀ (pid : Pid) (slot : Fin 512) (s : State),
    Writes (.slotGenerate pid slot) pid VLT_SLOT_CTRL (2 ^ 31 + 2 * 2 ^ 24 + slot.val) (seqs [stored VLT_SLOT_CTRL (2 ^ 31 + 2 * 2 ^ 24 + slot.val), slotCtrlHook pid (2 ^ 31 + 2 * 2 ^ 24 + slot.val)]) (onPage 5) s) ∧
  (∀ (pid : Pid) (slot : Fin 512) (s : State),
    Writes (.slotDerive pid slot) pid VLT_SLOT_CTRL (2 ^ 31 + 3 * 2 ^ 24 + slot.val) (seqs [stored VLT_SLOT_CTRL (2 ^ 31 + 3 * 2 ^ 24 + slot.val), slotCtrlHook pid (2 ^ 31 + 3 * 2 ^ 24 + slot.val)]) (onPage 5) s) ∧
  (∀ (pid : Pid) (slot : Fin 512) (s : State),
    Writes (.slotInvalidate pid slot) pid VLT_SLOT_CTRL (2 ^ 31 + 4 * 2 ^ 24 + slot.val) (seqs [stored VLT_SLOT_CTRL (2 ^ 31 + 4 * 2 ^ 24 + slot.val), slotCtrlHook pid (2 ^ 31 + 4 * 2 ^ 24 + slot.val)]) (onPage 5) s) ∧
  (∀ (pid : Pid) (slot : Fin 512) (s : State),
    Writes (.slotErase pid slot) pid VLT_SLOT_CTRL (2 ^ 31 + 5 * 2 ^ 24 + slot.val) (seqs [stored VLT_SLOT_CTRL (2 ^ 31 + 5 * 2 ^ 24 + slot.val), slotCtrlHook pid (2 ^ 31 + 5 * 2 ^ 24 + slot.val)]) (onPage 5) s) ∧
  (∀ (pid : Pid) (key : Fin 256) (target : Fin 8) (s : State),
    Writes (.lifecycleCommand pid key target) pid VLT_LC_CMD (key.val * 2 ^ 24 + target.val) (seqs [stored VLT_LC_CMD (key.val * 2 ^ 24 + target.val), lcCmdHook pid (key.val * 2 ^ 24 + target.val)]) (onPage 5) s) ∧
  (∀ (pid : Pid) (r : Fin 32) (tail : Fin 1024) (s : State), ((List.range 256).any fun n => s.instKind n == 6 && s.instArg n % 32 == r.val) = false →
    Writes (.vltRingDoorbell pid r tail) pid (VLT_RING_TAIL r) tail.val (stored (VLT_RING_TAIL r) tail.val) (· == VLT_RING_TAIL r) s) ∧
  (∀ (pid : Pid) (m : Fin 16) (s : State),
    Writes (.measExtend pid m) pid VLT_MEAS_CTRL (2 ^ 31 + m.val) (seqs [stored VLT_MEAS_CTRL (2 ^ 31 + m.val), measCtrlHook pid (2 ^ 31 + m.val)]) (onPage 5) s) ∧
  (∀ (pid : Pid) (s : State), Writes (.measR0Close pid) pid VLT_MEAS_CTRL (2 ^ 30) (stored VLT_MEAS_CTRL (2 ^ 30)) (· == VLT_MEAS_CTRL) s) ∧
  (∀ (pid : Pid) (k : Fin 3) (v : Word) (s : State),
    Writes (.clusterClockChange pid k v) pid (CNP_CLU_CLK k) v.toNat (seqs [stored (CNP_CLU_CLK k) v.toNat, cluClkHook k]) (· == CNP_CLU_CLK k) s) ∧
  (∀ (pid : Pid) (h : Fin 12) (s : State),
    Writes (.hartRun pid h) pid CNP_HART_EN (withBits (s.reg CNP_HART_EN) h h 1) (seqs [stored CNP_HART_EN (withBits (s.reg CNP_HART_EN) h h 1), hartEnHook (s.reg CNP_HART_EN)]) (onPage 0) s) ∧
  (∀ (pid : Pid) (h : Fin 12) (s : State),
    Writes (.hartStop pid h) pid CNP_HART_EN (withBits (s.reg CNP_HART_EN) h h 0) (seqs [stored CNP_HART_EN (withBits (s.reg CNP_HART_EN) h h 0), hartEnHook (s.reg CNP_HART_EN)]) (onPage 0) s) ∧
  (∀ (pid : Pid) (x : Fin 2) (k : Fin 3) (s : State),
    WritesAll (.iwCoreRetireCmd pid x k) pid (IW_CORE_CTRL x) (2 ^ k.val) (seqs [stored (IW_CORE_CTRL x) (2 ^ k.val), coreCtrlHook x (s.reg (IW_CORE_CTRL x)) (2 ^ k.val)]) s) ∧
  (∀ (pid : Pid) (x : Fin 2) (k : Fin 3) (s : State),
    WritesAll (.iwCoreRearm pid x k) pid (IW_CORE_CTRL x) (2 ^ (4 + k.val)) (seqs [stored (IW_CORE_CTRL x) (2 ^ (4 + k.val)), coreCtrlHook x (s.reg (IW_CORE_CTRL x)) (2 ^ (4 + k.val))]) s) ∧
  (∀ (pid : Pid) (x : Fin 2) (s : State),
    WritesAll (.tripletRestart pid x) pid (BLK_CTRL (1 + x.val)) (withBits (s.reg (BLK_CTRL (1 + x.val))) 1 1 1) (seqs [stored (BLK_CTRL (1 + x.val)) (withBits (s.reg (BLK_CTRL (1 + x.val))) 1 1 1), blkCtrlHook (1 + x.val) (s.reg (BLK_CTRL (1 + x.val))) (withBits (s.reg (BLK_CTRL (1 + x.val))) 1 1 1)]) s) ∧
  (∀ (pid : Pid) (x : Fin 2) (c : Fin 2) (n : Fin 256) (s : State),
    Writes (.irqComplete pid x c n) pid (IW_IRQ_CLAIM x c) n.val (seqs [stored (IW_IRQ_CLAIM x c) n.val, claimHook x c n.val]) (onPage (1 + x.val)) s) ∧
  (∀ (pid : Pid) (x : Fin 2) (ch : Fin 4) (irq : Bool) (s : State),
    WritesAll (.iwDmaStart pid x ch irq) pid (IW_DMA_CTRL x ch) (2 ^ 31 + irq.toNat) (seqs [stored (IW_DMA_CTRL x ch) (2 ^ 31 + irq.toNat), iwDmaHook x ch (2 ^ 31 + irq.toNat)]) s) ∧
  (∀ (pid : Pid) (r : Fin 32) (tail : Fin 1024) (s : State), ((List.range 256).any fun n => s.instKind n == 6 && s.instArg n % 32 == r.val) = true →
    Writes (.vltRingDoorbell pid r tail) pid (VLT_RING_TAIL r) tail.val .skip (fun _ => false) s) ∧
  (∀ (pid : Pid) (x c : Fin 2) (s : State), s.pwr ≤ 1 → s.checkAt (pid, true) (IW_IRQ_CLAIM x c) 4 0 = 0 → s.unarmed (1 + x.val) = true → s.flag (BLK_CTRL_ISOLATE (1 + x.val)) = false →
    (c = 0 ∨ s.iwSplit x = true) →
    Does (.irqClaim pid x c) (.seq (whenU (s.iwNext x c != 0) (updIw x fun t => { t with claimed := (256 * c.val + s.iwNext x c) :: t.claimed }))
      (answer (okResp (leBytes 4 (s.iwNext x c))))) (fun _ => false) s)
/-- The commands that write instances, migration and the update engine -/
def Obligations.InstanceMigrationAndUpdateWrites : Prop :=
  (∀ (pid : Pid) (n : Fin 256) (kind : Fin 16) (arg : Fin 16777216) (s : State),
    WritesAll (.instBind pid n kind arg) pid (IOM_INST_BIND n) (kind.val * 2 ^ 28 + arg.val) (seqs [stored (IOM_INST_BIND n) (kind.val * 2 ^ 28 + arg.val), instBindHook n (s.reg (IOM_INST_BIND n)) (kind.val * 2 ^ 28 + arg.val)]) s) ∧
  (∀ (pid : Pid) (n : Fin 256) (s : State),
    WritesAll (.instRemove pid n) pid (IOM_INST_BIND n) 0 (seqs [stored (IOM_INST_BIND n) 0, instBindHook n (s.reg (IOM_INST_BIND n)) 0]) s) ∧
  (∀ (pid : Pid) (n : Fin 256) (s : State),
    WritesAll (.mgrAck pid n) pid (IOM_INST_CTRL n) 1 (seqs [stored (IOM_INST_CTRL n) 1, instCtrlHook n pid 1]) s) ∧
  (∀ (pid : Pid) (n : Fin 256) (s : State),
    WritesAll (.mgrRing pid n) pid (IOM_INST_CTRL n) 2 (seqs [stored (IOM_INST_CTRL n) 2, instCtrlHook n pid 2]) s) ∧
  (∀ (pid : Pid) (n : Fin 256) (k : Fin 4) (s : State),
    WritesAll (.deliveryUnmask pid n k) pid (IOM_DELIV1 n k) (withBits (s.reg (IOM_DELIV1 n k)) 30 30 0) (seqs [stored (IOM_DELIV1 n k) (withBits (s.reg (IOM_DELIV1 n k)) 30 30 0), delivHook n k (withBits (s.reg (IOM_DELIV1 n k)) 30 30 0)]) s) ∧
  (∀ (pid : Pid) (n : Fin 256) (s : State), s.flag IOM_MIG_RES_BUSY = false →
    Writes (.migFreeze pid n) pid IOM_MIG_CMD (2 ^ 31 + 1 * 2 ^ 24 + n.val) (seqs [stored IOM_MIG_CMD (2 ^ 31 + 1 * 2 ^ 24 + n.val), .read fun s => seqs [set IOM_MIG_CMD_GO 0, set IOM_MIG_RES_BUSY 1, set IOM_MIG_RES_OP (s.get IOM_MIG_CMD_OP), set IOM_MIG_RES_INST (s.get IOM_MIG_CMD_INST)]]) (fun a => a == IOM_MIG_CMD || a == IOM_MIG_RES) s) ∧
  (∀ (pid : Pid) (n : Fin 256) (jrnl : Bool) (s : State), s.flag IOM_MIG_RES_BUSY = false →
    Writes (.migSave pid n jrnl) pid IOM_MIG_CMD (2 ^ 31 + 2 * 2 ^ 24 + jrnl.toNat * 2 ^ 20 + n.val) (seqs [stored IOM_MIG_CMD (2 ^ 31 + 2 * 2 ^ 24 + jrnl.toNat * 2 ^ 20 + n.val), .read fun s => seqs [set IOM_MIG_CMD_GO 0, set IOM_MIG_RES_BUSY 1, set IOM_MIG_RES_OP (s.get IOM_MIG_CMD_OP), set IOM_MIG_RES_INST (s.get IOM_MIG_CMD_INST)]]) (fun a => a == IOM_MIG_CMD || a == IOM_MIG_RES) s) ∧
  (∀ (pid : Pid) (n : Fin 256) (s : State), s.flag IOM_MIG_RES_BUSY = false →
    Writes (.migResume pid n) pid IOM_MIG_CMD (2 ^ 31 + 3 * 2 ^ 24 + n.val) (seqs [stored IOM_MIG_CMD (2 ^ 31 + 3 * 2 ^ 24 + n.val), .read fun s => seqs [set IOM_MIG_CMD_GO 0, set IOM_MIG_RES_BUSY 1, set IOM_MIG_RES_OP (s.get IOM_MIG_CMD_OP), set IOM_MIG_RES_INST (s.get IOM_MIG_CMD_INST)]]) (fun a => a == IOM_MIG_CMD || a == IOM_MIG_RES) s) ∧
  (∀ (pid : Pid) (n : Fin 256) (s : State), s.flag IOM_MIG_RES_BUSY = false →
    Writes (.migRestore pid n) pid IOM_MIG_CMD (2 ^ 31 + 4 * 2 ^ 24 + n.val) (seqs [stored IOM_MIG_CMD (2 ^ 31 + 4 * 2 ^ 24 + n.val), .read fun s => seqs [set IOM_MIG_CMD_GO 0, set IOM_MIG_RES_BUSY 1, set IOM_MIG_RES_OP (s.get IOM_MIG_CMD_OP), set IOM_MIG_RES_INST (s.get IOM_MIG_CMD_INST)]]) (fun a => a == IOM_MIG_CMD || a == IOM_MIG_RES) s) ∧
  (∀ (pid : Pid) (s : State), s.flag IOM_MIG_RES_BUSY = false →
    Writes (.migLogOn pid) pid IOM_MIG_CMD (2 ^ 31 + 5 * 2 ^ 24 + s.get IOM_MIG_SEL_INST) (seqs [stored IOM_MIG_CMD (2 ^ 31 + 5 * 2 ^ 24 + s.get IOM_MIG_SEL_INST), .read fun s => seqs [set IOM_MIG_CMD_GO 0, set IOM_MIG_RES_BUSY 1, set IOM_MIG_RES_OP (s.get IOM_MIG_CMD_OP), set IOM_MIG_RES_INST (s.get IOM_MIG_CMD_INST)]]) (fun a => a == IOM_MIG_CMD || a == IOM_MIG_RES) s) ∧
  (∀ (pid : Pid) (s : State), s.flag IOM_MIG_RES_BUSY = false →
    Writes (.migLogOff pid) pid IOM_MIG_CMD (2 ^ 31 + 6 * 2 ^ 24 + s.get IOM_MIG_SEL_INST) (seqs [stored IOM_MIG_CMD (2 ^ 31 + 6 * 2 ^ 24 + s.get IOM_MIG_SEL_INST), .read fun s => seqs [set IOM_MIG_CMD_GO 0, set IOM_MIG_RES_BUSY 1, set IOM_MIG_RES_OP (s.get IOM_MIG_CMD_OP), set IOM_MIG_RES_INST (s.get IOM_MIG_CMD_INST)]]) (fun a => a == IOM_MIG_CMD || a == IOM_MIG_RES) s) ∧
  (∀ (pid : Pid) (s : State), s.flag IOM_MIG_RES_BUSY = false →
    Writes (.migSwap pid) pid IOM_MIG_CMD (2 ^ 31 + 7 * 2 ^ 24 + s.get IOM_MIG_SEL_INST) (seqs [stored IOM_MIG_CMD (2 ^ 31 + 7 * 2 ^ 24 + s.get IOM_MIG_SEL_INST), .read fun s => seqs [set IOM_MIG_CMD_GO 0, set IOM_MIG_RES_BUSY 1, set IOM_MIG_RES_OP (s.get IOM_MIG_CMD_OP), set IOM_MIG_RES_INST (s.get IOM_MIG_CMD_INST)]]) (fun a => a == IOM_MIG_CMD || a == IOM_MIG_RES) s) ∧
  (∀ (pid : Pid) (s : State), s.flag IOM_MIG_RES_BUSY = false →
    Writes (.migCopy pid) pid IOM_MIG_CMD (2 ^ 31 + 8 * 2 ^ 24) (seqs [stored IOM_MIG_CMD (2 ^ 31 + 8 * 2 ^ 24), .read fun s => seqs [set IOM_MIG_CMD_GO 0, set IOM_MIG_RES_BUSY 1, set IOM_MIG_RES_OP (s.get IOM_MIG_CMD_OP), set IOM_MIG_RES_INST (s.get IOM_MIG_CMD_INST)]]) (fun a => a == IOM_MIG_CMD || a == IOM_MIG_RES) s) ∧
  (∀ (pid : Pid) (s : State), s.flag IOM_MIG_RES_BUSY = false →
    Writes (.migRecover pid) pid IOM_MIG_CMD (2 ^ 31 + 9 * 2 ^ 24) (seqs [stored IOM_MIG_CMD (2 ^ 31 + 9 * 2 ^ 24), .read fun s => seqs [set IOM_MIG_CMD_GO 0, set IOM_MIG_RES_BUSY 1, set IOM_MIG_RES_OP (s.get IOM_MIG_CMD_OP), set IOM_MIG_RES_INST (s.get IOM_MIG_CMD_INST)]]) (fun a => a == IOM_MIG_CMD || a == IOM_MIG_RES) s) ∧
  (∀ (pid : Pid) (s : State),
    WritesAll (.updOpen pid) pid MEM_UPD_CMD (2 ^ 31 + 1 * 2 ^ 24) (seqs [stored MEM_UPD_CMD (2 ^ 31 + 1 * 2 ^ 24), updCmdHook pid (2 ^ 31 + 1 * 2 ^ 24)]) s) ∧
  (∀ (pid : Pid) (s : State),
    WritesAll (.updChunk pid) pid MEM_UPD_CMD (2 ^ 31 + 2 * 2 ^ 24) (seqs [stored MEM_UPD_CMD (2 ^ 31 + 2 * 2 ^ 24), updCmdHook pid (2 ^ 31 + 2 * 2 ^ 24)]) s) ∧
  (∀ (pid : Pid) (s : State),
    WritesAll (.updCommit pid) pid MEM_UPD_CMD (2 ^ 31 + 3 * 2 ^ 24) (seqs [stored MEM_UPD_CMD (2 ^ 31 + 3 * 2 ^ 24), updCmdHook pid (2 ^ 31 + 3 * 2 ^ 24)]) s) ∧
  (∀ (pid : Pid) (s : State),
    WritesAll (.updAbort pid) pid MEM_UPD_CMD (2 ^ 31 + 4 * 2 ^ 24) (seqs [stored MEM_UPD_CMD (2 ^ 31 + 4 * 2 ^ 24), updCmdHook pid (2 ^ 31 + 4 * 2 ^ 24)]) s) ∧
  (∀ (pid : Pid) (s : State),
    WritesAll (.updFallback pid) pid MEM_UPD_CMD (2 ^ 31 + 5 * 2 ^ 24) (seqs [stored MEM_UPD_CMD (2 ^ 31 + 5 * 2 ^ 24), updCmdHook pid (2 ^ 31 + 5 * 2 ^ 24)]) s) ∧
  (∀ (pid : Pid) (s : State),
    WritesAll (.updTxnBegin pid) pid MEM_UPD_CMD (2 ^ 31 + 6 * 2 ^ 24) (seqs [stored MEM_UPD_CMD (2 ^ 31 + 6 * 2 ^ 24), updCmdHook pid (2 ^ 31 + 6 * 2 ^ 24)]) s) ∧
  (∀ (pid : Pid) (s : State),
    WritesAll (.updTxnEnd pid) pid MEM_UPD_CMD (2 ^ 31 + 7 * 2 ^ 24) (seqs [stored MEM_UPD_CMD (2 ^ 31 + 7 * 2 ^ 24), updCmdHook pid (2 ^ 31 + 7 * 2 ^ 24)]) s) ∧
  (∀ (pid : Pid) (s : State),
    WritesAll (.updTxnRead pid) pid MEM_UPD_CMD (2 ^ 31 + 8 * 2 ^ 24) (seqs [stored MEM_UPD_CMD (2 ^ 31 + 8 * 2 ^ 24), updCmdHook pid (2 ^ 31 + 8 * 2 ^ 24)]) s) ∧
  (∀ (pid : Pid) (health : Bool) (safe : Bool) (s : State),
    WritesAll (.updConfirm pid health safe) pid MEM_UPD_CONFIRM (safe.toNat * 2 + health.toNat) (seqs [stored MEM_UPD_CONFIRM (safe.toNat * 2 + health.toNat), updConfirmHook]) s) ∧
  (∀ (pid : Pid) (n : Fin 256) (s : State), s.flag IOM_MIG_RES_BUSY = true →
    Writes (.migFreeze pid n) pid IOM_MIG_CMD (2 ^ 31 + 1 * 2 ^ 24 + n.val) .skip (fun _ => false) s) ∧
  (∀ (n : Fin 256) (v : Word) (w : Fin 2048) (x : Option Word) (s : State), s.okind n = 0 →
    Does (.mbSend n) .skip (fun _ => false) s ∧ Does (.mbAck n) .skip (fun _ => false) s ∧
    Does (.funcDoorbell n v) .skip (fun _ => false) s ∧ Does (.funcWindowAccess n w x) .skip (fun _ => false) s) ∧
  (∀ (n : Fin 256) (s : State), s.pwr ≤ 1 → s.checkAt (s.instPid n, true) (IOM_IP_DB n) 4 1 = 0 →
    s.unarmed 6 = true → s.okind n = 1 → s.flag (IOM_INST_STAT_BOUND n) = true → s.ownerLive n = true →
    s.flag (BLK_CTRL_ISOLATE 6) = false → s.flag (IOM_INST_STAT_TOMGR_FULL n) = false →
    ∃ t, Completes (.mbSend n) s t ∧ t.flag (IOM_INST_STAT_TOMGR_FULL n) = true ∧ t.bitAt (IOM_TOMGR_PEND (n / 32)) (n % 32) = true ∧
      t.reg (IOM_INST_MB_TOMGR n 1) = s.mbWord1 n 0 s.devNum (s.instPid n) ∧
      (∀ i, i < 16 → i ≠ 1 → t.reg (IOM_INST_MB_TOMGR n i) = s.reg (IOM_IP_MB_OUT n i))) ∧
  (∀ (n : Fin 256) (s : State), s.pwr ≤ 1 → s.checkAt (s.instPid n, true) (IOM_IP_DB n) 4 1 = 0 →
    s.unarmed 6 = true → s.okind n = 1 → s.flag (IOM_INST_STAT_BOUND n) = true → s.ownerLive n = true →
    s.flag (BLK_CTRL_ISOLATE 6) = false → s.flag (IOM_INST_STAT_FROMMGR_FULL n) = true →
    ∃ t, Completes (.mbAck n) s t ∧ t.flag (IOM_INST_STAT_FROMMGR_FULL n) = false ∧ t.bitAt (IOM_FROMMGR_ACKED (n / 32)) (n % 32) = true) ∧
  (∀ (n : Fin 256) (v : Word) (s : State), s.pwr ≤ 1 → s.checkAt (s.instPid n, true) (IOM_IP_FUNC_DB n) 4 1 = 0 →
    s.unarmed 6 = true → s.okind n = 1 → s.flag (IOM_INST_STAT_BOUND n) = true → s.ownerLive n = true →
    s.flag (BLK_CTRL_ISOLATE 6) = false → s.instKind n = 6 →
    s.shut (VLT_RING_TAIL (s.instArg n % 32)) = false → s.flag (BLK_CTRL_ISOLATE 5) = false →
    ∃ t, Completes (.funcDoorbell n v) s t ∧ t.get (VLT_RING_TAIL_INDEX (s.instArg n % 32)) = v.toNat % 2 ^ 10 ∧
      Untouched (· == VLT_RING_TAIL (s.instArg n % 32)) s t) ∧
  (∀ (n : Fin 256) (w : Fin 2048) (s : State), s.pwr ≤ 1 → s.checkAt (s.instPid n, true) (0x2B002000 + 0x4000 * n.val + 4 * w.val) 4 0 = 0 →
    s.unarmed 6 = true → s.okind n = 1 → s.flag (IOM_INST_STAT_BOUND n) = true →
    s.flag (BLK_CTRL_ISOLATE 6) = true →
    ∃ t, Completes (.funcWindowAccess n w none) s t ∧ t.b.fab.resp = okResp (leBytes 4 0) ∧ Untouched (fun _ => false) s t) ∧
  (∀ (n : Fin 256) (w : Fin 2048) (s : State), s.pwr ≤ 1 → s.checkAt (s.instPid n, true) (0x2B002000 + 0x4000 * n.val + 4 * w.val) 4 0 = 0 →
    s.unarmed 6 = true → s.okind n = 1 → s.flag (IOM_INST_STAT_BOUND n) = true →
    s.flag (BLK_CTRL_ISOLATE 6) = false → s.instKind n = 7 → s.get (IOM_IP_APER_APER n) = 0 → w.val = 2 → s.flag (BLK_CTRL_ISOLATE 22) = false → s.shut GLD_FIRED = false →
    ∃ t, Completes (.funcWindowAccess n w none) s t ∧ t.b.fab.resp = okResp (leBytes 4 (s.reg GLD_FIRED)) ∧ SameMem s t)
/-- The commands that write CAN and LIN registers -/
def Obligations.CanAndLinWrites : Prop :=
  (∀ (pid : Pid) (c : Fin 16) (v : Word) (s : State), WritesAll (.canTxbufRequest pid c v) pid (CAN_TXBUF_GO c) v.toNat (txRequest c v.toNat) s) ∧
  (∀ (pid : Pid) (c : Fin 16) (v : Word) (s : State), WritesAll (.canTxbufCancel pid c v) pid (CAN_TXBUF_STOP c) v.toNat (txStopHook c v.toNat) s) ∧
  (∀ (pid : Pid) (c : Fin 16) (s : State),
    Writes (.canRecover pid c) pid (CAN_BO_CTRL c) 1 (seqs [stored (CAN_BO_CTRL c) 1, canBoCtrlHook c 1]) (onPage 9) s) ∧
  (∀ (pid : Pid) (c : Fin 16) (s : State),
    WritesAll (.canBoDiscardWrite pid c) pid (CAN_BO_CFG c) (withBits (s.reg (CAN_BO_CFG c)) 30 30 1) (seqs [stored (CAN_BO_CFG c) (withBits (s.reg (CAN_BO_CFG c)) 30 30 1), canBoCfgHook c (withBits (s.reg (CAN_BO_CFG c)) 30 30 1) (s.reg (CAN_BO_CFG c))]) s) ∧
  (∀ (pid : Pid) (v : Fin 65536) (s : State),
    Writes (.canTsSync pid v) pid CAN_TS_SYNC v.val (seqs [stored CAN_TS_SYNC v.val, canTsSyncHook v.val]) (onPage 9) s) ∧
  (∀ (pid : Pid) (c : Fin 16) (ack : Bool) (target : Fin 4) (buf : Fin 64) (s : State),
    Writes (.canRxRelease pid c ack target buf) pid (CAN_RX_RELEASE c) (ack.toNat * 2 ^ 31 + target.val * 2 ^ 8 + buf.val) (seqs [stored (CAN_RX_RELEASE c) (ack.toNat * 2 ^ 31 + target.val * 2 ^ 8 + buf.val), rxRelease c (ack.toNat * 2 ^ 31 + target.val * 2 ^ 8 + buf.val)]) (onPage 9) s) ∧
  (∀ (pid : Pid) (c : Fin 16) (hi : Bool) (v : Word) (s : State),
    Writes (.canRxbufNewClear pid c hi v) pid (if hi then CAN_RXBUF_NEW_HI c else CAN_RXBUF_NEW_LO c) v.toNat (seqs [stored (if hi then CAN_RXBUF_NEW_HI c else CAN_RXBUF_NEW_LO c) v.toNat, rxNewHook c v.toNat (if hi then 32 else 0)]) (onPage 9) s) ∧
  (∀ (pid : Pid) (c : Fin 16) (s : State), WritesAll (.canTxqPush pid c) pid (CAN_TXQ_PUSH c) 1 (seqs [stored (CAN_TXQ_PUSH c) 1, txqPush c]) s) ∧
  (∀ (pid : Pid) (c : Fin 16) (v : Word) (s : State), WritesAll (.canTxqCancel pid c v) pid (CAN_TXQ_STOP c) v.toNat (txqStopHook c v.toNat) s) ∧
  (∀ (pid : Pid) (n : Fin 12) (run : Bool) (start : Fin 64) (s : State),
    Writes (.linSchedRun pid n run start) pid (LIN_SCHED_CTRL n) (withBits 0 13 8 (s.get (LIN_SCHED_CTRL_NEXT n)) + run.toNat * 2 ^ 31 + start.val) (seqs [stored (LIN_SCHED_CTRL n) (withBits 0 13 8 (s.get (LIN_SCHED_CTRL_NEXT n)) + run.toNat * 2 ^ 31 + start.val), linSchedHook n (withBits 0 13 8 (s.get (LIN_SCHED_CTRL_NEXT n)) + run.toNat * 2 ^ 31 + start.val) (s.reg (LIN_SCHED_CTRL n))]) (onPage 10) s) ∧
  (∀ (pid : Pid) (n : Fin 12) (next : Fin 64) (s : State),
    Writes (.linSchedSwitch pid n next) pid (LIN_SCHED_CTRL n) (withBits (withBits (s.reg (LIN_SCHED_CTRL n)) 30 30 1) 13 8 next.val) (seqs [stored (LIN_SCHED_CTRL n) (withBits (withBits (s.reg (LIN_SCHED_CTRL n)) 30 30 1) 13 8 next.val), linSchedHook n (withBits (withBits (s.reg (LIN_SCHED_CTRL n)) 30 30 1) 13 8 next.val) (s.reg (LIN_SCHED_CTRL n))]) (onPage 10) s) ∧
  (∀ (pid : Pid) (n : Fin 12) (s : State),
    Writes (.linSleep pid n) pid (LIN_CH_CTRL n) 1 (seqs [stored (LIN_CH_CTRL n) 1, linCtrlHook n 1]) (onPage 10) s) ∧
  (∀ (pid : Pid) (n : Fin 12) (s : State),
    Writes (.linWakeTx pid n) pid (LIN_CH_CTRL n) 2 (seqs [stored (LIN_CH_CTRL n) 2, linCtrlHook n 2]) (onPage 10) s) ∧
  (∀ (c : Fin 16) (v : Nat) (s : State) (u : Upd), u = txRequest c v ∨ u = txStopHook c v ∨ u = txqStopHook c v ∨ u = txqPush c ∨
      (∃ old, u = canBoCfgHook c v old) →
    OnlyRegs (onPage 9) s (u.run s) ∧ ∀ a, a < mram c ∨ mram c + 0x20000 ≤ a → (u.run s).byte a = s.byte a)
/-- The commands that write Ethernet ports, the switch core and the time base -/
def Obligations.EthernetSwitchAndTimeWrites : Prop :=
  (∀ (pid : Pid) (p : Fin 25) (step : Fin 256) (start : Fin 256) (s : State),
    Writes (.txThrWrite pid p step start) pid (ETP_TX_THR p) (step.val * 2 ^ 8 + start.val) (seqs [stored (ETP_TX_THR p) (step.val * 2 ^ 8 + start.val), txThrHook p]) (onPage 7) s) ∧
  (∀ (pid : Pid) (p : Fin 2) (q : Fin 8) (tail : Fin 4096) (s : State),
    Writes (.cTxTailWrite pid p q tail) pid (ETP_QTX_TAIL (20 + p.val) 0 q) tail.val (stored (ETP_QTX_TAIL (20 + p.val) 0 q) tail.val) (onPage 7) s) ∧
  (∀ (pid : Pid) (p : Fin 2) (q : Fin 8) (tail : Fin 4096) (s : State),
    WritesAll (.cRxTailWrite pid p q tail) pid (ETP_QRX_TAIL (20 + p.val) 0 q) tail.val (seqs [stored (ETP_QRX_TAIL (20 + p.val) 0 q) tail.val, rxTailHook (20 + p.val) q]) s) ∧
  (∀ (pid : Pid) (p : Fin 25) (e : Fin 20) (slot : Fin 512) (s : State), p.val ≠ 18 ∧ p.val ≠ 19 →
    Writes (.macsecSaEnable pid p e slot) pid (ETP_SA_CTRL p 0 e) (2 ^ 31 + slot.val) (seqs [stored (ETP_SA_CTRL p 0 e) (2 ^ 31 + slot.val), saHook p e pid (2 ^ 31 + slot.val)]) (onPage 7) s) ∧
  (∀ (pid : Pid) (j : Fin 9) (v : Word) (s : State),
    Writes (.pmapWrite pid j v) pid (if j.val = 8 then SWC_HASH_CFG else SWC_PMAP j) v.toNat (seqs [stored (if j.val = 8 then SWC_HASH_CFG else SWC_PMAP j) v.toNat, pmapHook j (s.reg (if j.val = 8 then SWC_HASH_CFG else SWC_PMAP j))]) (onPage 8) s) ∧
  (∀ (pid : Pid) (table : Fin 16) (index : Fin 65536) (s : State),
    WritesAll (.tblRead pid table index) pid SWC_TBL_CMD (2 ^ 31 + 0 * 2 ^ 28 + table.val * 2 ^ 24 + index.val) (seqs [stored SWC_TBL_CMD (2 ^ 31 + 0 * 2 ^ 28 + table.val * 2 ^ 24 + index.val), tblCmdHook (2 ^ 31 + 0 * 2 ^ 28 + table.val * 2 ^ 24 + index.val)]) s) ∧
  (∀ (pid : Pid) (table : Fin 16) (index : Fin 65536) (hold : Bool) (s : State),
    WritesAll (.tblWrite pid table index hold) pid SWC_TBL_CMD (2 ^ 31 + hold.toNat * 2 ^ 30 + 1 * 2 ^ 28 + table.val * 2 ^ 24 + index.val) (seqs [stored SWC_TBL_CMD (2 ^ 31 + hold.toNat * 2 ^ 30 + 1 * 2 ^ 28 + table.val * 2 ^ 24 + index.val), tblCmdHook (2 ^ 31 + hold.toNat * 2 ^ 30 + 1 * 2 ^ 28 + table.val * 2 ^ 24 + index.val)]) s) ∧
  (∀ (pid : Pid) (table : Fin 16) (index : Fin 65536) (hold : Bool) (s : State),
    WritesAll (.tblDelete pid table index hold) pid SWC_TBL_CMD (2 ^ 31 + hold.toNat * 2 ^ 30 + 2 * 2 ^ 28 + table.val * 2 ^ 24 + index.val) (seqs [stored SWC_TBL_CMD (2 ^ 31 + hold.toNat * 2 ^ 30 + 2 * 2 ^ 28 + table.val * 2 ^ 24 + index.val), tblCmdHook (2 ^ 31 + hold.toNat * 2 ^ 30 + 2 * 2 ^ 28 + table.val * 2 ^ 24 + index.val)]) s) ∧
  (∀ (pid : Pid) (table : Fin 16) (index : Fin 65536) (s : State),
    WritesAll (.tblSearch pid table index) pid SWC_TBL_CMD (2 ^ 31 + 3 * 2 ^ 28 + table.val * 2 ^ 24 + index.val) (seqs [stored SWC_TBL_CMD (2 ^ 31 + 3 * 2 ^ 28 + table.val * 2 ^ 24 + index.val), tblCmdHook (2 ^ 31 + 3 * 2 ^ 28 + table.val * 2 ^ 24 + index.val)]) s) ∧
  (∀ (pid : Pid) (tmo : Fin 65536) (s : State),
    Writes (.swcDrainRequest pid tmo) pid SWC_DRAIN_CTRL (2 ^ 31 + tmo.val) (seqs [stored SWC_DRAIN_CTRL (2 ^ 31 + tmo.val), swcDrainHook (2 ^ 31 + tmo.val)]) (onPage 8) s) ∧
  (∀ (pid : Pid) (p : Fin 25) (s : State), p.val ≠ 18 ∧ p.val ≠ 19 → s.flag (SWC_GCL_STAT_PENDING p) = false →
    Writes (.gclChangeRequest pid p) pid (SWC_GCL_CTRL p) 1 (seqs [stored (SWC_GCL_CTRL p) 1, gclCtrlHook p 1]) (onPage 8) s) ∧
  (∀ (pid : Pid) (v : Word) (s : State), Writes (.tmbRateWrite pid v) pid TMB_RATE v.toNat (stored TMB_RATE v.toNat) (onPage 12) s) ∧
  (∀ (pid : Pid) (v : Word) (s : State), Writes (.tmbAdjWrite pid v) pid TMB_ADJ v.toNat (tmbAdjHook v.toNat) (onPage 12) s) ∧
  (∀ (pid : Pid) (s : State), WritesAll (.tmbStep pid) pid TMB_STEP_CTRL 1 (seqs [stored TMB_STEP_CTRL 1, tmbStepHook 1]) s) ∧
  (∀ (pid : Pid) (s : State), Writes (.tsPop pid) pid TMB_TS_POP 1 (seqs [stored TMB_TS_POP 1, tsPopHook]) (onPage 12) s) ∧
  (∀ (pid : Pid) (port : Fin 32) (len : Fin 256) (s : State),
    WritesAll (.ptpTx pid port len) pid TMB_PTP_TX (2 ^ 31 + port.val * 2 ^ 24 + len.val) (seqs [stored TMB_PTP_TX (2 ^ 31 + port.val * 2 ^ 24 + len.val), ptpTxHook (2 ^ 31 + port.val * 2 ^ 24 + len.val)]) s) ∧
  (∀ (pid : Pid) (ch : Fin 16) (s : State),
    WritesAll (.canCapture pid ch) pid TMB_CAN_CAP (2 ^ 31 + ch.val * 2 ^ 16 + s.get TMB_CAN_CAP_AUTO_MS) (seqs [stored TMB_CAN_CAP (2 ^ 31 + ch.val * 2 ^ 16 + s.get TMB_CAN_CAP_AUTO_MS), canCapHook (2 ^ 31 + ch.val * 2 ^ 16 + s.get TMB_CAN_CAP_AUTO_MS)]) s) ∧
  (∀ (pid : Pid) (p : Fin 25) (e : Fin 20) (slot : Fin 512) (s : State), p.val = 18 ∨ p.val = 19 →
    Writes (.macsecSaEnable pid p e slot) pid (ETP_SA_CTRL p 0 e) (2 ^ 31 + slot.val) .skip (fun _ => false) s) ∧
  (∀ (pid : Pid) (p : Fin 25) (s : State), p.val = 18 ∨ p.val = 19 ∨ s.flag (SWC_GCL_STAT_PENDING p) = true →
    Writes (.gclChangeRequest pid p) pid (SWC_GCL_CTRL p) 1 .skip (fun _ => false) s) ∧
  (∀ s : State, OnlyRegs (fun a => onPage 12 a || onPage 8 a) s ((tmbStepHook 1).run s))
/-- The commands that write the signal router -/
def Obligations.SignalRouterWrites : Prop :=
  (∀ (pid : Pid) (addr : Fin 2147483648) (s : State), WritesAll (.sigWrite pid addr) pid SRT_SIG_WR addr.val (sigWrHook pid addr.val) s) ∧
  (∀ (pid : Pid) (addr : Fin 2147483648) (s : State),
    Writes (.sigRead pid addr) pid SRT_SIG_RD_ADDR addr.val (updSrt fun x => { x with rdAddr := mapPut 0 x.rdAddr pid (addr.val % 2 ^ 31) }) (fun _ => false) s) ∧
  (∀ (pid : Pid) (i : Fin 64) (slot : Fin 512) (s : State),
    Writes (.srtKeyEnable pid i slot) pid (SRT_KEY i) (2 ^ 31 + slot.val) (seqs [stored (SRT_KEY i) (2 ^ 31 + slot.val), srtKeyHook i pid (2 ^ 31 + slot.val)]) (onPage 11) s) ∧
  (∀ (pid : Pid) (s : State), Writes (.shdPut pid) pid SRT_SHD_PUT 1 (seqs [stored SRT_SHD_PUT 1, shdPutHook]) (onPage 11) s) ∧
  (∀ (pid : Pid) (s : State), Writes (.shdClear pid) pid SRT_SHD_CLEAR 1 (seqs [stored SRT_SHD_CLEAR 1, shdClearHook]) (onPage 11) s) ∧
  (∀ (pid : Pid) (s : State),
    Writes (.epochCommit pid) pid SRT_EPOCH (2 ^ 31) (seqs [stored SRT_EPOCH (2 ^ 31), epochHook (2 ^ 31)]) (· == SRT_EPOCH) s) ∧
  (∀ (pid : Pid) (tmo : Fin 65536) (s : State),
    Writes (.srtDrainRequest pid tmo) pid SRT_DRAIN_CTRL (2 ^ 31 + tmo.val) (seqs [stored SRT_DRAIN_CTRL (2 ^ 31 + tmo.val), drainCtrlHook (2 ^ 31 + tmo.val)]) (onPage 11) s) ∧
  (∀ (pid : Pid) (start : Fin 33554432) (s : State),
    Writes (.rcPreload pid start) pid SRT_RC_PRELOAD (2 ^ 31 + start.val) (seqs [stored SRT_RC_PRELOAD (2 ^ 31 + start.val), rcPreloadHook (2 ^ 31 + start.val)]) (onPage 11) s) ∧
  (∀ (pid : Pid) (s : State), Writes (.rcInvalidate pid) pid SRT_RC_INV 1 (seqs [stored SRT_RC_INV 1, rcInvHook]) (onPage 11) s) ∧
  (∀ (pid : Pid) (gsid : Fin 33554432) (s : State),
    WritesAll (.rtRead pid gsid) pid SRT_RT_RD_GSID gsid.val (seqs [stored SRT_RT_RD_GSID gsid.val, rtRdHook gsid.val]) s)
/-- The commands that write network management, the chain and the host bridge -/
def Obligations.NetworkChainAndBridgeWrites : Prop :=
  (∀ (pid : Pid) (c : Fin 36) (on : Bool) (s : State),
    WritesAll (.nmSwRequest pid c on) pid (NMC_CH_REQ c) on.toNat (seqs [stored (NMC_CH_REQ c) on.toNat, nmReqHook c on.toNat (s.reg (NMC_CH_REQ c))]) s) ∧
  (∀ (pid : Pid) (c : Fin 36) (s : State),
    WritesAll (.nmRmrRequest pid c) pid (NMC_CH_REQ c) (2 + s.get (NMC_CH_REQ_SW c)) (seqs [stored (NMC_CH_REQ c) (2 + s.get (NMC_CH_REQ_SW c)), nmReqHook c (2 + s.get (NMC_CH_REQ_SW c)) (s.reg (NMC_CH_REQ c))]) s) ∧
  (∀ (pid : Pid) (c : Fin 36) (on : Bool) (s : State),
    WritesAll (.nmSafeRequest pid c on) pid (NMC_CH_SREQ c) on.toNat (seqs [stored (NMC_CH_SREQ c) on.toNat, nmSreqHook c on.toNat (s.reg (NMC_CH_SREQ c))]) s) ∧
  (∀ (pid : Pid) (c : Fin 36) (s : State),
    WritesAll (.ignClear pid c) pid (NMC_CH_IGN_CLR c) 1 (seqs [stored (NMC_CH_IGN_CLR c) 1, ignClearHook c]) s) ∧
  (∀ (pid : Pid) (key : Fin 256) (s : State),
    WritesAll (.isoRequest pid key) pid NMC_ISO_CTRL (key.val * 2 ^ 8 + 2) (seqs [stored NMC_ISO_CTRL (key.val * 2 ^ 8 + 2), seqs [set NMC_ISO_CTRL_ISO 0, set NMC_ISO_CTRL_REL 0, isoCtrlHook (key.val * 2 ^ 8 + 2)]]) s) ∧
  (∀ (pid : Pid) (key : Fin 256) (s : State),
    WritesAll (.isoRelease pid key) pid NMC_ISO_CTRL (key.val * 2 ^ 8 + 1) (seqs [stored NMC_ISO_CTRL (key.val * 2 ^ 8 + 1), seqs [set NMC_ISO_CTRL_ISO 0, set NMC_ISO_CTRL_REL 0, isoCtrlHook (key.val * 2 ^ 8 + 1)]]) s) ∧
  (∀ (pid : Pid) (key : Fin 256) (s : State),
    WritesAll (.isoRelease3 pid key) pid NMC_ISO_REL3 (key.val * 2 ^ 8 + 1) (seqs [stored NMC_ISO_REL3 (key.val * 2 ^ 8 + 1), isoRel3Hook (key.val * 2 ^ 8 + 1)]) s) ∧
  (∀ (pid : Pid) (s : State), Writes (.nmLogPop pid) pid NMC_LOG_POP 1 (seqs [stored NMC_LOG_POP 1, nmLogPopHook]) (onPage 15) s) ∧
  (∀ (pid : Pid) (c : Fin 2) (s : State),
    Writes (.finzaRetrain pid c) pid (FLK_LINK_CTRL c) 1 (seqs [stored (FLK_LINK_CTRL c) 1, linkCtrlHook c 1]) (onPage 13) s) ∧
  (∀ (pid : Pid) (s : State), WritesAll (.enumRestart pid) pid FLK_ENUM_CTRL 1 (seqs [stored FLK_ENUM_CTRL 1, enumCtrlHook 1]) s) ∧
  (∀ (pid : Pid) (i : Fin 64) (s : State), Writes (.semTake pid i) pid (HBR_SEM i) (2 ^ 31) (semHook i .loc pid (2 ^ 31)) (onPage 14) s) ∧
  (∀ (pid : Pid) (i : Fin 64) (s : State), Writes (.semRelease pid i) pid (HBR_SEM i) (2 ^ 29) (semHook i .loc pid (2 ^ 29)) (onPage 14) s)
/-- Completion: the commands of the fabric, the registers, faults, power, Glade and reset -/
def Obligations.FabricPowerGladeComplete : Prop :=
  (∀ (q : FabReq) (s : State), deviceGuard q s = none → Completes (.fabricRequest q) s ((fabricRequest q).run s)) ∧
  (∀ (r : Fin 4) (s : State), Completes (.agePromotion r) s ((agePromotion r).run s)) ∧
  (∀ (s : State), Completes .bwPeriodStart s (bwPeriodStart.run s)) ∧
  (∀ (tag : Fin 256) (s : State), Completes (.isolationResponseTimeout tag) s ((isolationResponseTimeout tag).run s)) ∧
  (∀ (pid : Pid) (a : Fin 1099511627776) (v : Word) (s : State), Completes (.registerWrite pid a v) s ((registerWrite pid a v).run s)) ∧
  (∀ (pid : Pid) (a : Fin 1099511627776) (s : State), Completes (.clearOnRead pid a) s ((clearOnRead pid a).run s)) ∧
  (∀ (pid : Pid) (k : Fin 28) (s : State), Completes (.blockEnable pid k) s ((blockEnable pid k).run s)) ∧
  (∀ (pid : Pid) (k : Fin 28) (s : State), Completes (.blockDisable pid k) s ((blockDisable pid k).run s)) ∧
  (∀ (pid : Pid) (k : Fin 28) (s : State), Completes (.blockSoftReset pid k) s ((blockSoftReset pid k).run s)) ∧
  (∀ (pid : Pid) (k : Fin 28) (on : Bool) (s : State), Completes (.blockIsolate pid k on) s ((blockIsolate pid k on).run s)) ∧
  (∀ (k : Fin 23) (c : Option (Fin 512)) (s : State), Completes (.drainComplete k c) s ((drainComplete k c).run s)) ∧
  (∀ (pid : Pid) (k : Fin 23) (c : Fin 512) (s : State), Completes (.cellEnable pid k c) s ((cellEnable pid k c).run s)) ∧
  (∀ (pid : Pid) (k : Fin 23) (c : Fin 512) (s : State), Completes (.cellDisable pid k c) s ((cellDisable pid k c).run s)) ∧
  (∀ (pid : Pid) (k : Fin 23) (c : Fin 512) (s : State), Completes (.cellReset pid k c) s ((cellReset pid k c).run s)) ∧
  (∀ (pid : Pid) (k : Fin 23) (c : Fin 512) (s : State), Completes (.cellRetireWrite pid k c) s ((cellRetireWrite pid k c).run s)) ∧
  (∀ (pid : Pid) (k : Fin 23) (c : Fin 512) (s : State), Completes (.cellRearm pid k c) s ((cellRearm pid k c).run s)) ∧
  (∀ (pid : Pid) (k : Fin 28) (v : Word) (s : State), Completes (.irqSet pid k v) s ((irqSet pid k v).run s)) ∧
  (∀ (pid : Pid) (k : Fin 28) (s : State), Completes (.configLock pid k) s ((configLock pid k).run s)) ∧
  (∀ (pid : Pid) (k : Fin 28) (c : Fin 4096) (cls : Fin 4) (s : State), Completes (.errInjArm pid k c cls) s ((errInjArm pid k c cls).run s)) ∧
  (∀ (k : Fin 28) (s : State), Completes (.errInjTimeout k) s ((errInjTimeout k).run s)) ∧
  (∀ (k : Fin 23) (s : State), Completes (.levelDecayTick k) s ((levelDecayTick k).run s)) ∧
  (∀ (d : Fin 4) (s : State), Completes (.heartbeatMiss d) s ((heartbeatMiss d).run s)) ∧
  (∀ (d : Fin 4) (s : State), Completes (.heartbeatResume d) s ((heartbeatResume d).run s)) ∧
  (∀ (pid : Pid) (key : Fin 256) (s : State), Completes (.safeExit pid key) s ((safeExit pid key).run s)) ∧
  (∀ (pid : Pid) (w : Fin 4) (key : Fin 256) (s : State), Completes (.wdogKick pid w key) s ((wdogKick pid w key).run s)) ∧
  (∀ (i : Fin 4) (s : State), Completes (.wdogExpiry i) s ((wdogExpiry i).run s)) ∧
  (∀ (pid : Pid) (s : State), Completes (.protLock pid) s ((protLock pid).run s)) ∧
  (∀ (pid : Pid) (t : Fin 8) (s : State), Completes (.pwrStateRequest pid t) s ((pwrStateRequest pid t).run s)) ∧
  (∀ (s : State), Completes .transitionDone s (transitionDone.run s)) ∧
  (∀ (commit : Bool) (s : State), Completes (.transitionLoadsOff commit) s ((transitionLoadsOff commit).run s)) ∧
  (∀ (samples : List (Fin 1024)) (fail : Bool) (s : State), Completes (.powerDownComplete samples fail) s ((powerDownComplete samples fail).run s)) ∧
  (∀ (s : State), Completes .suspendMaxExpiry s (suspendMaxExpiry.run s)) ∧
  (∀ (pid : Pid) (d : Fin 4) (s : State), Completes (.dieEnable pid d) s ((dieEnable pid d).run s)) ∧
  (∀ (s : State), Completes .surgeEnter s (surgeEnter.run s)) ∧
  (∀ (s : State), Completes .surgeExit s (surgeExit.run s)) ∧
  (∀ (s : State), Completes .ovLong s (ovLong.run s)) ∧
  (∀ (s : State), Completes .ovLongRelease s (ovLongRelease.run s)) ∧
  (∀ (s : State), Completes .lowvEnter s (lowvEnter.run s)) ∧
  (∀ (s : State), Completes .lowvExit s (lowvExit.run s)) ∧
  (∀ (s : State), Completes .brownout s (brownout.run s)) ∧
  (∀ (s : State), Completes .brownoutRecovery s (brownoutRecovery.run s)) ∧
  (∀ (s : State), Completes .retentionLoss s (retentionLoss.run s)) ∧
  (∀ (s : State), Completes .porAssert s (porAssert.run s)) ∧
  (∀ (s : State), Completes .powerOnReset s (powerOnReset.run s)) ∧
  (∀ (s : State), Completes .reversalEnd s (reversalEnd.run s)) ∧
  (∀ (i : Fin 2) (s : State), Completes (.kl30Lost i) s ((kl30Lost i).run s)) ∧
  (∀ (i : Fin 2) (s : State), Completes (.kl30Restored i) s ((kl30Restored i).run s)) ∧
  (∀ (i : Fin 2) (s : State), Completes (.batLost i) s ((batLost i).run s)) ∧
  (∀ (i : Fin 2) (s : State), Completes (.batRestored i) s ((batRestored i).run s)) ∧
  (∀ (s : State), Completes .gndLoss s (gndLoss.run s)) ∧
  (∀ (i : Fin 10) (rise : Bool) (samples : List (Fin 1024)) (fail : Bool) (s : State), Completes (.wakeComparatorEvent i rise samples fail) s ((wakeComparatorEvent i rise samples fail).run s)) ∧
  (∀ (i : Fin 10) (s : State), Completes (.dsMaskRearm i) s ((dsMaskRearm i).run s)) ∧
  (∀ (c : Fin 32) (v : Fin 1024) (late : Bool) (fail : Bool) (s : State), Completes (.gladeSampleDue c v late fail) s ((Upd.seq (workFire 22 (some c.val)) (gladeSampleDue c v late fail)).run s)) ∧
  (∀ (c : Fin 32) (s : State), Completes (.gladeConversionTimeout c) s ((gladeConversionTimeout c).run s)) ∧
  (∀ (k : Fin 8) (s : State), Completes (.flashToggle k) s ((flashToggle k).run s)) ∧
  (∀ (k : Fin 8) (s : State), Completes (.maxOnExpiry k) s ((maxOnExpiry k).run s)) ∧
  (∀ (k : Fin 8) (s : State), Completes (.dloadReturn k) s ((dloadReturn k).run s)) ∧
  (∀ (s : State), Completes .gladeServiceEnd s (gladeServiceEnd.run s)) ∧
  (∀ (s : State), Completes .watchMaxExpiry s (watchMaxExpiry.run s)) ∧
  (∀ (s : State), Completes .gladeSeqWdog s (gladeSeqWdog.run s)) ∧
  (∀ (pid : Pid) (s : State), Completes (.wakeReasonClear pid) s ((wakeReasonClear pid).run s)) ∧
  (∀ (pid : Pid) (s : State), Completes (.gldWakeAck pid) s ((gldWakeAck pid).run s)) ∧
  (∀ (s : State), Completes .validationWindowExpiry s (validationWindowExpiry.run s)) ∧
  (∀ (pid : Pid) (hi : Bool) (v : Word) (s : State), Completes (.fwDisClear pid hi v) s ((fwDisClear pid hi v).run s)) ∧
  (∀ (pid : Pid) (s : State), Completes (.gladeStoreSave pid) s ((gladeStoreSave pid).run s)) ∧
  (∀ (ok : Bool) (s : State), Completes (.gladeSaveDone ok) s ((gladeSaveDone ok).run s)) ∧
  (∀ (x : BootIn) (recA recB okA okB : Bool) (s : State), Completes (.moduleResetRelease x recA recB okA okB) s ((moduleResetRelease x recA recB okA okB).run s)) ∧
  (∀ (s : State), Completes .bootTimeout s (bootTimeout.run s)) ∧
  (∀ (pid : Pid) (key : Fin 256) (s : State), Completes (.softwareReset pid key) s ((softwareReset pid key).run s)) ∧
  (∀ (s : State), Completes .debugReset s (debugReset.run s)) ∧
  (∀ (s : State), Completes .loopCntClear s (loopCntClear.run s)) ∧
  (∀ (s : State), Completes .perstAssert s (perstAssert.run s)) ∧
  (∀ (s : State), Completes .perstDeassert s (perstDeassert.run s)) ∧
  (∀ (s : State), Completes .testAccessReset s (testAccessReset.run s))
/-- Completion: the commands of the vault, the clusters, the triplets, the pair, the load channels and the sense inputs -/
def Obligations.VaultCoresLoadsComplete : Prop :=
  (∀ (pid : Pid) (slot : Fin 512) (s : State), Completes (.slotWrite pid slot) s ((slotWrite pid slot).run s)) ∧
  (∀ (pid : Pid) (slot : Fin 512) (s : State), Completes (.slotGenerate pid slot) s ((slotGenerate pid slot).run s)) ∧
  (∀ (pid : Pid) (slot : Fin 512) (s : State), Completes (.slotDerive pid slot) s ((slotDerive pid slot).run s)) ∧
  (∀ (pid : Pid) (slot : Fin 512) (s : State), Completes (.slotInvalidate pid slot) s ((slotInvalidate pid slot).run s)) ∧
  (∀ (pid : Pid) (slot : Fin 512) (s : State), Completes (.slotErase pid slot) s ((slotErase pid slot).run s)) ∧
  (∀ (s : State), Completes .purgeVisit s (purgeVisit.run s)) ∧
  (∀ (s : State), Completes .trngHealthFail s (trngHealthFail.run s)) ∧
  (∀ (s : State), Completes .drbgReseed s (drbgReseed.run s)) ∧
  (∀ (pid : Pid) (key : Fin 256) (target : Fin 8) (s : State), Completes (.lifecycleCommand pid key target) s ((lifecycleCommand pid key target).run s)) ∧
  (∀ (s : State), Completes .lifecycleFuseBlown s (lifecycleFuseBlown.run s)) ∧
  (∀ (pid : Pid) (r : Fin 32) (tail : Fin 1024) (s : State), Completes (.vltRingDoorbell pid r tail) s ((vltRingDoorbell pid r tail).run s)) ∧
  (∀ (bad : Bool) (s : State), Completes (.jobCipher bad) s ((Upd.seq (workFire 5 none) (jobCipher bad)).run s)) ∧
  (∀ (bad : Bool) (s : State), Completes (.jobMac bad) s ((Upd.seq (workFire 5 none) (jobMac bad)).run s)) ∧
  (∀ (s : State), Completes .jobHash s ((Upd.seq (workFire 5 none) (jobHash)).run s)) ∧
  (∀ (bad : Bool) (s : State), Completes (.jobSign bad) s ((Upd.seq (workFire 5 none) (jobSign bad)).run s)) ∧
  (∀ (bad : Bool) (s : State), Completes (.jobVerify bad) s ((Upd.seq (workFire 5 none) (jobVerify bad)).run s)) ∧
  (∀ (bad : Bool) (s : State), Completes (.jobAgree bad) s ((Upd.seq (workFire 5 none) (jobAgree bad)).run s)) ∧
  (∀ (bad : Bool) (s : State), Completes (.jobDerive bad) s ((Upd.seq (workFire 5 none) (jobDerive bad)).run s)) ∧
  (∀ (bad : Bool) (s : State), Completes (.jobPubkey bad) s ((Upd.seq (workFire 5 none) (jobPubkey bad)).run s)) ∧
  (∀ (s : State), Completes .jobRandom s ((Upd.seq (workFire 5 none) (jobRandom)).run s)) ∧
  (∀ (bad : Bool) (s : State), Completes (.jobQuote bad) s ((Upd.seq (workFire 5 none) (jobQuote bad)).run s)) ∧
  (∀ (s : State), Completes .jobAuth s ((Upd.seq (workFire 5 none) (jobAuth)).run s)) ∧
  (∀ (s : State), Completes .jobArb s ((Upd.seq (workFire 5 none) (jobArb)).run s)) ∧
  (∀ (s : State), Completes .jobOtpAuth s ((Upd.seq (workFire 5 none) (jobOtpAuth)).run s)) ∧
  (∀ (s : State), Completes .jobErase s ((Upd.seq (workFire 5 none) (jobErase)).run s)) ∧
  (∀ (pid : Pid) (m : Fin 16) (s : State), Completes (.measExtend pid m) s ((measExtend pid m).run s)) ∧
  (∀ (pid : Pid) (s : State), Completes (.measR0Close pid) s ((measR0Close pid).run s)) ∧
  (∀ (op : DbgAuth) (s : State), Completes (.debugAuth op) s ((debugAuth op).run s)) ∧
  (∀ (h : Fin 12) (mode : Fin 5) (v : Option (BitVec 64)) (s : State), Completes (.hvpidWrite h mode v) s ((hvpidWrite h mode v).run s)) ∧
  (∀ (h : Fin 12) (s : State), Completes (.specBar h) s ((specBar h).run s)) ∧
  (∀ (h : Fin 12) (addr : BitVec 64) (s : State), Completes (.cboFlush h addr) s ((cboFlush h addr).run s)) ∧
  (∀ (pid : Pid) (k : Fin 3) (v : Word) (s : State), Completes (.clusterClockChange pid k v) s ((clusterClockChange pid k v).run s)) ∧
  (∀ (k : Fin 3) (s : State), Completes (.clockChangeDone k) s ((clockChangeDone k).run s)) ∧
  (∀ (pid : Pid) (h : Fin 12) (s : State), Completes (.hartRun pid h) s ((hartRun pid h).run s)) ∧
  (∀ (pid : Pid) (h : Fin 12) (s : State), Completes (.hartStop pid h) s ((hartStop pid h).run s)) ∧
  (∀ (s : State), Completes .pageRetireDone s (pageRetireDone.run s)) ∧
  (∀ (ecc : Fin 3) (s : State), Completes (.scrubStep ecc) s ((Upd.seq (workFire 4 none) (scrubStep ecc)).run s)) ∧
  (∀ (s : State), Completes .rekeyDone s (rekeyDone.run s)) ∧
  (∀ (x : Fin 2) (v : Fin 5) (c : Fin 5) (part : Fin 5) (tcm : Option (Fin 131072 × Bool)) (s : State), Completes (.iwVote x v c part tcm) s ((Upd.seq (workFire (1 + x.val) none) (iwVote x v c part tcm)).run s)) ∧
  (∀ (x : Fin 2) (ok : Bool) (s : State), Completes (.resyncDone x ok) s ((resyncDone x ok).run s)) ∧
  (∀ (pid : Pid) (x : Fin 2) (k : Fin 3) (s : State), Completes (.iwCoreRetireCmd pid x k) s ((iwCoreRetireCmd pid x k).run s)) ∧
  (∀ (pid : Pid) (x : Fin 2) (k : Fin 3) (s : State), Completes (.iwCoreRearm pid x k) s ((iwCoreRearm pid x k).run s)) ∧
  (∀ (x : Fin 2) (s : State), Completes (.iwDecayTick x) s ((iwDecayTick x).run s)) ∧
  (∀ (x : Fin 2) (ok : Bool) (s : State), Completes (.voterSelftestInject x ok) s ((voterSelftestInject x ok).run s)) ∧
  (∀ (x : Fin 2) (fails : Fin 8) (s : State), Completes (.startupSelftestDone x fails) s ((startupSelftestDone x fails).run s)) ∧
  (∀ (pid : Pid) (x : Fin 2) (s : State), Completes (.tripletRestart pid x) s ((tripletRestart pid x).run s)) ∧
  (∀ (pid : Pid) (x : Fin 2) (c : Fin 2) (s : State), Completes (.irqClaim pid x c) s ((irqClaim pid x c).run s)) ∧
  (∀ (pid : Pid) (x : Fin 2) (c : Fin 2) (n : Fin 256) (s : State), Completes (.irqComplete pid x c n) s ((irqComplete pid x c n).run s)) ∧
  (∀ (x : Fin 2) (c : Fin 2) (s : State), Completes (.machineTimerInterrupt x c) s ((machineTimerInterrupt x c).run s)) ∧
  (∀ (pid : Pid) (x : Fin 2) (ch : Fin 4) (irq : Bool) (s : State), Completes (.iwDmaStart pid x ch irq) s ((iwDmaStart pid x ch irq).run s)) ∧
  (∀ (x : Fin 2) (ch : Fin 4) (s : State), Completes (.iwDmaDone x ch) s ((Upd.seq (workFire (1 + x.val) none) (iwDmaDone x ch)).run s)) ∧
  (∀ (t : Fin 18) (s : State), Completes (.debugHalt t) s ((debugHalt t).run s)) ∧
  (∀ (t : Fin 18) (s : State), Completes (.debugResume t) s ((debugResume t).run s)) ∧
  (∀ (ok : Fin 32) (s : State), Completes (.cycleBoundary ok) s ((Upd.seq (workFire 3 none) (cycleBoundary ok)).run s)) ∧
  (∀ (s : State), Completes .snapshotReady s ((Upd.seq (workFire 3 none) (snapshotReady)).run s)) ∧
  (∀ (s : State), Completes .comparePoint s (comparePoint.run s)) ∧
  (∀ (s : State), Completes .mmDecayTick s (mmDecayTick.run s)) ∧
  (∀ (go : Bool) (s : State), Completes (.stUnitStart go) s ((stUnitStart go).run s)) ∧
  (∀ (slice : Bool) (march : Bool) (s : State), Completes (.stUnitEnd slice march) s ((stUnitEnd slice march).run s)) ∧
  (∀ (pid : Pid) (g : Fin 64) (w : Word) (s : State), Completes (.channelCommand pid g w) s ((channelCommand pid g w).run s)) ∧
  (∀ (pid : Pid) (g : Fin 64) (w : Word) (s : State), Completes (.channelConfigWrite pid g w) s ((channelConfigWrite pid g w).run s)) ∧
  (∀ (g : Fin 64) (t : Nat) (s : State), Completes (.pwmPeriodStart g t) s ((Upd.seq (workFire (16 + g.val / 16) (some (g.val % 16))) (pwmPeriodStart g t)).run s)) ∧
  (∀ (g : Fin 64) (t : Nat) (uj : Nat) (s : State), Completes (.pwmOnPhaseEnd g t uj) s ((Upd.seq (workFire (16 + g.val / 16) (some (g.val % 16))) (pwmOnPhaseEnd g t uj)).run s)) ∧
  (∀ (g : Fin 64) (s : State), Completes (.motorRampStep g) s ((Upd.seq (workFire (16 + g.val / 16) (some (g.val % 16))) (motorRampStep g)).run s)) ∧
  (∀ (g : Fin 64) (s : State), Completes (.motorStartWindowEnd g) s ((motorStartWindowEnd g).run s)) ∧
  (∀ (g : Fin 64) (s : State), Completes (.valvePeakEnd g) s ((valvePeakEnd g).run s)) ∧
  (∀ (g : Fin 64) (x : LoadSample) (s : State), Completes (.currentSample g x) s ((Upd.seq (workFire (16 + g.val / 16) (some (g.val % 16))) (currentSample g x)).run s)) ∧
  (∀ (g : Fin 64) (s : State), Completes (.channelPublish g) s ((Upd.seq (workFire (16 + g.val / 16) (some (g.val % 16))) (channelPublish g)).run s)) ∧
  (∀ (g : Fin 64) (s : State), Completes (.boundSignalUpdate g) s ((boundSignalUpdate g).run s)) ∧
  (∀ (g : Fin 64) (s : State), Completes (.bindTimeout g) s ((bindTimeout g).run s)) ∧
  (∀ (s : State), Completes .governorEval s (governorEval.run s)) ∧
  (∀ (b : Fin 3) (s : State), Completes (.governorOverrunShed b) s ((governorOverrunShed b).run s)) ∧
  (∀ (g : Fin 64) (uj : Nat) (vClamp : Nat) (tNs : Nat) (s : State), Completes (.turnOffComplete g uj vClamp tNs) s ((Upd.seq (workFire (16 + g.val / 16) (some (g.val % 16))) (turnOffComplete g uj vClamp tNs)).run s)) ∧
  (∀ (g : Fin 64) (s : State), Completes (.limitTimeTrip g) s ((limitTimeTrip g).run s)) ∧
  (∀ (g : Fin 64) (s : State), Completes (.wireModelStep g) s ((wireModelStep g).run s)) ∧
  (∀ (g : Fin 64) (s : State), Completes (.thermalShutdown g) s ((thermalShutdown g).run s)) ∧
  (∀ (g : Fin 64) (wire : Bool) (s : State), Completes (.thermalLatchClear g wire) s ((thermalLatchClear g wire).run s)) ∧
  (∀ (d : Fin 4) (t : Fin 256) (s : State), Completes (.dieTempChange d t) s ((dieTempChange d t).run s)) ∧
  (∀ (d : Fin 4) (s : State), Completes (.dieShedStep d) s ((dieShedStep d).run s)) ∧
  (∀ (d : Fin 4) (s : State), Completes (.dieUvSet d) s ((dieUvSet d).run s)) ∧
  (∀ (d : Fin 4) (s : State), Completes (.dieUvClear d) s ((dieUvClear d).run s)) ∧
  (∀ (g : Fin 64) (s : State), Completes (.clampBudgetExceeded g) s ((clampBudgetExceeded g).run s)) ∧
  (∀ (g : Fin 64) (s : State), Completes (.softRampHot g) s ((softRampHot g).run s)) ∧
  (∀ (g : Fin 64) (s : State), Completes (.repetitiveClampTrip g) s ((repetitiveClampTrip g).run s)) ∧
  (∀ (g : Fin 64) (s : State), Completes (.retryDelayExpiry g) s ((retryDelayExpiry g).run s)) ∧
  (∀ (g : Fin 64) (s : State), Completes (.retryBudgetRefill g) s ((retryBudgetRefill g).run s)) ∧
  (∀ (g : Fin 64) (s : State), Completes (.coolWaitExpiry g) s ((coolWaitExpiry g).run s)) ∧
  (∀ (g : Fin 64) (t : Nat) (s : State), Completes (.offstateTestStart g t) s ((Upd.seq (workFire (16 + g.val / 16) (some (g.val % 16))) (offstateTestStart g t)).run s)) ∧
  (∀ (g : Fin 64) (v : Fin 4096) (s : State), Completes (.offstateTestDone g v) s ((offstateTestDone g v).run s)) ∧
  (∀ (g : Fin 64) (s : State), Completes (.olonDetect g) s ((olonDetect g).run s)) ∧
  (∀ (pid : Pid) (g : Fin 64) (s : State), Completes (.olonClear pid g) s ((olonClear pid g).run s)) ∧
  (∀ (g : Fin 64) (s : State), Completes (.lampCompUpdate g) s ((lampCompUpdate g).run s)) ∧
  (∀ (g : Fin 64) (s : State), Completes (.inrushWindowEnd g) s ((inrushWindowEnd g).run s)) ∧
  (∀ (d : Fin 4) (s : State), Completes (.dgFwStop d) s ((dgFwStop d).run s)) ∧
  (∀ (n : Fin 48) (raw : Fin 4096) (late : Bool) (s : State), Completes (.sniSampleDue n raw late) s ((Upd.seq (workFire 20 none) (sniSampleDue n raw late)).run s)) ∧
  (∀ (n : Fin 48) (s : State), Completes (.sniConvTimeout n) s ((sniConvTimeout n).run s)) ∧
  (∀ (n : Fin 48) (s : State), Completes (.sniPublish n) s ((sniPublish n).run s)) ∧
  (∀ (pid : Pid) (n : Fin 48) (r : Fin 4) (w : Word) (s : State), Completes (.sniConfigWrite pid n r w) s ((sniConfigWrite pid n r w).run s))
/-- Completion: the commands of CAN, LIN, Ethernet, the switch, the time base and the signal router -/
def Obligations.NetworksSignalsComplete : Prop :=
  (∀ (c : Fin 16) (s : State), Completes (.canIntegrated c) s ((canIntegrated c).run s)) ∧
  (∀ (pid : Pid) (c : Fin 16) (v : Word) (s : State), Completes (.canTxbufRequest pid c v) s ((canTxbufRequest pid c v).run s)) ∧
  (∀ (pid : Pid) (c : Fin 16) (v : Word) (s : State), Completes (.canTxbufCancel pid c v) s ((canTxbufCancel pid c v).run s)) ∧
  (∀ (c : Fin 16) (ecc : Fin 3) (word : Nat) (s : State), Completes (.canArbitration c ecc word) s ((Upd.seq (workFire 9 (some c.val)) (canArbitration c ecc word)).run s)) ∧
  (∀ (c : Fin 16) (dly : Option (Fin 128)) (s : State), Completes (.canTxSuccess c dly) s ((canTxSuccess c dly).run s)) ∧
  (∀ (c : Fin 16) (e : Option CanError) (dly : Option (Fin 128)) (s : State), Completes (.canTxError c e dly) s ((canTxError c e dly).run s)) ∧
  (∀ (c : Fin 16) (s : State), Completes (.canBoDelayExpiry c) s ((canBoDelayExpiry c).run s)) ∧
  (∀ (pid : Pid) (c : Fin 16) (s : State), Completes (.canRecover pid c) s ((canRecover pid c).run s)) ∧
  (∀ (c : Fin 16) (s : State), Completes (.canRecoveryDone c) s ((canRecoveryDone c).run s)) ∧
  (∀ (pid : Pid) (c : Fin 16) (s : State), Completes (.canBoDiscardWrite pid c) s ((canBoDiscardWrite pid c).run s)) ∧
  (∀ (c : Fin 16) (e : CanError) (exc : Bool) (s : State), Completes (.canErrorDetected c e exc) s ((canErrorDetected c e exc).run s)) ∧
  (∀ (c : Fin 16) (s : State), Completes (.canDomTimeout c) s ((canDomTimeout c).run s)) ∧
  (∀ (c : Fin 16) (s : State), Completes (.canTsWrap c) s ((canTsWrap c).run s)) ∧
  (∀ (pid : Pid) (v : Fin 65536) (s : State), Completes (.canTsSync pid v) s ((canTsSync pid v).run s)) ∧
  (∀ (c : Fin 16) (f : CanFrame) (ago : Nat) (ecc : Fin 3) (word : Nat) (s : State), Completes (.canArbFieldFilter c f ago ecc word) s ((Upd.seq (workFire 9 (some c.val)) (canArbFieldFilter c f ago ecc word)).run s)) ∧
  (∀ (c : Fin 16) (data : List Byte) (s : State), Completes (.canFrameValid c data) s ((Upd.seq (workFire 9 (some c.val)) (canFrameValid c data)).run s)) ∧
  (∀ (pid : Pid) (c : Fin 16) (sec : Fin 4) (buf : Fin 64) (s : State), Completes (.canLockRead pid c sec buf) s ((canLockRead pid c sec buf).run s)) ∧
  (∀ (pid : Pid) (c : Fin 16) (sec : Fin 4) (buf : Fin 64) (s : State), Completes (.canReleaseRead pid c sec buf) s ((canReleaseRead pid c sec buf).run s)) ∧
  (∀ (c : Fin 16) (sec : Fin 4) (s : State), Completes (.canLockTimeout c sec) s ((canLockTimeout c sec).run s)) ∧
  (∀ (pid : Pid) (c : Fin 16) (ack : Bool) (target : Fin 4) (buf : Fin 64) (s : State), Completes (.canRxRelease pid c ack target buf) s ((canRxRelease pid c ack target buf).run s)) ∧
  (∀ (pid : Pid) (c : Fin 16) (hi : Bool) (v : Word) (s : State), Completes (.canRxbufNewClear pid c hi v) s ((canRxbufNewClear pid c hi v).run s)) ∧
  (∀ (pid : Pid) (c : Fin 16) (s : State), Completes (.canTxqPush pid c) s ((canTxqPush pid c).run s)) ∧
  (∀ (pid : Pid) (c : Fin 16) (v : Word) (s : State), Completes (.canTxqCancel pid c v) s ((canTxqCancel pid c v).run s)) ∧
  (∀ (n : Fin 12) (bad : Bool) (s : State), Completes (.linSlotStart n bad) s ((Upd.seq (workFire 10 (some n.val)) (linSlotStart n bad)).run s)) ∧
  (∀ (n : Fin 12) (sync : Bool) (pid : Fin 256) (bad : Bool) (s : State), Completes (.linHeaderReceived n sync pid bad) s ((Upd.seq (workFire 10 (some n.val)) (linHeaderReceived n sync pid bad)).run s)) ∧
  (∀ (n : Fin 12) (res : Fin 7) (data : List Byte) (s : State), Completes (.linFrameEnd n res data) s ((linFrameEnd n res data).run s)) ∧
  (∀ (n : Fin 12) (any : Bool) (s : State), Completes (.linResponseTimeout n any) s ((linResponseTimeout n any).run s)) ∧
  (∀ (pid : Pid) (n : Fin 12) (run : Bool) (start : Fin 64) (s : State), Completes (.linSchedRun pid n run start) s ((linSchedRun pid n run start).run s)) ∧
  (∀ (pid : Pid) (n : Fin 12) (next : Fin 64) (s : State), Completes (.linSchedSwitch pid n next) s ((linSchedSwitch pid n next).run s)) ∧
  (∀ (pid : Pid) (n : Fin 12) (s : State), Completes (.linSleep pid n) s ((linSleep pid n).run s)) ∧
  (∀ (pid : Pid) (n : Fin 12) (s : State), Completes (.linWakeTx pid n) s ((linWakeTx pid n).run s)) ∧
  (∀ (n : Fin 12) (fail : Bool) (s : State), Completes (.linWakePulse n fail) s ((linWakePulse n fail).run s)) ∧
  (∀ (n : Fin 12) (s : State), Completes (.linIdle4s n) s ((linIdle4s n).run s)) ∧
  (∀ (n : Fin 12) (s : State), Completes (.linWakeHoldEnd n) s ((linWakeHoldEnd n).run s)) ∧
  (∀ (n : Fin 12) (s : State), Completes (.linDomTimeout n) s ((linDomTimeout n).run s)) ∧
  (∀ (n : Fin 12) (s : State), Completes (.linBusStuck n) s ((linBusStuck n).run s)) ∧
  (∀ (p : Fin 20) (up : Bool) (master : Bool) (sqi : Fin 8) (capable : Bool) (twMin : Fin 16384) (s : State), Completes (.ethLinkChange p up master sqi capable twMin) s ((ethLinkChange p up master sqi capable twMin).run s)) ∧
  (∀ (p : Fin 25) (f : List Byte) (phyErr : Bool) (fcsErr : Bool) (ago : Nat) (ce : Bool) (saBad : Option (Fin 20)) (s : State), Completes (.ethFrameRx p f phyErr fcsErr ago ce saBad) s ((Upd.seq (workFire 7 (some p.val)) (ethFrameRx p f phyErr fcsErr ago ce saBad)).run s)) ∧
  (∀ (p : Fin 25) (s : State), Completes (.ethDropInterval p) s ((ethDropInterval p).run s)) ∧
  (∀ (p : Fin 25) (fail : Fin 6) (ago : Nat) (s : State), Completes (.macTxStart p fail ago) s ((Upd.seq (workFire 7 (some p.val)) (macTxStart p fail ago)).run s)) ∧
  (∀ (p : Fin 25) (late : Nat) (s : State), Completes (.macUnderrun p late) s ((macUnderrun p late).run s)) ∧
  (∀ (pid : Pid) (p : Fin 25) (step : Fin 256) (start : Fin 256) (s : State), Completes (.txThrWrite pid p step start) s ((txThrWrite pid p step start).run s)) ∧
  (∀ (pid : Pid) (p : Fin 2) (q : Fin 8) (tail : Fin 4096) (s : State), Completes (.cTxTailWrite pid p q tail) s ((cTxTailWrite pid p q tail).run s)) ∧
  (∀ (x : Fin 2) (stop : Fin 3) (n : Nat) (s : State), Completes (.cPortSend x stop n) s ((Upd.seq (workFire 7 (some (20 + x.val))) (cPortSend x stop n)).run s)) ∧
  (∀ (pid : Pid) (p : Fin 2) (q : Fin 8) (tail : Fin 4096) (s : State), Completes (.cRxTailWrite pid p q tail) s ((cRxTailWrite pid p q tail).run s)) ∧
  (∀ (p : Fin 18) (s : State), Completes (.lpiEnter p) s ((lpiEnter p).run s)) ∧
  (∀ (p : Fin 18) (s : State), Completes (.lpiExit p) s ((lpiExit p).run s)) ∧
  (∀ (pid : Pid) (p : Fin 25) (e : Fin 20) (slot : Fin 512) (s : State), Completes (.macsecSaEnable pid p e slot) s ((macsecSaEnable pid p e slot).run s)) ∧
  (∀ (s : State), Completes .phyFwStop s (phyFwStop.run s)) ∧
  (∀ (p : Fin 25) (head : List Byte) (ecc : Option (Nat × Nat)) (ce : Bool) (s : State), Completes (.switchDecision p head ecc ce) s ((Upd.seq (workFire 8 none) (switchDecision p head ecc ce)).run s)) ∧
  (∀ (plane : Fin 2) (s : State), Completes (.cellTimeMatch plane) s ((cellTimeMatch plane).run s)) ∧
  (∀ (pid : Pid) (j : Fin 9) (v : Word) (s : State), Completes (.pmapWrite pid j v) s ((pmapWrite pid j v).run s)) ∧
  (∀ (s : State), Completes .pmapApply s (pmapApply.run s)) ∧
  (∀ (pid : Pid) (table : Fin 16) (index : Fin 65536) (s : State), Completes (.tblRead pid table index) s ((tblRead pid table index).run s)) ∧
  (∀ (pid : Pid) (table : Fin 16) (index : Fin 65536) (hold : Bool) (s : State), Completes (.tblWrite pid table index hold) s ((tblWrite pid table index hold).run s)) ∧
  (∀ (pid : Pid) (table : Fin 16) (index : Fin 65536) (hold : Bool) (s : State), Completes (.tblDelete pid table index hold) s ((tblDelete pid table index hold).run s)) ∧
  (∀ (pid : Pid) (table : Fin 16) (index : Fin 65536) (s : State), Completes (.tblSearch pid table index) s ((tblSearch pid table index).run s)) ∧
  (∀ (i : Fin 32768) (s : State), Completes (.fdbAgeOut i) s ((fdbAgeOut i).run s)) ∧
  (∀ (p : Fin 25) (t : Fin 8) (s : State), Completes (.wredAvgTick p t) s ((wredAvgTick p t).run s)) ∧
  (∀ (p : Fin 25) (s : State), Completes (.queueHoldExpiry p) s ((queueHoldExpiry p).run s)) ∧
  (∀ (p : Fin 25) (t : Fin 8) (s : State), Completes (.gateFitDrop p t) s ((gateFitDrop p t).run s)) ∧
  (∀ (pid : Pid) (tmo : Fin 65536) (s : State), Completes (.swcDrainRequest pid tmo) s ((swcDrainRequest pid tmo).run s)) ∧
  (∀ (s : State), Completes .swcDrainDone s (swcDrainDone.run s)) ∧
  (∀ (s : State), Completes .swcDrainTimeout s (swcDrainTimeout.run s)) ∧
  (∀ (pid : Pid) (p : Fin 25) (s : State), Completes (.gclChangeRequest pid p) s ((gclChangeRequest pid p).run s)) ∧
  (∀ (p : Fin 25) (s : State), Completes (.gclChange p) s ((gclChange p).run s)) ∧
  (∀ (p : Fin 25) (s : State), Completes (.gclEntryAdvance p) s ((gclEntryAdvance p).run s)) ∧
  (∀ (pid : Pid) (v : Word) (s : State), Completes (.tmbRateWrite pid v) s ((tmbRateWrite pid v).run s)) ∧
  (∀ (pid : Pid) (v : Word) (s : State), Completes (.tmbAdjWrite pid v) s ((tmbAdjWrite pid v).run s)) ∧
  (∀ (s : State), Completes .slewDone s (slewDone.run s)) ∧
  (∀ (pid : Pid) (s : State), Completes (.tmbStep pid) s ((tmbStep pid).run s)) ∧
  (∀ (got : Fin 16) (s : State), Completes (.dieTimeUpdate got) s ((Upd.seq (workFire 12 none) (dieTimeUpdate got)).run s)) ∧
  (∀ (d : Fin 4) (s : State), Completes (.dieUnsync d) s ((dieUnsync d).run s)) ∧
  (∀ (pid : Pid) (s : State), Completes (.tsPop pid) s ((tsPop pid).run s)) ∧
  (∀ (pid : Pid) (port : Fin 32) (len : Fin 256) (s : State), Completes (.ptpTx pid port len) s ((ptpTx pid port len).run s)) ∧
  (∀ (s : State), Completes .ppsPulse s ((Upd.seq (workFire 12 none) (ppsPulse)).run s)) ∧
  (∀ (s : State), Completes .ppsPulseEnd s (ppsPulseEnd.run s)) ∧
  (∀ (s : State), Completes .ppsCapture s (ppsCapture.run s)) ∧
  (∀ (pid : Pid) (ch : Fin 16) (s : State), Completes (.canCapture pid ch) s ((canCapture pid ch).run s)) ∧
  (∀ (s : State), Completes .canCaptureAuto s (canCaptureAuto.run s)) ∧
  (∀ (commit : Option Nat) (ecc : Option Nat) (ce : Bool) (s : State), Completes (.pduIngress commit ecc ce) s ((Upd.seq (workFire 11 none) (pduIngress commit ecc ce)).run s)) ∧
  (∀ (d : Fin 65536) (s : State), Completes (.pduRxTimeout d) s ((pduRxTimeout d).run s)) ∧
  (∀ (pid : Pid) (addr : Fin 2147483648) (s : State), Completes (.sigWrite pid addr) s ((sigWrite pid addr).run s)) ∧
  (∀ (pid : Pid) (addr : Fin 2147483648) (s : State), Completes (.sigRead pid addr) s ((sigRead pid addr).run s)) ∧
  (∀ (d : Fin 65536) (s : State), Completes (.cyclicSendDue d) s ((Upd.seq (workFire 11 none) (cyclicSendDue d)).run s)) ∧
  (∀ (d : Fin 65536) (s : State), Completes (.minGapEnd d) s ((minGapEnd d).run s)) ∧
  (∀ (d : Fin 65536) (s : State), Completes (.heldSendRelease d) s ((heldSendRelease d).run s)) ∧
  (∀ (s : State), Completes .srBundleExpiry s (srBundleExpiry.run s)) ∧
  (∀ (pid : Pid) (i : Fin 64) (slot : Fin 512) (s : State), Completes (.srtKeyEnable pid i slot) s ((srtKeyEnable pid i slot).run s)) ∧
  (∀ (pid : Pid) (addr : Fin 2147483648) (v : Nat) (s : State), Completes (.remoteSignalIn pid addr v) s ((Upd.seq (workFire 11 none) (remoteSignalIn pid addr v)).run s)) ∧
  (∀ (pid : Pid) (s : State), Completes (.shdPut pid) s ((shdPut pid).run s)) ∧
  (∀ (pid : Pid) (s : State), Completes (.shdClear pid) s ((shdClear pid).run s)) ∧
  (∀ (pid : Pid) (s : State), Completes (.epochCommit pid) s ((epochCommit pid).run s)) ∧
  (∀ (s : State), Completes .epochTakesEffect s (epochTakesEffect.run s)) ∧
  (∀ (s : State), Completes .bankApplyDone s (bankApplyDone.run s)) ∧
  (∀ (pid : Pid) (tmo : Fin 65536) (s : State), Completes (.srtDrainRequest pid tmo) s ((srtDrainRequest pid tmo).run s)) ∧
  (∀ (s : State), Completes .srtDrainDone s (srtDrainDone.run s)) ∧
  (∀ (s : State), Completes .srtDrainTimeout s (srtDrainTimeout.run s)) ∧
  (∀ (pid : Pid) (start : Fin 33554432) (s : State), Completes (.rcPreload pid start) s ((rcPreload pid start).run s)) ∧
  (∀ (s : State), Completes .rcPreloadDone s (rcPreloadDone.run s)) ∧
  (∀ (pid : Pid) (s : State), Completes (.rcInvalidate pid) s ((rcInvalidate pid).run s)) ∧
  (∀ (pid : Pid) (gsid : Fin 33554432) (s : State), Completes (.rtRead pid gsid) s ((rtRead pid gsid).run s))
/-- Completion: the commands of network management, the chain, the host bridge and the instances -/
def Obligations.WakeChainHostInstancesComplete : Prop :=
  (∀ (c : Fin 36) (s : State), Completes (.nmMsgCycle c) s ((Upd.seq (workFire 15 none) (nmMsgCycle c)).run s)) ∧
  (∀ (c : Fin 36) (s : State), Completes (.nmRepeatExpiry c) s ((nmRepeatExpiry c).run s)) ∧
  (∀ (c : Fin 36) (s : State), Completes (.nmTimerExpiry c) s ((nmTimerExpiry c).run s)) ∧
  (∀ (c : Fin 36) (s : State), Completes (.nmWaitSleepExpiry c) s ((nmWaitSleepExpiry c).run s)) ∧
  (∀ (pid : Pid) (c : Fin 36) (on : Bool) (s : State), Completes (.nmSwRequest pid c on) s ((nmSwRequest pid c on).run s)) ∧
  (∀ (pid : Pid) (c : Fin 36) (s : State), Completes (.nmRmrRequest pid c) s ((nmRmrRequest pid c).run s)) ∧
  (∀ (pid : Pid) (c : Fin 36) (on : Bool) (s : State), Completes (.nmSafeRequest pid c on) s ((nmSafeRequest pid c on).run s)) ∧
  (∀ (p : Fin 18) (s : State), Completes (.t1SleepHandshakeFail p) s ((t1SleepHandshakeFail p).run s)) ∧
  (∀ (p : Fin 18) (s : State), Completes (.t1PartnerSleepReq p) s ((t1PartnerSleepReq p).run s)) ∧
  (∀ (c : Fin 8) (e : SwkEvent) (data : List Byte) (fail : Bool) (s : State), Completes (.selectiveWake c e data fail) s ((selectiveWake c e data fail).run s)) ∧
  (∀ (c : Fin 36) (id : Option (Fin 4294967296)) (tx : Bool) (s : State), Completes (.trxWake c id tx) s ((trxWake c id tx).run s)) ∧
  (∀ (c : Fin 36) (s : State), Completes (.maxAwakeReached c) s ((maxAwakeReached c).run s)) ∧
  (∀ (pid : Pid) (c : Fin 36) (s : State), Completes (.ignClear pid c) s ((ignClear pid c).run s)) ∧
  (∀ (pid : Pid) (key : Fin 256) (s : State), Completes (.isoRequest pid key) s ((isoRequest pid key).run s)) ∧
  (∀ (pid : Pid) (key : Fin 256) (s : State), Completes (.isoRelease pid key) s ((isoRelease pid key).run s)) ∧
  (∀ (pid : Pid) (key : Fin 256) (s : State), Completes (.isoRelease3 pid key) s ((isoRelease3 pid key).run s)) ∧
  (∀ (pid : Pid) (s : State), Completes (.nmLogPop pid) s ((nmLogPop pid).run s)) ∧
  (∀ (s : State), Completes .flWakeDriveEnd s (flWakeDriveEnd.run s)) ∧
  (∀ (c : Fin 2) (width : Fin 3) (host : Bool) (isUp : Bool) (mode : Fin 4) (dev : Option (Fin 64)) (s : State), Completes (.finzaTrained c width host isUp mode dev) s ((finzaTrained c width host isUp mode dev).run s)) ∧
  (∀ (pid : Pid) (c : Fin 2) (s : State), Completes (.finzaRetrain pid c) s ((finzaRetrain pid c).run s)) ∧
  (∀ (c : Fin 2) (s : State), Completes (.finzaTrainTimeout c) s ((finzaTrainTimeout c).run s)) ∧
  (∀ (c : Fin 2) (s : State), Completes (.finzaDownRetry c) s ((finzaDownRetry c).run s)) ∧
  (∀ (c : Fin 2) (s : State), Completes (.finzaWidthRetry c) s ((finzaWidthRetry c).run s)) ∧
  (∀ (c : Fin 2) (i : FinzaIn) (s : State), Completes (.finzaPacketRx c i) s ((Upd.seq (workFire 13 (some c.val)) (finzaPacketRx c i)).run s)) ∧
  (∀ (c : Fin 2) (s : State), Completes (.finzaReplayTimeout c) s ((finzaReplayTimeout c).run s)) ∧
  (∀ (c : Fin 2) (s : State), Completes (.finzaRxTimeout c) s ((finzaRxTimeout c).run s)) ∧
  (∀ (s : State), Completes .enumTailTimeout s (enumTailTimeout.run s)) ∧
  (∀ (pid : Pid) (s : State), Completes (.enumRestart pid) s ((enumRestart pid).run s)) ∧
  (∀ (c : Fin 2) (s : State), Completes (.finzaLinkDown c) s ((finzaLinkDown c).run s)) ∧
  (∀ (tag : Fin 256) (s : State), Completes (.chainReadTimeout tag) s ((chainReadTimeout tag).run s)) ∧
  (∀ (src : Fin 64) (s : State), Completes (.tunnelReasmTimeout src) s ((tunnelReasmTimeout src).run s)) ∧
  (∀ (mac : Fin 281474976710656) (bad : Bool) (s : State), Completes (.tunnelAgeOut mac bad) s ((tunnelAgeOut mac bad).run s)) ∧
  (∀ (s : State), Completes .sidebandIrqFall s (sidebandIrqFall.run s)) ∧
  (∀ (s : State), Completes .sidebandFaultLow s (sidebandFaultLow.run s)) ∧
  (∀ (fn : Fin 64) (bar2 : Bool) (off : Fin 17179869184) (data : List Byte) (err : Fin 4) (s : State), Completes (.hostWrite fn bar2 off data err) s ((Upd.seq (workFire 14 none) (hostWrite fn bar2 off data err)).run s)) ∧
  (∀ (fn : Fin 64) (bar2 : Bool) (off : Fin 17179869184) (len : Fin 4097) (atomic : Option (Fin 3 × List Byte)) (err : Fin 4) (s : State), Completes (.hostRead fn bar2 off len atomic err) s ((Upd.seq (workFire 14 none) (hostRead fn bar2 off len atomic err)).run s)) ∧
  (∀ (i : Nat) (barrier : Bool) (s : State), Completes (.hostReadTimeout i barrier) s ((hostReadTimeout i barrier).run s)) ∧
  (∀ (i : Nat) (s : State), Completes (.devReadTimeout i) s ((devReadTimeout i).run s)) ∧
  (∀ (w0 : Word) (w1 : Word) (w2 : Word) (w3 : Word) (s : State), Completes (.writeFaultRx w0 w1 w2 w3) s ((writeFaultRx w0 w1 w2 w3).run s)) ∧
  (∀ (instV : Bool) (inst : Fin 256) (wseq : Fin 65536) (s : State), Completes (.lostPacketRx instV inst wseq) s ((lostPacketRx instV inst wseq).run s)) ∧
  (∀ (pid : Pid) (n : Fin 257) (s : State), Completes (.wsyncBarrier pid n) s ((wsyncBarrier pid n).run s)) ∧
  (∀ (n : Fin 257) (s : State), Completes (.wsyncDone n) s ((wsyncDone n).run s)) ∧
  (∀ (i : Nat) (s : State), Completes (.backoffRetry i) s ((backoffRetry i).run s)) ∧
  (∀ (pid : Pid) (i : Fin 64) (s : State), Completes (.semTake pid i) s ((semTake pid i).run s)) ∧
  (∀ (pid : Pid) (i : Fin 64) (s : State), Completes (.semRelease pid i) s ((semRelease pid i).run s)) ∧
  (∀ (i : Fin 64) (s : State), Completes (.semTimeout i) s ((semTimeout i).run s)) ∧
  (∀ (fn : Fin 64) (s : State), Completes (.functionLevelReset fn) s ((functionLevelReset fn).run s)) ∧
  (∀ (pid : Pid) (n : Fin 256) (kind : Fin 16) (arg : Fin 16777216) (s : State), Completes (.instBind pid n kind arg) s ((instBind pid n kind arg).run s)) ∧
  (∀ (pid : Pid) (n : Fin 256) (s : State), Completes (.instRemove pid n) s ((instRemove pid n).run s)) ∧
  (∀ (n : Fin 256) (s : State), Completes (.mbSend n) s ((mbSend n).run s)) ∧
  (∀ (pid : Pid) (n : Fin 256) (s : State), Completes (.mgrAck pid n) s ((mgrAck pid n).run s)) ∧
  (∀ (pid : Pid) (n : Fin 256) (s : State), Completes (.mgrRing pid n) s ((mgrRing pid n).run s)) ∧
  (∀ (n : Fin 256) (s : State), Completes (.mbAck n) s ((mbAck n).run s)) ∧
  (∀ (n : Fin 256) (v : Word) (s : State), Completes (.funcDoorbell n v) s ((funcDoorbell n v).run s)) ∧
  (∀ (n : Fin 256) (w : Fin 2048) (v : Option Word) (s : State), Completes (.funcWindowAccess n w v) s ((funcWindowAccess n w v).run s)) ∧
  (∀ (pid : Pid) (n : Fin 256) (k : Fin 4) (s : State), Completes (.deliveryUnmask pid n k) s ((deliveryUnmask pid n k).run s)) ∧
  (∀ (n : Fin 256) (s : State), Completes (.instReset n) s ((instReset n).run s))
/-- Completion: the commands of migration and update, and the last rows of the table -/
def Obligations.MigrationUpdateComplete : Prop :=
  (∀ (n : Fin 256) (s : State), Completes (.instResetDone n) s ((instResetDone n).run s)) ∧
  (∀ (pid : Pid) (n : Fin 256) (s : State), Completes (.migFreeze pid n) s ((migFreeze pid n).run s)) ∧
  (∀ (n : Fin 256) (s : State), Completes (.migFrozen n) s ((migFrozen n).run s)) ∧
  (∀ (pid : Pid) (n : Fin 256) (jrnl : Bool) (s : State), Completes (.migSave pid n jrnl) s ((migSave pid n jrnl).run s)) ∧
  (∀ (s : State), Completes .migSaveDone s (migSaveDone.run s)) ∧
  (∀ (pid : Pid) (n : Fin 256) (s : State), Completes (.migRestore pid n) s ((migRestore pid n).run s)) ∧
  (∀ (pid : Pid) (n : Fin 256) (s : State), Completes (.migResume pid n) s ((migResume pid n).run s)) ∧
  (∀ (pid : Pid) (s : State), Completes (.migLogOn pid) s ((migLogOn pid).run s)) ∧
  (∀ (pid : Pid) (s : State), Completes (.migLogOff pid) s ((migLogOff pid).run s)) ∧
  (∀ (pid : Pid) (s : State), Completes (.migSwap pid) s ((migSwap pid).run s)) ∧
  (∀ (pid : Pid) (s : State), Completes (.migCopy pid) s ((migCopy pid).run s)) ∧
  (∀ (s : State), Completes .migCopyDone s (migCopyDone.run s)) ∧
  (∀ (pid : Pid) (s : State), Completes (.migRecover pid) s ((migRecover pid).run s)) ∧
  (∀ (pid : Pid) (s : State), Completes (.updOpen pid) s ((updOpen pid).run s)) ∧
  (∀ (pid : Pid) (s : State), Completes (.updChunk pid) s ((updChunk pid).run s)) ∧
  (∀ (s : State), Completes .relayChunkRx s (relayChunkRx.run s)) ∧
  (∀ (pid : Pid) (s : State), Completes (.updCommit pid) s ((updCommit pid).run s)) ∧
  (∀ (res : Fin 3) (s : State), Completes (.commitStepDone res) s ((commitStepDone res).run s)) ∧
  (∀ (pid : Pid) (s : State), Completes (.updAbort pid) s ((updAbort pid).run s)) ∧
  (∀ (pid : Pid) (s : State), Completes (.updFallback pid) s ((updFallback pid).run s)) ∧
  (∀ (pid : Pid) (s : State), Completes (.updTxnBegin pid) s ((updTxnBegin pid).run s)) ∧
  (∀ (pid : Pid) (s : State), Completes (.updTxnEnd pid) s ((updTxnEnd pid).run s)) ∧
  (∀ (pid : Pid) (s : State), Completes (.updTxnRead pid) s ((updTxnRead pid).run s)) ∧
  (∀ (pid : Pid) (health : Bool) (safe : Bool) (s : State), Completes (.updConfirm pid health safe) s ((updConfirm pid health safe).run s)) ∧
  (∀ (s : State), Completes .confirmWindowExpiry s (confirmWindowExpiry.run s)) ∧
  (∀ (r : Fin 4) (s : State), Completes (.rtRegulatorPeriod r) s ((rtRegulatorPeriod r).run s)) ∧
  (∀ (c : Fin 2) (s : State), Completes (.finzaAckTimer c) s ((finzaAckTimer c).run s)) ∧
  (∀ (up : Bool) (speed : Fin 5) (width : Fin 8) (s : State), Completes (.pcieLinkChange up speed width) s ((pcieLinkChange up speed width).run s)) ∧
  (∀ (fn : Fin 64) (numVf : Option (Fin 64)) (msix : Option Bool) (s : State), Completes (.configurationRequest fn numVf msix) s ((configurationRequest fn numVf msix).run s)) ∧
  (∀ (p : Fin 18) (v : Bool) (s : State), Completes (.rxLpiChange p v) s ((rxLpiChange p v).run s)) ∧
  (∀ (p : Fin 18) (fail : Bool) (s : State), Completes (.t1WakeSignalling p fail) s ((t1WakeSignalling p fail).run s)) ∧
  (∀ (d : Fin 4) (s : State), Completes (.dieClockLoss d) s ((dieClockLoss d).run s))
end

