-- ==== Sys2Proof/Laws/Maps.lean ====
section
/-!
SUPPORT. The sparse maps: a read after a write, and that writes keep the canonical form.
-/
namespace Sys2Proof.Machine

variable {α : Type}

theorem mapGet_mapIns_same (d v : α) (m : List (Nat × α)) (a : Nat) (h : ∀ e ∈ m, e.1 ≠ a) : mapGet d (mapIns m a v) a = v := by
  induction m with
  | nil => simp [mapIns, mapGet]
  | cons e t ih =>
    have h1 : e.1 ≠ a := h e (by simp)
    have h2 := ih fun x hx => h x (by simp [hx])
    simp only [mapIns]; split <;> simp [mapGet, h1, h2]

theorem mapGet_mapIns_ne (d v : α) (m : List (Nat × α)) {a b : Nat} (h : a ≠ b) : mapGet d (mapIns m a v) b = mapGet d m b := by
  induction m with
  | nil => simp [mapIns, mapGet, h]
  | cons e t ih => simp only [mapIns]; split <;> simp [mapGet, h, ih]

theorem mapGet_mapDel_same (d : α) (m : List (Nat × α)) (a : Nat) : mapGet d (mapDel m a) a = d := by
  induction m with
  | nil => simp [mapDel, mapGet]
  | cons e t ih =>
    by_cases h : e.1 = a
    · simpa [mapDel, h] using ih
    · simp only [mapDel] at ih; simp [mapDel, h, mapGet, ih]

theorem mapGet_mapDel_ne (d : α) (m : List (Nat × α)) {a b : Nat} (h : a ≠ b) : mapGet d (mapDel m a) b = mapGet d m b := by
  induction m with
  | nil => simp [mapDel, mapGet]
  | cons e t ih =>
    simp only [mapDel] at ih
    by_cases h1 : e.1 = a
    · have : e.1 ≠ b := by omega
      simp [mapDel, h1, mapGet, ih]; omega
    · have h3 : mapDel (e :: t) a = e :: mapDel t a := by simp [mapDel, h1]
      rw [h3]; by_cases h2 : e.1 = b <;> simp [mapDel, mapGet, h2, ih]

theorem mem_mapDel {m : List (Nat × α)} {a : Nat} {e : Nat × α} (h : e ∈ mapDel m a) : e ∈ m ∧ e.1 ≠ a := by
  simpa [mapDel] using h

/-- A key reads as what was written there. -/
@[simp] theorem mapGet_mapPut_same [DecidableEq α] (d : α) (m : List (Nat × α)) (a : Nat) (v : α) : mapGet d (mapPut d m a v) a = v := by
  unfold mapPut; split
  · subst_vars; exact mapGet_mapDel_same _ m a
  · exact mapGet_mapIns_same d v _ a fun e he => (mem_mapDel he).2

/-- A write leaves every other key alone. -/
theorem mapGet_mapPut_ne [DecidableEq α] (d : α) (m : List (Nat × α)) {a b : Nat} (v : α) (h : a ≠ b) :
    mapGet d (mapPut d m a v) b = mapGet d m b := by
  unfold mapPut; split
  · exact mapGet_mapDel_ne d m h
  · rw [mapGet_mapIns_ne d v _ h, mapGet_mapDel_ne d m h]

/-- What a key reads as for another default than the map's own. -/
theorem mapGet_mapPut_ne' [DecidableEq α] (d d' : α) (m : List (Nat × α)) {a b : Nat} (v : α) (h : a ≠ b) :
    mapGet d' (mapPut d m a v) b = mapGet d' m b := by
  unfold mapPut; split
  · exact mapGet_mapDel_ne d' m h
  · rw [mapGet_mapIns_ne d' v _ h, mapGet_mapDel_ne d' m h]

/-! ## The canonical form -/

/-- A lower bound below the first key may be given or left out. -/
theorem risingFrom_le {m : List (Nat × α)} {a b : Nat} (h : risingFrom (some b) m = true) (hab : a ≤ b) :
    risingFrom (some a) m = true := by
  cases m with
  | nil => rfl
  | cons e t => simp [risingFrom] at h ⊢; exact ⟨by omega, h.2⟩

theorem risingFrom_filter (p : Nat × α → Bool) (m : List (Nat × α)) (lo : Option Nat) (h : risingFrom lo m = true) :
    risingFrom lo (m.filter p) = true := by
  induction m generalizing lo with
  | nil => cases lo <;> rfl
  | cons e t ih =>
    have ht : risingFrom (some e.1) t = true := by cases lo <;> simp [risingFrom] at h <;> simp_all
    by_cases hp : p e
    · have := ih _ ht
      cases lo <;> simp [risingFrom, hp, this]
      simp [risingFrom] at h; exact h.1
    · simp only [List.filter, hp]
      cases lo with
      | none => have := ih _ ht; cases hh : t.filter p with
        | nil => rfl
        | cons x y => rw [hh] at this; simp [risingFrom] at this ⊢; exact this.2
      | some l => simp [risingFrom] at h; exact risingFrom_le (ih _ ht) (by omega)

theorem risingFrom_mapIns (m : List (Nat × α)) (a : Nat) (v : α) (lo : Option Nat) (h : risingFrom lo m = true)
    (hlo : ∀ l, lo = some l → l < a) (hne : ∀ e ∈ m, e.1 ≠ a) : risingFrom lo (mapIns m a v) = true := by
  induction m generalizing lo with
  | nil => cases lo with
    | none => rfl
    | some l => simp [mapIns, risingFrom, hlo l rfl]
  | cons e t ih =>
    have h0 : e.1 ≠ a := hne e (by simp)
    have ht : risingFrom (some e.1) t = true := by cases lo <;> simp [risingFrom] at h <;> simp_all
    simp only [mapIns]; split
    · have he : risingFrom (some a) (e :: t) = true := by simp [risingFrom, ht]; assumption
      cases lo with
      | none => simpa [risingFrom] using he
      | some l => simpa [risingFrom, hlo l rfl] using he
    · have := ih (some e.1) ht (fun l hl => by simp at hl; omega) fun x hx => hne x (by simp [hx])
      cases lo with
      | none => simpa [risingFrom] using this
      | some l => simp [risingFrom] at h ⊢; exact ⟨h.1, this⟩

theorem mem_mapIns {m : List (Nat × α)} {a : Nat} {v : α} {e : Nat × α} (h : e ∈ mapIns m a v) : e = (a, v) ∨ e ∈ m := by
  induction m with
  | nil => simpa [mapIns] using h
  | cons x t ih =>
    simp only [mapIns] at h; split at h
    · simpa using h
    · rcases List.mem_cons.mp h with h | h
      · simp [h]
      · rcases ih h with h | h <;> simp [h]

theorem risingFrom_mapPut [DecidableEq α] (d : α) (m : List (Nat × α)) (a : Nat) (v : α) (h : risingFrom none m = true) :
    risingFrom none (mapPut d m a v) = true := by
  unfold mapPut; split
  · exact risingFrom_filter _ _ _ h
  · exact risingFrom_mapIns _ _ _ _ (risingFrom_filter _ _ _ h) (by simp) fun e he => (mem_mapDel he).2

/-- An entry after a write is the one written, which is not the default, or was there under another key. -/
theorem mem_mapPut [DecidableEq α] {d : α} {m : List (Nat × α)} {a : Nat} {v : α} {e : Nat × α} (h : e ∈ mapPut d m a v) :
    (e = (a, v) ∧ v ≠ d) ∨ (e ∈ m ∧ e.1 ≠ a) := by
  unfold mapPut at h; split at h
  · exact Or.inr (mem_mapDel h)
  · rcases mem_mapIns h with h | h
    · exact Or.inl ⟨h, by assumption⟩
    · exact Or.inr (mem_mapDel h)

end Sys2Proof.Machine
end

