-- ==== Sys2Proof/Laws/State.lean ====
section
/-!
SUPPORT. What each primitive update leaves of every field of the state, how updates run, and that every update keeps the queue and the
canonical forms.
-/
namespace Sys2Proof.Machine

/-! ## One lemma per field per primitive update -/

@[simp] theorem Act.reg_pending (a : Nat) (v : Word) (s : State) : ((Act.reg a v).run s).pending = s.pending := (rfl)
@[simp] theorem Act.reg_regs (a : Nat) (v : Word) (s : State) :
    ((Act.reg a v).run s).regs = mapPut (regDefault a) s.regs a (maskReserved a v) := (rfl)
@[simp] theorem Act.reg_mem (a : Nat) (v : Word) (s : State) : ((Act.reg a v).run s).mem = s.mem := (rfl)
@[simp] theorem Act.reg_b (a : Nat) (v : Word) (s : State) : ((Act.reg a v).run s).b = s.b := (rfl)
@[simp] theorem Act.regsMap_pending (f : Nat → Word → Word) (s : State) : ((Act.regsMap f).run s).pending = s.pending := (rfl)
@[simp] theorem Act.regsMap_mem (f : Nat → Word → Word) (s : State) : ((Act.regsMap f).run s).mem = s.mem := (rfl)
@[simp] theorem Act.regsMap_b (f : Nat → Word → Word) (s : State) : ((Act.regsMap f).run s).b = s.b := (rfl)
@[simp] theorem Act.mem_pending (a : Nat) (v : Byte) (s : State) : ((Act.mem a v).run s).pending = s.pending := (rfl)
@[simp] theorem Act.mem_regs (a : Nat) (v : Byte) (s : State) : ((Act.mem a v).run s).regs = s.regs := (rfl)
@[simp] theorem Act.mem_mem (a : Nat) (v : Byte) (s : State) : ((Act.mem a v).run s).mem = mapPut (memDefault a) s.mem a v := (rfl)
@[simp] theorem Act.mem_b (a : Nat) (v : Byte) (s : State) : ((Act.mem a v).run s).b = s.b := (rfl)
@[simp] theorem Act.memDrop_pending (p : Nat → Bool) (s : State) : ((Act.memDrop p).run s).pending = s.pending := (rfl)
@[simp] theorem Act.memDrop_regs (p : Nat → Bool) (s : State) : ((Act.memDrop p).run s).regs = s.regs := (rfl)
@[simp] theorem Act.memDrop_mem (p : Nat → Bool) (s : State) : ((Act.memDrop p).run s).mem = s.mem.filter fun c => !p c.1 := (rfl)
@[simp] theorem Act.memDrop_b (p : Nat → Bool) (s : State) : ((Act.memDrop p).run s).b = s.b := (rfl)
@[simp] theorem Act.blocks_pending (f : Blocks → Blocks) (s : State) : ((Act.blocks f).run s).pending = s.pending := (rfl)
@[simp] theorem Act.blocks_regs (f : Blocks → Blocks) (s : State) : ((Act.blocks f).run s).regs = s.regs := (rfl)
@[simp] theorem Act.blocks_mem (f : Blocks → Blocks) (s : State) : ((Act.blocks f).run s).mem = s.mem := (rfl)
@[simp] theorem Act.blocks_b (f : Blocks → Blocks) (s : State) : ((Act.blocks f).run s).b = f s.b := (rfl)

/-! ## How updates run -/

@[simp] theorem Upd.run_skip (s : State) : Upd.skip.run s = s := (rfl)
@[simp] theorem Upd.run_act (a : Act) (s : State) : (Upd.act a).run s = a.run s := (rfl)
@[simp] theorem Upd.run_seq (u v : Upd) (s : State) : (Upd.seq u v).run s = v.run (u.run s) := (rfl)
@[simp] theorem Upd.run_read (k : State → Upd) (s : State) : (Upd.read k).run s = (k s).run s := (rfl)
@[simp] theorem seqs_nil_run (s : State) : (seqs []).run s = s := (rfl)
@[simp] theorem seqs_cons_run (u : Upd) (l : List Upd) (s : State) : (seqs (u :: l)).run s = (seqs l).run (u.run s) := (rfl)
@[simp] theorem whenU_true (u : Upd) : whenU true u = u := (rfl)
@[simp] theorem whenU_false (u : Upd) : whenU false u = .skip := (rfl)
@[simp] theorem forEach_nil_run {α : Type} (f : α → Upd) (s : State) : (forEach [] f).run s = s := (rfl)
@[simp] theorem forEach_cons_run {α : Type} (x : α) (l : List α) (f : α → Upd) (s : State) :
    (forEach (x :: l) f).run s = (forEach l f).run ((f x).run s) := (rfl)

/-- What holds of every state that a primitive update leaves holds of every state that an update leaves. -/
theorem Upd.induct {P : State → Prop} (h : ∀ (a : Act) s, P s → P (a.run s)) (u : Upd) {s : State} (hs : P s) : P (u.run s) := by
  induction u generalizing s with
  | skip => exact hs
  | act a => exact h a s hs
  | seq u v hu hv => exact hv (hu hs)
  | read k ih => exact ih s hs

/-- No update touches the queue of commands. -/
@[simp] theorem Upd.run_pending (u : Upd) (s : State) : (u.run s).pending = s.pending :=
  Upd.induct (P := fun t => t.pending = s.pending) (fun a t h => by cases a <;> exact h) u rfl

/-! ## The canonical forms -/

theorem maskReserved_reserved (a : Nat) (v : Word) :
    maskReserved a v &&& ~~~BitVec.ofNat 32 (regMask a) = regDefault a &&& ~~~BitVec.ofNat 32 (regMask a) := by
  simp only [maskReserved]
  generalize BitVec.ofNat 32 (regMask a) = m
  generalize regDefault a = d
  apply BitVec.eq_of_getLsbD_eq; intro i hi
  simp
  cases m.getLsbD i <;> simp

theorem Regs.wf_put {r : List (Nat × Word)} (h : Regs.wf r = true) (a : Nat) (v : Word) :
    Regs.wf (mapPut (regDefault a) r a (maskReserved a v)) = true := by
  simp only [Regs.wf, Bool.and_eq_true, List.all_eq_true] at h ⊢
  refine ⟨risingFrom_mapPut _ _ _ _ h.1, fun e he => ?_⟩
  rcases mem_mapPut he with ⟨rfl, hv⟩ | ⟨hm, _⟩
  · simp [hv, maskReserved_reserved]
  · simpa using h.2 e hm

theorem Regs.wf_map {r : List (Nat × Word)} (f : Nat → Word → Word) :
    Regs.wf (r.foldl (fun m e => mapPut (regDefault e.1) m e.1 (maskReserved e.1 (f e.1 e.2))) []) = true := by
  suffices H : ∀ m, Regs.wf m = true →
      Regs.wf (r.foldl (fun m e => mapPut (regDefault e.1) m e.1 (maskReserved e.1 (f e.1 e.2))) m) = true from H [] rfl
  induction r with
  | nil => exact fun m hm => hm
  | cons e t ih => exact fun m hm => ih _ (Regs.wf_put hm _ _)

theorem Memory.wf_put {m : List Host.Cell} (h : Memory.wf m = true) (a : Nat) (v : Byte) :
    Memory.wf (mapPut (memDefault a) m a v) = true := by
  simp only [Memory.wf, Bool.and_eq_true, List.all_eq_true] at h ⊢
  refine ⟨risingFrom_mapPut _ _ _ _ h.1, fun e he => ?_⟩
  rcases mem_mapPut he with ⟨rfl, hv⟩ | ⟨hm, _⟩
  · simpa using hv
  · simpa using h.2 e hm

theorem Memory.wf_filter {m : List Host.Cell} (h : Memory.wf m = true) (p : Host.Cell → Bool) : Memory.wf (m.filter p) = true := by
  simp only [Memory.wf, Bool.and_eq_true, List.all_eq_true] at h ⊢
  exact ⟨risingFrom_filter _ _ _ h.1, fun e he => h.2 e (List.mem_filter.mp he).1⟩

/-- Every memory operation keeps the canonical form of memory. -/
theorem Upd.run_memory_wf (u : Upd) {s : State} (h : Memory.wf s.mem = true) : Memory.wf (u.run s).mem = true :=
  Upd.induct (P := fun t => Memory.wf t.mem = true) (fun a t ht => by
    cases a with
    | mem a v => exact Memory.wf_put ht a v
    | memDrop p => exact Memory.wf_filter ht _
    | _ => exact ht) u h

/-- Every update keeps the canonical form of the register file. -/
theorem Upd.run_regs_wf (u : Upd) {s : State} (h : Regs.wf s.regs = true) : Regs.wf (u.run s).regs = true :=
  Upd.induct (P := fun t => Regs.wf t.regs = true) (fun a t ht => by
    cases a with
    | reg a v => exact Regs.wf_put ht a v
    | regsMap f => exact Regs.wf_map f
    | _ => exact ht) u h

end Sys2Proof.Machine
end

