-- ==== Sys2Proof/Laws/Regs.lean ====
section
/-!
SUPPORT. Registers, fields and bytes: a read after a write, and what a write leaves alone.
-/
namespace Sys2Proof.Machine

/-! ## Bits -/

theorem testBit_bits (v hi lo i : Nat) : (bits v hi lo).testBit i = (decide (i < hi - lo + 1) && v.testBit (lo + i)) := by
  simp [bits, Nat.testBit_mod_two_pow, Nat.testBit_div_two_pow, Nat.add_comm]

theorem bits_lt (v hi lo : Nat) : bits v hi lo < 2 ^ (hi - lo + 1) := Nat.mod_lt _ (Nat.two_pow_pos _)

/-- Replacing a field of a number replaces those bits and no other. -/
theorem testBit_withBits (v hi lo x j : Nat) (h : lo ≤ hi) :
    (withBits v hi lo x).testBit j = if lo ≤ j ∧ j ≤ hi then x.testBit (j - lo) else v.testBit j := by
  have hb := bits_lt v hi lo
  have hx : x % 2 ^ (hi - lo + 1) < 2 ^ (hi - lo + 1) := Nat.mod_lt _ (Nat.two_pow_pos _)
  have hr : v % 2 ^ lo < 2 ^ lo := Nat.mod_lt _ (Nat.two_pow_pos _)
  have e1 : v = 2 ^ lo * (2 ^ (hi - lo + 1) * (v / 2 ^ lo / 2 ^ (hi - lo + 1)) + bits v hi lo) + v % 2 ^ lo := by
    rw [bits, Nat.div_add_mod, Nat.div_add_mod]
  have e2 : withBits v hi lo x
      = 2 ^ lo * (2 ^ (hi - lo + 1) * (v / 2 ^ lo / 2 ^ (hi - lo + 1)) + x % 2 ^ (hi - lo + 1)) + v % 2 ^ lo := by
    unfold withBits
    generalize hB : bits v hi lo = B at *
    generalize hQ : 2 ^ (hi - lo + 1) * (v / 2 ^ lo / 2 ^ (hi - lo + 1)) = Q at *
    rw [Nat.mul_add] at e1 ⊢
    have c1 : 2 ^ lo * B = B * 2 ^ lo := Nat.mul_comm _ _
    have c2 : 2 ^ lo * (x % 2 ^ (hi - lo + 1)) = x % 2 ^ (hi - lo + 1) * 2 ^ lo := Nat.mul_comm _ _
    omega
  rw [e2, Nat.testBit_two_pow_mul_add _ hr, Nat.testBit_two_pow_mul_add _ hx]
  have t1 : v.testBit j = if j < lo then (v % 2 ^ lo).testBit j else if j - lo < hi - lo + 1 then (bits v hi lo).testBit (j - lo)
      else (v / 2 ^ lo / 2 ^ (hi - lo + 1)).testBit (j - lo - (hi - lo + 1)) := by
    conv => lhs; rw [e1]
    rw [Nat.testBit_two_pow_mul_add _ hr, Nat.testBit_two_pow_mul_add _ hb]
  rw [t1]
  by_cases h1 : j < lo
  · have : ¬ (lo ≤ j ∧ j ≤ hi) := by omega
    simp [h1, this]
  · by_cases h2 : j - lo < hi - lo + 1
    · have : lo ≤ j ∧ j ≤ hi := by omega
      simp [h1, h2, this, Nat.testBit_mod_two_pow]
    · have : ¬ (lo ≤ j ∧ j ≤ hi) := by omega
      simp [h1, h2, this]

/-! ## Registers -/

/-- A register reads as what was written to it, its reserved bits aside. -/
theorem reg_act_same (a : Nat) (v : Word) (s : State) : ((Act.reg a v).run s).reg a = (maskReserved a v).toNat := by
  simp [State.reg]

theorem reg_act_ne {a c : Nat} (v : Word) (s : State) (h : a ≠ c) : ((Act.reg a v).run s).reg c = s.reg c := by
  simp [State.reg, mapGet_mapPut_ne' _ _ _ _ h]

theorem setReg_reg_ne {a c : Nat} (v : Nat) (s : State) (h : a ≠ c) : ((setReg a v).run s).reg c = s.reg c := reg_act_ne _ _ h
theorem set_reg_ne {f : Fld} {c : Nat} (v : Nat) (s : State) (h : f.reg ≠ c) : ((set f v).run s).reg c = s.reg c := reg_act_ne _ _ h

@[simp] theorem setReg_mem (a v : Nat) (s : State) : ((setReg a v).run s).mem = s.mem := (rfl)
@[simp] theorem setReg_b (a v : Nat) (s : State) : ((setReg a v).run s).b = s.b := (rfl)
@[simp] theorem set_mem (f : Fld) (v : Nat) (s : State) : ((set f v).run s).mem = s.mem := (rfl)
@[simp] theorem set_b (f : Fld) (v : Nat) (s : State) : ((set f v).run s).b = s.b := (rfl)
@[simp] theorem setBit_mem (a i : Nat) (s : State) : ((setBit a i).run s).mem = s.mem := (rfl)
@[simp] theorem setBit_b (a i : Nat) (s : State) : ((setBit a i).run s).b = s.b := (rfl)
@[simp] theorem clrBit_mem (a i : Nat) (s : State) : ((clrBit a i).run s).mem = s.mem := (rfl)
@[simp] theorem clrBit_b (a i : Nat) (s : State) : ((clrBit a i).run s).b = s.b := (rfl)
@[simp] theorem putBit_mem (a i : Nat) (c : Bool) (s : State) : ((putBit a i c).run s).mem = s.mem := (rfl)
@[simp] theorem putBit_b (a i : Nat) (c : Bool) (s : State) : ((putBit a i c).run s).b = s.b := (rfl)
@[simp] theorem inc_mem (f : Fld) (n : Nat) (s : State) : ((inc f n).run s).mem = s.mem := (rfl)
@[simp] theorem inc_b (f : Fld) (n : Nat) (s : State) : ((inc f n).run s).b = s.b := (rfl)
@[simp] theorem incWrap_mem (f : Fld) (n : Nat) (s : State) : ((incWrap f n).run s).mem = s.mem := (rfl)
@[simp] theorem incWrap_b (f : Fld) (n : Nat) (s : State) : ((incWrap f n).run s).b = s.b := (rfl)
@[simp] theorem dec_mem (f : Fld) (n : Nat) (s : State) : ((dec f n).run s).mem = s.mem := (rfl)
@[simp] theorem dec_b (f : Fld) (n : Nat) (s : State) : ((dec f n).run s).b = s.b := (rfl)
@[simp] theorem upd_mem (f : Blocks → Blocks) (s : State) : ((upd f).run s).mem = s.mem := (rfl)
@[simp] theorem upd_regs (f : Blocks → Blocks) (s : State) : ((upd f).run s).regs = s.regs := (rfl)
@[simp] theorem upd_b (f : Blocks → Blocks) (s : State) : ((upd f).run s).b = f s.b := (rfl)
@[simp] theorem upd_reg (f : Blocks → Blocks) (s : State) (a : Nat) : ((upd f).run s).reg a = s.reg a := (rfl)
@[simp] theorem upd_byte (f : Blocks → Blocks) (s : State) (a : Nat) : ((upd f).run s).byte a = s.byte a := (rfl)
@[simp] theorem set_byte (f : Fld) (v : Nat) (s : State) (a : Nat) : ((set f v).run s).byte a = s.byte a := (rfl)
@[simp] theorem setReg_byte (c v : Nat) (s : State) (a : Nat) : ((setReg c v).run s).byte a = s.byte a := (rfl)

theorem inc_eq (f : Fld) (n : Nat) (s : State) :
    (inc f n).run s = (set f (satAdd (2 ^ (f.hi - f.lo + 1) - 1) (s.get f) n)).run s := (rfl)
theorem setBit_eq (a i : Nat) (s : State) : (setBit a i).run s = (set ⟨a, i, i⟩ 1).run s := (rfl)
theorem clrBit_eq (a i : Nat) (s : State) : (clrBit a i).run s = (set ⟨a, i, i⟩ 0).run s := (rfl)
theorem putBit_eq (a i : Nat) (c : Bool) (s : State) : (putBit a i c).run s = (set ⟨a, i, i⟩ c.toNat).run s := (rfl)
theorem bitAt_eq (s : State) (a i : Nat) : s.bitAt a i = decide (s.get ⟨a, i, i⟩ = 1) := by
  simp [State.bitAt, Machine.bit, State.get, bits]; rfl

theorem Fld.fits_bit {f : Fld} (h : f.fits = true) {j : Nat} (h1 : f.lo ≤ j) (h2 : j ≤ f.hi) : (regMask f.reg).testBit j = true := by
  simp only [Fld.fits, Bool.and_eq_true, decide_eq_true_eq, beq_iff_eq] at h
  have e := testBit_bits (regMask f.reg) f.hi f.lo (j - f.lo)
  rw [h.2, Nat.testBit_two_pow_sub_one] at e
  have h3 : j - f.lo < f.hi - f.lo + 1 := by omega
  have h4 : f.lo + (j - f.lo) = j := by omega
  simpa [h3, h4] using e.symm

/-- Bit `j` of a register after a field was set. -/
theorem set_reg_testBit (f : Fld) (v : Nat) (s : State) (j : Nat) (hj : j < 32) (h : f.lo ≤ f.hi) :
    (((set f v).run s).reg f.reg).testBit j = if (regMask f.reg).testBit j
      then (if f.lo ≤ j ∧ j ≤ f.hi then v.testBit (j - f.lo) else (s.reg f.reg).testBit j) else (regDefault f.reg).toNat.testBit j := by
  have e : ((set f v).run s).reg f.reg = (maskReserved f.reg (BitVec.ofNat 32 (withBits (s.reg f.reg) f.hi f.lo v))).toNat := reg_act_same _ _ _
  rw [e]
  simp only [maskReserved, BitVec.toNat_or, BitVec.toNat_and, BitVec.toNat_not, BitVec.toNat_ofNat, Nat.testBit_or, Nat.testBit_and,
    Nat.testBit_mod_two_pow, hj, decide_true, Bool.true_and, testBit_withBits _ _ _ _ _ h]
  have e2 : (2 ^ 32 - 1 - regMask f.reg % 2 ^ 32).testBit j = !(regMask f.reg).testBit j := by
    have : 2 ^ 32 - 1 - regMask f.reg % 2 ^ 32 = 2 ^ 32 - (regMask f.reg % 2 ^ 32 + 1) := by omega
    rw [this, Nat.testBit_two_pow_sub_succ (Nat.mod_lt _ (by decide))]
    rw [show (2 : Nat) ^ 32 = 2 ^ 32 from rfl, Nat.testBit_mod_two_pow]; simp [hj]
  rw [e2]
  cases (regMask f.reg).testBit j <;> simp

/-- A field reads as what was written to it. -/
theorem get_set_same {f : Fld} (hf : f.fits = true) (v : Nat) (s : State) : ((set f v).run s).get f = v % 2 ^ (f.hi - f.lo + 1) := by
  have h := hf
  simp only [Fld.fits, Bool.and_eq_true, decide_eq_true_eq] at h
  apply Nat.eq_of_testBit_eq; intro i
  rw [State.get, testBit_bits, Nat.testBit_mod_two_pow]
  by_cases hi : i < f.hi - f.lo + 1
  · have h1 : f.lo + i ≤ f.hi := by omega
    rw [set_reg_testBit f v s (f.lo + i) (by omega) h.1.1, Fld.fits_bit hf (by omega) h1]
    have h2 : f.lo ≤ f.lo + i := by omega
    simp [h1]
  · simp [hi]

/-- A field reads as before when another field was set. -/
theorem get_set_ne {f g : Fld} (hf : f.fits = true) (hg : g.fits = true) (h : f.reg ≠ g.reg ∨ f.hi < g.lo ∨ g.hi < f.lo) (v : Nat) (s : State) :
    ((set f v).run s).get g = s.get g := by
  by_cases hr : f.reg = g.reg
  · simp only [hr, ne_eq, not_true_eq_false, false_or] at h
    have h1 := hf; have h2 := hg
    simp only [Fld.fits, Bool.and_eq_true, decide_eq_true_eq] at h1 h2
    apply Nat.eq_of_testBit_eq; intro i
    rw [State.get, State.get, testBit_bits, testBit_bits, ← hr]
    by_cases hi : i < g.hi - g.lo + 1
    · rw [set_reg_testBit f v s (g.lo + i) (by omega) h1.1.1]
      have e : (regMask f.reg).testBit (g.lo + i) = true := by rw [hr]; exact Fld.fits_bit hg (by omega) (by omega)
      have e2 : ¬ (f.lo ≤ g.lo + i ∧ g.lo + i ≤ f.hi) := by omega
      simp [e, e2]
    · simp [hi]
  · simp [State.get, set_reg_ne v s hr]

/-- A field of another register reads as before. -/
theorem get_set_ne_reg {f g : Fld} (h : f.reg ≠ g.reg) (v : Nat) (s : State) : ((set f v).run s).get g = s.get g := by
  simp [State.get, set_reg_ne v s h]

theorem flag_set_same {f : Fld} (hf : f.fits = true) (v : Nat) (s : State) : ((set f v).run s).flag f = (v % 2 ^ (f.hi - f.lo + 1) != 0) := by
  rw [State.flag, get_set_same hf]

theorem get_lt (s : State) (f : Fld) : s.get f < 2 ^ (f.hi - f.lo + 1) := bits_lt _ _ _

/-- A counter field goes up by what is added and stays at its largest value. -/
theorem get_inc_same {f : Fld} (hf : f.fits = true) (n : Nat) (s : State) :
    ((inc f n).run s).get f = satAdd (2 ^ (f.hi - f.lo + 1) - 1) (s.get f) n := by
  rw [inc_eq, get_set_same hf]
  apply Nat.mod_eq_of_lt
  have := Nat.two_pow_pos (f.hi - f.lo + 1)
  simp only [satAdd]; omega

theorem get_dec_same {f : Fld} (hf : f.fits = true) (n : Nat) (s : State) : ((dec f n).run s).get f = s.get f - n := by
  rw [show (dec f n).run s = (set f (s.get f - n)).run s from rfl, get_set_same hf]
  exact Nat.mod_eq_of_lt (Nat.lt_of_le_of_lt (Nat.sub_le _ _) (get_lt s f))

/-- A bit set reads 1, where its register defines it. -/
theorem bitAt_setBit_same {a i : Nat} (h : (⟨a, i, i⟩ : Fld).fits = true) (s : State) : ((setBit a i).run s).bitAt a i = true := by
  rw [bitAt_eq, setBit_eq, get_set_same h]; simp

theorem bitAt_clrBit_same {a i : Nat} (h : (⟨a, i, i⟩ : Fld).fits = true) (s : State) : ((clrBit a i).run s).bitAt a i = false := by
  rw [bitAt_eq, clrBit_eq, get_set_same h]; simp

theorem bitAt_putBit_same {a i : Nat} (h : (⟨a, i, i⟩ : Fld).fits = true) (c : Bool) (s : State) : ((putBit a i c).run s).bitAt a i = c := by
  rw [bitAt_eq, putBit_eq, get_set_same h]; cases c <;> simp

/-! ## Bytes of memory -/

theorem byte_act_same (a : Nat) (v : Byte) (s : State) : ((Act.mem a v).run s).byte a = v := by simp [State.byte]

theorem byte_act_ne {a c : Nat} (v : Byte) (s : State) (h : a ≠ c) : ((Act.mem a v).run s).byte c = s.byte c := by
  simp [State.byte, mapGet_mapPut_ne' _ _ _ _ h]

@[simp] theorem storeBytes_regs (a : Nat) (l : List Byte) (s : State) : ((storeBytes a l).run s).regs = s.regs := by
  induction l generalizing a s with
  | nil => rfl
  | cons v t ih => simp [storeBytes, ih]

@[simp] theorem storeBytes_b (a : Nat) (l : List Byte) (s : State) : ((storeBytes a l).run s).b = s.b := by
  induction l generalizing a s with
  | nil => rfl
  | cons v t ih => simp [storeBytes, ih]

/-- Bytes outside those stored read as before. -/
theorem byte_storeBytes_ne (a : Nat) (l : List Byte) (s : State) (c : Nat) (h : c < a ∨ a + l.length ≤ c) :
    ((storeBytes a l).run s).byte c = s.byte c := by
  induction l generalizing a s with
  | nil => rfl
  | cons v t ih =>
    simp only [List.length_cons] at h
    simp only [storeBytes, Upd.run_seq, Upd.run_act]
    rw [ih (a + 1) _ (by omega), byte_act_ne _ _ (by omega)]

/-- The bytes stored read back. -/
theorem byte_storeBytes (a : Nat) (l : List Byte) (s : State) (i : Nat) (h : i < l.length) :
    ((storeBytes a l).run s).byte (a + i) = l[i] := by
  induction l generalizing a s i with
  | nil => simp at h
  | cons v t ih =>
    simp only [storeBytes, Upd.run_seq, Upd.run_act]
    cases i with
    | zero => rw [byte_storeBytes_ne _ _ _ _ (by omega), Nat.add_zero, byte_act_same]; rfl
    | succ n =>
      have := ih (a + 1) ((Act.mem a v).run s) n (by simpa using h)
      rw [show a + (n + 1) = a + 1 + n by omega, this]; rfl

end Sys2Proof.Machine
end

