-- ==== Sys2Proof/Laws/Keep.lean ====
section
/-!
SUPPORT. What an update leaves alone, built from what its parts leave alone.
-/
namespace Sys2Proof.Machine

/-- The update leaves the view `φ` of the state as it was. -/
def Keeps {α : Type} (φ : State → α) (u : Upd) : Prop := ∀ s, φ (u.run s) = φ s

variable {α : Type} {φ : State → α}

theorem keeps_skip : Keeps φ .skip := fun _ => rfl

theorem keeps_seq {u v : Upd} (hu : Keeps φ u) (hv : Keeps φ v) : Keeps φ (.seq u v) := fun s => (hv _).trans (hu s)

theorem keeps_read {k : State → Upd} (h : ∀ s, Keeps φ (k s)) : Keeps φ (.read k) := fun s => h s s

theorem keeps_seqs_nil : Keeps φ (seqs []) := fun _ => rfl

theorem keeps_seqs_cons {u : Upd} {l : List Upd} (hu : Keeps φ u) (hl : Keeps φ (seqs l)) : Keeps φ (seqs (u :: l)) := keeps_seq hu hl

theorem keeps_whenU {c : Bool} {u : Upd} (h : c = true → Keeps φ u) : Keeps φ (whenU c u) := by
  cases c
  · exact keeps_skip
  · exact h rfl

theorem keeps_ite {c : Prop} [Decidable c] {u v : Upd} (hu : c → Keeps φ u) (hv : ¬ c → Keeps φ v) : Keeps φ (if c then u else v) := by
  split
  · exact hu ‹_›
  · exact hv ‹_›

theorem keeps_forEach_mem {β : Type} {f : β → Upd} : (l : List β) → (∀ x ∈ l, Keeps φ (f x)) → Keeps φ (forEach l f)
  | [], _ => fun _ => rfl
  | x :: l, h => keeps_seq (h x (by simp)) (keeps_forEach_mem l fun y hy => h y (by simp [hy]))

theorem keeps_forEach {β : Type} {l : List β} {f : β → Upd} (h : ∀ x, Keeps φ (f x)) : Keeps φ (forEach l f) :=
  keeps_forEach_mem l fun x _ => h x

theorem keeps_forN {n : Nat} {f : Nat → Upd} (h : ∀ i, i < n → Keeps φ (f i)) : Keeps φ (forN n f) :=
  keeps_forEach_mem _ fun i hi => h i (List.mem_range.mp hi)

theorem keeps_act {a : Act} (h : ∀ s, φ (a.run s) = φ s) : Keeps φ (.act a) := h

theorem keeps_upd {f : Blocks → Blocks} (h : ∀ s, φ ((upd f).run s) = φ s) : Keeps φ (upd f) := h

/-! ## Memory -/

theorem keeps_mem_setReg (a v : Nat) : Keeps State.mem (setReg a v) := fun _ => rfl
theorem keeps_mem_set (f : Fld) (v : Nat) : Keeps State.mem (set f v) := fun _ => rfl
theorem keeps_mem_upd (f : Blocks → Blocks) : Keeps State.mem (upd f) := fun _ => rfl

/-- An update that leaves all of memory leaves every byte. -/
theorem keeps_byte {u : Upd} (h : Keeps State.mem u) (a : Nat) : Keeps (·.byte a) u := fun s => by simp only [State.byte, h s]

/-! ## Registers and fields -/

theorem keeps_reg_setReg {a c : Nat} (v : Nat) (h : c ≠ a) : Keeps (·.reg a) (setReg c v) := fun s => reg_act_ne _ s h
theorem keeps_reg_set {a : Nat} {f : Fld} (v : Nat) (h : f.reg ≠ a) : Keeps (·.reg a) (set f v) := fun s => reg_act_ne _ s h
theorem keeps_reg_upd (a : Nat) (f : Blocks → Blocks) : Keeps (·.reg a) (upd f) := fun _ => rfl

/-- An update that leaves a register leaves its fields. -/
theorem keeps_get {u : Upd} {f : Fld} (h : Keeps (·.reg f.reg) u) : Keeps (·.get f) u := fun s => by
  have := h s
  simp only [State.get] at *; rw [this]

theorem keeps_get_set {f g : Fld} (v : Nat) (hf : f.fits = true) (hg : g.fits = true) (h : f.reg ≠ g.reg ∨ f.hi < g.lo ∨ g.hi < f.lo) :
    Keeps (·.get g) (set f v) := fun s => get_set_ne hf hg h v s

/-! ## The blocks' records -/

theorem keeps_b_setReg (π : Blocks → α) (a v : Nat) : Keeps (fun s => π s.b) (setReg a v) := fun _ => rfl
theorem keeps_b_set (π : Blocks → α) (f : Fld) (v : Nat) : Keeps (fun s => π s.b) (set f v) := fun _ => rfl
theorem keeps_b_upd {π : Blocks → α} {f : Blocks → Blocks} (h : ∀ b, π (f b) = π b) : Keeps (fun s => π s.b) (upd f) := fun s => h s.b

/-- An update that leaves every record leaves each of them. -/
theorem keeps_b {u : Upd} (π : Blocks → α) (h : Keeps State.b u) : Keeps (fun s => π s.b) u := fun s => by simp only [h s]

end Sys2Proof.Machine
end

