-- ==== Sys2Proof/Laws/Shared.lean ====
section
/-!
SUPPORT. What the operations that many commands share do, and the fields that lie where the register map puts them.
-/
namespace Sys2Proof.Machine

/-! ## Addresses -/

theorem unitBase_low {k : Nat} (h : k ≤ 6) : unitBase k = 0x20000000 + 0x100000 * k := by simp [unitBase, h]
theorem unitBase_mid {k : Nat} (h : 7 ≤ k) (h2 : k ≤ 15) : unitBase k = 0x30000000 + 0x100000 * (k - 7) := by
  simp [unitBase, h2, show ¬ k ≤ 6 by omega]
theorem unitBase_lsw (d : Nat) (h : d ≤ 5) : unitBase (16 + d) = 0x40000000 + 0x100000 * d := by
  simp [unitBase, show ¬ 16 + d ≤ 6 by omega, show ¬ 16 + d ≤ 15 by omega, show 16 + d ≤ 21 by omega]
theorem unitCells_lsw (d : Nat) (h : d ≤ 3) : unitCells (16 + d) = (16, 256) := by
  rcases d with _ | _ | _ | _ | d <;> first | rfl | omega

/-- The cell page of channel `g` lies on the page of its die. -/
theorem lswCell_eq {g : Nat} (h : g < 64) : lswCell g = 0x40001000 + 0x100000 * (g / 16) + 256 * (g % 16) := by
  rw [lswCell, cellBase, unitBase_lsw _ (by omega), unitCells_lsw _ (by omega)]; omega

theorem cellBase_lsw (g : Nat) : cellBase (lswUnit g) (g % 16) = lswCell g := (rfl)
theorem unitBase_lswUnit {g : Nat} (h : g < 64) : unitBase (lswUnit g) = 0x40000000 + 0x100000 * (g / 16) := unitBase_lsw _ (by omega)

/-- A field of the channels' cell pages lies where the register map puts it, where that holds of each of the 64 channels. -/
theorem fits_lsw {o hi lo : Nat} {g : Nat} (hg : g < 64) (h : (List.range 64).all (fun g => (⟨lswCell g + o, hi, lo⟩ : Fld).fits) = true) :
    (⟨lswCell g + o, hi, lo⟩ : Fld).fits = true :=
  List.all_eq_true.mp h g (List.mem_range.mpr hg)

theorem onPage_eq_false_iff {k a : Nat} : onPage k a = false ↔ a < unitBase k ∨ unitBase k + 0x10000 ≤ a := by
  simp only [onPage, Bool.and_eq_false_iff, decide_eq_false_iff_not, Nat.not_le, Nat.not_lt]

/-- A register of a page is none of another page's. -/
theorem ne_of_offPage {k a o : Nat} (h : onPage k a = false) (ho : o < 0x10000) : unitBase k + o ≠ a := by
  rw [onPage_eq_false_iff] at h
  omega

/-! ## Loads -/

theorem lead_eq (s : State) (g : Nat) : s.lead g = g ∨ (s.lead g = g - 1 ∧ g % 2 = 1) := by
  simp only [State.lead]; split
  · exact .inr ⟨rfl, by omega⟩
  · exact .inl rfl

theorem lead_lt (s : State) {g : Nat} (h : g < 64) : s.lead g < 64 := by rcases lead_eq s g with e | ⟨e, _⟩ <;> omega

/-- A load lies on one die. -/
theorem lead_die (s : State) (g : Nat) : s.lead g / 16 = g / 16 := by rcases lead_eq s g with e | ⟨e, _⟩ <;> omega

theorem mem_members {s : State} {l x : Nat} (h : x ∈ s.members l) : x = l ∨ (x = l + 1 ∧ l % 2 = 0) := by
  simp only [State.members] at h; split at h <;> simp_all

theorem mem_loads {s : State} {x : Nat} {p : Nat → Bool} (h : x ∈ s.loads.filter p) : x < 64 ∧ p x = true := by
  simp only [State.loads, List.mem_filter, List.mem_range] at h; exact ⟨h.1.1, h.2⟩

/-- With no fault armed nothing strikes the operation that begins. -/
theorem workFire_unarmed {s : State} {k : Nat} (c : Option Nat) (h : s.flag (BLK_ERR_INJ_ARM k) = false) : (workFire k c).run s = s := by
  have e : (injFire k c).run s = s := by simp [injFire, h]
  have w (b : Bool) : (whenU b (injFire k c)).run s = s := by cases b <;> first | rfl | exact e
  exact w _

/-! ## The channels' records -/

@[simp] theorem chan_updChan_same (g : Nat) (f : Chan → Chan) (s : State) : ((updChan g f).run s).chan g = f (s.chan g) := by
  simp [updChan, upd, State.chan]

theorem chan_updChan_ne {g l : Nat} (f : Chan → Chan) (s : State) (h : g ≠ l) : ((updChan g f).run s).chan l = s.chan l := by
  simp [updChan, upd, State.chan, mapGet_mapPut_ne' _ _ _ _ h]

@[simp] theorem die_updDie_same (d : Nat) (f : Die → Die) (s : State) : ((updDie d f).run s).die d = f (s.die d) := by
  simp [updDie, upd, State.die]

theorem die_updDie_ne {d e : Nat} (f : Die → Die) (s : State) (h : d ≠ e) : ((updDie d f).run s).die e = s.die e := by
  simp [updDie, upd, State.die, mapGet_mapPut_ne' _ _ _ _ h]

/-- A change of one channel's record leaves what it does not change in every channel's. -/
theorem keeps_chan {α : Type} (ψ : Chan → α) {g l : Nat} {f : Chan → Chan} (h : ∀ c, ψ (f c) = ψ c) : Keeps (fun s => ψ (s.chan l)) (updChan g f) := fun s => by
  by_cases e : g = l
  · subst e; simp only [chan_updChan_same, h]
  · simp only [chan_updChan_ne f s e]

theorem keeps_die {α : Type} (ψ : Die → α) {d e : Nat} {f : Die → Die} (h : ∀ x, ψ (f x) = ψ x) : Keeps (fun s => ψ (s.die e)) (updDie d f) := fun s => by
  by_cases c : d = e
  · subst c; simp only [die_updDie_same, h]
  · simp only [die_updDie_ne f s c]

/-! ## Completion -/

/-- A command whose meaning is `finish u` completes with `u`. -/
theorem completes_of_finish {c : Instr} {u : Upd} {s : State} (h : exec c s = finish u s) : Completes c s (u.run s) := by
  rw [Completes, h]; rfl

end Sys2Proof.Machine
end

