-- ==== Sys2Proof/WellFormed.lean ====
section
/-!
DEFINITION. The checks on a command's operands that its type does not carry: lengths that must agree, ranges of frame fields. A
command that fails one stands for nothing an outside sender can send; the machine's meanings are total all the same.
-/
namespace Sys2Proof

/-- A request at the fabric (R47): at most 256 B; a read carries no data, a write as many bytes as it moves, an atomic its operand. An atomic
of another size than 4 B or 8 B can be sent, and is refused (R62). -/
def FabReq.wf (q : FabReq) : Bool := match q.kind.val with
  | 0 => q.data.isEmpty && q.len != 0
  | 1 => decide (1 ≤ q.data.length) && decide (q.data.length ≤ 256)
  | _ => q.len != 0 && q.data.length == q.len.val

/-- A CAN frame (R363): an 11-bit identifier unless extended; DLC codes 0 to 15 but for XL; no remote FD or XL frame; BRS and ESI of FD
frames only. -/
def CanFrame.wf (f : CanFrame) : Bool :=
  (f.ext || decide (f.id.val < 2048)) && (f.fmt == 2 || decide (f.dlc.val < 16)) && (!f.rmt || f.fmt == 0) && ((!f.brs && !f.esi) || f.fmt == 1)
    && (f.fmt != 2 || !f.ext)

/-- An error of a frame has one of the codes 1 to 6 (R375). -/
def CanError.wf (e : CanError) : Bool := e.code != 0

/-- The virtual channel of a packet type (R568). -/
def pktVc : Nat → Nat
  | 1 => 1 | 2 => 2 | 3 => 2 | 6 => 1 | 7 => 3 | 8 => 3 | _ => 0

/-- A packet of the chain (R567, R568): field widths, its type's virtual channel, LEN and payload. -/
def Pkt.wf (p : Pkt) : Bool :=
  decide (p.type < 16) && p.vc == pktVc p.type && decide (p.dst < 64) && decide (p.src < 64) && decide (p.pid < 64) && decide (p.tag < 256)
    && decide (p.len ≤ 256) && (p.type == 2 || p.data.length == p.len) && decide (p.w2 < 2 ^ 32) && decide (p.wseq < 65536)
    && decide (p.inst < 256) && decide (p.addrHi < 256) && (p.mgmt.isSome == (p.type == 5)) && (p.type != 6 || p.len == 16)
    && (p.type != 4 || p.len == 64 || p.len == 0)

/-- What arrives at a port is a whole packet, or credits of the five pools (R570). -/
def FinzaIn.wf : FinzaIn → Bool
  | .control _ _ credits => credits.all fun e => decide (e.1 < 5)
  | .packet p _ _ => p.wf

/-- Whether a command's operands are well formed. -/
def Instr.wf : Instr → Bool
  | .fabricRequest q => q.wf
  | .canTxError _ e _ => (match e with | some e => e.wf | none => true)
  | .canErrorDetected _ e _ => e.wf
  | .canArbFieldFilter _ f _ _ _ => f.wf
  | .selectiveWake _ e data _ => decide (data.length ≤ 64) && (match e with | .frame f => f.wf | _ => true)
  | .canFrameValid _ data => decide (data.length ≤ 2048)
  | .linFrameEnd _ _ data => decide (data.length ≤ 8)
  | .remoteSignalIn _ _ v => decide (v < 2 ^ 64)
  | .ethFrameRx _ f _ _ _ _ _ => decide (1 ≤ f.length) && decide (f.length ≤ 16383)
  | .wakeComparatorEvent _ _ samples _ => decide (samples.length ≤ 32)
  | .powerDownComplete samples _ => decide (samples.length ≤ 32)
  | .hostWrite _ _ _ data _ => decide (1 ≤ data.length) && decide (data.length ≤ 512)
  | .hostRead _ _ _ len atomic _ => len != 0 && (match atomic with
    | none => true
    | some (op, bs) => (len == 4 || len == 8) && bs.length == (if op = 2 then 2 * len.val else len.val))
  | .finzaPacketRx _ i => i.wf
  | _ => true

end Sys2Proof
end

