-- ==== Sys2Proof/Tests/Slice0.lean ====
section
/-!
SUPPORT. Tests: the checks of WellFormed, decoding, and for every statement a state and operands that meet its hypotheses.
-/
open Sys2Proof Sys2Proof.Machine
namespace Sys2Proof.Tests
set_option maxRecDepth 100000

/-! ## Well-formed operands -/

/-- A frame of the classical format with identifier 5. -/
def frame5 : CanFrame := ⟨0, false, false, 5, 8, false, false, false, 0, 0, 0⟩

/-- A packet of type 0 with 64 bytes. -/
def packet64 : Pkt := { type := 0, vc := 0, len := 64, data := List.replicate 64 0 }

theorem test_wf_accepts : Instr.wf (.fabricRequest ⟨0, 0x1000000, 0, 4, [], 0, 0, 0, false⟩) = true ∧ frame5.wf = true ∧ packet64.wf = true ∧
    Instr.wf (.canFrameValid 3 [1, 2]) = true ∧ Instr.wf .bwPeriodStart = true := by decide

theorem test_wf_fabric_request : FabReq.wf ⟨0, 0, 0, 4, [1], 0, 0, 0, false⟩ = false ∧ FabReq.wf ⟨0, 0, 0, 0, [], 0, 0, 0, false⟩ = false ∧
    FabReq.wf ⟨0, 0, 1, 0, [], 0, 0, 0, false⟩ = false ∧ FabReq.wf ⟨0, 0, 1, 0, List.replicate 257 0, 0, 0, 0, false⟩ = false ∧
    FabReq.wf ⟨0, 0, 2, 0, [], 0, 0, 0, false⟩ = false ∧ FabReq.wf ⟨0, 0, 2, 4, [1], 0, 0, 0, false⟩ = false ∧
    Instr.wf (.fabricRequest ⟨0, 0, 1, 0, [], 0, 0, 0, false⟩) = false := by decide

theorem test_wf_can : CanFrame.wf { frame5 with id := 2048 } = false ∧ CanFrame.wf { frame5 with dlc := 16 } = false ∧
    CanFrame.wf { frame5 with fmt := 1, rmt := true } = false ∧ CanFrame.wf { frame5 with brs := true } = false ∧
    CanFrame.wf { frame5 with esi := true } = false ∧ CanFrame.wf { frame5 with fmt := 2, ext := true } = false ∧
    CanError.wf ⟨0, false, false, false, false⟩ = false ∧ Instr.wf (.canFrameValid 3 (List.replicate 2049 0)) = false := by decide

theorem test_wf_packet : Pkt.wf { packet64 with type := 16 } = false ∧ Pkt.wf { packet64 with vc := 3 } = false ∧
    Pkt.wf { packet64 with dst := 64 } = false ∧ Pkt.wf { packet64 with src := 64 } = false ∧ Pkt.wf { packet64 with pid := 64 } = false ∧
    Pkt.wf { packet64 with tag := 256 } = false ∧ Pkt.wf { packet64 with len := 300 } = false ∧ Pkt.wf { packet64 with data := [] } = false ∧
    Pkt.wf { packet64 with w2 := 2 ^ 32 } = false ∧ Pkt.wf { packet64 with wseq := 65536 } = false ∧ Pkt.wf { packet64 with inst := 256 } = false ∧
    Pkt.wf { packet64 with addrHi := 256 } = false ∧ Pkt.wf { packet64 with mgmt := some (.enum 1) } = false ∧
    Pkt.wf { packet64 with type := 6, vc := 1 } = false ∧ Pkt.wf { packet64 with type := 4, vc := 0, len := 4, data := [1, 2, 3, 4] } = false ∧
    FinzaIn.wf (.control none none [(5, 1)]) = false ∧ FinzaIn.wf (.packet { packet64 with dst := 64 } 0 0) = false := by decide

theorem test_wf_decode : decodeTableWord 32 0x12345678 = none ∧ State.reset.withFetchWord 32 0x12345678 = State.reset := by decide

theorem test_wf_operands : Instr.wf (.canTxError 3 (some ⟨0, false, false, false, false⟩) none) = false ∧
    Instr.wf (.canErrorDetected 3 ⟨0, false, false, false, false⟩ false) = false ∧
    Instr.wf (.canArbFieldFilter 3 { frame5 with id := 2048 } 0 0 0) = false ∧ Instr.wf (.linFrameEnd 2 0 (List.replicate 9 0)) = false ∧
    Instr.wf (.remoteSignalIn 1 0 (2 ^ 64)) = false ∧ Instr.wf (.ethFrameRx 2 [] false false 0 false none) = false ∧
    Instr.wf (.selectiveWake 1 (.frame { frame5 with dlc := 16 }) [] false) = false ∧ Instr.wf (.wakeComparatorEvent 1 true (List.replicate 33 0) false) = false ∧
    Instr.wf (.powerDownComplete (List.replicate 33 0) false) = false ∧ Instr.wf (.hostWrite 0 false 0 [] 0) = false ∧
    Instr.wf (.hostWrite 0 false 0 (List.replicate 513 0) 0) = false ∧ Instr.wf (.hostRead 0 false 0 0 none 0) = false ∧
    Instr.wf (.hostRead 0 false 0 8 (some (2, [1, 2])) 0) = false ∧ Instr.wf (.finzaPacketRx 0 (.packet { packet64 with dst := 64 } 0 0)) = false := by decide

/-- The state that updates leave of the reset state. -/
def st (l : List Upd) : State := (seqs l).run State.reset

/-- A vault whose ring 3 holds one HASH descriptor in SRAM. -/
def ringState : State := st [set (BLK_CTRL_EN 5) 1, set (VLT_RING_CFG_EN 3) 1, set (VLT_RING_TAIL_INDEX 3) 1, set (VLT_RING_CFG_SIZE 3) 6,
  setReg (VLT_RING_BASE_LO 3) 0x1000000, setReg (VLT_RING_WIN_BASE 3) 0x1000, setReg (VLT_RING_WIN_LAST 3) 0x10FF,
  store 0x1000000 4 0x03000000, set VLT_TRNG_STAT_OK 1]
def ringJob : Job := ⟨3, 0x1000000, 0x03000000 :: List.replicate 15 0, false⟩
/-- The same ring outside its window. -/
def ringAway : State := (seqs [setReg (VLT_RING_WIN_LAST 3) 0xFFF]).run ringState

/-- The hypotheses of StepRunsFront are met, clause by clause. -/
theorem witness_StepRunsFront :
    (∃ (c : Instr) (l : List Instr) (s : State), s.pending = c :: l) ∧
    (∃ (s : State), s.pending = []) :=
  ⟨⟨.bwPeriodStart, [], { State.reset with pending := [.bwPeriodStart] }, rfl⟩,
   ⟨State.reset, by decide⟩⟩

/-- The hypotheses of StepKeepsLegal are met, clause by clause. -/
theorem witness_StepKeepsLegal :
    (∃ (s : State) (t : State), s.legal ∧ step s = .next t) :=
  ⟨State.reset, (tick.run State.reset), ⟨by decide, by decide⟩, rfl⟩

/-- The hypotheses of QueueIsFifo are met, clause by clause. -/
theorem witness_QueueIsFifo :
    (∃ (c : Instr) (s : State) (t : State), exec c s = .next t) ∧
    (∃ (c : Instr) (l : List Instr) (s : State) (t : State), s.pending = c :: l ∧ step s = .next t) ∧
    (∃ (s : State) (t : State), step s = .next t) :=
  ⟨⟨.bwPeriodStart, State.reset, ((Upd.seq bwPeriodStart settle).run State.reset), rfl⟩,
   ⟨.bwPeriodStart, [.purgeVisit], { State.reset with pending := [.bwPeriodStart, .purgeVisit] }, ((Upd.seq bwPeriodStart settle).run { State.reset with pending := [.purgeVisit] }), rfl, rfl⟩,
   ⟨State.reset, (tick.run State.reset), rfl⟩⟩

/-- The hypotheses of EveryCommandCompletes are met, clause by clause. -/
theorem witness_EveryCommandCompletes :
    (∃ (c : Instr), (∀ q, c ≠ .fabricRequest q)) ∧
    (∃ (q : FabReq) (a : Nat) (s : State), deviceGuard q s = some a) ∧
    (∃ (c : Instr) (r : Refusal) (s : State), exec c s = .refused r) :=
  ⟨⟨.bwPeriodStart, fun q h => Instr.noConfusion h⟩,
   ⟨⟨60, 0x2A000000, 0, 4, [], 0, 0, 0, false⟩, 0x2A000000, State.reset, by decide⟩,
   ⟨(.fabricRequest ⟨60, 0x2A000000, 0, 4, [], 0, 0, 0, false⟩), (.deviceWindow 0x2A000000), State.reset, rfl⟩⟩

/-- The hypotheses of ReadBack are met, clause by clause. -/
theorem witness_ReadBack :
    (∃ (f : Fld), f.fits = true) ∧
    (∃ (f : Fld) (g : Fld), f.fits = true ∧ g.fits = true ∧ (f.reg ≠ g.reg ∨ f.hi < g.lo ∨ g.hi < f.lo)) ∧
    (∃ (a : Nat) (c : Nat), a ≠ c) ∧
    (∃ (a : Nat) (n : Nat) (c : Nat), (c < a ∨ a + n ≤ c)) :=
  ⟨⟨(CAN_CH_MODE_LISTEN 3), by decide⟩,
   ⟨(CAN_CH_MODE_LISTEN 3), (CAN_CH_MODE_RESTRICT 3), by decide⟩,
   ⟨8, 12, by decide⟩,
   ⟨8, 4, 12, by decide⟩⟩

/-- The hypotheses of ReservedFields are met, clause by clause. -/
theorem witness_ReservedFields :
    (∃ (a : Nat) (i : Nat) (s : State), s.legal ∧ i < 32 ∧ (regMask a).testBit i = false) ∧
    (∃ (a : Nat), ((regMask a).testBit 31 = false ∧ (regMask a).testBit 0 = true)) ∧
    (∃ (a : Nat) (i : Nat), (regMask a).testBit i = false) :=
  ⟨⟨(CAN_CH_MODE_LISTEN 3).reg, 31, State.reset, ⟨by decide, by decide⟩, by decide, by decide⟩,
   ⟨(CAN_CH_MODE_LISTEN 3).reg, by decide⟩,
   ⟨5, 5, by decide⟩⟩

/-- The hypotheses of IsolationOfCAndP are met, clause by clause. -/
theorem witness_IsolationOfCAndP :
    (∃ (r : Nat), (r = 0 ∨ r = 2)) ∧
    (∃ (d : Due) (s : State), s.b.fab.due = [d] ∧ d.effect = 5 ∧ d.cell = none ∧ d.cls < 3 ∧ d.unit < 30 ∧ (regionOfUnit d.unit = 0 ∨ regionOfUnit d.unit = 2)) :=
  ⟨⟨2, by decide⟩,
   ⟨⟨23, none, 4, 1, 0, false⟩, st [upd fun blk => { blk with fab := { blk.fab with due := [⟨23, none, 4, 1, 0, false⟩] } }], by decide⟩⟩

/-- The hypotheses of GladeConversions are met, clause by clause. -/
theorem witness_GladeConversions :
    (∃ (c : Fin 32) (s : State), s.cellOn 22 c = true ∧ s.pwr ≠ 4) ∧
    (∃ (c : Fin 32) (s : State), s.flag (CELL_STAT_RETIRED 22 c) = false) ∧
    (∃ (c : Fin 32) (s : State), s.unarmed 22 = true ∧ s.flag (CELL_STAT_RETIRED 22 c) = true) :=
  ⟨⟨31, st [set (CELL_STAT_ENABLED 22 31) 1], by decide⟩,
   ⟨31, st [set (CELL_STAT_RETIRED 22 31) 0], by decide⟩,
   ⟨31, st [set (CELL_STAT_RETIRED 22 31) 1], by decide⟩⟩

/-- The hypotheses of BootTimeoutRule are met, clause by clause. -/
theorem witness_BootTimeoutRule :
    (∃ (s : State), s.get MSU_BOOT_STAT_PHASE = 2 ∧ s.flag VLT_DBG_STAT_UNLOCKED = false) ∧
    (∃ (s : State), s.get MSU_BOOT_STAT_PHASE ≠ 2) ∧
    (∃ (s : State), s.flag VLT_DBG_STAT_UNLOCKED = true) :=
  ⟨⟨st [set MSU_BOOT_STAT_PHASE 2, set VLT_DBG_STAT_UNLOCKED 0], by decide⟩,
   ⟨State.reset, by decide⟩,
   ⟨st [set VLT_DBG_STAT_UNLOCKED 1], by decide⟩⟩

/-- The hypotheses of Semaphores are met, clause by clause. -/
theorem witness_Semaphores :
    (∃ (i : Fin 64) (o : Origin) (p : Pid) (s : State), s.flag (HBR_SEM_HELD i) = false ∧ (ownerOf o p).2.1 < 64 ∧ (ownerOf o p).2.2 < 256) ∧
    (∃ (i : Fin 64) (s : State), s.flag (HBR_SEM_HELD i) = true) ∧
    (∃ (i : Fin 64) (o : Origin) (p : Pid) (s : State), s.flag (HBR_SEM_HELD i) = true ∧ s.semOwner i = ownerOf o p) ∧
    (∃ (i : Fin 64) (o : Origin) (p : Pid) (s : State), s.semOwner i ≠ ownerOf o p) ∧
    (∃ (i : Fin 64) (s : State), s.flag (HBR_SEM_HELD i) = true) ∧
    (∃ (f : Nat) (a : Nat) (n : Nat) (i : Nat) (s : State), s.semHolds f a n = some i) :=
  ⟨⟨63, .loc, 1, st [set (HBR_SEM_HELD 63) 0], by decide⟩,
   ⟨63, st [set (HBR_SEM_HELD 63) 1], by decide⟩,
   ⟨63, .loc, 1, st [set (HBR_SEM_HELD 63) 1, set (HBR_SEM_KIND 63) 2, set (HBR_SEM_SUB 63) 1], by decide⟩,
   ⟨63, .loc, 1, State.reset, by decide⟩,
   ⟨63, st [set (HBR_SEM_HELD 63) 1], by decide⟩,
   ⟨5, 64, 8, 3, st [set (HBR_SEM_HELD 3) 1, set (HBR_SEM_KIND 3) 2, set (HBR_SEM_ADDR_LO_ADDR 3) 1], by decide⟩⟩

/-- The hypotheses of InstanceRemoval are met, clause by clause. -/
theorem witness_InstanceRemoval :
    (∃ (n : Fin 256) (old : Nat) (s : State), old / 2 ^ 28 % 16 ≠ 0 ∧ s.flag (IOM_INST_STAT_BOUND n) = true ∧ s.flag (IOM_INST_STAT_RESETTING n) = false) ∧
    (∃ (n : Fin 256) (s : State), s.flag (IOM_INST_STAT_RESETTING n) = true ∧ s.instQuiet n = true ∧ s.b.iom.removing.contains n.val = true) ∧
    (∃ (n : Fin 256) (s : State), s.flag (IOM_INST_STAT_RESETTING n) = true ∧ s.instQuiet n = true ∧ s.b.iom.removing.contains n.val = false) :=
  ⟨⟨255, 0x70000000, st [set (IOM_INST_STAT_BOUND 255) 1, set (IOM_INST_STAT_RESETTING 255) 0], by decide⟩,
   ⟨255, st [set (IOM_INST_STAT_RESETTING 255) 1, upd fun b => { b with iom := { b.iom with removing := [255] } }], by decide⟩,
   ⟨255, st [set (IOM_INST_STAT_RESETTING 255) 1], by decide⟩⟩

/-- The hypotheses of ClearedCounters are met, clause by clause. -/
theorem witness_ClearedCounters :
    (∃ (pid : Pid) (p : Fin 25) (s : State), s.pwr ≤ 1 ∧ s.checkAt (pid, true) (ETP_CNT_TX_OCTETS p) 4 0 = 0 ∧ s.unarmed 7 = true ∧ s.flag (BLK_CTRL_ISOLATE 7) = false) ∧
    (∃ (pid : Pid) (p : Fin 25) (s : State), s.pwr ≤ 1 ∧ s.checkAt (pid, true) (ETP_CNT_TX_OCTETS p + 4) 4 0 = 0 ∧ s.unarmed 7 = true ∧ s.flag (BLK_CTRL_ISOLATE 7) = false) ∧
    (∃ (a : Nat), (whole a).fits = true) :=
  ⟨⟨1, 24, st [set (BLK_CTRL_ISOLATE 7) 0], by decide⟩,
   ⟨1, 24, st [set (BLK_CTRL_ISOLATE 7) 0], by decide⟩,
   ⟨CAN_TXBUF_PEND 15, by decide⟩⟩

/-- The hypotheses of LoadPhaseEvents are met, clause by clause. -/
theorem witness_LoadPhaseEvents :
    (∃ (g : Fin 64) (t : Nat) (s : State), s.unarmed (16 + g.val / 16) = true ∧ (s.chan (s.lead g)).out = .on ∧ s.inPwm (s.lead g) = true ∧ s.aligned (s.lead g) t = true ∧ ((s.chan (s.lead g)).wait || decide ((s.chan (s.lead g)).start + (s.chan (s.lead g)).period ≤ t)) = true) ∧
    (∃ (g : Fin 64) (t : Nat) (s : State), s.unarmed (16 + g.val / 16) = true ∧ (s.chan (s.lead g)).out = .on ∧ s.inPwm (s.lead g) = true ∧ (s.chan (s.lead g)).phase = true ∧ (s.chan (s.lead g)).wait = false ∧ (s.chan (s.lead g)).start + (s.chan (s.lead g)).onNs ≤ t ∧ ((s.chan (s.lead g)).onNs != (s.chan (s.lead g)).period || !s.aligned (s.lead g) t) = true ∧ s.olonPaused (s.lead g) = true) ∧
    (∃ (g : Fin 64) (s : State), s.unarmed (16 + g.val / 16) = true ∧ (s.chan (s.lead g)).out = .on ∧ s.mode (s.lead g) = 4 ∧ (s.chan (s.lead g)).down = false ∧ (bits (s.chan (s.lead g)).motor 15 0) ≠ 0) ∧
    (∃ (g : Fin 64) (s : State), s.unarmed (16 + g.val / 16) = true ∧ (s.chan (s.lead g)).out = .on ∧ s.mode (s.lead g) = 4 ∧ (s.chan (s.lead g)).down = true ∧ 0 < (s.chan (s.lead g)).effNext ∧ (s.chan (s.lead g)).effNext ≤ bits (s.chan (s.lead g)).motor 15 0) ∧
    (∃ (g : Fin 64) (s : State), (s.chan (s.lead g)).win = true ∧ s.flag (LSW_PR_DIE_STAT_UV (g.val / 16)) = false) ∧
    (∃ (g : Fin 64) (s : State), (s.chan (s.lead g)).inrush = true ∧ s.flag (LSW_PR_DIE_STAT_UV (g.val / 16)) = false) ∧
    (∃ (g : Fin 64) (s : State), (s.chan (s.lead g)).out = .on ∧ s.mode (s.lead g) = 6 ∧ (s.chan (s.lead g)).peak = true) ∧
    (∃ (g : Fin 64) (s : State), (s.chan (s.lead g)).out = .on ∧ (s.mode (s.lead g) = 3 ∨ s.mode (s.lead g) = 5)) :=
  ⟨⟨63, 10000000, st [updChan 63 fun x => { x with out := .on }, set (LSW_CH_CFG_MODE 63) 2], by decide⟩,
   ⟨63, 10000000, st [updChan 63 fun x => { x with out := .on }, updChan 63 fun x => { x with phase := true }, updChan 63 fun x => { x with wait := false }, set (LSW_CH_CFG_MODE 63) 2, updChan 63 fun x => { x with win := true, onNs := 100 }], by decide⟩,
   ⟨63, st [updChan 63 fun x => { x with out := .on }, set (LSW_CH_CFG_MODE 63) 4, updChan 63 fun x => { x with down := false }, updChan 63 fun x => { x with motor := 100 }], by decide⟩,
   ⟨63, st [updChan 63 fun x => { x with out := .on }, set (LSW_CH_CFG_MODE 63) 4, updChan 63 fun x => { x with down := true }, updChan 63 fun x => { x with motor := 100 }, updChan 63 fun x => { x with effNext := 50 }], by decide⟩,
   ⟨63, st [updChan 63 fun x => { x with win := true }], by decide⟩,
   ⟨63, st [updChan 63 fun x => { x with inrush := true }], by decide⟩,
   ⟨63, st [updChan 63 fun x => { x with out := .on, peak := true }, set (LSW_CH_CFG_MODE 63) 6], by decide⟩,
   ⟨63, st [updChan 63 fun x => { x with out := .on }, set (LSW_CH_CFG_MODE 63) 3], by decide⟩⟩

/-- The hypotheses of LoadSampleEvents are met, clause by clause. -/
theorem witness_LoadSampleEvents :
    (∃ (g : Fin 64) (s : State), s.unarmed (16 + g.val / 16) = true ∧ (s.die (g.val / 16)).on = true) ∧
    (∃ (g : Fin 64) (s : State), s.unarmed (16 + g.val / 16) = true ∧ (s.die (g.val / 16)).on = false) ∧
    (∃ (g : Fin 64) (x : LoadSample) (s : State), s.unarmed (16 + g.val / 16) = true ∧ (s.die (g.val / 16)).on = true ∧ ((s.chan (s.lead g)).out = .on → (s.chan (s.lead g)).phase = false) ∧ x.slow = none ∧ (s.chan (s.lead g)).win = false ∧ (s.chan (s.lead g)).inrush = false) ∧
    (∃ (g : Fin 64) (s : State), s.unarmed (16 + g.val / 16) = true ∧ (s.get (LSW_CH_PUBLISH_GSID_BASE g)) ≤ 0x1FFFFFD) ∧
    (∃ (g : Fin 64) (s : State), s.unarmed (16 + g.val / 16) = true ∧ 0x1FFFFFD < s.get (LSW_CH_PUBLISH_GSID_BASE g)) ∧
    (∃ (g : Fin 64) (u : Nat × Nat × Nat × Nat) (s : State), s.b.lsw.bound.find? (·.1 = g.val) = some u) ∧
    (∃ (g : Fin 64) (s : State), s.flag (LSW_CH_BIND_EN g) = true ∧ s.flag (LSW_CH_BIND_MAP_TO_MS g) = true ∧ s.lead g = g) ∧
    (∃ (g : Fin 64) (s : State), (s.chan (s.lead g)).out ≠ .on) :=
  ⟨⟨63, st [.act (.blocks fun b => { b with lsw := { b.lsw with die := [(3, { on := true })] } })], by decide⟩,
   ⟨63, State.reset, by decide⟩,
   ⟨63, ⟨100, false, none⟩, st [.act (.blocks fun b => { b with lsw := { b.lsw with die := [(3, { on := true })] } })], by decide⟩,
   ⟨63, State.reset, by decide⟩,
   ⟨63, st [set (LSW_CH_PUBLISH_GSID_BASE 63) 0x1FFFFFE], by decide⟩,
   ⟨63, (63, 5, 1, 0), st [upd fun blk => { blk with lsw := { blk.lsw with bound := [(63, 5, 1, 0)] } }], by decide⟩,
   ⟨63, st [set (LSW_CH_BIND_EN 63) 1, set (LSW_CH_BIND_MAP_TO_MS 63) 1], by decide⟩,
   ⟨63, State.reset, by decide⟩⟩

/-- The hypotheses of LoadProtectionEvents are met, clause by clause. -/
theorem witness_LoadProtectionEvents :
    (∃ (g : Fin 64) (s : State), s.limitAllow (s.lead g) ≤ (s.chan g).limUs ∧ (s.chan (s.lead g)).out = .on) ∧
    (∃ (g : Fin 64) (s : State), (s.chan (s.lead g)).out = .on ∧ repMJ (s.lead g) * s.scale (s.lead g) * 1000 < (s.chan (s.lead g)).eRep) ∧
    (∃ (g : Fin 64) (s : State), (s.chan (s.lead g)).out = .clamp ∧ (s.chan (s.lead g)).fixed = false) ∧
    (∃ (g : Fin 64) (s : State), (s.chan (s.lead g)).out = .clamp ∧ (s.chan (s.lead g)).fixed = true ∧ (s.chan (s.lead g)).tripOff = true ∧ s.loadRetired (s.lead g) = false) ∧
    (∃ (g : Fin 64) (s : State), ((s.chan (s.lead g)).out ≠ .clamp ∨ ((s.chan (s.lead g)).fixed = true ∧ ((s.chan (s.lead g)).tripOff = false ∨ s.loadRetired (s.lead g) = true)))) ∧
    (∃ (g : Fin 64) (s : State), (s.chan (s.lead g)).out = .ramp) ∧
    (∃ (g : Fin 64) (s : State), (s.chan (s.lead g)).retryWait = true ∧ (s.chan (s.lead g)).out = .off ∧ s.gateOpen (s.lead g) = true) ∧
    (∃ (g : Fin 64) (s : State), (s.chan (s.lead g)).retryWait = true ∧ (s.chan (s.lead g)).out = .off ∧ s.gateOpen (s.lead g) = false) ∧
    (∃ (g : Fin 64) (s : State), (s.chan (s.lead g)).restarted = true ∧ (s.chan (s.lead g)).out = .on) ∧
    (∃ (g : Fin 64) (s : State), (s.chan (s.lead g)).coolWait = true) :=
  ⟨⟨63, st [updChan 63 fun x => { x with out := .on, limUs := 1000000 }], by decide⟩,
   ⟨63, st [updChan 63 fun x => { x with out := .on, eRep := 1000000000 }], by decide⟩,
   ⟨63, st [updChan 63 fun x => { x with out := .clamp }, updChan 63 fun x => { x with fixed := false }], by decide⟩,
   ⟨63, st [updChan 63 fun x => { x with out := .clamp }, updChan 63 fun x => { x with fixed := true }, updChan 63 fun x => { x with tripOff := true }], by decide⟩,
   ⟨63, State.reset, by decide⟩,
   ⟨63, st [updChan 63 fun x => { x with out := .ramp }], by decide⟩,
   ⟨63, st [updChan 63 fun x => { x with retryWait := true }, updChan 63 fun x => { x with out := .off }, updDie 3 fun x => { x with on := true }], by decide⟩,
   ⟨63, st [updChan 63 fun x => { x with retryWait := true }, updChan 63 fun x => { x with out := .off }], by decide⟩,
   ⟨63, st [updChan 63 fun x => { x with out := .on, restarted := true }], by decide⟩,
   ⟨63, st [updChan 63 fun x => { x with coolWait := true }], by decide⟩⟩

/-- The hypotheses of LoadGovernorAndDie are met, clause by clause. -/
theorem witness_LoadGovernorAndDie :
    (∃ (s : State), (s.computeOff = false ∨ s.flag PSM_STAT_P_SERVICE = true)) ∧
    (∃ (s : State), s.computeOff = true ∧ s.flag PSM_STAT_P_SERVICE = false) ∧
    (∃ (b : Fin 3) (l : Nat) (ls : List Nat) (s : State), s.budget b < s.govSum b ∧ s.shedOrder (fun l => b.val == 2 || studOf l == b.val) = l :: ls) ∧
    (∃ (b : Fin 3) (s : State), s.govSum b ≤ s.budget b) ∧
    (∃ (d : Fin 4) (t : Fin 256) (s : State), t.val < s.dieWarn d ∧ s.flag (LSW_PR_DIE_STAT_HOT d) = false ∧ t.val < s.dieShed d ∧ s.flag (LSW_PR_DIE_STAT_SHEDDING d) = false) ∧
    (∃ (d : Fin 4) (t : Fin 256) (s : State), s.dieWarn d ≤ t.val ∧ t.val < s.dieShed d ∧ s.flag (LSW_PR_DIE_STAT_SHEDDING d) = false ∧ (∀ l ∈ s.loads, l / 16 = d.val → (s.chan l).out ≠ .on) ∧ s.flag (LSW_PR_DIE_STAT_HOT d) = false) ∧
    (∃ (d : Fin 4) (l : Nat) (ls : List Nat) (s : State), s.flag (LSW_PR_DIE_STAT_SHEDDING d) = true ∧ s.shedOrder (fun l => l / 16 == d.val) = l :: ls) ∧
    (∃ (d : Fin 4) (s : State), s.flag (LSW_PR_DIE_STAT_UV d) = false) ∧
    (∃ (g : Fin 64) (s : State), s.unarmed (16 + g.val / 16) = true ∧ ((s.chan (s.lead g)).out = .clamp ∨ (s.chan (s.lead g)).out = .ramp) ∧ (s.chan (s.lead g)).after = false) ∧
    (∃ (g : Fin 64) (s : State), s.unarmed (16 + g.val / 16) = true ∧ (s.chan (s.lead g)).out ≠ .clamp ∧ (s.chan (s.lead g)).out ≠ .ramp) ∧
    (∃ (g : Fin 64) (s : State), s.unarmed (16 + g.val / 16) = true ∧ (s.chan (s.lead g)).out = .ramp ∧ (s.chan (s.lead g)).tripped = true ∧ (s.chan (s.lead g)).after = false ∧ (∀ x ∈ s.members (s.lead g), s.flag (CELL_STAT_DRAINING (lswUnit x) (x % 16)) = false)) :=
  ⟨⟨State.reset, by decide⟩,
   ⟨st [set PSM_STAT_P_SERVICE 0, set MSU_PWR_STATE_STATE 2], by decide⟩,
   ⟨2, 63, [], st [updChan 63 fun x => { x with out := .on }, upd fun blk => { blk with lsw := { blk.lsw with mod := 1000000000 } }], by decide⟩,
   ⟨2, State.reset, by decide⟩,
   ⟨3, 50, st [set (LSW_PR_DIE_STAT_HOT 3) 0, set (LSW_PR_DIE_STAT_SHEDDING 3) 0], by decide⟩,
   ⟨3, 230, st [set (LSW_PR_DIE_STAT_SHEDDING 3) 0, set (LSW_PR_DIE_STAT_HOT 3) 0, set (LSW_PR_DIE_CFG_DIE_SHED 3) 255], by decide⟩,
   ⟨3, 63, [], st [set (LSW_PR_DIE_STAT_SHEDDING 3) 1, updChan 63 fun x => { x with out := .on }], by decide⟩,
   ⟨3, st [set (LSW_PR_DIE_STAT_UV 3) 0], by decide⟩,
   ⟨63, st [updChan 63 fun x => { x with after := false }, updChan 63 fun x => { x with out := .ramp }], by decide⟩,
   ⟨63, State.reset, by decide⟩,
   ⟨63, st [updChan 63 fun x => { x with out := .ramp }, updChan 63 fun x => { x with tripped := true }, updChan 63 fun x => { x with after := false }], by decide⟩⟩

/-- The hypotheses of LoadDiagnosticEvents are met, clause by clause. -/
theorem witness_LoadDiagnosticEvents :
    (∃ (g : Fin 64) (t : Nat) (s : State), s.unarmed (16 + g.val / 16) = true ∧ s.flag (LSW_DG_OFF_CFG_EN (s.lead g)) = true ∧ s.flag (LSW_DG_STAT_FW_RUN (g.val / 16)) = true ∧ s.testable (s.lead g) t = true ∧ (s.chan (s.lead g)).test = false) ∧
    (∃ (g : Fin 64) (s : State), (s.chan (s.lead g)).test = true) ∧
    (∃ (g : Fin 64) (s : State), (s.chan (s.lead g)).olonRun = true ∧ s.flag (LSW_DG_OLON_CFG_OLON_EN (s.lead g)) = true ∧ s.chState (s.lead g) = 1 ∧ s.flag (LSW_DG_OLON_STAT_OLON (s.lead g)) = false) :=
  ⟨⟨63, 5, st [set (LSW_DG_OFF_CFG_EN 63) 1, set (LSW_DG_STAT_FW_RUN 3) 1, set (CELL_CTRL_EN 19 15) 1, set (BLK_CTRL_EN 19) 1], by decide⟩,
   ⟨63, st [updChan 63 fun x => { x with test := true }], by decide⟩,
   ⟨63, st [updChan 63 fun x => { x with olonRun := true, out := .on }, set (LSW_DG_OLON_CFG_OLON_EN 63) 1], by decide⟩⟩

/-- The hypotheses of UnitAndCellEvents are met, clause by clause. -/
theorem witness_UnitAndCellEvents :
    (∃ (k : Fin 23) (c : Fin 512) (s : State), s.flag (CELL_STAT_DRAINING k c) = true ∧ s.cellBusy k c = false) ∧
    (∃ (k : Fin 23) (s : State), k.val ≠ 8 ∧ s.flag (BLK_STAT_DRAINING k) = true ∧ s.blockBusy k = false ∧ s.flag (BLK_CTRL_EN k) = false ∧ s.flag (BLK_CTRL_SOFT_RST k) = false) ∧
    (∃ (k : Fin 23) (s : State), k.val ≠ 8 ∧ s.flag (BLK_STAT_DRAINING k) = true ∧ s.blockBusy k = false) ∧
    (∃ (s : State), s.flag (BLK_STAT_DRAINING 8) = true ∧ ((s.b.swq.tx.any fun e => e.2.isSome) = false)) ∧
    (∃ (k : Fin 28) (s : State), s.flag (BLK_ERR_INJ_ARM k) = true ∧ s.injTarget k = true) ∧
    (∃ (k : Fin 23) (s : State), 1 < s.pwr ∧ k.val ≠ 22) ∧
    (∃ (k : Fin 28) (s : State), s.flag (BLK_ERR_INJ_ARM k) = true ∧ s.get (BLK_ERR_INJ_CELL k) = 0xFFF) ∧
    (∃ (k : Fin 28) (s : State), s.flag (BLK_ERR_INJ_ARM k) = true ∧ s.injTarget k = false) ∧
    (∃ (k : Fin 23) (s : State), ((s.pwr ≤ 1 ∨ k.val = 22))) ∧
    (∃ (d : Fin 4) (s : State), (s.die d).on = true) ∧
    (∃ (d : Fin 4) (s : State), (s.die d).hbLost = true) ∧
    (∃ (i : Fin 4) (s : State), s.flag (MSU_WDOG_STAT_RUNNING i) = true) :=
  ⟨⟨22, 31, st [set (CELL_STAT_DRAINING 22 31) 1], by decide⟩,
   ⟨22, st [set (BLK_STAT_DRAINING 22) 1, set (BLK_CTRL_EN 22) 0, set (BLK_CTRL_SOFT_RST 22) 0], by decide⟩,
   ⟨22, st [set (BLK_STAT_DRAINING 22) 1], by decide⟩,
   ⟨st [set (BLK_STAT_DRAINING 8) 1], by decide⟩,
   ⟨27, st [set (BLK_ERR_INJ_ARM 27) 1], by decide⟩,
   ⟨21, st [set MSU_PWR_STATE_STATE 2], by decide⟩,
   ⟨27, st [set (BLK_ERR_INJ_ARM 27) 1, set (BLK_ERR_INJ_CELL 27) 0xFFF], by decide⟩,
   ⟨27, st [set (BLK_ERR_INJ_ARM 27) 1, set (BLK_ERR_INJ_CELL 27) 5], by decide⟩,
   ⟨22, State.reset, by decide⟩,
   ⟨3, st [updDie 3 fun x => { x with on := true }], by decide⟩,
   ⟨3, st [updDie 3 fun x => { x with hbLost := true }], by decide⟩,
   ⟨3, st [set (MSU_WDOG_STAT_RUNNING 3) 1], by decide⟩⟩

/-- The hypotheses of CanopyAndMemoryEvents are met, clause by clause. -/
theorem witness_CanopyAndMemoryEvents :
    (∃ (h : Fin 12) (s : State), s.ctxIdle (4 * h) = true) ∧
    (∃ (h : Fin 12) (m : Fin 5) (s : State), s.ctxIdle (4 * h) = false ∧ m.val ≤ 1) ∧
    (∃ (h : Fin 12) (m : Fin 5) (s : State), s.ctxIdle (4 * h) = false ∧ m.val ≤ 1) ∧
    (∃ (h : Fin 12) (m : Fin 5) (s : State), s.ctxIdle (4 * h) = false ∧ 2 ≤ m.val) ∧
    (∃ (k : Fin 3) (s : State), s.flag (CNP_CLU_CLK_BUSY k) = true) ∧
    (∃ (p : Nat) (ps : List Nat) (s : State), s.b.mem.retiring = p :: ps ∧ p < 2 ^ 28 ∧ s.get MEM_RETIRE_STAT_SPARE_USED < 256) ∧
    (∃ (s : State), s.unarmed 4 = true ∧ s.flag MEM_ECC_CFG_SCRUB_EN = true ∧ s.flag (BLK_CTRL_EN 4) = true ∧ s.pwr ≤ 1 ∧ s.b.mem.poison.contains (s.spareLine (0x1000000000 / 64 + s.b.mem.scrub)) = false) ∧
    (∃ (s : State), s.unarmed 4 = true ∧ s.flag MEM_ECC_CFG_SCRUB_EN = true ∧ s.flag (BLK_CTRL_EN 4) = true ∧ s.pwr ≤ 1 ∧ s.b.mem.scrub + 1 < scrubLines ∧ s.b.mem.poison.contains (s.spareLine (0x1000000000 / 64 + s.b.mem.scrub)) = false) ∧
    (∃ (s : State), s.unarmed 4 = true ∧ s.flag MEM_ECC_CFG_SCRUB_EN = true ∧ s.flag (BLK_CTRL_EN 4) = true ∧ s.pwr ≤ 1 ∧ s.b.mem.poison.contains (s.spareLine (0x1000000000 / 64 + s.b.mem.scrub)) = false) ∧
    (∃ (s : State), s.unarmed 4 = true ∧ (s.flag MEM_ECC_CFG_SCRUB_EN = false ∨ s.flag (BLK_CTRL_EN 4) = false ∨ 1 < s.pwr)) ∧
    (∃ (p : Nat) (ps : List (Nat × Bool)) (s : State), s.b.mem.rekey = (p, false) :: ps ∧ s.copies p = false) ∧
    (∃ (p : Nat) (ps : List (Nat × Bool)) (s : State), s.b.mem.rekey = (p, false) :: ps ∧ s.copies p = true) ∧
    (∃ (p : Nat) (ps : List (Nat × Bool)) (s : State), s.b.mem.rekey = (p, true) :: ps) :=
  ⟨⟨11, State.reset, by decide⟩,
   ⟨11, 1, st [setBit CNP_HART_STAT (11 + CNP_HART_STAT_RUNNING.lo)], by decide⟩,
   ⟨11, 1, st [setBit CNP_HART_STAT (11 + CNP_HART_STAT_RUNNING.lo)], by decide⟩,
   ⟨11, 2, st [setBit CNP_HART_STAT (11 + CNP_HART_STAT_RUNNING.lo)], by decide⟩,
   ⟨2, st [set (CNP_CLU_CLK_BUSY 2) 1], by decide⟩,
   ⟨5, [], st [upd fun b => { b with mem := { b.mem with retiring := 5 :: ([]) } }], by decide⟩,
   ⟨st [set MEM_ECC_CFG_SCRUB_EN 1, set (BLK_CTRL_EN 4) 1], by decide⟩,
   ⟨st [set MEM_ECC_CFG_SCRUB_EN 1, set (BLK_CTRL_EN 4) 1], by decide⟩,
   ⟨st [set MEM_ECC_CFG_SCRUB_EN 1, set (BLK_CTRL_EN 4) 1], by decide⟩,
   ⟨State.reset, by decide⟩,
   ⟨5, [], st [upd fun b => { b with mem := { b.mem with rekey := (5, false) :: ([]) } }], by decide⟩,
   ⟨0, [], st [upd fun blk => { blk with mem := { blk.mem with rekey := [(0, false)], retiring := [7] } }], by decide⟩,
   ⟨5, [], st [upd fun b => { b with mem := { b.mem with rekey := (5, true) :: ([]) } }], by decide⟩⟩

/-- The hypotheses of ResetsBootAndPowerDown are met, clause by clause. -/
theorem witness_ResetsBootAndPowerDown :
    (∃ (s : State), s.get MSU_BOOT_STAT_PHASE = 0 ∧ s.b.psm.brown = false ∧ s.b.psm.por = false ∧ s.pwr = 0) ∧
    (∃ (s : State), (s.get MSU_BOOT_STAT_PHASE ≠ 0 ∨ s.b.psm.brown = true ∨ s.b.psm.por = true ∨ s.pwr ≠ 0)) ∧
    (∃ (s : State), s.get MSU_BOOT_STAT_PHASE = 2 ∧ s.flag VLT_DBG_STAT_UNLOCKED = false) ∧
    (∃ (s : State), s.b.psm.trans = none) ∧
    (∃ (s : State), s.b.psm.trans = some 2 ∧ s.pdPhase = 3 ∧ s.b.psm.late = [] ∧ s.b.gld.held = [] ∧ s.get (IW_STAT_STATE 0) ≠ 1 ∧ s.get (IW_STAT_STATE 0) ≠ 3 ∧ s.get (IW_STAT_STATE 1) ≠ 1 ∧ s.get (IW_STAT_STATE 1) ≠ 3) ∧
    (∃ (s : State), s.b.psm.trans = some 3 ∧ s.pdPhase = 3 ∧ s.b.psm.late = [] ∧ s.b.gld.held = []) ∧
    (∃ (s : State), s.b.psm.trans = some 4 ∧ s.pdPhase = 3 ∧ s.b.psm.late = [] ∧ s.b.psm.latched = 0) :=
  ⟨⟨st [set MSU_BOOT_STAT_PHASE 0, set MSU_PWR_STATE_STATE 0], by decide⟩,
   ⟨st [set MSU_BOOT_STAT_PHASE 3], by decide⟩,
   ⟨st [set MSU_BOOT_STAT_PHASE 2, set VLT_DBG_STAT_UNLOCKED 0], by decide⟩,
   ⟨State.reset, by decide⟩,
   ⟨st [upd fun b => { b with psm := { b.psm with trans := some 2 } }, set PSM_TRANS_STAT_PHASE 3], by decide⟩,
   ⟨st [upd fun b => { b with psm := { b.psm with trans := some 3 } }, set PSM_TRANS_STAT_PHASE 3], by decide⟩,
   ⟨st [upd fun b => { b with psm := { b.psm with trans := some 4 } }, set PSM_TRANS_STAT_PHASE 3, upd fun b => { b with psm := { b.psm with latched := 0 } }], by decide⟩⟩

/-- The hypotheses of SupplyEvents are met, clause by clause. -/
theorem witness_SupplyEvents :
    (∃ (s : State), s.flag PSM_STAT_SURGE = false) ∧
    (∃ (s : State), s.flag PSM_STAT_SURGE = true) ∧
    (∃ (s : State), s.flag PSM_STAT_SURGE = false) ∧
    (∃ (s : State), s.flag PSM_STAT_LOWV = false) ∧
    (∃ (s : State), s.flag PSM_STAT_LOWV = true) ∧
    (∃ (s : State), s.b.psm.brown = false) ∧
    (∃ (s : State), s.b.psm.brown = true) ∧
    (∃ (s : State), s.gladeRules = true) ∧
    (∃ (i : Fin 2) (s : State), s.flag (if i.val = 0 then PSM_STAT_KL30_1_OK else PSM_STAT_KL30_2_OK) = true) ∧
    (∃ (s : State), s.flag PSM_STAT_GND_OK = true ∧ s.b.psm.trans = none) ∧
    (∃ (d : Fin 4) (s : State), (s.die d).on = true) :=
  ⟨⟨st [set PSM_STAT_SURGE 0], by decide⟩,
   ⟨st [set PSM_STAT_SURGE 1], by decide⟩,
   ⟨st [set PSM_STAT_SURGE 0], by decide⟩,
   ⟨st [set PSM_STAT_LOWV 0], by decide⟩,
   ⟨st [set PSM_STAT_LOWV 1], by decide⟩,
   ⟨State.reset, by decide⟩,
   ⟨st [upd fun b => { b with psm := { b.psm with brown := true } }], by decide⟩,
   ⟨st [set MSU_PWR_STATE_STATE 2], by decide⟩,
   ⟨1, st [set PSM_STAT_KL30_2_OK 1], by decide⟩,
   ⟨st [set PSM_STAT_GND_OK 1], by decide⟩,
   ⟨3, st [updDie 3 fun x => { x with on := true }], by decide⟩⟩

/-- The hypotheses of TransitionsAndWakes are met, clause by clause. -/
theorem witness_TransitionsAndWakes :
    (∃ (t : Nat) (s : State), s.b.psm.trans = some t ∧ t ≤ 1) ∧
    (∃ (s : State), s.pdPhase = 1 ∧ s.allLoadsOff = true) ∧
    (∃ (s : State), s.pdPhase = 2) ∧
    (∃ (s : State), s.pwr = 2 ∧ s.flag PSM_CFG_SUSPEND_MAX = true) ∧
    (∃ (s : State), s.pdPhase = 0) ∧
    (∃ (c : Fin 8) (s : State), s.flag (NMC_SWK_CFG_MODE c) = true ∧ s.pdPhase = 0 ∧ (s.pwr = 2 ∨ s.pwr = 3 ∨ (s.pwr ≤ 1 ∧ s.flag (NMC_CH_STAT_TRX_ASLEEP c) = true ∧ s.flag (NMC_SWK_STAT_ARMED c) = true))) ∧
    (∃ (c : Fin 8) (s : State), (s.flag (NMC_SWK_CFG_MODE c) = false ∨ (s.pdPhase = 0 ∧ s.pwr ≤ 1 ∧ (s.flag (NMC_CH_STAT_TRX_ASLEEP c) = false ∨ s.flag (NMC_SWK_STAT_ARMED c) = false)))) ∧
    (∃ (n : Fin 12) (s : State), (4 ≤ n.val ∨ (s.pdPhase = 0 ∧ s.pwr ≤ 1))) ∧
    (∃ (n : Fin 12) (s : State), n.val < 4 ∧ (s.pdPhase ≠ 0 ∨ 2 ≤ s.pwr)) ∧
    (∃ (s : State), s.pdPhase = 0 ∧ s.pwr = 2) ∧
    (∃ (s : State), s.pdPhase = 0 ∧ 3 ≤ s.pwr) ∧
    (∃ (s : State), s.pdPhase = 0 ∧ s.pwr ≤ 1) ∧
    (∃ (s : State), s.get MSU_BOOT_STAT_PHASE = 3 ∧ s.pwr ≤ 1) :=
  ⟨⟨1, st [upd fun b => { b with psm := { b.psm with trans := some 1 } }], by decide⟩,
   ⟨st [set PSM_TRANS_STAT_PHASE 1], by decide⟩,
   ⟨st [set PSM_TRANS_STAT_PHASE 2], by decide⟩,
   ⟨st [set MSU_PWR_STATE_STATE 2, set PSM_CFG_SUSPEND_MAX 1], by decide⟩,
   ⟨st [set PSM_TRANS_STAT_PHASE 0], by decide⟩,
   ⟨7, st [set (NMC_SWK_CFG_MODE 7) 1, set PSM_TRANS_STAT_PHASE 0, set MSU_PWR_STATE_STATE 2], by decide⟩,
   ⟨7, State.reset, by decide⟩,
   ⟨11, State.reset, by decide⟩,
   ⟨3, st [set MSU_PWR_STATE_STATE 2], by decide⟩,
   ⟨st [set PSM_TRANS_STAT_PHASE 0, set MSU_PWR_STATE_STATE 2], by decide⟩,
   ⟨st [set PSM_TRANS_STAT_PHASE 0, set MSU_PWR_STATE_STATE 4], by decide⟩,
   ⟨st [set PSM_TRANS_STAT_PHASE 0], by decide⟩,
   ⟨st [set MSU_BOOT_STAT_PHASE 3], by decide⟩⟩

/-- The hypotheses of CanTransmitEvents are met, clause by clause. -/
theorem witness_CanTransmitEvents :
    (∃ (c : Fin 16) (s : State), (s.get (CAN_STATUS_STATE c) ≠ 1 ∨ s.flag (NMC_CH_STAT_TRX_ASLEEP c) = true)) ∧
    (∃ (c : Fin 16) (s : State), s.get (CAN_STATUS_STATE c) = 1 ∧ s.flag (NMC_CH_STAT_TRX_ASLEEP c) = false) ∧
    (∃ (c : Fin 16) (i : Nat) (s : State), s.unarmed 9 = true ∧ s.canActive c = true ∧ s.flag (CELL_STAT_ENABLED 9 c) = true ∧ (s.canCh c).tx = none ∧ s.txChoice c = some i ∧ s.pendingSlots c ≠ [] ∧ s.flag (CAN_CH_MODE_LISTEN c) = false ∧ s.flag (CAN_CH_MODE_RESTRICT c) = false ∧ s.frozenArg 1 16 c = false ∧ s.formatBad c i = false) ∧
    (∃ (c : Fin 16) (s : State), s.unarmed 9 = true ∧ s.canActive c = true ∧ s.flag (CELL_STAT_ENABLED 9 c) = true ∧ (s.canCh c).tx = none ∧ s.pendingSlots c ≠ [] ∧ s.flag (CAN_CH_MODE_LISTEN c) = false ∧ s.flag (CAN_CH_MODE_RESTRICT c) = false ∧ s.frozenArg 1 16 c = false) ∧
    (∃ (c : Fin 16) (i : Nat) (s : State), (s.canCh c).tx = some i) ∧
    (∃ (c : Fin 16) (i : Nat) (s : State), (s.canCh c).tx = some i ∧ s.flag (CAN_TX_CFG_ARB_CNT c) = false ∧ (s.slotInfo c i).cancelled = false ∧ s.flag (CELL_STAT_DRAINING 9 c) = false) ∧
    (∃ (c : Fin 16) (i : Nat) (e : CanError) (s : State), (s.canCh c).tx = some i ∧ e.unsignalled = false ∧ e.code.val ≠ 1 ∧ e.code.val ≠ 4 ∧ (s.get (CAN_STATUS_STATE c) = 2 ∨ s.get (CAN_STATUS_STATE c) = 3) ∧ s.flag (CELL_STAT_DRAINING 9 c) = false) ∧
    (∃ (c : Fin 16) (s : State), s.get (CAN_STATUS_STATE c) = 4 ∧ s.flag (CAN_BO_CFG_AUTO c) = true) ∧
    (∃ (c : Fin 16) (s : State), s.get (CAN_STATUS_STATE c) = 5) ∧
    (∃ (c : Fin 16) (s : State), (s.flag (CELL_STAT_ENABLED 9 c) = true ∨ s.flag (CELL_STAT_DRAINING 9 c) = true) ∧ s.flag (BLK_STAT_RST_BUSY 9) = false) ∧
    (∃ (c : Fin 16) (s : State), s.flag (CAN_TS_CFG_EN c) = true) :=
  ⟨⟨15, State.reset, by decide⟩,
   ⟨15, st [set (CAN_STATUS_STATE 15) 1, set (NMC_CH_STAT_TRX_ASLEEP 15) 0], by decide⟩,
   ⟨15, 3, st [set (CAN_STATUS_STATE 15) 2, set (CELL_STAT_ENABLED 9 15) 1, set (CAN_CH_MODE_LISTEN 15) 0, set (CAN_CH_MODE_RESTRICT 15) 0, putBit (CAN_TXBUF_PEND 15) 3 true, set (CAN_TXMEM_SLOT_SLOT_WORDS 15) 17], by decide⟩,
   ⟨15, st [set (CAN_STATUS_STATE 15) 2, set (CELL_STAT_ENABLED 9 15) 1, set (CAN_CH_MODE_LISTEN 15) 0, set (CAN_CH_MODE_RESTRICT 15) 0, putBit (CAN_TXBUF_PEND 15) 3 true, set (CAN_TXMEM_SLOT_SLOT_WORDS 15) 17], by decide⟩,
   ⟨15, 5, st [updCan 15 fun x => { x with tx := some 5 }], by decide⟩,
   ⟨15, 5, st [updCan 15 fun x => { x with tx := some 5 }, set (CAN_TX_CFG_ARB_CNT 15) 0, set (CELL_STAT_DRAINING 9 15) 0], by decide⟩,
   ⟨15, 5, ⟨2, false, false, false, false⟩, st [updCan 15 fun x => { x with tx := some 5 }, set (CELL_STAT_DRAINING 9 15) 0, set (CAN_STATUS_STATE 15) 3], by decide⟩,
   ⟨15, st [set (CAN_STATUS_STATE 15) 4, set (CAN_BO_CFG_AUTO 15) 1], by decide⟩,
   ⟨15, st [set (CAN_STATUS_STATE 15) 5], by decide⟩,
   ⟨15, st [set (BLK_STAT_RST_BUSY 9) 0, set (CELL_STAT_DRAINING 9 15) 1], by decide⟩,
   ⟨15, st [set (CAN_TS_CFG_EN 15) 1], by decide⟩⟩

/-- The hypotheses of CanReceiveEvents are met, clause by clause. -/
theorem witness_CanReceiveEvents :
    (∃ (c : Fin 16) (f : CanFrame) (s : State), s.unarmed 9 = true ∧ s.canActive c = true ∧ s.flag (CELL_STAT_ENABLED 9 c) = true ∧ (s.canCh c).tx = none ∧ f.fmt.val = 0 ∧ bit (s.get SRT_SRC_CFG_RUNAHEAD) c = false) ∧
    (∃ (c : Fin 16) (f : CanFrame) (s : State), s.unarmed 9 = true ∧ s.canActive c = true ∧ s.flag (CELL_STAT_ENABLED 9 c) = true ∧ (s.canCh c).tx = none ∧ (f.fmt.val = 1 ∧ s.flag (CAN_CH_MODE_FD_EN c) = false ∨ f.fmt.val = 2 ∧ s.flag (CAN_CH_MODE_XL_EN c) = false) ∧ s.flag (CAN_CH_MODE_EXC_OFF c) = false) ∧
    (∃ (c : Fin 16) (r : CanRx) (s : State), s.unarmed 9 = true ∧ (s.canCh c).rx = some r ∧ (s.canCh c).tx = none) ∧
    (∃ (c : Fin 16) (s : State), s.unarmed 9 = true ∧ (s.canCh c).rx = none) ∧
    (∃ (c : Fin 16) (s : State), s.canActive c = false) ∧
    (∃ (c : Fin 16) (s : State), s.canActive c = true ∧ s.flag (CAN_CH_MODE_EXC_OFF c) = true) ∧
    (∃ (c : Fin 16) (s : State), s.canActive c = true) ∧
    (∃ (c : Fin 16) (s : State), s.canActive c = true ∧ s.flag (CAN_CH_MODE_EXC_OFF c) = false) ∧
    (∃ (c : Fin 16) (sec : Fin 4) (s : State), ((s.canCh c).lock sec).isSome = true) :=
  ⟨⟨15, ⟨0, false, false, 5, 8, false, false, false, 0, 0, 0⟩, st [set (CAN_STATUS_STATE 15) 2, set (CELL_STAT_ENABLED 9 15) 1], by decide⟩,
   ⟨15, ⟨1, false, false, 5, 8, false, false, false, 0, 0, 0⟩, st [set (CAN_STATUS_STATE 15) 2, set (CELL_STAT_ENABLED 9 15) 1, set (CAN_CH_MODE_EXC_OFF 15) 0], by decide⟩,
   ⟨15, ⟨⟨0, false, false, 5, 8, false, false, false, 0, 0, 0⟩, 1, false, false, 0, 0, false, 0, 0, false, none⟩, st [updCan 15 fun x => { x with rx := some ⟨⟨0, false, false, 5, 8, false, false, false, 0, 0, 0⟩, 1, false, false, 0, 0, false, 0, 0, false, none⟩ }], by decide⟩,
   ⟨15, State.reset, by decide⟩,
   ⟨15, State.reset, by decide⟩,
   ⟨15, st [set (CAN_STATUS_STATE 15) 2, set (CAN_CH_MODE_EXC_OFF 15) 1], by decide⟩,
   ⟨15, st [set (CAN_STATUS_STATE 15) 2], by decide⟩,
   ⟨15, st [set (CAN_STATUS_STATE 15) 2, set (CAN_CH_MODE_EXC_OFF 15) 0], by decide⟩,
   ⟨15, 3, st [updCan 15 fun x => { x with lockB := some ⟨1, 2⟩ }], by decide⟩⟩

/-- The hypotheses of LinChannelEvents are met, clause by clause. -/
theorem witness_LinChannelEvents :
    (∃ (n : Fin 12) (s : State), s.unarmed 10 = true ∧ s.cellOn 10 n = true ∧ s.flag (LIN_CH_CFG_MASTER n) = true ∧ s.flag (LIN_CH_STAT_SCHED n) = true ∧ (s.linCh n).hold = false ∧ s.frozenArg 2 16 n = false) ∧
    (∃ (n : Fin 12) (s : State), s.unarmed 10 = true ∧ s.cellOn 10 n = true ∧ s.flag (LIN_CH_CFG_MASTER n) = false ∧ s.get (LIN_CH_STAT_STATE n) ≠ 4 ∧ (s.linCh n).cur = none) ∧
    (∃ (r : Fin 7), (r.val = 1 ∨ 4 ≤ r.val)) ∧
    (∃ (n : Fin 12) (r : Fin 7) (fr : LinFrame) (s : State), (r.val = 1 ∨ 4 ≤ r.val) ∧ (s.linCh n).cur = some fr ∧ fr.evt = false ∧ fr.id < 64 ∧ (s.linCh n).late = false ∧ (s.linCh n).sleepReq = false ∧ s.flag (CELL_STAT_DRAINING 10 n) = false) ∧
    (∃ (n : Fin 12) (s : State), (s.linCh n).cur = none) ∧
    (∃ (n : Fin 12) (s : State), s.cellOn 10 n = true ∧ s.flag (LIN_CH_CFG_MASTER n) = false ∧ s.get (LIN_CH_STAT_STATE n) ≠ 4) ∧
    (∃ (n : Fin 12) (s : State), (s.linCh n).hold = true) ∧
    (∃ (n : Fin 12) (s : State), s.flag (CELL_STAT_ENABLED 10 n) = true) :=
  ⟨⟨11, st [set (CELL_STAT_ENABLED 10 11) 1, set (LIN_CH_CFG_MASTER 11) 1, set (LIN_CH_STAT_SCHED 11) 1], by decide⟩,
   ⟨11, st [set (CELL_STAT_ENABLED 10 11) 1, set (LIN_CH_CFG_MASTER 11) 0], by decide⟩,
   ⟨6, by decide⟩,
   ⟨11, 6, ⟨5, 0, 2, false, false, [1, 2]⟩, st [updLin 11 fun x => { x with cur := some ⟨5, 0, 2, false, false, [1, 2]⟩ }], by decide⟩,
   ⟨11, State.reset, by decide⟩,
   ⟨11, st [set (CELL_STAT_ENABLED 10 11) 1, set (LIN_CH_CFG_MASTER 11) 0], by decide⟩,
   ⟨11, st [updLin 11 fun x => { x with hold := true }], by decide⟩,
   ⟨11, st [set (CELL_STAT_ENABLED 10 11) 1], by decide⟩⟩

/-- The hypotheses of NetworkManagementEvents are met, clause by clause. -/
theorem witness_NetworkManagementEvents :
    (∃ (c : Fin 36) (s : State), s.unarmed 15 = true ∧ s.nmAvail c = true ∧ (s.nmState c = 1 ∨ s.nmState c = 2)) ∧
    (∃ (c : Fin 36) (s : State), s.unarmed 15 = true ∧ s.nmAvail c = true ∧ (s.nmState c = 1 ∨ s.nmState c = 2) ∧ 16 ≤ c.val ∧ s.powerDown = false ∧ s.flag (ETP_PORT_STAT_LINK_UP (c.val - 16)) = false) ∧
    (∃ (c : Fin 36) (s : State), s.nmAvail c = true ∧ s.nmState c = 1) ∧
    (∃ (c : Fin 36) (s : State), s.nmAvail c = true ∧ s.nmState c = 3) ∧
    (∃ (c : Fin 36) (s : State), s.nmAvail c = true ∧ s.nmState c = 4) ∧
    (∃ (p : Fin 18) (s : State), s.get (ETP_T1_SLEEP_STATE p) = 1) ∧
    (∃ (p : Fin 18) (s : State), s.flag (ETP_T1_SLEEP_TC10_EN p) = true ∧ s.pwr ≤ 1 ∧ s.get (ETP_T1_SLEEP_STATE p) ≠ 2) ∧
    (∃ (c : Fin 36) (s : State), s.flag (NMC_CH_STAT_TRX_ASLEEP c) = false) ∧
    (∃ (c : Fin 36) (s : State), s.flag (NMC_CH_STAT_TRX_ASLEEP c) = true ∧ s.pwr ≤ 1 ∧ s.pdPhase ≠ 3 ∧ (8 ≤ c.val ∨ s.flag (NMC_SWK_STAT_ARMED c) = true)) ∧
    (∃ (c : Fin 36) (s : State), s.flag (NMC_CH_STAT_TRX_ASLEEP c) = true ∧ s.pwr ≤ 1 ∧ s.pdPhase ≠ 3 ∧ s.flag (BLK_STAT_ENABLED 15) = true ∧ s.nmPending c = true) ∧
    (∃ (c : Fin 36) (s : State), s.nmCounts c = true ∧ s.flag NMC_CFG_MAX_AWAKE = true) :=
  ⟨⟨35, st [set (NMC_CH_CFG_EN 35) 1, set (CELL_STAT_ENABLED 7 19) 1, set (BLK_STAT_ENABLED 15) 1, set (NMC_CH_STAT_STATE 35) 2], by decide⟩,
   ⟨35, st [set (NMC_CH_CFG_EN 35) 1, set (CELL_STAT_ENABLED 7 19) 1, set (BLK_STAT_ENABLED 15) 1, set (NMC_CH_STAT_STATE 35) 1], by decide⟩,
   ⟨35, st [set (NMC_CH_CFG_EN 35) 1, set (if 35 < 16 then CELL_STAT_ENABLED 9 35 else CELL_STAT_ENABLED 7 (35 - 16)) 1, set (BLK_STAT_ENABLED 15) 1, set (NMC_CH_STAT_STATE 35) 1], by decide⟩,
   ⟨35, st [set (NMC_CH_CFG_EN 35) 1, set (CELL_STAT_ENABLED 7 19) 1, set (BLK_STAT_ENABLED 15) 1, set (NMC_CH_STAT_STATE 35) 3], by decide⟩,
   ⟨35, st [set (NMC_CH_CFG_EN 35) 1, set (if 35 < 16 then CELL_STAT_ENABLED 9 35 else CELL_STAT_ENABLED 7 (35 - 16)) 1, set (BLK_STAT_ENABLED 15) 1, set (NMC_CH_STAT_STATE 35) 4], by decide⟩,
   ⟨17, st [set (ETP_T1_SLEEP_STATE 17) 1], by decide⟩,
   ⟨17, st [set (ETP_T1_SLEEP_TC10_EN 17) 1], by decide⟩,
   ⟨35, st [set (NMC_CH_STAT_TRX_ASLEEP 35) 0], by decide⟩,
   ⟨15, st [set (NMC_CH_STAT_TRX_ASLEEP 15) 1], by decide⟩,
   ⟨15, st [set (NMC_CH_STAT_TRX_ASLEEP 15) 1, set (BLK_STAT_ENABLED 15) 1, setReg (CAN_TXBUF_PEND 15) 1], by decide⟩,
   ⟨35, st [set NMC_CFG_MAX_AWAKE 1, set (NMC_CH_CFG_EN 35) 1, set (CELL_STAT_ENABLED 7 19) 1, set (BLK_STAT_ENABLED 15) 1, set (NMC_CH_STAT_STATE 35) 2], by decide⟩⟩

/-- The hypotheses of EthernetPortEvents are met, clause by clause. -/
theorem witness_EthernetPortEvents :
    (∃ (p : Fin 20) (s : State), s.cellOn 7 p = true ∧ s.flag (BLK_STAT_ENABLED 7) = true ∧ (18 ≤ p.val ∨ s.flag ETP_PHY_FW_RUN = true) ∧ s.phyOn p = true ∧ s.flag (ETP_PORT_STAT_LINK_UP p) = false) ∧
    (∃ (p : Fin 20) (s : State), s.flag (ETP_PORT_STAT_LINK_UP p) = false) ∧
    (∃ (p : Fin 20) (s : State), s.flag (ETP_PORT_STAT_LINK_UP p) = true) ∧
    (∃ (p : Fin 25) (s : State), s.unarmed 7 = true ∧ s.flag (BLK_STAT_ENABLED 7) = true ∧ s.openFrame p = none ∧ s.b.swq.cut.contains p.val = false) ∧
    (∃ (p : Fin 25) (s : State), s.unarmed 7 = true ∧ s.flag (BLK_STAT_ENABLED 7) = true ∧ s.portOn p = false ∧ s.b.swq.cut.contains p.val = true) ∧
    (∃ (s : State), s.unarmed 7 = true ∧ s.flag (BLK_STAT_ENABLED 7) = false ∧ s.flag (BLK_STAT_DRAINING 7) = false) ∧
    (∃ (p : Fin 25) (s : State), s.unarmed 7 = true ∧ s.txPick p = none) ∧
    (∃ (p : Fin 25) (q : Nat) (c : SwCopy) (x : SwFrame) (s : State), s.unarmed 7 = true ∧ s.portOn p = true ∧ s.flag (BLK_STAT_ENABLED 7) = true ∧ s.flag (ETP_PORT_STAT_TX_LPI p) = false ∧ mapGet none s.b.swq.tx p = none ∧ s.txPick p = some (q, c) ∧ s.frame c.fid = some x) ∧
    (∃ (p : Fin 25) (c : SwCopy) (s : State), mapGet none s.b.swq.tx p = some c) ∧
    (∃ (x : Fin 2) (k : Fin 3) (s : State), s.unarmed 7 = true ∧ s.portOn (20 + x.val) = true ∧ s.flag (BLK_STAT_ENABLED 7) = true ∧ k ≠ 2 ∧ (∀ q < 8, s.txReady (20 + x.val) q = false)) ∧
    (∃ (s : State), s.unarmed 7 = true ∧ s.flag (BLK_STAT_ENABLED 7) = false) ∧
    (∃ (p : Fin 18) (s : State), s.portOn p = true ∧ s.flag (ETP_EEE_CFG_EN p) = true ∧ s.flag (ETP_EEE_STAT_CAPABLE p) = true ∧ s.flag (ETP_PORT_STAT_TX_LPI p) = false ∧ mapGet none s.b.swq.tx p = none ∧ (∀ t < 8, s.outQ p t = []) ∧ s.flag (SWC_GCL_STAT_OPER p) = false) ∧
    (∃ (p : Fin 18) (s : State), s.flag (ETP_PORT_STAT_TX_LPI p) = true) ∧
    (∃ (p : Fin 18) (v : Bool) (s : State), s.portOn p = true ∧ s.flag (ETP_EEE_CFG_EN p) = true ∧ s.flag (ETP_EEE_STAT_CAPABLE p) = true ∧ s.flag (ETP_PORT_STAT_RX_LPI p) ≠ v) ∧
    (∃ (s : State), s.flag ETP_PHY_FW_RUN = false) ∧
    (∃ (s : State), s.flag ETP_PHY_FW_RUN = true) :=
  ⟨⟨19, st [set (CELL_STAT_ENABLED 7 19) 1, set (BLK_STAT_ENABLED 7) 1, set (ETP_PORT_STAT_LINK_UP 19) 0], by decide⟩,
   ⟨19, st [set (ETP_PORT_STAT_LINK_UP 19) 0], by decide⟩,
   ⟨19, st [set (ETP_PORT_STAT_LINK_UP 19) 1], by decide⟩,
   ⟨24, st [set (BLK_STAT_ENABLED 7) 1], by decide⟩,
   ⟨24, st [set (BLK_STAT_ENABLED 7) 1, upd fun blk => { blk with swq := { blk.swq with cut := [24] } }], by decide⟩,
   ⟨st [set (BLK_STAT_ENABLED 7) 0, set (BLK_STAT_DRAINING 7) 0], by decide⟩,
   ⟨24, State.reset, by decide⟩,
   ⟨24, 0, { fid := 1, cells := 1, inBuf := 1 }, { port := 0, data := [1, 2] }, st [set (CELL_STAT_ENABLED 7 24) 1, set (ETP_PORT_STAT_LINK_UP 24) 1, set (BLK_STAT_ENABLED 7) 1, set (ETP_PORT_STAT_TX_LPI 24) 0, upd fun blk => { blk with swq := { blk.swq with frames := [(1, some { port := 0, data := [1, 2] })], out := [(192, [{ fid := 1, cells := 1, inBuf := 1 }])] } }], by decide⟩,
   ⟨24, { fid := 1, cells := 1 }, st [upd fun blk => { blk with swq := { blk.swq with tx := [(24, some { fid := 1, cells := 1 })] } }], by decide⟩,
   ⟨1, 1, st [set (BLK_STAT_ENABLED 7) 1, set (CELL_STAT_ENABLED 7 21) 1, set (ETP_PORT_STAT_LINK_UP 21) 1], by decide⟩,
   ⟨st [set (BLK_STAT_ENABLED 7) 0], by decide⟩,
   ⟨17, st [set (CELL_STAT_ENABLED 7 17) 1, set (ETP_PORT_STAT_LINK_UP 17) 1, set (ETP_EEE_CFG_EN 17) 1, set (ETP_EEE_STAT_CAPABLE 17) 1, set (ETP_PORT_STAT_TX_LPI 17) 0, set (SWC_GCL_STAT_OPER 17) 0], by decide⟩,
   ⟨17, st [set (ETP_PORT_STAT_TX_LPI 17) 1], by decide⟩,
   ⟨17, true, st [set (CELL_STAT_ENABLED 7 17) 1, set (ETP_PORT_STAT_LINK_UP 17) 1, set (ETP_EEE_CFG_EN 17) 1, set (ETP_EEE_STAT_CAPABLE 17) 1, set (ETP_PORT_STAT_RX_LPI 17) 0], by decide⟩,
   ⟨st [set ETP_PHY_FW_RUN 0], by decide⟩,
   ⟨st [set ETP_PHY_FW_RUN 1], by decide⟩⟩

/-- The hypotheses of SwitchEvents are met, clause by clause. -/
theorem witness_SwitchEvents :
    (∃ (p : Fin 25) (i : SwIn) (s : State), s.unarmed 8 = true ∧ s.b.swq.inp.find? (·.port == p.val) = some i ∧ s.flag (BLK_STAT_ENABLED 8) = true) ∧
    (∃ (p : Fin 25) (h : List Byte) (s : State), s.unarmed 8 = true ∧ s.b.swq.inp.find? (·.port == p.val) = none ∧ s.flag (BLK_STAT_ENABLED 8) = true ∧ (p.val < 20 ∨ p.val = 22) ∧ s.portOn p = true ∧ s.openFrame p = none ∧ s.b.swq.cut.contains p.val = false ∧ s.mustStore p h = false) ∧
    (∃ (s : State), s.flag SWC_PMAP_STAT_PENDING = true ∧ ((s.b.swq.stage.all fun e => e.2.isEmpty) = true)) ∧
    (∃ (i : Fin 32768) (s : State), s.flag SWC_AGE_CFG_AGE_S = true ∧ bit (s.swcWord 1 i 1) 31 = true ∧ bit (s.swcWord 1 i 1) 30 = false) ∧
    (∃ (i : Fin 32768) (s : State), bit (s.swcWord 1 i 1) 30 = true) ∧
    (∃ (p : Fin 25) (c : Fin 8) (s : State), s.outQ p c = []) ∧
    (∃ (p : Fin 25) (s : State), s.flag (ETP_PORT_STAT_LINK_UP p) = false) ∧
    (∃ (p : Fin 25) (c : Fin 8) (x : SwCopy) (xs : List SwCopy) (s : State), s.outQ p c = x :: xs ∧ s.flag (SWC_GCL_STAT_OPER p) = true) ∧
    (∃ (p : Fin 25) (s : State), s.flag (SWC_GCL_STAT_PENDING p) = true) ∧
    (∃ (p : Fin 25) (s : State), s.flag (SWC_GCL_STAT_OPER p) = true) ∧
    (∃ (s : State), s.flag SWC_DRAIN_STAT_BUSY = true ∧ s.olderFrames = []) ∧
    (∃ (s : State), s.flag SWC_DRAIN_STAT_BUSY = true ∧ s.flag SWC_DRAIN_CTRL_TO_MS = true) :=
  ⟨⟨24, { port := 24, data := [1] }, st [set (BLK_STAT_ENABLED 8) 1, upd fun blk => { blk with swq := { blk.swq with inp := [{ port := 24, data := [1] }] } }], by decide⟩,
   ⟨22, (List.replicate 128 0), st [set (BLK_STAT_ENABLED 8) 1, set (CELL_STAT_ENABLED 7 22) 1, set (ETP_PORT_STAT_LINK_UP 22) 1], by decide⟩,
   ⟨st [set SWC_PMAP_STAT_PENDING 1], by decide⟩,
   ⟨32767, st [set SWC_AGE_CFG_AGE_S 1, upd fun b => { b with swq := { b.swq with fdb := [(32767, [0, 0x80000000])] } }], by decide⟩,
   ⟨32767, st [upd fun b => { b with swq := { b.swq with fdb := [(32767, [0, 0xC0000000])] } }], by decide⟩,
   ⟨24, 7, State.reset, by decide⟩,
   ⟨24, st [set (ETP_PORT_STAT_LINK_UP 24) 0], by decide⟩,
   ⟨24, 0, { fid := 1, cells := 1 }, [], st [set (SWC_GCL_STAT_OPER 24) 1, upd fun blk => { blk with swq := { blk.swq with out := [(192, [{ fid := 1, cells := 1 }])] } }], by decide⟩,
   ⟨24, st [set (SWC_GCL_STAT_PENDING 24) 1], by decide⟩,
   ⟨24, st [set (SWC_GCL_STAT_OPER 24) 1], by decide⟩,
   ⟨st [set SWC_DRAIN_STAT_BUSY 1], by decide⟩,
   ⟨st [set SWC_DRAIN_STAT_BUSY 1, set SWC_DRAIN_CTRL_TO_MS 1], by decide⟩⟩

/-- The hypotheses of SignalRouterEvents are met, clause by clause. -/
theorem witness_SignalRouterEvents :
    (∃ (s : State), s.unarmed 11 = true ∧ s.b.srt.input = []) ∧
    (∃ (p : Pdu) (ps : List Pdu) (s : State), s.unarmed 11 = true ∧ s.b.srt.input = p :: ps ∧ s.classify p = none) ∧
    (∃ (p : Pdu) (ps : List Pdu) (d : Nat) (s : State), s.unarmed 11 = true ∧ s.b.srt.input = p :: ps ∧ s.classify p = some d) ∧
    (∃ (d : Fin 65536) (s : State), s.descEn d = false) ∧
    (∃ (d : Fin 65536) (s : State), s.descEn d = true ∧ s.descOk d = true ∧ s.dDir d = false ∧ s.flag (BLK_STAT_ENABLED 11) = true ∧ s.dTime d ≠ 0) ∧
    (∃ (d : Fin 65536) (s : State), s.unarmed 11 = true ∧ (s.dTrig d = 1 ∨ s.dTrig d = 2) ∧ s.dTime d ≠ 0) ∧
    (∃ (d : Fin 65536) (s : State), (mapGet {} s.b.srt.tx d).due = false) ∧
    (∃ (d : Fin 65536) (s : State), (mapGet {} s.b.srt.tx d).due = true ∧ s.flag (BLK_STAT_ENABLED 11) = true) ∧
    (∃ (d : Fin 65536) (s : State), (mapGet {} s.b.srt.tx d).busy = true ∧ s.flag (BLK_STAT_ENABLED 11) = true) ∧
    (∃ (s : State), s.b.srt.bundle = []) ∧
    (∃ (s : State), s.b.srt.bundle ≠ []) ∧
    (∃ (s : State), s.unarmed 11 = true ∧ s.flag (BLK_STAT_ENABLED 11) = true) ∧
    (∃ (s : State), s.unarmed 11 = true ∧ s.flag (BLK_STAT_ENABLED 11) = false) :=
  ⟨⟨State.reset, by decide⟩,
   ⟨⟨3, false, 5, [1, 2], false⟩, [], st [upd fun blk => { blk with srt := { blk.srt with input := [⟨3, false, 5, [1, 2], false⟩] } }], by decide⟩,
   ⟨⟨3, false, 5, [1, 2], false⟩, [], 5, st [upd fun blk => { blk with srt := { blk.srt with input := [⟨3, false, 5, [1, 2], false⟩] } }, storeBytes (srtWin + 0x400000 + 32 * 12155) [5, 0, 0, 0x83, 5, 0, 0, 0]], by decide⟩,
   ⟨65535, State.reset, by decide⟩,
   ⟨5, st [set (BLK_STAT_ENABLED 11) 1, storeBytes (srtWin + 32 * 5) [1, 0, 0, 0xA0], storeBytes (srtWin + 32 * 5 + 24) [1, 0, 0, 0]], by decide⟩,
   ⟨5, st [storeBytes (srtWin + 32 * 5 + 24) [1, 0, 0, 1]], by decide⟩,
   ⟨65535, State.reset, by decide⟩,
   ⟨65535, st [set (BLK_STAT_ENABLED 11) 1, upd fun b => { b with srt := { b.srt with tx := [(65535, { due := true })] } }], by decide⟩,
   ⟨65535, st [set (BLK_STAT_ENABLED 11) 1, upd fun b => { b with srt := { b.srt with tx := [(65535, { busy := true })] } }], by decide⟩,
   ⟨State.reset, by decide⟩,
   ⟨st [upd fun b => { b with srt := { b.srt with bundle := [[1, 2]] } }], by decide⟩,
   ⟨st [set (BLK_STAT_ENABLED 11) 1], by decide⟩,
   ⟨st [set (BLK_STAT_ENABLED 11) 0], by decide⟩⟩

/-- The hypotheses of SignalRouterEpochs are met, clause by clause. -/
theorem witness_SignalRouterEpochs :
    (∃ (s : State), s.flag SRT_EPOCH_PENDING = true ∧ s.flag SRT_EPOCH_APPLYING = false) ∧
    (∃ (s : State), (s.flag SRT_EPOCH_PENDING = false ∨ s.flag SRT_EPOCH_APPLYING = true)) ∧
    (∃ (s : State), s.flag SRT_EPOCH_APPLYING = true) ∧
    (∃ (s : State), s.flag SRT_EPOCH_APPLYING = false) ∧
    (∃ (s : State), s.flag SRT_DRAIN_STAT_BUSY = true) ∧
    (∃ (s : State), s.flag SRT_DRAIN_STAT_BUSY = true ∧ s.flag SRT_DRAIN_CTRL_TO_MS = true) ∧
    (∃ (x : Nat × Nat) (s : State), s.b.srt.preload = some x) ∧
    (∃ (s : State), s.b.srt.preload = none) :=
  ⟨⟨st [set SRT_EPOCH_PENDING 1, set SRT_EPOCH_APPLYING 0], by decide⟩,
   ⟨State.reset, by decide⟩,
   ⟨st [set SRT_EPOCH_APPLYING 1], by decide⟩,
   ⟨st [set SRT_EPOCH_APPLYING 0], by decide⟩,
   ⟨st [set SRT_DRAIN_STAT_BUSY 1], by decide⟩,
   ⟨st [set SRT_DRAIN_STAT_BUSY 1, set SRT_DRAIN_CTRL_TO_MS 1], by decide⟩,
   ⟨(0, 4), st [upd fun blk => { blk with srt := { blk.srt with preload := some (0, 4) } }], by decide⟩,
   ⟨State.reset, by decide⟩⟩

/-- The hypotheses of TimeBaseEvents are met, clause by clause. -/
theorem witness_TimeBaseEvents :
    (∃ (s : State), s.flag TMB_STAT_SLEWING = true) ∧
    (∃ (s : State), s.unarmed 12 = true) ∧
    (∃ (d : Fin 4) (s : State), (s.die d).on = true) ∧
    (∃ (s : State), s.unarmed 12 = true ∧ s.flag TMB_PPS_CFG_DRIVE = true ∧ s.get MSU_BOOT_CFG_CHAIN_MODE ≠ 0 ∧ s.flag (BLK_STAT_ENABLED 12) = true ∧ s.b.tmb.sync = false ∧ s.flag TMB_PPS_CFG_FOLLOW = false) ∧
    (∃ (s : State), s.b.tmb.sync = true) ∧
    (∃ (s : State), s.b.tmb.sync = false ∧ s.flag (BLK_STAT_ENABLED 12) = true ∧ s.flag TMB_PPS_CFG_FOLLOW = false) ∧
    (∃ (s : State), s.b.tmb.sync = true) ∧
    (∃ (s : State), s.flag TMB_CAN_CAP_AUTO_MS = true ∧ s.flag (BLK_STAT_ENABLED 12) = true) :=
  ⟨⟨st [set TMB_STAT_SLEWING 1], by decide⟩,
   ⟨State.reset, by decide⟩,
   ⟨3, st [updDie 3 fun x => { x with on := true }], by decide⟩,
   ⟨st [set TMB_PPS_CFG_DRIVE 1, set MSU_BOOT_CFG_CHAIN_MODE 1, set (BLK_STAT_ENABLED 12) 1, set TMB_PPS_CFG_FOLLOW 0], by decide⟩,
   ⟨st [upd fun b => { b with tmb := { b.tmb with sync := true } }], by decide⟩,
   ⟨st [set (BLK_STAT_ENABLED 12) 1, set TMB_PPS_CFG_FOLLOW 0], by decide⟩,
   ⟨st [upd fun b => { b with tmb := { b.tmb with sync := true } }], by decide⟩,
   ⟨st [set TMB_CAN_CAP_AUTO_MS 1, set (BLK_STAT_ENABLED 12) 1], by decide⟩⟩

/-- The hypotheses of SenseInputEvents are met, clause by clause. -/
theorem witness_SenseInputEvents :
    (∃ (n : Fin 48) (s : State), s.unarmed 20 = true ∧ s.flag (SNI_IN_CFG_EN n) = true ∧ s.flag (BLK_STAT_ENABLED 20) = true ∧ s.get (SNI_IN_FILT_FILT n) = 2 ∧ (mapGet {} s.b.sni n).first = false ∧ s.flag (SNI_IN_PUB_ON_CHG n) = false) ∧
    (∃ (n : Fin 48) (s : State), s.unarmed 20 = true ∧ s.flag (SNI_IN_CFG_EN n) = false) ∧
    (∃ (n : Fin 48) (s : State), s.flag (SNI_IN_CFG_EN n) = true ∧ s.flag (BLK_STAT_ENABLED 20) = true) ∧
    (∃ (n : Fin 48) (s : State), s.flag (SNI_IN_CFG_EN n) = false) ∧
    (∃ (n : Fin 48) (s : State), s.flag (SNI_IN_PUB_EN n) = true ∧ s.flag (SNI_IN_PUB_CFG_PERIOD_MS n) = true ∧ s.flag (SNI_IN_CFG_EN n) = true ∧ s.flag (BLK_STAT_ENABLED 20) = true) :=
  ⟨⟨47, st [set (SNI_IN_CFG_EN 47) 1, set (BLK_STAT_ENABLED 20) 1, set (SNI_IN_FILT_FILT 47) 2, set (SNI_IN_PUB_ON_CHG 47) 0, upd fun b => { b with sni := [(47, { first := false })] }], by decide⟩,
   ⟨47, st [set (SNI_IN_CFG_EN 47) 0], by decide⟩,
   ⟨47, st [set (SNI_IN_CFG_EN 47) 1, set (BLK_STAT_ENABLED 20) 1], by decide⟩,
   ⟨47, st [set (SNI_IN_CFG_EN 47) 0], by decide⟩,
   ⟨47, st [set (SNI_IN_PUB_EN 47) 1, set (SNI_IN_PUB_CFG_PERIOD_MS 47) 1, set (SNI_IN_CFG_EN 47) 1, set (BLK_STAT_ENABLED 20) 1], by decide⟩⟩

/-- The hypotheses of TripletEvents are met, clause by clause. -/
theorem witness_TripletEvents :
    (∃ (x : Fin 2) (s : State), s.unarmed (1 + x.val) = true) ∧
    (∃ (x : Fin 2) (part : Fin 5) (s : State), s.unarmed (1 + x.val) = true ∧ s.iwRunning x = true ∧ part ≠ 0) ∧
    (∃ (x : Fin 2) (v : Fin 5) (c : Fin 5) (s : State), s.unarmed (1 + x.val) = true ∧ s.iwRunning x = true ∧ s.iwSplit x = false ∧ s.flag (IW_STAT_DMR x) = true ∧ (v ≠ 0 ∨ c ≠ 0)) ∧
    (∃ (x : Fin 2) (k : Fin 3) (s : State), s.unarmed (1 + x.val) = true ∧ s.get (IW_STAT_STATE x) = 2 ∧ s.iwSplit x = false ∧ s.flag (IW_STAT_DMR x) = false ∧ (s.iw x).slice = none ∧ s.get (iwLevel x k) + 1 < s.iwPermTh x) ∧
    (∃ (x : Fin 2) (s : State), s.get (IW_STAT_STATE x) ≠ 3) ∧
    (∃ (x : Fin 2) (k : Nat) (s : State), s.get (IW_STAT_STATE x) = 3 ∧ (s.iw x).resync = some (k, false) ∧ k < 3) ∧
    (∃ (x : Fin 2) (k : Nat × Bool) (s : State), s.get (IW_STAT_STATE x) = 3 ∧ (s.iw x).resync = some k) ∧
    (∃ (s : State), s.pwr ≤ 1) ∧
    (∃ (x : Fin 2) (s : State), s.iwRunning x = true ∧ s.iwSplit x = false) ∧
    (∃ (x : Fin 2) (s : State), s.get (IW_STAT_STATE x) = 1 ∧ s.iwSplit x = false ∧ s.get (IW_STAT_RETIRED x) = 0) ∧
    (∃ (x : Fin 2) (c : Fin 2) (s : State), s.iwSet x c = true) ∧
    (∃ (n : Fin 18) (s : State), s.debugScope n = true ∧ n.val < 12) ∧
    (∃ (n : Fin 18) (s : State), s.debugScope n = false) ∧
    (∃ (n : Fin 18), n.val < 12) :=
  ⟨⟨1, State.reset, by decide⟩,
   ⟨1, 4, st [set (IW_STAT_STATE 1) 2], by decide⟩,
   ⟨1, 4, 4, st [set (IW_STAT_STATE 1) 2, set (IW_STAT_DMR 1) 1], by decide⟩,
   ⟨1, 2, st [set (IW_STAT_STATE 1) 2, set (IW_STAT_DMR 1) 0], by decide⟩,
   ⟨1, State.reset, by decide⟩,
   ⟨1, 2, st [set (IW_STAT_STATE 1) 3, updIw 1 fun t => { t with resync := some (2, false) }], by decide⟩,
   ⟨1, (2, true), st [set (IW_STAT_STATE 1) 3, updIw 1 fun t => { t with resync := some (2, true) }], by decide⟩,
   ⟨State.reset, by decide⟩,
   ⟨1, st [set (IW_STAT_STATE 1) 2], by decide⟩,
   ⟨1, st [set (IW_STAT_STATE 1) 1, set (IW_STAT_RETIRED 1) 0], by decide⟩,
   ⟨1, 1, st [set (IW_STAT_SPLIT 1) 1], by decide⟩,
   ⟨11, st [set VLT_DBG_STAT_UNLOCKED 1, set VLT_DBG_STAT_SCOPE 1], by decide⟩,
   ⟨17, st [updVlt fun x => { x with lifecycle := 2 }], by decide⟩,
   ⟨11, by decide⟩⟩

/-- The hypotheses of PairControllerEvents are met, clause by clause. -/
theorem witness_PairControllerEvents :
    (∃ (s : State), s.unarmed 3 = true ∧ s.locked = true ∧ s.pwr ≤ 1 ∧ s.flag (BLK_STAT_ENABLED 3) = true) ∧
    (∃ (s : State), s.unarmed 3 = true ∧ s.locked = false) ∧
    (∃ (l : List Byte) (s : State), s.unarmed 3 = true ∧ s.b.par.snap = some l) ∧
    (∃ (s : State), s.unarmed 3 = true ∧ s.b.par.snap = none) ∧
    (∃ (s : State), s.locked = true ∧ s.pwr ≤ 1) ∧
    (∃ (s : State), s.locked = false) ∧
    (∃ (s : State), s.locked = true ∧ s.pwr ≤ 1) ∧
    (∃ (x : Nat) (s : State), s.standby = some x ∧ s.flag PAR_MODE_ST_EN = true ∧ s.b.par.tried = false ∧ s.b.par.unit = none) ∧
    (∃ (x : Nat) (s : State), s.standby = some x ∧ s.flag PAR_MODE_ST_EN = true ∧ s.b.par.tried = false ∧ s.b.par.unit = none ∧ s.get (IW_STAT_STATE x) = 2) ∧
    (∃ (x : Nat) (s : State), s.b.par.unit = some x ∧ (s.iw x).slice = none) ∧
    (∃ (b : Bool) (s : State), s.b.par.unit = none) :=
  ⟨⟨st [set MSU_PROT_LOCK_LOCK 1, set (BLK_STAT_ENABLED 3) 1], by decide⟩,
   ⟨State.reset, by decide⟩,
   ⟨[1, 2], st [upd fun b => { b with par := { b.par with snap := some ([1, 2]) } }], by decide⟩,
   ⟨State.reset, by decide⟩,
   ⟨st [set MSU_PROT_LOCK_LOCK 1], by decide⟩,
   ⟨State.reset, by decide⟩,
   ⟨st [set MSU_PROT_LOCK_LOCK 1], by decide⟩,
   ⟨1, st [set PAR_MODE_ST_EN 1, set PAR_ACTIVE_PAIR_STATE 0, set PAR_ACTIVE_ACTIVE 0], by decide⟩,
   ⟨1, st [set PAR_MODE_ST_EN 1, set (IW_STAT_STATE 1) 2, set PAR_ACTIVE_PAIR_STATE 0, set PAR_ACTIVE_ACTIVE 0], by decide⟩,
   ⟨5, st [upd fun b => { b with par := { b.par with unit := some 5 } }], by decide⟩,
   ⟨true, State.reset, by decide⟩⟩

/-- The hypotheses of ChainLinkEvents are met, clause by clause. -/
theorem witness_ChainLinkEvents :
    (∃ (c : Fin 2) (w : Fin 3) (h : Bool) (u : Bool) (m : Fin 4) (d : Option (Fin 64)) (s : State), s.cellOn 13 c = true ∧ s.flag (BLK_STAT_ENABLED 13) = true ∧ s.get (FLK_LINK_STAT_STATE c) ≠ 0 ∧ s.get (FLK_LINK_STAT_STATE c) ≠ 4 ∧ w ≠ 0 ∧ w.val ≤ s.lanes c ∧ s.wrongPartner c h u m (d.map (·.val)) = true) ∧
    (∃ (c : Fin 2) (h : Bool) (u : Bool) (m : Fin 4) (d : Option (Fin 64)) (s : State), s.cellOn 13 c = true ∧ s.flag (BLK_STAT_ENABLED 13) = true ∧ s.get (FLK_LINK_STAT_STATE c) = 5 ∧ s.lanes c = 2 ∧ s.wrongPartner c h u m (d.map (·.val)) = false) ∧
    (∃ (c : Fin 2) (s : State), s.get (FLK_LINK_STAT_STATE c) = 5) ∧
    (∃ (c : Fin 2) (s : State), s.get (FLK_LINK_STAT_STATE c) = 6) ∧
    (∃ (c : Fin 2) (s : State), s.get (FLK_LINK_STAT_WIDTH c) = 1 ∧ s.get (FLK_LINK_STAT_STATE c) = 4) ∧
    (∃ (c : Fin 2) (s : State), s.get (FLK_LINK_STAT_STATE c) = 4 ∧ (s.port c).unacked ≠ [] ∧ (s.port c).replays < 3) ∧
    (∃ (c : Fin 2) (s : State), s.get (FLK_LINK_STAT_STATE c) = 4) ∧
    (∃ (c : Fin 2) (s : State), s.portUp c = true) ∧
    (∃ (s : State), s.chainMode ≠ 0 ∧ s.flag FLK_SB_STAT_OWN_IRQ = false) ∧
    (∃ (s : State), s.chainMode ≠ 0 ∧ s.flag MSU_FAULT_STAT_FAULT_N = false) :=
  ⟨⟨1, 2, false, false, 3, none, st [set (CELL_STAT_ENABLED 13 1) 1, set (BLK_STAT_ENABLED 13) 1, set (FLK_LINK_STAT_STATE 1) 1], by decide⟩,
   ⟨1, true, true, 3, none, st [set (CELL_STAT_ENABLED 13 1) 1, set (BLK_STAT_ENABLED 13) 1, set (FLK_LINK_STAT_STATE 1) 5, set MSU_BOOT_CFG_CHAIN_MODE 1], by decide⟩,
   ⟨1, st [set (FLK_LINK_STAT_STATE 1) 5], by decide⟩,
   ⟨1, st [set (FLK_LINK_STAT_STATE 1) 6], by decide⟩,
   ⟨1, st [set (FLK_LINK_STAT_WIDTH 1) 1, set (FLK_LINK_STAT_STATE 1) 4], by decide⟩,
   ⟨1, st [set (FLK_LINK_STAT_STATE 1) 4, updPort 1 fun x => { x with unacked := [⟨1, 0, false, false, false, false, 0, 0, 0, 0, 0, 0, 0, 0, 0, [], none⟩] }], by decide⟩,
   ⟨1, st [set (FLK_LINK_STAT_STATE 1) 4], by decide⟩,
   ⟨1, st [set (FLK_LINK_STAT_STATE 1) 4], by decide⟩,
   ⟨st [set MSU_BOOT_CFG_CHAIN_MODE 1, set FLK_SB_STAT_OWN_IRQ 0], by decide⟩,
   ⟨st [set MSU_BOOT_CFG_CHAIN_MODE 1, set MSU_FAULT_STAT_FAULT_N 0], by decide⟩⟩

/-- The hypotheses of ChainPacketEvents are met, clause by clause. -/
theorem witness_ChainPacketEvents :
    (∃ (c : Fin 2) (s : State), s.unarmed 13 = true ∧ s.get (FLK_LINK_STAT_STATE c) ≠ 4) ∧
    (∃ (c : Fin 2) (s : State), s.unarmed 13 = true ∧ s.get (FLK_LINK_STAT_STATE c) = 4 ∧ s.flag (BLK_STAT_ENABLED 13) = true) ∧
    (∃ (c : Fin 2) (q : Fin 4096) (s : State), s.unarmed 13 = true ∧ s.get (FLK_LINK_STAT_STATE c) = 4 ∧ s.flag (BLK_STAT_ENABLED 13) = true ∧ q.val = (s.port c).rxSeq) ∧
    (∃ (s : State), s.flag FLK_DEV_VALID = true ∧ s.moduleBelow = false ∧ s.chainMode ≠ 0) ∧
    (∃ (s : State), s.flag FLK_DEV_VALID = false) ∧
    (∃ (g : Fin 256) (r : ChainRead) (s : State), s.b.flk.reads.find? (·.tag == g.val) = some r) ∧
    (∃ (g : Fin 256) (s : State), s.b.flk.reads.find? (·.tag == g.val) = none) ∧
    (∃ (n : Fin 64) (r : Reasm) (s : State), mapGet none s.b.flk.reasm n = some r) ∧
    (∃ (s : State), s.flag FLK_TUN_CFG_AGE_S = true) :=
  ⟨⟨1, State.reset, by decide⟩,
   ⟨1, st [set (FLK_LINK_STAT_STATE 1) 4, set (BLK_STAT_ENABLED 13) 1], by decide⟩,
   ⟨1, 0, st [set (FLK_LINK_STAT_STATE 1) 4, set (BLK_STAT_ENABLED 13) 1], by decide⟩,
   ⟨st [set FLK_DEV_VALID 1, set MSU_BOOT_CFG_CHAIN_MODE 1], by decide⟩,
   ⟨st [set FLK_DEV_VALID 0], by decide⟩,
   ⟨255, ⟨255, 3, 0, 0, 4⟩, st [upd fun blk => { blk with flk := { blk.flk with reads := [⟨255, 3, 0, 0, 4⟩] } }], by decide⟩,
   ⟨255, State.reset, by decide⟩,
   ⟨63, ⟨7, 1, 100, []⟩, st [upd fun blk => { blk with flk := { blk.flk with reasm := [(63, some ⟨7, 1, 100, []⟩)] } }], by decide⟩,
   ⟨st [set FLK_TUN_CFG_AGE_S 1], by decide⟩⟩

/-- The hypotheses of HostBridgeEvents are met, clause by clause. -/
theorem witness_HostBridgeEvents :
    (∃ (i : Nat) (r : HostRd) (s : State), s.b.hbr.reads[i]? = some r) ∧
    (∃ (b : Barrier) (s : State), s.b.hbr.barriers.find? (·.host) = some b) ∧
    (∃ (i : Nat) (r : DevRd) (s : State), s.b.hbr.devRd[i]? = some r) ∧
    (∃ (i : Nat) (s : State), s.b.hbr.devRd[i]? = none) ∧
    (∃ (v : Bool) (n : Fin 256) (w : Fin 65536) (s : State), s.b.iom.copy = none ∧ s.chainSent (if v then n.val else 256) w = none) ∧
    (∃ (v : Bool) (n : Fin 256) (w : Fin 65536) (x : ChainWrite) (s : State), s.b.iom.copy = none ∧ s.chainSent (if v then n.val else 256) w = some x ∧ x.isSig = false) ∧
    (∃ (x : ChainWrite) (s : State) (w0 : Word) (w1 : Word), s.b.iom.copy = none ∧ bit w0.toNat 0 = false ∧ s.chainSent 256 (w1.toNat / 2 ^ 16 % 2 ^ 16) = some x ∧ x.isSig = false) ∧
    (∃ (s : State) (w0 : Word) (w1 : Word), s.b.iom.copy = none ∧ s.chainSent (if bit w0.toNat 0 then w1.toNat % 256 else 256) (w1.toNat / 2 ^ 16 % 2 ^ 16) = none) ∧
    (∃ (n : Fin 257) (b : Barrier) (s : State), ((s.b.hbr.barriers.find? fun b => b.recN == n.val && b.devs.isEmpty) = some b) ∧ ((s.b.hbr.heldWr.any fun w => w.recN == n.val && decide ((b.last + 65536 - w.wseq) % 65536 < 32768)) = false)) ∧
    (∃ (n : Fin 257) (s : State), ((s.b.hbr.barriers.find? fun b => b.recN == n.val && b.devs.isEmpty) = none)) ∧
    (∃ (i : Nat) (r : DevRd) (s : State), s.b.hbr.backoff[i]? = some r) ∧
    (∃ (i : Fin 64) (s : State), s.flag (HBR_SEM_HELD i) = true) ∧
    (∃ (i : Fin 64) (s : State), s.flag (HBR_SEM_HELD i) = false) :=
  ⟨⟨0, { id := 1, func := 0, addr := 0x1000000000, len := 4, op := none, chain := false }, st [upd fun blk => { blk with hbr := { blk.hbr with reads := [{ id := 1, func := 0, addr := 0x1000000000, len := 4, op := none, chain := false }] } }], by decide⟩,
   ⟨⟨256, [], 4, true, none⟩, st [upd fun blk => { blk with hbr := { blk.hbr with barriers := [⟨256, [], 4, true, none⟩] } }], by decide⟩,
   ⟨0, ⟨1, 2, 3, 4, 0⟩, st [upd fun blk => { blk with hbr := { blk.hbr with devRd := [⟨1, 2, 3, 4, 0⟩] } }], by decide⟩,
   ⟨5, State.reset, by decide⟩,
   ⟨true, 255, 65535, State.reset, by decide⟩,
   ⟨true, 255, 65535, ⟨255, 65535, 3, 1, 0, 4, 0, false, false⟩, st [upd fun blk => { blk with hbr := { blk.hbr with sent := [⟨255, 65535, 3, 1, 0, 4, 0, false, false⟩] } }], by decide⟩,
   ⟨⟨256, 0, 3, 1, 0, 4, 0, false, true⟩, st [upd fun blk => { blk with hbr := { blk.hbr with sent := [⟨256, 0, 3, 1, 0, 4, 0, false, true⟩] } }], 0, 7, by decide⟩,
   ⟨State.reset, 1, 7, by decide⟩,
   ⟨256, ⟨256, [], 4, true, none⟩, st [upd fun blk => { blk with hbr := { blk.hbr with barriers := [⟨256, [], 4, true, none⟩] } }], by decide⟩,
   ⟨256, State.reset, by decide⟩,
   ⟨0, ⟨1, 2, 3, 4, 0⟩, st [upd fun blk => { blk with hbr := { blk.hbr with backoff := [⟨1, 2, 3, 4, 0⟩] } }], by decide⟩,
   ⟨63, st [set (HBR_SEM_HELD 63) 1], by decide⟩,
   ⟨63, st [set (HBR_SEM_HELD 63) 0], by decide⟩⟩

/-- The hypotheses of FabricRequests are met, clause by clause. -/
theorem witness_FabricRequests :
    (∃ (q : FabReq) (a : Nat) (s : State), deviceGuard q s = some a) ∧
    (∃ (q : FabReq) (s : State), deviceGuard q s = none) ∧
    (∃ (q : FabReq) (s : State), s.canRequest q = false) ∧
    (∃ (q : FabReq) (s : State), s.canRequest q = true ∧ s.coreReach q.ctx q.addr (reqLen q) = .fault) ∧
    (∃ (q : FabReq) (a : Nat) (s : State), s.canRequest q = true ∧ s.coreReach q.ctx q.addr (reqLen q) = .tcm a ∧ q.kind.val = 0 ∧ q.ecc.val = 0 ∧ s.b.mem.tcmBad = []) ∧
    (∃ (q : FabReq) (f : Nat) (s : State), s.canRequest q = true ∧ s.coreReach q.ctx q.addr (reqLen q) = .fabric f ∧ f < 1099511627776 ∧ s.muted (s.ctxRegion q.ctx) q.ctx (s.resolve f) = true) ∧
    (∃ (q : FabReq) (f : Nat) (s : State), s.canRequest q = true ∧ s.coreReach q.ctx q.addr (reqLen q) = .fabric f ∧ f < 1099511627776 ∧ deviceGuard q s = none ∧ s.muted (s.ctxRegion q.ctx) q.ctx (s.resolve f) = false ∧ s.contends (s.ctxRegion q.ctx) (withAddr q f) = true) ∧
    (∃ (q : FabReq) (f : Nat) (c : Nat) (s : State), s.canRequest q = true ∧ s.coreReach q.ctx q.addr (reqLen q) = .fabric f ∧ f < 1099511627776 ∧ s.muted (s.ctxRegion q.ctx) q.ctx (s.resolve f) = false ∧ s.contends (s.ctxRegion q.ctx) (withAddr q f) = false ∧ s.checkAt (s.ctxPid q.ctx) (s.resolve f) (reqLen q) q.kind = c ∧ c ≠ 0) ∧
    (∃ (q : FabReq) (f : Nat) (s : State), s.canRequest q = true ∧ s.coreReach q.ctx q.addr (reqLen q) = .fabric f ∧ f < 1099511627776 ∧ s.muted (s.ctxRegion q.ctx) q.ctx (s.resolve f) = false ∧ s.contends (s.ctxRegion q.ctx) (withAddr q f) = false ∧ q.kind.val = 1 ∧ placeOf (s.resolve f) = .sram ∧ s.checkAt (s.ctxPid q.ctx) (s.resolve f) q.data.length 1 = 0 ∧ s.mustWait (s.ctxRegion q.ctx) (s.ctxPid q.ctx).1 (s.resolve f) q.data.length = false ∧ q.cache.val = 0 ∧ s.b.mem.poison = []) ∧
    (∃ (q : FabReq) (f : Nat) (s : State), s.canRequest q = true ∧ s.coreReach q.ctx q.addr (reqLen q) = .fabric f ∧ f < 1099511627776 ∧ s.muted (s.ctxRegion q.ctx) q.ctx (s.resolve f) = false ∧ s.contends (s.ctxRegion q.ctx) (withAddr q f) = false ∧ q.kind.val = 0 ∧ q.ecc.val = 0 ∧ q.cache.val = 0 ∧ placeOf (s.resolve f) = .sram ∧ s.checkAt (s.ctxPid q.ctx) (s.resolve f) q.len 0 = 0 ∧ s.mustWait (s.ctxRegion q.ctx) (s.ctxPid q.ctx).1 (s.resolve f) q.len = false ∧ s.b.mem.poison = []) ∧
    (∃ (pid : Pid) (a : Fin 1099511627776) (c : Nat) (s : State), s.pwr ≤ 1 ∧ s.checkAt (pid, true) (a / 4 * 4) 4 1 = c ∧ c ≠ 0) ∧
    (∃ (pid : Pid) (a : Fin 1099511627776) (v : Word) (k : Nat) (u : Nat) (c : Option Nat) (s : State), s.pwr ≤ 1 ∧ s.checkAt (pid, true) (a / 4 * 4) 4 1 = 0 ∧ touched (a / 4 * 4) = some (u, c) ∧ s.unarmed u = true ∧ placeOf (a / 4 * 4) = .page k ∧ k ≠ 32 ∧ s.writeCause false pid (a / 4 * 4) v.toNat ≠ 0) ∧
    (∃ (pid : Pid) (a : Fin 1099511627776) (v : Word) (k : Nat) (u : Nat) (c : Option Nat) (s : State), s.pwr ≤ 1 ∧ s.checkAt (pid, true) (a / 4 * 4) 4 1 = 0 ∧ touched (a / 4 * 4) = some (u, c) ∧ s.unarmed u = true ∧ placeOf (a / 4 * 4) = .page k ∧ k ≠ 32 ∧ s.writeCause false pid (a / 4 * 4) v.toNat = 0) ∧
    (∃ (s : State), 1 < s.pwr) ∧
    (∃ (s : State), s.pwr ≤ 1 ∧ s.unarmed 27 = true) ∧
    (∃ (r : Fin 4) (w : WaitReq) (s : State), s.get (RG_QOS_CFG_AGE_LIMIT r) ≠ 0 ∧ ((s.b.fab.waiting.find? fun w => w.point == r.val && decide (2 ≤ w.cls) && !w.prom.contains r.val) = some w)) ∧
    (∃ (r : Fin 4) (s : State), (s.get (RG_QOS_CFG_AGE_LIMIT r) = 0 ∨ (s.b.fab.waiting.find? fun w => w.point == r.val && decide (2 ≤ w.cls) && !w.prom.contains r.val) = none)) ∧
    (∃ (g : Fin 256) (r : ChainRead) (s : State), s.isolated 1 = true ∧ ((s.b.flk.reads.find? fun r => r.tag == g.val && ((r.kind == 0 && s.ctxRegion r.idx == 0) || r.kind == 3)) = some r) ∧ r.kind = 0) ∧
    (∃ (s : State), s.isolated 1 = false) :=
  ⟨⟨⟨60, 0x2A000000, 0, 4, [], 0, 0, 0, false⟩, 0x2A000000, State.reset, by decide⟩,
   ⟨⟨60, 0x1000000, 1, 0, [1], 0, 0, 0, false⟩, State.reset, by decide⟩,
   ⟨⟨4, 0x1000000, 0, 4, [], 0, 0, 0, false⟩, State.reset, by decide⟩,
   ⟨⟨48, 0xF080000, 0, 4, [], 0, 0, 0, false⟩, st [set (IW_STAT_STATE 0) 2], by decide⟩,
   ⟨⟨48, 0xF000010, 0, 4, [], 0, 0, 0, false⟩, (tcmBase 0 + 16), st [set (IW_STAT_STATE 0) 2], by decide⟩,
   ⟨⟨60, 0x1000000, 0, 4, [], 0, 0, 0, false⟩, 0x1000000, st [set (BLK_CTRL_ISOLATE (State.reset.ctxUnit 60)) 1], by decide⟩,
   ⟨⟨60, 0x1000000, 0, 4, [], 0, 0, 0, true⟩, 0x1000000, State.reset, by decide⟩,
   ⟨⟨60, 0, 1, 0, [1], 0, 0, 0, false⟩, 0, 1, State.reset, by decide⟩,
   ⟨⟨60, 0x1000000, 1, 0, [1], 0, 0, 0, false⟩, 0x1000000, State.reset, by decide⟩,
   ⟨⟨60, 0x1000000, 0, 4, [], 0, 0, 0, false⟩, 0x1000000, State.reset, by decide⟩,
   ⟨1, 0, 1, State.reset, by decide⟩,
   ⟨2, 0x10000104, 1, 27, 27, none, State.reset, by decide⟩,
   ⟨0, 0x10000104, 1, 27, 27, none, State.reset, by decide⟩,
   ⟨st [set MSU_PWR_STATE_STATE 2], by decide⟩,
   ⟨State.reset, by decide⟩,
   ⟨3, ⟨0, true, ⟨60, 0x1000000, 0, 4, [], 0, 0, 0, true⟩, 3, 2, 3, [], 0⟩, st [set (RG_QOS_CFG_AGE_LIMIT 3) 1, updFab fun f => { f with waiting := [⟨0, true, ⟨60, 0x1000000, 0, 4, [], 0, 0, 0, true⟩, 3, 2, 3, [], 0⟩] }], by decide⟩,
   ⟨3, State.reset, by decide⟩,
   ⟨255, ⟨255, 3, 0, 0, 4⟩, st [upd fun blk => { blk with flk := { blk.flk with reads := [⟨255, 3, 0, 0, 4⟩] } }, set (BLK_CTRL_ISOLATE 24) 1], by decide⟩,
   ⟨State.reset, by decide⟩⟩

/-- The hypotheses of HostAccesses are met, clause by clause. -/
theorem witness_HostAccesses :
    (∃ (s : State), s.unarmed 14 = true ∧ s.hostOpen = false) ∧
    (∃ (b : Bool) (d : List Byte) (s : State), s.unarmed 14 = true ∧ s.hostOpen = true ∧ d ≠ [] ∧ s.b.hbr.heldWr.length < 256) ∧
    (∃ (b : Bool) (d : List Byte) (e : Fin 4) (s : State), s.unarmed 14 = true ∧ s.hostOpen = true ∧ d ≠ [] ∧ s.b.hbr.heldWr.length < 256 ∧ e ≠ 3 ∧ s.flag (BLK_STAT_ENABLED 14) = false) ∧
    (∃ (f : Fin 64) (b : Bool) (o : Fin 17179869184) (d : List Byte) (v : Nat) (w : Nat) (s : State), s.unarmed 14 = true ∧ s.hostOpen = true ∧ d ≠ [] ∧ s.b.hbr.heldWr.length < 256 ∧ s.flag (BLK_STAT_ENABLED 14) = true ∧ s.hostPlace f b o = .msix v w) ∧
    (∃ (f : Fin 64) (b : Bool) (o : Fin 17179869184) (d : List Byte) (a : Nat) (s : State), s.unarmed 14 = true ∧ s.hostOpen = true ∧ d ≠ [] ∧ d.length ≤ 256 ∧ s.b.hbr.heldWr.length < 256 ∧ s.flag (BLK_STAT_ENABLED 14) = true ∧ s.hostPlace f b o = .fabric a) ∧
    (∃ (s : State), s.unarmed 14 = true ∧ s.hostOpen = false) ∧
    (∃ (f : Fin 64) (b : Bool) (o : Fin 17179869184) (n : Fin 4097) (s : State), s.unarmed 14 = true ∧ s.hostOpen = true ∧ n ≠ 0 ∧ s.flag (BLK_STAT_ENABLED 14) = true ∧ s.hostPlace f b o = .zero) ∧
    (∃ (f : Fin 64) (b : Bool) (o : Fin 17179869184) (n : Fin 4097) (a : Nat) (s : State), s.unarmed 14 = true ∧ s.hostOpen = true ∧ n ≠ 0 ∧ s.flag (BLK_STAT_ENABLED 14) = true ∧ s.hostPlace f b o = .fabric a) ∧
    (∃ (pid : Pid) (s : State), s.pwr ≤ 1 ∧ s.checkAt (pid, true) HBR_WSYNC 4 0 = 0 ∧ s.unarmed 14 = true ∧ s.flag (BLK_CTRL_ISOLATE 14) = false) ∧
    (∃ (x : Fin 2) (c : Fin 4) (s : State), s.unarmed (1 + x.val) = true ∧ (s.flag (IW_DMA_STAT_BUSY x c) = false ∨ s.iwDmaRuns x = false ∨ s.b.mem.held = true)) ∧
    (∃ (x : Fin 2) (c : Fin 4) (s : State), s.unarmed (1 + x.val) = true ∧ s.flag (IW_DMA_STAT_BUSY x c) = true ∧ s.iwDmaRuns x = true ∧ s.b.mem.held = false) :=
  ⟨⟨State.reset, by decide⟩,
   ⟨true, [1, 2], st [set HBR_LINK_STAT_LINK_UP 1, set MSU_BOOT_STAT_PHASE 3], by decide⟩,
   ⟨true, [1, 2], 2, st [set HBR_LINK_STAT_LINK_UP 1, set MSU_BOOT_STAT_PHASE 3, set (BLK_STAT_ENABLED 14) 0], by decide⟩,
   ⟨0, false, 0x800010, [1, 2], 1, 0, st [set HBR_LINK_STAT_LINK_UP 1, set MSU_BOOT_STAT_PHASE 3, set (BLK_STAT_ENABLED 14) 1], by decide⟩,
   ⟨0, true, 16, [1, 2], 0x100000010, st [set HBR_LINK_STAT_LINK_UP 1, set MSU_BOOT_STAT_PHASE 3, set (BLK_STAT_ENABLED 14) 1], by decide⟩,
   ⟨State.reset, by decide⟩,
   ⟨1, true, 0x900, 4, st [set HBR_LINK_STAT_LINK_UP 1, set MSU_BOOT_STAT_PHASE 3, set (BLK_STAT_ENABLED 14) 1, set HBR_LINK_STAT_NUM_VF 4], by decide⟩,
   ⟨0, true, 16, 256, 0x100000010, st [set HBR_LINK_STAT_LINK_UP 1, set MSU_BOOT_STAT_PHASE 3, set (BLK_STAT_ENABLED 14) 1], by decide⟩,
   ⟨1, st [set (BLK_CTRL_ISOLATE 14) 0], by decide⟩,
   ⟨1, 3, State.reset, by decide⟩,
   ⟨1, 3, st [set (IW_DMA_STAT_BUSY 1 3) 1, set (IW_STAT_STATE 1) 2], by decide⟩⟩

/-- The hypotheses of GladeEvents are met, clause by clause. -/
theorem witness_GladeEvents :
    (∃ (c : Fin 32) (s : State), s.unarmed 22 = true ∧ s.cellOn 22 c = false) ∧
    (∃ (c : Fin 32) (s : State), s.unarmed 22 = true ∧ s.cellOn 22 c = true ∧ s.pwr ≠ 4) ∧
    (∃ (c : Fin 32) (s : State), s.unarmed 22 = true ∧ s.cellOn 22 c = true ∧ s.pwr ≠ 4) ∧
    (∃ (c : Fin 32) (v : Nat) (s : State), s.get (GLD_CELL_SRC_SRC c) < 57 ∧ s.get (GLD_CELL_FILT_FILT c) = 3 ∧ 1 < s.pwr ∧ s.get (GLD_CELL_THR_THR_HI c) ≤ v) ∧
    (∃ (c : Fin 32) (s : State), s.cellOn 22 c = true ∧ s.pwr ≠ 4) ∧
    (∃ (k : Fin 8) (s : State), (s.gldSlot k).on = true ∧ (s.gldSlot k).flash = true ∧ (s.gldSlot k).handed = false ∧ (s.gldSlot k).phase = true) ∧
    (∃ (k : Fin 8) (s : State), (s.gldSlot k).on = true ∧ (s.gldSlot k).flash = true ∧ (s.gldSlot k).handed = false ∧ (s.gldSlot k).phase = false) ∧
    (∃ (k : Fin 8) (s : State), (s.gldSlot k).on = false) ∧
    (∃ (k : Fin 8) (s : State), (s.gldSlot k).on = true ∧ (s.gldSlot k).handed = false ∧ s.get (GLD_DLOAD_CFG_MAX_ON k) ≠ 0) ∧
    (∃ (k : Fin 8) (s : State), (s.gldSlot k).on = true ∧ (s.gldSlot k).handed = false ∧ s.slotBlocked k = false) ∧
    (∃ (s : State), s.pwr ≤ 1) ∧
    (∃ (s : State), s.gladeRules = true ∧ s.flag PSM_STAT_P_SERVICE = true ∧ (∀ k, k < 8 → s.slotBusy k = false)) ∧
    (∃ (s : State), s.pwr = 3 ∧ s.get GLD_CFG_WATCH_MAX ≠ 0 ∧ s.b.gld.maxDropped = false ∧ s.b.gld.firedAt ≠ some s.now) ∧
    (∃ (s : State), s.pwr = 3 ∧ s.get GLD_CFG_WATCH_MAX ≠ 0 ∧ s.b.gld.maxDropped = false ∧ s.b.gld.firedAt = some s.now) ∧
    (∃ (s : State), s.pwr ≠ 3) ∧
    (∃ (s : State), s.flag GLD_SEQ_STAT_RUN = true) ∧
    (∃ (src : Nat) (v : Nat) (l : List (Nat × Nat)) (s : State), s.b.gld.wins = (src, v) :: l ∧ s.get GLD_CFG_FW_TH = 0) ∧
    (∃ (src : Nat) (v : Nat) (l : List (Nat × Nat)) (s : State), s.b.gld.wins = (src, v) :: l ∧ s.get GLD_CFG_FW_TH ≠ 0 ∧ src < 64 ∧ s.get GLD_CFG_FW_TH ≤ min 255 (s.fwCount src + 1)) ∧
    (∃ (s : State), s.b.gld.saving = true) ∧
    (∃ (s : State), s.b.gld.saving = true) :=
  ⟨⟨31, State.reset, by decide⟩,
   ⟨31, st [set (CELL_STAT_ENABLED 22 31) 1], by decide⟩,
   ⟨31, st [set (CELL_STAT_ENABLED 22 31) 1], by decide⟩,
   ⟨31, 1023, st [set (GLD_CELL_FILT_FILT 31) 3, set MSU_PWR_STATE_STATE 2], by decide⟩,
   ⟨31, st [set (CELL_STAT_ENABLED 22 31) 1], by decide⟩,
   ⟨7, st [updGldSlot 7 fun x => { x with on := true }, updGldSlot 7 fun x => { x with flash := true }, updGldSlot 7 fun x => { x with phase := true }], by decide⟩,
   ⟨7, st [updGldSlot 7 fun x => { x with on := true }, updGldSlot 7 fun x => { x with flash := true }], by decide⟩,
   ⟨7, State.reset, by decide⟩,
   ⟨7, st [updGldSlot 7 fun x => { x with on := true }, set (GLD_DLOAD_CFG_MAX_ON 7) 1], by decide⟩,
   ⟨7, st [updGldSlot 7 fun x => { x with on := true }], by decide⟩,
   ⟨State.reset, by decide⟩,
   ⟨st [set PSM_STAT_P_SERVICE 1, set MSU_PWR_STATE_STATE 2], by decide, by decide, by decide⟩,
   ⟨st [set MSU_PWR_STATE_STATE 3, set GLD_CFG_WATCH_MAX 1], by decide⟩,
   ⟨st [set MSU_PWR_STATE_STATE 3, set GLD_CFG_WATCH_MAX 1, upd fun blk => { blk with gld := { blk.gld with firedAt := some 0 } }], by decide⟩,
   ⟨State.reset, by decide⟩,
   ⟨st [set GLD_SEQ_STAT_RUN 1], by decide⟩,
   ⟨5, 5, [], st [upd fun b => { b with gld := { b.gld with wins := (5, 5) :: ([]) } }, set GLD_CFG_FW_TH 0], by decide⟩,
   ⟨5, 5, [], st [upd fun b => { b with gld := { b.gld with wins := (5, 5) :: ([]) } }, set GLD_CFG_FW_TH 1], by decide⟩,
   ⟨st [upd fun b => { b with gld := { b.gld with saving := true } }], by decide⟩,
   ⟨st [upd fun b => { b with gld := { b.gld with saving := true } }], by decide⟩⟩

/-- The hypotheses of HostLinkEvents are met, clause by clause. -/
theorem witness_HostLinkEvents :
    (∃ (s : State), s.pcie = false) ∧
    (∃ (s : State), s.pcie = false) ∧
    (∃ (s : State), s.pcie = true) ∧
    (∃ (s : State), s.pcie = true) ∧
    (∃ (s : State), s.pcie = true) ∧
    (∃ (s : State), s.pcie = true ∧ s.flag HBR_LINK_STAT_PERST = false ∧ s.bootOpen = true ∧ s.flag HBR_LINK_STAT_LINK_UP = false) ∧
    (∃ (s : State), s.flag HBR_LINK_STAT_PERST = true) ∧
    (∃ (s : State), s.hostUp = false) ∧
    (∃ (s : State), s.pcie = true ∧ s.hostUp = true) ∧
    (∃ (s : State), s.pcie = true ∧ s.hostUp = true ∧ s.bootOpen = false) ∧
    (∃ (s : State), s.pcie = true ∧ s.hostUp = true ∧ s.bootOpen = true) ∧
    (∃ (s : State), s.pcie = true ∧ s.hostUp = true ∧ s.bootOpen = true) :=
  ⟨⟨st [set MSU_BOOT_CFG_HOST_PORT_SEL 1], by decide⟩,
   ⟨st [set MSU_BOOT_CFG_HOST_PORT_SEL 1], by decide⟩,
   ⟨State.reset, by decide⟩,
   ⟨State.reset, by decide⟩,
   ⟨State.reset, by decide⟩,
   ⟨st [set HBR_LINK_STAT_PERST 0, set MSU_BOOT_STAT_PHASE 3, set HBR_LINK_STAT_LINK_UP 0], by decide⟩,
   ⟨st [set HBR_LINK_STAT_PERST 1], by decide⟩,
   ⟨State.reset, by decide⟩,
   ⟨st [set HBR_LINK_STAT_LINK_UP 1], by decide⟩,
   ⟨st [set HBR_LINK_STAT_LINK_UP 1], by decide⟩,
   ⟨st [set HBR_LINK_STAT_LINK_UP 1, set MSU_BOOT_STAT_PHASE 3], by decide⟩,
   ⟨st [set HBR_LINK_STAT_LINK_UP 1, set MSU_BOOT_STAT_PHASE 3], by decide⟩⟩

/-- The hypotheses of InstanceEvents are met, clause by clause. -/
theorem witness_InstanceEvents :
    (∃ (n : Fin 256) (s : State), s.flag (IOM_INST_STAT_BOUND n) = false) ∧
    (∃ (n : Fin 256) (s : State), s.flag (IOM_INST_STAT_RESETTING n) = true) ∧
    (∃ (n : Fin 256) (s : State), s.flag (IOM_INST_STAT_BOUND n) = true ∧ s.flag (IOM_INST_STAT_RESETTING n) = false) ∧
    (∃ (n : Fin 256) (s : State), s.flag (IOM_INST_STAT_RESETTING n) = false) ∧
    (∃ (n : Fin 256) (s : State), s.instQuiet n = false) ∧
    (∃ (n : Fin 256) (s : State), s.flag (IOM_INST_STAT_RESETTING n) = true ∧ s.instQuiet n = true ∧ s.b.iom.removing.contains n.val = false) ∧
    (∃ (n : Fin 256) (s : State), s.flag (IOM_INST_STAT_RESETTING n) = true ∧ s.instQuiet n = true ∧ s.b.iom.removing.contains n.val = true) ∧
    (∃ (n : Fin 256) (s : State), s.migState n = 1 ∧ s.migQuiet n = true) ∧
    (∃ (n : Fin 256) (s : State), s.migState n ≠ 1) ∧
    (∃ (s : State), s.flag IOM_MIG_RES_BUSY = false) ∧
    (∃ (s : State), s.flag IOM_MIG_RES_BUSY = true ∧ s.b.iom.copy = some 100) ∧
    (∃ (s : State), s.flag IOM_MIG_RES_BUSY = true ∧ s.get IOM_MIG_RES_OP = 2 ∧ s.migState (s.get IOM_MIG_RES_INST) = 3) :=
  ⟨⟨255, st [set (IOM_INST_STAT_BOUND 255) 0], by decide⟩,
   ⟨255, st [set (IOM_INST_STAT_RESETTING 255) 1], by decide⟩,
   ⟨255, st [set (IOM_INST_STAT_BOUND 255) 1, set (IOM_INST_STAT_RESETTING 255) 0], by decide⟩,
   ⟨255, st [set (IOM_INST_STAT_RESETTING 255) 0], by decide⟩,
   ⟨3, st [set (IOM_INST_BIND_KIND 3) 1, set (CELL_STAT_DRAINING 9 0) 1], by decide⟩,
   ⟨255, st [set (IOM_INST_STAT_RESETTING 255) 1], by decide⟩,
   ⟨255, st [set (IOM_INST_STAT_RESETTING 255) 1, upd fun b => { b with iom := { b.iom with removing := [255] } }], by decide⟩,
   ⟨255, st [set (IOM_INST_STAT_MIG_STATE 255) 1], by decide⟩,
   ⟨255, State.reset, by decide⟩,
   ⟨st [set IOM_MIG_RES_BUSY 0], by decide⟩,
   ⟨st [set IOM_MIG_RES_BUSY 1, upd fun b => { b with iom := { b.iom with copy := some 100 } }], by decide⟩,
   ⟨st [set IOM_MIG_RES_BUSY 1, set IOM_MIG_RES_OP 2, set (IOM_INST_STAT_MIG_STATE 0) 3], by decide⟩⟩

/-- The hypotheses of UpdateEvents are met, clause by clause. -/
theorem witness_UpdateEvents :
    (∃ (s : State), s.b.fw.relay = []) ∧
    (∃ (bs : List Byte) (l : List (Nat × List Byte)) (s : State), s.b.fw.relay = (0, bs) :: l) ∧
    (∃ (n : Nat) (bs : List Byte) (l : List (Nat × List Byte)) (x : Stream) (s : State), s.b.fw.relay = (n, bs) :: l ∧ n ≠ 0 ∧ s.b.fw.rel = some x) ∧
    (∃ (n : Nat) (bs : List Byte) (l : List (Nat × List Byte)) (s : State), s.b.fw.relay = (n, bs) :: l ∧ n ≠ 0 ∧ s.b.fw.rel = none) ∧
    (∃ (s : State), s.b.fw.steps = []) ∧
    (∃ (s : State), s.boot.state ≠ 3) ∧
    (∃ (k : Nat) (e : Nat) (l : List Nat) (s : State), s.b.fw.steps = k :: l ∧ s.boot.state = 3 ∧ entryOf s.b.fw.hdr k = some e ∧ (∀ j, j < 11 → (s.part j).trial = false)) ∧
    (∃ (k : Nat) (e : Nat) (l : List Nat) (s : State), s.b.fw.steps = k :: l ∧ s.boot.state = 3 ∧ entryOf s.b.fw.hdr k = some e ∧ l ≠ []) ∧
    (∃ (s : State), s.b.fw.window.isSome = true ∧ s.boot.state = 4) ∧
    (∃ (s : State), s.b.fw.window = none) :=
  ⟨⟨State.reset, by decide⟩,
   ⟨[1, 2], [], st [upd fun b => { b with fw := { b.fw with relay := (0, ([1, 2])) :: ([]) } }], by decide⟩,
   ⟨5, [1, 2], [], { hdr := [], dig := [], stage := false }, st [upd fun blk => { blk with fw := { blk.fw with relay := [(5, [1, 2])], rel := some { hdr := [], dig := [], stage := false } } }], by decide⟩,
   ⟨5, [1, 2], [], st [upd fun b => { b with fw := { b.fw with relay := (5, ([1, 2])) :: ([]) } }], by decide⟩,
   ⟨State.reset, by decide⟩,
   ⟨State.reset, by decide⟩,
   ⟨0, 0, [], st [upd fun blk => { blk with fw := { blk.fw with steps := [0], hdr := List.replicate 29 0 ++ [1], copyA := some { state := 3, seq := 1 } } }], by decide⟩,
   ⟨0, 0, [1], st [upd fun blk => { blk with fw := { blk.fw with steps := [0, 1], hdr := List.replicate 29 0 ++ [1], copyA := some { state := 3, seq := 1 } } }], by decide⟩,
   ⟨st [upd fun b => { b with fw := { b.fw with window := some 7, copyA := some { state := 4, seq := 1 } } }], by decide⟩,
   ⟨State.reset, by decide⟩⟩

/-- The hypotheses of VaultEvents are met, clause by clause. -/
theorem witness_VaultEvents :
    (∃ (s : State), s.b.vlt.purge = none) ∧
    (∃ (c : Nat) (s : State), s.b.vlt.purge = some (c, 1)) ∧
    (∃ (c : Nat) (n : Nat) (s : State), s.b.vlt.purge = some (c, n) ∧ 1 < n ∧ c < 512 ∧ s.orphan c = false) ∧
    (∃ (c : Nat) (n : Nat) (s : State), s.b.vlt.purge = some (c, n) ∧ 1 < n ∧ c < 512 ∧ s.orphan c = true) ∧
    (∃ (s : State), ((s.b.vlt.fails.filter fun t => decide (s.now < t + 1000 * msCycles)).length < 2)) ∧
    (∃ (s : State), (2 ≤ (s.b.vlt.fails.filter fun t => decide (s.now < t + 1000 * msCycles)).length)) ∧
    (∃ (s : State), s.flag VLT_TRNG_STAT_FAILED = false ∧ s.b.vlt.slotDue = none) ∧
    (∃ (s : State), s.flag VLT_TRNG_STAT_FAILED = true) ∧
    (∃ (s : State), s.b.vlt.lcNext = none) ∧
    (∃ (s : State), s.b.vlt.lcNext = some 2 ∧ s.b.vlt.lifecycle ≤ 2) ∧
    (∃ (s : State), s.b.vlt.lcNext = some 3 ∧ s.b.vlt.lifecycle ≤ 3) ∧
    (∃ (s : State), 3 ≤ s.get VLT_DBG_STAT_REJECTS) ∧
    (∃ (r : List Byte) (s : State), s.get VLT_DBG_STAT_REJECTS < 3 ∧ s.b.vlt.lifecycle = 1 ∧ leValue (r.take 4) = 3 ∧ leValue ((r.drop 4).take 4) < 4 ∧ s.revocable (leValue ((r.drop 4).take 4)) = true ∧ r.length = 5510 ∧ (r.drop 8).take 16 = s.wordBytes VLT_UNIT_SN 4 ∧ (r.drop 24).take 32 = s.wordBytes VLT_AUTH_NONCE 8 ∧ s.now ≤ s.b.vlt.nonceAt + 60000 * msCycles) :=
  ⟨⟨State.reset, by decide⟩,
   ⟨5, st [upd fun b => { b with vlt := { b.vlt with purge := some (5, 1) } }], by decide⟩,
   ⟨5, 5, st [upd fun b => { b with vlt := { b.vlt with purge := some (5, 5) } }], by decide⟩,
   ⟨5, 2, st [upd fun b => { b with vlt := { b.vlt with purge := some (5, 2) } }, set (VLT_SLOT_ATTR_STATE 5) 1, set (VLT_SLOT_LINK_HAS_PARENT 5) 1, set (VLT_SLOT_LINK_PGEN 5) 3], by decide⟩,
   ⟨State.reset, by decide⟩,
   ⟨st [upd fun b => { b with vlt := { b.vlt with fails := [0, 0] } }], by decide⟩,
   ⟨st [set VLT_TRNG_STAT_FAILED 0], by decide⟩,
   ⟨st [set VLT_TRNG_STAT_FAILED 1], by decide⟩,
   ⟨State.reset, by decide⟩,
   ⟨st [upd fun b => { b with vlt := { b.vlt with lcNext := some 2 } }], by decide⟩,
   ⟨st [upd fun b => { b with vlt := { b.vlt with lcNext := some 3 } }], by decide⟩,
   ⟨st [set VLT_DBG_STAT_REJECTS 3], by decide⟩,
   ⟨([3, 0, 0, 0, 1, 0, 0, 0] ++ List.replicate 5502 0), st [upd fun b => { b with vlt := { b.vlt with lifecycle := 1 } }], by decide⟩⟩

/-- The hypotheses of VaultJobsRun are met, clause by clause. -/
theorem witness_VaultJobsRun :
    (∃ (s t : State) (j : Job) (l : Tbl Nat) (p : Nat), s.unarmed 5 = true ∧ s.fetches t j l p ∧ j.op = 3 ∧ j.bad = false ∧ (s.jobRandomly j = false ∨ s.flag VLT_TRNG_STAT_OK = true ∨ s.flag VLT_TRNG_STAT_FAILED = true)) ∧
    (∃ (s : State) (r : Nat) (l : Tbl Nat) (p : Nat), s.unarmed 5 = true ∧ s.ringGrant = (some r, l, p) ∧ s.inRingWin r (s.ringBase r + 64 * s.get (VLT_RING_HEAD_INDEX r)) 64 = false) ∧
    (∃ (s : State) (l : Tbl Nat) (p : Nat), s.unarmed 5 = true ∧ s.ringGrant = (none, l, p)) :=
  ⟨⟨ringState, (dmaRead 57 0x1000000 64 fun _ => .skip).run ringState, ringJob, ringState.ringGrant.2.1, ringState.ringGrant.2.2, by decide, ⟨by decide, by decide, by decide, [0, 0, 0, 3] ++ List.replicate 60 0, by decide, fun _ => rfl⟩, by decide, by decide, by decide⟩,
   ⟨ringAway, 3, ringAway.ringGrant.2.1, ringAway.ringGrant.2.2, by decide⟩,
   ⟨State.reset, State.reset.ringGrant.2.1, State.reset.ringGrant.2.2, by decide⟩⟩

/-- The hypotheses of VaultJobEnds are met, clause by clause. -/
theorem witness_VaultJobEnds :
    (∃ (j : Job), j.ring < 32) ∧
    (∃ (j : Job) (s : State), j.nokey = false ∧ (j.slot = 0 → s.underiv 0 = false) ∧ s.useStatus j.slot = OK ∧ attrOwner (s.reg (VLT_SLOT_ATTR j.slot)) ≠ s.ringOwner j) ∧
    (∃ (j : Job) (s : State), j.nokey = false ∧ (j.slot = 0 → s.underiv 0 = false) ∧ s.useStatus j.slot = OK ∧ bit (attrUsage (s.reg (VLT_SLOT_ATTR j.slot))) 4 = false) ∧
    (∃ (j : Job) (s : State), j.nokey = false ∧ (j.slot = 0 → s.underiv 0 = false) ∧ s.b.vlt.heartBad = false ∧ s.orphan j.slot = false ∧ s.get (VLT_SLOT_ATTR_STATE j.slot) ≠ 1) ∧
    (∃ (j : Job) (s : State), j.nokey = false ∧ s.useStatus j.slot = OK ∧ attrOwner (s.reg (VLT_SLOT_ATTR j.slot)) = s.ringOwner j ∧ bit (attrUsage (s.reg (VLT_SLOT_ATTR j.slot))) 5 = true ∧ j.bad = true) ∧
    (∃ (j : Job), j.nokey = true) ∧
    (∃ (j : Job) (s : State), j.nokey = false ∧ s.orphan j.slot = true) ∧
    (∃ (j : Job), 5 < bits j.param 3 0) ∧
    (∃ (j : Job), 3 < bits j.param 3 0) ∧
    (∃ (j : Job), 4096 < j.dstLen) ∧
    (∃ (j : Job) (s : State), s.ringOwner j ≠ 2) ∧
    (∃ (j : Job) (s : State), j.nokey = false ∧ s.get (VLT_SLOT_ATTR_OWNER j.slot) ≠ s.ringOwner j) ∧
    (∃ (j : Job) (s : State), j.nokey = false ∧ generalSlot j.slot = true ∧ s.get (VLT_SLOT_ATTR_OWNER j.slot) = s.ringOwner j ∧ s.purgeBusy j.slot = false) :=
  ⟨⟨⟨3, 0, [0xFF000000, 0, 0, 0, 0, 0, 0, 0], false⟩, by decide⟩,
   ⟨⟨3, 0, [5, 0, 0, 0, 0, 0, 0, 0], false⟩, st [set (VLT_SLOT_ATTR_STATE 5) 1, set (CELL_CTRL_EN 5 5) 1, set (VLT_RING_CFG_OWNER 3) 9], by decide⟩,
   ⟨⟨3, 0, [5, 0, 0, 0, 0, 0, 0, 0], false⟩, st [set (VLT_SLOT_ATTR_STATE 5) 1, set (CELL_CTRL_EN 5 5) 1], by decide⟩,
   ⟨⟨3, 0, [5, 0, 0, 0, 0, 0, 0, 0], false⟩, State.reset, by decide⟩,
   ⟨⟨3, 0, [5, 0, 0, 0, 0, 0, 0, 0], true⟩, st [set (VLT_SLOT_ATTR_STATE 5) 1, set (CELL_CTRL_EN 5 5) 1, setReg (VLT_SLOT_ATTR 5) (2 ^ 29 + 0xFFF000), set (VLT_RING_CFG_OWNER 3) (attrOwner (2 ^ 29 + 0xFFF000))], by decide⟩,
   ⟨⟨3, 0, [0x800000, 0, 0, 0, 0, 0, 0, 0], false⟩, by decide⟩,
   ⟨⟨3, 0, [5, 0, 0, 0, 0, 0, 0, 0], false⟩, st [set (VLT_SLOT_ATTR_STATE 5) 1, set (VLT_SLOT_LINK_HAS_PARENT 5) 1, set (VLT_SLOT_LINK_PGEN 5) 3], by decide⟩,
   ⟨⟨3, 0, [5, 6, 0, 0, 0, 0, 0, 0], false⟩, by decide⟩,
   ⟨⟨3, 0, [5, 4, 0, 0, 0, 0, 0, 0], false⟩, by decide⟩,
   ⟨⟨3, 0, [5, 0, 0, 0, 0, 0, 0, 5000], false⟩, by decide⟩,
   ⟨⟨3, 0, [5, 0, 0, 0, 0, 0, 0, 0], false⟩, st [set (VLT_RING_CFG_OWNER 3) 9], by decide⟩,
   ⟨⟨3, 0, [5, 0, 0, 0, 0, 0, 0, 0], false⟩, st [set (VLT_RING_CFG_OWNER 3) 9], by decide⟩,
   ⟨⟨3, 0, [5, 0, 0, 0, 0, 0, 0, 0], false⟩, State.reset, by decide⟩⟩

/-- The hypotheses of BlockAndCellWrites are met, clause by clause. -/
theorem witness_BlockAndCellWrites :
    (∃ (pid : Pid) (k : Fin 28) (s : State), s.accepts pid (BLK_CTRL k) (withBits (s.reg (BLK_CTRL k)) 1 0 1) = true) ∧
    (∃ (pid : Pid) (k : Fin 28) (s : State), s.accepts pid (BLK_CTRL k) (withBits (s.reg (BLK_CTRL k)) 1 0 0) = true) ∧
    (∃ (pid : Pid) (k : Fin 28) (s : State), s.accepts pid (BLK_CTRL k) (withBits (s.reg (BLK_CTRL k)) 1 1 1) = true) ∧
    (∃ (pid : Pid) (k : Fin 28) (on : Bool) (s : State), s.accepts pid (BLK_CTRL k) (withBits (withBits (s.reg (BLK_CTRL k)) 1 1 0) 2 2 on.toNat) = true) ∧
    (∃ (pid : Pid) (k : Fin 23) (c : Fin 512) (s : State), c.val < cellCount k ∧ s.accepts pid (CELL_CTRL k c) 1 = true) ∧
    (∃ (pid : Pid) (k : Fin 23) (c : Fin 512) (s : State), c.val < cellCount k ∧ s.accepts pid (CELL_CTRL k c) 0 = true) ∧
    (∃ (pid : Pid) (k : Fin 23) (c : Fin 512) (s : State), c.val < cellCount k ∧ s.accepts pid (CELL_CTRL k c) (withBits (s.reg (CELL_CTRL k c)) 1 1 1) = true) ∧
    (∃ (pid : Pid) (k : Fin 23) (c : Fin 512) (s : State), c.val < cellCount k ∧ s.accepts pid (CELL_RETIRE k c) 1 = true) ∧
    (∃ (pid : Pid) (k : Fin 23) (c : Fin 512) (s : State), c.val < cellCount k ∧ s.accepts pid (CELL_RETIRE k c) 2 = true) ∧
    (∃ (pid : Pid) (k : Fin 28) (v : Word) (s : State), s.accepts pid (BLK_IRQ_SET k) v.toNat = true) ∧
    (∃ (pid : Pid) (k : Fin 28) (s : State), s.accepts pid (BLK_LOCK k) 1 = true) ∧
    (∃ (pid : Pid) (k : Fin 28) (c : Fin 4096) (cls : Fin 4) (s : State), s.accepts pid (BLK_ERR_INJ k) (2 ^ 31 + c.val * 2 ^ 16 + cls.val) = true) ∧
    (∃ (k : Fin 23) (c : Fin 512), cellCount k ≤ c.val) :=
  ⟨⟨1, 27, State.reset, by decide⟩,
   ⟨1, 27, State.reset, by decide⟩,
   ⟨1, 27, State.reset, by decide⟩,
   ⟨1, 27, true, State.reset, by decide⟩,
   ⟨1, 22, 31, State.reset, by decide⟩,
   ⟨1, 22, 31, State.reset, by decide⟩,
   ⟨1, 22, 31, State.reset, by decide⟩,
   ⟨1, 22, 31, State.reset, by decide⟩,
   ⟨1, 22, 31, State.reset, by decide⟩,
   ⟨1, 27, 0xFFFFFFFF, State.reset, by decide⟩,
   ⟨1, 27, State.reset, by decide⟩,
   ⟨1, 27, 4095, 3, State.reset, by decide⟩,
   ⟨22, 511, by decide⟩⟩

/-- The hypotheses of SystemAndPowerWrites are met, clause by clause. -/
theorem witness_SystemAndPowerWrites :
    (∃ (pid : Pid) (key : Fin 256) (s : State), s.accepts pid MSU_SAFE_CTRL (key.val * 2 ^ 8 + 1) = true) ∧
    (∃ (pid : Pid) (i : Fin 4) (key : Fin 256) (s : State), s.accepts pid (MSU_WDOG_KICK i) key.val = true) ∧
    (∃ (pid : Pid) (s : State), (¬ (pid.val = 0 ∧ s.get MSU_BOOT_STAT_PHASE = 2 ∧ s.installedOk = false)) ∧ s.accepts pid MSU_PROT_LOCK 1 = true) ∧
    (∃ (pid : Pid) (s : State), pid.val = 0 ∧ s.get MSU_BOOT_STAT_PHASE = 2 ∧ s.installedOk = false) ∧
    (∃ (pid : Pid) (t : Fin 8) (s : State), s.accepts pid MSU_PWR_STATE (t.val * 2 ^ 8) = true) ∧
    (∃ (pid : Pid) (key : Fin 256) (s : State), s.accepts pid MSU_RST_CTRL (key.val * 2 ^ 8 + 1) = true) ∧
    (∃ (pid : Pid) (d : Fin 4) (s : State), s.accepts pid PSM_DIE_EN (2 ^ d.val) = true) ∧
    (∃ (pid : Pid) (s : State), s.accepts pid GLD_WAKE_REASON (2 ^ 31) = true) ∧
    (∃ (pid : Pid) (s : State), s.accepts pid GLD_WAKE_ACK 1 = true) ∧
    (∃ (pid : Pid) (hi : Bool) (v : Word) (s : State), s.accepts pid (if hi then GLD_FW_DIS_HI else GLD_FW_DIS_LO) v.toNat = true) ∧
    (∃ (pid : Pid) (s : State), s.accepts pid GLD_STORE_CTRL (2 ^ 31) = true) ∧
    (∃ (pid : Pid) (n : Fin 48) (r : Fin 4) (w : Word) (s : State), s.accepts pid (SNI_IN_CFG n + 4 * r.val) w.toNat = true) ∧
    (∃ (pid : Pid) (g : Fin 64) (w : Word) (s : State), s.accepts pid (LSW_CH_CMD g) w.toNat = true) ∧
    (∃ (pid : Pid) (g : Fin 64) (w : Word) (s : State), s.accepts pid (LSW_CH_CFG g) w.toNat = true) ∧
    (∃ (pid : Pid) (g : Fin 64) (s : State), s.accepts pid (LSW_DG_OLON_STAT g) (2 ^ 31) = true) :=
  ⟨⟨1, 255, State.reset, by decide⟩,
   ⟨1, 3, 255, st [set (MSU_WDOG_CFG_PID 3) 1], by decide⟩,
   ⟨0, State.reset, by decide⟩,
   ⟨0, st [set MSU_BOOT_STAT_PHASE 2, updVlt fun x => { x with arb := [(0, 1)] }], by decide⟩,
   ⟨1, 7, State.reset, by decide⟩,
   ⟨1, 255, State.reset, by decide⟩,
   ⟨1, 3, State.reset, by decide⟩,
   ⟨1, State.reset, by decide⟩,
   ⟨1, State.reset, by decide⟩,
   ⟨1, true, 0xFFFFFFFF, State.reset, by decide⟩,
   ⟨1, State.reset, by decide⟩,
   ⟨1, 47, 3, 0xFFFFFFFF, State.reset, by decide⟩,
   ⟨1, 63, 0xFFFFFFFF, State.reset, by decide⟩,
   ⟨1, 63, 0xFFFFFFFF, State.reset, by decide⟩,
   ⟨1, 63, State.reset, by decide⟩⟩

/-- The hypotheses of RegionCWrites are met, clause by clause. -/
theorem witness_RegionCWrites :
    (∃ (pid : Pid) (slot : Fin 512) (s : State), s.accepts pid VLT_SLOT_CTRL (2 ^ 31 + 1 * 2 ^ 24 + slot.val) = true) ∧
    (∃ (pid : Pid) (slot : Fin 512) (s : State), s.accepts pid VLT_SLOT_CTRL (2 ^ 31 + 2 * 2 ^ 24 + slot.val) = true) ∧
    (∃ (pid : Pid) (slot : Fin 512) (s : State), s.accepts pid VLT_SLOT_CTRL (2 ^ 31 + 3 * 2 ^ 24 + slot.val) = true) ∧
    (∃ (pid : Pid) (slot : Fin 512) (s : State), s.accepts pid VLT_SLOT_CTRL (2 ^ 31 + 4 * 2 ^ 24 + slot.val) = true) ∧
    (∃ (pid : Pid) (slot : Fin 512) (s : State), s.accepts pid VLT_SLOT_CTRL (2 ^ 31 + 5 * 2 ^ 24 + slot.val) = true) ∧
    (∃ (pid : Pid) (key : Fin 256) (target : Fin 8) (s : State), s.accepts pid VLT_LC_CMD (key.val * 2 ^ 24 + target.val) = true) ∧
    (∃ (pid : Pid) (r : Fin 32) (tail : Fin 1024) (s : State), (((List.range 256).any fun n => s.instKind n == 6 && s.instArg n % 32 == r.val) = false) ∧ s.accepts pid (VLT_RING_TAIL r) tail.val = true) ∧
    (∃ (pid : Pid) (m : Fin 16) (s : State), s.accepts pid VLT_MEAS_CTRL (2 ^ 31 + m.val) = true) ∧
    (∃ (pid : Pid) (s : State), s.accepts pid VLT_MEAS_CTRL (2 ^ 30) = true) ∧
    (∃ (pid : Pid) (k : Fin 3) (v : Word) (s : State), s.accepts pid (CNP_CLU_CLK k) v.toNat = true) ∧
    (∃ (pid : Pid) (h : Fin 12) (s : State), s.accepts pid CNP_HART_EN (withBits (s.reg CNP_HART_EN) h h 1) = true) ∧
    (∃ (pid : Pid) (h : Fin 12) (s : State), s.accepts pid CNP_HART_EN (withBits (s.reg CNP_HART_EN) h h 0) = true) ∧
    (∃ (pid : Pid) (x : Fin 2) (k : Fin 3) (s : State), s.accepts pid (IW_CORE_CTRL x) (2 ^ k.val) = true) ∧
    (∃ (pid : Pid) (x : Fin 2) (k : Fin 3) (s : State), s.accepts pid (IW_CORE_CTRL x) (2 ^ (4 + k.val)) = true) ∧
    (∃ (pid : Pid) (x : Fin 2) (s : State), s.accepts pid (BLK_CTRL (1 + x.val)) (withBits (s.reg (BLK_CTRL (1 + x.val))) 1 1 1) = true) ∧
    (∃ (pid : Pid) (x : Fin 2) (c : Fin 2) (n : Fin 256) (s : State), s.accepts pid (IW_IRQ_CLAIM x c) n.val = true) ∧
    (∃ (pid : Pid) (x : Fin 2) (ch : Fin 4) (irq : Bool) (s : State), s.accepts pid (IW_DMA_CTRL x ch) (2 ^ 31 + irq.toNat) = true) ∧
    (∃ (pid : Pid) (r : Fin 32) (tail : Fin 1024) (s : State), (((List.range 256).any fun n => s.instKind n == 6 && s.instArg n % 32 == r.val) = true) ∧ s.accepts pid (VLT_RING_TAIL r) tail.val = true) ∧
    (∃ (pid : Pid) (x : Fin 2) (c : Fin 2) (s : State), s.pwr ≤ 1 ∧ s.checkAt (pid, true) (IW_IRQ_CLAIM x c) 4 0 = 0 ∧ s.unarmed (1 + x.val) = true ∧ s.flag (BLK_CTRL_ISOLATE (1 + x.val)) = false ∧ (c = 0 ∨ s.iwSplit x = true)) :=
  ⟨⟨1, 511, State.reset, by decide⟩,
   ⟨1, 511, State.reset, by decide⟩,
   ⟨1, 511, State.reset, by decide⟩,
   ⟨1, 511, State.reset, by decide⟩,
   ⟨1, 511, State.reset, by decide⟩,
   ⟨1, 255, 7, State.reset, by decide⟩,
   ⟨1, 31, 1023, State.reset, by decide⟩,
   ⟨1, 15, State.reset, by decide⟩,
   ⟨1, State.reset, by decide⟩,
   ⟨1, 2, 0xFFFFFFFF, State.reset, by decide⟩,
   ⟨1, 11, State.reset, by decide⟩,
   ⟨1, 11, State.reset, by decide⟩,
   ⟨1, 1, 2, State.reset, by decide⟩,
   ⟨1, 1, 2, State.reset, by decide⟩,
   ⟨1, 1, State.reset, by decide⟩,
   ⟨1, 1, 0, 255, State.reset, by decide⟩,
   ⟨1, 1, 3, true, State.reset, by decide⟩,
   ⟨1, 5, 1023, st [set (IOM_INST_BIND_KIND 7) 6, set (IOM_INST_BIND_ARG 7) 5], by decide⟩,
   ⟨1, 1, 1, st [set (BLK_CTRL_ISOLATE (1 + 1)) 0, set (IW_STAT_SPLIT 1) 1], by decide⟩⟩

/-- The hypotheses of InstanceMigrationAndUpdateWrites are met, clause by clause. -/
theorem witness_InstanceMigrationAndUpdateWrites :
    (∃ (pid : Pid) (n : Fin 256) (kind : Fin 16) (arg : Fin 16777216) (s : State), s.accepts pid (IOM_INST_BIND n) (kind.val * 2 ^ 28 + arg.val) = true) ∧
    (∃ (pid : Pid) (n : Fin 256) (s : State), s.accepts pid (IOM_INST_BIND n) 0 = true) ∧
    (∃ (pid : Pid) (n : Fin 256) (s : State), s.accepts pid (IOM_INST_CTRL n) 1 = true) ∧
    (∃ (pid : Pid) (n : Fin 256) (s : State), s.accepts pid (IOM_INST_CTRL n) 2 = true) ∧
    (∃ (pid : Pid) (n : Fin 256) (k : Fin 4) (s : State), s.accepts pid (IOM_DELIV1 n k) (withBits (s.reg (IOM_DELIV1 n k)) 30 30 0) = true) ∧
    (∃ (pid : Pid) (n : Fin 256) (s : State), s.flag IOM_MIG_RES_BUSY = false ∧ s.accepts pid IOM_MIG_CMD (2 ^ 31 + 1 * 2 ^ 24 + n.val) = true) ∧
    (∃ (pid : Pid) (n : Fin 256) (jrnl : Bool) (s : State), s.flag IOM_MIG_RES_BUSY = false ∧ s.accepts pid IOM_MIG_CMD (2 ^ 31 + 2 * 2 ^ 24 + jrnl.toNat * 2 ^ 20 + n.val) = true) ∧
    (∃ (pid : Pid) (n : Fin 256) (s : State), s.flag IOM_MIG_RES_BUSY = false ∧ s.accepts pid IOM_MIG_CMD (2 ^ 31 + 3 * 2 ^ 24 + n.val) = true) ∧
    (∃ (pid : Pid) (n : Fin 256) (s : State), s.flag IOM_MIG_RES_BUSY = false ∧ s.accepts pid IOM_MIG_CMD (2 ^ 31 + 4 * 2 ^ 24 + n.val) = true) ∧
    (∃ (pid : Pid) (s : State), s.flag IOM_MIG_RES_BUSY = false ∧ s.accepts pid IOM_MIG_CMD (2 ^ 31 + 5 * 2 ^ 24 + s.get IOM_MIG_SEL_INST) = true) ∧
    (∃ (pid : Pid) (s : State), s.flag IOM_MIG_RES_BUSY = false ∧ s.accepts pid IOM_MIG_CMD (2 ^ 31 + 6 * 2 ^ 24 + s.get IOM_MIG_SEL_INST) = true) ∧
    (∃ (pid : Pid) (s : State), s.flag IOM_MIG_RES_BUSY = false ∧ s.accepts pid IOM_MIG_CMD (2 ^ 31 + 7 * 2 ^ 24 + s.get IOM_MIG_SEL_INST) = true) ∧
    (∃ (pid : Pid) (s : State), s.flag IOM_MIG_RES_BUSY = false ∧ s.accepts pid IOM_MIG_CMD (2 ^ 31 + 8 * 2 ^ 24) = true) ∧
    (∃ (pid : Pid) (s : State), s.flag IOM_MIG_RES_BUSY = false ∧ s.accepts pid IOM_MIG_CMD (2 ^ 31 + 9 * 2 ^ 24) = true) ∧
    (∃ (pid : Pid) (s : State), s.accepts pid MEM_UPD_CMD (2 ^ 31 + 1 * 2 ^ 24) = true) ∧
    (∃ (pid : Pid) (s : State), s.accepts pid MEM_UPD_CMD (2 ^ 31 + 2 * 2 ^ 24) = true) ∧
    (∃ (pid : Pid) (s : State), s.accepts pid MEM_UPD_CMD (2 ^ 31 + 3 * 2 ^ 24) = true) ∧
    (∃ (pid : Pid) (s : State), s.accepts pid MEM_UPD_CMD (2 ^ 31 + 4 * 2 ^ 24) = true) ∧
    (∃ (pid : Pid) (s : State), s.accepts pid MEM_UPD_CMD (2 ^ 31 + 5 * 2 ^ 24) = true) ∧
    (∃ (pid : Pid) (s : State), s.accepts pid MEM_UPD_CMD (2 ^ 31 + 6 * 2 ^ 24) = true) ∧
    (∃ (pid : Pid) (s : State), s.accepts pid MEM_UPD_CMD (2 ^ 31 + 7 * 2 ^ 24) = true) ∧
    (∃ (pid : Pid) (s : State), s.accepts pid MEM_UPD_CMD (2 ^ 31 + 8 * 2 ^ 24) = true) ∧
    (∃ (pid : Pid) (health : Bool) (safe : Bool) (s : State), s.accepts pid MEM_UPD_CONFIRM (safe.toNat * 2 + health.toNat) = true) ∧
    (∃ (pid : Pid) (n : Fin 256) (s : State), s.flag IOM_MIG_RES_BUSY = true ∧ s.accepts pid IOM_MIG_CMD (2 ^ 31 + 1 * 2 ^ 24 + n.val) = true) ∧
    (∃ (n : Fin 256) (s : State), s.okind n = 0) ∧
    (∃ (n : Fin 256) (s : State), s.pwr ≤ 1 ∧ s.checkAt (s.instPid n, true) (IOM_IP_DB n) 4 1 = 0 ∧ s.unarmed 6 = true ∧ s.okind n = 1 ∧ s.flag (IOM_INST_STAT_BOUND n) = true ∧ s.ownerLive n = true ∧ s.flag (BLK_CTRL_ISOLATE 6) = false ∧ s.flag (IOM_INST_STAT_TOMGR_FULL n) = false) ∧
    (∃ (n : Fin 256) (s : State), s.pwr ≤ 1 ∧ s.checkAt (s.instPid n, true) (IOM_IP_DB n) 4 1 = 0 ∧ s.unarmed 6 = true ∧ s.okind n = 1 ∧ s.flag (IOM_INST_STAT_BOUND n) = true ∧ s.ownerLive n = true ∧ s.flag (BLK_CTRL_ISOLATE 6) = false ∧ s.flag (IOM_INST_STAT_FROMMGR_FULL n) = true) ∧
    (∃ (n : Fin 256) (s : State), s.pwr ≤ 1 ∧ s.checkAt (s.instPid n, true) (IOM_IP_FUNC_DB n) 4 1 = 0 ∧ s.unarmed 6 = true ∧ s.okind n = 1 ∧ s.flag (IOM_INST_STAT_BOUND n) = true ∧ s.ownerLive n = true ∧ s.flag (BLK_CTRL_ISOLATE 6) = false ∧ s.instKind n = 6 ∧ s.shut (VLT_RING_TAIL (s.instArg n % 32)) = false ∧ s.flag (BLK_CTRL_ISOLATE 5) = false) ∧
    (∃ (n : Fin 256) (w : Fin 2048) (s : State), s.pwr ≤ 1 ∧ s.checkAt (s.instPid n, true) (0x2B002000 + 0x4000 * n.val + 4 * w.val) 4 0 = 0 ∧ s.unarmed 6 = true ∧ s.okind n = 1 ∧ s.flag (IOM_INST_STAT_BOUND n) = true ∧ s.flag (BLK_CTRL_ISOLATE 6) = true) ∧
    (∃ (n : Fin 256) (w : Fin 2048) (s : State), s.pwr ≤ 1 ∧ s.checkAt (s.instPid n, true) (0x2B002000 + 0x4000 * n.val + 4 * w.val) 4 0 = 0 ∧ s.unarmed 6 = true ∧ s.okind n = 1 ∧ s.flag (IOM_INST_STAT_BOUND n) = true ∧ s.flag (BLK_CTRL_ISOLATE 6) = false ∧ s.instKind n = 7 ∧ s.get (IOM_IP_APER_APER n) = 0 ∧ w.val = 2 ∧ s.flag (BLK_CTRL_ISOLATE 22) = false ∧ s.shut GLD_FIRED = false) :=
  ⟨⟨1, 255, 15, 16777215, State.reset, by decide⟩,
   ⟨1, 255, State.reset, by decide⟩,
   ⟨1, 255, State.reset, by decide⟩,
   ⟨1, 255, State.reset, by decide⟩,
   ⟨1, 255, 3, State.reset, by decide⟩,
   ⟨1, 255, st [set IOM_MIG_RES_BUSY 0], by decide⟩,
   ⟨1, 255, true, st [set IOM_MIG_RES_BUSY 0], by decide⟩,
   ⟨1, 255, st [set IOM_MIG_RES_BUSY 0], by decide⟩,
   ⟨1, 255, st [set IOM_MIG_RES_BUSY 0], by decide⟩,
   ⟨1, st [set IOM_MIG_RES_BUSY 0], by decide⟩,
   ⟨1, st [set IOM_MIG_RES_BUSY 0], by decide⟩,
   ⟨1, st [set IOM_MIG_RES_BUSY 0], by decide⟩,
   ⟨1, st [set IOM_MIG_RES_BUSY 0], by decide⟩,
   ⟨1, st [set IOM_MIG_RES_BUSY 0], by decide⟩,
   ⟨1, State.reset, by decide⟩,
   ⟨1, State.reset, by decide⟩,
   ⟨1, State.reset, by decide⟩,
   ⟨1, State.reset, by decide⟩,
   ⟨1, State.reset, by decide⟩,
   ⟨1, State.reset, by decide⟩,
   ⟨1, State.reset, by decide⟩,
   ⟨1, State.reset, by decide⟩,
   ⟨1, true, true, State.reset, by decide⟩,
   ⟨1, 255, st [set IOM_MIG_RES_BUSY 1], by decide⟩,
   ⟨255, st [set (IOM_INST_OWNER_OKIND 255) 0], by decide⟩,
   ⟨255, st [set (IOM_INST_OWNER_OKIND 255) 1, set (IOM_INST_STAT_BOUND 255) 1, set (CELL_STAT_ENABLED 6 255) 1, set (BLK_CTRL_ISOLATE 6) 0, set (IOM_INST_STAT_TOMGR_FULL 255) 0], by decide⟩,
   ⟨255, st [set (IOM_INST_OWNER_OKIND 255) 1, set (IOM_INST_STAT_BOUND 255) 1, set (CELL_STAT_ENABLED 6 255) 1, set (BLK_CTRL_ISOLATE 6) 0, set (IOM_INST_STAT_FROMMGR_FULL 255) 1], by decide⟩,
   ⟨255, st [set (IOM_INST_OWNER_OKIND 255) 1, set (IOM_INST_STAT_BOUND 255) 1, set (CELL_STAT_ENABLED 6 255) 1, set (BLK_CTRL_ISOLATE 6) 0, set (IOM_INST_BIND_KIND 255) 6, set (BLK_CTRL_ISOLATE 5) 0], by decide⟩,
   ⟨255, 2047, st [set (IOM_INST_OWNER_OKIND 255) 1, set (IOM_INST_STAT_BOUND 255) 1, set (BLK_CTRL_ISOLATE 6) 1], by decide⟩,
   ⟨255, 2, st [set (IOM_INST_OWNER_OKIND 255) 1, set (IOM_INST_STAT_BOUND 255) 1, set (BLK_CTRL_ISOLATE 6) 0, set (IOM_INST_BIND_KIND 255) 7, set (IOM_IP_APER_APER 255) 0, set (BLK_CTRL_ISOLATE 22) 0], by decide⟩⟩

/-- The hypotheses of CanAndLinWrites are met, clause by clause. -/
theorem witness_CanAndLinWrites :
    (∃ (pid : Pid) (c : Fin 16) (v : Word) (s : State), s.accepts pid (CAN_TXBUF_GO c) v.toNat = true) ∧
    (∃ (pid : Pid) (c : Fin 16) (v : Word) (s : State), s.accepts pid (CAN_TXBUF_STOP c) v.toNat = true) ∧
    (∃ (pid : Pid) (c : Fin 16) (s : State), s.accepts pid (CAN_BO_CTRL c) 1 = true) ∧
    (∃ (pid : Pid) (c : Fin 16) (s : State), s.accepts pid (CAN_BO_CFG c) (withBits (s.reg (CAN_BO_CFG c)) 30 30 1) = true) ∧
    (∃ (pid : Pid) (v : Fin 65536) (s : State), s.accepts pid CAN_TS_SYNC v.val = true) ∧
    (∃ (pid : Pid) (c : Fin 16) (ack : Bool) (target : Fin 4) (buf : Fin 64) (s : State), s.accepts pid (CAN_RX_RELEASE c) (ack.toNat * 2 ^ 31 + target.val * 2 ^ 8 + buf.val) = true) ∧
    (∃ (pid : Pid) (c : Fin 16) (hi : Bool) (v : Word) (s : State), s.accepts pid (if hi then CAN_RXBUF_NEW_HI c else CAN_RXBUF_NEW_LO c) v.toNat = true) ∧
    (∃ (pid : Pid) (c : Fin 16) (s : State), s.accepts pid (CAN_TXQ_PUSH c) 1 = true) ∧
    (∃ (pid : Pid) (c : Fin 16) (v : Word) (s : State), s.accepts pid (CAN_TXQ_STOP c) v.toNat = true) ∧
    (∃ (pid : Pid) (n : Fin 12) (run : Bool) (start : Fin 64) (s : State), s.accepts pid (LIN_SCHED_CTRL n) (withBits 0 13 8 (s.get (LIN_SCHED_CTRL_NEXT n)) + run.toNat * 2 ^ 31 + start.val) = true) ∧
    (∃ (pid : Pid) (n : Fin 12) (next : Fin 64) (s : State), s.accepts pid (LIN_SCHED_CTRL n) (withBits (withBits (s.reg (LIN_SCHED_CTRL n)) 30 30 1) 13 8 next.val) = true) ∧
    (∃ (pid : Pid) (n : Fin 12) (s : State), s.accepts pid (LIN_CH_CTRL n) 1 = true) ∧
    (∃ (pid : Pid) (n : Fin 12) (s : State), s.accepts pid (LIN_CH_CTRL n) 2 = true) ∧
    (∃ (c : Fin 16) (v : Nat) (u : Upd), ((u = txRequest c v ∨ u = txStopHook c v ∨ u = txqStopHook c v ∨ u = txqPush c ∨ (∃ old, u = canBoCfgHook c v old)))) :=
  ⟨⟨1, 15, 0xFFFFFFFF, State.reset, by decide⟩,
   ⟨1, 15, 0xFFFFFFFF, State.reset, by decide⟩,
   ⟨1, 15, State.reset, by decide⟩,
   ⟨1, 15, State.reset, by decide⟩,
   ⟨1, 65535, State.reset, by decide⟩,
   ⟨1, 15, true, 3, 63, State.reset, by decide⟩,
   ⟨1, 15, true, 0xFFFFFFFF, State.reset, by decide⟩,
   ⟨1, 15, State.reset, by decide⟩,
   ⟨1, 15, 0xFFFFFFFF, State.reset, by decide⟩,
   ⟨1, 11, true, 63, State.reset, by decide⟩,
   ⟨1, 11, 63, State.reset, by decide⟩,
   ⟨1, 11, State.reset, by decide⟩,
   ⟨1, 11, State.reset, by decide⟩,
   ⟨15, 5, (txqPush 15), .inr (.inr (.inr (.inl rfl)))⟩⟩

/-- The hypotheses of EthernetSwitchAndTimeWrites are met, clause by clause. -/
theorem witness_EthernetSwitchAndTimeWrites :
    (∃ (pid : Pid) (p : Fin 25) (step : Fin 256) (start : Fin 256) (s : State), s.accepts pid (ETP_TX_THR p) (step.val * 2 ^ 8 + start.val) = true) ∧
    (∃ (pid : Pid) (p : Fin 2) (q : Fin 8) (tail : Fin 4096) (s : State), s.accepts pid (ETP_QTX_TAIL (20 + p.val) 0 q) tail.val = true) ∧
    (∃ (pid : Pid) (p : Fin 2) (q : Fin 8) (tail : Fin 4096) (s : State), s.accepts pid (ETP_QRX_TAIL (20 + p.val) 0 q) tail.val = true) ∧
    (∃ (pid : Pid) (p : Fin 25) (e : Fin 20) (slot : Fin 512) (s : State), (p.val ≠ 18 ∧ p.val ≠ 19) ∧ s.accepts pid (ETP_SA_CTRL p 0 e) (2 ^ 31 + slot.val) = true) ∧
    (∃ (pid : Pid) (j : Fin 9) (v : Word) (s : State), s.accepts pid (if j.val = 8 then SWC_HASH_CFG else SWC_PMAP j) v.toNat = true) ∧
    (∃ (pid : Pid) (table : Fin 16) (index : Fin 65536) (s : State), s.accepts pid SWC_TBL_CMD (2 ^ 31 + 0 * 2 ^ 28 + table.val * 2 ^ 24 + index.val) = true) ∧
    (∃ (pid : Pid) (table : Fin 16) (index : Fin 65536) (hold : Bool) (s : State), s.accepts pid SWC_TBL_CMD (2 ^ 31 + hold.toNat * 2 ^ 30 + 1 * 2 ^ 28 + table.val * 2 ^ 24 + index.val) = true) ∧
    (∃ (pid : Pid) (table : Fin 16) (index : Fin 65536) (hold : Bool) (s : State), s.accepts pid SWC_TBL_CMD (2 ^ 31 + hold.toNat * 2 ^ 30 + 2 * 2 ^ 28 + table.val * 2 ^ 24 + index.val) = true) ∧
    (∃ (pid : Pid) (table : Fin 16) (index : Fin 65536) (s : State), s.accepts pid SWC_TBL_CMD (2 ^ 31 + 3 * 2 ^ 28 + table.val * 2 ^ 24 + index.val) = true) ∧
    (∃ (pid : Pid) (tmo : Fin 65536) (s : State), s.accepts pid SWC_DRAIN_CTRL (2 ^ 31 + tmo.val) = true) ∧
    (∃ (pid : Pid) (p : Fin 25) (s : State), (p.val ≠ 18 ∧ p.val ≠ 19) ∧ s.flag (SWC_GCL_STAT_PENDING p) = false ∧ s.accepts pid (SWC_GCL_CTRL p) 1 = true) ∧
    (∃ (pid : Pid) (v : Word) (s : State), s.accepts pid TMB_RATE v.toNat = true) ∧
    (∃ (pid : Pid) (v : Word) (s : State), s.accepts pid TMB_ADJ v.toNat = true) ∧
    (∃ (pid : Pid) (s : State), s.accepts pid TMB_STEP_CTRL 1 = true) ∧
    (∃ (pid : Pid) (s : State), s.accepts pid TMB_TS_POP 1 = true) ∧
    (∃ (pid : Pid) (port : Fin 32) (len : Fin 256) (s : State), s.accepts pid TMB_PTP_TX (2 ^ 31 + port.val * 2 ^ 24 + len.val) = true) ∧
    (∃ (pid : Pid) (ch : Fin 16) (s : State), s.accepts pid TMB_CAN_CAP (2 ^ 31 + ch.val * 2 ^ 16 + s.get TMB_CAN_CAP_AUTO_MS) = true) ∧
    (∃ (pid : Pid) (p : Fin 25) (e : Fin 20) (slot : Fin 512) (s : State), (p.val = 18 ∨ p.val = 19) ∧ s.accepts pid (ETP_SA_CTRL p 0 e) (2 ^ 31 + slot.val) = true) ∧
    (∃ (pid : Pid) (p : Fin 25) (s : State), (p.val = 18 ∨ p.val = 19 ∨ s.flag (SWC_GCL_STAT_PENDING p) = true) ∧ s.accepts pid (SWC_GCL_CTRL p) 1 = true) :=
  ⟨⟨1, 24, 255, 255, State.reset, by decide⟩,
   ⟨1, 1, 7, 4095, State.reset, by decide⟩,
   ⟨1, 1, 7, 4095, State.reset, by decide⟩,
   ⟨1, 24, 19, 511, State.reset, by decide⟩,
   ⟨1, 8, 0xFFFFFFFF, State.reset, by decide⟩,
   ⟨1, 15, 65535, State.reset, by decide⟩,
   ⟨1, 15, 65535, true, State.reset, by decide⟩,
   ⟨1, 15, 65535, true, State.reset, by decide⟩,
   ⟨1, 15, 65535, State.reset, by decide⟩,
   ⟨1, 65535, State.reset, by decide⟩,
   ⟨1, 24, st [set (SWC_GCL_STAT_PENDING 24) 0], by decide⟩,
   ⟨1, 0xFFFFFFFF, State.reset, by decide⟩,
   ⟨1, 0xFFFFFFFF, State.reset, by decide⟩,
   ⟨1, State.reset, by decide⟩,
   ⟨1, State.reset, by decide⟩,
   ⟨1, 31, 255, State.reset, by decide⟩,
   ⟨1, 15, State.reset, by decide⟩,
   ⟨1, 19, 19, 511, State.reset, by decide⟩,
   ⟨1, 19, State.reset, by decide⟩⟩

/-- The hypotheses of SignalRouterWrites are met, clause by clause. -/
theorem witness_SignalRouterWrites :
    (∃ (pid : Pid) (addr : Fin 2147483648) (s : State), s.accepts pid SRT_SIG_WR addr.val = true) ∧
    (∃ (pid : Pid) (addr : Fin 2147483648) (s : State), s.accepts pid SRT_SIG_RD_ADDR addr.val = true) ∧
    (∃ (pid : Pid) (i : Fin 64) (slot : Fin 512) (s : State), s.accepts pid (SRT_KEY i) (2 ^ 31 + slot.val) = true) ∧
    (∃ (pid : Pid) (s : State), s.accepts pid SRT_SHD_PUT 1 = true) ∧
    (∃ (pid : Pid) (s : State), s.accepts pid SRT_SHD_CLEAR 1 = true) ∧
    (∃ (pid : Pid) (s : State), s.accepts pid SRT_EPOCH (2 ^ 31) = true) ∧
    (∃ (pid : Pid) (tmo : Fin 65536) (s : State), s.accepts pid SRT_DRAIN_CTRL (2 ^ 31 + tmo.val) = true) ∧
    (∃ (pid : Pid) (start : Fin 33554432) (s : State), s.accepts pid SRT_RC_PRELOAD (2 ^ 31 + start.val) = true) ∧
    (∃ (pid : Pid) (s : State), s.accepts pid SRT_RC_INV 1 = true) ∧
    (∃ (pid : Pid) (gsid : Fin 33554432) (s : State), s.accepts pid SRT_RT_RD_GSID gsid.val = true) :=
  ⟨⟨1, 2147483647, State.reset, by decide⟩,
   ⟨1, 2147483647, State.reset, by decide⟩,
   ⟨1, 63, 511, State.reset, by decide⟩,
   ⟨1, State.reset, by decide⟩,
   ⟨1, State.reset, by decide⟩,
   ⟨1, State.reset, by decide⟩,
   ⟨1, 65535, State.reset, by decide⟩,
   ⟨1, 33554431, State.reset, by decide⟩,
   ⟨1, State.reset, by decide⟩,
   ⟨1, 33554431, State.reset, by decide⟩⟩

/-- The hypotheses of NetworkChainAndBridgeWrites are met, clause by clause. -/
theorem witness_NetworkChainAndBridgeWrites :
    (∃ (pid : Pid) (c : Fin 36) (on : Bool) (s : State), s.accepts pid (NMC_CH_REQ c) on.toNat = true) ∧
    (∃ (pid : Pid) (c : Fin 36) (s : State), s.accepts pid (NMC_CH_REQ c) (2 + s.get (NMC_CH_REQ_SW c)) = true) ∧
    (∃ (pid : Pid) (c : Fin 36) (on : Bool) (s : State), s.accepts pid (NMC_CH_SREQ c) on.toNat = true) ∧
    (∃ (pid : Pid) (c : Fin 36) (s : State), s.accepts pid (NMC_CH_IGN_CLR c) 1 = true) ∧
    (∃ (pid : Pid) (key : Fin 256) (s : State), s.accepts pid NMC_ISO_CTRL (key.val * 2 ^ 8 + 2) = true) ∧
    (∃ (pid : Pid) (key : Fin 256) (s : State), s.accepts pid NMC_ISO_CTRL (key.val * 2 ^ 8 + 1) = true) ∧
    (∃ (pid : Pid) (key : Fin 256) (s : State), s.accepts pid NMC_ISO_REL3 (key.val * 2 ^ 8 + 1) = true) ∧
    (∃ (pid : Pid) (s : State), s.accepts pid NMC_LOG_POP 1 = true) ∧
    (∃ (pid : Pid) (c : Fin 2) (s : State), s.accepts pid (FLK_LINK_CTRL c) 1 = true) ∧
    (∃ (pid : Pid) (s : State), s.accepts pid FLK_ENUM_CTRL 1 = true) ∧
    (∃ (pid : Pid) (i : Fin 64) (s : State), s.accepts pid (HBR_SEM i) (2 ^ 31) = true) ∧
    (∃ (pid : Pid) (i : Fin 64) (s : State), s.accepts pid (HBR_SEM i) (2 ^ 29) = true) :=
  ⟨⟨1, 35, true, State.reset, by decide⟩,
   ⟨1, 35, State.reset, by decide⟩,
   ⟨1, 35, true, State.reset, by decide⟩,
   ⟨1, 35, State.reset, by decide⟩,
   ⟨1, 255, State.reset, by decide⟩,
   ⟨1, 255, State.reset, by decide⟩,
   ⟨1, 255, State.reset, by decide⟩,
   ⟨1, State.reset, by decide⟩,
   ⟨1, 1, State.reset, by decide⟩,
   ⟨1, State.reset, by decide⟩,
   ⟨1, 63, State.reset, by decide⟩,
   ⟨1, 63, State.reset, by decide⟩⟩

/-- The hypotheses of FabricPowerGladeComplete are met, clause by clause. -/
theorem witness_FabricPowerGladeComplete :
    (∃ (q : FabReq) (s : State), deviceGuard q s = none) :=
  ⟨⟨60, 0x1000000, 0, 4, [], 0, 0, 0, false⟩, State.reset, by decide⟩


end Sys2Proof.Tests
end

section
/-!
The scope of the model: what a step leaves of a legal state, that registers and memory read back what was written, and that reserved
bits read 0 and take no writes.
-/
namespace Sys2Proof.Machine

/-! ## What a step can do -/

/-- Every command but FABRIC_REQUEST has one update as its meaning, and completes in every state. -/
theorem exec_eq_finish {c : Instr} (h : ∀ q, c ≠ .fabricRequest q) : ∃ u : Upd, ∀ s, exec c s = finish u s := by
  cases c with
  | fabricRequest q => exact absurd rfl (h q)
  | _ => exact ⟨_, fun _ => rfl⟩

theorem exec_fabricRequest_of_none {q : FabReq} {s : State} (h : deviceGuard q s = none) :
    exec (.fabricRequest q) s = finish (fabricRequest q) s := by
  simp only [exec, execFabricRequest, h]

theorem exec_fabricRequest_of_some {q : FabReq} {s : State} {a : Nat} (h : deviceGuard q s = some a) :
    exec (.fabricRequest q) s = .refused (.deviceWindow a) := by
  simp only [exec, execFabricRequest, h]

theorem finish_eq_next {u : Upd} {s t : State} (h : finish u s = .next t) : t = (Upd.seq u settle).run s :=
  (Host.Outcome.next.inj h).symm

/-- A next state that a command answers is the state after some update. -/
theorem exec_next {c : Instr} {s t : State} (h : exec c s = .next t) : ∃ u : Upd, t = u.run s := by
  by_cases hc : ∃ q, c = .fabricRequest q
  · obtain ⟨q, rfl⟩ := hc
    cases hg : deviceGuard q s with
    | none => exact ⟨_, finish_eq_next ((exec_fabricRequest_of_none hg).symm.trans h)⟩
    | some a => cases (exec_fabricRequest_of_some hg).symm.trans h
  · obtain ⟨u, hu⟩ := exec_eq_finish (c := c) fun q hq => hc ⟨q, hq⟩
    exact ⟨_, finish_eq_next ((hu s).symm.trans h)⟩

/-- A next state that a step answers is the state, its queue replaced, after some update. -/
theorem step_next {s t : State} (h : step s = .next t) : ∃ (u : Upd) (l : List Instr), t = u.run { s with pending := l } := by
  unfold step at h
  split at h
  next c rest _ =>
    obtain ⟨u, hu⟩ := exec_next h
    exact ⟨u, rest, hu⟩
  next => exact ⟨tick, s.pending, (Host.Outcome.next.inj h).symm⟩

/-! ## Legal states -/

/-- Every update keeps a legal state legal. -/
theorem State.legal.run {s : State} (h : s.legal) (u : Upd) : (u.run s).legal := by
  obtain ⟨hmem, hregs⟩ := h
  exact ⟨u.run_memory_wf hmem, u.run_regs_wf hregs⟩

/-- The queue of commands has no part in legality. -/
theorem State.legal.withPending {s : State} (h : s.legal) (l : List Instr) : ({ s with pending := l } : State).legal := h

theorem step_legal {s t : State} (hs : s.legal) (h : step s = .next t) : t.legal := by
  obtain ⟨u, l, rfl⟩ := step_next h
  exact (hs.withPending l).run u

theorem reset_legal : State.reset.legal := ⟨rfl, rfl⟩

theorem reset_settled : State.reset.settled := by
  unfold State.settled
  decide

/-! ## Numbers in memory -/

theorem length_leBytes (n v : Nat) : (leBytes n v).length = n := by
  induction n generalizing v with
  | zero => rfl
  | succ n ih => simp [leBytes, ih]

/-- The bytes of a number spell it, modulo their width. -/
theorem leValue_leBytes (n v : Nat) : leValue (leBytes n v) = v % 2 ^ (8 * n) := by
  induction n generalizing v with
  | zero => simp [leBytes, leValue, Nat.mod_one]
  | succ n ih =>
    calc leValue (leBytes (n + 1) v)
      _ = v % 256 + 256 * (v / 256 % 2 ^ (8 * n)) := by simp [leBytes, leValue, ih]
      _ = v % (256 * 2 ^ (8 * n)) := Nat.mod_mul.symm
      _ = v % 2 ^ (8 * (n + 1)) := by rw [show 8 * (n + 1) = 8 + 8 * n by omega, Nat.pow_add]

theorem bytes_storeBytes (a : Nat) (l : List Byte) (s : State) : ((storeBytes a l).run s).bytes a l.length = l :=
  List.ext_getElem (by simp [State.bytes]) fun i _ hi => by simp [State.bytes, byte_storeBytes a l s i hi]

/-- A number stored reads back modulo its width. -/
theorem load_store (a n v : Nat) (s : State) : ((store a n v).run s).load a n = v % 2 ^ (8 * n) := by
  have h := bytes_storeBytes a (leBytes n v) s
  rw [length_leBytes] at h
  rw [State.load, store, h, leValue_leBytes]

theorem byte_store_ne {a n c : Nat} (v : Nat) (s : State) (h : c < a ∨ a + n ≤ c) : ((store a n v).run s).byte c = s.byte c :=
  byte_storeBytes_ne a (leBytes n v) s c (by rwa [length_leBytes])

/-! ## Reserved bits of reset values (R5) -/

theorem testBit_foldl_or {α : Type} (g : α → Nat) (l : List α) (v i : Nat) :
    (l.foldl (fun m x => m ||| g x) v).testBit i = (v.testBit i || l.any fun x => (g x).testBit i) := by
  induction l generalizing v with
  | nil => simp
  | cons x l ih => simp [ih, Bool.or_assoc]

/-- The reset values that the register table gives a field are no wider than the field. -/
def FSpec.resetFits (f : FSpec) : Bool :=
  decide (f.rst < 2 ^ (f.hi - f.lo + 1)) &&
    f.cls.all fun ml => decide (ml.1 < 2 ^ (f.hi - f.lo + 1)) && decide (ml.2 < 2 ^ (f.hi - f.lo + 1))

theorem FSpec.resetOn_lt {f : FSpec} (h : f.resetFits = true) (c : Option Nat) : f.resetOn c < 2 ^ (f.hi - f.lo + 1) := by
  simp only [FSpec.resetFits, Bool.and_eq_true, decide_eq_true_eq, Option.all_eq_true] at h
  obtain ⟨hr, hc⟩ := h
  unfold FSpec.resetOn
  split
  next m l _ hcls =>
    obtain ⟨hm, hl⟩ := hc (m, l) hcls
    split
    · exact hr
    · split
      · exact hm
      · exact hl
  next => exact hr

/-- A bit of a field's reset value is a bit that the field defines. -/
theorem FSpec.testBit_reset {f : FSpec} (h : f.resetFits = true) {c : Option Nat} {i : Nat}
    (hi : (f.resetOn c <<< f.lo).testBit i = true) : ((2 ^ (f.hi - f.lo + 1) - 1) <<< f.lo).testBit i = true := by
  rw [Nat.testBit_shiftLeft, Bool.and_eq_true] at hi ⊢
  obtain ⟨hlo, hbit⟩ := hi
  refine ⟨hlo, ?_⟩
  rw [Nat.testBit_two_pow_sub_one, decide_eq_true_eq]
  refine Nat.lt_of_not_le fun hw => ?_
  have hlt : f.resetOn c < 2 ^ (i - f.lo) := Nat.lt_of_lt_of_le (f.resetOn_lt h c) (Nat.pow_le_pow_right (by decide) hw)
  rw [Nat.testBit_lt_two_pow hlt] at hbit
  cases hbit

/-- The bits that no field of a row defines are 0 in the reset value that its fields make up. -/
theorem Row.testBit_reset_of_reserved {r : Row} (h : r.fs.all FSpec.resetFits = true) (c : Option Nat) {i : Nat}
    (hi : r.mask.testBit i = false) : (r.fs.foldl (fun v (f : FSpec) => v ||| (f.resetOn c <<< f.lo)) 0).testBit i = false := by
  rw [List.all_eq_true] at h
  rw [Row.mask, testBit_foldl_or, Nat.zero_testBit, Bool.false_or, List.any_eq_false] at hi
  rw [testBit_foldl_or (fun f : FSpec => f.resetOn c <<< f.lo), Nat.zero_testBit, Bool.false_or, List.any_eq_false]
  exact fun f hf hbit => hi f hf (FSpec.testBit_reset (h f hf) hbit)

/-! ## The row of a located register -/

/-- The registers of unit `k`'s page below its cell pages, with the page header where it has one. -/
def pageRows (k : Nat) : List Row := (if k ≤ 27 then headerRows k else []) ++ unitRows k

/-- The registers of each of unit `k`'s cell pages. -/
def cellRows (k : Nat) : List Row := cellHeaderRows k ++ unitCellRows k

/-- The registers among which `l` stands. -/
def Loc.rows (l : Loc) : List Row := match l.cell with
  | none => pageRows l.unit
  | some _ => cellRows l.unit

theorem Loc.rows_mem (l : Loc) : l.rows ∈ [pageRows l.unit, cellRows l.unit] := by
  unfold Loc.rows
  cases l.cell <;> simp

theorem mem_of_rowAt {l : List Row} {o : Nat} {r : Row} (h : rowAt l o = some r) : r ∈ l := by
  induction l with
  | nil => cases h
  | cons x l ih =>
    rw [rowAt] at h
    split at h
    · cases h; exact List.mem_cons_self
    · exact List.mem_cons_of_mem _ (ih h)

/-- The units with a register page are the 34 numbers that `unitRows` knows. -/
theorem unitOf_lt {a k o : Nat} (h : unitOf a = some (k, o)) : k < 34 := by
  have hall : (unitOf a).all (fun e => decide (e.1 < 34)) = true := by
    simp only [unitOf]
    repeat' split
    all_goals simp only [Option.all_some, Option.all_none, decide_eq_true_eq]
    all_goals omega
  simpa only [h, Option.all_some, decide_eq_true_eq] using hall

/-- A located register is that of its row, on a page of one of the 34 units. -/
theorem locate_eq_some {a : Nat} {l : Loc} (h : locate a = some l) : l.unit < 34 ∧ rowAt l.rows l.off = some l.row := by
  unfold locate at h
  split at h
  · cases h
  split at h
  · cases h
  next k o hu =>
    dsimp only at h
    split at h
    · split at h
      · obtain ⟨r, hr, rfl⟩ := Option.map_eq_some_iff.mp h
        exact ⟨unitOf_lt hu, hr⟩
      · cases h
    · obtain ⟨r, hr, rfl⟩ := Option.map_eq_some_iff.mp h
      exact ⟨unitOf_lt hu, hr⟩

/-- No reset value of the register table is wider than its field. -/
theorem rows_resetFits : ((List.range 34).all fun k => [pageRows k, cellRows k].all fun rows => rows.all fun r =>
    r.fs.all FSpec.resetFits) = true := by decide

theorem locate_resetFits {a : Nat} {l : Loc} (h : locate a = some l) : l.row.fs.all FSpec.resetFits = true := by
  obtain ⟨hk, hr⟩ := locate_eq_some h
  have hunit := List.all_eq_true.mp rows_resetFits l.unit (List.mem_range.mpr hk)
  exact List.all_eq_true.mp (List.all_eq_true.mp hunit l.rows l.rows_mem) l.row (mem_of_rowAt hr)

/-! ## The reset values that differ from cell to cell -/

/-- The register at offset `o` among `rows`, where there is one, defines every bit of `v`. -/
def definesAt (rows : List Row) (o v : Nat) : Bool := (rowAt rows o).all fun r => v ||| r.mask == r.mask

theorem testBit_of_definesAt {rows : List Row} {o v i : Nat} {r : Row} (h : definesAt rows o v = true) (hr : rowAt rows o = some r)
    (hi : r.mask.testBit i = false) : v.testBit i = false := by
  have hor : v ||| r.mask = r.mask := by simpa [definesAt, hr] using h
  rw [← hor, Nat.testBit_or, Bool.or_eq_false_iff] at hi
  exact hi.1

/-- BLK_ID and BLK_CAP have no reserved bits (R69, R70). -/
theorem mask_blkIdCap {k o : Nat} (hk : k ≤ 27) (ho : o = 0 ∨ o = 4) {r : Row} (hr : rowAt (pageRows k) o = some r) :
    r.mask = 2 ^ 32 - 1 := by
  rw [pageRows, if_pos hk] at hr
  rcases ho with rfl | rfl
  · cases hr; rfl
  · cases hr; rfl

/-- ETP_PHY_CFG.ROLE is wide enough for the roles that it resets to (R441). -/
theorem definesAt_phyRole : ∀ v ∈ [0, 2], definesAt (cellRows 7) 0x24 v = true := by decide

/-- SWC_PORT_CFG, and whatever else stands among the same offsets, defines the bits of its two reset values (R467). -/
theorem definesAt_portCfg : ([pageRows 8, cellRows 8].all fun rows => (List.range 32).all fun i =>
    [0xE800000A, 0xC800000A].all fun v => definesAt rows (0x200 + 16 * i) v) = true := by decide

/-- IOM_IP_STAT.INST is wide enough for the number that it resets to (R633). -/
theorem definesAt_ipStat : ([pageRows 32, cellRows 32].all fun rows => definesAt rows 0x84 (2 ^ 8 - 1)) = true := by decide

section
variable {l : Loc} {i : Nat}

theorem testBit_false_of_blkIdCap (hr : rowAt l.rows l.off = some l.row) (hi : l.row.mask.testBit i = false) (h32 : i < 32)
    (hc : l.cell = none) (hk : l.unit ≤ 27) (ho : l.off = 0 ∨ l.off = 4) (v : Nat) : v.testBit i = false := by
  rw [Loc.rows, hc] at hr
  rw [mask_blkIdCap hk ho hr, Nat.testBit_two_pow_sub_one, decide_eq_false_iff_not] at hi
  exact absurd h32 hi

theorem phyRole_reserved (hr : rowAt l.rows l.off = some l.row) (hi : l.row.mask.testBit i = false) (hu : l.unit = 7)
    (ho : l.off = 0x24) {p : Nat} (hp : l.cell = some p) : ∀ v ∈ [0, 2], v.testBit i = false := by
  rw [Loc.rows, hp, hu, ho] at hr
  exact fun v hv => testBit_of_definesAt (definesAt_phyRole v hv) hr hi

theorem portCfg_reserved (hr : rowAt l.rows l.off = some l.row) (hi : l.row.mask.testBit i = false) (hu : l.unit = 8)
    (hlo : 0x200 ≤ l.off) (hhi : l.off < 0x400) (hmod : l.off % 16 = 0) : ∀ v ∈ [0xE800000A, 0xC800000A], v.testBit i = false := by
  intro v hv
  have hrows := l.rows_mem
  rw [hu] at hrows
  have hport := List.all_eq_true.mp (List.all_eq_true.mp definesAt_portCfg _ hrows) ((l.off - 0x200) / 16) (List.mem_range.mpr (by omega))
  rw [show 0x200 + 16 * ((l.off - 0x200) / 16) = l.off by omega] at hport
  exact testBit_of_definesAt (List.all_eq_true.mp hport v hv) hr hi

theorem ipStat_reserved (hr : rowAt l.rows l.off = some l.row) (hi : l.row.mask.testBit i = false) (hu : l.unit = 32)
    (ho : l.off = 0x84) {v : Nat} (hv : v < 2 ^ 8) : v.testBit i = false := by
  have hrows := l.rows_mem
  rw [hu] at hrows
  rw [ho] at hr
  have h8 := testBit_of_definesAt (List.all_eq_true.mp definesAt_ipStat _ hrows) hr hi
  rw [Nat.testBit_two_pow_sub_one, decide_eq_false_iff_not, Nat.not_lt] at h8
  exact Nat.testBit_lt_two_pow (Nat.lt_of_lt_of_le hv (Nat.pow_le_pow_right (by decide) h8))

/-- A special reset value is 0 in the bits that its register reserves. -/
theorem specialReset_reserved {a v : Nat} (h : locate a = some l) (hv : specialReset a l = some v) (h32 : i < 32)
    (hi : l.row.mask.testBit i = false) : v.testBit i = false := by
  obtain ⟨_, hr⟩ := locate_eq_some h
  simp only [specialReset] at hv
  split at hv
  next hid =>
    obtain ⟨hc, hk, ho⟩ := hid
    exact testBit_false_of_blkIdCap hr hi h32 hc hk (.inl ho) v
  split at hv
  next hcap =>
    obtain ⟨hc, hk, ho⟩ := hcap
    exact testBit_false_of_blkIdCap hr hi h32 hc hk (.inr ho) v
  split at hv
  next hrole =>
    obtain ⟨p, hp, rfl⟩ := Option.map_eq_some_iff.mp hv
    exact phyRole_reserved hr hi hrole.1 hrole.2 hp _ (by split <;> simp)
  split at hv
  next hcfg =>
    obtain ⟨hu, hlo, hhi, hmod⟩ := hcfg
    cases hv
    exact portCfg_reserved hr hi hu hlo hhi hmod _ (by split <;> simp)
  split at hv
  next hinst =>
    cases hv
    exact ipStat_reserved hr hi hinst.1 hinst.2 (by omega)
  next => cases hv

end

/-! ## Reserved bits of registers (R5) -/

theorem regReset_reserved {a i : Nat} (h32 : i < 32) (h : (regMask a).testBit i = false) : (regReset a).testBit i = false := by
  unfold regMask at h
  unfold regReset
  split
  next => exact Nat.zero_testBit i
  next l hl =>
    simp only [hl] at h
    split
    next v hv => exact specialReset_reserved hl hv h32 h
    next => exact Row.testBit_reset_of_reserved (locate_resetFits hl) l.cell h

theorem regDefault_reserved {a i : Nat} (h : (regMask a).testBit i = false) : (regDefault a).getLsbD i = false := by
  rw [regDefault, BitVec.getLsbD_ofNat]
  by_cases h32 : i < 32
  · simp [regReset_reserved h32 h]
  · simp [h32]

theorem maskReserved_getLsbD (a : Nat) (v : Word) (i : Nat) :
    (maskReserved a v).getLsbD i = if (regMask a).testBit i then v.getLsbD i else (regDefault a).getLsbD i := by
  by_cases h32 : i < 32
  · simp only [maskReserved, BitVec.getLsbD_or, BitVec.getLsbD_and, BitVec.getLsbD_not, BitVec.getLsbD_ofNat, h32, decide_true,
      Bool.true_and]
    cases (regMask a).testBit i <;> simp
  · simp [BitVec.getLsbD_of_ge _ i (Nat.le_of_not_lt h32)]

/-- What a key reads as is the map's default, or what the map lists for it. -/
theorem mapGet_default_or_mem {α : Type} (d : α) (m : List (Nat × α)) (a : Nat) : mapGet d m a = d ∨ (a, mapGet d m a) ∈ m := by
  induction m with
  | nil => exact .inl rfl
  | cons e t ih =>
    obtain ⟨k, v⟩ := e
    simp only [mapGet]
    split
    next hk => subst hk; exact .inr List.mem_cons_self
    next => exact ih.imp_right (List.mem_cons_of_mem _)

/-- A legal register differs from its reset value in no reserved bit. -/
theorem State.legal.getLsbD_reserved {s : State} (hs : s.legal) {a i : Nat} (h : (regMask a).testBit i = false) :
    (mapGet (regDefault a) s.regs a).getLsbD i = (regDefault a).getLsbD i := by
  rcases mapGet_default_or_mem (regDefault a) s.regs a with hd | hm
  · rw [hd]
  · obtain ⟨_, hregs⟩ := hs
    simp only [Regs.wf, Bool.and_eq_true, List.all_eq_true, beq_iff_eq] at hregs
    obtain ⟨_, heq⟩ := hregs.2 _ hm
    by_cases h32 : i < 32
    · simpa only [BitVec.getLsbD_and, BitVec.getLsbD_not, BitVec.getLsbD_ofNat, h, h32, decide_true, Bool.true_and, Bool.not_false,
        Bool.and_true] using congrArg (·.getLsbD i) heq
    · simp [BitVec.getLsbD_of_ge _ i (Nat.le_of_not_lt h32)]

theorem bitAt_eq_getLsbD (s : State) (a i : Nat) : s.bitAt a i = (mapGet (regDefault a) s.regs a).getLsbD i := by
  rw [← BitVec.testBit_toNat, Nat.testBit_eq_decide_div_mod_eq]
  rfl

/-- In a legal state a reserved bit reads 0. -/
theorem State.legal.bitAt_reserved {s : State} (hs : s.legal) {a i : Nat} (h : (regMask a).testBit i = false) : s.bitAt a i = false := by
  rw [bitAt_eq_getLsbD, hs.getLsbD_reserved h, regDefault_reserved h]

/-- What is written to reserved bits makes no difference. -/
theorem maskReserved_congr {a v w : Nat} (h : ∀ i, (regMask a).testBit i = true → v.testBit i = w.testBit i) :
    maskReserved a (BitVec.ofNat 32 v) = maskReserved a (BitVec.ofNat 32 w) := by
  apply BitVec.eq_of_getLsbD_eq
  intro i _
  rw [maskReserved_getLsbD, maskReserved_getLsbD]
  split
  next hm => rw [BitVec.getLsbD_ofNat, BitVec.getLsbD_ofNat, h i hm]
  next => rfl

theorem setReg_run_congr {a v w : Nat} (s : State) (h : ∀ i, (regMask a).testBit i = true → v.testBit i = w.testBit i) :
    (setReg a v).run s = (setReg a w).run s := by
  simp only [setReg, Upd.run_act, Act.run, maskReserved_congr h]

/-- A write leaves 0 in a reserved bit, whatever the state. -/
theorem bitAt_setReg_reserved {a i : Nat} (v : Nat) (s : State) (h : (regMask a).testBit i = false) :
    ((setReg a v).run s).bitAt a i = false := by
  rw [bitAt_eq_getLsbD, setReg, Upd.run_act, Act.reg_regs, mapGet_mapPut_same, maskReserved_getLsbD, h]
  exact regDefault_reserved h

end Sys2Proof.Machine

/-! ## The statements -/

open Sys2Proof Sys2Proof.Machine

/-- Settles O2: a step is an update after a change of the queue alone, and every update keeps both canonical forms. -/
theorem stepKeepsLegal : Obligations.StepKeepsLegal := fun _ _ hs h => step_legal hs h

/-- Settles O6: the register map's read-after-write laws, and that the bytes of a number spell it. -/
theorem readBack : Obligations.ReadBack :=
  ⟨fun _ v s hf => get_set_same hf v s,
   fun _ _ v s hf hg h => get_set_ne hf hg h v s,
   fun _ v _ s h => setReg_reg_ne v s h,
   load_store,
   fun _ _ v _ s h => byte_store_ne v s h⟩

/-- Settles O7: no reset value has a reserved bit set, and neither legal states nor writes differ from it there. -/
theorem reservedFields : Obligations.ReservedFields :=
  ⟨fun _ _ _ hs _ h => hs.bitAt_reserved h,
   fun _ _ _ s h => setReg_run_congr s h,
   fun _ _ v s h => bitAt_setReg_reserved v s h⟩

/-- Settles O3: the state after reset lists no register and no byte, so every one of them reads its reset value. -/
theorem resetIsLegal : Obligations.ResetIsLegal :=
  ⟨reset_legal, reset_settled, rfl, rfl, by decide, by decide, by decide, by decide⟩
end

section
/-!
The queue and what a step does with it: the command at the front runs with the queue's rest, and every command answers a next state but
for a fabric request into a window that the spec leaves to another standard.
-/
namespace Sys2Proof.Machine

/-! ## One step -/

theorem step_of_cons {c : Instr} {l : List Instr} {s : State} (h : s.pending = c :: l) : step s = exec c { s with pending := l } := by
  simp only [step, h]

theorem step_of_nil {s : State} (h : s.pending = []) : step s = .next (tick.run s) := by
  simp only [step, h]

theorem tick_now (s : State) : (tick.run s).now = s.now + 1 := by
  simp only [tick, Upd.run_read]
  split <;> rfl

theorem tick_untouched (s : State) : Untouched (fun _ => false) s (tick.run s) := by
  simp only [tick, Upd.run_read]
  split
  · exact ⟨fun _ => rfl, fun _ _ => rfl⟩
  · exact ⟨fun _ => rfl, fun _ _ => rfl⟩

theorem exec_pending {c : Instr} {s t : State} (h : exec c s = .next t) : t.pending = s.pending := by
  obtain ⟨u, rfl⟩ := exec_next h
  exact u.run_pending s

theorem step_pending_of_cons {c : Instr} {l : List Instr} {s t : State} (hs : s.pending = c :: l) (h : step s = .next t) : t.pending = l :=
  exec_pending ((step_of_cons hs).symm.trans h)

theorem step_pending {s t : State} (h : step s = .next t) : t.pending = s.pending.drop 1 := by
  cases hs : s.pending with
  | nil =>
    cases (step_of_nil hs).symm.trans h
    rw [Upd.run_pending, hs]
    rfl
  | cons c l => exact step_pending_of_cons hs h

/-! ## The outcomes of a command -/

/-- A command answers a next state, or it is a fabric request that leads into a device's window and is refused with the address. -/
theorem exec_outcome (c : Instr) (s : State) : (∃ t, exec c s = .next t) ∨
    ∃ q a, c = .fabricRequest q ∧ deviceGuard q s = some a ∧ exec c s = .refused (.deviceWindow a) := by
  by_cases hc : ∃ q, c = .fabricRequest q
  · obtain ⟨q, rfl⟩ := hc
    cases hg : deviceGuard q s with
    | none => exact .inl ⟨_, exec_fabricRequest_of_none hg⟩
    | some a => exact .inr ⟨q, a, rfl, hg, exec_fabricRequest_of_some hg⟩
  · obtain ⟨u, hu⟩ := exec_eq_finish (c := c) fun q hq => hc ⟨q, hq⟩
    exact .inl ⟨_, hu s⟩

theorem exec_ne_fault (c : Instr) (s : State) (f : Fault) : exec c s ≠ .fault f := by
  rcases exec_outcome c s with ⟨t, h⟩ | ⟨q, a, _, _, h⟩ <;> simp [h]

theorem exec_next_of_ne_fabricRequest {c : Instr} (s : State) (hc : ∀ q, c ≠ .fabricRequest q) : ∃ t, exec c s = .next t :=
  (exec_outcome c s).resolve_right fun ⟨q, _, h, _⟩ => hc q h

theorem exec_fabricRequest_next_iff (q : FabReq) (s : State) : (∃ t, exec (.fabricRequest q) s = .next t) ↔ deviceGuard q s = none := by
  constructor
  · rintro ⟨t, ht⟩
    cases hg : deviceGuard q s with
    | none => rfl
    | some a => cases (exec_fabricRequest_of_some hg).symm.trans ht
  · exact fun hg => ⟨_, exec_fabricRequest_of_none hg⟩

theorem exec_refused {c : Instr} {s : State} {r : Refusal} (h : exec c s = .refused r) :
    ∃ q a, c = .fabricRequest q ∧ r = .deviceWindow a ∧ deviceGuard q s = some a := by
  rcases exec_outcome c s with ⟨t, ht⟩ | ⟨q, a, hc, hg, hr⟩
  · cases ht.symm.trans h
  · cases hr.symm.trans h
    exact ⟨q, a, hc, rfl, hg⟩

theorem completes_fabricRequest {q : FabReq} {s : State} (h : deviceGuard q s = none) :
    Completes (.fabricRequest q) s ((fabricRequest q).run s) := completes_of_finish (exec_fabricRequest_of_none h)

end Sys2Proof.Machine

open Sys2Proof Sys2Proof.Machine

/-- Settles O1: the step's two equations, on a queue with a front command and on an empty one. -/
theorem stepRunsFront : Obligations.StepRunsFront :=
  ⟨fun _ _ _ h => step_of_cons h, fun _ _ _ => rfl,
   fun s h => ⟨tick.run s, step_of_nil h, (tick.run_pending s).trans h, tick_now s, tick_untouched s⟩⟩

/-- Settles O4: a command's next state is the state after an update, and no update touches the queue. -/
theorem queueIsFifo : Obligations.QueueIsFifo :=
  ⟨fun _ _ _ h => exec_pending h, fun _ _ _ _ hs h => step_pending_of_cons hs h, fun _ _ h => step_pending h⟩

/-- Settles O5: every outcome is a next state or the refusal of a fabric request by its guard. -/
theorem everyCommandCompletes : Obligations.EveryCommandCompletes :=
  ⟨exec_ne_fault, fun _ s hc => exec_next_of_ne_fabricRequest s hc, exec_fabricRequest_next_iff,
   fun _ _ _ hg => exec_fabricRequest_of_some hg, fun _ _ _ h => exec_refused h⟩

/-- Settles O56: FABRIC_REQUEST completes where its guard finds no device window, and each other command's meaning is its operation
finished. -/
theorem fabricPowerGladeComplete : Obligations.FabricPowerGladeComplete := by
  refine ⟨fun q s h => completes_fabricRequest h, ?_⟩
  and_intros <;> intros <;> exact completes_of_finish rfl

/-- Settles O60: each command's meaning is its operation finished. -/
theorem migrationUpdateComplete : Obligations.MigrationUpdateComplete := by
  unfold Obligations.MigrationUpdateComplete
  and_intros <;> intros <;> exact completes_of_finish rfl
end

section
/-!
Footprints: the registers that an update may write. An update within a footprint leaves memory and every other register alone.
-/
namespace Sys2Proof.Machine

/-! ## Untouched parts of the state -/

section
variable {p q : Nat → Bool} {s t u : State}

theorem Untouched.refl (p : Nat → Bool) (s : State) : Untouched p s s := ⟨fun _ => rfl, fun _ _ => rfl⟩

theorem Untouched.trans (h : Untouched p s t) (h' : Untouched p t u) : Untouched p s u := by
  obtain ⟨hmem, hregs⟩ := h
  obtain ⟨hmem', hregs'⟩ := h'
  exact ⟨fun a => (hmem' a).trans (hmem a), fun a ha => (hregs' a ha).trans (hregs a ha)⟩

theorem Untouched.mono (h : Untouched p s t) (hpq : ∀ a, p a = true → q a = true) : Untouched q s t := by
  obtain ⟨hmem, hregs⟩ := h
  refine ⟨hmem, fun a ha => hregs a ?_⟩
  rw [Bool.eq_false_iff] at ha ⊢
  exact mt (hpq a) ha

theorem Untouched.reg_eq (h : Untouched p s t) {a : Nat} (ha : p a = false) : t.reg a = s.reg a := h.2 a ha

theorem Untouched.flag_eq (h : Untouched p s t) {f : Fld} (hf : p f.reg = false) : t.flag f = s.flag f := by
  simp only [State.flag, State.get, h.reg_eq hf]

theorem untouched_of_regs_mem (hr : t.regs = s.regs) (hm : t.mem = s.mem) : Untouched p s t :=
  ⟨fun a => by simp only [State.byte, hm], fun a _ => by simp only [State.reg, hr]⟩

end

/-! ## Updates within a footprint -/

/-- Whatever the state, the update writes no memory and no register outside those that `p` names. -/
def Within (p : Nat → Bool) (u : Upd) : Prop := ∀ s, Untouched p s (u.run s)

section
variable {p q : Nat → Bool}

theorem Within.mono {u : Upd} (h : Within p u) (hpq : ∀ a, p a = true → q a = true) : Within q u := fun s => (h s).mono hpq

/-- Each update of a list is within the footprint `p`; for a list written out, the conjunction of its members' statements. -/
def AllWithin (p : Nat → Bool) : List Upd → Prop
  | [] => True
  | [u] => Within p u
  | u :: l => Within p u ∧ AllWithin p l

theorem allWithin_cons {u : Upd} {l : List Upd} : AllWithin p (u :: l) ↔ Within p u ∧ AllWithin p l := by
  cases l with
  | nil => exact ⟨fun h => ⟨h, trivial⟩, fun h => h.1⟩
  | cons v l => exact Iff.rfl

theorem within_skip : Within p .skip := Untouched.refl p

theorem within_seq {u v : Upd} (hu : Within p u) (hv : Within p v) : Within p (.seq u v) := fun s => (hu s).trans (hv _)

theorem within_read {k : State → Upd} (h : ∀ s, Within p (k s)) : Within p (.read k) := fun s => h s s

theorem within_seqs {l : List Upd} (h : AllWithin p l) : Within p (seqs l) := by
  induction l with
  | nil => exact within_skip
  | cons u l ih =>
    obtain ⟨hu, hl⟩ := allWithin_cons.mp h
    exact within_seq hu (ih hl)

theorem within_whenU {c : Bool} {u : Upd} (h : Within p u) : Within p (whenU c u) := by
  cases c
  · exact within_skip
  · exact h

theorem within_ite {c : Prop} [Decidable c] {u v : Upd} (hu : Within p u) (hv : Within p v) : Within p (if c then u else v) := by
  split
  · exact hu
  · exact hv

theorem within_forEach {α : Type} {l : List α} {f : α → Upd} (h : ∀ x ∈ l, Within p (f x)) : Within p (forEach l f) := by
  induction l with
  | nil => exact within_skip
  | cons x l ih => exact within_seq (h x List.mem_cons_self) (ih fun y hy => h y (List.mem_cons_of_mem x hy))

theorem within_forN {n : Nat} {f : Nat → Upd} (h : ∀ i, i < n → Within p (f i)) : Within p (forN n f) :=
  within_forEach fun i hi => h i (List.mem_range.mp hi)

theorem within_upd (f : Blocks → Blocks) : Within p (upd f) := fun _ => untouched_of_regs_mem rfl rfl

theorem within_setReg {a v : Nat} (h : p a = true) : Within p (setReg a v) := by
  refine fun s => ⟨fun _ => rfl, fun c hc => setReg_reg_ne v s ?_⟩
  rintro rfl
  rw [h] at hc
  cases hc

theorem within_set {f : Fld} {v : Nat} (h : p f.reg = true) : Within p (set f v) := within_read fun _ => within_setReg h
theorem within_setBit {a i : Nat} (h : p a = true) : Within p (setBit a i) := within_read fun _ => within_setReg h
theorem within_clrBit {a i : Nat} (h : p a = true) : Within p (clrBit a i) := within_read fun _ => within_setReg h
theorem within_putBit {a i : Nat} {b : Bool} (h : p a = true) : Within p (putBit a i b) := within_read fun _ => within_setReg h
theorem within_inc {f : Fld} {n : Nat} (h : p f.reg = true) : Within p (inc f n) := within_read fun _ => within_set h
theorem within_count {a n : Nat} (h : p a = true) : Within p (count a n) := within_inc h

theorem within_free {k : Nat → Upd} (h : ∀ v, Within p (k v)) : Within p (free k) :=
  within_read fun _ => within_seq (within_upd _) (h _)

theorem within_rounded {num den : Nat} {k : Nat → Upd} (h : ∀ v, Within p (k v)) : Within p (rounded num den k) :=
  within_ite (h _) (within_free fun _ => h _)

end

end Sys2Proof.Machine
end

section
/-!
The safe state (R66, R271): what the entry into it writes, and that an isolation of region C or P is this entry.
-/
namespace Sys2Proof.Machine

/-! ## Footprints of the load channels' operations -/

theorem lswPages_cell {g o : Nat} (hg : g < 64) (ho : o < 256) : lswPages (lswCell g + o) = true := by
  rw [lswCell_eq hg]
  simp only [lswPages, Bool.and_eq_true, decide_eq_true_eq]
  omega

theorem lswPages_die {d o : Nat} (hd : d < 4) (ho : o < 0x10000) : lswPages (unitBase (16 + d) + o) = true := by
  rw [unitBase_lsw d (by omega)]
  simp only [lswPages, Bool.and_eq_true, decide_eq_true_eq]
  omega

section
variable {l : Nat} (hl : l < 64)
include hl

theorem lswPages_ownDie {o : Nat} (ho : o < 0x10000) : lswPages (unitBase (16 + l / 16) + o) = true := lswPages_die (by omega) ho

theorem members_lt {s : State} {x : Nat} (h : x ∈ s.members l) : x < 64 := by
  rcases mem_members h with rfl | ⟨rfl, _⟩ <;> omega

theorem within_raiseCh (i : Nat) : Within lswPages (raiseCh l i) :=
  within_seq (within_setBit (lswPages_ownDie hl (by decide))) (within_setBit (lswPages_cell hl (by decide)))

theorem within_testAbandon : Within lswPages (testAbandon l) :=
  within_read fun _ => within_whenU (within_seqs ⟨within_upd _, within_set (lswPages_cell hl (by decide)),
    within_set (lswPages_cell hl (by decide)), within_inc (lswPages_ownDie hl (by decide)), within_inc (lswPages_cell hl (by decide)),
    within_clrBit (lswPages_ownDie hl (by decide))⟩)

theorem within_compUpdate : Within lswPages (compUpdate l) :=
  within_read fun _ => within_seqs ⟨within_upd _, within_whenU (within_raiseCh hl 20), within_set (lswPages_cell hl (by decide))⟩

theorem within_showCh : Within lswPages (showCh l) :=
  within_read fun _ => within_seqs ⟨within_setReg (lswPages_cell hl (by decide)), within_set (lswPages_cell hl (by decide)),
    within_set (lswPages_cell hl (by decide)), within_putBit (lswPages_cell hl (by decide)), within_putBit (lswPages_ownDie hl (by decide)),
    within_putBit (lswPages_ownDie hl (by decide)), within_putBit (lswPages_ownDie hl (by decide))⟩

theorem within_showLoad : Within lswPages (showLoad l) :=
  within_read fun _ => within_forEach fun _ hx => within_showCh (members_lt hl hx)

theorem within_predict {i0 : Nat} {k : Bool → Upd} (h : ∀ b, Within lswPages (k b)) : Within lswPages (predict l i0 k) :=
  within_read fun _ => within_ite
    (within_free fun _ => within_seqs ⟨within_set (lswPages_cell hl (by decide)), h _⟩)
    (within_rounded fun _ => within_seq (within_set (lswPages_cell hl (by decide))) (h _))

theorem within_beginRamp (b : Bool) : Within lswPages (beginRamp l b) :=
  within_seqs ⟨within_upd _, within_inc (lswPages_ownDie hl (by decide)), within_whenU (within_raiseCh hl 11)⟩

theorem within_turnOff (how : How) (trip : Bool) : Within lswPages (turnOff l how trip) := by
  refine within_read fun s => ?_
  dsimp only
  split
  · exact within_upd _
  · exact within_predict hl fun _ => within_seqs ⟨within_upd _, within_ite (within_beginRamp hl _) (within_upd _),
      within_forEach fun _ hx => within_set (lswPages_cell (members_lt hl hx) (by decide)), within_set (lswPages_cell hl (by decide))⟩
  · exact within_seqs ⟨within_upd _, within_whenU (within_upd _)⟩

theorem within_turnOn : Within lswPages (turnOn l) :=
  within_read fun _ => within_ite (within_upd _) (within_seqs ⟨within_testAbandon hl, within_upd _,
    within_forEach fun _ _ => within_whenU (within_upd _), within_compUpdate hl, within_set (lswPages_cell hl (by decide))⟩)

theorem within_enterSafe : Within lswPages (enterSafe l) := by
  refine within_read fun s => within_whenU (within_seqs ⟨within_upd _, ?_, within_showLoad hl⟩)
  split
  · exact within_whenU (within_seqs ⟨within_whenU (within_read fun _ => within_upd _), within_upd _,
      within_ite (within_turnOn hl) (within_ite (within_compUpdate hl) (within_upd _))⟩)
  · exact within_skip
  · exact within_turnOff hl _ _

end

/-! ## Footprint of the gateway isolation -/

/-- The registers of NMC and SWC that a gateway isolation may write (R555). -/
def isolationFoot (a : Nat) : Bool := onPage 15 a || onPage 8 a

theorem within_showLog : Within isolationFoot showLog := by
  refine within_read fun _ => within_seqs ⟨within_set (by decide), within_forN fun i hi => within_setReg ?_⟩
  have h : ∀ i < 4, isolationFoot (NMC_LOG_HEAD i) = true := by decide
  exact h i hi

theorem within_logAdd (kind ch low w1 : Nat) : Within isolationFoot (logAdd kind ch low w1) :=
  within_read fun _ => within_ite (within_seq (within_set (by decide)) (within_setBit (by decide)))
    (within_seq (within_upd _) within_showLog)

theorem within_isolate (on : Bool) (cause : Nat) : Within isolationFoot (isolate on cause) :=
  within_read fun _ => within_seqs ⟨within_set (by decide), within_set (by decide), within_set (by decide), within_set (by decide),
    within_whenU (within_seq (within_setBit (by decide)) (within_logAdd _ _ _ _))⟩

/-! ## The entry into the safe state -/

/-- What the entry into the safe state may write beside MSU_FAULT_STAT: MSU_SAFE_STAT, the load-switch dice, the gateway's isolation. -/
def safeFoot (a : Nat) : Bool := a == MSU_SAFE_STAT || lswPages a || isolationFoot a

theorem loads_lt {s : State} {l : Nat} (h : l ∈ s.loads) : l < 64 := List.mem_range.mp (List.mem_filter.mp h).1

theorem enterModuleSafe_of_safe {src : Nat} {s : State} (h : s.moduleSafe = true) : (enterModuleSafe src).run s = assertFaultN.run s := by
  simp only [enterModuleSafe, Upd.run_read, h, Bool.not_true, whenU_false, seqs_cons_run, seqs_nil_run, Upd.run_skip]

/-- What the entry does once SAFE shows: the loads and dice take their safe states and the gateway is isolated. -/
def takeSafeStates (src : Nat) (s : State) : Upd := seqs [
  set MSU_SAFE_STAT_CAUSE_SRC src, forEach s.loads fun l => .seq (testAbandon l) (enterSafe l),
  forN 4 fun d => set (LSW_DIE_STAT_SAFE_LINE d) 1, isolate true 2]

theorem within_takeSafeStates (src : Nat) (s : State) : Within safeFoot (takeSafeStates src s) := by
  have hlsw : ∀ a, lswPages a = true → safeFoot a = true := fun a ha => by simp only [safeFoot, ha, Bool.or_true, Bool.true_or]
  have hiso : ∀ a, isolationFoot a = true → safeFoot a = true := fun a ha => by simp only [safeFoot, ha, Bool.or_true]
  exact within_seqs ⟨within_set (by decide),
    within_forEach fun _ hl => (within_seq (within_testAbandon (loads_lt hl)) (within_enterSafe (loads_lt hl))).mono hlsw,
    (within_forN fun _ hd => within_set (lswPages_die hd (by decide))).mono hlsw, (within_isolate _ _).mono hiso⟩

theorem enterModuleSafe_of_unsafe {src : Nat} {s : State} (h : s.moduleSafe = false) :
    (enterModuleSafe src).run s = (takeSafeStates src s).run ((set MSU_FAULT_STAT_SAFE 1).run (assertFaultN.run s)) := by
  simp only [enterModuleSafe, takeSafeStates, Upd.run_read, h, Bool.not_false, whenU_true, seqs_cons_run, seqs_nil_run]

theorem within_assertFaultN : Within (· == MSU_FAULT_STAT) assertFaultN := within_read fun _ => within_whenU (within_set (by decide))

theorem assertFaultN_faultN {s : State} (h : s.pwr ≤ 1) : (assertFaultN.run s).flag MSU_FAULT_STAT_FAULT_N = true := by
  simp only [assertFaultN, Upd.run_read, h, decide_true, whenU_true]
  rw [flag_set_same (by decide)]
  rfl

theorem assertFaultN_moduleSafe (s : State) : (assertFaultN.run s).moduleSafe = s.moduleSafe := by
  simp only [assertFaultN, Upd.run_read]
  cases decide (s.pwr ≤ 1)
  · rfl
  · simp only [whenU_true, State.moduleSafe, State.flag]
    rw [get_set_ne (by decide) (by decide) (by decide)]

theorem enterModuleSafe_moduleSafe (src : Nat) (s : State) : ((enterModuleSafe src).run s).moduleSafe = true := by
  cases h : s.moduleSafe with
  | true => rw [enterModuleSafe_of_safe h, assertFaultN_moduleSafe, h]
  | false =>
    rw [enterModuleSafe_of_unsafe h, State.moduleSafe, (within_takeSafeStates src s _).flag_eq (by decide), flag_set_same (by decide)]
    rfl

theorem enterModuleSafe_faultN (src : Nat) {s : State} (hp : s.pwr ≤ 1) :
    ((enterModuleSafe src).run s).flag MSU_FAULT_STAT_FAULT_N = true := by
  cases h : s.moduleSafe with
  | true => rw [enterModuleSafe_of_safe h, assertFaultN_faultN hp]
  | false =>
    rw [enterModuleSafe_of_unsafe h, (within_takeSafeStates src s _).flag_eq (by decide), State.flag,
      get_set_ne (by decide) (by decide) (by decide)]
    exact assertFaultN_faultN hp

theorem within_enterModuleSafe (src : Nat) : Within (fun a => a == MSU_FAULT_STAT || safeFoot a) (enterModuleSafe src) := by
  intro s
  have hassert := (within_assertFaultN s).mono fun a ha => show (a == MSU_FAULT_STAT || safeFoot a) = true by rw [ha, Bool.true_or]
  cases h : s.moduleSafe with
  | true =>
    rw [enterModuleSafe_of_safe h]
    exact hassert
  | false =>
    rw [enterModuleSafe_of_unsafe h]
    exact (hassert.trans (within_set (by decide) _)).trans ((within_takeSafeStates src s _).mono fun a ha => by rw [ha, Bool.or_true])

/-! ## The reactions of regions C and P -/

theorem regionIsolate_run_of_cp {r : Nat} (h : r = 0 ∨ r = 2) (src : Nat) (s : State) :
    (regionIsolate r src).run s = (enterModuleSafe src).run s := by
  simp only [regionIsolate, Upd.run_read, if_pos h]

theorem forEach_run_of_skip {α : Type} {l : List α} {f : α → Upd} (h : ∀ y ∈ l, f y = .skip) (s : State) : (forEach l f).run s = s := by
  induction l with
  | nil => rfl
  | cons y l ih =>
    rw [forEach_cons_run, h y List.mem_cons_self, Upd.run_skip]
    exact ih fun z hz => h z (List.mem_cons_of_mem y hz)

/-- Updates that do nothing but for one of them run as that one. -/
theorem forEach_run_single {α : Type} {l : List α} {f : α → Upd} {x : α} (hl : l.Nodup) (hx : x ∈ l)
    (h : ∀ y, y ≠ x → f y = .skip) (s : State) : (forEach l f).run s = (f x).run s := by
  induction l generalizing s with
  | nil => cases hx
  | cons y l ih =>
    obtain ⟨hy, hl⟩ := List.nodup_cons.mp hl
    rw [forEach_cons_run]
    by_cases hyx : y = x
    · subst hyx
      exact forEach_run_of_skip (fun z hz => h z fun hzy => hy (hzy ▸ hz)) _
    · rw [h y hyx, Upd.run_skip]
      exact ih hl ((List.mem_cons.mp hx).resolve_left (Ne.symm hyx)) s

theorem topDue_single (d : Due) (k : Nat) (h : 0 < d.effect) : topDue [d] k = if d.unit = k then (d.effect, d.src) else (0, 0) := by
  by_cases hk : d.unit = k <;> simp [topDue, hk, h]

/-- A single due reaction of a block with the effect of a region's isolation. -/
theorem dueWork_run_isolation {d : Due} {s : State} (hdue : s.b.fab.due = [d]) (heff : d.effect = 5) (hcell : d.cell = none)
    (hcls : d.cls < 3) (hunit : d.unit < 30) :
    dueWork.run s = (regionIsolate (regionOfUnit d.unit) d.src).run ((updFab fun f => { f with due := [] }).run s) := by
  have hft : (d.cls == FT) = false := beq_false_of_ne (Nat.ne_of_lt hcls)
  have hret : d.retires = none := by simp only [Due.retires, hcell]
  simp only [dueWork, Upd.run_read, hdue, List.isEmpty_cons, Bool.not_false, whenU_true, Upd.run_seq, List.any_cons, List.any_nil,
    heff, hft, Bool.false_and, Bool.or_false, Bool.and_false, whenU_false, seqs_cons_run, seqs_nil_run, Upd.run_skip, forEach_cons_run,
    forEach_nil_run, hret, Nat.reduceBEq, Bool.false_eq_true, if_false, forN]
  rw [forEach_run_single (x := d.unit) List.nodup_range (List.mem_range.mpr hunit)]
  · simp only [topDue_single d d.unit (by omega), if_pos, heff]
  · intro k hk
    simp only [topDue_single d k (by omega), if_neg (Ne.symm hk)]

end Sys2Proof.Machine

open Sys2Proof Sys2Proof.Machine

/-- Settles O8: the entry into the safe state writes neither region's BLK_CTRL, and a due isolation of region C or P is this entry. -/
theorem isolationOfCAndP : Obligations.IsolationOfCAndP := by
  refine ⟨fun r src s h => regionIsolate_run_of_cp h src s, fun src s => ?_, fun d s hdue heff hcell hcls hunit hr => ?_⟩
  · exact ⟨enterModuleSafe_moduleSafe src s, enterModuleSafe_faultN src, (within_enterModuleSafe src s).flag_eq (by decide),
      (within_enterModuleSafe src s).flag_eq (by decide)⟩
  · rw [dueWork_run_isolation hdue heff hcell hcls hunit, regionIsolate_run_of_cp hr]
end

section
/-!
Requests at the fabric (R44 to R65, R82): what each stage of a request does, and the footprints of refusals and faults.
-/
namespace Sys2Proof.Machine

/-! ## Whole registers -/

theorem reg_lt (s : State) (a : Nat) : s.reg a < 2 ^ 32 := (mapGet (regDefault a) s.regs a).isLt

theorem get_whole (s : State) (a : Nat) : s.get (whole a) = s.reg a := by
  have h := reg_lt s a
  simp only [State.get, bits]
  omega

/-- A register without reserved bits reads as what was written to it. -/
theorem reg_setReg_same {a : Nat} (h : regMask a = 2 ^ 32 - 1) (v : Nat) (s : State) : ((setReg a v).run s).reg a = v % 2 ^ 32 := by
  have hmask : BitVec.ofNat 32 (regMask a) = BitVec.allOnes 32 := by rw [h]; rfl
  simp only [setReg, Upd.run_act, reg_act_same, maskReserved, hmask, BitVec.and_allOnes, BitVec.not_allOnes, BitVec.and_zero,
    BitVec.or_zero, BitVec.toNat_ofNat]

/-- A saturating counter goes up by one and stays at its largest value. -/
theorem reg_count_same {a : Nat} (h : (whole a).fits = true) (s : State) :
    ((count a).run s).reg a = min (2 ^ 32 - 1) (s.reg a + 1) := by
  rw [← get_whole, count, get_inc_same h, get_whole]
  rfl

theorem count_reg_ne {a c : Nat} (s : State) (h : a ≠ c) : ((count a).run s).reg c = s.reg c := set_reg_ne _ s h

/-! ## Footprints of faults and refusals -/

theorem onPage_unitBase (k : Nat) {o : Nat} (ho : o < 0x10000) : onPage k (unitBase k + o) = true := by
  simp only [onPage, Bool.and_eq_true, decide_eq_true_eq]
  omega

theorem faultRegs_fcuPend {i : Nat} (h : i < 16) : faultRegs (MSU_FCU_PEND i) = true := by
  have hi : ∀ i < 16, faultRegs (MSU_FCU_PEND i) = true := by decide
  exact hi i h

theorem within_fcuPend {src : Nat} (h : src < 512) (cls : Nat) : Within faultRegs (fcuPend src cls) :=
  within_read fun _ => within_seqs ⟨within_setBit (faultRegs_fcuPend (by omega)), within_setBit (by decide), within_set (by decide),
    within_set (by decide), within_whenU (within_seq (within_set (by decide)) (within_set (by decide)))⟩

/-- What a fault of unit `k` that names no cell may write: the fault registers of the MSU, BLK_ERR_STAT, BLK_ERR_CNT (R260). -/
def reportFoot (k a : Nat) : Bool := faultRegs a || a == BLK_ERR_STAT k || a == BLK_ERR_CNT k

theorem within_report_block {k cls : Nat} (hk : k ≤ 27) (hc : cls < 16) : Within (reportFoot k) (report k none cls) := by
  have hfcu : ∀ a, faultRegs a = true → reportFoot k a = true := fun a ha => by simp only [reportFoot, ha, Bool.true_or]
  have hstat : reportFoot k (BLK_ERR_STAT k) = true := by simp only [reportFoot, beq_self_eq_true, Bool.or_true, Bool.true_or]
  have hcnt : reportFoot k (BLK_ERR_CNT k) = true := by simp only [reportFoot, beq_self_eq_true, Bool.or_true]
  have hpend : Within (reportFoot k) (fcuPend (16 * k + cls) cls) := (within_fcuPend (by omega) _).mono hfcu
  exact within_read fun _ => within_read fun _ => within_seqs ⟨within_skip,
    within_whenU (within_seq (within_setBit hstat) (within_inc hcnt)),
    within_whenU (within_seqs ⟨within_skip, hpend, within_set (hfcu _ (by decide))⟩), within_upd _⟩

/-- The registers where a refusal is recorded and reported: a region's page or the MSU's, and the fault registers (R63). -/
def refusalFoot (a : Nat) : Bool := faultRegs a || onPage 23 a || onPage 24 a || onPage 25 a || onPage 26 a || onPage 27 a

theorem refusalFoot_of_onPage {k a : Nat} (hk : 23 ≤ k ∧ k ≤ 27) (h : onPage k a = true) : refusalFoot a = true := by
  have hcases : k = 23 ∨ k = 24 ∨ k = 25 ∨ k = 26 ∨ k = 27 := by omega
  rcases hcases with rfl | rfl | rfl | rfl | rfl <;> simp only [refusalFoot, h, Bool.or_true, Bool.true_or]

theorem refusalFoot_unitBase {k o : Nat} (hk : 23 ≤ k ∧ k ≤ 27) (ho : o < 0x10000) : refusalFoot (unitBase k + o) = true :=
  refusalFoot_of_onPage hk (onPage_unitBase k ho)

theorem refusalFoot_of_reportFoot {k a : Nat} (hk : 23 ≤ k ∧ k ≤ 27) (h : reportFoot k a = true) : refusalFoot a = true := by
  simp only [reportFoot, Bool.or_eq_true, beq_iff_eq] at h
  rcases h with (h | rfl) | rfl
  · simp only [refusalFoot, h, Bool.true_or]
  · exact refusalFoot_unitBase hk (by decide)
  · exact refusalFoot_unitBase hk (by decide)

theorem regionOf_lt {a r : Nat} (h : regionOf a = some r) : r < 4 := by
  unfold regionOf at h
  split at h
  · cases h; decide
  split at h
  · cases h; omega
  split at h
  · cases h; decide
  · cases h

theorem within_refuse (who a kind cause : Nat) : Within refusalFoot (refuse who a kind cause) := by
  unfold refuse
  dsimp only
  split
  next r hr =>
    have hk : 23 ≤ 23 + r ∧ 23 + r ≤ 27 := by have := regionOf_lt hr; omega
    exact within_seqs ⟨within_setReg (refusalFoot_unitBase hk (by decide)), within_setReg (refusalFoot_unitBase hk (by decide)),
      (within_report_block hk.2 (by decide)).mono fun a => refusalFoot_of_reportFoot hk⟩
  next =>
    have hk : 23 ≤ 27 ∧ 27 ≤ 27 := by decide
    exact within_seqs ⟨within_setReg (by decide), within_setReg (by decide), within_count (by decide),
      (within_report_block hk.2 (by decide)).mono fun a => refusalFoot_of_reportFoot hk⟩

/-- The registers where a refusal by access code or ownership is recorded and reported (R82). -/
def violationFoot (a : Nat) : Bool := faultRegs a || onPage 27 a

theorem within_violation (pid a kind cause : Nat) : Within violationFoot (violation pid a kind cause) := by
  refine within_seqs ⟨within_setReg (by decide), within_setReg (by decide), within_count (by decide),
    (within_report_block (by decide) (by decide)).mono fun a ha => ?_⟩
  simp only [reportFoot, Bool.or_eq_true, beq_iff_eq] at ha
  rcases ha with (ha | rfl) | rfl
  · simp only [violationFoot, ha, Bool.true_or]
  · decide
  · decide

section
variable (pid a kind cause : Nat) (s : State)

theorem violation_addrLo : ((violation pid a kind cause).run s).reg MSU_ACC_VIOL_ADDR_LO = a % 2 ^ 32 := by
  simp only [violation, seqs_cons_run, seqs_nil_run]
  rw [(within_report_block (by decide) (by decide) _).reg_eq (by decide), count_reg_ne _ (by decide), setReg_reg_ne _ _ (by decide),
    reg_setReg_same (by decide), Nat.mod_mod]

theorem violation_cnt : ((violation pid a kind cause).run s).reg MSU_ACC_VIOL_CNT = min (2 ^ 32 - 1) (s.reg MSU_ACC_VIOL_CNT + 1) := by
  simp only [violation, seqs_cons_run, seqs_nil_run]
  rw [(within_report_block (by decide) (by decide) _).reg_eq (by decide), reg_count_same (by decide), setReg_reg_ne _ _ (by decide),
    setReg_reg_ne _ _ (by decide)]

end

/-! ## Answers -/

theorem within_answer {p : Nat → Bool} (r : Resp) : Within p (answer r) := within_upd _

@[simp] theorem answer_resp (r : Resp) (s : State) : ((answer r).run s).b.fab.resp = r := rfl

@[simp] theorem answer_reg (r : Resp) (s : State) (a : Nat) : ((answer r).run s).reg a = s.reg a := rfl

@[simp] theorem answer_get (r : Resp) (s : State) (f : Fld) : ((answer r).run s).get f = s.get f := rfl

/-! ## The stages of a request -/

section
variable {q : FabReq} {s : State}

theorem fabricRequest_of_idle (h : s.canRequest q = false) : (fabricRequest q).run s = s := by
  simp only [fabricRequest, Upd.run_read, h, whenU_false, Upd.run_skip]

theorem fabricRequest_of_fault (hq : s.canRequest q = true) (h : s.coreReach q.ctx q.addr (reqLen q) = .fault) :
    (fabricRequest q).run s = (answer (errResp 0)).run s := by
  simp only [fabricRequest, Upd.run_read, hq, whenU_true, h]

theorem fabricRequest_of_tcm {a : Nat} (hq : s.canRequest q = true) (h : s.coreReach q.ctx q.addr (reqLen q) = .tcm a) :
    (fabricRequest q).run s = (tcmLocal ((q.ctx - 48) / 4) a q).run s := by
  simp only [fabricRequest, Upd.run_read, hq, whenU_true, h]

theorem fabricRequest_of_fabric {f : Nat} (hq : s.canRequest q = true) (h : s.coreReach q.ctx q.addr (reqLen q) = .fabric f) :
    (fabricRequest q).run s = (fabricEnter (withAddr q f)).run s := by
  simp only [fabricRequest, Upd.run_read, hq, whenU_true, h]

/-- A core's read of its triplet's own TCM, no word of which is in error (R217, R218). -/
theorem tcmLocal_read (x a : Nat) (hk : q.kind.val = 0) (he : q.ecc.val = 0) (hb : s.b.mem.tcmBad = []) :
    (tcmLocal x a q).run s = (answer (okResp (s.bytes a (reqLen q)))).run s := by
  have hkind : q.kind = 0 := Fin.ext hk
  have hecc : q.ecc = 0 := Fin.ext he
  have hfind : (wordsOf a (reqLen q)).find? (fun w => s.b.mem.tcmBad.contains w) = none := by
    rw [List.find?_eq_none, hb]
    exact fun _ _ => Bool.false_ne_true
  simp [tcmLocal, hkind, hecc, hfind, -List.contains_eq_mem]

theorem withAddr_addr {f : Nat} (h : f < 1099511627776) : (withAddr q f).addr.val = f := Nat.mod_eq_of_lt h

end

/-! ## The guard of device windows -/

section
variable {q : FabReq} {s : State} {f : Nat}

theorem deviceGuard_of_idle (h : s.canRequest q = false) : deviceGuard q s = none := by
  unfold deviceGuard
  split
  · exact if_neg fun hc => absurd hc.1 (by simp [h])
  · rfl

theorem deviceGuard_of_local (h : ∀ f, s.coreReach q.ctx q.addr (reqLen q) ≠ .fabric f) : deviceGuard q s = none := by
  unfold deviceGuard
  split
  next f hf => exact absurd hf (h f)
  next => rfl

variable (hf : s.coreReach q.ctx q.addr (reqLen q) = .fabric f)
include hf

theorem deviceGuard_of_muted (h : s.muted (s.ctxRegion q.ctx) q.ctx (s.resolve f) = true) : deviceGuard q s = none := by
  simp only [deviceGuard, hf, h, not_true_eq_false, false_and, and_false, if_false]

theorem deviceGuard_of_refused (h : s.checkAt (s.ctxPid q.ctx) (s.resolve f) (reqLen q) q.kind ≠ 0) : deviceGuard q s = none := by
  simp only [deviceGuard, hf, h, false_and, and_false, if_false]

theorem deviceGuard_of_sram (h : placeOf (s.resolve f) = .sram) : deviceGuard q s = none := by
  simp only [deviceGuard, hf, h, ite_self]

end

/-! ## A request with a fabric address -/

section
variable {q : FabReq} {s : State}

theorem fabricEnter_of_muted (h : s.muted (s.ctxRegion q.ctx) q.ctx (s.resolve q.addr) = true) :
    (fabricEnter q).run s = (answer (errResp 5)).run s := by
  simp only [fabricEnter, Upd.run_read, h, if_true]

variable (hm : s.muted (s.ctxRegion q.ctx) q.ctx (s.resolve q.addr) = false)
include hm

/-- An occupied interconnect (R47): the request waits where it entered. -/
theorem fabricEnter_of_contends (hc : s.contends (s.ctxRegion q.ctx) q = true) :
    (∃ w : WaitReq, ((fabricEnter q).run s).b.fab.waiting = s.b.fab.waiting ++ [w] ∧ w.q = q ∧ w.point = s.ctxRegion q.ctx) ∧
      Untouched (fun _ => false) s ((fabricEnter q).run s) := by
  simp only [fabricEnter, Upd.run_read, hm, hc, Bool.false_eq_true, if_false, if_true]
  exact ⟨⟨_, rfl, rfl, rfl⟩, within_seq (within_read fun _ => within_upd _) (within_upd _) s⟩

variable (hc : s.contends (s.ctxRegion q.ctx) q = false)
include hc

theorem fabricEnter_of_refused {c : Nat} (hk : s.checkAt (s.ctxPid q.ctx) (s.resolve q.addr) (reqLen q) q.kind = c) (h0 : c ≠ 0) :
    (fabricEnter q).run s = (Upd.seq (refuse (s.ctxPid q.ctx).1 (s.resolve q.addr) q.kind c) (answer (errResp c))).run s := by
  simp only [fabricEnter, requestGo, serve, Upd.run_read, hm, hc, hk, h0, Bool.false_eq_true, if_false, false_and, ne_eq,
    not_false_eq_true, if_true]

/-- A request that no check refuses and that need not wait is accounted and served (R63). -/
theorem fabricEnter_of_admitted (hk : s.checkAt (s.ctxPid q.ctx) (s.resolve q.addr) (reqLen q) q.kind = 0)
    (hw : s.mustWait (s.ctxRegion q.ctx) (s.ctxPid q.ctx).1 (s.resolve q.addr) (reqLen q) = false) :
    ∃ (x : Xfer) (rd : Nat → Upd), (fabricEnter q).run s = (serveAt x (s.resolve q.addr) rd answer).run
        ((account (s.ctxRegion q.ctx) q.ctx (s.ctxPid q.ctx).1 (s.resolve q.addr) (reqLen q)).run s) ∧
      x.kind = q.kind ∧ x.n = reqLen q ∧ x.data = q.data ∧ x.ecc = q.ecc ∧ x.cache = q.cache := by
  simp only [fabricEnter, requestGo, serve, Upd.run_read, Upd.run_seq, hm, hc, hk, hw, Bool.false_eq_true, if_false, and_false, ne_eq,
    not_true_eq_false]
  exact ⟨_, _, rfl, rfl, rfl, rfl, rfl, rfl⟩

end

end Sys2Proof.Machine
end

section
/-!
Shared SRAM behind the fabric (R58, R63): what accounting leaves alone, and what reads and writes of memory without poison do.
-/
namespace Sys2Proof.Machine

/-! ## Accounting -/

/-- What requests to memory depend on: its bytes, and the records of its errors and keys. -/
def State.memory (s : State) : List Host.Cell × Mem := (s.mem, s.b.mem)

theorem keeps_memory_updFab (f : Fab → Fab) : Keeps State.memory (updFab f) := fun _ => rfl

theorem keeps_memory_count (a n : Nat) : Keeps State.memory (count a n) := fun _ => rfl

theorem keeps_memory_grant (r q n : Nat) : Keeps State.memory (grant r q n) :=
  keeps_read fun _ => keeps_seq (keeps_memory_count _ _) (keeps_whenU fun _ => keeps_memory_updFab _)

theorem keeps_memory_account (src i pid a n : Nat) (prom : List Nat) : Keeps State.memory (account src i pid a n prom) :=
  keeps_read fun _ => keeps_seqs_cons (keeps_whenU fun _ => keeps_memory_count _ _) <|
    keeps_seqs_cons (keeps_whenU fun _ => keeps_memory_grant _ _ _) <| keeps_seqs_cons (keeps_whenU fun _ => keeps_memory_grant _ _ _) <|
    keeps_seqs_cons (keeps_whenU fun _ => keeps_memory_updFab _) keeps_seqs_nil

/-! ## Writes -/

/-- The part of the bytes `bs` at `a` that falls in line `l`. -/
def linePart (a : Nat) (bs : List Byte) (l : Nat) : List Byte :=
  (bs.drop (max a (64 * l) - a)).take (min (a + bs.length) (64 * l + 64) - max a (64 * l))

/-- Whether a write of `n` bytes at `a` stores byte `x` as part of line `l`. -/
def inLinePart (a n l x : Nat) : Prop := x / 64 = l ∧ a ≤ x ∧ x < a + n

theorem inLinePart_iff {a : Nat} {bs : List Byte} {l x : Nat} : inLinePart a bs.length l x ↔
    max a (64 * l) ≤ x ∧ x < max a (64 * l) + (linePart a bs l).length := by
  rw [linePart, List.length_take, List.length_drop, inLinePart]
  omega

theorem linePart_getElem {a : Nat} {bs : List Byte} {l i : Nat} (h : i < (linePart a bs l).length) :
    (linePart a bs l)[i] = bs.getD (max a (64 * l) + i - a) 0 := by
  have hlen := h
  rw [linePart, List.length_take, List.length_drop] at hlen
  simp only [linePart, List.getElem_take, List.getElem_drop]
  rw [List.getD_eq_getElem?_getD, List.getElem?_eq_getElem (by omega), Option.getD_some]
  congr 1
  omega

theorem keeps_poison_tcmBad (f : Mem → List Nat) : Keeps (·.b.mem.poison) (updMem fun m => { m with tcmBad := f m }) := fun _ => rfl

theorem keeps_byte_updMem (f : Mem → Mem) (x : Nat) : Keeps (·.byte x) (updMem f) := fun _ => rfl

theorem div_mem_linesOf {a n x : Nat} (hlo : a ≤ x) (hhi : x < a + n) : x / 64 ∈ linesOf a n := by
  rw [linesOf, if_neg (by omega), List.mem_map]
  exact ⟨x / 64 - a / 64, List.mem_range.mpr (by omega), by omega⟩

section
variable {a : Nat} (hd : isDram a = false)
include hd

/-- A line of SRAM without poison: the write stores its part of the line. -/
theorem lineWrite_run (pid : Nat) (bs : List Byte) (l : Nat) {s : State} (hp : s.b.mem.poison = []) :
    (lineWrite pid a bs l).run s = (storeBytes (max a (64 * l)) (linePart a bs l)).run
      ((updMem fun m => { m with poison := m.poison.filter (· != l) }).run s) := by
  simp only [lineWrite, Upd.run_read, hp, hd, List.contains_nil, Bool.false_eq_true, false_and, if_false, whenU_false, seqs_cons_run,
    seqs_nil_run, Upd.run_skip, linePart]

theorem lineWrite_poison (pid : Nat) (bs : List Byte) (l : Nat) {s : State} (hp : s.b.mem.poison = []) :
    ((lineWrite pid a bs l).run s).b.mem.poison = [] := by
  rw [lineWrite_run hd pid bs l hp, storeBytes_b]
  simp only [updMem, upd_b, hp, List.filter_nil]

theorem byte_lineWrite_in (pid : Nat) {bs : List Byte} {l x : Nat} {s : State} (hp : s.b.mem.poison = [])
    (hx : inLinePart a bs.length l x) : ((lineWrite pid a bs l).run s).byte x = bs.getD (x - a) 0 := by
  obtain ⟨hlo, hhi⟩ := inLinePart_iff.mp hx
  have hbyte := byte_storeBytes (max a (64 * l)) (linePart a bs l)
    ((updMem fun m => { m with poison := m.poison.filter (· != l) }).run s) (x - max a (64 * l)) (by omega)
  rw [linePart_getElem, show max a (64 * l) + (x - max a (64 * l)) = x by omega] at hbyte
  rw [lineWrite_run hd pid bs l hp, hbyte]

theorem byte_lineWrite_out (pid : Nat) {bs : List Byte} {l x : Nat} {s : State} (hp : s.b.mem.poison = [])
    (hx : ¬ inLinePart a bs.length l x) : ((lineWrite pid a bs l).run s).byte x = s.byte x := by
  rw [inLinePart_iff] at hx
  rw [lineWrite_run hd pid bs l hp, byte_storeBytes_ne _ _ _ _ (by omega)]
  rfl

/-- Line by line, a write stores the bytes that fall in the lines and no other. -/
theorem byte_linesWrite (pid : Nat) (bs : List Byte) (x : Nat) (ls : List Nat) {s : State} (hp : s.b.mem.poison = []) :
    ((forEach ls (lineWrite pid a bs)).run s).byte x =
      if x / 64 ∈ ls ∧ a ≤ x ∧ x < a + bs.length then bs.getD (x - a) 0 else s.byte x := by
  induction ls generalizing s with
  | nil => simp
  | cons l ls ih =>
    rw [forEach_cons_run, ih (lineWrite_poison hd pid bs l hp)]
    by_cases hx : inLinePart a bs.length l x
    · rw [byte_lineWrite_in hd pid hp hx, ite_self]
      obtain ⟨hl, hlo, hhi⟩ := hx
      rw [if_pos ⟨List.mem_cons.mpr (.inl hl), hlo, hhi⟩]
    · rw [byte_lineWrite_out hd pid hp hx]
      refine ite_congr (propext ?_) (fun _ => rfl) fun _ => rfl
      rw [List.mem_cons]
      exact ⟨fun ⟨h, hr⟩ => ⟨.inr h, hr⟩, fun ⟨h, hr⟩ => ⟨h.resolve_left fun hl => hx ⟨hl, hr⟩, hr⟩⟩

/-- A write of SRAM without poison stores its bytes and no other. -/
theorem byte_memWrite (pid : Nat) (bs : List Byte) (x : Nat) {s : State} (hp : s.b.mem.poison = []) :
    ((memWrite pid a bs).run s).byte x = if a ≤ x ∧ x < a + bs.length then bs.getD (x - a) 0 else s.byte x := by
  rw [memWrite, Upd.run_seq]
  refine (byte_linesWrite hd pid bs x _ ?_).trans ?_
  · exact (keeps_read (φ := (·.b.mem.poison)) (fun _ => keeps_whenU fun _ => keeps_poison_tcmBad _) s).trans hp
  · exact ite_congr (propext ⟨fun h => h.2, fun h => ⟨div_mem_linesOf h.1 h.2, h⟩⟩) (fun _ => rfl) fun _ =>
      (keeps_read (φ := (·.byte x)) (fun _ => keeps_whenU fun _ => keeps_byte_updMem _ x) s)

end

theorem writePoisoned_of_clean (a n : Nat) {s : State} (hp : s.b.mem.poison = []) : s.writePoisoned a n = false := by
  simp [State.writePoisoned, hp]

/-! ## Reads -/

/-- Bytes outside DRAM read as stored: only DRAM is encrypted (R208). -/
theorem plain_eq_bytes {a n : Nat} (h : a + n ≤ 0x1000000000) (s : State) : s.plain a n = s.bytes a n := by
  refine List.map_congr_left fun i hi => ?_
  have hi' := List.mem_range.mp hi
  have hd : isDram (a + i) = false := by
    simp only [isDram, Bool.and_eq_false_iff, decide_eq_false_iff_not]
    omega
  simp only [State.plainByte, hd, Bool.false_and, Bool.false_eq_true, if_false]

theorem memRead_sram (pid : Nat) {a n : Nat} (ha : placeOf a = .sram) {s : State} (hp : s.b.mem.poison = [])
    (k : Option (List Byte) → Upd) : (memRead pid a n k).run s = (k (some (s.plain a n))).run s := by
  have hfind : (linesOf a n).find? (fun l => s.b.mem.poison.contains l) = none := by
    rw [List.find?_eq_none, hp]
    exact fun _ _ => Bool.false_ne_true
  simp only [memRead, Upd.run_read, ha, hfind]

theorem eccRead_sram (pid : Nat) {a n : Nat} (ha : placeOf a = .sram) {s : State} (hp : s.b.mem.poison = [])
    (k : Option (List Byte) → Upd) : (eccRead pid a n 0 k).run s = (k (some (s.plain a n))).run s := by
  have hany : ((linesOf a n).any fun l => s.b.mem.poison.contains l) = false := by
    rw [List.any_eq_false, hp]
    exact fun _ _ => Bool.false_ne_true
  simp only [eccRead, Upd.run_read, ha, hany, Bool.false_eq_true, if_false]
  exact memRead_sram pid ha hp k

/-! ## Transfers -/

theorem placeOf_sram {a : Nat} (h : placeOf a = .sram) : 0x1000000 ≤ a ∧ a < 0x1400000 := by
  unfold placeOf at h
  split at h
  · cases h
  split at h
  · assumption
  · repeat' split at h
    all_goals cases h

theorem isDram_of_sram {a : Nat} (h : placeOf a = .sram) : isDram a = false := by
  have ha := placeOf_sram h
  simp only [isDram, Bool.and_eq_false_iff, decide_eq_false_iff_not]
  omega

section
variable {x : Xfer} {a : Nat} {s : State} (ha : placeOf a = .sram) (hp : s.b.mem.poison = []) (hc : x.cache = 0)
  (rd : Nat → Upd) (k : Resp → Upd)
include ha hp hc

theorem serveAt_sram_write (hk : x.kind = 1) :
    (serveAt x a rd k).run s = (k (okResp [])).run ((memWrite x.who.1 a x.data).run s) := by
  simp only [serveAt, ha, memServe, hc, hk, cacheError, not_true_eq_false, if_false, Upd.run_read, Upd.run_seq,
    writePoisoned_of_clean a _ hp, Bool.false_eq_true]

theorem serveAt_sram_read (hk : x.kind = 0) (he : x.ecc = 0) (hn : x.n ≤ 256) :
    (serveAt x a rd k).run s = (k (okResp (s.bytes a x.n))).run s := by
  have hlt := placeOf_sram ha
  simp only [serveAt, ha, memServe, hc, hk, he, cacheError, not_true_eq_false, if_false, eccRead_sram x.who.1 ha hp,
    plain_eq_bytes (s := s) (show a + x.n ≤ 0x1000000000 by omega)]

end

end Sys2Proof.Machine
end

section
/-!
FABRIC_REQUEST, the register accesses and the fabric's own rows (R46, R49, R53, R63, R65, R80, R82): their effects, case by case.
-/
namespace Sys2Proof.Machine

/-! ## FABRIC_REQUEST -/

theorem does_of_completes {c : Instr} {u : Upd} {p : Nat → Bool} {s t : State} (h : Completes c s t) (ht : t = u.run s)
    (hu : Within p u) : Does c u p s := ⟨ht ▸ h, hu s⟩

section
variable {q : FabReq} {s : State}

theorem fabricRequest_idle_does (h : s.canRequest q = false) : Does (.fabricRequest q) .skip (fun _ => false) s :=
  does_of_completes (completes_fabricRequest (deviceGuard_of_idle h)) (fabricRequest_of_idle h) within_skip

variable (hq : s.canRequest q = true)
include hq

theorem fabricRequest_fault_does (h : s.coreReach q.ctx q.addr (reqLen q) = .fault) :
    Does (.fabricRequest q) (answer (errResp 0)) (fun _ => false) s := by
  have hg : deviceGuard q s = none := deviceGuard_of_local fun f hf => by rw [h] at hf; cases hf
  exact does_of_completes (completes_fabricRequest hg) (fabricRequest_of_fault hq h) (within_answer _)

theorem fabricRequest_tcm_does {a : Nat} (h : s.coreReach q.ctx q.addr (reqLen q) = .tcm a) (hk : q.kind.val = 0) (he : q.ecc.val = 0)
    (hb : s.b.mem.tcmBad = []) : Does (.fabricRequest q) (answer (okResp (s.bytes a (reqLen q)))) (fun _ => false) s := by
  have hg : deviceGuard q s = none := deviceGuard_of_local fun f hf => by rw [h] at hf; cases hf
  exact does_of_completes (completes_fabricRequest hg) ((fabricRequest_of_tcm hq h).trans (tcmLocal_read _ a hk he hb)) (within_answer _)

variable {f : Nat} (hf : s.coreReach q.ctx q.addr (reqLen q) = .fabric f) (hlt : f < 1099511627776)
include hf hlt

theorem fabricRequest_muted_does (hm : s.muted (s.ctxRegion q.ctx) q.ctx (s.resolve f) = true) :
    Does (.fabricRequest q) (answer (errResp 5)) (fun _ => false) s := by
  refine does_of_completes (completes_fabricRequest (deviceGuard_of_muted hf hm)) ?_ (within_answer _)
  rw [← withAddr_addr (q := q) hlt] at hm
  exact (fabricRequest_of_fabric hq hf).trans (fabricEnter_of_muted (q := withAddr q f) hm)

variable (hm : s.muted (s.ctxRegion q.ctx) q.ctx (s.resolve f) = false)
include hm

theorem fabricRequest_contends (hg : deviceGuard q s = none) (hc : s.contends (s.ctxRegion q.ctx) (withAddr q f) = true) :
    ∃ (t : State) (w : WaitReq), Completes (.fabricRequest q) s t ∧ t.b.fab.waiting = s.b.fab.waiting ++ [w] ∧ w.q = withAddr q f ∧
      w.point = s.ctxRegion q.ctx ∧ Untouched (fun _ => false) s t := by
  rw [← withAddr_addr (q := q) hlt] at hm
  obtain ⟨⟨w, hwait, hwq, hpoint⟩, hunt⟩ := fabricEnter_of_contends (q := withAddr q f) hm hc
  refine ⟨(fabricEnter (withAddr q f)).run s, w, ?_, hwait, hwq, hpoint, hunt⟩
  rw [← fabricRequest_of_fabric hq hf]
  exact completes_fabricRequest hg

variable (hc : s.contends (s.ctxRegion q.ctx) (withAddr q f) = false)
include hc

theorem fabricRequest_refused {c : Nat} (hk : s.checkAt (s.ctxPid q.ctx) (s.resolve f) (reqLen q) q.kind = c) (h0 : c ≠ 0) :
    ∃ t, Completes (.fabricRequest q) s t ∧ t.b.fab.resp = errResp c ∧ Untouched refusalFoot s t := by
  have hg : deviceGuard q s = none := deviceGuard_of_refused hf (hk ▸ h0)
  rw [← withAddr_addr (q := q) hlt] at hm hk
  have hrun := (fabricRequest_of_fabric hq hf).trans (fabricEnter_of_refused (q := withAddr q f) hm hc hk h0)
  refine ⟨_, completes_fabricRequest hg, ?_, ?_⟩
  · rw [hrun, Upd.run_seq, answer_resp]
  · rw [hrun]
    exact within_seq (within_refuse _ _ _ _) (within_answer _) s

variable (ha : placeOf (s.resolve f) = .sram) (hcache : q.cache.val = 0)
include ha hcache

/-- An admitted request to shared SRAM is accounted, which leaves memory alone, and then served. -/
theorem fabricRequest_sram (hk : s.checkAt (s.ctxPid q.ctx) (s.resolve f) (reqLen q) q.kind = 0)
    (hw : s.mustWait (s.ctxRegion q.ctx) (s.ctxPid q.ctx).1 (s.resolve f) (reqLen q) = false) :
    ∃ (x : Xfer) (rd : Nat → Upd) (u : State), Completes (.fabricRequest q) s ((serveAt x (s.resolve f) rd answer).run u) ∧
      u.memory = s.memory ∧ x.kind = q.kind ∧ x.n = reqLen q ∧ x.data = q.data ∧ x.ecc = q.ecc ∧ x.cache = 0 := by
  have hg : deviceGuard q s = none := deviceGuard_of_sram hf ha
  rw [← withAddr_addr (q := q) hlt] at hm hk hw
  obtain ⟨x, rd, hrun, hkind, hn, hdata, hecc, hx⟩ := fabricEnter_of_admitted (q := withAddr q f) hm hc hk hw
  have hdone := completes_fabricRequest hg
  rw [fabricRequest_of_fabric hq hf, hrun, withAddr_addr hlt] at hdone
  exact ⟨x, rd, _, hdone, keeps_memory_account _ _ _ _ _ _ s, hkind, hn, hdata, hecc, hx.trans hcache⟩

variable (hp : s.b.mem.poison = [])
include hp

theorem fabricRequest_sram_write (hkind : q.kind.val = 1) (hk : s.checkAt (s.ctxPid q.ctx) (s.resolve f) q.data.length 1 = 0)
    (hw : s.mustWait (s.ctxRegion q.ctx) (s.ctxPid q.ctx).1 (s.resolve f) q.data.length = false) :
    ∃ t, Completes (.fabricRequest q) s t ∧ t.b.fab.resp = okResp [] ∧
      (∀ i, i < q.data.length → t.byte (s.resolve f + i) = q.data.getD i 0) ∧
      (∀ x, x < s.resolve f ∨ s.resolve f + q.data.length ≤ x → t.byte x = s.byte x) := by
  have hn : reqLen q = q.data.length := if_pos hkind
  obtain ⟨x, rd, u, hdone, hmem, hxkind, _, hxdata, _, hxcache⟩ :=
    fabricRequest_sram hq hf hlt hm hc ha hcache (by rwa [hn, hkind]) (by rwa [hn])
  obtain ⟨hcells, hrec⟩ := Prod.ext_iff.mp hmem
  have hpu : u.b.mem.poison = [] := (congrArg Mem.poison hrec).trans hp
  rw [serveAt_sram_write ha hpu hxcache rd answer (hxkind.trans hkind), hxdata] at hdone
  have hbyte (z : Nat) := byte_memWrite (isDram_of_sram ha) x.who.1 q.data z hpu
  refine ⟨_, hdone, rfl, fun i hi => ?_, fun z hz => ?_⟩
  · refine (hbyte _).trans ?_
    rw [if_pos (by omega), Nat.add_sub_cancel_left]
  · refine (hbyte z).trans ?_
    rw [if_neg (by omega), State.byte, State.byte, show u.mem = s.mem from hcells]

theorem fabricRequest_sram_read (hkind : q.kind.val = 0) (he : q.ecc.val = 0) (hk : s.checkAt (s.ctxPid q.ctx) (s.resolve f) q.len 0 = 0)
    (hw : s.mustWait (s.ctxRegion q.ctx) (s.ctxPid q.ctx).1 (s.resolve f) q.len = false) :
    ∃ t, Completes (.fabricRequest q) s t ∧ t.b.fab.resp = okResp (s.bytes (s.resolve f) q.len) ∧ SameMem s t := by
  have hn : reqLen q = q.len := if_neg (by rw [hkind]; decide)
  obtain ⟨x, rd, u, hdone, hmem, hxkind, hxn, _, hxecc, hxcache⟩ :=
    fabricRequest_sram hq hf hlt hm hc ha hcache (by rwa [hn, hkind]) (by rwa [hn])
  obtain ⟨hcells, hrec⟩ := Prod.ext_iff.mp hmem
  have hpu : u.b.mem.poison = [] := (congrArg Mem.poison hrec).trans hp
  have hbyte (z : Nat) : u.byte z = s.byte z := by rw [State.byte, State.byte, show u.mem = s.mem from hcells]
  have hlen := q.len.isLt
  rw [serveAt_sram_read ha hpu hxcache rd answer (hxkind.trans hkind) (hxecc.trans he) (by omega), hxn, hn] at hdone
  refine ⟨_, hdone, ?_, hbyte⟩
  rw [answer_resp]
  simp only [State.bytes, hbyte]

end

/-! ## Register accesses -/

section
variable {pid a kind : Nat} {u : Upd} {s : State}

theorem wordAccess_of_off (h : 1 < s.pwr) : (wordAccess pid a kind u).run s = s := by
  simp only [wordAccess, Upd.run_read, decide_eq_false (Nat.not_le.mpr h), whenU_false, Upd.run_skip]

variable (hp : s.pwr ≤ 1)
include hp

theorem wordAccess_of_refused {c : Nat} (h : s.checkAt (pid, true) a 4 kind = c) (h0 : c ≠ 0) :
    (wordAccess pid a kind u).run s = (Upd.seq (refuse pid a kind c) (answer (errResp c))).run s := by
  simp only [wordAccess, Upd.run_read, hp, decide_true, whenU_true, h, if_neg h0]

theorem wordAccess_of_admitted (h : s.checkAt (pid, true) a 4 kind = 0) : (wordAccess pid a kind u).run s = u.run s := by
  simp only [wordAccess, Upd.run_read, hp, decide_true, whenU_true, h, if_true]

end

theorem pageFire_of_unarmed {a u : Nat} {c : Option Nat} {s : State} (ht : touched a = some (u, c)) (hu : s.unarmed u = true) :
    (pageFire a).run s = s := by
  have harm : s.flag (BLK_ERR_INJ_ARM u) = false := by simpa [State.unarmed] using hu
  simp only [pageFire, Upd.run_read, ht, harm, Bool.and_false, Bool.false_and, whenU_false, Upd.run_skip]

section
variable {org : Origin} {pid a v j : Nat} {s : State} (hf : (pageFire a).run s = s) (ha : placeOf a = .page j) (hj : j ≠ 32)
  (k : Resp → Upd)
include hf ha hj

theorem wordWrite_of_refused (hc : s.writeCause false pid a v ≠ 0) :
    (wordWrite org pid a v k).run s =
      (Upd.seq (violation pid a 1 (s.writeCause false pid a v)) (k (errResp (s.writeCause false pid a v)))).run s := by
  simp [wordWrite, hf, ha, hj, hc]

theorem wordWrite_of_accepted (hc : s.writeCause false pid a v = 0) :
    (wordWrite org pid a v k).run s = (Upd.seq (applyWrite org false pid a v) (k (okResp []))).run s := by
  simp [wordWrite, hf, ha, hj, hc]

end

theorem completes_registerWrite (pid : Pid) (a : Fin 1099511627776) (v : Word) (s : State) :
    Completes (.registerWrite pid a v) s ((registerWrite pid a v).run s) := completes_of_finish rfl

section
variable {pid : Pid} {a : Fin 1099511627776} {v : Word} {s : State}

theorem registerWrite_off_does (h : 1 < s.pwr) : Does (.registerWrite pid a v) .skip (fun _ => false) s :=
  does_of_completes (completes_registerWrite pid a v s) (wordAccess_of_off h) within_skip

variable (hp : s.pwr ≤ 1)
include hp

theorem registerWrite_refused {c : Nat} (h : s.checkAt (pid, true) (a / 4 * 4) 4 1 = c) (h0 : c ≠ 0) :
    ∃ t, Completes (.registerWrite pid a v) s t ∧ t.b.fab.resp = errResp c ∧ Untouched refusalFoot s t := by
  have hrun : (registerWrite pid a v).run s = (Upd.seq (refuse pid (a / 4 * 4) 1 c) (answer (errResp c))).run s :=
    wordAccess_of_refused hp h h0
  refine ⟨_, completes_registerWrite pid a v s, ?_, ?_⟩
  · rw [hrun, Upd.run_seq, answer_resp]
  · rw [hrun]
    exact within_seq (within_refuse _ _ _ _) (within_answer _) s

variable {k u : Nat} {c : Option Nat} (h : s.checkAt (pid, true) (a / 4 * 4) 4 1 = 0) (ht : touched (a / 4 * 4) = some (u, c))
  (hu : s.unarmed u = true) (ha : placeOf (a / 4 * 4) = .page k) (hk : k ≠ 32)
include h ht hu ha hk

theorem registerWrite_violation (hc : s.writeCause false pid (a / 4 * 4) v.toNat ≠ 0) :
    ∃ t, Completes (.registerWrite pid a v) s t ∧ t.b.fab.resp = errResp (s.writeCause false pid (a / 4 * 4) v.toNat) ∧
      t.reg MSU_ACC_VIOL_ADDR_LO = a / 4 * 4 % 2 ^ 32 ∧ t.reg MSU_ACC_VIOL_CNT = min (2 ^ 32 - 1) (s.reg MSU_ACC_VIOL_CNT + 1) ∧
      Untouched violationFoot s t := by
  have hrun := (wordAccess_of_admitted hp h).trans (wordWrite_of_refused (org := .loc) (pageFire_of_unarmed ht hu) ha hk answer hc)
  have hdone := completes_registerWrite pid a v s
  rw [registerWrite, hrun, Upd.run_seq] at hdone
  refine ⟨_, hdone, answer_resp _ _, ?_, ?_, (within_violation _ _ _ _ s).trans (within_answer _ _)⟩
  · rw [answer_reg, violation_addrLo]
  · rw [answer_reg, violation_cnt]

theorem registerWrite_accepted (hc : s.writeCause false pid (a / 4 * 4) v.toNat = 0) : Completes (.registerWrite pid a v) s
    ((Upd.seq (applyWrite .loc false pid (a / 4 * 4) v.toNat) (answer (okResp []))).run s) := by
  have hdone := completes_registerWrite pid a v s
  rwa [registerWrite, wordAccess_of_admitted hp h, wordWrite_of_accepted (pageFire_of_unarmed ht hu) ha hk answer hc] at hdone

end

/-! ## A read that clears: MSU_ACC_VIOL_ADDR_HI (R80, R82) -/

/-- The MSU's page lies in no region, so no isolation, window or alignment keeps a word read of this register away. -/
theorem checkAt_accViolAddrHi (pid : Nat) (s : State) : s.checkAt (pid, true) MSU_ACC_VIOL_ADDR_HI 4 0 = 0 := by
  have hfirst : placeOf MSU_ACC_VIOL_ADDR_HI = .page 27 := by decide
  have hlast : placeOf (MSU_ACC_VIOL_ADDR_HI + (4 - 1)) = .page 27 := by decide
  have hregion : regionOf MSU_ACC_VIOL_ADDR_HI = none := by decide
  have hregion' : regionOf (MSU_ACC_VIOL_ADDR_HI + (4 - 1)) = none := by decide
  have hfits : (Place.page 27).fits MSU_ACC_VIOL_ADDR_HI 4 = true := by decide
  simp [State.checkAt, State.shut, State.undecoded, acrossDevices, State.admitted, hfirst, hlast, hregion, hregion', hfits]

/-- The location of MSU_ACC_VIOL_ADDR_HI in the register table. -/
def accViolLoc : Loc := ⟨27, none, 0x134, ⟨0x134, [], false, plain .ro [(31, 28), (27, 22), (8, 8), (7, 0)]⟩⟩

theorem locate_accViolAddrHi : locate MSU_ACC_VIOL_ADDR_HI = some accViolLoc := by decide

theorem storedRead_accViolAddrHi (k : Nat → Upd) (s : State) : (storedRead accViolLoc MSU_ACC_VIOL_ADDR_HI k).run s =
    (k (s.reg MSU_ACC_VIOL_ADDR_HI)).run ((set ⟨MSU_ACC_VIOL_ADDR_HI, 31, 28⟩ 0).run s) := by
  have hwo : accViolLoc.row.bitsOf (· == .wo) = 0 := by decide
  have hrc : accViolLoc.row.bitsOf (· == .rc) = 0 := by decide
  have h64 : (accViolLoc.row.fs.any (·.acc == .rc64Lo)) = false := by decide
  have hclears : readClears accViolLoc MSU_ACC_VIOL_ADDR_HI = some ⟨MSU_ACC_VIOL_ADDR_HI, 31, 28⟩ := by decide
  have hwithout : ∀ v, without v 0 = v := fun v => by simp only [without, Nat.and_zero, Nat.sub_zero]
  simp only [storedRead, Upd.run_read, hwo, hrc, h64, hclears, hwithout, Bool.false_eq_true, if_false, bne_self_eq_false, whenU_false,
    seqs_cons_run, seqs_nil_run, Upd.run_skip]

theorem regRead_accViolAddrHi (org : Origin) (pid : Nat) (k : Nat → Upd) (s : State) : (regRead org pid MSU_ACC_VIOL_ADDR_HI k).run s =
    (k (s.reg MSU_ACC_VIOL_ADDR_HI)).run ((set ⟨MSU_ACC_VIOL_ADDR_HI, 31, 28⟩ 0).run s) := by
  have hopen : s.closed accViolLoc = false := by simp [State.closed, accViolLoc]
  rw [← storedRead_accViolAddrHi]
  simp only [regRead, Upd.run_read, locate_accViolAddrHi, hopen, Bool.false_eq_true, if_false]
  rfl

theorem clearOnRead_accViolAddrHi (pid : Pid) {s : State} (hp : s.pwr ≤ 1) (hu : s.unarmed 27 = true) :
    (clearOnRead pid ⟨MSU_ACC_VIOL_ADDR_HI, by decide⟩).run s =
      (answer (okResp (leBytes 4 (s.reg MSU_ACC_VIOL_ADDR_HI)))).run ((set ⟨MSU_ACC_VIOL_ADDR_HI, 31, 28⟩ 0).run s) := by
  have hword : MSU_ACC_VIOL_ADDR_HI / 4 * 4 = MSU_ACC_VIOL_ADDR_HI := by decide
  have hpage : placeOf MSU_ACC_VIOL_ADDR_HI = .page 27 := by decide
  have htouched : touched MSU_ACC_VIOL_ADDR_HI = some (27, none) := by decide
  have hsync : MSU_ACC_VIOL_ADDR_HI ≠ HBR_WSYNC := by decide
  simp only [clearOnRead, hword]
  rw [wordAccess_of_admitted hp (checkAt_accViolAddrHi pid s)]
  simp only [wordRead, Upd.run_seq, Upd.run_read, pageFire_of_unarmed htouched hu, hpage, hsync, false_and, if_false,
    regRead_accViolAddrHi, Function.comp]

theorem clearOnRead_clears (pid : Pid) {s : State} (hp : s.pwr ≤ 1) (hu : s.unarmed 27 = true) :
    ∃ t, Completes (.clearOnRead pid ⟨MSU_ACC_VIOL_ADDR_HI, by decide⟩) s t ∧
      t.b.fab.resp = okResp (leBytes 4 (s.reg MSU_ACC_VIOL_ADDR_HI)) ∧ t.get ⟨MSU_ACC_VIOL_ADDR_HI, 31, 28⟩ = 0 ∧
      Untouched (· == MSU_ACC_VIOL_ADDR_HI) s t := by
  have hdone : Completes (.clearOnRead pid ⟨MSU_ACC_VIOL_ADDR_HI, by decide⟩) s _ := completes_of_finish rfl
  rw [clearOnRead_accViolAddrHi pid hp hu] at hdone
  refine ⟨_, hdone, answer_resp _ _, ?_, (within_set (by decide) s).trans (within_answer _ _)⟩
  rw [answer_get, get_set_same (by decide), Nat.zero_mod]

/-! ## Arbitration, regulation, isolation -/

theorem fits_promoteCnt : ∀ r : Fin 4, (whole (RG_PROMOTE_CNT r)).fits = true := by decide

theorem agePromotion_promotes {r : Fin 4} {w : WaitReq} {s : State} (hl : s.get (RG_QOS_CFG_AGE_LIMIT r) ≠ 0)
    (hw : (s.b.fab.waiting.find? fun w => w.point == r.val && decide (2 ≤ w.cls) && !w.prom.contains r.val) = some w) :
    ∃ t, Completes (.agePromotion r) s t ∧ t.reg (RG_PROMOTE_CNT r) = min (2 ^ 32 - 1) (s.reg (RG_PROMOTE_CNT r) + 1) ∧
      t.b.fab.waiting = s.b.fab.waiting.map (fun x => if x = w then { x with prom := r.val :: x.prom } else x) ∧
      Untouched (· == RG_PROMOTE_CNT r) s t := by
  have hdone : Completes (.agePromotion r) s _ := completes_of_finish rfl
  simp only [agePromotion, Upd.run_read, bne_iff_ne.mpr hl, whenU_true, hw] at hdone
  have hfoot : Within (· == RG_PROMOTE_CNT r) (count (RG_PROMOTE_CNT r)) := within_count (beq_self_eq_true _)
  exact ⟨_, hdone, reg_count_same (fits_promoteCnt r) s, rfl, within_seq hfoot (within_upd _) s⟩

theorem agePromotion_silent {r : Fin 4} {s : State} (h : s.get (RG_QOS_CFG_AGE_LIMIT r) = 0 ∨
    (s.b.fab.waiting.find? fun w => w.point == r.val && decide (2 ≤ w.cls) && !w.prom.contains r.val) = none) :
    Does (.agePromotion r) .skip (fun _ => false) s := by
  refine does_of_completes (completes_of_finish rfl) ?_ within_skip
  rcases h with h | h
  · simp only [agePromotion, Upd.run_read, h, bne_self_eq_false, whenU_false]
  · simp only [agePromotion, Upd.run_read, h]
    cases s.get (RG_QOS_CFG_AGE_LIMIT r) != 0 <;> rfl

theorem rtRegulatorPeriod_rtUsed (r : Fin 4) (s : State) : mapGet 0 ((rtRegulatorPeriod r).run s).b.fab.rtUsed r = 0 :=
  mapGet_mapPut_same 0 s.b.fab.rtUsed r.val 0

theorem within_tagFree {p : Nat → Bool} (t : Nat) : Within p (tagFree t) := by
  refine within_read fun s => ?_
  split
  · exact within_upd _
  · exact within_seq (within_upd _) (within_upd _)

theorem isolationResponseTimeout_answers {g : Fin 256} {r : ChainRead} {s : State} (hi : s.isolated 1 = true)
    (hr : (s.b.flk.reads.find? fun r => r.tag == g.val && ((r.kind == 0 && s.ctxRegion r.idx == 0) || r.kind == 3)) = some r)
    (hk : r.kind = 0) :
    ∃ t, Completes (.isolationResponseTimeout g) s t ∧ t.b.fab.resp = errResp 5 ∧ Untouched (fun _ => false) s t := by
  have hdone : Completes (.isolationResponseTimeout g) s _ := completes_of_finish rfl
  simp only [isolationResponseTimeout, Upd.run_read, hi, whenU_true, hr, hk, if_true] at hdone
  exact ⟨_, hdone, rfl, within_seq (within_tagFree _) (within_answer _) s⟩

theorem isolationResponseTimeout_silent {g : Fin 256} {s : State} (h : s.isolated 1 = false) :
    Does (.isolationResponseTimeout g) .skip (fun _ => false) s := by
  refine does_of_completes (completes_of_finish rfl) ?_ within_skip
  simp only [isolationResponseTimeout, Upd.run_read, h, whenU_false]

end Sys2Proof.Machine

open Sys2Proof Sys2Proof.Machine

/-- Settles O39: FABRIC_REQUEST stage by stage, then the register accesses, then the fabric's own rows. -/
theorem fabricRequests : Obligations.FabricRequests :=
  ⟨fun _ _ _ hg => exec_fabricRequest_of_some hg,
   fun _ _ hg => exec_fabricRequest_of_none hg,
   fun _ _ h => fabricRequest_idle_does h,
   fun _ _ hq h => fabricRequest_fault_does hq h,
   fun _ _ _ hq h hk he hb => fabricRequest_tcm_does hq h hk he hb,
   fun _ _ _ hq hf hlt hm => fabricRequest_muted_does hq hf hlt hm,
   fun _ _ _ hq hf hlt hg hm hc => fabricRequest_contends hq hf hlt hm hg hc,
   fun _ _ _ _ hq hf hlt hm hc hk h0 => fabricRequest_refused hq hf hlt hm hc hk h0,
   fun _ _ _ hq hf hlt hm hc hkind ha hk hw hcache hp => fabricRequest_sram_write hq hf hlt hm hc ha hcache hp hkind hk hw,
   fun _ _ _ hq hf hlt hm hc hkind he hcache ha hk hw hp => fabricRequest_sram_read hq hf hlt hm hc ha hcache hp hkind he hk hw,
   fun _ _ _ _ _ hp h h0 => registerWrite_refused hp h h0,
   fun _ _ _ _ _ _ _ hp h ht hu ha hk hc => registerWrite_violation hp h ht hu ha hk hc,
   fun _ _ _ _ _ _ _ hp h ht hu ha hk hc => registerWrite_accepted hp h ht hu ha hk hc,
   fun _ _ _ _ h => registerWrite_off_does h,
   fun pid _ hp hu => clearOnRead_clears pid hp hu,
   fun _ _ _ hl hw => agePromotion_promotes hl hw,
   fun _ _ h => agePromotion_silent h,
   fun s => ⟨bwPeriodStart.run s, completes_of_finish rfl, rfl, within_upd _ s⟩,
   fun r s => ⟨(rtRegulatorPeriod r).run s, completes_of_finish rfl, rtRegulatorPeriod_rtUsed r s, within_upd _ s⟩,
   fun _ _ _ hi hr hk => isolationResponseTimeout_answers hi hr hk,
   fun _ _ h => isolationResponseTimeout_silent h⟩
end

section
/-!
Glade's own records (R122 to R135) under the commands it gives the load channels: a command from Glade hands no slot over, so it leaves all of
them as they were.
-/
namespace Sys2Proof.Machine

/-- Each update of a list leaves the view `φ` as it was; for a list written out, the conjunction of its members' statements. -/
def AllKeep {α : Type} (φ : State → α) : List Upd → Prop
  | [] => True
  | [u] => Keeps φ u
  | u :: l => Keeps φ u ∧ AllKeep φ l

theorem allKeep_cons {α : Type} {φ : State → α} {u : Upd} {l : List Upd} : AllKeep φ (u :: l) ↔ Keeps φ u ∧ AllKeep φ l := by
  cases l with
  | nil => exact ⟨fun h => ⟨h, trivial⟩, fun h => h.1⟩
  | cons v l => exact Iff.rfl

theorem keeps_seqs {α : Type} {φ : State → α} {l : List Upd} (h : AllKeep φ l) : Keeps φ (seqs l) := by
  induction l with
  | nil => exact keeps_seqs_nil
  | cons u l ih =>
    obtain ⟨hu, hl⟩ := allKeep_cons.mp h
    exact keeps_seqs_cons hu (ih hl)

/-- The update leaves Glade's records as they were. -/
def KeepsGld (u : Upd) : Prop := Keeps (fun s => s.b.gld) u

/-! ## Registers and the channels' records -/

theorem keepsGld_setReg (a v : Nat) : KeepsGld (setReg a v) := fun _ => rfl
theorem keepsGld_set (f : Fld) (v : Nat) : KeepsGld (set f v) := fun _ => rfl
theorem keepsGld_setBit (a i : Nat) : KeepsGld (setBit a i) := fun _ => rfl
theorem keepsGld_clrBit (a i : Nat) : KeepsGld (clrBit a i) := fun _ => rfl
theorem keepsGld_putBit (a i : Nat) (b : Bool) : KeepsGld (putBit a i b) := fun _ => rfl
theorem keepsGld_inc (f : Fld) (n : Nat) : KeepsGld (inc f n) := fun _ => rfl
theorem keepsGld_updChan (g : Nat) (f : Chan → Chan) : KeepsGld (updChan g f) := fun _ => rfl
theorem keepsGld_sumAdd (l ua : Nat) : KeepsGld (sumAdd l ua) := fun _ => rfl
theorem keepsGld_sumSub (l ua : Nat) : KeepsGld (sumSub l ua) := fun _ => rfl

theorem keepsGld_free {k : Nat → Upd} (h : ∀ v, KeepsGld (k v)) : KeepsGld (free k) :=
  keeps_read fun _ => keeps_seq (fun _ => rfl) (h _)

theorem keepsGld_rounded {num den : Nat} {k : Nat → Upd} (h : ∀ v, KeepsGld (k v)) : KeepsGld (rounded num den k) :=
  keeps_ite (fun _ => h _) fun _ => keepsGld_free fun _ => h _

/-! ## Loads -/

section
variable (l : Nat)

theorem keepsGld_raiseCh (i : Nat) : KeepsGld (raiseCh l i) := keeps_seq (keepsGld_setBit _ _) (keepsGld_setBit _ _)

theorem keepsGld_showLoad : KeepsGld (showLoad l) := keeps_read fun _ => keeps_forEach fun _ => keeps_read fun _ =>
  keeps_seqs ⟨keepsGld_setReg _ _, keepsGld_set _ _, keepsGld_set _ _, keepsGld_putBit _ _ _, keepsGld_putBit _ _ _,
    keepsGld_putBit _ _ _, keepsGld_putBit _ _ _⟩

theorem keepsGld_latchModes : KeepsGld (latchModes l) := keeps_read fun _ => keepsGld_updChan _ _

theorem keepsGld_storeCmd (w : Nat) : KeepsGld (storeCmd l w) := keeps_read fun _ =>
  keeps_seq (keeps_whenU fun _ => keepsGld_latchModes l) (keepsGld_setReg _ _)

theorem keepsGld_testAbandon : KeepsGld (testAbandon l) := keeps_read fun _ => keeps_whenU fun _ =>
  keeps_seqs ⟨keepsGld_updChan _ _, keepsGld_set _ _, keepsGld_set _ _, keepsGld_inc _ _, keepsGld_inc _ _, keepsGld_clrBit _ _⟩

theorem keepsGld_compUpdate : KeepsGld (compUpdate l) := keeps_read fun _ =>
  keeps_seqs ⟨keepsGld_updChan _ _, keeps_whenU fun _ => keepsGld_raiseCh l _, keepsGld_set _ _⟩

theorem keepsGld_predict {i0 : Nat} {k : Bool → Upd} (h : ∀ b, KeepsGld (k b)) : KeepsGld (predict l i0 k) := keeps_read fun _ =>
  keeps_ite (fun _ => keepsGld_free fun _ => keeps_seqs ⟨keepsGld_set _ _, h _⟩)
    fun _ => keepsGld_rounded fun _ => keeps_seq (keepsGld_set _ _) (h _)

theorem keepsGld_beginRamp (b : Bool) : KeepsGld (beginRamp l b) :=
  keeps_seqs ⟨keepsGld_updChan _ _, keepsGld_inc _ _, keeps_whenU fun _ => keepsGld_raiseCh l _⟩

theorem keepsGld_turnOff (how : How) (trip : Bool) : KeepsGld (turnOff l how trip) := by
  refine keeps_read fun s => ?_
  dsimp only
  split
  · exact keepsGld_updChan _ _
  · exact keepsGld_predict l fun _ => keeps_seqs ⟨keepsGld_updChan _ _,
      keeps_ite (fun _ => keepsGld_beginRamp l _) (fun _ => keepsGld_updChan _ _),
      keeps_forEach fun _ => keepsGld_set _ _, keepsGld_set _ _⟩
  · exact keeps_seqs ⟨keepsGld_updChan _ _, keeps_whenU fun _ => keepsGld_updChan _ _⟩

theorem keepsGld_turnOn : KeepsGld (turnOn l) := keeps_read fun _ => keeps_ite (fun _ => keepsGld_updChan _ _) fun _ =>
  keeps_seqs ⟨keepsGld_testAbandon l, keepsGld_updChan _ _, keeps_forEach fun _ => keeps_whenU fun _ => keepsGld_updChan _ _,
    keepsGld_compUpdate l, keepsGld_set _ _⟩

theorem keepsGld_shedLoad (kind : Shed) (how : How) : KeepsGld (shedLoad l kind how) :=
  keeps_seqs ⟨keepsGld_turnOff l _ _, keepsGld_updChan _ _, keeps_read fun _ => keepsGld_sumSub _ _, keepsGld_updChan _ _,
    keeps_whenU fun _ => keeps_seq (keepsGld_raiseCh l _) (keepsGld_inc _ _), keepsGld_showLoad l⟩

theorem keepsGld_admitLoad : KeepsGld (admitLoad l) := by
  refine keeps_read fun s => ?_
  dsimp only
  split
  · exact keeps_seqs ⟨keeps_forEach fun x => keepsGld_shedLoad x _ _, keepsGld_turnOn l, keepsGld_sumAdd _ _⟩
  · exact keeps_seqs ⟨keepsGld_updChan _ _, keepsGld_raiseCh l _, keepsGld_inc _ _⟩

/-! ## Commands of the load channels -/

theorem keepsGld_apply (w src : Nat) : KeepsGld (apply l w src) := by
  refine keeps_read fun s => keeps_seqs ⟨keepsGld_updChan _ _, keepsGld_set _ _, keeps_ite (fun _ => ?_) fun _ =>
    keeps_ite (fun _ => keepsGld_updChan _ _) fun _ => keepsGld_turnOff l _ _⟩
  split
  · exact keeps_seqs ⟨keepsGld_updChan _ _, keeps_whenU fun _ => keepsGld_updChan _ _, keeps_whenU fun _ => keepsGld_compUpdate l⟩
  · exact keeps_ite (fun _ => keeps_skip) fun _ => keepsGld_admitLoad l
  · exact keepsGld_updChan _ _

theorem keepsGld_applyGated (src : Nat) : KeepsGld (applyGated l src) := keeps_read fun _ =>
  keeps_ite (fun _ => keeps_seq (keepsGld_updChan _ _) (keepsGld_apply l _ _)) fun _ => keepsGld_updChan _ _

/-- A command from Glade itself (source 3) takes no slot out of Glade's hands (R127). -/
theorem keepsGld_command_glade (w : Nat) (isReg : Bool) : KeepsGld (command l w 3 isReg) := by
  have hch (f : Chan → Chan) : KeepsGld (updChan l f) := keepsGld_updChan l f
  have hsrc (f : Chan → Chan) : KeepsGld (.seq (updChan l f) (set (LSW_CH_STATUS0_CMD_SRC l) 3)) := keeps_seq (hch f) (keepsGld_set _ _)
  have hgated (f : Chan → Chan) : KeepsGld (.seq (updChan l f) (applyGated l 3)) := keeps_seq (hch f) (keepsGld_applyGated l 3)
  have happly (f : Chan → Chan) : KeepsGld (.seq (updChan l f) (apply l w 3)) := keeps_seq (hch f) (keepsGld_apply l w 3)
  refine keeps_read fun s => keeps_ite (fun _ => keeps_skip) fun _ => keeps_ite (fun _ => ?frozen) fun _ =>
    keeps_ite (fun _ => keeps_skip) fun _ => keeps_ite (fun _ => ?follower) fun _ => keeps_ite (fun _ => keeps_skip) fun _ =>
    keeps_seqs ⟨keepsGld_storeCmd l w, keeps_skip, ?stored, keepsGld_showLoad l⟩
  case frozen => exact keeps_seq (keepsGld_storeCmd l w) (hch _)
  case follower => exact keeps_whenU fun _ => keepsGld_storeCmd l w
  refine keeps_ite (fun _ => ?safe) fun _ => keeps_ite (fun _ => ?shed) fun _ => keeps_ite (fun _ => ?tripped) fun _ =>
    keeps_ite (fun _ => hsrc _) fun _ => keeps_ite (fun _ => hch _) fun _ => keeps_ite (fun _ => hch _) fun _ => happly _
  case safe =>
    exact keeps_ite (fun _ => keeps_skip) fun _ => keeps_ite (fun _ => happly _) fun _ => keeps_whenU fun _ =>
      keeps_seq (hch _) (keeps_ite (fun _ => keepsGld_applyGated l 3) fun _ => hch _)
  case shed => exact keeps_ite (fun _ => hch _) fun _ => hsrc _
  case tripped =>
    exact keeps_ite (fun _ => keeps_ite (fun _ => hch _) fun _ => keeps_ite (fun _ => hgated _) fun _ => hch _) fun _ => hsrc _

end

theorem keepsGld_gladeOn (g : Nat) : KeepsGld (gladeOn g) := keepsGld_command_glade g _ _

theorem keepsGld_gladeOff (g : Nat) : KeepsGld (gladeOff g) := keeps_read fun _ =>
  keeps_seq (keeps_whenU fun _ => keeps_seq (keepsGld_updChan _ _) (keepsGld_turnOff _ _ _)) (keepsGld_command_glade g _ _)

end Sys2Proof.Machine
end

section
/-!
Glade's rows (R110, R113 to R117, R124 to R126, R130, R132): what each does where its condition holds, and that it does nothing elsewhere.
-/
namespace Sys2Proof.Machine

/-! ## Glade's records -/

@[simp] theorem gldSlot_updGldSlot_same (k : Nat) (f : GldSlot → GldSlot) (s : State) :
    ((updGldSlot k f).run s).gldSlot k = f (s.gldSlot k) :=
  mapGet_mapPut_same ({} : GldSlot) s.b.gld.slots k _

theorem updGldSlot_congr {k : Nat} {f g : GldSlot → GldSlot} {s : State} (h : f (s.gldSlot k) = g (s.gldSlot k)) :
    (updGldSlot k f).run s = (updGldSlot k g).run s := by
  simp only [updGldSlot, updGld, upd, Upd.run_act, Act.run]
  rw [show f (mapGet {} s.b.gld.slots k) = g (mapGet {} s.b.gld.slots k) from h]

theorem KeepsGld.gldSlot_eq {u : Upd} (h : KeepsGld u) (s : State) (k : Nat) : (u.run s).gldSlot k = s.gldSlot k :=
  congrArg (fun x : Gld => mapGet ({} : GldSlot) x.slots k) (h s)

/-- A save writes the older copy, which is the newer one from then on (R131). -/
theorem Gld.store_save (x : Gld) (cfg : Option (List (Nat × Nat))) (dyn : List (Nat × Nat × Bool)) :
    (x.save cfg dyn).store = some ⟨(x.store.map (·.seq)).getD 0 + 1, cfg, some dyn⟩ := by
  have hnew (n : Nat) : ¬ n + 1 ≤ n := Nat.not_succ_le_self n
  have hold (n : Nat) : n ≤ n + 1 := Nat.le_succ n
  cases ha : x.copyA with
  | none =>
    cases hb : x.copyB with
    | none => simp only [Gld.save, Gld.store, ha, hb, Option.map_none, Option.getD_none]
    | some b => simp only [Gld.save, Gld.store, ha, hb, Option.map_some, Option.getD_some, hold, if_true]
  | some a =>
    cases hb : x.copyB with
    | none => simp only [Gld.save, Gld.store, ha, hb, Option.map_some, Option.getD_some, hnew, if_false]
    | some b =>
      by_cases hle : b.seq ≤ a.seq
      · simp only [Gld.save, Gld.store, ha, hb, hle, if_true, Option.map_some, Option.getD_some, hnew, if_false]
      · simp only [Gld.save, Gld.store, ha, hb, hle, if_false, Option.map_some, Option.getD_some, hold, if_true]

theorem Gld.saving_save (x : Gld) (cfg : Option (List (Nat × Nat))) (dyn : List (Nat × Nat × Bool)) : (x.save cfg dyn).saving = x.saving := by
  unfold Gld.save
  dsimp only
  split
  · split <;> rfl
  · rfl
  · rfl

/-! ## Glade's registers -/

theorem onPage_cell {k c o : Nat} (h : 0x1000 + (unitCells k).2 * c + o < 0x10000) : onPage k (cellBase k c + o) = true := by
  rw [cellBase, Nat.add_assoc, Nat.add_assoc, onPage_unitBase k (by omega)]

/-- The cell pages of Glade lie on its page. -/
theorem onPage_gldCell {c o : Nat} (hc : c < 32) (ho : o < 64) : onPage 22 (cellBase 22 c + o) = true :=
  onPage_cell (by rw [show (unitCells 22).2 = 64 from rfl]; omega)

theorem bitAt_of_reg_eq {s t : State} {a : Nat} (h : t.reg a = s.reg a) (i : Nat) : t.bitAt a i = s.bitAt a i := by
  simp only [State.bitAt, h]

theorem putBit_reg_ne {a c i : Nat} (b : Bool) (s : State) (h : a ≠ c) : ((putBit a i b).run s).reg c = s.reg c := setReg_reg_ne _ s h
theorem setBit_reg_ne {a c i : Nat} (s : State) (h : a ≠ c) : ((setBit a i).run s).reg c = s.reg c := setReg_reg_ne _ s h

theorem fits_gldCellState : ∀ c : Fin 32, (⟨GLD_CELL_STATE, c, c⟩ : Fld).fits = true := by decide
theorem fits_fwDisLo : ∀ i : Fin 32, (⟨GLD_FW_DIS_LO, i, i⟩ : Fld).fits = true := by decide
theorem fits_fwDisHi : ∀ i : Fin 32, (⟨GLD_FW_DIS_HI, i, i⟩ : Fld).fits = true := by decide

/-! ## Sample cells (R113 to R117) -/

theorem completes_gladeSampleDue (c : Fin 32) (v : Fin 1024) (late fail : Bool) {s : State} (hu : s.unarmed 22 = true) :
    Completes (.gladeSampleDue c v late fail) s ((gladeSampleDue c v late fail).run s) := by
  have harm : s.flag (BLK_ERR_INJ_ARM 22) = false := by simpa [State.unarmed] using hu
  have hdone : Completes (.gladeSampleDue c v late fail) s ((Upd.seq (workFire 22 (some c.val)) (gladeSampleDue c v late fail)).run s) :=
    completes_of_finish rfl
  rwa [Upd.run_seq, workFire_unarmed _ harm] at hdone

section
variable {c : Fin 32} {s : State}

theorem gladeSampleDue_of_off (v : Fin 1024) (late fail : Bool) (h : s.cellOn 22 c = false) :
    (gladeSampleDue c v late fail).run s = s := by
  simp only [gladeSampleDue, Upd.run_read, h, Bool.false_and, whenU_false, Upd.run_skip]

variable (h : s.cellOn 22 c = true) (hp : s.pwr ≠ 4)
include h hp

theorem gladeSampleDue_of_on (v : Fin 1024) (late fail : Bool) : (gladeSampleDue c v late fail).run s =
    (cellTakes c v false fun ch => whenU ch (evaluate (2 ^ c.val) false none fail)).run
      ((whenU late (.seq (count GLD_OVERRUN) (raise 22 3))).run ((elementOk 22 c).run s)) := by
  simp only [gladeSampleDue, Upd.run_read, h, bne_iff_ne.mpr hp, Bool.and_self, whenU_true, Upd.run_seq]

theorem gladeConversionTimeout_of_on : (gladeConversionTimeout c).run s = (report 22 (some c.val) TR).run s := by
  simp only [gladeConversionTimeout, Upd.run_read, h, bne_iff_ne.mpr hp, Bool.and_self, whenU_true]

end

theorem compareThr_of_hi_le {hi v : Nat} (h : hi ≤ v) (lo : Nat) (r : Bool) : compareThr hi lo v r = true := if_pos h

/-- With filter 3 the state of a cell is the result of the comparison (R115). -/
theorem GldCell.out_take_unfiltered (x : GldCell) (param hi lo v : Nat) (direct : Bool) :
    (x.take 3 param hi lo v direct).out = compareThr hi lo v x.r := by
  simp only [GldCell.take, ite_self]

theorem within_cellTakes {c : Nat} (hc : c < 32) (v : Nat) (direct : Bool) : Within (onPage 22) (cellTakes c v direct fun _ => .skip) :=
  within_read fun _ => within_seqs ⟨within_upd _, within_setReg (onPage_gldCell hc (by decide)), within_putBit (onPage_unitBase 22 (by decide)),
    within_putBit (onPage_gldCell hc (by decide)), within_skip⟩

/-- In Suspend or Watch a cell of a source below 57 takes the value given (R113), unfiltered here. -/
theorem cellTakes_bitAt_of_unfiltered {c : Fin 32} {v : Nat} {s : State} (hsrc : s.get (GLD_CELL_SRC_SRC c) < 57)
    (hfilt : s.get (GLD_CELL_FILT_FILT c) = 3) (hp : 1 < s.pwr) (hv : s.get (GLD_CELL_THR_THR_HI c) ≤ v) :
    ((cellTakes c v false fun _ => .skip).run s).bitAt GLD_CELL_STATE c = !s.flag (GLD_CELL_THR_INVERT c) := by
  have hne : CELL_STAT 22 c ≠ GLD_CELL_STATE := by
    simp only [CELL_STAT, cellBase, GLD_CELL_STATE]; omega
  simp only [cellTakes, Upd.run_read, Nat.not_le.mpr hsrc, Nat.not_le.mpr hp, hfilt, if_false, false_and, seqs_cons_run, seqs_nil_run,
    Upd.run_skip, GldCell.out_take_unfiltered, compareThr_of_hi_le hv]
  rw [bitAt_of_reg_eq (putBit_reg_ne _ _ hne), bitAt_putBit_same (fits_gldCellState c), Bool.true_bne]

/-! ## Designated loads (R124, R125) -/

theorem completes_flashToggle (k : Fin 8) (s : State) : Completes (.flashToggle k) s ((flashToggle k).run s) := completes_of_finish rfl
theorem completes_maxOnExpiry (k : Fin 8) (s : State) : Completes (.maxOnExpiry k) s ((maxOnExpiry k).run s) := completes_of_finish rfl

section
variable {k : Fin 8} {s : State}

theorem flashToggle_of_off (h : (s.gldSlot k).on = false) : (flashToggle k).run s = s := by
  simp only [flashToggle, Upd.run_read, h, Bool.false_and, whenU_false, Upd.run_skip]

section
variable (hon : (s.gldSlot k).on = true) (hf : (s.gldSlot k).flash = true) (hh : (s.gldSlot k).handed = false)
include hon hf hh

/-- A flashing slot's phase turns, and its channel with it. -/
theorem flashToggle_of_flashing {ph : Bool} (hph : (s.gldSlot k).phase = ph) : (flashToggle k).run s =
    (if ph then gladeOff (s.slotCh k) else gladeOn (s.slotCh k)).run ((updGldSlot k fun x => { x with phase := !ph }).run s) := by
  have hcongr : (updGldSlot k fun x => { x with phase := !x.phase }).run s = (updGldSlot k fun x => { x with phase := !ph }).run s :=
    updGldSlot_congr (by rw [hph])
  simp only [flashToggle, Upd.run_read, hon, hf, hh, hph, Bool.not_false, Bool.and_self, whenU_true, Upd.run_seq, hcongr]

theorem flashToggle_phase {ph : Bool} (hph : (s.gldSlot k).phase = ph) : (((flashToggle k).run s).gldSlot k).phase = !ph := by
  have hkeeps : KeepsGld (if ph then gladeOff (s.slotCh k) else gladeOn (s.slotCh k)) :=
    keeps_ite (fun _ => keepsGld_gladeOff _) fun _ => keepsGld_gladeOn _
  rw [flashToggle_of_flashing hon hf hh hph, hkeeps.gldSlot_eq, gldSlot_updGldSlot_same]

end

variable (hon : (s.gldSlot k).on = true) (hh : (s.gldSlot k).handed = false)
include hon hh

theorem maxOnExpiry_gldSlot (hm : s.get (GLD_DLOAD_CFG_MAX_ON k) ≠ 0) :
    ((maxOnExpiry k).run s).gldSlot k = { expired := true } := by
  have hflag : s.flag (GLD_DLOAD_CFG_MAX_ON k) = true := bne_iff_ne.mpr hm
  simp only [maxOnExpiry, Upd.run_read, hon, hh, hflag, Bool.not_false, Bool.and_self, whenU_true, Upd.run_seq]
  rw [(keepsGld_gladeOff _).gldSlot_eq, gldSlot_updGldSlot_same]

theorem dloadReturn_of_free (hb : s.slotBlocked k = false) : (dloadReturn k).run s = (gateTry (s.lead (s.slotCh k))).run s := by
  simp only [dloadReturn, Upd.run_read, hon, hh, hb, Bool.not_false, Bool.and_self, whenU_true]

end

/-! ## The end of services, Watch, the sequencer (R110, R125, R126) -/

section
variable {s : State}

theorem gladeServiceEnd_of_pwr_le_one (h : s.pwr ≤ 1) : gladeServiceEnd.run s = s := by
  have hrules : s.gladeRules = false := by
    simp only [State.gladeRules, Bool.or_eq_false_iff, beq_eq_false_iff_ne]; omega
  simp only [gladeServiceEnd, Upd.run_read, hrules, Bool.false_and, whenU_false, Upd.run_skip]

theorem gladeServiceEnd_of_idle (hr : s.gladeRules = true) (hs : s.flag PSM_STAT_P_SERVICE = true) (hb : ∀ k, k < 8 → s.slotBusy k = false) :
    gladeServiceEnd.run s = (seqs [forN 4 fun d => .read fun s => whenU (s.die d).on (dieDown d), showLocks,
      set PSM_STAT_P_SERVICE 0, deepTry]).run s := by
  have hany : (List.range 8).any s.slotBusy = false := List.any_eq_false.mpr fun k hk => ne_true_of_eq_false (hb k (List.mem_range.mp hk))
  simp only [gladeServiceEnd, Upd.run_read, hr, hs, hany, Bool.not_false, Bool.and_self, whenU_true]

theorem watchMaxExpiry_of_ne_watch (h : s.pwr ≠ 3) : watchMaxExpiry.run s = s := by
  simp only [watchMaxExpiry, Upd.run_read, beq_eq_false_iff_ne.mpr h, Bool.false_and, whenU_false, Upd.run_skip]

section
variable (hp : s.pwr = 3) (hm : s.get GLD_CFG_WATCH_MAX ≠ 0) (hd : s.b.gld.maxDropped = false)
include hp hm hd

/-- In Watch with the timer on: an entry that fired at the same time decides (R121, R126). -/
theorem watchMaxExpiry_of_watch :
    watchMaxExpiry.run s = (if s.b.gld.firedAt = some s.now then updGld fun x => { x with maxDropped := true }
      else .seq (updGld fun x => { x with deep := true }) deepTry).run s := by
  have hflag : s.flag GLD_CFG_WATCH_MAX = true := bne_iff_ne.mpr hm
  simp only [watchMaxExpiry, Upd.run_read, hp, beq_self_eq_true, hflag, hd, Bool.not_false, Bool.and_self, whenU_true]

theorem watchMaxExpiry_of_unfired (hf : s.b.gld.firedAt ≠ some s.now) :
    watchMaxExpiry.run s = (Upd.seq (updGld fun x => { x with deep := true }) deepTry).run s := by
  rw [watchMaxExpiry_of_watch hp hm hd, if_neg hf]

theorem watchMaxExpiry_of_fired (hf : s.b.gld.firedAt = some s.now) :
    watchMaxExpiry.run s = (updGld fun x => { x with maxDropped := true }).run s := by
  rw [watchMaxExpiry_of_watch hp hm hd, if_pos hf]

end

theorem gladeSeqWdog_of_running (h : s.flag GLD_SEQ_STAT_RUN = true) :
    gladeSeqWdog.run s = (seqs [inc GLD_SEQ_STAT_WDOG_CNT, raise 22 5, report 22 none TR]).run s := by
  simp only [gladeSeqWdog, Upd.run_read, h, whenU_true]

end

/-! ## False wakes (R130) -/

/-- The registers of Glade and of NMC that show the false wakes. -/
def falseWakeFoot (a : Nat) : Bool := onPage 22 a || onPage 15 a

theorem falseWakeFoot_gld {o : Nat} (ho : o < 0x10000) : falseWakeFoot (unitBase 22 + o) = true := by
  rw [falseWakeFoot, onPage_unitBase 22 ho, Bool.true_or]

theorem falseWakeFoot_cnt {src : Nat} (h : src < 64) : falseWakeFoot (NMC_FALSE_WAKE_CNT src) = true := by
  rw [falseWakeFoot, NMC_FALSE_WAKE_CNT, Nat.add_assoc, onPage_unitBase 15 (by omega), Bool.or_true]

theorem falseWakeFoot_gldCell {c o : Nat} (hc : c < 32) (ho : o < 64) : falseWakeFoot (cellBase 22 c + o) = true := by
  rw [falseWakeFoot, onPage_gldCell hc ho, Bool.true_or]

theorem within_setFw {src : Nat} (h : src < 64) (n : Nat) : Within falseWakeFoot (setFw src n) :=
  within_seq (within_upd _) (within_set (falseWakeFoot_cnt h))

theorem within_setFwDis {src : Nat} (h : src < 64) (b : Bool) : Within falseWakeFoot (setFwDis src b) := by
  have hcell : Within falseWakeFoot (putBit (CELL_STAT 22 (src - 32)) 9 b) := within_putBit (falseWakeFoot_gldCell (by omega) (by decide))
  exact within_seqs ⟨within_ite (within_putBit (falseWakeFoot_gld (by decide))) (within_putBit (falseWakeFoot_gld (by decide))),
    within_putBit (falseWakeFoot_cnt h), within_whenU hcell⟩

@[simp] theorem setFw_fwCount_same (src n : Nat) (s : State) : ((setFw src n).run s).fwCount src = n :=
  mapGet_mapPut_same 0 s.b.gld.fw src n

theorem keepsGld_setFwDis (src : Nat) (b : Bool) : KeepsGld (setFwDis src b) :=
  keeps_seqs ⟨keeps_ite (fun _ => keepsGld_putBit _ _ _) (fun _ => keepsGld_putBit _ _ _), keepsGld_putBit _ _ _,
    keeps_whenU fun _ => keepsGld_putBit _ _ _⟩

theorem KeepsGld.fwCount_eq {u : Upd} (h : KeepsGld u) (s : State) (src : Nat) : (u.run s).fwCount src = s.fwCount src :=
  congrArg (fun x : Gld => mapGet 0 x.fw src) (h s)

theorem fwDisabled_of_reg_eq {s t : State} (hlo : t.reg GLD_FW_DIS_LO = s.reg GLD_FW_DIS_LO) (hhi : t.reg GLD_FW_DIS_HI = s.reg GLD_FW_DIS_HI)
    (src : Nat) : t.fwDisabled src = s.fwDisabled src := by
  simp only [State.fwDisabled, bitAt_of_reg_eq hlo, bitAt_of_reg_eq hhi]

theorem setFwDis_fwDisabled_same {src : Nat} (h : src < 64) (b : Bool) (s : State) : ((setFwDis src b).run s).fwDisabled src = b := by
  have hcnt {a : Nat} (ha : onPage 15 a = false) : NMC_FALSE_WAKE_CNT src ≠ a := by
    rw [NMC_FALSE_WAKE_CNT, Nat.add_assoc]
    exact ne_of_offPage ha (by omega)
  simp only [setFwDis, State.fwDisabled, seqs_cons_run, seqs_nil_run]
  by_cases hlt : src < 32
  · simp only [hlt, if_true, Nat.not_le.mpr hlt, decide_false, whenU_false, Upd.run_skip]
    rw [bitAt_of_reg_eq (putBit_reg_ne _ _ (hcnt (by decide))), bitAt_putBit_same (fits_fwDisLo ⟨src, hlt⟩)]
  · have hcell : CELL_STAT 22 (src - 32) ≠ GLD_FW_DIS_HI := by simp only [CELL_STAT, cellBase, GLD_FW_DIS_HI]; omega
    simp only [hlt, if_false, Nat.not_lt.mp hlt, decide_true, whenU_true]
    rw [bitAt_of_reg_eq (putBit_reg_ne _ _ hcell), bitAt_of_reg_eq (putBit_reg_ne _ _ (hcnt (by decide))),
      bitAt_putBit_same (fits_fwDisHi ⟨src - 32, by omega⟩)]

theorem completes_validationWindowExpiry (s : State) : Completes .validationWindowExpiry s (validationWindowExpiry.run s) :=
  completes_of_finish rfl

section
variable {src v : Nat} {l : List (Nat × Nat)} {s : State} (hw : s.b.gld.wins = (src, v) :: l)
include hw

theorem validationWindowExpiry_of_uncounted (hth : s.get GLD_CFG_FW_TH = 0) :
    validationWindowExpiry.run s = (updGld fun x => { x with wins := l }).run s := by
  simp only [validationWindowExpiry, Upd.run_read, hw, hth, bne_self_eq_false, whenU_false, Upd.run_seq, Upd.run_skip]

/-- The window that makes the count reach the threshold disables its source. -/
theorem validationWindowExpiry_of_threshold (hth : s.get GLD_CFG_FW_TH ≠ 0) (hle : s.get GLD_CFG_FW_TH ≤ min 255 (s.fwCount src + 1)) :
    validationWindowExpiry.run s = (raise 22 1).run ((setFwDis src true).run ((setFw src (min 255 (s.fwCount src + 1))).run
      ((updGld fun x => { x with wins := l }).run s))) := by
  simp only [validationWindowExpiry, Upd.run_read, hw, bne_iff_ne.mpr hth, hle, decide_true, whenU_true, Upd.run_seq]

theorem validationWindowExpiry_uncounted (hth : s.get GLD_CFG_FW_TH = 0) :
    ∃ t, Completes .validationWindowExpiry s t ∧ t.b.gld.wins = l ∧ Untouched (fun _ => false) s t := by
  have hdone := completes_validationWindowExpiry s
  rw [validationWindowExpiry_of_uncounted hw hth] at hdone
  exact ⟨_, hdone, rfl, within_upd _ s⟩

theorem validationWindowExpiry_disables (hth : s.get GLD_CFG_FW_TH ≠ 0) (hsrc : src < 64)
    (hle : s.get GLD_CFG_FW_TH ≤ min 255 (s.fwCount src + 1)) :
    ∃ t, Completes .validationWindowExpiry s t ∧ t.fwCount src = min 255 (s.fwCount src + 1) ∧ t.fwDisabled src = true ∧
      t.bitAt (BLK_IRQ_STAT 22) 1 = true ∧ Untouched falseWakeFoot s t := by
  have hdone := completes_validationWindowExpiry s
  rw [validationWindowExpiry_of_threshold hw hth hle] at hdone
  have hraise : Within falseWakeFoot (raise 22 1) := within_setBit (falseWakeFoot_gld (by decide))
  refine ⟨_, hdone, ?_, ?_, bitAt_setBit_same (by decide) _, ?_⟩
  · have hkeeps : KeepsGld (raise 22 1) := keepsGld_setBit _ _
    rw [hkeeps.fwCount_eq, (keepsGld_setFwDis src true).fwCount_eq, setFw_fwCount_same]
  · have hraised (u : State) : ((raise 22 1).run u).fwDisabled src = u.fwDisabled src :=
      fwDisabled_of_reg_eq (setBit_reg_ne u (by decide)) (setBit_reg_ne u (by decide)) src
    rw [hraised, setFwDis_fwDisabled_same hsrc]
  · exact (((within_upd _ s).trans (within_setFw hsrc _ _)).trans (within_setFwDis hsrc true _)).trans (hraise _)

end

/-! ## The store (R131, R132) -/

section
variable {s : State}

/-- What the end of a save leaves of Glade's records. -/
def savedGld (ok : Bool) (s : State) (x : Gld) : Gld :=
  if ok then ({ x with saving := false } : Gld).save (some s.configRecord) s.dynRecord else { x with saving := false }

theorem gladeSaveDone_of_saving (ok : Bool) (h : s.b.gld.saving = true) : (gladeSaveDone ok).run s =
    (raise 22 2).run ((set GLD_STORE_CTRL_SAVE_RES (if ok then 1 else 2)).run ((updGld (savedGld ok s)).run s)) := by
  simp only [gladeSaveDone, Upd.run_read, h, whenU_true, seqs_cons_run, seqs_nil_run]
  rfl

/-- A save that ends shows its result, raises STORE_DONE and writes Glade's registers alone. -/
theorem gladeSaveDone_ends (ok : Bool) (h : s.b.gld.saving = true) :
    ∃ t, Completes (.gladeSaveDone ok) s t ∧ t.b.gld = savedGld ok s s.b.gld ∧ t.get GLD_STORE_CTRL_SAVE_RES = (if ok then 1 else 2) ∧
      t.bitAt (BLK_IRQ_STAT 22) 2 = true ∧ Untouched (onPage 22) s t := by
  have hdone : Completes (.gladeSaveDone ok) s ((gladeSaveDone ok).run s) := completes_of_finish rfl
  rw [gladeSaveDone_of_saving ok h] at hdone
  have hset : Within (onPage 22) (set GLD_STORE_CTRL_SAVE_RES (if ok then 1 else 2)) := within_set (onPage_unitBase 22 (by decide))
  have hraise : Within (onPage 22) (raise 22 2) := within_setBit (onPage_unitBase 22 (by decide))
  refine ⟨_, hdone, rfl, ?_, bitAt_setBit_same (by decide) _, ((within_upd _ s).trans (hset _)).trans (hraise _)⟩
  rw [raise, setBit_eq, get_set_ne_reg (by decide), get_set_same (by decide)]
  cases ok <;> rfl

theorem gladeSaveDone_stores (h : s.b.gld.saving = true) :
    ∃ t, Completes (.gladeSaveDone true) s t ∧ t.get GLD_STORE_CTRL_SAVE_RES = 1 ∧ t.b.gld.saving = false ∧
      t.b.gld.store = some ⟨(s.b.gld.store.map (·.seq)).getD 0 + 1, some s.configRecord, some s.dynRecord⟩ ∧ Untouched (onPage 22) s t := by
  obtain ⟨t, hdone, hgld, hres, _, hunt⟩ := gladeSaveDone_ends true h
  refine ⟨t, hdone, hres, ?_, ?_, hunt⟩
  · rw [hgld, savedGld, if_pos rfl, Gld.saving_save]
  · rw [hgld, savedGld, if_pos rfl, Gld.store_save]
    rfl

theorem gladeSaveDone_fails (h : s.b.gld.saving = true) :
    ∃ t, Completes (.gladeSaveDone false) s t ∧ t.get GLD_STORE_CTRL_SAVE_RES = 2 ∧ t.b.gld.store = s.b.gld.store ∧
      t.bitAt (BLK_IRQ_STAT 22) 2 = true ∧ Untouched (onPage 22) s t := by
  obtain ⟨t, hdone, hgld, hres, hirq, hunt⟩ := gladeSaveDone_ends false h
  refine ⟨t, hdone, hres, ?_, hirq, hunt⟩
  rw [hgld]
  rfl

end

end Sys2Proof.Machine

open Sys2Proof Sys2Proof.Machine

/-- Settles O41: each row's command completes with its operation, which the row's conditions reduce to the effect stated. -/
theorem gladeEvents : Obligations.GladeEvents :=
  ⟨fun _ v late fail _ hu h => does_of_completes (completes_gladeSampleDue _ v late fail hu) (gladeSampleDue_of_off v late fail h) within_skip,
   fun _ v fail _ hu h hp => gladeSampleDue_of_on h hp v false fail ▸ completes_gladeSampleDue _ v false fail hu,
   fun _ v fail _ hu h hp => gladeSampleDue_of_on h hp v true fail ▸ completes_gladeSampleDue _ v true fail hu,
   fun c v s hsrc hfilt hp hv => ⟨cellTakes_bitAt_of_unfiltered hsrc hfilt hp hv, within_cellTakes c.isLt v false s⟩,
   fun _ _ h hp => gladeConversionTimeout_of_on h hp ▸ completes_of_finish rfl,
   fun k s hon hf hh hph => ⟨_, completes_flashToggle k s, flashToggle_phase hon hf hh hph, flashToggle_of_flashing hon hf hh hph⟩,
   fun k s hon hf hh hph => ⟨_, completes_flashToggle k s, flashToggle_phase hon hf hh hph, flashToggle_of_flashing hon hf hh hph⟩,
   fun k s h => does_of_completes (completes_flashToggle k s) (flashToggle_of_off h) within_skip,
   fun k s hon hh hm => ⟨_, completes_maxOnExpiry k s, maxOnExpiry_gldSlot hon hh hm⟩,
   fun _ _ hon hh hb => dloadReturn_of_free hon hh hb ▸ completes_of_finish rfl,
   fun _ h => does_of_completes (completes_of_finish rfl) (gladeServiceEnd_of_pwr_le_one h) within_skip,
   fun _ hr hs hb => gladeServiceEnd_of_idle hr hs hb ▸ completes_of_finish rfl,
   fun _ hp hm hd hf => watchMaxExpiry_of_unfired hp hm hd hf ▸ completes_of_finish rfl,
   fun _ hp hm hd hf => does_of_completes (completes_of_finish rfl) (watchMaxExpiry_of_fired hp hm hd hf) (within_upd _),
   fun _ h => does_of_completes (completes_of_finish rfl) (watchMaxExpiry_of_ne_watch h) within_skip,
   fun _ h => gladeSeqWdog_of_running h ▸ completes_of_finish rfl,
   fun _ _ _ _ hw hth => validationWindowExpiry_uncounted hw hth,
   fun _ _ _ _ hw hth hsrc hle => validationWindowExpiry_disables hw hth hsrc hle,
   fun _ h => gladeSaveDone_stores h,
   fun _ h => gladeSaveDone_fails h⟩
end

section
/-!
A retired sample cell whose CELL_STAT shows ENABLED all the same (R77, R117): a sample due for it is taken.
-/
namespace Sys2Proof.Machine

/-- The state after reset, but for cell 31 of Glade, which shows RETIRED and ENABLED. -/
def retiredEnabled : State := (seqs [set (CELL_STAT_RETIRED 22 31) 1, set (CELL_STAT_ENABLED 22 31) 1]).run State.reset

theorem retiredEnabled_settles : (settle.run retiredEnabled).reg (GLD_CELL_VAL 31) = 0 := by decide +kernel

theorem retiredEnabled_takes_sample :
    (settle.run ((gladeSampleDue 31 1023 false false).run retiredEnabled)).reg (GLD_CELL_VAL 31) = 0x83FF03FF := by decide +kernel

end Sys2Proof.Machine

open Sys2Proof Sys2Proof.Machine

/-- Refutes O9: the part on retired cells asks that RETIRED is set and says nothing of ENABLED, by which GLADE_SAMPLE_DUE decides. In
`retiredEnabled` the sample 1023 reaches the cell's value register. For a cell that is not enabled, `gladeSampleDue_of_off` is the part. -/
theorem not_gladeConversions : ¬ Obligations.GladeConversions := by
  rintro ⟨_, _, hretired⟩
  obtain ⟨hskipped, _⟩ := hretired 31 1023 false false retiredEnabled (by decide) (by decide)
  have htaken := completes_gladeSampleDue 31 1023 false false (s := retiredEnabled) (by decide)
  have hsame : settle.run retiredEnabled = settle.run ((gladeSampleDue 31 1023 false false).run retiredEnabled) :=
    Host.Outcome.next.inj (hskipped.symm.trans htaken)
  have hvalue := congrArg (fun t => t.reg (GLD_CELL_VAL 31)) hsame
  simp only [retiredEnabled_settles, retiredEnabled_takes_sample] at hvalue
  exact absurd hvalue (by decide)
end

section
/-!
Module resets and the boot (R138 to R148): what the update engine writes after a reset and at the lock, and what BOOT_TIMEOUT asks for.
-/
namespace Sys2Proof.Machine

theorem Untouched.get_eq {p : Nat → Bool} {s t : State} (h : Untouched p s t) {f : Fld} (hf : p f.reg = false) : t.get f = s.get f := by
  simp only [State.get, h.reg_eq hf]

/-! ## Footprint of the update engine -/

/-- The pages where the update engine shows its work (R654 to R680): memory's, the vault's for the anti-rollback counters, IOM's for the
migration record. -/
def updateFoot (a : Nat) : Bool := onPage 4 a || onPage 5 a || onPage 6 a

theorem updateFoot_mem {o : Nat} (ho : o < 0x10000) : updateFoot (unitBase 4 + o) = true := by
  simp only [updateFoot, onPage_unitBase 4 ho, Bool.true_or]

theorem updateFoot_vlt {o : Nat} (ho : o < 0x10000) : updateFoot (unitBase 5 + o) = true := by
  simp only [updateFoot, onPage_unitBase 5 ho, Bool.true_or, Bool.or_true]

theorem updateFoot_iom {o : Nat} (ho : o < 0x10000) : updateFoot (unitBase 6 + o) = true := by
  simp only [updateFoot, onPage_unitBase 6 ho, Bool.or_true]

theorem within_setMem {o : Nat} (ho : o < 0x10000) (hi lo v : Nat) : Within updateFoot (set ⟨unitBase 4 + o, hi, lo⟩ v) :=
  within_set (updateFoot_mem ho)

theorem within_updCode (c : Nat) : Within updateFoot (updCode c) := within_setMem (by decide) _ _ _

theorem within_showBoot : Within updateFoot showBoot := by
  refine within_read fun s => within_seqs ⟨within_setMem (by decide) _ _ _, within_setMem (by decide) _ _ _, within_forN fun i hi => ?_⟩
  have hcid : ∀ i < 4, updateFoot (MEM_UPD_CID i) = true := by decide
  exact within_setReg (hcid i hi)

theorem within_bootWrite (f : BootRec → BootRec) : Within updateFoot (bootWrite f) := within_seq (within_upd _) within_showBoot

theorem within_showTxn : Within updateFoot showTxn :=
  within_read fun _ => within_seq (within_setMem (by decide) _ _ _) (within_setMem (by decide) _ _ _)

theorem within_showMigJrnl : Within updateFoot showMigJrnl := by
  refine within_read fun s => ?_
  split
  · exact within_setReg (updateFoot_iom (by decide))
  · exact within_setReg (updateFoot_iom (by decide))

theorem within_updAtReset : Within updateFoot updAtReset :=
  within_seqs ⟨within_upd _, within_showBoot, within_showTxn, within_showMigJrnl⟩

theorem within_discard : Within updateFoot discard := within_seqs ⟨within_upd _, within_bootWrite _, within_setMem (by decide) _ _ _⟩

theorem within_arbRaise {i : Nat} (hi : i < 16) (v : Nat) {k : Nat → Upd} (hk : ∀ c, Within updateFoot (k c)) :
    Within updateFoot (arbRaise i v k) := by
  have hcnt : ∀ i < 16, updateFoot (VLT_ARB_CNT (i / 4)) = true := by decide
  exact within_read fun _ => within_ite (hk _) (within_ite (hk _)
    (within_seqs ⟨within_upd _, within_read fun _ => within_set (hcnt i hi), hk _⟩))

theorem within_confirmed : Within updateFoot confirmed :=
  within_read fun _ => within_seqs ⟨within_bootWrite _, within_upd _, within_setMem (by decide) _ _ _, within_updCode _,
    within_whenU (within_forN fun _ hk => within_whenU (within_arbRaise (by omega) _ fun _ => within_skip))⟩

theorem within_norBusy (k : Nat) : Within updateFoot (norBusy k) :=
  within_read fun _ => within_seq (within_setMem (by decide) _ _ _) (within_setMem (by decide) _ _ _)

theorem within_commitIdle : Within updateFoot commitIdle :=
  within_seqs ⟨within_setMem (by decide) _ _ _, within_setMem (by decide) _ _ _, within_upd _, within_setMem (by decide) _ _ _,
    within_setMem (by decide) _ _ _⟩

theorem within_askReset {p : Nat → Bool} (cause : Nat) : Within p (askReset cause) := within_upd _

theorem within_enterTrial : Within updateFoot enterTrial :=
  within_read fun _ => within_seqs ⟨within_ite (within_seq within_confirmed (within_askReset _))
    (within_seq (within_bootWrite _) (within_whenU (within_askReset _))), within_upd _⟩

theorem within_nextStep : Within updateFoot nextStep := by
  refine within_read fun s => ?_
  split
  · exact within_seqs ⟨within_norBusy _, within_setMem (by decide) _ _ _, within_upd _⟩
  · exact within_seqs ⟨within_upd _, within_commitIdle, within_updCode _, within_enterTrial⟩

theorem within_fallback (why : Nat) : Within updateFoot (fallback why) :=
  within_read fun _ => within_seqs ⟨within_upd _, within_bootWrite _, within_upd _, within_setMem (by decide) _ _ _, within_updCode _,
    within_whenU (within_askReset _)⟩

theorem within_updAtLock : Within updateFoot updAtLock := by
  refine within_read fun s => ?_
  split
  · exact within_discard
  · exact within_seqs ⟨within_upd _, within_setMem (by decide) _ _ _, within_setMem (by decide) _ _ _, within_setMem (by decide) _ _ _,
      within_nextStep⟩
  · exact within_ite (within_fallback _) (within_whenU (within_seq (within_upd _) (within_setMem (by decide) _ _ _)))
  · exact within_skip

/-! ## The cause of a module reset (R139) -/

/-- A module reset ends with the record of its cause and the update engine's stop. -/
theorem moduleReset_run (cause : Nat) (s : State) : ∃ t, (moduleReset cause).run s =
    updAtReset.run ((whenU (decide (4 ≤ cause)) (inc MSU_RST_CAUSE_LOOP_CNT)).run
      ((set MSU_RST_CAUSE_RESUMED 0).run ((set MSU_RST_CAUSE_CAUSE cause).run t))) :=
  ⟨_, rfl⟩

theorem moduleReset_cause {cause : Nat} (h : cause < 16) (s : State) : ((moduleReset cause).run s).get MSU_RST_CAUSE_CAUSE = cause := by
  obtain ⟨t, ht⟩ := moduleReset_run cause s
  have hloop : Keeps (·.get MSU_RST_CAUSE_CAUSE) (whenU (decide (4 ≤ cause)) (inc MSU_RST_CAUSE_LOOP_CNT)) :=
    keeps_whenU fun _ => keeps_read fun _ => keeps_get_set _ (by decide) (by decide) (by decide)
  have hresumed : Keeps (·.get MSU_RST_CAUSE_CAUSE) (set MSU_RST_CAUSE_RESUMED 0) :=
    keeps_get_set _ (by decide) (by decide) (by decide)
  calc ((moduleReset cause).run s).get MSU_RST_CAUSE_CAUSE
    _ = ((set MSU_RST_CAUSE_CAUSE cause).run t).get MSU_RST_CAUSE_CAUSE := by
      rw [ht, (within_updAtReset _).get_eq (by decide)]
      exact (hloop _).trans (hresumed _)
    _ = cause := (get_set_same (by decide) cause t).trans (Nat.mod_eq_of_lt h)

/-! ## The lock (R147) -/

theorem within_wdogShow : Within (· != MSU_BOOT_STAT) wdogShow := by
  refine within_read fun s => within_forN fun i hi => ?_
  have hstat : ∀ i < 4, (MSU_WDOG_STAT i != MSU_BOOT_STAT) = true := by decide
  exact within_read fun _ => within_whenU (within_seq (within_set (hstat i hi)) (within_whenU (within_upd _)))

theorem within_flwCopy {p : Nat → Bool} : Within p flwCopy := within_read fun _ => within_upd _

/-- What the lock does after it shows PHASE 3 leaves MSU_BOOT_STAT alone. -/
theorem lockSet_phase (s : State) : (lockSet.run s).get MSU_BOOT_STAT_PHASE = 3 := by
  simp only [lockSet, seqs_cons_run, seqs_nil_run]
  rw [(within_updAtLock _).get_eq (by decide), (within_flwCopy (p := fun _ => false) _).get_eq rfl,
    (within_wdogShow _).get_eq (by decide), get_set_same (by decide)]
  rfl

/-! ## BOOT_TIMEOUT (R148) -/

section
variable {s : State}

theorem completes_bootTimeout (s : State) : Completes .bootTimeout s (bootTimeout.run s) := completes_of_finish rfl

theorem bootTimeout_of_running (hp : s.get MSU_BOOT_STAT_PHASE = 2) (hd : s.flag VLT_DBG_STAT_UNLOCKED = false) :
    bootTimeout.run s = (askReset 6).run s := by
  simp only [bootTimeout, Upd.run_read, hp, hd, beq_self_eq_true, Bool.not_false, Bool.and_self, whenU_true]

theorem bootTimeout_of_phase_ne (hp : s.get MSU_BOOT_STAT_PHASE ≠ 2) : bootTimeout.run s = s := by
  simp only [bootTimeout, Upd.run_read, beq_false_of_ne hp, Bool.false_and, whenU_false, Upd.run_skip]

theorem bootTimeout_of_unlocked (hd : s.flag VLT_DBG_STAT_UNLOCKED = true) : bootTimeout.run s = s := by
  simp only [bootTimeout, Upd.run_read, hd, Bool.not_true, Bool.and_false, whenU_false, Upd.run_skip]

theorem bootTimeout_asksReset (hp : s.get MSU_BOOT_STAT_PHASE = 2) (hd : s.flag VLT_DBG_STAT_UNLOCKED = false) :
    ∃ t, Completes .bootTimeout s t ∧ t.b.fab.reset = some 6 ∧ Untouched (fun _ => false) s t := by
  have hdone := completes_bootTimeout s
  rw [bootTimeout_of_running hp hd] at hdone
  exact ⟨_, hdone, rfl, within_askReset 6 s⟩

end

end Sys2Proof.Machine

open Sys2Proof Sys2Proof.Machine

/-- Settles O10: the three cases of BOOT_TIMEOUT, and that a module reset shows its cause and the lock leaves PHASE at 3. -/
theorem bootTimeoutRule : Obligations.BootTimeoutRule :=
  ⟨fun _ hp hd => bootTimeout_asksReset hp hd,
   fun s => moduleReset_cause (by decide) s,
   fun s hp => does_of_completes (completes_bootTimeout s) (bootTimeout_of_phase_ne hp) within_skip,
   fun s => by rw [lockSet_phase s]; decide,
   fun s hd => does_of_completes (completes_bootTimeout s) (bootTimeout_of_unlocked hd) within_skip⟩
end

section
/-!
What a reset of the host's functions leaves alone (R605), and with it the resets of what is bound to them (R626, R627): the records of the
blocks that neither the bound functions nor the bridge are part of.
-/
namespace Sys2Proof.Machine

/-- A view of the records that shows none of what such a reset changes: the load side, CAN, LIN, the signal router, IOM, the bridge, the
chain's packets, and the fabric's free values and counter halves. -/
structure Apart {α : Type} (π : Blocks → α) : Prop where
  fab : ∀ b x, π { b with fab := x } = π b
  lsw : ∀ b x, π { b with lsw := x } = π b
  can : ∀ b x, π { b with can := x } = π b
  lin : ∀ b x, π { b with lin := x } = π b
  srt : ∀ b x, π { b with srt := x } = π b
  iom : ∀ b x, π { b with iom := x } = π b
  hbr : ∀ b x, π { b with hbr := x } = π b
  flk : ∀ b x, π { b with flk := x } = π b

theorem apart_psm : Apart Blocks.psm := by constructor <;> exact fun _ _ => rfl

section
variable {α : Type} {π : Blocks → α}

/-! ## Updates of registers and memory, which leave every view of the records -/

theorem keeps_b_setBit (a i : Nat) : Keeps (π ·.b) (setBit a i) := fun _ => rfl
theorem keeps_b_clrBit (a i : Nat) : Keeps (π ·.b) (clrBit a i) := fun _ => rfl
theorem keeps_b_putBit (a i : Nat) (b : Bool) : Keeps (π ·.b) (putBit a i b) := fun _ => rfl
theorem keeps_b_inc (f : Fld) (n : Nat) : Keeps (π ·.b) (inc f n) := fun _ => rfl

theorem keeps_b_store (a n v : Nat) : Keeps (π ·.b) (store a n v) := fun s => congrArg π (storeBytes_b a (leBytes n v) s)

theorem keeps_b_setWords (c w : Nat) (vs : List Nat) : Keeps (π ·.b) (setWords c w vs) := by
  induction vs generalizing w with
  | nil => exact keeps_skip
  | cons v vs ih => exact keeps_seq (keeps_b_store _ _ _) (ih _)

theorem keeps_b_cellDrain (k c : Nat) (busy : State → Bool) {fin : Upd} (hf : Keeps (π ·.b) fin) :
    Keeps (π ·.b) (cellDrain k c busy fin) :=
  keeps_seq (keeps_b_set π _ _) (keeps_read fun _ => keeps_ite (fun _ => keeps_b_set π _ _) fun _ => hf)

theorem keeps_b_raiseCh (l i : Nat) : Keeps (π ·.b) (raiseCh l i) := keeps_seq (keeps_b_setBit _ _) (keeps_b_setBit _ _)

theorem keeps_b_showCh (g : Nat) : Keeps (π ·.b) (showCh g) := keeps_read fun _ =>
  keeps_seqs ⟨keeps_b_setReg π _ _, keeps_b_set π _ _, keeps_b_set π _ _, keeps_b_putBit _ _ _, keeps_b_putBit _ _ _,
    keeps_b_putBit _ _ _, keeps_b_putBit _ _ _⟩

theorem keeps_b_showLoad (l : Nat) : Keeps (π ·.b) (showLoad l) := keeps_read fun _ => keeps_forEach keeps_b_showCh

theorem keeps_b_txEvent (c i code : Nat) : Keeps (π ·.b) (txEvent c i code) := by
  have hadvance (s : State) (wm : Nat) : Keeps (π ·.b) (fifoAdvance s c 2 wm 25 26) :=
    keeps_seqs ⟨keeps_b_set π _ _, keeps_b_set π _ _, keeps_b_set π _ _, keeps_b_setBit _ _, keeps_whenU fun _ => keeps_b_setBit _ _⟩
  exact keeps_read fun s => keeps_ite (fun _ => keeps_seq (keeps_b_inc _ _) (keeps_b_setBit _ _))
    fun _ => keeps_seqs ⟨keeps_b_setWords _ _ _, hadvance s _⟩

theorem keeps_b_showQueue (c : Nat) : Keeps (π ·.b) (showQueue c) := by
  refine keeps_read fun s => keeps_seqs ⟨keeps_b_set π _ _, keeps_b_set π _ _, ?_⟩
  split
  · exact keeps_b_set π _ _
  · exact keeps_skip

theorem keeps_b_canState (c st : Nat) : Keeps (π ·.b) (canState c st) :=
  keeps_seqs ⟨keeps_b_set π _ _, keeps_whenU fun _ => keeps_b_set π _ _, keeps_whenU fun _ => keeps_b_set π _ _,
    keeps_b_putBit _ _ _, keeps_b_putBit _ _ _⟩

theorem keeps_b_boundRst (k c : Nat) {stop : Upd} (hs : Keeps (π ·.b) stop) : Keeps (π ·.b) (boundRst k c stop) :=
  keeps_read fun _ => keeps_whenU fun _ => keeps_seqs ⟨keeps_b_set π _ _, keeps_b_set π _ _, keeps_whenU fun _ => hs⟩

theorem keeps_b_ringEnHook (p b v : Nat) : Keeps (π ·.b) (ringEnHook p b v) := keeps_whenU fun _ => keeps_b_clrBit _ _

theorem keeps_b_showTrk : Keeps (π ·.b) showTrk := keeps_read fun _ => keeps_seq (keeps_b_set π _ _) (keeps_b_set π _ _)

/-! ## Free values -/

variable (h : Apart π)
include h

theorem Apart.keeps_free {k : Nat → Upd} (hk : ∀ v, Keeps (π ·.b) (k v)) : Keeps (π ·.b) (free k) :=
  keeps_read fun _ => keeps_seq (keeps_b_upd fun b => h.fab b _) (hk _)

theorem Apart.keeps_rounded {num den : Nat} {k : Nat → Upd} (hk : ∀ v, Keeps (π ·.b) (k v)) : Keeps (π ·.b) (rounded num den k) :=
  keeps_ite (fun _ => hk _) fun _ => h.keeps_free fun _ => hk _

/-! ## Cells (R81) -/

theorem Apart.keeps_resetRegs (p : Nat → Bool) : Keeps (π ·.b) (resetRegs p) :=
  keeps_seq (fun _ => rfl) (keeps_read fun _ => keeps_whenU fun _ => keeps_b_upd fun b => h.fab b _)

theorem Apart.keeps_cellDrained (k c : Nat) (keep : List Nat) {rst : Upd} (hr : Keeps (π ·.b) rst) :
    Keeps (π ·.b) (cellDrained k c keep rst) :=
  keeps_read fun _ => keeps_seqs ⟨keeps_b_set π _ _,
    keeps_whenU fun _ => keeps_seqs ⟨h.keeps_resetRegs _, hr, keeps_b_set π _ _⟩,
    keeps_read fun _ => keeps_whenU fun _ => keeps_b_set π _ _⟩

/-! ## Load channels (R303) -/

theorem Apart.keeps_updChan (g : Nat) (f : Chan → Chan) : Keeps (π ·.b) (updChan g f) := keeps_b_upd fun b => h.lsw b _

theorem Apart.keeps_testAbandon (l : Nat) : Keeps (π ·.b) (testAbandon l) := keeps_read fun _ => keeps_whenU fun _ =>
  keeps_seqs ⟨h.keeps_updChan _ _, keeps_b_set π _ _, keeps_b_set π _ _, keeps_b_inc _ _, keeps_b_inc _ _, keeps_b_clrBit _ _⟩

theorem Apart.keeps_predict (l i0 : Nat) {k : Bool → Upd} (hk : ∀ b, Keeps (π ·.b) (k b)) : Keeps (π ·.b) (predict l i0 k) :=
  keeps_read fun _ => keeps_ite (fun _ => h.keeps_free fun _ => keeps_seqs ⟨keeps_b_set π _ _, hk _⟩)
    fun _ => h.keeps_rounded fun _ => keeps_seq (keeps_b_set π _ _) (hk _)

theorem Apart.keeps_beginRamp (l : Nat) (b : Bool) : Keeps (π ·.b) (beginRamp l b) :=
  keeps_seqs ⟨h.keeps_updChan _ _, keeps_b_inc _ _, keeps_whenU fun _ => keeps_b_raiseCh _ _⟩

theorem Apart.keeps_turnOff (l : Nat) (how : How) (trip : Bool) : Keeps (π ·.b) (turnOff l how trip) := by
  refine keeps_read fun s => ?_
  dsimp only
  split
  · exact h.keeps_updChan _ _
  · exact h.keeps_predict l _ fun _ => keeps_seqs ⟨h.keeps_updChan _ _,
      keeps_ite (fun _ => h.keeps_beginRamp l _) (fun _ => h.keeps_updChan _ _),
      keeps_forEach fun _ => keeps_b_set π _ _, keeps_b_set π _ _⟩
  · exact keeps_seqs ⟨h.keeps_updChan _ _, keeps_whenU fun _ => h.keeps_updChan _ _⟩

theorem Apart.keeps_lswAfterReset (g cnt tj wire : Nat) : Keeps (π ·.b) (lswAfterReset g cnt tj wire) :=
  keeps_read fun _ => keeps_seqs ⟨h.keeps_updChan _ _, keeps_b_set π _ _, keeps_b_set π _ _, keeps_b_set π _ _, keeps_b_set π _ _,
    keeps_read fun _ => keeps_seqs ⟨h.keeps_updChan _ _, keeps_read fun _ => keeps_b_set π _ _⟩, keeps_b_showCh g⟩

theorem Apart.keeps_lswDisable (g : Nat) : Keeps (π ·.b) (lswDisable g) :=
  keeps_read fun _ => keeps_seqs ⟨h.keeps_turnOff _ _ _, h.keeps_testAbandon _, keeps_b_set π _ _, keeps_b_set π _ _,
    keeps_b_set π _ _, h.keeps_updChan _ _, keeps_b_cellDrain _ _ _ (keeps_read fun _ =>
      h.keeps_cellDrained _ _ _ (h.keeps_lswAfterReset _ _ _ _)), keeps_b_showLoad _, keeps_b_showCh _⟩

/-! ## CAN channels (R376, R403) -/

theorem Apart.keeps_updCan (c : Nat) (f : CanCh → CanCh) : Keeps (π ·.b) (updCan c f) := keeps_b_upd fun b => h.can b _

theorem Apart.keeps_endSlot (c i code : Nat) : Keeps (π ·.b) (endSlot c i code) :=
  keeps_read fun _ => keeps_seqs ⟨keeps_whenU fun _ => keeps_b_txEvent _ _ _,
    keeps_ite (fun _ => keeps_b_putBit _ _ _) (fun _ => keeps_b_putBit _ _ _),
    keeps_ite (fun _ => keeps_seq (keeps_b_set π _ _) (keeps_b_setBit _ _)) (fun _ => keeps_b_showQueue _),
    keeps_whenU fun _ => keeps_b_setBit _ _, keeps_whenU fun _ => keeps_b_setBit _ _, h.keeps_updCan _ _⟩

theorem Apart.keeps_canDisable (c : Nat) : Keeps (π ·.b) (canDisable c) :=
  keeps_read fun _ => keeps_seqs ⟨keeps_read fun _ => keeps_forEach fun _ => h.keeps_endSlot _ _ _, h.keeps_updCan _ _,
    keeps_whenU fun _ => keeps_b_inc _ _, keeps_b_set π _ _, keeps_b_canState _ _, keeps_whenU fun _ => keeps_b_set π _ _,
    keeps_b_cellDrain _ _ _ (h.keeps_cellDrained _ _ _ (keeps_seq (h.keeps_updCan _ _) keeps_skip))⟩

/-! ## LIN channels (R415) -/

theorem Apart.keeps_updLin (n : Nat) (f : LinCh → LinCh) : Keeps (π ·.b) (updLin n f) := keeps_b_upd fun b => h.lin b _

theorem Apart.keeps_linDisable (n : Nat) : Keeps (π ·.b) (linDisable n) :=
  keeps_read fun _ => keeps_seqs ⟨keeps_seq (keeps_b_set π _ _) (h.keeps_updLin _ _), keeps_b_setReg π _ _, keeps_b_setReg π _ _,
    h.keeps_updLin _ _, keeps_whenU fun _ => h.keeps_updLin _ _,
    keeps_b_cellDrain _ _ _ (keeps_seq (h.keeps_cellDrained _ _ _ (h.keeps_updLin _ _)) (keeps_read fun _ => keeps_b_set π _ _))⟩

/-! ## Bound functions (R626, R627) -/

theorem Apart.keeps_updIom (f : Iom → Iom) : Keeps (π ·.b) (updIom f) := keeps_b_upd fun b => h.iom b _

theorem Apart.keeps_instResolve (n : Nat) : Keeps (π ·.b) (instResolve n) := by
  refine keeps_read fun s => ?_
  dsimp only
  split
  case h_1 => exact keeps_b_boundRst _ _ (h.keeps_canDisable _)
  case h_2 => exact keeps_b_boundRst _ _ (h.keeps_linDisable _)
  case h_3 => exact keeps_forEach fun _ => keeps_b_boundRst _ _ (h.keeps_lswDisable _)
  case h_4 =>
    exact keeps_seqs ⟨keeps_b_set π _ _, keeps_b_set π _ _, keeps_b_ringEnHook _ _ _, keeps_b_ringEnHook _ _ _⟩
  case h_5 => exact keeps_b_upd fun b => h.srt b _
  case h_6 => exact keeps_b_set π _ _
  case h_7 => exact keeps_skip

theorem Apart.keeps_instBegin (n : Nat) : Keeps (π ·.b) (instBegin n) :=
  keeps_read fun _ => keeps_whenU fun _ => keeps_seqs ⟨keeps_b_set π _ _,
    keeps_whenU fun _ => keeps_seq (keeps_b_set π _ _) (keeps_b_set π _ _), keeps_b_set π _ _, h.keeps_updIom _, h.keeps_instResolve n⟩

/-! ## Resets of the host's functions (R605) -/

theorem Apart.keeps_updHbr (f : Hbr → Hbr) : Keeps (π ·.b) (updHbr f) := keeps_b_upd fun b => h.hbr b _

theorem Apart.keeps_devRdEnd (r : DevRd) (ok : Bool) (data : List Byte) : Keeps (π ·.b) (devRdEnd r ok data) :=
  keeps_b_upd fun b => h.flk b _

theorem Apart.keeps_hostResolve (p : Nat → Bool) : Keeps (π ·.b) (hostResolve p) :=
  keeps_read fun _ => keeps_seqs ⟨h.keeps_updHbr _,
    keeps_whenU fun _ => keeps_seq (keeps_forEach fun _ => h.keeps_devRdEnd _ _ _)
      (keeps_seq (keeps_forEach fun _ => h.keeps_devRdEnd _ _ _) (h.keeps_updHbr _)),
    keeps_forN fun _ _ => keeps_read fun _ => keeps_whenU fun _ => keeps_b_setReg π _ _, keeps_b_showTrk,
    keeps_forN fun _ _ => keeps_read fun _ => keeps_whenU fun _ => h.keeps_instBegin _⟩

theorem Apart.keeps_hostDown : Keeps (π ·.b) hostDown :=
  keeps_seqs ⟨h.keeps_hostResolve _, h.keeps_updHbr _, keeps_read fun _ => keeps_seq (keeps_whenU fun _ => keeps_b_setBit _ _)
    (keeps_b_setReg π _ _)⟩

end

end Sys2Proof.Machine
end

section
/-!
The host's resets, the PCIe link and configuration requests (R140, R605, R708): what each does where its condition holds, and that it does
nothing elsewhere.
-/
namespace Sys2Proof.Machine

/-- A field of a register written as a whole reads as its bits of what was written. -/
theorem get_setReg_same {f : Fld} (hf : f.fits = true) (v : Nat) (s : State) : ((setReg f.reg v).run s).get f = bits v f.hi f.lo := by
  have hfits := hf
  simp only [Fld.fits, Bool.and_eq_true, decide_eq_true_eq] at hfits
  obtain ⟨⟨hle, h32⟩, _⟩ := hfits
  refine Nat.eq_of_testBit_eq fun i => ?_
  rw [State.get, testBit_bits, testBit_bits]
  by_cases hi : i < f.hi - f.lo + 1
  · rw [setReg, Upd.run_act, reg_act_same, BitVec.testBit_toNat, maskReserved_getLsbD, if_pos (Fld.fits_bit hf (by omega) (by omega)),
      BitVec.getLsbD_ofNat, decide_eq_true (show f.lo + i < 32 by omega), Bool.true_and]
  · simp only [hi, decide_false, Bool.false_and]

/-! ## The link goes down (R605) -/

/-- The last of it writes HBR_LINK_STAT with the bit of PERST alone. -/
theorem hostDown_linkUp (s : State) : (hostDown.run s).flag HBR_LINK_STAT_LINK_UP = false := by
  simp only [hostDown, seqs_cons_run, seqs_nil_run, Upd.run_read, Upd.run_seq]
  rw [State.flag, get_setReg_same (f := HBR_LINK_STAT_LINK_UP) (by decide)]
  have hperst (t : State) : t.get HBR_LINK_STAT_PERST < 2 := get_lt t HBR_LINK_STAT_PERST
  simp only [bits, bne_eq_false_iff_eq, Nat.div_eq_of_lt (show _ * 2 ^ 30 < 2 ^ 31 from Nat.mul_lt_mul_of_pos_right (hperst _) (by decide)),
    Nat.zero_mod]

theorem hostDown_psm (s : State) : (hostDown.run s).b.psm = s.b.psm := apart_psm.keeps_hostDown s

/-! ## PERST (R140, R708) -/

/-- The level of PE_PERST_N (R34). -/
def perstLevel (low : Bool) : Upd := upd fun b => { b with psm := { b.psm with perstLow := low } }

theorem completes_perstAssert (s : State) : Completes .perstAssert s (perstAssert.run s) := completes_of_finish rfl
theorem completes_perstDeassert (s : State) : Completes .perstDeassert s (perstDeassert.run s) := completes_of_finish rfl

section
variable {s : State}

theorem perstAssert_of_noPcie (h : s.pcie = false) : perstAssert.run s = (perstLevel true).run s := by
  simp only [perstAssert, perstLevel, Upd.run_read, Upd.run_seq, h, whenU_false, Upd.run_skip]

theorem perstDeassert_of_noPcie (h : s.pcie = false) : perstDeassert.run s = (perstLevel false).run s := by
  simp only [perstDeassert, perstLevel, Upd.run_read, Upd.run_seq, h, whenU_false, Upd.run_skip]

variable (h : s.pcie = true)
include h

theorem perstAssert_of_pcie : perstAssert.run s = (set HBR_LINK_STAT_PERST 1).run (hostDown.run ((perstLevel true).run s)) := by
  simp only [perstAssert, perstLevel, Upd.run_read, Upd.run_seq, h, whenU_true]

theorem perstDeassert_of_pcie : perstDeassert.run s = (set HBR_LINK_STAT_PERST 0).run ((perstLevel false).run s) := by
  simp only [perstDeassert, perstLevel, Upd.run_read, Upd.run_seq, h, whenU_true]

/-- PERST shows, the level is held, and the link is down. -/
theorem perstAssert_resets : ∃ t, Completes .perstAssert s t ∧
    t = (set HBR_LINK_STAT_PERST 1).run (hostDown.run ((perstLevel true).run s)) ∧
    t.flag HBR_LINK_STAT_PERST = true ∧ t.b.psm.perstLow = true ∧ t.flag HBR_LINK_STAT_LINK_UP = false := by
  have hdone := completes_perstAssert s
  rw [perstAssert_of_pcie h] at hdone
  refine ⟨_, hdone, rfl, ?perst, ?level, ?link⟩
  case perst =>
    rw [flag_set_same (by decide)]
    rfl
  case level =>
    rw [set_b, hostDown_psm]
    rfl
  case link =>
    rw [State.flag, get_set_ne (by decide) (by decide) (by decide)]
    exact hostDown_linkUp _

theorem perstDeassert_shows : ∃ t, Completes .perstDeassert s t ∧ t.flag HBR_LINK_STAT_PERST = false ∧ t.b.psm.perstLow = false ∧
    Untouched (· == HBR_LINK_STAT) s t := by
  have hdone := completes_perstDeassert s
  rw [perstDeassert_of_pcie h] at hdone
  refine ⟨_, hdone, ?_, rfl, within_seq (within_upd _) (within_set (by decide)) s⟩
  rw [flag_set_same (by decide)]
  rfl

end

/-! ## PCIE_LINK_CHANGE (R605, R708) -/

section
variable {up : Bool} {sp : Fin 5} {w : Fin 8} {s : State}

theorem completes_pcieLinkChange (up : Bool) (sp : Fin 5) (w : Fin 8) (s : State) :
    Completes (.pcieLinkChange up sp w) s ((pcieLinkChange up sp w).run s) := completes_of_finish rfl

theorem pcieLinkChange_of_noPcie (h : s.pcie = false) : (pcieLinkChange up sp w).run s = s := by
  simp only [pcieLinkChange, Upd.run_read, h, whenU_false, Upd.run_skip]

theorem pcieLinkChange_down (h : s.pcie = true) : (pcieLinkChange false sp w).run s = hostDown.run s := by
  simp only [pcieLinkChange, Upd.run_read, h, whenU_true, Bool.false_eq_true, if_false]

/-- The link does not come up while PERST is low. -/
theorem pcieLinkChange_up_of_perst (h : s.flag HBR_LINK_STAT_PERST = true) : (pcieLinkChange true sp w).run s = s := by
  cases hpcie : s.pcie with
  | false => exact pcieLinkChange_of_noPcie hpcie
  | true =>
    simp only [pcieLinkChange, Upd.run_read, hpcie, h, Bool.not_true, Bool.false_and, whenU_true, whenU_false, if_true, Upd.run_skip]

section
variable (hpcie : s.pcie = true) (hperst : s.flag HBR_LINK_STAT_PERST = false) (hopen : s.bootOpen = true)
  (hdown : s.flag HBR_LINK_STAT_LINK_UP = false)
include hpcie hperst hopen hdown

theorem pcieLinkChange_up : (pcieLinkChange true sp w).run s = (raise 14 5).run ((set HBR_LINK_STAT_WIDTH w).run
    ((set HBR_LINK_STAT_SPEED sp).run ((set HBR_LINK_STAT_LINK_UP 1).run s))) := by
  simp only [pcieLinkChange, Upd.run_read, hpcie, hperst, hopen, hdown, Bool.not_false, Bool.and_self, whenU_true, if_true, seqs_cons_run,
    seqs_nil_run]

theorem pcieLinkChange_comesUp : ∃ t, Completes (.pcieLinkChange true sp w) s t ∧ t.flag HBR_LINK_STAT_LINK_UP = true ∧
    t.get HBR_LINK_STAT_SPEED = sp.val ∧ t.get HBR_LINK_STAT_WIDTH = w.val ∧ t.bitAt (BLK_IRQ_STAT 14) 5 = true ∧
    Untouched (onPage 14) s t := by
  have hdone := completes_pcieLinkChange true sp w s
  rw [pcieLinkChange_up hpcie hperst hopen hdown] at hdone
  have hraise {f : Fld} (hf : f.reg = HBR_LINK_STAT) (u : State) : ((raise 14 5).run u).get f = u.get f := by
    rw [raise, setBit_eq, get_set_ne_reg (hf ▸ by decide)]
  refine ⟨_, hdone, ?up, ?speed, ?width, bitAt_setBit_same (by decide) _, ?foot⟩
  case up =>
    rw [State.flag, hraise rfl, get_set_ne (by decide) (by decide) (by decide), get_set_ne (by decide) (by decide) (by decide)]
    rw [get_set_same (by decide)]
    rfl
  case speed =>
    rw [hraise rfl, get_set_ne (by decide) (by decide) (by decide), get_set_same (by decide)]
    exact Nat.mod_eq_of_lt (Nat.lt_trans sp.isLt (by decide))
  case width =>
    rw [hraise rfl, get_set_same (by decide)]
    exact Nat.mod_eq_of_lt w.isLt
  case foot =>
    have hset (g : Fld) (v : Nat) (hg : g.reg = HBR_LINK_STAT) : Within (onPage 14) (set g v) := within_set (hg ▸ by decide)
    exact (((hset _ _ rfl s).trans (hset _ _ rfl _)).trans (hset _ _ rfl _)).trans (within_setBit (by decide) _)

end

end

/-! ## FUNCTION_LEVEL_RESET (R605) -/

section
variable {f : Fin 64} {s : State}

theorem completes_functionLevelReset (f : Fin 64) (s : State) :
    Completes (.functionLevelReset f) s ((functionLevelReset f).run s) := completes_of_finish rfl

theorem functionLevelReset_of_linkDown (h : s.hostUp = false) : (functionLevelReset f).run s = s := by
  simp only [functionLevelReset, Upd.run_read, h, Bool.and_false, whenU_false, Upd.run_skip]

variable (hpcie : s.pcie = true) (hup : s.hostUp = true)
include hpcie hup

/-- A function-level reset of function 0 takes every function. -/
theorem functionLevelReset_of_linkUp : (functionLevelReset f).run s =
    (raise 14 6).run ((whenU (f.val == 0) (set HBR_LINK_STAT_NUM_VF 0)).run ((updHbr fun x => { x with
        msixOn := x.msixOn.filter fun g => !(f.val == 0 || g == f.val)
        msix := x.msix.filter fun e => !(f.val == 0 || e.1 / 2048 == f.val)
        pba := x.pba.filter fun e => !(f.val == 0 || e / 2048 == f.val) }).run
      ((hostResolve fun g => f.val == 0 || g == f.val).run s))) := by
  simp only [functionLevelReset, Upd.run_read, hpcie, hup, Bool.and_self, whenU_true, seqs_cons_run, seqs_nil_run]

theorem functionLevelReset_resets : ∃ t, Completes (.functionLevelReset f) s t ∧ t.bitAt (BLK_IRQ_STAT 14) 6 = true ∧
    t.b.hbr.msixOn.contains f.val = false := by
  have hdone := completes_functionLevelReset f s
  rw [functionLevelReset_of_linkUp hpcie hup] at hdone
  have hvf (u : State) : ((whenU (f.val == 0) (set HBR_LINK_STAT_NUM_VF 0)).run u).b = u.b :=
    keeps_whenU (φ := State.b) (fun _ _ => rfl) u
  refine ⟨_, hdone, bitAt_setBit_same (by decide) _, ?_⟩
  rw [raise, setBit_b, hvf, List.contains_eq_mem, decide_eq_false_iff_not]
  intro hmem
  have hkept := (List.mem_filter.mp hmem).2
  rw [beq_self_eq_true, Bool.or_true] at hkept
  exact Bool.false_ne_true hkept

end

/-! ## CONFIGURATION_REQUEST (R708) -/

section
variable {s : State}

theorem completes_configurationRequest (f : Fin 64) (n : Option (Fin 64)) (m : Option Bool) (s : State) :
    Completes (.configurationRequest f n m) s ((configurationRequest f n m).run s) := completes_of_finish rfl

variable (hpcie : s.pcie = true) (hup : s.hostUp = true)
include hpcie hup

/-- Before PHASE is 3 or 4 the request ends with a retry. -/
theorem configurationRequest_retries (f : Fin 64) (n : Option (Fin 64)) (m : Option Bool) (hopen : s.bootOpen = false) :
    ∃ t, Completes (.configurationRequest f n m) s t ∧ t.b.fab.resp = { ok := false, cause := 0 } ∧ Untouched (fun _ => false) s t := by
  have hdone := completes_configurationRequest f n m s
  simp only [configurationRequest, Upd.run_read, hpcie, hup, hopen, Bool.and_self, whenU_true, Bool.false_eq_true, not_false_eq_true,
    if_true] at hdone
  exact ⟨_, hdone, rfl, within_upd _ s⟩

variable (hopen : s.bootOpen = true)
include hopen

theorem configurationRequest_setsNumVf (v : Fin 64) : ∃ t, Completes (.configurationRequest 0 (some v) none) s t ∧
    t.b.fab.resp = { ok := true } ∧ t.get HBR_LINK_STAT_NUM_VF = v.val ∧ Untouched (· == HBR_LINK_STAT) s t := by
  have hdone := completes_configurationRequest 0 (some v) none s
  simp only [configurationRequest, Upd.run_read, hpcie, hup, hopen, Bool.and_self, whenU_true, not_true_eq_false, if_false, seqs_cons_run,
    seqs_nil_run, Upd.run_skip, Fin.val_zero, beq_self_eq_true] at hdone
  refine ⟨_, hdone, rfl, ?_, within_seq (within_upd _) (within_set (by decide)) s⟩
  rw [get_set_same (by decide)]
  exact Nat.mod_eq_of_lt v.isLt

theorem configurationRequest_enablesMsix (f : Fin 64) : ∃ t, Completes (.configurationRequest f none (some true)) s t ∧
    t.b.hbr.msixOn.contains f.val = true ∧ Untouched (fun _ => false) s t := by
  have hdone := completes_configurationRequest f none (some true) s
  simp only [configurationRequest, Upd.run_read, hpcie, hup, hopen, Bool.and_self, whenU_true, not_true_eq_false, if_false, if_true,
    seqs_cons_run, seqs_nil_run, Upd.run_skip] at hdone
  exact ⟨_, hdone, List.contains_iff_mem.mpr List.mem_cons_self, within_seq (within_upd _) (within_upd _) s⟩

end

end Sys2Proof.Machine

open Sys2Proof Sys2Proof.Machine

/-- Settles O42: each command completes with its operation, which its conditions reduce to the effect stated. -/
theorem hostLinkEvents : Obligations.HostLinkEvents :=
  ⟨fun s h => ⟨does_of_completes (completes_perstAssert s) (perstAssert_of_noPcie h) (within_upd _),
     does_of_completes (completes_perstDeassert s) (perstDeassert_of_noPcie h) (within_upd _)⟩,
   fun up sp w s h => does_of_completes (completes_pcieLinkChange up sp w s) (pcieLinkChange_of_noPcie h) within_skip,
   fun _ h => perstAssert_resets h,
   fun _ h => perstDeassert_shows h,
   fun sp w s h => pcieLinkChange_down h ▸ completes_pcieLinkChange false sp w s,
   fun _ _ _ hpcie hperst hopen hdown => pcieLinkChange_comesUp hpcie hperst hopen hdown,
   fun sp w s h => does_of_completes (completes_pcieLinkChange true sp w s) (pcieLinkChange_up_of_perst h) within_skip,
   fun f s h => does_of_completes (completes_functionLevelReset f s) (functionLevelReset_of_linkDown h) within_skip,
   fun _ _ hpcie hup => functionLevelReset_resets hpcie hup,
   fun f n m _ hpcie hup hopen => configurationRequest_retries hpcie hup f n m hopen,
   fun v _ hpcie hup hopen => configurationRequest_setsNumVf hpcie hup hopen v,
   fun f _ hpcie hup hopen => configurationRequest_enablesMsix hpcie hup hopen f⟩
end

section
/-!
Canopy's hart identifiers and cluster clocks, and the memory block's page copies, patrol scrub and re-keys (R189 to R209).
-/
namespace Sys2Proof.Machine

/-! ## Memory's page -/

section
variable {o : Nat} (ho : o < 0x10000)
include ho

theorem within_setMemPage (hi lo v : Nat) : Within (onPage 4) (set ⟨unitBase 4 + o, hi, lo⟩ v) := within_set (onPage_unitBase 4 ho)

theorem within_setRegMemPage (v : Nat) : Within (onPage 4) (setReg (unitBase 4 + o) v) := within_setReg (onPage_unitBase 4 ho)

end

theorem within_setOwn (f : Fld) (v : Nat) : Within (· == f.reg) (set f v) := within_set (beq_self_eq_true f.reg)

theorem within_raise (k i : Nat) : Within (onPage k) (raise k i) := within_setBit (onPage_unitBase k (by decide))

theorem raise_bitAt_same {k i : Nat} (h : (⟨BLK_IRQ_STAT k, i, i⟩ : Fld).fits = true) (s : State) :
    ((raise k i).run s).bitAt (BLK_IRQ_STAT k) i = true := bitAt_setBit_same h s

/-- Raising an event leaves the others as they are. -/
theorem keeps_bitAt_raise {k i j : Nat} (hi : (⟨BLK_IRQ_STAT k, i, i⟩ : Fld).fits = true)
    (hj : (⟨BLK_IRQ_STAT k, j, j⟩ : Fld).fits = true) (h : i ≠ j) : Keeps (·.bitAt (BLK_IRQ_STAT k) j) (raise k i) := fun s => by
  change ((raise k i).run s).bitAt _ j = s.bitAt _ j
  rw [raise, bitAt_eq, bitAt_eq, setBit_eq, get_set_ne hi hj (.inr (Nat.lt_or_gt_of_ne h))]

theorem get_raise {k i : Nat} {f : Fld} (h : BLK_IRQ_STAT k ≠ f.reg) (s : State) : ((raise k i).run s).get f = s.get f := by
  rw [raise, setBit_eq, get_set_ne_reg h]

theorem upd_get (u : Blocks → Blocks) (s : State) (f : Fld) : ((upd u).run s).get f = s.get f := rfl

theorem upd_flag (u : Blocks → Blocks) (s : State) (f : Fld) : ((upd u).run s).flag f = s.flag f := rfl

theorem upd_bitAt (u : Blocks → Blocks) (s : State) (a i : Nat) : ((upd u).run s).bitAt a i = s.bitAt a i := rfl

/-! ## A fault of a block (R260) -/

theorem keeps_memRec_report_block (k cls : Nat) : Keeps (·.b.mem) (report k none cls) :=
  keeps_read fun _ => keeps_read fun _ => keeps_seqs ⟨keeps_skip,
    keeps_whenU fun _ => keeps_seq (keeps_b_setBit _ _) (keeps_b_inc _ _),
    keeps_whenU fun _ => keeps_seqs ⟨keeps_skip, keeps_read fun _ => keeps_seqs ⟨keeps_b_setBit _ _, keeps_b_setBit _ _,
      keeps_b_set Blocks.mem _ _, keeps_b_set Blocks.mem _ _, keeps_whenU fun _ => keeps_seq (keeps_b_set Blocks.mem _ _)
      (keeps_b_set Blocks.mem _ _)⟩, keeps_b_set Blocks.mem _ _⟩, keeps_b_upd (π := Blocks.mem) fun _ => rfl⟩

/-- A block's fault sets its class in BLK_ERR_STAT, which nothing after it writes. -/
theorem report_block_errStat {k cls : Nat} (hk : k ≤ 27) (hc : cls < 16) (hout : faultRegs (BLK_ERR_STAT k) = false)
    (hfit : (⟨BLK_ERR_STAT k, cls, cls⟩ : Fld).fits = true) (s : State) :
    ((report k none cls).run s).bitAt (BLK_ERR_STAT k) cls = true := by
  have hfault : ∀ a, faultRegs a = true → (a != BLK_ERR_STAT k) = true := fun a ha => by
    rw [bne_iff_ne]
    rintro rfl
    rw [hout] at ha
    cases ha
  have hcnt : (BLK_ERR_CNT k != BLK_ERR_STAT k) = true := bne_iff_ne.mpr (by simp only [BLK_ERR_CNT, BLK_ERR_STAT]; omega)
  have hpend (src : Nat) : Within (· != BLK_ERR_STAT k) (seqs [.skip, fcuPend (16 * k + cls) cls, set MSU_FAULT_STAT_LAST_SRC src]) :=
    within_seqs ⟨within_skip, (within_fcuPend (by omega) _).mono hfault, within_set (hfault _ (by decide))⟩
  have htail {hi lo src : Nat} {c : Bool} {d : Due} (t : State) : Untouched (· != BLK_ERR_STAT k) t ((dueReaction d).run
      ((whenU c (seqs [.skip, fcuPend (16 * k + cls) cls, set MSU_FAULT_STAT_LAST_SRC src])).run
        ((inc ⟨BLK_ERR_CNT k, hi, lo⟩).run t))) :=
    ((within_inc hcnt t).trans (within_whenU (hpend src) _)).trans (within_upd _ _)
  have hpage : hasPage k = true := decide_eq_true hk
  simp only [report, reportNow, Upd.run_read, State.finalClass, hpage, whenU_true, Upd.run_seq, seqs_cons_run, seqs_nil_run,
    Upd.run_skip]
  exact (bitAt_of_reg_eq ((htail _).reg_eq (bne_self_eq_false _)) cls).trans (bitAt_setBit_same hfit s)

theorem faultFoot_of_onPage {k : Nat} (a : Nat) (h : onPage k a = true) : faultFoot k a = true := by
  simp only [faultFoot, h, Bool.true_or]

theorem faultFoot_of_reportFoot {k : Nat} (a : Nat) (h : reportFoot k a = true) : faultFoot k a = true := by
  simp only [reportFoot, Bool.or_eq_true, beq_iff_eq] at h
  rcases h with (h | rfl) | rfl
  · simp only [faultFoot, h, Bool.or_true]
  · exact faultFoot_of_onPage _ (onPage_unitBase k (by decide))
  · exact faultFoot_of_onPage _ (onPage_unitBase k (by decide))

/-! ## Hart identifiers (R193) -/

theorem fits_hartPid : ∀ h : Fin 12, (CNP_HART_PID_PID h).fits = true ∧ (CNP_HART_PID_VALID h).fits = true := by decide

theorem hartPid_ne_pidCtx : ∀ h : Fin 12, CNP_HART_PID h ≠ MSU_PID_CTX (4 * h.val + 3) := by decide

section
variable {h : Fin 12} {m : Fin 5} {s : State}

theorem completes_hvpidWrite (h : Fin 12) (m : Fin 5) (v : Option (BitVec 64)) (s : State) :
    Completes (.hvpidWrite h m v) s ((hvpidWrite h m v).run s) := completes_of_finish rfl

theorem hvpidWrite_of_idle (v : Option (BitVec 64)) (hidle : s.ctxIdle (4 * h) = true) : (hvpidWrite h m v).run s = s := by
  simp only [hvpidWrite, Upd.run_read, hidle, Bool.not_true, whenU_false, Upd.run_skip]

variable (hidle : s.ctxIdle (4 * h) = false)
include hidle

theorem hvpidWrite_of_refused_mode (v : Option (BitVec 64)) (hm : 2 ≤ m.val) : (hvpidWrite h m v).run s =
    (updFab fun f => { f with resp := { ok := false, cause := if m.val = 3 then 122 else 102 } }).run s := by
  have hmode : m.val = 2 ∨ m.val = 3 ∨ m.val = 4 := by omega
  rcases hmode with hmode | hmode | hmode <;>
    simp only [hvpidWrite, Upd.run_read, hidle, Bool.not_false, whenU_true, hmode, Nat.reduceEqDiff, if_true, if_false]

variable (hm : m.val ≤ 1)
include hm

theorem hvpidWrite_read : (hvpidWrite h m none).run s =
    (updFab fun f => { f with resp := { data := [s.get (CNP_HART_PID_PID h)] } }).run s := by
  have hmode : m.val = 0 ∨ m.val = 1 := by omega
  rcases hmode with hmode | hmode <;> simp only [hvpidWrite, Upd.run_read, hidle, Bool.not_false, whenU_true, hmode]

theorem hvpidWrite_write (v : BitVec 64) : (hvpidWrite h m (some v)).run s =
    (updFab fun f => { f with resp := {} }).run ((showHvpid h).run ((set (CNP_HART_PID_PID h) (v.toNat % 64)).run s)) := by
  have hmode : m.val = 0 ∨ m.val = 1 := by omega
  rcases hmode with hmode | hmode <;> simp only [hvpidWrite, Upd.run_read, hidle, Bool.not_false, whenU_true, hmode, seqs_cons_run,
    seqs_nil_run]

end

/-- VALID shows whether the value selected lies in the range of the hart's entry. -/
theorem showHvpid_valid (h : Fin 12) (s : State) : ((showHvpid h).run s).flag (CNP_HART_PID_VALID h) =
    (decide (s.get (MSU_PID_CTX_PID_LO (4 * h.val + 3)) ≤ s.get (CNP_HART_PID_PID h)) &&
      decide (s.get (CNP_HART_PID_PID h) ≤ s.get (MSU_PID_CTX_PID_HI (4 * h.val + 3)))) := by
  rw [showHvpid, Upd.run_read, flag_set_same (fits_hartPid h).2]
  generalize (_ && _ : Bool) = b
  cases b <;> rfl

theorem showHvpid_pid (h : Fin 12) (s : State) : ((showHvpid h).run s).get (CNP_HART_PID_PID h) = s.get (CNP_HART_PID_PID h) :=
  get_set_ne (fits_hartPid h).2 (fits_hartPid h).1 (.inr (.inr (show 5 < 31 by decide))) _ s

theorem within_showHvpid (h : Nat) : Within (· == CNP_HART_PID h) (showHvpid h) :=
  within_read fun _ => within_setOwn (CNP_HART_PID_VALID h) _

theorem hvpidWrite_selects {h : Fin 12} {m : Fin 5} {s : State} (hidle : s.ctxIdle (4 * h) = false) (hm : m.val ≤ 1) (v : BitVec 64) :
    ∃ t, Completes (.hvpidWrite h m (some v)) s t ∧ t.get (CNP_HART_PID_PID h) = v.toNat % 64 ∧
      t.flag (CNP_HART_PID_VALID h) = (decide (s.get (MSU_PID_CTX_PID_LO (4 * h.val + 3)) ≤ v.toNat % 64) &&
        decide (v.toNat % 64 ≤ s.get (MSU_PID_CTX_PID_HI (4 * h.val + 3)))) ∧
      t.b.fab.resp.ok = true ∧ Untouched (· == CNP_HART_PID h) s t := by
  have hdone := completes_hvpidWrite h m (some v) s
  rw [hvpidWrite_write hidle hm] at hdone
  have hpid : ((set (CNP_HART_PID_PID h) (v.toNat % 64)).run s).get (CNP_HART_PID_PID h) = v.toNat % 64 := by
    rw [get_set_same (fits_hartPid h).1]
    exact Nat.mod_mod _ _
  refine ⟨_, hdone, ?_, ?_, rfl, ?_⟩
  · rw [updFab, upd_get, showHvpid_pid, hpid]
  · rw [updFab, upd_flag, showHvpid_valid, hpid, get_set_ne_reg (hartPid_ne_pidCtx h), get_set_ne_reg (hartPid_ne_pidCtx h)]
  · exact ((within_setOwn (CNP_HART_PID_PID h) _ s).trans (within_showHvpid h _)).trans (within_upd _ _)

/-! ## Cluster clocks (R189) -/

theorem clockChangeDone_ends {k : Fin 3} {s : State} (h : s.flag (CNP_CLU_CLK_BUSY k) = true) :
    ∃ t, Completes (.clockChangeDone k) s t ∧ t.flag (CNP_CLU_CLK_BUSY k) = false ∧ t.bitAt (BLK_IRQ_STAT 0) 0 = true ∧
      Untouched (onPage 0) s t := by
  have hdone : Completes (.clockChangeDone k) s ((clockChangeDone k).run s) := completes_of_finish rfl
  simp only [clockChangeDone, Upd.run_read, h, whenU_true, Upd.run_seq] at hdone
  have hbusy : ∀ k : Fin 3,
      (CNP_CLU_CLK_BUSY k).fits = true ∧ BLK_IRQ_STAT 0 ≠ CNP_CLU_CLK k ∧ onPage 0 (CNP_CLU_CLK k) = true := by decide
  obtain ⟨hfit, hne, hpage⟩ := hbusy k
  refine ⟨_, hdone, ?_, raise_bitAt_same (by decide) _, (within_set hpage s).trans (within_raise 0 0 _)⟩
  rw [State.flag, get_raise hne, get_set_same hfit]
  rfl

/-! ## Page retirement (R205) -/

theorem regMask_spareMap {i : Nat} (h : i < 256) : regMask (MEM_SPARE_MAP i) = 0x8FFFFFFF := by
  have hrows : ∀ x y : Fin 16, regMask (MEM_SPARE_MAP (16 * x + y)) = 0x8FFFFFFF := by decide
  have hi := hrows ⟨i / 16, by omega⟩ ⟨i % 16, by omega⟩
  rwa [Nat.div_add_mod] at hi

theorem fits_spareMap {i : Nat} (h : i < 256) : (MEM_SPARE_MAP_VALID i).fits = true ∧ (MEM_SPARE_MAP_PAGE i).fits = true := by
  constructor <;> simp only [Fld.fits, regMask_spareMap h, bits, Nat.reduceLeDiff, Nat.reduceLT, Nat.reduceSub, Nat.reduceAdd,
    Nat.reducePow, Nat.reduceDiv, Nat.reduceMod, decide_true, Bool.and_self, BEq.rfl]

/-- The table of spares stands at 0xC00 and above. -/
theorem ne_spareMap {o : Nat} (h : o < 0xC00) (i : Nat) : unitBase 4 + o ≠ MEM_SPARE_MAP i := by
  rw [MEM_SPARE_MAP]
  generalize unitBase 4 = b
  omega

section
variable {s : State} {p : Nat} {ps : List Nat} (hr : s.b.mem.retiring = p :: ps)
include hr

theorem pageRetireDone_run : pageRetireDone.run s = (raise 4 2).run
    ((set MEM_RETIRE_STAT_SPARE_LEFT (255 - s.get MEM_RETIRE_STAT_SPARE_USED)).run
      ((set MEM_RETIRE_STAT_SPARE_USED (s.get MEM_RETIRE_STAT_SPARE_USED + 1)).run
        ((setReg (MEM_SPARE_MAP (s.get MEM_RETIRE_STAT_SPARE_USED)) (2 ^ 31 + p)).run
          ((updMem fun x => { x with retiring := ps }).run s)))) := by
  simp only [pageRetireDone, Upd.run_read, hr, seqs_cons_run, seqs_nil_run]

/-- The page is mapped to the next spare, which the counts then show as used. -/
theorem pageRetireDone_maps (hp : p < 2 ^ 28) (hi : s.get MEM_RETIRE_STAT_SPARE_USED < 256) :
    ∃ t, Completes .pageRetireDone s t ∧ t.flag (MEM_SPARE_MAP_VALID (s.get MEM_RETIRE_STAT_SPARE_USED)) = true ∧
      t.get (MEM_SPARE_MAP_PAGE (s.get MEM_RETIRE_STAT_SPARE_USED)) = p ∧
      t.get MEM_RETIRE_STAT_SPARE_USED = s.get MEM_RETIRE_STAT_SPARE_USED + 1 ∧
      t.get MEM_RETIRE_STAT_SPARE_LEFT = 255 - s.get MEM_RETIRE_STAT_SPARE_USED ∧ t.b.mem.retiring = ps ∧
      t.bitAt (BLK_IRQ_STAT 4) 2 = true ∧ Untouched (onPage 4) s t := by
  have hdone : Completes .pageRetireDone s (pageRetireDone.run s) := completes_of_finish rfl
  rw [pageRetireDone_run hr] at hdone
  generalize s.get MEM_RETIRE_STAT_SPARE_USED = i at hi hdone ⊢
  obtain ⟨hvalid, hpage⟩ := fits_spareMap hi
  have hstat : MEM_RETIRE_STAT ≠ MEM_SPARE_MAP i := ne_spareMap (by decide) i
  have hirq : BLK_IRQ_STAT 4 ≠ MEM_SPARE_MAP i := ne_spareMap (by decide) i
  refine ⟨_, hdone, ?valid, ?page, ?used, ?left, rfl, raise_bitAt_same (by decide) _, ?foot⟩
  case valid =>
    rw [State.flag, get_raise hirq, get_set_ne_reg hstat, get_set_ne_reg hstat, get_setReg_same (f := MEM_SPARE_MAP_VALID i) hvalid]
    simp only [bits, bne_iff_ne]
    omega
  case page =>
    rw [get_raise hirq, get_set_ne_reg hstat, get_set_ne_reg hstat, get_setReg_same (f := MEM_SPARE_MAP_PAGE i) hpage]
    simp only [bits]
    omega
  case used =>
    rw [get_raise (by decide), get_set_ne (by decide) (by decide) (by decide), get_set_same (by decide)]
    exact Nat.mod_eq_of_lt (show i + 1 < 2 ^ 9 by omega)
  case left =>
    rw [get_raise (by decide), get_set_same (by decide)]
    exact Nat.mod_eq_of_lt (show 255 - i < 2 ^ 9 by omega)
  case foot =>
    have hmap : onPage 4 (MEM_SPARE_MAP i) = true := by
      rw [MEM_SPARE_MAP, Nat.add_assoc]
      exact onPage_unitBase 4 (by omega)
    exact ((((within_upd _ s).trans (within_setReg hmap _)).trans (within_setMemPage (by decide) _ _ _ _)).trans
      (within_setMemPage (by decide) _ _ _ _)).trans (within_raise 4 2 _)

end

/-- A retired page's queue of copies, or the event that no spare is left (R206). -/
theorem within_retirePage (p : Nat) : Within (· == BLK_IRQ_STAT 4) (retirePage p) :=
  within_read fun _ => within_ite within_skip (within_ite (within_setBit (beq_self_eq_true _)) (within_upd _))

theorem keeps_bitAt_retirePage (p : Nat) {j : Nat} (hj : (⟨BLK_IRQ_STAT 4, j, j⟩ : Fld).fits = true) (h : 3 ≠ j) :
    Keeps (·.bitAt (BLK_IRQ_STAT 4) j) (retirePage p) :=
  keeps_read fun _ => keeps_ite (fun _ => keeps_skip) fun _ => keeps_ite (fun _ => keeps_bitAt_raise (by decide) hj h) fun _ _ => rfl

/-- Of memory's records it changes the queue of copies alone. -/
theorem keeps_retirePage {α : Type} {π : Mem → α} (hπ : ∀ m l, π { m with retiring := l } = π m) (p : Nat) :
    Keeps (π ·.b.mem) (retirePage p) :=
  keeps_read fun _ => keeps_ite (fun _ => keeps_skip) fun _ => keeps_ite (fun _ => keeps_b_setBit (π := (π ·.mem)) _ _) fun _ =>
    keeps_b_upd (π := (π ·.mem)) fun b => hπ b.mem _

/-! ## Errors of a line (R203) -/

theorem within_memError (kind pid line : Nat) : Within (onPage 4) (memError kind pid line) :=
  within_seqs ⟨within_setRegMemPage (by decide) _, within_setRegMemPage (by decide) _⟩

theorem memError_reg_ne (kind pid line : Nat) (s : State) {a : Nat} (hlo : MEM_ERR_ADDR_LO ≠ a) (hhi : MEM_ERR_ADDR_HI ≠ a) :
    ((memError kind pid line).run s).reg a = s.reg a :=
  (setReg_reg_ne _ _ hhi).trans (setReg_reg_ne _ s hlo)

theorem within_recordCe (line : Nat) : Within (· == BLK_IRQ_STAT 4) (recordCe line) :=
  within_read fun _ => within_seq (within_upd _) (within_whenU (within_seq (within_upd _) (within_retirePage _)))

theorem keeps_bitAt_recordCe (line : Nat) {j : Nat} (hj : (⟨BLK_IRQ_STAT 4, j, j⟩ : Fld).fits = true) (h : 3 ≠ j) :
    Keeps (·.bitAt (BLK_IRQ_STAT 4) j) (recordCe line) :=
  keeps_read fun _ => keeps_seq (fun _ => rfl) (keeps_whenU fun _ => keeps_seq (fun _ => rfl) (keeps_bitAt_retirePage _ hj h))

theorem keeps_scrub_recordCe (line : Nat) : Keeps (·.b.mem.scrub) (recordCe line) :=
  keeps_read fun _ => keeps_seq (fun _ => rfl) (keeps_whenU fun _ => keeps_seq (fun _ => rfl)
    (keeps_retirePage (π := Mem.scrub) (fun _ _ => rfl) _))

/-- The record of an error: its address, its counter, its event and its fault. -/
def memErrorReport (kind pid line cnt irq cls : Nat) : Upd := seqs [memError kind pid line, count cnt, raise 4 irq, report 4 none cls]

section
variable (kind pid line : Nat)

theorem memCe_run (s : State) : (memCe kind pid line).run s =
    (whenU (isDram (64 * line)) (recordCe line)).run ((memErrorReport kind pid line MEM_CE_CNT 0 CE).run s) := by
  simp only [memCe, memErrorReport, seqs_cons_run, seqs_nil_run]

theorem keeps_memRec_memErrorReport (cnt irq cls : Nat) : Keeps (·.b.mem) (memErrorReport kind pid line cnt irq cls) :=
  keeps_seqs ⟨keeps_seqs ⟨keeps_b_setReg Blocks.mem _ _, keeps_b_setReg Blocks.mem _ _⟩, keeps_b_inc _ _, keeps_b_setBit _ _,
    keeps_memRec_report_block 4 cls⟩

section
variable {cls : Nat} (irq : Nat) (hc : cls < 16)
include hc

theorem within_memErrorReport {o : Nat} (ho : o < 0x10000) : Within (faultFoot 4) (memErrorReport kind pid line (unitBase 4 + o) irq cls) :=
  within_seqs ⟨(within_memError kind pid line).mono faultFoot_of_onPage,
    within_count (faultFoot_of_onPage _ (onPage_unitBase 4 ho)), (within_raise 4 irq).mono faultFoot_of_onPage,
    (within_report_block (by decide) hc).mono faultFoot_of_reportFoot⟩

theorem memErrorReport_errStat (hfit : (⟨BLK_ERR_STAT 4, cls, cls⟩ : Fld).fits = true) (cnt : Nat) (s : State) :
    ((memErrorReport kind pid line cnt irq cls).run s).bitAt (BLK_ERR_STAT 4) cls = true := by
  simp only [memErrorReport, seqs_cons_run, seqs_nil_run]
  exact report_block_errStat (by decide) hc (by decide) hfit _

theorem memErrorReport_cnt {cnt : Nat} (h : cnt = MEM_CE_CNT ∨ cnt = MEM_UE_CNT) (s : State) :
    ((memErrorReport kind pid line cnt irq cls).run s).reg cnt = min (2 ^ 32 - 1) (s.reg cnt + 1) := by
  simp only [memErrorReport, seqs_cons_run, seqs_nil_run]
  rcases h with rfl | rfl <;>
    rw [(within_report_block (by decide) hc _).reg_eq (by decide), raise, setBit_reg_ne _ (by decide), reg_count_same (by decide),
      memError_reg_ne kind pid line s (by decide) (by decide)]

theorem memErrorReport_irq (hfit : (⟨BLK_IRQ_STAT 4, irq, irq⟩ : Fld).fits = true) (cnt : Nat) (s : State) :
    ((memErrorReport kind pid line cnt irq cls).run s).bitAt (BLK_IRQ_STAT 4) irq = true := by
  simp only [memErrorReport, seqs_cons_run, seqs_nil_run]
  rw [bitAt_of_reg_eq ((within_report_block (by decide) hc _).reg_eq (by decide)), raise_bitAt_same hfit]

end

theorem faultFoot_of_irq (a : Nat) (h : (a == BLK_IRQ_STAT 4) = true) : faultFoot 4 a = true := by
  rw [beq_iff_eq.mp h]
  decide

theorem within_memCe : Within (faultFoot 4) (memCe kind pid line) := fun s => by
  rw [memCe_run]
  exact (within_memErrorReport kind pid line 0 (by decide) (by decide) s).trans
    (within_whenU ((within_recordCe line).mono faultFoot_of_irq) _)

/-- A corrected error is counted, raises its event and is reported as CE. -/
theorem memCe_records (s : State) : ((memCe kind pid line).run s).reg MEM_CE_CNT = min (2 ^ 32 - 1) (s.reg MEM_CE_CNT + 1) ∧
    ((memCe kind pid line).run s).bitAt (BLK_IRQ_STAT 4) 0 = true ∧ ((memCe kind pid line).run s).bitAt (BLK_ERR_STAT 4) CE = true := by
  rw [memCe_run]
  have hrec := within_whenU (c := isDram (64 * line)) (within_recordCe line) ((memErrorReport kind pid line MEM_CE_CNT 0 CE).run s)
  refine ⟨?_, ?_, ?_⟩
  · rw [hrec.reg_eq (by decide), memErrorReport_cnt kind pid line 0 (by decide) (.inl rfl)]
  · exact (keeps_whenU (fun _ => keeps_bitAt_recordCe line (by decide) (by decide)) _).trans
      (memErrorReport_irq kind pid line 0 (by decide) (by decide) _ s)
  · rw [bitAt_of_reg_eq (hrec.reg_eq (by decide)), memErrorReport_errStat kind pid line 0 (by decide) (by decide)]

theorem memCe_scrub (s : State) : ((memCe kind pid line).run s).b.mem.scrub = s.b.mem.scrub := by
  rw [memCe_run]
  exact (keeps_whenU (φ := (·.b.mem.scrub)) (fun _ => keeps_scrub_recordCe line) _).trans
    (congrArg Mem.scrub (keeps_memRec_memErrorReport kind pid line MEM_CE_CNT 0 CE s))

/-- The poison mark of a line that had none. -/
def markPoison (l : Nat) : Upd := updMem fun m => { m with poison := if m.poison.contains l then m.poison else l :: m.poison }

theorem keeps_scrub_markPoison (l : Nat) : Keeps (·.b.mem.scrub) (markPoison l) := keeps_b_upd (π := (·.mem.scrub)) fun _ => rfl

theorem markPoison_contains (s : State) : ((markPoison line).run s).b.mem.poison.contains line = true := by
  simp only [markPoison, updMem, upd_b]
  split
  · assumption
  · exact List.contains_iff_mem.mpr List.mem_cons_self

theorem memUeNew_run (s : State) : (memUeNew kind pid line).run s = (whenU (isDram (64 * line)) (retirePage (pageOf line))).run
    ((markPoison line).run ((memErrorReport kind pid line MEM_UE_CNT 1 PM).run s)) := by
  simp only [memUeNew, memUe, markPoison, memErrorReport, seqs_cons_run, seqs_nil_run]

theorem within_memUeNew : Within (faultFoot 4) (memUeNew kind pid line) := fun s => by
  rw [memUeNew_run]
  exact ((within_memErrorReport kind pid line 1 (by decide) (by decide) s).trans (within_upd _ _)).trans
    (within_whenU ((within_retirePage _).mono faultFoot_of_irq) _)

/-- An uncorrectable error is counted and reported as PM, and its line takes the poison mark. -/
theorem memUeNew_records (s : State) : ((memUeNew kind pid line).run s).reg MEM_UE_CNT = min (2 ^ 32 - 1) (s.reg MEM_UE_CNT + 1) ∧
    ((memUeNew kind pid line).run s).bitAt (BLK_ERR_STAT 4) PM = true ∧
    ((memUeNew kind pid line).run s).b.mem.poison.contains line = true := by
  rw [memUeNew_run]
  have hret := within_whenU (c := isDram (64 * line)) (within_retirePage (pageOf line))
    ((markPoison line).run ((memErrorReport kind pid line MEM_UE_CNT 1 PM).run s))
  refine ⟨?_, ?_, ?_⟩
  · rw [hret.reg_eq (by decide), markPoison, updMem, upd_reg, memErrorReport_cnt kind pid line 1 (by decide) (.inr rfl)]
  · rw [bitAt_of_reg_eq (hret.reg_eq (by decide)), markPoison, updMem, upd_bitAt,
      memErrorReport_errStat kind pid line 1 (by decide) (by decide)]
  · exact (congrArg (·.contains line) (keeps_whenU (fun _ => keeps_retirePage (π := Mem.poison) (fun _ _ => rfl) _) _)).trans
      (markPoison_contains line _)

theorem memUeNew_scrub (s : State) : ((memUeNew kind pid line).run s).b.mem.scrub = s.b.mem.scrub := by
  rw [memUeNew_run]
  exact (keeps_whenU (fun _ => keeps_retirePage (π := Mem.scrub) (fun _ _ => rfl) _) _).trans
    ((keeps_scrub_markPoison line _).trans (congrArg Mem.scrub (keeps_memRec_memErrorReport kind pid line MEM_UE_CNT 1 PM s)))

end

/-! ## The patrol scrub (R204) -/

/-- What the scrub finds in a line: no error, a single-bit error, an uncorrectable one. -/
def scrubFinds (line : Nat) : Fin 3 → Upd
  | 0 => .skip
  | 1 => memCe 2 0 line
  | 2 => memUeNew 4 0 line

theorem scrubFinds_clean (line : Nat) : scrubFinds line 0 = .skip := rfl
theorem scrubFinds_singleBit (line : Nat) : scrubFinds line 1 = memCe 2 0 line := rfl
theorem scrubFinds_uncorrectable (line : Nat) : scrubFinds line 2 = memUeNew 4 0 line := rfl

/-- The end of a pass. -/
def scrubPassEnd : Upd := seqs [incWrap MEM_SCRUB_STAT_PASSES, set MEM_SCRUB_STAT_RUNNING 0, raise 4 4]

/-- The scrub goes on to the next line; `last` ends the pass. -/
def scrubAdvance (last : Bool) : Upd :=
  .seq (updMem fun m => { m with scrub := if last then 0 else m.scrub + 1 }) (whenU last scrubPassEnd)

/-- The line that the scrub reads next. -/
def State.nextScrub (s : State) : Nat := s.spareLine (0x1000000000 / 64 + s.b.mem.scrub)

theorem within_scrubPassEnd : Within (onPage 4) scrubPassEnd :=
  within_seqs ⟨within_read fun _ => within_setMemPage (by decide) _ _ _, within_setMemPage (by decide) _ _ _, within_raise 4 4⟩

theorem keeps_memRec_scrubPassEnd : Keeps (·.b.mem) scrubPassEnd :=
  keeps_seqs ⟨keeps_read fun _ => keeps_b_set Blocks.mem _ _, keeps_b_set Blocks.mem _ _, keeps_b_setBit _ _⟩

theorem within_scrubAdvance (last : Bool) : Within (onPage 4) (scrubAdvance last) :=
  within_seq (within_upd _) (within_whenU within_scrubPassEnd)

theorem scrubAdvance_mem (last : Bool) (s : State) :
    ((scrubAdvance last).run s).b.mem = { s.b.mem with scrub := if last then 0 else s.b.mem.scrub + 1 } :=
  keeps_whenU (φ := (·.b.mem)) (fun _ => keeps_memRec_scrubPassEnd) _

theorem scrubAdvance_poison (last : Bool) (s : State) : ((scrubAdvance last).run s).b.mem.poison = s.b.mem.poison := by
  rw [scrubAdvance_mem]

theorem scrubAdvance_scrub (last : Bool) (s : State) :
    ((scrubAdvance last).run s).b.mem.scrub = if last then 0 else s.b.mem.scrub + 1 := by
  rw [scrubAdvance_mem]

theorem scrubAdvance_reg_false (s : State) (a : Nat) : ((scrubAdvance false).run s).reg a = s.reg a := by
  simp only [scrubAdvance, Upd.run_seq, whenU_false, Upd.run_skip, updMem, upd_reg]

theorem scrubAdvance_reg_ne (last : Bool) (s : State) {a : Nat} (hstat : MEM_SCRUB_STAT ≠ a) (hirq : BLK_IRQ_STAT 4 ≠ a) :
    ((scrubAdvance last).run s).reg a = s.reg a := by
  cases last
  · exact scrubAdvance_reg_false s a
  · simp only [scrubAdvance, scrubPassEnd, Upd.run_seq, whenU_true, seqs_cons_run, seqs_nil_run, incWrap, Upd.run_read, raise]
    rw [setBit_reg_ne _ hirq, set_reg_ne _ _ hstat, set_reg_ne _ _ hstat, updMem, upd_reg]

/-- A step over a line with an error leaves memory and every register outside the error's footprint alone. -/
theorem scrubStep_foot {u : Upd} (h : Within (faultFoot 4) u) (last : Bool) (s : State) : Untouched (faultFoot 4) s
    ((scrubAdvance last).run (u.run ((set MEM_SCRUB_STAT_RUNNING 1).run s))) :=
  ((within_set (faultFoot_of_onPage _ (by decide)) s).trans (h _)).trans ((within_scrubAdvance last).mono faultFoot_of_onPage _)

section
variable {s : State} (hu : s.unarmed 4 = true)
include hu

theorem completes_scrubStep (e : Fin 3) : Completes (.scrubStep e) s ((scrubStep e).run s) := by
  have harm : s.flag (BLK_ERR_INJ_ARM 4) = false := by simpa [State.unarmed] using hu
  have hdone : Completes (.scrubStep e) s ((Upd.seq (workFire 4 none) (scrubStep e)).run s) := completes_of_finish rfl
  rwa [Upd.run_seq, workFire_unarmed _ harm] at hdone

theorem scrubStep_of_off (e : Fin 3) (h : s.flag MEM_ECC_CFG_SCRUB_EN = false ∨ s.flag (BLK_CTRL_EN 4) = false ∨ 1 < s.pwr) :
    Does (.scrubStep e) .skip (fun _ => false) s := by
  refine does_of_completes (completes_scrubStep hu e) ?_ within_skip
  have hoff : (s.flag MEM_ECC_CFG_SCRUB_EN && s.flag (BLK_CTRL_EN 4) && decide (s.pwr ≤ 1)) = false := by
    rcases h with h | h | h
    · rw [h, Bool.false_and, Bool.false_and]
    · rw [h, Bool.and_false, Bool.false_and]
    · rw [decide_eq_false (Nat.not_le.mpr h), Bool.and_false]
  simp only [scrubStep, Upd.run_read, hoff, whenU_false]

variable (hen : s.flag MEM_ECC_CFG_SCRUB_EN = true) (hblk : s.flag (BLK_CTRL_EN 4) = true) (hp : s.pwr ≤ 1)
  (hclean : s.b.mem.poison.contains s.nextScrub = false)
include hen hblk hp hclean

/-- A step over a line without poison. -/
theorem completes_scrubStep_of_clean (e : Fin 3) : Completes (.scrubStep e) s
    ((scrubAdvance (decide (scrubLines ≤ s.b.mem.scrub + 1))).run
      ((scrubFinds s.nextScrub e).run ((set MEM_SCRUB_STAT_RUNNING 1).run s))) := by
  have hdone := completes_scrubStep hu e
  rw [State.nextScrub] at hclean
  have hcases : e = 0 ∨ e = 1 ∨ e = 2 := by omega
  rcases hcases with rfl | rfl | rfl <;>
    simpa only [scrubStep, scrubFinds, Fin.val_zero, Fin.val_one, Fin.val_two, scrubAdvance, scrubPassEnd, State.nextScrub, Upd.run_read,
      Upd.run_seq, Upd.run_skip, hen, hblk, hp, decide_true, Bool.and_self, whenU_true, hclean, Bool.false_eq_true, if_false, seqs_cons_run,
      seqs_nil_run, decide_eq_true_eq] using hdone

/-- Within a pass the scrub runs on. -/
theorem scrubStep_clean_moves (hl : s.b.mem.scrub + 1 < scrubLines) : ∃ t, Completes (.scrubStep 0) s t ∧
    t.b.mem.scrub = s.b.mem.scrub + 1 ∧ t.flag MEM_SCRUB_STAT_RUNNING = true ∧ Untouched (onPage 4) s t := by
  have hdone := completes_scrubStep_of_clean hu hen hblk hp hclean 0
  rw [decide_eq_false (Nat.not_le.mpr hl), scrubFinds_clean, Upd.run_skip] at hdone
  refine ⟨_, hdone, ?_, ?_, (within_setMemPage (by decide) _ _ _ s).trans (within_scrubAdvance false _)⟩
  · rw [scrubAdvance_scrub, set_b, if_neg Bool.false_ne_true]
  · rw [State.flag, State.get, scrubAdvance_reg_false, ← State.get, get_set_same (by decide)]
    rfl

/-- The last line ends the pass. -/
theorem scrubStep_clean_wraps (hl : ¬ s.b.mem.scrub + 1 < scrubLines) : ∃ t, Completes (.scrubStep 0) s t ∧
    t.b.mem.scrub = 0 ∧ t.flag MEM_SCRUB_STAT_RUNNING = false ∧ t.bitAt (BLK_IRQ_STAT 4) 4 = true ∧ Untouched (onPage 4) s t := by
  have hdone := completes_scrubStep_of_clean hu hen hblk hp hclean 0
  rw [decide_eq_true (Nat.not_lt.mp hl), scrubFinds_clean, Upd.run_skip] at hdone
  refine ⟨_, hdone, ?_, ?_, ?_, (within_setMemPage (by decide) _ _ _ s).trans (within_scrubAdvance true _)⟩
  · rw [scrubAdvance_scrub, if_pos rfl]
  · simp only [scrubAdvance, scrubPassEnd, Upd.run_seq, whenU_true, seqs_cons_run, seqs_nil_run]
    rw [State.flag, get_raise (by decide), get_set_same (by decide)]
    rfl
  · simp only [scrubAdvance, scrubPassEnd, Upd.run_seq, whenU_true, seqs_cons_run, seqs_nil_run]
    rw [raise_bitAt_same (by decide)]

theorem scrubStep_singleBit (hl : s.b.mem.scrub + 1 < scrubLines) : ∃ t, Completes (.scrubStep 1) s t ∧
    t.b.mem.scrub = s.b.mem.scrub + 1 ∧ t.reg MEM_CE_CNT = min (2 ^ 32 - 1) (s.reg MEM_CE_CNT + 1) ∧
    t.bitAt (BLK_IRQ_STAT 4) 0 = true ∧ t.bitAt (BLK_ERR_STAT 4) CE = true ∧ Untouched (faultFoot 4) s t := by
  have hdone := completes_scrubStep_of_clean hu hen hblk hp hclean 1
  rw [decide_eq_false (Nat.not_le.mpr hl), scrubFinds_singleBit] at hdone
  obtain ⟨hcnt, hirq, herr⟩ := memCe_records 2 0 s.nextScrub ((set MEM_SCRUB_STAT_RUNNING 1).run s)
  refine ⟨_, hdone, ?_, ?_, ?_, ?_, scrubStep_foot (within_memCe 2 0 _) false s⟩
  · rw [scrubAdvance_scrub, if_neg Bool.false_ne_true, memCe_scrub, set_b]
  · rw [scrubAdvance_reg_false, hcnt, set_reg_ne _ _ (by decide)]
  · rw [bitAt_of_reg_eq (scrubAdvance_reg_false _ _), hirq]
  · rw [bitAt_of_reg_eq (scrubAdvance_reg_false _ _), herr]

theorem scrubStep_uncorrectable : ∃ t, Completes (.scrubStep 2) s t ∧
    t.b.mem.scrub = (if s.b.mem.scrub + 1 < scrubLines then s.b.mem.scrub + 1 else 0) ∧ t.b.mem.poison.contains s.nextScrub = true ∧
    t.reg MEM_UE_CNT = min (2 ^ 32 - 1) (s.reg MEM_UE_CNT + 1) ∧ t.bitAt (BLK_ERR_STAT 4) PM = true ∧ Untouched (faultFoot 4) s t := by
  have hdone := completes_scrubStep_of_clean hu hen hblk hp hclean 2
  rw [scrubFinds_uncorrectable] at hdone
  obtain ⟨hcnt, herr, hpoison⟩ := memUeNew_records 4 0 s.nextScrub ((set MEM_SCRUB_STAT_RUNNING 1).run s)
  refine ⟨_, hdone, ?scrub, ?poison, ?cnt, ?err, scrubStep_foot (within_memUeNew 4 0 _) _ s⟩
  case scrub =>
    rw [scrubAdvance_scrub, memUeNew_scrub, set_b]
    simp only [decide_eq_true_eq, ← Nat.not_lt, ite_not]
  case poison => rw [scrubAdvance_poison, hpoison]
  case cnt => rw [scrubAdvance_reg_ne _ _ (by decide) (by decide), hcnt, set_reg_ne _ _ (by decide)]
  case err => rw [bitAt_of_reg_eq (scrubAdvance_reg_ne _ _ (by decide) (by decide)), herr]

end

/-! ## Re-keys (R209) -/

theorem completes_rekeyDone (s : State) : Completes .rekeyDone s (rekeyDone.run s) := completes_of_finish rfl

section
variable {s : State} {p : Nat} {ps : List (Nat × Bool)}

theorem rekeyDone_of_swapped (hr : s.b.mem.rekey = (p, true) :: ps) :
    rekeyDone.run s = (raise 4 5).run ((updMem fun m => { m with rekey := ps }).run s) := by
  simp only [rekeyDone, Upd.run_read, hr, Bool.true_or, whenU_true, if_true, seqs_cons_run, seqs_nil_run]

variable (hr : s.b.mem.rekey = (p, false) :: ps)
include hr

theorem rekeyDone_of_copying (hc : s.copies p = true) : rekeyDone.run s = s := by
  simp only [rekeyDone, Upd.run_read, hr, hc, Bool.not_true, Bool.or_self, whenU_false, Upd.run_skip]

/-- A swap that waited takes place with the end of the re-key. -/
theorem rekeyDone_of_copied (hc : s.copies p = false) : rekeyDone.run s = (raise 4 5).run
    ((updMem fun m => { m with rekey := ps, keyGen := mapPut 0 m.keyGen p (mapGet 0 m.keyGen p + 1) }).run s) := by
  simp only [rekeyDone, Upd.run_read, hr, hc, Bool.not_false, Bool.or_true, whenU_true, Bool.false_eq_true, if_false, seqs_cons_run,
    seqs_nil_run]

end

theorem untouched_updMem_raise (f : Mem → Mem) (i : Nat) (s : State) : Untouched (onPage 4) s ((raise 4 i).run ((updMem f).run s)) :=
  (within_upd _ s).trans (within_raise 4 i _)

theorem rekeyDone_ends {s : State} {p : Nat} {ps : List (Nat × Bool)} (hr : s.b.mem.rekey = (p, true) :: ps) :
    ∃ t, Completes .rekeyDone s t ∧ t.b.mem.rekey = ps ∧ t.b.mem.keyGen = s.b.mem.keyGen ∧ t.bitAt (BLK_IRQ_STAT 4) 5 = true ∧
      Untouched (onPage 4) s t := by
  have hdone := completes_rekeyDone s
  rw [rekeyDone_of_swapped hr] at hdone
  exact ⟨_, hdone, rfl, rfl, raise_bitAt_same (by decide) _, untouched_updMem_raise _ 5 s⟩

theorem rekeyDone_swaps {s : State} {p : Nat} {ps : List (Nat × Bool)} (hr : s.b.mem.rekey = (p, false) :: ps) (hc : s.copies p = false) :
    ∃ t, Completes .rekeyDone s t ∧ t.b.mem.rekey = ps ∧ mapGet 0 t.b.mem.keyGen p = mapGet 0 s.b.mem.keyGen p + 1 ∧
      t.bitAt (BLK_IRQ_STAT 4) 5 = true ∧ Untouched (onPage 4) s t := by
  have hdone := completes_rekeyDone s
  rw [rekeyDone_of_copied hr hc] at hdone
  refine ⟨_, hdone, rfl, ?_, raise_bitAt_same (by decide) _, untouched_updMem_raise _ 5 s⟩
  rw [raise, setBit_b, updMem, upd_b, mapGet_mapPut_same]

end Sys2Proof.Machine

open Sys2Proof Sys2Proof.Machine

/-- Settles O20: each command completes with its operation, which its conditions reduce to the effect stated. -/
theorem canopyAndMemoryEvents : Obligations.CanopyAndMemoryEvents := by
  refine ⟨?idle, ?read, ?write, ?refused, ?specBar, ?cboFlush, ?clock, ?retire, ?scrub, ?singleBit, ?uncorrectable, ?scrubOff, ?swap,
    ?copying, ?rekey⟩
  case idle => exact fun h m v s hidle => does_of_completes (completes_hvpidWrite h m v s) (hvpidWrite_of_idle v hidle) within_skip
  case read => exact fun h m s hidle hm => does_of_completes (completes_hvpidWrite h m none s) (hvpidWrite_read hidle hm) (within_upd _)
  case write => exact fun _ _ v _ hidle hm => hvpidWrite_selects hidle hm v
  case refused => exact fun h m v s hidle hm =>
    does_of_completes (completes_hvpidWrite h m v s) (hvpidWrite_of_refused_mode hidle v hm) (within_upd _)
  case specBar => exact fun _ _ => does_of_completes (completes_of_finish rfl) rfl within_skip
  case cboFlush => exact fun _ _ _ => does_of_completes (completes_of_finish rfl) rfl within_skip
  case clock => exact fun _ _ h => clockChangeDone_ends h
  case retire => exact fun _ _ _ hr hp hi => pageRetireDone_maps hr hp hi
  case scrub =>
    intro s hu hen hblk hp hclean
    split
    next hl => exact scrubStep_clean_moves hu hen hblk hp hclean hl
    next hl => exact scrubStep_clean_wraps hu hen hblk hp hclean hl
  case singleBit => exact fun _ hu hen hblk hp hl hclean => scrubStep_singleBit hu hen hblk hp hclean hl
  case uncorrectable => exact fun _ hu hen hblk hp hclean => scrubStep_uncorrectable hu hen hblk hp hclean
  case scrubOff => exact fun e _ hu h => scrubStep_of_off hu e h
  case swap => exact fun _ _ _ hr hc => rekeyDone_swaps hr hc
  case copying => exact fun s _ _ hr hc => does_of_completes (completes_rekeyDone s) (rekeyDone_of_copying hr hc) within_skip
  case rekey => exact fun _ _ _ hr => rekeyDone_ends hr
end

section
/-!
The Ironwood triplets (R222 to R238) and a debugger's halts of the harts (R691): what each row does where its condition holds, and that it
does nothing elsewhere.
-/
namespace Sys2Proof.Machine

/-- An element of work of unit `k` with no fault armed completes with its own effect. -/
theorem completes_of_work {c : Instr} {k : Nat} {cell : Option Nat} {u : Upd} {s : State}
    (h : exec c s = finish (.seq (workFire k cell) u) s) (hu : s.unarmed k = true) : Completes c s (u.run s) := by
  have harm : s.flag (BLK_ERR_INJ_ARM k) = false := by simpa [State.unarmed] using hu
  have hdone := completes_of_finish h
  rwa [Upd.run_seq, workFire_unarmed cell harm] at hdone

/-- A block's fault leaves every view of the records that shows nothing of the fabric's. -/
theorem keeps_b_report_block {α : Type} {π : Blocks → α} (hfab : ∀ b f, π { b with fab := f } = π b) (k cls : Nat) :
    Keeps (π ·.b) (report k none cls) := by
  have hpend (src : Nat) : Keeps (π ·.b) (fcuPend src cls) := keeps_read fun _ => keeps_seqs ⟨keeps_b_setBit _ _, keeps_b_setBit _ _,
    keeps_b_set π _ _, keeps_b_set π _ _, keeps_whenU fun _ => keeps_seq (keeps_b_set π _ _) (keeps_b_set π _ _)⟩
  exact keeps_read fun _ => keeps_read fun _ => keeps_seqs ⟨keeps_skip, keeps_whenU fun _ => keeps_seq (keeps_b_setBit _ _) (keeps_b_inc _ _),
    keeps_whenU fun _ => keeps_seqs ⟨keeps_skip, hpend _, keeps_b_set π _ _⟩, keeps_b_upd fun b => hfab b _⟩

/-! ## The registers of a triplet -/

theorem fits_iwState : ∀ x : Fin 2, (IW_STAT_STATE x).fits = true := by decide
theorem fits_iwRunning : ∀ x : Fin 2, (IW_STAT_RUNNING x).fits = true := by decide
theorem fits_iwFatalValid : ∀ x : Fin 2, (IW_FATAL_CAUSE_VALID x).fits = true := by decide
theorem fits_iwFatalCause : ∀ x : Fin 2, (IW_FATAL_CAUSE_CAUSE x).fits = true := by decide
theorem fits_iwIrq : ∀ x : Fin 2, ∀ i < 4, (⟨BLK_IRQ_STAT (1 + x.val), i, i⟩ : Fld).fits = true := by decide
theorem fits_iwLevel : ∀ x : Fin 2, ∀ k < 3, (iwLevel x k).fits = true := by decide

theorem iwLevel_reg (x k : Nat) : (iwLevel x k).reg = IW_CORE_FLT x := by
  unfold iwLevel
  split <;> rfl

theorem iwLevel_width (x k : Nat) : (iwLevel x k).hi - (iwLevel x k).lo = 7 := by
  unfold iwLevel
  split <;> rfl

theorem iwResyncs_reg (x k : Nat) : (iwResyncs x k).reg = IW_RESYNC_CNT x := by
  unfold iwResyncs
  split <;> rfl

theorem iwLevel_apart : ∀ x : Fin 2, ∀ j < 3, ∀ k < 3, j ≠ k →
    (iwLevel x j).hi < (iwLevel x k).lo ∨ (iwLevel x k).hi < (iwLevel x j).lo := by decide

/-- STATE and RUNNING share a register. -/
theorem get_iwState_set_running (x : Fin 2) (v : Nat) (s : State) :
    ((set (IW_STAT_RUNNING x) v).run s).get (IW_STAT_STATE x) = s.get (IW_STAT_STATE x) :=
  get_set_ne (fits_iwRunning x) (fits_iwState x) (.inr (.inl (show 2 < 29 by decide))) v s

theorem get_set_iwState (x : Fin 2) {v : Nat} (h : v < 8) (s : State) : ((set (IW_STAT_STATE x) v).run s).get (IW_STAT_STATE x) = v :=
  (get_set_same (fits_iwState x) v s).trans (Nat.mod_eq_of_lt h)

/-! ## The bits of the cores -/

theorem bit_eq_testBit (v i : Nat) : bit v i = v.testBit i := by
  rw [Nat.testBit_eq_decide_div_mod_eq]
  rfl

theorem bit_putCore_same {f : Fld} (hf : f.fits = true) {k : Nat} (hk : k < f.hi - f.lo + 1) (b : Bool) (s : State) :
    bit (((putCore f k b).run s).get f) k = b := by
  rw [putCore, Upd.run_read, get_set_same hf, bit_eq_testBit, Nat.testBit_mod_two_pow, testBit_withBits _ _ _ _ _ (Nat.le_refl k),
    if_pos ⟨Nat.le_refl k, Nat.le_refl k⟩, Nat.sub_self, decide_eq_true hk, Bool.true_and]
  cases b <;> rfl

theorem putCore_iwRuns (x : Fin 2) {k : Nat} (hk : k < 3) (b : Bool) (s : State) :
    ((putCore (IW_STAT_RUNNING x) k b).run s).iwRuns x k = b := bit_putCore_same (fits_iwRunning x) hk b s

theorem get_iwState_putCore (x : Fin 2) (k : Nat) (b : Bool) (s : State) :
    ((putCore (IW_STAT_RUNNING x) k b).run s).get (IW_STAT_STATE x) = s.get (IW_STAT_STATE x) := get_iwState_set_running x _ s

theorem within_putCore {p : Nat → Bool} {f : Fld} {k : Nat} {b : Bool} (h : p f.reg = true) : Within p (putCore f k b) :=
  within_read fun _ => within_set h

/-! ## The triplets' records -/

@[simp] theorem iw_updIw_same (x : Nat) (f : Triplet → Triplet) (s : State) : ((updIw x f).run s).iw x = f (s.iw x) :=
  mapGet_mapPut_same ({} : Triplet) s.b.iw x _

theorem iw_of_b_eq {s t : State} (h : t.b.iw = s.b.iw) (x : Nat) : t.iw x = s.iw x := by
  simp only [State.iw, h]

/-! ## Fatal errors (R227) -/

/-- What a fatal error may write: the triplet's page, the fault registers, and the pair controller's page for SYNCED. -/
def fatalFoot (x a : Nat) : Bool := faultFoot (1 + x) a || onPage 3 a

theorem fatalFoot_iw (x : Nat) {o : Nat} (ho : o < 0x10000) : fatalFoot x (unitBase (1 + x) + o) = true := by
  rw [fatalFoot, faultFoot_of_onPage _ (onPage_unitBase (1 + x) ho), Bool.true_or]

/-- What a triplet that halts leaves: its resynchronisation, a debugger's halt, its DMA channels, its place in the pair. -/
def iwEnds (x : Nat) : Upd := seqs [updIw x fun t => { t with resync := none, stopped := none }, iwDmaStop x, parLeaves x]

theorem within_parLeaves (x : Nat) : Within (onPage 3) (parLeaves x) := by
  have hsynced : onPage 3 (parSynced x).reg = true := by
    unfold parSynced
    split <;> decide
  exact within_read fun _ => within_seqs ⟨within_set hsynced, within_whenU (within_upd _), within_upd _⟩

theorem within_iwEnds (x : Nat) : Within (onPage 3) (iwEnds x) :=
  within_seqs ⟨within_upd _, within_read fun _ => within_upd _, within_parLeaves x⟩

section
variable (x : Fin 2) (c : Nat) (s : State)

/-- The state once a fatal error shows its cause. -/
def fatalShown : State := (set (IW_FATAL_CAUSE_CAUSE x) c).run ((set (IW_FATAL_CAUSE_VALID x) 1).run
  ((set (IW_STAT_RUNNING x) 0).run ((set (IW_STAT_STATE x) 4).run s)))

theorem iwFatal_run : (iwFatal x c).run s =
    (report (1 + x) none FT).run ((raise (1 + x) 2).run ((iwEnds x).run (fatalShown x c s))) := rfl

/-- What follows writes neither register again. -/
theorem iwFatal_get {f : Fld} (hf : f.reg = IW_STAT x ∨ f.reg = IW_FATAL_CAUSE x) :
    ((iwFatal x c).run s).get f = (fatalShown x c s).get f := by
  have hspared : ∀ x : Fin 2, ∀ a, a = IW_STAT x ∨ a = IW_FATAL_CAUSE x →
      reportFoot (1 + x) a = false ∧ BLK_IRQ_STAT (1 + x) ≠ a ∧ onPage 3 a = false := by
    simp only [forall_eq_or_imp, forall_eq]
    decide
  obtain ⟨hreport, hirq, hpar⟩ := hspared x _ hf
  rw [iwFatal_run, (within_report_block (by omega) (by decide) _).get_eq hreport, get_raise hirq, (within_iwEnds x _).get_eq hpar]

theorem iwFatalCause_ne_iwStat : IW_FATAL_CAUSE x ≠ IW_STAT x := by simp only [IW_FATAL_CAUSE, IW_STAT]; omega

theorem iwFatal_state : ((iwFatal x c).run s).get (IW_STAT_STATE x) = 4 := by
  rw [iwFatal_get x c s (.inl rfl), fatalShown, get_set_ne_reg (iwFatalCause_ne_iwStat x), get_set_ne_reg (iwFatalCause_ne_iwStat x),
    get_iwState_set_running, get_set_iwState x (by decide)]

theorem iwFatal_running : ((iwFatal x c).run s).get (IW_STAT_RUNNING x) = 0 := by
  rw [iwFatal_get x c s (.inl rfl), fatalShown, get_set_ne_reg (iwFatalCause_ne_iwStat x), get_set_ne_reg (iwFatalCause_ne_iwStat x),
    get_set_same (fits_iwRunning x), Nat.zero_mod]

theorem iwFatal_valid : ((iwFatal x c).run s).flag (IW_FATAL_CAUSE_VALID x) = true := by
  rw [State.flag, iwFatal_get x c s (.inr rfl), fatalShown,
    get_set_ne (fits_iwFatalCause x) (fits_iwFatalValid x) (.inr (.inl (show 3 < 31 by decide))), get_set_same (fits_iwFatalValid x)]
  rfl

theorem iwFatal_cause (hc : c < 16) : ((iwFatal x c).run s).get (IW_FATAL_CAUSE_CAUSE x) = c := by
  rw [iwFatal_get x c s (.inr rfl), fatalShown, get_set_same (fits_iwFatalCause x)]
  exact Nat.mod_eq_of_lt hc

theorem iwFatal_irq : ((iwFatal x c).run s).bitAt (BLK_IRQ_STAT (1 + x.val)) 2 = true := by
  have hreport : ∀ x : Fin 2, reportFoot (1 + x) (BLK_IRQ_STAT (1 + x)) = false := by decide
  rw [iwFatal_run, bitAt_of_reg_eq ((within_report_block (by omega) (by decide) _).reg_eq (hreport x)),
    raise_bitAt_same (fits_iwIrq x 2 (by decide))]

theorem within_iwFatal : Within (fatalFoot x) (iwFatal x c) := by
  have hpar : ∀ a, onPage 3 a = true → fatalFoot x a = true := fun a ha => by rw [fatalFoot, ha, Bool.or_true]
  have hreport : ∀ a, reportFoot (1 + x) a = true → fatalFoot x a = true := fun a ha => by
    rw [fatalFoot, faultFoot_of_reportFoot a ha, Bool.true_or]
  have hset {o : Nat} (ho : o < 0x10000) (hi lo v : Nat) : Within (fatalFoot x) (set ⟨unitBase (1 + x) + o, hi, lo⟩ v) :=
    within_set (fatalFoot_iw x ho)
  exact within_seqs ⟨hset (by decide) _ _ _, hset (by decide) _ _ _, hset (by decide) _ _ _, hset (by decide) _ _ _, within_upd _,
    within_read fun _ => within_upd _, (within_parLeaves x).mono hpar, within_setBit (fatalFoot_iw x (by decide)),
    (within_report_block (by omega) (by decide)).mono hreport⟩

end

/-! ## IW_VOTE (R223 to R225) -/

theorem completes_iwVote (x : Fin 2) (v c part : Fin 5) (tcm : Option (Fin 131072 × Bool)) {s : State} (hu : s.unarmed (1 + x.val) = true) :
    Completes (.iwVote x v c part tcm) s ((iwVote x v c part tcm).run s) := completes_of_work rfl hu

theorem iwVote_of_agreement (x : Fin 2) (s : State) : (iwVote x 0 0 0 none).run s = s := by
  simp only [iwVote, Upd.run_read]
  cases s.iwRunning x
  · rfl
  · simp only [whenU_true, seqs_cons_run, seqs_nil_run, Upd.run_skip, Fin.val_zero, ne_eq, not_true_eq_false, if_false, and_self, or_true,
      if_true]

section
variable {x : Fin 2} {s : State}

section
variable (hr : s.iwRunning x = true)
include hr

theorem iwVote_of_failing_part {part : Fin 5} (v c : Fin 5) (hp : part ≠ 0) :
    (iwVote x v c part none).run s = (iwFatal x ([0, 3, 5, 6, 8].getD part 0)).run s := by
  have hpart : part.val ≠ 0 := fun h => hp (Fin.ext h)
  simp only [iwVote, Upd.run_read, hr, whenU_true, seqs_cons_run, seqs_nil_run, Upd.run_skip, if_pos hpart]

variable {v c : Fin 5} (hs : s.iwSplit x = false)
include hs

/-- A detection-only pair cannot tell which of its cores is wrong. -/
theorem iwVote_of_pair_difference (hd : s.flag (IW_STAT_DMR x) = true) (h : v ≠ 0 ∨ c ≠ 0) :
    (iwVote x v c 0 none).run s = (iwFatal x 2).run s := by
  have hdiff : ¬ (v.val = 0 ∧ c.val = 0) := fun ⟨hv, hc⟩ => h.elim (fun h => h (Fin.ext hv)) fun h => h (Fin.ext hc)
  simp only [iwVote, Upd.run_read, hr, whenU_true, seqs_cons_run, seqs_nil_run, Upd.run_skip, Fin.val_zero, ne_eq, not_true_eq_false,
    if_false, hs, Bool.false_eq_true, hdiff, or_self, hd, if_true]

end

theorem iwVote_failing_part {v c part : Fin 5} (hu : s.unarmed (1 + x.val) = true) (hr : s.iwRunning x = true) (hp : part ≠ 0) :
    ∃ t, Completes (.iwVote x v c part none) s t ∧ t.get (IW_STAT_STATE x) = 4 ∧ t.get (IW_STAT_RUNNING x) = 0 ∧
      t.flag (IW_FATAL_CAUSE_VALID x) = true ∧ t.get (IW_FATAL_CAUSE_CAUSE x) = [0, 3, 5, 6, 8].getD part 0 ∧
      t.bitAt (BLK_IRQ_STAT (1 + x.val)) 2 = true ∧ Untouched (fatalFoot x) s t := by
  have hdone := completes_iwVote x v c part none hu
  rw [iwVote_of_failing_part hr v c hp] at hdone
  have hcause : ∀ part : Fin 5, [0, 3, 5, 6, 8].getD part 0 < 16 := by decide
  exact ⟨_, hdone, iwFatal_state x _ s, iwFatal_running x _ s, iwFatal_valid x _ s, iwFatal_cause x _ s (hcause part), iwFatal_irq x _ s,
    within_iwFatal x _ s⟩

theorem iwVote_pair_difference {v c : Fin 5} (hu : s.unarmed (1 + x.val) = true) (hr : s.iwRunning x = true) (hs : s.iwSplit x = false)
    (hd : s.flag (IW_STAT_DMR x) = true) (h : v ≠ 0 ∨ c ≠ 0) :
    ∃ t, Completes (.iwVote x v c 0 none) s t ∧ t.get (IW_STAT_STATE x) = 4 ∧ t.get (IW_FATAL_CAUSE_CAUSE x) = 2 ∧
      Untouched (fatalFoot x) s t := by
  have hdone := completes_iwVote x v c 0 none hu
  rw [iwVote_of_pair_difference hr hs hd h] at hdone
  exact ⟨_, hdone, iwFatal_state x 2 s, iwFatal_cause x 2 s (by decide), within_iwFatal x 2 s⟩

/-- Below the threshold a dissent ends in a resynchronisation. -/
theorem iwDissent_of_below {k : Nat} (h : s.get (iwLevel x k) + 1 < s.iwPermTh x) : (iwDissent x k).run s =
    (updIw x fun t => { t with resync := some (k, false), shaken := true }).run ((putCore (IW_STAT_RUNNING x) k false).run
      ((set (IW_STAT_STATE x) 3).run ((inc (iwLevel x k)).run s))) := by
  have hth : ¬ s.iwPermTh x ≤ min 255 (s.get (iwLevel x k) + 1) := by omega
  simp only [iwDissent, Upd.run_read, Upd.run_seq, if_neg hth, seqs_cons_run, seqs_nil_run]

/-- In a voting triplet that runs all its cores without a self-test slice, one core that differs dissents. -/
theorem iwVote_of_one_difference (k : Fin 3) (hst : s.get (IW_STAT_STATE x) = 2) (hs : s.iwSplit x = false)
    (hd : s.flag (IW_STAT_DMR x) = false) (hsl : (s.iw x).slice = none) :
    (iwVote x ⟨k.val + 1, by omega⟩ 0 0 none).run s = (iwDissent x k).run s := by
  have hrun : s.iwRunning x = true := by simp only [State.iwRunning, hst, beq_self_eq_true, Bool.true_or]
  have hne4 : k.val + 1 ≠ 4 := by omega
  simp only [iwVote, Upd.run_read, hrun, whenU_true, seqs_cons_run, seqs_nil_run, Upd.run_skip, Fin.val_zero, ne_eq, not_true_eq_false,
    if_false, hs, Bool.false_eq_true, Nat.succ_ne_zero, and_false, false_and, or_self, hd, hst, Nat.reduceEqDiff, hsl,
    Option.isSome_none, hne4, Nat.max_zero, Nat.add_sub_cancel]

theorem iwVote_one_difference {k : Fin 3} (hu : s.unarmed (1 + x.val) = true) (hst : s.get (IW_STAT_STATE x) = 2) (hs : s.iwSplit x = false)
    (hd : s.flag (IW_STAT_DMR x) = false) (hsl : (s.iw x).slice = none) (hl : s.get (iwLevel x k) + 1 < s.iwPermTh x) :
    ∃ t, Completes (.iwVote x ⟨k.val + 1, by omega⟩ 0 0 none) s t ∧ t.get (IW_STAT_STATE x) = 3 ∧ t.iwRuns x k = false ∧
      t.get (iwLevel x k) = s.get (iwLevel x k) + 1 ∧ (t.iw x).resync = some (k.val, false) ∧ Untouched (onPage (1 + x.val)) s t := by
  have hdone := completes_iwVote x ⟨k.val + 1, by omega⟩ 0 0 none hu
  rw [iwVote_of_one_difference k hst hs hd hsl, iwDissent_of_below hl] at hdone
  have hlevel : onPage (1 + x.val) (iwLevel x k).reg = true := by
    rw [iwLevel_reg]
    exact onPage_unitBase _ (by decide)
  refine ⟨_, hdone, ?state, ?runs, ?level, ?resync, ?foot⟩
  case state => rw [updIw, upd_get, get_iwState_putCore, get_set_iwState x (by decide)]
  case runs => rw [State.iwRuns, updIw, upd_get, ← State.iwRuns, putCore_iwRuns x k.isLt]
  case level =>
    have hne : IW_STAT x ≠ (iwLevel x k).reg := by
      rw [iwLevel_reg]
      simp only [IW_STAT, IW_CORE_FLT]
      omega
    have hth : s.iwPermTh x < 256 := Nat.max_lt.mpr ⟨by decide, get_lt s (IW_FLT_CFG_PERM_TH x)⟩
    rw [updIw, upd_get, putCore, Upd.run_read, get_set_ne_reg hne, get_set_ne_reg hne, get_inc_same (fits_iwLevel x k k.isLt), iwLevel_width]
    exact Nat.min_eq_right (by omega)
  case resync => rw [iw_updIw_same]
  case foot =>
    exact (((within_inc hlevel s).trans (within_set (onPage_unitBase _ (by decide)) _)).trans
      (within_putCore (onPage_unitBase _ (by decide)) _)).trans (within_upd _ _)

end

/-! ## RESYNC_DONE (R224, R226) -/

theorem completes_resyncDone (x : Fin 2) (ok : Bool) (s : State) : Completes (.resyncDone x ok) s ((resyncDone x ok).run s) :=
  completes_of_finish rfl

section
variable {x : Fin 2} {s : State}

theorem resyncDone_of_state_ne (ok : Bool) (h : s.get (IW_STAT_STATE x) ≠ 3) : (resyncDone x ok).run s = s := by
  simp only [resyncDone, Upd.run_read, beq_false_of_ne h, whenU_false, Upd.run_skip]

section
variable (hst : s.get (IW_STAT_STATE x) = 3)
include hst

theorem resyncDone_of_differing_sources {k : Nat × Bool} (hr : (s.iw x).resync = some k) :
    (resyncDone x false).run s = (iwFatal x 1).run s := by
  simp only [resyncDone, Upd.run_read, hst, beq_self_eq_true, whenU_true, hr, Bool.false_eq_true, not_false_eq_true, if_true]

theorem resyncDone_of_copied {k : Nat} (hr : (s.iw x).resync = some (k, false)) : (resyncDone x true).run s =
    (report (1 + x) none TR).run ((inc (iwResyncs x k)).run ((raise (1 + x) 0).run ((putCore (IW_STAT_RUNNING x) k true).run
      ((set (IW_STAT_STATE x) 2).run ((updIw x fun t => { t with resync := none }).run s))))) := by
  simp only [resyncDone, Upd.run_read, hst, beq_self_eq_true, whenU_true, hr, Bool.false_eq_true, not_true_eq_false, if_false, seqs_cons_run,
    seqs_nil_run, Upd.run_seq]

theorem resyncDone_differing {k : Nat × Bool} (hr : (s.iw x).resync = some k) :
    ∃ t, Completes (.resyncDone x false) s t ∧ t.get (IW_STAT_STATE x) = 4 ∧ t.get (IW_FATAL_CAUSE_CAUSE x) = 1 ∧
      Untouched (fatalFoot x) s t := by
  have hdone := completes_resyncDone x false s
  rw [resyncDone_of_differing_sources hst hr] at hdone
  exact ⟨_, hdone, iwFatal_state x 1 s, iwFatal_cause x 1 s (by decide), within_iwFatal x 1 s⟩

theorem resyncDone_returns {k : Nat} (hr : (s.iw x).resync = some (k, false)) (hk : k < 3) :
    ∃ t, Completes (.resyncDone x true) s t ∧ t.get (IW_STAT_STATE x) = 2 ∧ t.iwRuns x k = true ∧ (t.iw x).resync = none ∧
      t.bitAt (BLK_IRQ_STAT (1 + x.val)) 0 = true ∧ Untouched (faultFoot (1 + x.val)) s t := by
  have hdone := completes_resyncDone x true s
  rw [resyncDone_of_copied hst hr] at hdone
  have hcount (a : Nat) (ha : IW_RESYNC_CNT x ≠ a) (u : State) : ((inc (iwResyncs x k)).run u).reg a = u.reg a :=
    set_reg_ne _ u (iwResyncs_reg x k ▸ ha)
  have hspared : ∀ x : Fin 2, reportFoot (1 + x) (IW_STAT x) = false ∧ IW_RESYNC_CNT x ≠ IW_STAT x ∧ BLK_IRQ_STAT (1 + x) ≠ IW_STAT x ∧
      reportFoot (1 + x) (BLK_IRQ_STAT (1 + x)) = false ∧ IW_RESYNC_CNT x ≠ BLK_IRQ_STAT (1 + x) := by decide
  obtain ⟨hstatReport, hstatCnt, hstatIrq, hirqReport, hirqCnt⟩ := hspared x
  have hstat (u : State) : ((report (1 + x) none TR).run ((inc (iwResyncs x k)).run ((raise (1 + x) 0).run u))).reg (IW_STAT x) =
      u.reg (IW_STAT x) := by
    rw [(within_report_block (by omega) (by decide) _).reg_eq hstatReport, hcount _ hstatCnt, raise, setBit_reg_ne _ hstatIrq]
  have hget (u : State) (f : Fld) (hf : f.reg = IW_STAT x) :
      ((report (1 + x) none TR).run ((inc (iwResyncs x k)).run ((raise (1 + x) 0).run u))).get f = u.get f := by
    simp only [State.get, hf, hstat]
  refine ⟨_, hdone, ?state, ?runs, ?resync, ?irq, ?foot⟩
  case state => rw [hget _ _ rfl, get_iwState_putCore, get_set_iwState x (by decide)]
  case runs => rw [State.iwRuns, hget _ _ rfl, ← State.iwRuns, putCore_iwRuns x hk]
  case resync =>
    have hkeep := keeps_b_report_block (π := Blocks.iw) (fun _ _ => rfl) (1 + x) TR
    have hregs (u : State) : ((inc (iwResyncs x k)).run ((raise (1 + x) 0).run ((putCore (IW_STAT_RUNNING x) k true).run
        ((set (IW_STAT_STATE x) 2).run u)))).b = u.b := by
      simp only [inc_b, raise, setBit_b, putCore, Upd.run_read, set_b]
    rw [iw_of_b_eq (hkeep _), iw_of_b_eq (congrArg Blocks.iw (hregs _)), iw_updIw_same]
  case irq =>
    rw [bitAt_of_reg_eq ((within_report_block (by omega) (by decide) _).reg_eq hirqReport), bitAt_of_reg_eq (hcount _ hirqCnt _),
      raise_bitAt_same (fits_iwIrq x 0 (by decide))]
  case foot =>
    have hpage {o : Nat} (ho : o < 0x10000) : faultFoot (1 + x) (unitBase (1 + x) + o) = true := faultFoot_of_onPage _ (onPage_unitBase _ ho)
    have hcnt : faultFoot (1 + x) (iwResyncs x k).reg = true := iwResyncs_reg x k ▸ hpage (by decide)
    have hreport : Within (faultFoot (1 + x)) (report (1 + x) none TR) :=
      (within_report_block (by omega) (by decide)).mono faultFoot_of_reportFoot
    exact (((((within_upd _ s).trans (within_set (hpage (by decide)) _)).trans (within_putCore (hpage (by decide)) _)).trans
      (within_setBit (hpage (by decide)) _)).trans (within_inc hcnt _)).trans (hreport _)

end

end

/-! ## IW_DECAY_TICK (R225) -/

theorem iwDecayTick_of_powered (x : Fin 2) {s : State} (h : s.pwr ≤ 1) :
    (iwDecayTick x).run s = (dec (iwLevel x 2)).run ((dec (iwLevel x 1)).run ((dec (iwLevel x 0)).run s)) := by
  rw [iwDecayTick, Upd.run_read, decide_eq_true h]
  rfl

theorem get_dec_iwLevel (x : Fin 2) {j k : Nat} (hj : j < 3) (hk : k < 3) (s : State) :
    ((dec (iwLevel x j)).run s).get (iwLevel x k) = if j = k then s.get (iwLevel x k) - 1 else s.get (iwLevel x k) := by
  split
  next h => rw [h, get_dec_same (fits_iwLevel x k hk)]
  next h => exact get_set_ne (fits_iwLevel x j hj) (fits_iwLevel x k hk) (.inr (iwLevel_apart x j hj k hk h)) _ s

theorem iwDecayTick_lowers (x : Fin 2) {s : State} (h : s.pwr ≤ 1) : ∃ t, Completes (.iwDecayTick x) s t ∧
    Untouched (· == IW_CORE_FLT x) s t ∧ ∀ k < 3, t.get (iwLevel x k) = s.get (iwLevel x k) - 1 := by
  have hdone : Completes (.iwDecayTick x) s ((iwDecayTick x).run s) := completes_of_finish rfl
  rw [iwDecayTick_of_powered x h] at hdone
  have hdec (j : Nat) : Within (· == IW_CORE_FLT x) (dec (iwLevel x j)) :=
    within_read fun _ => within_set (beq_iff_eq.mpr (iwLevel_reg x j))
  refine ⟨_, hdone, ((hdec 0 s).trans (hdec 1 _)).trans (hdec 2 _), fun k hk => ?_⟩
  have hcases : k = 0 ∨ k = 1 ∨ k = 2 := by omega
  rw [get_dec_iwLevel x (by decide) hk, get_dec_iwLevel x (by decide) hk, get_dec_iwLevel x (by decide) hk]
  rcases hcases with rfl | rfl | rfl <;> rfl

/-! ## Self-tests (R229, R231) -/

theorem completes_voterSelftestInject (x : Fin 2) (ok : Bool) (s : State) :
    Completes (.voterSelftestInject x ok) s ((voterSelftestInject x ok).run s) := completes_of_finish rfl

/-- The registers of the voter's self-test: IWx_SELFTEST_STAT and the event of a whole sweep. -/
def selftestFoot (x a : Nat) : Bool := a == IW_SELFTEST_STAT x || a == BLK_IRQ_STAT (1 + x)

section
variable {x : Fin 2} {s : State}

section
variable (hr : s.iwRunning x = true) (hs : s.iwSplit x = false)
include hr hs

theorem voterSelftestInject_of_missed : (voterSelftestInject x false).run s = (iwFatal x 4).run s := by
  simp only [voterSelftestInject, Upd.run_read, hr, hs, Bool.not_false, Bool.and_self, whenU_true, Bool.false_eq_true, not_false_eq_true,
    if_true]

theorem voterSelftestInject_caught_untouched : Untouched (selftestFoot x) s ((voterSelftestInject x true).run s) := by
  have hstat : selftestFoot x (IW_SELFTEST_STAT x) = true := by simp only [selftestFoot, beq_self_eq_true, Bool.true_or]
  have hirq : selftestFoot x (BLK_IRQ_STAT (1 + x)) = true := by simp only [selftestFoot, beq_self_eq_true, Bool.or_true]
  have hwrap {f : Fld} {n : Nat} (hf : f.reg = IW_SELFTEST_STAT x) : Within (selftestFoot x) (incWrap f n) :=
    within_read fun _ => within_set (hf ▸ hstat)
  simp only [voterSelftestInject, Upd.run_read, hr, hs, Bool.not_false, Bool.and_self, whenU_true, not_true_eq_false, if_false]
  exact within_seqs (p := selftestFoot x) (l := [_, _, _]) ⟨hwrap rfl, within_upd _, within_whenU (within_seq (hwrap rfl) (within_setBit hirq))⟩ s

theorem voterSelftestInject_caught : ∃ t, Completes (.voterSelftestInject x true) s t ∧
    t.get (IW_STAT_STATE x) = s.get (IW_STAT_STATE x) ∧ Untouched (onPage (1 + x.val)) s t := by
  have hunt := voterSelftestInject_caught_untouched hr hs
  have hspared : ∀ x : Fin 2, selftestFoot x (IW_STAT x) = false := by decide
  refine ⟨_, completes_voterSelftestInject x true s, hunt.get_eq (hspared x), hunt.mono fun a ha => ?_⟩
  rw [selftestFoot, Bool.or_eq_true, beq_iff_eq, beq_iff_eq] at ha
  rcases ha with rfl | rfl <;> exact onPage_unitBase _ (by decide)

theorem voterSelftestInject_missed : ∃ t, Completes (.voterSelftestInject x false) s t ∧ t.get (IW_STAT_STATE x) = 4 ∧
    t.get (IW_FATAL_CAUSE_CAUSE x) = 4 := by
  have hdone := completes_voterSelftestInject x false s
  rw [voterSelftestInject_of_missed hr hs] at hdone
  exact ⟨_, hdone, iwFatal_state x 4 s, iwFatal_cause x 4 s (by decide)⟩

end

section
variable (hst : s.get (IW_STAT_STATE x) = 1) (hs : s.iwSplit x = false) (hr : s.get (IW_STAT_RETIRED x) = 0)
include hst hs hr

theorem startupSelftestDone_of_passed :
    (startupSelftestDone x 0).run s = (set (IW_STAT_RUNNING x) 7).run ((set (IW_STAT_STATE x) 2).run s) := by
  have hretired (k : Nat) : s.iwRetired x k = false := by
    rw [State.iwRetired, hr, bit_eq_testBit, Nat.zero_testBit]
  have hpassed (k : Nat) : bit 0 k = false := by rw [bit_eq_testBit, Nat.zero_testBit]
  have hleft : (List.range 3).filter (fun k => !s.iwRetired x k && !bit 0 k) = [0, 1, 2] := by
    simp only [hretired, hpassed]
    rfl
  simp only [startupSelftestDone, Upd.run_read, hst, beq_self_eq_true, whenU_true, hs, Bool.false_eq_true, if_false, seqs_cons_run,
    seqs_nil_run, Fin.val_zero, hleft]
  rw [forN, forEach_run_of_skip fun k _ => by rw [hpassed, Bool.and_false, whenU_false], if_neg (show ¬ [0, 1, 2].length < 2 by decide),
    Upd.run_seq, show [0, 1, 2].foldl (fun m k => m + 2 ^ k) 0 = 7 from rfl]

theorem startupSelftestDone_passes : ∃ t, Completes (.startupSelftestDone x 0) s t ∧ t.get (IW_STAT_STATE x) = 2 ∧
    t.get (IW_STAT_RUNNING x) = 7 ∧ Untouched (· == IW_STAT x) s t := by
  have hdone : Completes (.startupSelftestDone x 0) s ((startupSelftestDone x 0).run s) := completes_of_finish rfl
  rw [startupSelftestDone_of_passed hst hs hr] at hdone
  refine ⟨_, hdone, ?_, ?_, (within_setOwn (IW_STAT_STATE x) 2 s).trans (within_setOwn (IW_STAT_RUNNING x) 7 _)⟩
  · rw [get_iwState_set_running, get_set_iwState x (by decide)]
  · rw [get_set_same (fits_iwRunning x)]
    rfl

end

end

/-! ## MACHINE_TIMER_INTERRUPT (R234) -/

theorem machineTimerInterrupt_compares {x c : Fin 2} {s : State} (h : s.iwSet x c = true) :
    ∃ t, Completes (.machineTimerInterrupt x c) s t ∧ ((t.iw x).timer.contains c.val = decide (s.timeCmp x c ≤ s.devTime)) ∧
      Untouched (fun _ => false) s t := by
  have hdone : Completes (.machineTimerInterrupt x c) s ((machineTimerInterrupt x c).run s) := completes_of_finish rfl
  simp only [machineTimerInterrupt, Upd.run_read, h, whenU_true] at hdone
  refine ⟨_, hdone, ?_, within_upd _ s⟩
  rw [iw_updIw_same]
  by_cases hle : s.timeCmp x c ≤ s.devTime
  · by_cases hc : c.val ∈ (s.iw x).timer <;> simp [hle, hc]
  · simp [hle]

/-! ## A debugger's halts of harts (R691) -/

theorem debugHalt_marks {n : Fin 18} {s : State} (h : s.debugScope n = true) (hn : n.val < 12) :
    ∃ t, Completes (.debugHalt n) s t ∧ t.b.vlt.halted.contains n.val = true ∧ Untouched (fun _ => false) s t := by
  have hdone : Completes (.debugHalt n) s ((debugHalt n).run s) := completes_of_finish rfl
  simp only [debugHalt, Upd.run_read, h, whenU_true, hn, true_or, if_true] at hdone
  exact ⟨_, hdone, List.contains_iff_mem.mpr List.mem_cons_self, within_upd _ s⟩

theorem debugHalt_of_closed (n : Fin 18) {s : State} (h : s.debugScope n = false) : (debugHalt n).run s = s := by
  simp only [debugHalt, Upd.run_read, h, whenU_false, Upd.run_skip]

theorem debugResume_releases {n : Fin 18} (s : State) (hn : n.val < 12) :
    ∃ t, Completes (.debugResume n) s t ∧ t.b.vlt.halted.contains n.val = false ∧ Untouched (fun _ => false) s t := by
  have hdone : Completes (.debugResume n) s ((debugResume n).run s) := completes_of_finish rfl
  simp only [debugResume, Upd.run_read, hn, true_or, if_true, Nat.not_le.mpr hn, decide_false, Bool.false_and, whenU_false, Upd.run_seq,
    Upd.run_skip] at hdone
  refine ⟨_, hdone, ?_, within_upd _ s⟩
  rw [upd_b, List.contains_eq_mem, decide_eq_false_iff_not]
  intro hmem
  have hkept := (List.mem_filter.mp hmem).2
  rw [List.contains_cons, beq_self_eq_true, Bool.true_or] at hkept
  exact Bool.false_ne_true hkept

end Sys2Proof.Machine

open Sys2Proof Sys2Proof.Machine

/-- Settles O34: each command completes with its operation, which its conditions reduce to the effect stated; every fatal error is
`iwFatal` with its cause. -/
theorem tripletEvents : Obligations.TripletEvents := by
  refine ⟨?agree, ?part, ?pair, ?dissent, ?noResync, ?returns, ?differing, ?decay, ?selftest, ?startup, ?timer, ?halt, ?closed, ?resume⟩
  case agree => exact fun x s hu => does_of_completes (completes_iwVote x 0 0 0 none hu) (iwVote_of_agreement x s) within_skip
  case part => exact fun _ _ _ _ _ hu hr hp => iwVote_failing_part hu hr hp
  case pair => exact fun _ _ _ _ hu hr hs hd h => iwVote_pair_difference hu hr hs hd h
  case dissent => exact fun _ _ _ hu hst hs hd hsl hl => iwVote_one_difference hu hst hs hd hsl hl
  case noResync => exact fun x ok s h => does_of_completes (completes_resyncDone x ok s) (resyncDone_of_state_ne ok h) within_skip
  case returns => exact fun _ _ _ hst hr hk => resyncDone_returns hst hr hk
  case differing => exact fun _ _ _ hst hr => resyncDone_differing hst hr
  case decay => exact fun x _ h => iwDecayTick_lowers x h
  case selftest => exact fun _ _ hr hs => ⟨voterSelftestInject_caught hr hs, voterSelftestInject_missed hr hs⟩
  case startup => exact fun _ _ hst hs hr => startupSelftestDone_passes hst hs hr
  case timer => exact fun _ _ _ h => machineTimerInterrupt_compares h
  case halt => exact fun _ _ h hn => debugHalt_marks h hn
  case closed => exact fun n _ h => does_of_completes (completes_of_finish rfl) (debugHalt_of_closed n h) within_skip
  case resume => exact fun _ s hn => debugResume_releases s hn
end

section
/-!
Accesses of the PCIe host (R585 to R593, R598), the host's barrier (R597) and the ends of the triplets' DMA channels (R235): what each row
does where its condition holds, and that it does nothing elsewhere.
-/
namespace Sys2Proof.Machine

/-! ## Footprints of the bridge -/

theorem within_msixSend (fn v : Nat) : Within (onPage 14) (msixSend fn v) :=
  within_read fun _ => within_whenU (within_ite (within_upd _) (within_count (by decide)))

theorem within_msixWrite (fn v w x : Nat) : Within (onPage 14) (msixWrite fn v w x) :=
  within_read fun _ => within_seq (within_upd _) (within_whenU (within_seq (within_upd _) (within_msixSend _ _)))

theorem within_tableWrite (fn v w : Nat) (data : List Byte) : Within (onPage 14) (tableWrite fn v w data) :=
  within_forN fun _ _ => within_msixWrite _ _ _ _

theorem within_chainRead {p : Nat → Bool} (dev kind idx len pid a : Nat) (host : Bool) : Within p (chainRead dev kind idx len pid a host) := by
  refine within_read fun s => ?_
  dsimp only
  split
  · exact within_seq (within_upd _) (within_upd _)
  · exact within_upd _

theorem within_showTrk : Within (onPage 14) showTrk := within_read fun _ => within_seq (within_set (by decide)) (within_set (by decide))

theorem within_wsyncStart (n : Nat) (host : Bool) (reply : Option Pkt) : Within (onPage 14) (wsyncStart n host reply) :=
  within_read fun _ => within_seqs ⟨within_upd _, within_forEach fun _ _ => within_chainRead _ _ _ _ _ _ _, within_showTrk⟩

/-! ## HOST_WRITE (R586, R591 to R593) -/

theorem completes_hostWrite (f : Fin 64) (b : Bool) (o : Fin 17179869184) (d : List Byte) (e : Fin 4) {s : State} (hu : s.unarmed 14 = true) :
    Completes (.hostWrite f b o d e) s ((hostWrite f b o d e).run s) := completes_of_work rfl hu

section
variable {f : Fin 64} {b : Bool} {o : Fin 17179869184} {d : List Byte} {s : State}

theorem hostWrite_of_closed (e : Fin 4) (h : s.hostOpen = false) : (hostWrite f b o d e).run s = s := by
  simp only [hostWrite, Upd.run_read, h, Bool.false_and, whenU_false, Upd.run_skip]

variable (ho : s.hostOpen = true) (hd : d ≠ []) (hc : s.b.hbr.heldWr.length < 256)
include ho hd hc

/-- A write of at least one byte for which the host has credits is taken. -/
theorem hostWrite_taken : (s.hostOpen && !d.isEmpty && decide (s.b.hbr.heldWr.length < 256)) = true := by
  rw [ho, List.isEmpty_eq_false_iff.mpr hd, decide_eq_true hc]
  rfl

theorem hostWrite_of_poisoned : (hostWrite f b o d 3).run s = (aerLog ⟨f, .poisoned, true, 1, o, d.length⟩).run s := by
  simp only [hostWrite, Upd.run_read, hostWrite_taken ho hd hc, whenU_true, if_true]

theorem hostWrite_of_disabled {e : Fin 4} (he : e ≠ 3) (hen : s.flag (BLK_STAT_ENABLED 14) = false) :
    (hostWrite f b o d e).run s = (answer (errResp 0)).run s := by
  simp only [hostWrite, Upd.run_read, hostWrite_taken ho hd hc, whenU_true, if_neg he, hen, Bool.false_eq_true, not_false_eq_true, if_true]

variable (hen : s.flag (BLK_STAT_ENABLED 14) = true)
include hen

theorem hostWrite_of_msix {v w : Nat} (hpl : s.hostPlace f b o = .msix v w) :
    (hostWrite f b o d 0).run s = (Upd.seq (count HBR_CNT_HOST_WR) (tableWrite f v w d)).run s := by
  simp only [hostWrite, Upd.run_read, hostWrite_taken ho hd hc, whenU_true, Fin.reduceEq, hen, not_true_eq_false, if_false, hpl,
    Fin.reduceBNe, seqs_cons_run, seqs_nil_run, Upd.run_seq, Fin.val_zero, Upd.run_skip]

/-- A write of at most 256 B is one part. -/
theorem hostWrite_of_fabric {a : Nat} (hlen : d.length ≤ 256) (hpl : s.hostPlace f b o = .fabric a) : (hostWrite f b o d 0).run s =
    (Upd.seq (count HBR_CNT_HOST_WR) (takeWseq (s.hostRec f) fun q => hostWrSend ⟨f, s.hostRec f, q, a, d⟩)).run s := by
  have hpos : 0 < d.length := List.length_pos_iff.mpr hd
  have hparts : (d.length + 255) / 256 = 1 := by omega
  have hpart : d.take 256 = d := List.take_of_length_le hlen
  simp only [hostWrite, Upd.run_read, hostWrite_taken ho hd hc, whenU_true, Fin.reduceEq, hen, not_true_eq_false, if_false, hpl, hparts,
    forN, List.range_one, forEach_cons_run, forEach_nil_run, Nat.mul_zero, Nat.add_zero, List.drop_zero, hpart, seqs_cons_run, seqs_nil_run,
    Upd.run_seq, Fin.val_zero, Upd.run_skip]

end

/-! ## HOST_READ (R587, R588, R593, R598) -/

theorem completes_hostRead (f : Fin 64) (b : Bool) (o : Fin 17179869184) (n : Fin 4097) (x : Option (Fin 3 × List Byte)) (e : Fin 4)
    {s : State} (hu : s.unarmed 14 = true) : Completes (.hostRead f b o n x e) s ((hostRead f b o n x e).run s) := completes_of_work rfl hu

section
variable {f : Fin 64} {b : Bool} {o : Fin 17179869184} {n : Fin 4097} {x : Option (Fin 3 × List Byte)} {s : State}

theorem hostRead_of_closed (e : Fin 4) (h : s.hostOpen = false) : (hostRead f b o n x e).run s = s := by
  simp only [hostRead, Upd.run_read, h, Bool.false_and, whenU_false, Upd.run_skip]

variable (ho : s.hostOpen = true) (hn : n ≠ 0) (hen : s.flag (BLK_STAT_ENABLED 14) = true)
include ho hn hen

theorem hostRead_of_zero (hpl : s.hostPlace f b o = .zero) : (hostRead f b o n x 0).run s =
    (answer { ok := true, data := List.replicate n 0 }).run ((count HBR_CNT_HOST_RD).run s) := by
  simp only [hostRead, Upd.run_read, ho, bne_iff_ne.mpr hn, Bool.and_self, whenU_true, Fin.reduceEq, hen, not_true_eq_false, if_false, hpl,
    seqs_cons_run, seqs_nil_run, Fin.val_zero, Upd.run_skip]

theorem hostRead_of_fabric {a : Nat} (hpl : s.hostPlace f b o = .fabric a) : (hostRead f b o n none 0).run s =
    (seqs [count HBR_CNT_HOST_RD, updHbr fun h => { h with next := h.next + 1 },
      hostRdStart ⟨s.b.hbr.next, f, a, n, none, false, 0, []⟩]).run s := by
  simp only [hostRead, Upd.run_read, ho, bne_iff_ne.mpr hn, Bool.and_self, whenU_true, Fin.reduceEq, hen, not_true_eq_false, if_false, hpl,
    seqs_cons_run, seqs_nil_run, Fin.val_zero, Upd.run_skip, Upd.run_seq, Option.map_none]

theorem hostRead_zeros (hu : s.unarmed 14 = true) (hpl : s.hostPlace f b o = .zero) :
    ∃ t, Completes (.hostRead f b o n x 0) s t ∧ t.b.fab.resp = { ok := true, data := List.replicate n 0 } ∧
      t.reg HBR_CNT_HOST_RD = min (2 ^ 32 - 1) (s.reg HBR_CNT_HOST_RD + 1) ∧ Untouched (· == HBR_CNT_HOST_RD) s t := by
  have hdone := completes_hostRead f b o n x 0 hu
  rw [hostRead_of_zero ho hn hen hpl] at hdone
  have hfoot : Within (· == HBR_CNT_HOST_RD) (count HBR_CNT_HOST_RD) := within_count (beq_self_eq_true _)
  refine ⟨_, hdone, answer_resp _ _, ?_, (hfoot s).trans (within_answer _ _)⟩
  rw [answer_reg, reg_count_same (by decide)]

end

/-! ## WSYNC_BARRIER of the host's word (R597) -/

/-- With the bridge open a read of HBR_WSYNC starts the barrier of record 256. -/
theorem wordRead_hostWsync {s : State} (pid : Nat) (k : Resp → Upd) (hu : s.unarmed 14 = true) (hi : s.flag (BLK_CTRL_ISOLATE 14) = false) :
    (wordRead .loc pid none HBR_WSYNC k).run s = (wsyncStart 256 false none).run s := by
  have hpage : placeOf HBR_WSYNC = .page 14 := by decide
  have htouched : touched HBR_WSYNC = some (14, none) := by decide
  simp only [wordRead, Upd.run_seq, Upd.run_read, pageFire_of_unarmed htouched hu, hpage, hi, Bool.false_eq_true, not_false_eq_true,
    and_self, if_true]

theorem wsyncBarrier_of_host {pid : Pid} {s : State} (hp : s.pwr ≤ 1) (hck : s.checkAt (pid, true) HBR_WSYNC 4 0 = 0)
    (hu : s.unarmed 14 = true) (hi : s.flag (BLK_CTRL_ISOLATE 14) = false) :
    (wsyncBarrier pid ⟨256, by decide⟩).run s = (wsyncStart 256 false none).run s := by
  have hhost : ¬ 256 < 256 := by decide
  rw [wsyncBarrier, dif_neg hhost, wordAccess_of_admitted hp hck, wordRead_hostWsync _ _ hu hi]

/-! ## IW_DMA_DONE (R213, R235) -/

theorem completes_iwDmaDone (x : Fin 2) (c : Fin 4) {s : State} (hu : s.unarmed (1 + x.val) = true) :
    Completes (.iwDmaDone x c) s ((iwDmaDone x c).run s) := completes_of_work rfl hu

section
variable {x : Fin 2} {c : Fin 4} {s : State}

theorem iwDmaDone_of_not_running (h : s.flag (IW_DMA_STAT_BUSY x c) = false ∨ s.iwDmaRuns x = false ∨ s.b.mem.held = true) :
    (iwDmaDone x c).run s = s := by
  have hoff : (s.flag (IW_DMA_STAT_BUSY x c) && s.iwDmaRuns x && !s.b.mem.held) = false := by
    rcases h with h | h | h <;> simp only [h, Bool.false_and, Bool.and_false, Bool.not_true]
  simp only [iwDmaDone, Upd.run_read, hoff, whenU_false, Upd.run_skip]

theorem iwDmaDone_of_running (hb : s.flag (IW_DMA_STAT_BUSY x c) = true) (hr : s.iwDmaRuns x = true) (hh : s.b.mem.held = false) :
    (iwDmaDone x c).run s = (iwDmaCopy x c false (iwDmaFuel (s.iwDmaArgs x c).2.2) (s.iwDmaArgs x c).1 (s.iwDmaArgs x c).2.1
      (s.iwDmaArgs x c).2.2).run s := by
  simp only [iwDmaDone, Upd.run_read, hb, hr, hh, Bool.not_false, Bool.and_self, whenU_true]

end

end Sys2Proof.Machine

open Sys2Proof Sys2Proof.Machine

/-- Settles O40: each command completes with its operation, which its conditions reduce to the effect stated. -/
theorem hostAccesses : Obligations.HostAccesses := by
  refine ⟨?writeClosed, ?poisoned, ?disabled, ?msix, ?write, ?readClosed, ?zeros, ?read, ?barrier, ?dmaOff, ?dma⟩
  case writeClosed => exact fun f b o d e s hu h => does_of_completes (completes_hostWrite f b o d e hu) (hostWrite_of_closed e h) within_skip
  case poisoned => exact fun f b o d s hu ho hd hc =>
    does_of_completes (completes_hostWrite f b o d 3 hu) (hostWrite_of_poisoned ho hd hc) (within_upd _)
  case disabled => exact fun f b o d e s hu ho hd hc he hen =>
    does_of_completes (completes_hostWrite f b o d e hu) (hostWrite_of_disabled ho hd hc he hen) (within_answer _)
  case msix =>
    intro f b o d v w s hu ho hd hc hen hpl
    exact does_of_completes (completes_hostWrite f b o d 0 hu) (hostWrite_of_msix ho hd hc hen hpl)
      (within_seq (within_count (by decide)) (within_tableWrite _ _ _ _))
  case write => exact fun f b o d a s hu ho hd hlen hc hen hpl =>
    hostWrite_of_fabric ho hd hc hen hlen hpl ▸ completes_hostWrite f b o d 0 hu
  case readClosed => exact fun f b o n x e s hu h =>
    does_of_completes (completes_hostRead f b o n x e hu) (hostRead_of_closed e h) within_skip
  case zeros => exact fun _ _ _ _ _ _ hu ho hn hen hpl => hostRead_zeros ho hn hen hu hpl
  case read => exact fun f b o n a s hu ho hn hen hpl => hostRead_of_fabric ho hn hen hpl ▸ completes_hostRead f b o n none 0 hu
  case barrier => exact fun _ _ hp hck hu hi =>
    does_of_completes (completes_of_finish rfl) (wsyncBarrier_of_host hp hck hu hi) (within_wsyncStart _ _ _)
  case dmaOff => exact fun x c s hu h => does_of_completes (completes_iwDmaDone x c hu) (iwDmaDone_of_not_running h) within_skip
  case dma =>
    intro x c s hu hb hr hh
    have hdone := completes_iwDmaDone x c hu
    rw [iwDmaDone_of_running hb hr hh] at hdone
    exact hdone
end

section
/-!
What the fabric, the engines' transfers and the signal router leave of the pair controller (10_pair_and_failover.md): its register page and its
record. The cycle boundary reads and writes memory and updates signals through them.
-/
namespace Sys2Proof.Machine

/-! ## The pair controller's view -/

/-- The registers of the pair controller's page by address, and its record. -/
abbrev PairView := (Nat → Nat) × Par

/-- The pair controller as the state shows it. -/
def State.pairCtl (s : State) : PairView := (fun a => if onPage 3 a then s.reg a else 0, s.b.par)

/-- The update leaves the pair controller's page and record as they were. -/
def KeepsPair (u : Upd) : Prop := Keeps State.pairCtl u

/-- The update leads from a view of the pair controller to one that `R` relates it to. -/
def Takes (R : PairView → PairView → Prop) (u : Upd) : Prop := ∀ s, R s.pairCtl (u.run s).pairCtl

theorem KeepsPair.reg {u : Upd} (h : KeepsPair u) {a : Nat} (ha : onPage 3 a = true) : Keeps (·.reg a) u := fun s => by
  have hpage := congrFun (congrArg Prod.fst (h s)) a
  simpa only [State.pairCtl, ha, if_true] using hpage

theorem keepsPair_of {u : Upd} (hr : ∀ a, onPage 3 a = true → Keeps (·.reg a) u) (hb : Keeps (·.b.par) u) : KeepsPair u :=
  fun s => Prod.ext (funext fun a => by
    by_cases ha : onPage 3 a = true
    · simpa only [State.pairCtl, ha, if_true] using hr a ha s
    · simp only [State.pairCtl, ha, Bool.false_eq_true, if_false]) (hb s)

/-- An update that writes no register of the page and not the record. -/
theorem keepsPair_of_within {p : Nat → Bool} {u : Upd} (hw : Within p u) (hp : ∀ a, onPage 3 a = true → p a = false)
    (hb : Keeps (·.b.par) u) : KeepsPair u := keepsPair_of (fun a ha s => (hw s).reg_eq (hp a ha)) hb

/-! ## Addresses off the pair controller's page -/

theorem onPage_par_iff (a : Nat) : onPage 3 a = true ↔ 0x20300000 ≤ a ∧ a < 0x20310000 := by
  simp only [onPage, unitBase_low (k := 3) (by decide), Bool.and_eq_true, decide_eq_true_eq, Nat.reduceMul, Nat.reduceAdd]

theorem offPar_of_le {a : Nat} (h : 0x20310000 ≤ a) : onPage 3 a = false := by
  rw [Bool.eq_false_iff, ne_eq, onPage_par_iff]
  omega

theorem offPar_unit {k : Nat} (hk : k ≠ 3) {o : Nat} (ho : o < 0x10000) : onPage 3 (unitBase k + o) = false := by
  rw [Bool.eq_false_iff, ne_eq, onPage_par_iff]
  unfold unitBase
  repeat' split
  all_goals omega

theorem offPar_cell {k : Nat} (hk : 4 ≤ k ∧ k ≤ 22) (c o : Nat) : onPage 3 (cellBase k c + o) = false := by
  refine offPar_of_le ?_
  unfold cellBase unitBase
  generalize (unitCells k).2 * c = n
  repeat' split
  all_goals omega

/-! ## Registers and records -/

theorem keepsPair_setReg {a : Nat} (h : onPage 3 a = false) (v : Nat) : KeepsPair (setReg a v) :=
  keepsPair_of_within (within_setReg (p := (· == a)) (beq_self_eq_true a)) (fun c hc => beq_false_of_ne fun hca => by
    rw [hca, h] at hc
    cases hc) (keeps_b_setReg Blocks.par _ _)

theorem keepsPair_set {f : Fld} (h : onPage 3 f.reg = false) (v : Nat) : KeepsPair (set f v) := keeps_read fun _ => keepsPair_setReg h _
theorem keepsPair_setBit {a : Nat} (h : onPage 3 a = false) (i : Nat) : KeepsPair (setBit a i) := keeps_read fun _ => keepsPair_setReg h _
theorem keepsPair_putBit {a : Nat} (h : onPage 3 a = false) (i : Nat) (b : Bool) : KeepsPair (putBit a i b) :=
  keeps_read fun _ => keepsPair_setReg h _
theorem keepsPair_inc {f : Fld} (h : onPage 3 f.reg = false) (n : Nat) : KeepsPair (inc f n) := keeps_read fun _ => keepsPair_set h _
theorem keepsPair_count {a : Nat} (h : onPage 3 a = false) (n : Nat) : KeepsPair (count a n) := keepsPair_inc h n

theorem keepsPair_upd {f : Blocks → Blocks} (h : ∀ b, (f b).par = b.par) : KeepsPair (upd f) :=
  keepsPair_of (fun a _ => keeps_reg_upd a f) (keeps_b_upd h)

theorem keepsPair_count64 {a : Nat} (h : onPage 3 a = false) (n : Nat) : KeepsPair (count64 a n) :=
  keeps_read fun _ => keeps_seqs ⟨keepsPair_setReg h _, keepsPair_upd fun _ => rfl⟩

theorem keepsPair_storeBytes (a : Nat) (l : List Byte) : KeepsPair (storeBytes a l) :=
  keepsPair_of (fun c _ s => by simp only [State.reg, storeBytes_regs]) fun s => congrArg Blocks.par (storeBytes_b a l s)

theorem keepsPair_updFab (f : Fab → Fab) : KeepsPair (updFab f) := keepsPair_upd fun _ => rfl
theorem keepsPair_updMem (f : Mem → Mem) : KeepsPair (updMem f) := keepsPair_upd fun _ => rfl
theorem keepsPair_updSrt (f : Srt → Srt) : KeepsPair (updSrt f) := keepsPair_upd fun _ => rfl
theorem keepsPair_updSw (f : SwQueues → SwQueues) : KeepsPair (updSw f) := keepsPair_upd fun _ => rfl
theorem keepsPair_updCan (c : Nat) (f : CanCh → CanCh) : KeepsPair (updCan c f) := keepsPair_upd fun _ => rfl

theorem keepsPair_raise {k : Nat} (hk : k ≠ 3) (i : Nat) : KeepsPair (raise k i) := keepsPair_setBit (offPar_unit hk (by decide)) i

/-! ## Faults and refusals of other blocks -/

theorem offPar_faultRegs {a : Nat} (ha : onPage 3 a = true) : faultRegs a = false := by
  rw [onPage_par_iff] at ha
  simp only [faultRegs, Bool.or_eq_false_iff, Bool.and_eq_false_iff, beq_eq_false_iff_ne, decide_eq_false_iff_not]
  omega

theorem keepsPair_report {k cls : Nat} (hk : k ≤ 27) (h3 : k ≠ 3) (hc : cls < 16) : KeepsPair (report k none cls) := by
  refine keepsPair_of_within (within_report_block hk hc) (fun a ha => ?_) (keeps_b_report_block (fun _ _ => rfl) k cls)
  have hstat : a ≠ BLK_ERR_STAT k := fun h => by rw [h, offPar_unit h3 (by decide)] at ha; cases ha
  have hcnt : a ≠ BLK_ERR_CNT k := fun h => by rw [h, offPar_unit h3 (by decide)] at ha; cases ha
  simp only [reportFoot, offPar_faultRegs ha, beq_false_of_ne hstat, beq_false_of_ne hcnt, Bool.or_self]

theorem keepsPair_refuse (who a kind cause : Nat) : KeepsPair (refuse who a kind cause) := by
  unfold refuse
  dsimp only
  split
  next r hr =>
    have hr4 := regionOf_lt hr
    exact keeps_seqs ⟨keepsPair_setReg (offPar_unit (by omega) (by decide)) _, keepsPair_setReg (offPar_unit (by omega) (by decide)) _,
      keepsPair_report (by omega) (by omega) (by decide)⟩
  next =>
    exact keeps_seqs ⟨keepsPair_setReg (by decide) _, keepsPair_setReg (by decide) _, keepsPair_count (by decide) _,
      keepsPair_report (by decide) (by decide) (by decide)⟩

theorem keepsPair_memUe (kind pid line : Nat) : KeepsPair (memUe kind pid line) :=
  keeps_seqs ⟨keeps_seqs ⟨keepsPair_setReg (by decide) _, keepsPair_setReg (by decide) _⟩, keepsPair_count (by decide) _,
    keepsPair_raise (by decide) 1, keepsPair_report (by decide) (by decide) (by decide)⟩

theorem keepsPair_tcmError {x : Nat} (hx : x < 2) (port word : Nat) (ue : Bool) : KeepsPair (tcmError x port word ue) := by
  have hcls : (if ue then PM else CE) < 16 := by cases ue <;> decide
  exact keeps_seqs ⟨keepsPair_setReg (offPar_unit (by omega) (by decide)) _, keepsPair_raise (by omega) _,
    keepsPair_report (by omega) (by omega) hcls⟩

/-! ## Accounting and what a transfer waits for (R44 to R49, R205, R209) -/

theorem keepsPair_grant (r q n : Nat) : KeepsPair (grant r q n) := by
  refine keeps_read fun s => keeps_seq (keepsPair_count ?_ 1) (keeps_whenU fun _ => keepsPair_updFab _)
  split <;> exact offPar_unit (by omega) (by decide)

theorem keepsPair_account (src i pid a n : Nat) (prom : List Nat) : KeepsPair (account src i pid a n prom) :=
  keeps_read fun _ => keeps_seqs_cons (keeps_whenU fun _ => keepsPair_count (offPar_unit (by omega) (by decide)) _) <|
    keeps_seqs_cons (keeps_whenU fun _ => keepsPair_grant _ _ _) <| keeps_seqs_cons (keeps_whenU fun _ => keepsPair_grant _ _ _) <|
    keeps_seqs_cons (keeps_whenU fun _ => keepsPair_updFab _) keeps_seqs_nil

theorem keepsPair_pageRetireDone : KeepsPair pageRetireDone := by
  refine keeps_read fun s => ?_
  split
  · exact keeps_skip
  · have hmap (i : Nat) : onPage 3 (MEM_SPARE_MAP i) = false := offPar_of_le (by
      rw [MEM_SPARE_MAP, unitBase_low (by decide)]
      omega)
    exact keeps_seqs ⟨keepsPair_updMem _, keepsPair_setReg (hmap _) _, keepsPair_set (by decide) _, keepsPair_set (by decide) _,
      keepsPair_raise (by decide) 2⟩

theorem keepsPair_rekeyDone : KeepsPair rekeyDone := by
  refine keeps_read fun s => ?_
  split
  · exact keeps_skip
  · exact keeps_whenU fun _ => keeps_seqs ⟨keepsPair_updMem _, keepsPair_raise (by decide) 5⟩

theorem keepsPair_engineWait (src pid a n : Nat) : KeepsPair (engineWait src pid a n) :=
  keeps_seqs ⟨keeps_read fun _ => keeps_whenU fun _ => keepsPair_updFab _,
    keeps_read fun _ => keeps_whenU fun _ => keepsPair_pageRetireDone,
    keeps_read fun _ => keeps_whenU fun _ => keeps_forN fun _ _ => keepsPair_rekeyDone⟩

/-! ## Writes of memory and of other devices -/

theorem keepsPair_lineWrite (pid a : Nat) (bs : List Byte) (line : Nat) : KeepsPair (lineWrite pid a bs line) :=
  keeps_read fun _ => keeps_ite (fun _ => keepsPair_memUe _ _ _) fun _ => keeps_seqs ⟨keepsPair_updMem _,
    keeps_whenU fun _ => keeps_seq (keeps_whenU fun _ => keepsPair_storeBytes _ _) (keepsPair_updMem _), keepsPair_storeBytes _ _⟩

theorem keepsPair_memWrite (pid a : Nat) (bs : List Byte) : KeepsPair (memWrite pid a bs) :=
  keeps_seq (keeps_read fun _ => keeps_whenU fun _ => keepsPair_updMem _) (keeps_forEach fun _ => keepsPair_lineWrite _ _ _ _)

theorem keepsPair_queueWord (src i : Nat) (who : Nat × Bool) (a kind n : Nat) (bs : List Byte) :
    KeepsPair (queueWord src i who a kind n bs) := keeps_read fun _ => keepsPair_updFab _

theorem keepsPair_chainWrite (rec : Nat) (p : Pkt) (a : Nat) : KeepsPair (chainWrite rec p a) :=
  keeps_read fun _ => keeps_seq (keepsPair_upd fun _ => rfl)
    (keeps_read fun _ => keeps_seq (keepsPair_upd fun _ => rfl) (keepsPair_upd fun _ => rfl))

theorem keepsPair_flkWrite (rec d pid a : Nat) (bs : List Byte) : KeepsPair (flkWrite rec d pid a bs) :=
  keeps_forN fun _ _ => keepsPair_chainWrite _ _ _

/-! ## Transfers that go on with what they read -/

section
variable {R : PairView → PairView → Prop}

theorem takes_read {k : State → Upd} (h : ∀ s, Takes R (k s)) : Takes R (.read k) := fun s => h s s

/-- What comes before and leaves the pair controller alone does not count. -/
theorem takes_after {u v : Upd} (hu : KeepsPair u) (hv : Takes R v) : Takes R (.seq u v) := fun s => by
  have h := hv (u.run s)
  rwa [hu s] at h

theorem takes_ite {c : Prop} [Decidable c] {u v : Upd} (hu : Takes R u) (hv : Takes R v) : Takes R (if c then u else v) := by
  split
  · exact hu
  · exact hv

theorem takes_free {k : Nat → Upd} (hk : ∀ v, Takes R (k v)) : Takes R (free k) :=
  takes_read fun _ => takes_after (keepsPair_upd fun _ => rfl) (hk _)

theorem takes_freeBytes {n : Nat} {k : List Byte → Upd} (hk : ∀ l, Takes R (k l)) : Takes R (freeBytes n k) :=
  takes_read fun _ => takes_after (keepsPair_updFab _) (hk _)

theorem placeOf_tcm_lt {a x : Nat} (h : placeOf a = .tcm x) : x < 2 := by
  unfold placeOf at h
  split at h
  · cases h
  split at h
  · cases h
  split at h
  · cases h
    decide
  split at h
  · cases h
    decide
  · repeat' split at h
    all_goals cases h

theorem takes_memRead {pid a n : Nat} {k : Option (List Byte) → Upd} (hk : ∀ r, Takes R (k r)) : Takes R (memRead pid a n k) := by
  refine takes_read fun s => ?_
  split
  next x hx =>
    split
    · exact takes_after (keepsPair_tcmError (placeOf_tcm_lt hx) _ _ _) (hk _)
    · exact hk _
  next =>
    split
    · exact takes_after (keepsPair_memUe _ _ _) (hk _)
    · exact hk _

theorem takes_pieceRead {src i a n : Nat} {who : Nat × Bool} {k : Option (List Byte) → Upd} (hk : ∀ r, Takes R (k r)) :
    Takes R (pieceRead src i who a n k) := by
  have hmem (a : Nat) : Takes R (.seq (account src i who.1 a n) (memRead who.1 a n k)) :=
    takes_after (keepsPair_account _ _ _ _ _ _) (takes_memRead hk)
  refine takes_read fun s => takes_ite (hk _) (takes_ite (takes_after (keepsPair_refuse _ _ _ _) (hk _))
    (takes_after (keepsPair_engineWait _ _ _ _) ?_))
  split
  case h_1 =>
    exact takes_after (keepsPair_account _ _ _ _ _ _) (takes_free fun _ => takes_ite (takes_freeBytes fun _ => hk _) (hk _))
  case h_2 => exact takes_after (keepsPair_queueWord _ _ _ _ _ _ _) (hk _)
  case h_3 => exact hmem _
  case h_4 => exact hk _
  case h_5 => exact hk _
  case h_6 => exact hk _
  case h_7 => exact hmem _

theorem takes_pieceWrite {src i a : Nat} {who : Nat × Bool} {bs : List Byte} {k : Bool → Upd} (hk : ∀ b, Takes R (k b)) :
    Takes R (pieceWrite src i who a bs k) := by
  have hqueue (a : Nat) : Takes R (.seq (queueWord src i who a 1 bs.length bs) (k true)) :=
    takes_after (keepsPair_queueWord _ _ _ _ _ _ _) (hk _)
  refine takes_read fun s => takes_ite (hk _) (takes_ite (takes_after (keepsPair_refuse _ _ _ _) (hk _))
    (takes_after (keepsPair_engineWait _ _ _ _) ?_))
  split
  case h_1 => exact takes_after (keepsPair_account _ _ _ _ _ _) (takes_after (keepsPair_flkWrite _ _ _ _ _) (hk _))
  case h_2 => exact hqueue _
  case h_3 => exact hqueue _
  case h_4 => exact hqueue _
  case h_5 => exact hk _
  case h_6 => exact hk _
  case h_7 => exact takes_ite (hqueue _) (takes_after (keepsPair_account _ _ _ _ _ _) (takes_after (keepsPair_memWrite _ _ _) (hk _)))

theorem takes_piecesRead {src i : Nat} {who : Nat × Bool} {k : Option (List Byte) → Upd} (hk : ∀ r, Takes R (k r)) (m a left : Nat)
    (got : List Byte) : Takes R (piecesRead src i who k m a left got) := by
  induction m generalizing a left got with
  | zero => exact hk _
  | succ m ih =>
    refine takes_ite (hk _) (takes_read fun s => takes_pieceRead fun r => ?_)
    cases r with
    | none => exact hk none
    | some d => exact ih _ _ _

theorem takes_piecesWrite {src i : Nat} {who : Nat × Bool} {k : Bool → Upd} (hk : ∀ b, Takes R (k b)) (m a : Nat) (bs : List Byte) :
    Takes R (piecesWrite src i who k m a bs) := by
  induction m generalizing a bs with
  | zero => exact hk _
  | succ m ih => exact takes_ite (hk _) (takes_read fun s => takes_pieceWrite fun _ => takes_ite (ih _ _) (hk _))

theorem takes_dmaRead {i a n : Nat} {k : Option (List Byte) → Upd} (hk : ∀ r, Takes R (k r)) : Takes R (dmaRead i a n k) :=
  takes_read fun _ => takes_piecesRead hk _ _ _ _

theorem takes_dmaWrite {i a : Nat} {bs : List Byte} {k : Bool → Upd} (hk : ∀ b, Takes R (k b)) : Takes R (dmaWrite i a bs k) :=
  takes_read fun _ => takes_piecesWrite hk _ _ _

end

theorem keepsPair_iff_takes {u : Upd} : KeepsPair u ↔ Takes (fun x y => y = x) u := Iff.rfl

theorem keepsPair_dmaWrite (i a : Nat) (bs : List Byte) : KeepsPair (dmaWrite i a bs fun _ => .skip) :=
  keepsPair_iff_takes.mpr (takes_dmaWrite fun _ => keepsPair_iff_takes.mp keeps_skip)

/-! ## The router's caches and slots (R499, R501, R521) -/

theorem keepsPair_setRc (i : Nat) (ways : List RcWay) : KeepsPair (setRc i ways) :=
  keeps_read fun _ => keeps_seq (keepsPair_updSrt _) (keepsPair_set (by decide) _)

theorem keepsPair_rcFill (g : Nat) (e : List Nat) : KeepsPair (rcFill g e) := keeps_read fun _ => keepsPair_setRc _ _

theorem keepsPair_rtPoison (g : Nat) : KeepsPair (rtPoison g) :=
  keeps_seqs ⟨keepsPair_count (by decide) _, keepsPair_raise (by decide) _, keepsPair_setReg (by decide) _,
    keepsPair_report (by decide) (by decide) (by decide)⟩

theorem keepsPair_slotBack (n : Nat) : KeepsPair (slotBack n) := by
  refine keeps_read fun s => ?_
  split
  · exact keeps_skip
  · exact keeps_seq (keepsPair_dmaWrite _ _ _) (keepsPair_updSrt _)

theorem keepsPair_slotKeep (n : Nat) (l : List Nat) : KeepsPair (slotKeep n l) :=
  keeps_read fun _ => keeps_seq (keeps_whenU fun _ => keeps_read fun _ => keeps_seq (keepsPair_upd fun _ => rfl) (keepsPair_slotBack _))
    (keepsPair_updSrt _)

section
variable {R : PairView → PairView → Prop}

theorem takes_srtRead {a n : Nat} {k : SrtRead → Upd} (hk : ∀ r, Takes R (k r)) : Takes R (srtRead a n k) :=
  takes_read fun _ => takes_dmaRead fun _ => hk _

theorem takes_rtLookup {g : Nat} {old quiet : Bool} {k : Option (List Nat) → Upd} (hk : ∀ r, Takes R (k r)) :
    Takes R (rtLookup g old quiet k) := by
  refine takes_read fun s => takes_ite (hk _) ?_
  split
  · exact takes_after (keeps_whenU fun _ => keepsPair_count (by decide) _) (takes_after (keepsPair_setRc _ _) (hk _))
  · refine takes_after (keeps_whenU fun _ => keepsPair_count (by decide) _) (takes_srtRead fun r => ?_)
    cases r with
    | words e => exact takes_after (keepsPair_rcFill _ _) (hk _)
    | poison => exact takes_after (keepsPair_rtPoison _) (hk _)
    | refused => exact hk _

theorem takes_slotFetch {n : Nat} {k : SrtRead → Upd} (hk : ∀ r, Takes R (k r)) : Takes R (slotFetch n k) := by
  refine takes_read fun s => ?_
  split
  · refine takes_srtRead fun r => ?_
    cases r with
    | words l => exact takes_after (keepsPair_slotKeep _ _) (hk _)
    | poison => exact hk _
    | refused => exact hk _
  · exact hk _

theorem takes_sigFetch {g : Nat} {k : List Nat → Upd} (hk : ∀ l, Takes R (k l)) : Takes R (sigFetch g k) := by
  refine takes_rtLookup fun e => ?_
  cases e with
  | none => exact hk _
  | some w =>
    refine takes_ite (takes_slotFetch fun r => ?_) (hk _)
    cases r <;> exact hk _

end

end Sys2Proof.Machine
end

section
/-!
The commands that the pair controller gives the load channels (R284, R299) write no register outside the load-switch dice, and the signal
updates it sends (R485, R498 to R503) leave its own page and record alone.
-/
namespace Sys2Proof.Machine

/-! ## The loads that an admission sheds (R299) -/

theorem mem_insertBy {α : Type} {lt : α → α → Bool} {x y : α} {l : List α} (h : y ∈ insertBy lt x l) : y = x ∨ y ∈ l := by
  induction l with
  | nil => exact .inl (List.mem_singleton.mp h)
  | cons z l ih =>
    rw [insertBy] at h
    split at h
    · exact List.mem_cons.mp h
    · rcases List.mem_cons.mp h with h | h
      · exact .inr (h ▸ List.mem_cons_self)
      · exact (ih h).imp_right (List.mem_cons_of_mem z)

theorem mem_sortBy {α : Type} {lt : α → α → Bool} {y : α} {l : List α} (h : y ∈ sortBy lt l) : y ∈ l := by
  induction l with
  | nil => exact h
  | cons x l ih =>
    rcases mem_insertBy h with rfl | h
    · exact List.mem_cons_self
    · exact List.mem_cons_of_mem x (ih h)

theorem shedOrder_lt {s : State} {p : Nat → Bool} {x : Nat} (h : x ∈ s.shedOrder p) : x < 64 := (mem_loads (mem_sortBy h)).1

theorem mem_takeUntil {acc : Nat → Nat} {cand ls : List Nat} {need : Nat × Nat × Nat} (h : takeUntil acc cand need = some ls) :
    ∀ x ∈ ls, x ∈ cand := by
  fun_induction takeUntil acc cand need generalizing ls with
  | case1 =>
    cases h
    exact fun _ hx => absurd hx List.not_mem_nil
  | case2 => cases h
  | case3 y cand _ _ _ _ ih =>
    obtain ⟨rest, hrest, rfl⟩ := Option.map_eq_some_iff.mp h
    exact fun x hx => (List.mem_cons.mp hx).elim (fun e => e ▸ List.mem_cons_self) fun hx => List.mem_cons_of_mem _ (ih hrest x hx)

/-! ## Footprints of a command to a load -/

theorem within_handOver {p : Nat → Bool} (g : Nat) : Within p (handOver g) :=
  within_read fun _ => within_whenU (within_forN fun _ _ => within_whenU (within_upd _))

section
variable {l : Nat} (hl : l < 64)
include hl

theorem within_storeCmd (w : Nat) : Within lswPages (storeCmd l w) :=
  within_read fun _ => within_seq (within_whenU (within_read fun _ => within_upd _)) (within_setReg (lswPages_cell hl (by decide)))

theorem within_shedLoad (kind : Shed) (how : How) : Within lswPages (shedLoad l kind how) :=
  within_seqs ⟨within_turnOff hl _ _, within_upd _, within_read fun _ => within_upd _, within_upd _,
    within_whenU (within_seq (within_raiseCh hl _) (within_inc (by decide))), within_showLoad hl⟩

theorem within_admitLoad : Within lswPages (admitLoad l) := by
  refine within_read fun s => ?_
  dsimp only
  split
  next ls hls =>
    exact within_seqs ⟨within_forEach fun x hx => within_shedLoad (shedOrder_lt (mem_takeUntil hls x hx)) _ _, within_turnOn hl, within_upd _⟩
  next => exact within_seqs ⟨within_upd _, within_raiseCh hl _, within_inc (by decide)⟩

theorem within_apply (w src : Nat) : Within lswPages (apply l w src) := by
  refine within_read fun s => within_seqs ⟨within_upd _, within_set (lswPages_cell hl (by decide)), within_ite ?_
    (within_ite (within_upd _) (within_turnOff hl _ _))⟩
  split
  · exact within_seqs ⟨within_upd _, within_whenU (within_upd _), within_whenU (within_compUpdate hl)⟩
  · exact within_ite within_skip (within_admitLoad hl)
  · exact within_upd _

theorem within_applyGated (src : Nat) : Within lswPages (applyGated l src) :=
  within_read fun _ => within_ite (within_seq (within_upd _) (within_apply hl _ _)) (within_upd _)

theorem within_command (w src : Nat) (isReg : Bool) : Within lswPages (command l w src isReg) := by
  have hsrc (f : Chan → Chan) : Within lswPages (.seq (updChan l f) (set (LSW_CH_STATUS0_CMD_SRC l) src)) :=
    within_seq (within_upd _) (within_set (lswPages_cell hl (by decide)))
  have hgated (f : Chan → Chan) : Within lswPages (.seq (updChan l f) (applyGated l src)) :=
    within_seq (within_upd _) (within_applyGated hl src)
  have happly (f : Chan → Chan) : Within lswPages (.seq (updChan l f) (apply l w src)) := within_seq (within_upd _) (within_apply hl w src)
  refine within_read fun s => within_ite within_skip (within_ite (within_seq (within_storeCmd hl w) (within_upd _)) (within_ite within_skip
    (within_ite (within_whenU (within_storeCmd hl w)) (within_ite within_skip (within_seqs ⟨within_storeCmd hl w,
      within_whenU (within_handOver l), within_ite ?safe (within_ite ?shed (within_ite ?tripped (within_ite (hsrc _)
        (within_ite (within_upd _) (within_ite (within_upd _) (happly _)))))), within_showLoad hl⟩)))))
  case safe =>
    exact within_ite within_skip (within_ite (happly _) (within_whenU (within_seq (within_upd _)
      (within_ite (within_applyGated hl src) (within_upd _)))))
  case shed => exact within_ite (within_upd _) (hsrc _)
  case tripped => exact within_ite (within_ite (within_upd _) (within_ite (hgated _) (within_upd _))) (hsrc _)

end

theorem ofGlobal_lt {x : Nat} (h : x < 64) : ofGlobal x < 64 := by
  unfold ofGlobal
  repeat' split
  all_goals omega

/-! ## Sends on CAN, LIN and port SR (R503) -/

theorem offPar_can (c o : Nat) : onPage 3 (cellBase 9 c + o) = false := offPar_cell (by decide) c o

theorem keepsPair_raiseCan (c i : Nat) : KeepsPair (raiseCan c i) := keepsPair_setBit (offPar_can _ _) i

theorem keepsPair_setWords (c w : Nat) (vs : List Nat) : KeepsPair (setWords c w vs) := by
  induction vs generalizing w with
  | nil => exact keeps_skip
  | cons v vs ih => exact keeps_seq (keepsPair_storeBytes _ _) (ih _)

theorem keepsPair_putPending (c i : Nat) (b : Bool) : KeepsPair (putPending c i b) :=
  keeps_ite (fun _ => keepsPair_putBit (offPar_can _ _) _ _) fun _ => keepsPair_putBit (offPar_can _ _) _ _

theorem keepsPair_showQueue (c : Nat) : KeepsPair (showQueue c) := by
  refine keeps_read fun s => keeps_seqs ⟨keepsPair_set (offPar_can _ _) _, keepsPair_set (offPar_can _ _) _, ?_⟩
  split
  · exact keepsPair_set (offPar_can _ _) _
  · exact keeps_skip

theorem keepsPair_txEvent (c i code : Nat) : KeepsPair (txEvent c i code) := by
  have hadvance (s : State) (wm : Nat) : KeepsPair (fifoAdvance s c 2 wm 25 26) :=
    keeps_seqs ⟨keepsPair_set (offPar_can _ _) _, keepsPair_set (offPar_can _ _) _, keepsPair_set (offPar_can _ _) _,
      keepsPair_raiseCan _ _, keeps_whenU fun _ => keepsPair_raiseCan _ _⟩
  exact keeps_read fun s => keeps_ite (fun _ => keeps_seq (keepsPair_inc (offPar_can _ _) _) (keepsPair_raiseCan _ _))
    fun _ => keeps_seqs ⟨keepsPair_setWords _ _ _, hadvance s _⟩

/-- The end codes of the dedicated buffers, eight to a register. -/
theorem offPar_txbufCode (c i : Nat) : onPage 3 (CAN_TXBUF_CODE c i) = false := by
  rw [CAN_TXBUF_CODE, Nat.add_assoc]
  exact offPar_can _ _

theorem keepsPair_endSlot (c i code : Nat) : KeepsPair (endSlot c i code) :=
  keeps_read fun _ => keeps_seqs ⟨keeps_whenU fun _ => keepsPair_txEvent _ _ _, keepsPair_putPending _ _ _,
    keeps_ite (fun _ => keeps_seq (keepsPair_set (offPar_txbufCode _ _) _) (keepsPair_setBit (offPar_can _ _) _))
      (fun _ => keepsPair_showQueue _),
    keeps_whenU fun _ => keepsPair_raiseCan _ _, keeps_whenU fun _ => keepsPair_raiseCan _ _, keepsPair_updCan _ _⟩

theorem keepsPair_makePending (c i : Nat) : KeepsPair (makePending c i) :=
  keeps_read fun _ => keeps_seqs ⟨keepsPair_putPending _ _ _, keepsPair_updCan _ _, keepsPair_updCan _ _,
    keeps_whenU fun _ => keepsPair_set (offPar_txbufCode _ _) _, keeps_whenU fun _ => keepsPair_showQueue _,
    keeps_whenU fun _ => keepsPair_endSlot _ _ _⟩

theorem keepsPair_countEtp (p o n : Nat) : KeepsPair (count64 (cellBase 7 p + o) n) := keepsPair_count64 (offPar_cell (by decide) p o) n

theorem keepsPair_setSaPn (p e v : Nat) : KeepsPair (setSaPn p e v) := by
  have hoff (o i : Nat) : onPage 3 (cellBase 7 p + o + 0 * i + 32 * e) = false := by
    rw [Nat.add_assoc, Nat.add_assoc]
    exact offPar_cell (by decide) _ _
  exact keeps_seq (keepsPair_setReg (hoff _ _) _) (keepsPair_setReg (hoff _ _) _)

theorem keepsPair_msecRx (p : Nat) (f : Frame) {k : Option Frame → Upd} (hk : ∀ r, KeepsPair (k r)) : KeepsPair (msecRx p f k) := by
  have hend (o : Nat) (r : Option Frame) : KeepsPair (.seq (count64 (cellBase 7 p + o)) (k r)) :=
    keeps_seq (keepsPair_countEtp _ _ _) (hk _)
  refine keeps_read fun s => keeps_ite (fun _ => hk _) fun _ => keeps_ite (fun _ => hend _ _) fun _ => keeps_ite (fun _ => hend _ _) fun _ => ?_
  extract_lets chan sa
  clear_value sa
  rcases sa with _ | ⟨e, key⟩ <;> dsimp -zeta only
  · exact hend _ _
  · extract_lets next high pn lowest late scil aad inp plain good seen
    have hseen : KeepsPair seen := keeps_whenU fun _ => keepsPair_setSaPn _ _ _
    clear_value plain good seen late
    refine keeps_ite (fun _ => hend _ _) fun _ => keeps_ite (fun _ => hend _ _) fun _ => keeps_ite (fun _ => ?_) fun _ => ?_
    · exact keeps_ite (fun _ => hend _ _) fun _ => hend _ _
    · refine keeps_seqs ⟨hseen, ?_, hk _⟩
      split <;> exact keepsPair_countEtp _ _ _

theorem keepsPair_macDrop (p o : Nat) : KeepsPair (macDrop p (cellBase 7 p + o)) := keeps_seq (keepsPair_countEtp _ _ _) (keepsPair_updSw _)

theorem keepsPair_rxCount (p : Nat) (f : Frame) : KeepsPair (rxCount p f) :=
  keeps_seqs ⟨keepsPair_countEtp _ _ _, keepsPair_countEtp _ _ _,
    keeps_ite (fun _ => keepsPair_countEtp _ _ _) fun _ => keeps_whenU fun _ => keepsPair_countEtp _ _ _⟩

theorem keepsPair_macCheck (p : Nat) (f : Frame) (phyErr fcsErr : Bool) {bad : Upd} {good : Frame → Upd} (hbad : KeepsPair bad)
    (hgood : ∀ g, KeepsPair (good g)) : KeepsPair (macCheck p f phyErr fcsErr bad good) := by
  have hdrop (o : Nat) : KeepsPair (.seq (macDrop p (cellBase 7 p + o)) bad) := keeps_seq (keepsPair_macDrop _ _) hbad
  refine keeps_read fun s => keeps_ite (fun _ => hdrop _) fun _ => keeps_ite (fun _ => hdrop _) fun _ => keeps_ite (fun _ => hdrop _)
    fun _ => keeps_ite (fun _ => hdrop _) fun _ => keeps_ite (fun _ => keeps_seq (keepsPair_countEtp _ _ _) hbad) fun _ =>
    keeps_seq (keepsPair_rxCount _ _) (keepsPair_msecRx _ _ fun r => ?_)
  cases r with
  | none => exact hbad
  | some g => exact hgood g

/-- Port SR is port 23 of the switch, of which NMC has no channel (R541). -/
theorem keepsPair_macRx_sr (f : Frame) (time : Nat) : KeepsPair (macRx 23 none f time false false) := by
  have hnm (g : Frame) : KeepsPair (nmOfferEth 23 g) := keeps_read fun s => keeps_whenU fun h => by
    rw [State.nmFrame, show decide (23 < 20) = false from rfl, Bool.false_and, Bool.false_and] at h
    cases h
  exact keeps_read fun _ => keeps_whenU fun _ => keepsPair_macCheck _ _ _ _ keeps_skip fun g =>
    keeps_seq (hnm g) (keeps_whenU fun _ => keeps_read fun _ => keeps_whenU fun _ => keepsPair_updSw _)

theorem keepsPair_srFlush : KeepsPair srFlush :=
  keeps_read fun _ => keeps_whenU fun _ => keeps_seq (keepsPair_macRx_sr _ _) (keepsPair_updSrt _)

theorem keepsPair_srSend (r : List Byte) : KeepsPair (srSend r) :=
  keeps_read fun _ => keeps_seqs ⟨keeps_whenU fun _ => keepsPair_srFlush, keepsPair_updSrt _, keeps_whenU fun _ => keepsPair_srFlush⟩

theorem keepsPair_srtDeliver (d : Nat) (data : List Byte) : KeepsPair (srtDeliver d data) :=
  keeps_read fun _ => keeps_ite (fun _ => keeps_seq (keepsPair_setWords _ _ _) (keepsPair_makePending _ _)) fun _ =>
    keeps_ite (fun _ => keepsPair_storeBytes _ _) fun _ => keepsPair_srSend _

theorem keepsPair_sendBuild (d : Nat) : KeepsPair (sendBuild d) :=
  keeps_read fun _ => keeps_ite (fun _ => keepsPair_count (by decide) _) fun _ => keeps_seqs ⟨keepsPair_storeBytes _ _,
    keeps_whenU fun _ => keepsPair_storeBytes _ _, keepsPair_updSrt _, keepsPair_srtDeliver _ _, keepsPair_count (by decide) _⟩

theorem keepsPair_withDesc (d : Nat) (tx : Bool) {yes no : Upd} (hyes : KeepsPair yes) (hno : KeepsPair no) : KeepsPair (withDesc d tx yes no) :=
  keeps_read fun _ => keeps_ite (fun _ => hno) fun _ => keeps_ite (fun _ => keeps_seq (keepsPair_raise (by decide) 7) hno) fun _ =>
    keeps_ite (fun _ => hyes) fun _ => hno

theorem keepsPair_txBusy : KeepsPair txBusy := keeps_seq (keepsPair_count (by decide) _) (keepsPair_raise (by decide) 4)

theorem keepsPair_sendTry (d : Nat) : KeepsPair (sendTry d) := by
  refine keepsPair_withDesc _ _ (keeps_read fun s => ?_) (keepsPair_updSrt _)
  split
  · exact keeps_seq (keepsPair_updSrt _) (keepsPair_sendBuild d)
  · exact keeps_seq (keeps_whenU fun _ => keepsPair_txBusy) (keepsPair_updSrt _)
  · exact keeps_seq keepsPair_txBusy (keepsPair_updSrt _)

theorem keepsPair_sendDue (d : Nat) : KeepsPair (sendDue d) :=
  keeps_read fun _ => keeps_whenU fun _ => keeps_ite (fun _ => keepsPair_updSrt _) fun _ => keeps_whenU fun _ => keepsPair_sendTry d

theorem keepsPair_srtPack : KeepsPair srtPack := keeps_read fun _ => keeps_seq (keepsPair_updSrt _) (keeps_forEach keepsPair_sendDue)

/-! ## Destinations and updates (R498, R500, R520) -/

theorem keepsPair_sigRemote (d addr v pid : Nat) : KeepsPair (sigRemote d addr v pid) :=
  keeps_read fun _ => keeps_ite (fun _ => keeps_seq (keepsPair_count (by decide) _) (keepsPair_chainWrite _ _ _))
    fun _ => keepsPair_count (by decide) _

theorem keepsPair_destApply (u : SigUpd) (w0 w1 : Nat) : KeepsPair (destApply u w0 w1) := by
  have hbad : KeepsPair (count SRT_CNT_DEST_BAD) := keepsPair_count (by decide) _
  refine keeps_read fun s => keeps_ite (fun _ => keeps_skip) fun _ => keeps_ite (fun _ => keepsPair_count (by decide) _) fun _ => ?_
  split
  · refine keepsPair_withDesc _ _ (keeps_ite (fun _ => hbad) fun _ => keeps_whenU fun _ => ?_) hbad
    exact keeps_seq (keepsPair_storeBytes _ _) (keeps_whenU fun _ => keepsPair_updSrt _)
  · exact keepsPair_upd fun _ => rfl
  · exact keeps_ite (fun _ => hbad) fun _ => keepsPair_sigRemote _ _ _ _

theorem keepsPair_dlRead (i : Nat) {k : SrtRead → Upd} (hk : ∀ r, KeepsPair (k r)) : KeepsPair (dlRead i k) := by
  refine keeps_read fun s => ?_
  dsimp only
  split
  · exact keeps_seq (keepsPair_updSrt _) (hk _)
  · refine keeps_seq (keepsPair_count (by decide) _) (keepsPair_iff_takes.mpr (takes_srtRead fun r => keepsPair_iff_takes.mp
      (keeps_seq ?_ (hk r))))
    cases r with
    | words l => exact keepsPair_updSrt _
    | poison => exact keeps_skip
    | refused => exact keeps_skip

theorem keepsPair_reportSrt : KeepsPair (report 11 none TR) := keepsPair_report (by decide) (by decide) (by decide)

theorem keepsPair_destsApply (u : SigUpd) (e : List Nat) : KeepsPair (destsApply u e) := by
  have hbad (n : Nat) : KeepsPair (count SRT_CNT_DEST_BAD n) := keepsPair_count (by decide) _
  refine keeps_ite (fun _ => keeps_skip) fun _ => keeps_ite (fun _ => keepsPair_destApply _ _ _) fun _ => keeps_forEach fun j =>
    keeps_read fun s => keeps_ite (fun _ => hbad _) fun _ => keepsPair_dlRead _ fun r => ?_
  cases r with
  | words l => exact keeps_forEach fun _ => keepsPair_destApply _ _ _
  | poison => exact keeps_seq (keepsPair_count (by decide) _) keepsPair_reportSrt
  | refused => exact hbad _

theorem keepsPair_sigStore (u : SigUpd) (e : List Nat) : KeepsPair (sigStore u e) := by
  have hupd : KeepsPair (count SRT_CNT_SIG_UPD) := keepsPair_count (by decide) _
  refine keeps_ite (fun _ => keeps_seq hupd (keepsPair_destsApply _ _)) fun _ =>
    keepsPair_iff_takes.mpr (takes_slotFetch fun r => keepsPair_iff_takes.mp ?_)
  cases r with
  | words l => exact keeps_read fun _ => keeps_seqs ⟨keepsPair_slotKeep _ _, hupd, keepsPair_destsApply _ _⟩
  | poison => exact keepsPair_reportSrt
  | refused => exact keeps_skip

theorem keepsPair_sigUpdate (u : SigUpd) (old quiet : Bool) : KeepsPair (sigUpdate u old quiet) := by
  refine keepsPair_iff_takes.mpr (takes_rtLookup fun r => keepsPair_iff_takes.mp ?_)
  cases r with
  | none => exact keeps_skip
  | some e =>
    exact keeps_ite (fun _ => keeps_seq (keepsPair_count (by decide) _) (keepsPair_raise (by decide) 6)) fun _ => keeps_read fun _ =>
      keeps_ite (fun _ => keeps_seq (keepsPair_count (by decide) _) (keepsPair_raise (by decide) 20)) fun _ => keepsPair_sigStore _ _

theorem keepsPair_sigInternal (addr v : Nat) : KeepsPair (sigInternal addr v) :=
  keeps_read fun _ => keeps_whenU fun _ => keeps_ite (fun _ => keeps_seq (keepsPair_sigUpdate _ _ _) keepsPair_srtPack)
    fun _ => keepsPair_sigRemote _ _ _ _

end Sys2Proof.Machine
end

section
/-!
The pair controller's rows (R240 to R256): the cycle boundary and its snapshot, the compare point, the decay of the mismatch level and the
self-test units of the standby: what each does where its condition holds, and that it does nothing elsewhere.
-/
namespace Sys2Proof.Machine

/-! ## CYCLE_BOUNDARY: the number of the cycle (R240) -/

/-- The update leaves PAR_SEQ as it was. -/
def KeepsSeq (u : Upd) : Prop := Keeps (·.reg PAR_SEQ) u

theorem KeepsPair.seq {u : Upd} (h : KeepsPair u) : KeepsSeq u := h.reg (by decide)

theorem keepsSeq_of_within {p : Nat → Bool} {u : Upd} (h : Within p u) (hp : p PAR_SEQ = false) : KeepsSeq u :=
  fun s => (h s).reg_eq hp

theorem keepsSeq_set {f : Fld} (h : f.reg ≠ PAR_SEQ) (v : Nat) : KeepsSeq (set f v) := keeps_reg_set v h
theorem keepsSeq_inc {f : Fld} (h : f.reg ≠ PAR_SEQ) (n : Nat) : KeepsSeq (inc f n) := keeps_read fun _ => keepsSeq_set h _
theorem keepsSeq_raise (i : Nat) : KeepsSeq (raise 3 i) := keeps_read fun _ => keeps_reg_setReg _ (by decide)
theorem keepsSeq_updPar (f : Par → Par) : KeepsSeq (updPar f) := keeps_reg_upd PAR_SEQ _

theorem parSynced_reg_ne (x : Nat) : (parSynced x).reg ≠ PAR_SEQ := by
  unfold parSynced
  split <;> decide

theorem parGoodMs_reg_ne (x : Nat) : (parGoodMs x).reg ≠ PAR_SEQ := by
  unfold parGoodMs
  split <;> decide

/-- Only triplet 2, which does not exist, would have its page on the pair controller's. -/
theorem iwStat_ne_parSeq (x : Nat) : IW_STAT x ≠ PAR_SEQ := by
  intro h
  by_cases hx : 1 + x = 3
  · rw [IW_STAT, hx] at h
    exact absurd h (by decide)
  · have hoff := offPar_unit hx (o := 0x100) (by decide)
    rw [← IW_STAT, h] at hoff
    exact absurd hoff (by decide)

theorem keepsSeq_setPair (st act : Nat) : KeepsSeq (setPair st act) := keeps_seq (keepsSeq_set (by decide) _) (keepsSeq_set (by decide) _)

theorem keepsSeq_parSync (x : Nat) : KeepsSeq (parSync x) := keeps_seq (keepsSeq_set (parSynced_reg_ne x) _) (keepsSeq_updPar _)

theorem keepsSeq_report : KeepsSeq (report 3 none FT) := keepsSeq_of_within (within_report_block (by decide) (by decide)) (by decide)

theorem keepsSeq_parNone (fault : Bool) : KeepsSeq (parNone fault) :=
  keeps_read fun _ => keeps_seqs ⟨keepsSeq_setPair _ _, keepsSeq_raise _, keepsSeq_updPar _,
    keeps_forEach_mem _ fun _ hl => keepsSeq_of_within (within_enterSafe (mem_loads hl).1) (by decide),
    keeps_whenU fun _ => keepsSeq_report⟩

theorem keepsSeq_applyVector (w : List Nat) : KeepsSeq (applyVector w) :=
  keeps_read fun _ => keeps_whenU fun _ => keeps_seq
    (keeps_forN fun _ hc => keeps_whenU fun _ => keepsSeq_of_within (within_command (ofGlobal_lt hc) _ _ _) (by decide))
    (keeps_forN fun _ _ => keeps_whenU fun _ => (keepsPair_sigInternal _ _).seq)

/-- The copy of the active triplet's state into the standby's TCM (R252). -/
theorem keepsPair_stateCopy (src dst n : Nat) : KeepsPair (dmaRead 56 src n fun r => match r with
    | some l => dmaWrite 56 dst l fun _ => .skip
    | none => .skip) :=
  keepsPair_iff_takes.mpr (takes_dmaRead fun r => keepsPair_iff_takes.mp (by
    cases r with
    | none => exact keeps_skip
    | some l => exact keepsPair_dmaWrite _ _ _))

theorem keepsSeq_parDecide : KeepsSeq parDecide := by
  have hpair := keepsSeq_setPair
  have hvec := keepsSeq_applyVector
  refine keeps_read fun s => keeps_ite (fun _ => ?none) fun _ => keeps_ite (fun _ => ?single) fun _ => keeps_ite (fun _ => keepsSeq_parNone _)
    fun _ => keeps_ite (fun _ => ?failover) fun _ => keeps_ite (fun _ => ?lost) fun _ => keeps_ite (fun _ => ?revert) fun _ => hvec _
  case none =>
    dsimp only
    split
    · exact keeps_seqs ⟨hpair _ _, keepsSeq_parSync _, hvec _⟩
    · exact keeps_skip
  case single =>
    exact keeps_ite (fun _ => keepsSeq_parNone _) fun _ => keeps_seq (hvec _) (keeps_whenU fun _ => keeps_read fun _ =>
      keeps_seqs ⟨keeps_whenU fun _ => (keepsPair_stateCopy _ _ _).seq, keepsSeq_parSync _, keepsSeq_raise _, hpair _ _, keepsSeq_updPar _⟩)
  case failover =>
    exact keeps_seqs ⟨keepsSeq_inc (by decide) _, keepsSeq_raise _, keepsSeq_updPar _,
      keeps_ite (fun _ => hpair _ _) (fun _ => keeps_seq (hpair _ _) (keepsSeq_raise _)), hvec _⟩
  case lost => exact keeps_seqs ⟨hpair _ _, keepsSeq_raise _, keepsSeq_updPar _, hvec _⟩
  case revert => exact keeps_seqs ⟨hpair _ _, keepsSeq_inc (by decide) _, keepsSeq_raise _, hvec _⟩

theorem keepsSeq_countGood (x us : Nat) : KeepsSeq (countGood x us) :=
  keeps_read fun _ => keeps_whenU fun _ => keeps_seq (keepsSeq_updPar _) (keepsSeq_set (parGoodMs_reg_ne x) _)

theorem keepsSeq_stSkip : KeepsSeq stSkip := keeps_seq (keepsSeq_inc (by decide) _) (keepsSeq_updPar _)

theorem keepsSeq_sliceReturn (x : Nat) : KeepsSeq (sliceReturn x) := by
  refine keeps_read fun s => ?_
  split
  · exact keeps_seq (keeps_reg_upd _ _) (keeps_whenU fun _ => keeps_read fun _ => keepsSeq_set (iwStat_ne_parSeq x) _)
  · exact keeps_skip

theorem keepsSeq_stCut : KeepsSeq stCut := by
  refine keeps_read fun s => ?_
  split
  · exact keeps_whenU fun _ => keeps_seq (keepsSeq_updPar _) (keepsSeq_sliceReturn _)
  · exact keeps_skip

/-! ## CYCLE_BOUNDARY: the snapshot (R241) -/

/-- The snapshot is latched; the page stays as it was, and so does whether the cycle has had its compare point. -/
def Latches (x y : PairView) : Prop := y.1 = x.1 ∧ y.2.compared = x.2.compared ∧ y.2.snap.isSome = true

theorem Takes.latched {u : Upd} (h : Takes Latches u) (s : State) : (u.run s).reg PAR_SEQ = s.reg PAR_SEQ ∧
    (u.run s).b.par.compared = s.b.par.compared ∧ (u.run s).b.par.snap.isSome = true := by
  obtain ⟨hpage, hpar⟩ := h s
  have hseq := congrFun hpage PAR_SEQ
  have hon : onPage 3 PAR_SEQ = true := by decide
  simp only [State.pairCtl, hon, if_true] at hseq
  exact ⟨hseq, hpar⟩

theorem takes_subSlots {R : PairView → PairView → Prop} {k : List Byte → Upd} (hk : ∀ l, Takes R (k l)) (n : Nat)
    (acc : List Byte) : Takes R (subSlots n acc k) := by
  induction n generalizing acc with
  | zero => exact hk _
  | succ n ih => exact takes_read fun s => takes_ite (takes_sigFetch fun _ => ih _) (ih _)

theorem latchSnapshot_latches (ok : Nat) : Takes Latches (latchSnapshot ok) :=
  takes_read fun _ => takes_freeBytes fun _ => takes_subSlots (fun _ _ => ⟨rfl, rfl, rfl⟩) _ _

/-- What a boundary does in an enabled pair controller before the next cycle begins: the skipped self-test, the counts of GOOD_MS, the
decision, the unit cut short, and the new cycle length where it is due. -/
def cycleEnds (s : State) : Upd := seqs [
  whenU (s.standby.isSome && s.flag PAR_MODE_ST_EN && !s.b.par.tried) stSkip,
  countGood 0 (250 * s.b.par.len), countGood 1 (250 * s.b.par.len), parDecide, stCut,
  whenU ((s.devTime + 125000) / 250000 % s.parCycle == 0) (updPar fun p => { p with len := s.parCycle })]

/-- The next cycle: its compare point and its self-test are to come. -/
def cycleBegins : Upd := .seq (updPar fun p => { p with compared := false, matched := false, tried := false })
  (.read fun s => setReg PAR_SEQ ((s.reg PAR_SEQ + 1) % 2 ^ 32))

theorem keepsSeq_cycleEnds (s : State) : KeepsSeq (cycleEnds s) :=
  keeps_seqs ⟨keeps_whenU fun _ => keepsSeq_stSkip, keepsSeq_countGood _ _, keepsSeq_countGood _ _, keepsSeq_parDecide, keepsSeq_stCut,
    keeps_whenU fun _ => keepsSeq_updPar _⟩

theorem cycleBegins_seq (s : State) : (cycleBegins.run s).reg PAR_SEQ = (s.reg PAR_SEQ + 1) % 2 ^ 32 := by
  simp only [cycleBegins, Upd.run_seq, Upd.run_read]
  rw [reg_setReg_same (by decide), Nat.mod_mod, updPar, upd_reg]

theorem cycleBegins_compared (s : State) : (cycleBegins.run s).b.par.compared = false := by
  simp only [cycleBegins, Upd.run_seq, Upd.run_read, setReg_b, updPar, upd_b]

section
variable {ok : Fin 32} {s : State}

theorem completes_cycleBoundary (ok : Fin 32) (hu : s.unarmed 3 = true) :
    Completes (.cycleBoundary ok) s ((cycleBoundary ok).run s) := completes_of_work rfl hu

theorem cycleBoundary_of_unlocked (h : s.locked = false) : (cycleBoundary ok).run s = s := by
  simp only [cycleBoundary, Upd.run_read, h, Bool.false_and, whenU_false, Upd.run_skip]

theorem cycleBoundary_of_enabled (hl : s.locked = true) (hp : s.pwr ≤ 1) (hen : s.flag (BLK_STAT_ENABLED 3) = true) :
    (cycleBoundary ok).run s = (latchSnapshot ok.val).run (cycleBegins.run ((cycleEnds s).run s)) := by
  simp only [cycleBoundary, cycleEnds, cycleBegins, Upd.run_read, hl, decide_eq_true hp, Bool.and_self, whenU_true, hen, if_true,
    seqs_cons_run, seqs_nil_run, Upd.run_seq]

theorem cycleBoundary_counts (hu : s.unarmed 3 = true) (hl : s.locked = true) (hp : s.pwr ≤ 1)
    (hen : s.flag (BLK_STAT_ENABLED 3) = true) : ∃ t, Completes (.cycleBoundary ok) s t ∧
      t.reg PAR_SEQ = (s.reg PAR_SEQ + 1) % 2 ^ 32 ∧ t.b.par.compared = false ∧ t.b.par.snap.isSome = true := by
  have hdone := completes_cycleBoundary ok hu
  rw [cycleBoundary_of_enabled hl hp hen] at hdone
  obtain ⟨hseq, hcompared, hsnap⟩ := (latchSnapshot_latches ok.val).latched (cycleBegins.run ((cycleEnds s).run s))
  have hkept : ((cycleEnds s).run s).reg PAR_SEQ = s.reg PAR_SEQ := keepsSeq_cycleEnds s s
  refine ⟨_, hdone, ?_, hcompared.trans (cycleBegins_compared _), hsnap⟩
  rw [hseq, cycleBegins_seq, hkept]

end

/-! ## SNAPSHOT_READY (R241) -/

section
variable {s : State}

theorem completes_snapshotReady (hu : s.unarmed 3 = true) : Completes .snapshotReady s (snapshotReady.run s) := completes_of_work rfl hu

theorem snapshotReady_of_none (h : s.b.par.snap = none) : snapshotReady.run s = s := by
  simp only [snapshotReady, Upd.run_read, h, Upd.run_skip]

theorem snapshotReady_takes {l : List Byte} (hu : s.unarmed 3 = true) (h : s.b.par.snap = some l) :
    ∃ t, Completes .snapshotReady s t ∧ t.bitAt (BLK_IRQ_STAT 3) 0 = true ∧ t.b.par.snap = none := by
  have hdone := completes_snapshotReady hu
  simp only [snapshotReady, Upd.run_read, h, seqs_cons_run, seqs_nil_run] at hdone
  exact ⟨_, hdone, raise_bitAt_same (by decide) _, rfl⟩

end

/-! ## COMPARE_POINT (R243 to R249) -/

/-- The update leaves whether this cycle's compare point was taken. -/
def KeepsCompared (u : Upd) : Prop := Keeps (·.b.par.compared) u

theorem keepsCompared_set (f : Fld) (v : Nat) : KeepsCompared (set f v) := keeps_b_set (·.par.compared) f v

theorem keepsCompared_updPar {f : Par → Par} (h : ∀ p, (f p).compared = p.compared) : KeepsCompared (updPar f) := fun s => h s.b.par

/-- Two updates, then one that takes the compare point, then what leaves it taken. -/
theorem compared_of_seqs (u v : Upd) {f : Par → Par} (hf : ∀ p, (f p).compared = true) {l : List Upd} (h : KeepsCompared (seqs l))
    (s : State) : ((seqs (u :: v :: updPar f :: l)).run s).b.par.compared = true := (h _).trans (hf _)

theorem keepsCompared_updSide (x : Nat) (f : ParSide → ParSide) : KeepsCompared (updSide x f) :=
  keepsCompared_updPar fun _ => by split <;> rfl

theorem keepsCompared_gradeSide (x : Nat) : KeepsCompared (gradeSide x) :=
  keeps_read fun _ => keeps_seqs ⟨keepsCompared_set _ _, keeps_b_upd (π := (·.par.compared)) fun _ => rfl,
    keeps_whenU fun _ => keeps_seq (keepsCompared_set _ _) (keepsCompared_updSide _ _)⟩

theorem keepsCompared_parMismatch (sb w : Nat) : KeepsCompared (parMismatch sb w) := by
  have hreport : KeepsCompared (report 3 none FT) := keeps_b_report_block (π := (·.par.compared)) (fun _ _ => rfl) 3 FT
  have hdue (d : Due) : KeepsCompared (dueReaction d) := keeps_b_upd (π := (·.par.compared)) fun _ => rfl
  exact keeps_read fun _ => keeps_seqs ⟨keepsCompared_updPar fun _ => rfl, keepsCompared_updSide _ _, keepsCompared_set _ _,
    keeps_b_inc (π := (·.par.compared)) _ _, keeps_b_setBit (π := (·.par.compared)) _ _, keepsCompared_set _ _, keepsCompared_set _ _,
    keeps_whenU fun _ => keeps_seq hreport (hdue _)⟩

theorem completes_comparePoint (s : State) : Completes .comparePoint s (comparePoint.run s) := completes_of_finish rfl

theorem comparePoint_of_unlocked {s : State} (h : s.locked = false) : comparePoint.run s = s := by
  simp only [comparePoint, Upd.run_read, h, Bool.false_and, whenU_false, Upd.run_skip]

theorem comparePoint_compares {s : State} (hl : s.locked = true) (hp : s.pwr ≤ 1) :
    ∃ t, Completes .comparePoint s t ∧ t.b.par.compared = true := by
  refine ⟨_, completes_comparePoint s, ?_⟩
  simp only [comparePoint, Upd.run_read, hl, decide_eq_true hp, Bool.and_self, whenU_true]
  refine compared_of_seqs _ _ (fun _ => rfl) (keeps_seqs_cons (keepsCompared_gradeSide 0) (keeps_seqs_cons (keepsCompared_gradeSide 1)
    (keeps_seqs_cons (keeps_read fun t => ?_) keeps_seqs_nil))) _
  refine keeps_ite (fun _ => keepsCompared_updPar fun _ => rfl) fun _ => ?_
  split
  · exact keepsCompared_updPar fun _ => rfl
  · exact keepsCompared_parMismatch _ _

/-! ## MM_DECAY_TICK (R249) -/

theorem mmDecayTick_lowers {s : State} (hl : s.locked = true) (hp : s.pwr ≤ 1) : ∃ t, Completes .mmDecayTick s t ∧
    t.get PAR_MM_STAT_LEVEL = s.get PAR_MM_STAT_LEVEL - 1 ∧ Untouched (· == PAR_MM_STAT) s t := by
  have hdone : Completes .mmDecayTick s (mmDecayTick.run s) := completes_of_finish rfl
  simp only [mmDecayTick, Upd.run_read, hl, decide_eq_true hp, Bool.and_self, whenU_true] at hdone
  exact ⟨_, hdone, get_dec_same (by decide) 1 s, within_setOwn PAR_MM_STAT_LEVEL _ s⟩

/-! ## ST_UNIT_START (R247) -/

/-- A skipped cycle has had its self-test; a unit is neither begun nor ended. -/
theorem stSkip_par (s : State) : (stSkip.run s).b.par = { s.b.par with tried := true } := by
  simp only [stSkip, Upd.run_seq, updPar, upd_b, inc_b]

theorem within_stSkip : Within (· == PAR_ST_STAT) stSkip := within_seq (within_inc (beq_self_eq_true _)) (within_upd _)

section
variable {s : State} {x : Nat}

theorem completes_stUnitStart (go : Bool) (s : State) : Completes (.stUnitStart go) s ((stUnitStart go).run s) := completes_of_finish rfl

variable (hx : s.standby = some x) (hen : s.flag PAR_MODE_ST_EN = true) (ht : s.b.par.tried = false) (hn : s.b.par.unit = none)
include hx hen ht hn

theorem stUnitStart_of_refused : (stUnitStart false).run s = stSkip.run s := by
  simp only [stUnitStart, Upd.run_read, hx, hen, ht, hn, Bool.not_false, Option.isNone_none, Bool.and_self, whenU_true, Bool.false_eq_true,
    not_false_eq_true, true_or, if_true]

theorem stUnitStart_skips : ∃ t, Completes (.stUnitStart false) s t ∧ t.b.par.tried = true ∧ t.b.par.unit = none ∧
    Untouched (· == PAR_ST_STAT) s t := by
  have hdone := completes_stUnitStart false s
  rw [stUnitStart_of_refused hx hen ht hn] at hdone
  exact ⟨_, hdone, by rw [stSkip_par], by rw [stSkip_par]; exact hn, within_stSkip s⟩

/-- The core under test leaves the vote where the triplet is not a detection-only pair. -/
theorem stUnitStart_of_running (hst : s.get (IW_STAT_STATE x) = 2) : (stUnitStart true).run s =
    (whenU (!s.flag (IW_STAT_DMR x)) (.seq (updIw x fun t => { t with slice := some (s.get PAR_ST_STAT_SLICE / 48) })
      (putCore (IW_STAT_RUNNING x) (s.get PAR_ST_STAT_SLICE / 48) false))).run
      ((updPar fun p => { p with unit := some x, tried := true }).run s) := by
  simp only [stUnitStart, Upd.run_read, hx, hen, ht, hn, Bool.not_false, Option.isNone_none, Bool.and_self, whenU_true, not_true_eq_false,
    hst, ne_eq, or_self, if_false, Upd.run_seq]

theorem stUnitStart_starts (hst : s.get (IW_STAT_STATE x) = 2) : ∃ t, Completes (.stUnitStart true) s t ∧ t.b.par.unit = some x ∧
    Untouched (· == IW_STAT x) s t := by
  have hdone := completes_stUnitStart true s
  rw [stUnitStart_of_running hx hen ht hn hst] at hdone
  have hcore (k : Nat) : Within (· == IW_STAT x) (putCore (IW_STAT_RUNNING x) k false) := within_putCore (beq_self_eq_true _)
  have hunit (k : Nat) (f : Triplet → Triplet) : Keeps (·.b.par.unit) (.seq (updIw x f) (putCore (IW_STAT_RUNNING x) k false)) :=
    keeps_seq (keeps_b_upd (π := (·.par.unit)) fun _ => rfl) (keeps_read fun _ => keeps_b_set (·.par.unit) _ _)
  exact ⟨_, hdone, keeps_whenU (fun _ => hunit _ _) _,
    (within_upd _ s).trans (within_whenU (within_seq (within_upd _) (hcore _)) _)⟩

end

/-! ## ST_UNIT_END (R247) -/

section
variable {s : State}

theorem completes_stUnitEnd (slice march : Bool) (s : State) : Completes (.stUnitEnd slice march) s ((stUnitEnd slice march).run s) :=
  completes_of_finish rfl

theorem stUnitEnd_of_none (slice march : Bool) (h : s.b.par.unit = none) : (stUnitEnd slice march).run s = s := by
  simp only [stUnitEnd, Upd.run_read, h, Upd.run_skip]

/-- Without a core under test, the march passed. -/
theorem stUnitEnd_of_march {x : Nat} (slice : Bool) (hx : s.b.par.unit = some x) (hn : (s.iw x).slice = none) :
    (stUnitEnd slice true).run s = (set PAR_ST_STAT_MARCH ((s.get PAR_ST_STAT_MARCH + 1) % 256)).run
      ((updPar fun p => { p with unit := none }).run s) := by
  simp only [stUnitEnd, Upd.run_read, hx, hn, Bool.not_true, whenU_false, Option.isSome_none, seqs_cons_run, seqs_nil_run, Upd.run_skip]

theorem stUnitEnd_marches {x : Nat} (slice : Bool) (hx : s.b.par.unit = some x) (hn : (s.iw x).slice = none) :
    ∃ t, Completes (.stUnitEnd slice true) s t ∧ t.b.par.unit = none ∧ t.get PAR_ST_STAT_MARCH = (s.get PAR_ST_STAT_MARCH + 1) % 256 ∧
      t.get PAR_ST_STAT_SLICE = s.get PAR_ST_STAT_SLICE ∧ Untouched (· == PAR_ST_STAT) s t := by
  have hdone := completes_stUnitEnd slice true s
  rw [stUnitEnd_of_march slice hx hn] at hdone
  refine ⟨_, hdone, rfl, ?_, get_set_ne (by decide) (by decide) (by decide) _ _, (within_upd _ s).trans (within_setOwn PAR_ST_STAT_MARCH _ _)⟩
  rw [get_set_same (by decide)]
  exact Nat.mod_mod _ 256

end

end Sys2Proof.Machine

open Sys2Proof Sys2Proof.Machine

/-- Settles O35: each command completes with its operation, which its conditions reduce to the effect stated; at a boundary nothing before
the new cycle's number writes PAR_SEQ. -/
theorem pairControllerEvents : Obligations.PairControllerEvents := by
  refine ⟨?boundary, ?unlocked, ?ready, ?noSnapshot, ?compare, ?noCompare, ?decay, ?skips, ?starts, ?marches, ?noUnit⟩
  case boundary => exact fun _ _ hu hl hp hen => cycleBoundary_counts hu hl hp hen
  case unlocked => exact fun ok s hu h => does_of_completes (completes_cycleBoundary ok hu) (cycleBoundary_of_unlocked h) within_skip
  case ready => exact fun _ _ hu h => snapshotReady_takes hu h
  case noSnapshot => exact fun s hu h => does_of_completes (completes_snapshotReady hu) (snapshotReady_of_none h) within_skip
  case compare => exact fun _ hl hp => comparePoint_compares hl hp
  case noCompare => exact fun s h => does_of_completes (completes_comparePoint s) (comparePoint_of_unlocked h) within_skip
  case decay => exact fun _ hl hp => mmDecayTick_lowers hl hp
  case skips => exact fun _ _ hx hen ht hn => stUnitStart_skips hx hen ht hn
  case starts => exact fun _ _ hx hen ht hn hst => stUnitStart_starts hx hen ht hn hst
  case marches => exact fun v _ _ hx hn => stUnitEnd_marches v hx hn
  case noUnit => exact fun a b s h => does_of_completes (completes_stUnitEnd a b s) (stUnitEnd_of_none a b h) within_skip
end

section
/-!
The links of the chain (R269, R565, R569, R576, R579): what each row does where its condition holds.
-/
namespace Sys2Proof.Machine

/-! ## The registers of a port -/

theorem fits_linkState : ∀ c : Fin 2, (FLK_LINK_STAT_STATE c).fits = true := by decide
theorem fits_linkWidth : ∀ c : Fin 2, (FLK_LINK_STAT_WIDTH c).fits = true := by decide
theorem fits_linkPartnerHost : ∀ c : Fin 2, (FLK_LINK_STAT_PARTNER_HOST c).fits = true := by decide
theorem fits_linkPartnerValid : ∀ c : Fin 2, (FLK_LINK_STAT_PARTNER_VALID c).fits = true := by decide
theorem fits_linkPartnerDev : ∀ c : Fin 2, (FLK_LINK_STAT_PARTNER_DEV c).fits = true := by decide
theorem fits_linkIrq : ∀ c : Fin 2, ∀ i < 4, (⟨CELL_IRQ_STAT 13 c, i, i⟩ : Fld).fits = true := by decide
theorem fits_linkRetrains : ∀ c : Fin 2, (whole (FLK_CNT_RETRAIN c)).fits = true := by decide
theorem fits_linkReplays : ∀ c : Fin 2, (whole (FLK_CNT_REPLAY c)).fits = true := by decide
theorem fits_linkPartials : ∀ c : Fin 2, (whole (FLK_CNT_PARTIAL_DROP c)).fits = true := by decide

/-- The cell pages of the two ports lie on the chain's page. -/
theorem onPage_flkCell (c : Fin 2) {o : Nat} (ho : o < 128) : onPage 13 (cellBase 13 c + o) = true :=
  onPage_cell (by rw [show (unitCells 13).2 = 128 from rfl]; omega)

theorem within_setLink (c : Fin 2) (hi lo v : Nat) : Within (onPage 13) (set ⟨FLK_LINK_STAT c, hi, lo⟩ v) :=
  within_set (onPage_flkCell c (by decide))

theorem within_raiseLink (c : Fin 2) (i : Nat) : Within (onPage 13) (raiseCell 13 c i) := within_setBit (onPage_flkCell c (by decide))

theorem raiseLink_bitAt_same (c : Fin 2) {i : Nat} (h : i < 4) (s : State) :
    ((raiseCell 13 c i).run s).bitAt (CELL_IRQ_STAT 13 c) i = true := bitAt_setBit_same (fits_linkIrq c i h) s

theorem raiseCell_get {k c i : Nat} {f : Fld} (h : CELL_IRQ_STAT k c ≠ f.reg) (s : State) : ((raiseCell k c i).run s).get f = s.get f := by
  rw [raiseCell, setBit_eq, get_set_ne_reg h]

theorem linkIrq_ne_linkStat (c : Fin 2) : CELL_IRQ_STAT 13 c ≠ FLK_LINK_STAT c := by simp only [CELL_IRQ_STAT, FLK_LINK_STAT]; omega

theorem devRole_ne_linkStat : ∀ c : Fin 2, FLK_DEV ≠ FLK_LINK_STAT c := by decide
theorem devRole_ne_linkIrq : ∀ c : Fin 2, FLK_DEV ≠ CELL_IRQ_STAT 13 c := by decide

/-- The role shows in FLK_DEV, which holds no field of a port. -/
theorem showRole_reg_ne {a : Nat} (h : FLK_DEV ≠ a) (s : State) : (showRole.run s).reg a = s.reg a := set_reg_ne _ s h

theorem within_showRole : Within (onPage 13) showRole := within_read fun _ => within_set (by decide)

@[simp] theorem port_updPort_same (c : Nat) (f : LinkPort → LinkPort) (s : State) : ((updPort c f).run s).port c = f (s.port c) :=
  mapGet_mapPut_same _ _ _ _

theorem within_updPort {p : Nat → Bool} (c : Nat) (f : LinkPort → LinkPort) : Within p (updPort c f) := within_upd _

/-! ## FINZA_TRAINED (R565) -/

/-- What the training sequences carry shows in FLK_LINK_STAT; `dev` is the partner's number, if it has one. -/
def showPartner (c : Nat) (host : Bool) (dev : Option (Fin 64)) : Upd := seqs [
  set (FLK_LINK_STAT_PARTNER_HOST c) host.toNat, set (FLK_LINK_STAT_PARTNER_VALID c) dev.isSome.toNat,
  set (FLK_LINK_STAT_PARTNER_DEV c) (dev.elim 0 (·.val))]

/-- The partner's credits are those of empty pools (R570). -/
def grantCredits (c : Nat) : Upd := updPort c fun x => { x with cred := (List.range 5).map fun i => (i, poolSize i) }

theorem within_showPartner (c : Fin 2) (host : Bool) (dev : Option (Fin 64)) : Within (onPage 13) (showPartner c host dev) :=
  within_seqs ⟨within_setLink c _ _ _, within_setLink c _ _ _, within_setLink c _ _ _⟩

section
variable {c : Fin 2} {s : State}

theorem showPartner_state (host : Bool) (dev : Option (Fin 64)) :
    ((showPartner c host dev).run s).get (FLK_LINK_STAT_STATE c) = s.get (FLK_LINK_STAT_STATE c) := by
  simp only [showPartner, seqs_cons_run, seqs_nil_run]
  rw [get_set_ne (fits_linkPartnerDev c) (fits_linkState c) (.inr (by simp)),
    get_set_ne (fits_linkPartnerValid c) (fits_linkState c) (.inr (by simp)),
    get_set_ne (fits_linkPartnerHost c) (fits_linkState c) (.inr (by simp))]

theorem showPartner_host (host : Bool) (dev : Option (Fin 64)) :
    ((showPartner c host dev).run s).flag (FLK_LINK_STAT_PARTNER_HOST c) = host := by
  simp only [showPartner, seqs_cons_run, seqs_nil_run, State.flag]
  rw [get_set_ne (fits_linkPartnerDev c) (fits_linkPartnerHost c) (.inr (by simp)),
    get_set_ne (fits_linkPartnerValid c) (fits_linkPartnerHost c) (.inr (by simp)), get_set_same (fits_linkPartnerHost c)]
  cases host <;> rfl

theorem completes_finzaTrained (c : Fin 2) (w : Fin 3) (h u : Bool) (m : Fin 4) (d : Option (Fin 64)) (s : State) :
    Completes (.finzaTrained c w h u m d) s ((finzaTrained c w h u m d).run s) := completes_of_finish rfl

variable {w : Fin 3} {h u : Bool} {m : Fin 4} {d : Option (Fin 64)}
  (hon : s.cellOn 13 c = true) (hen : s.flag (BLK_STAT_ENABLED 13) = true)
include hon hen

section
variable (h0 : s.get (FLK_LINK_STAT_STATE c) ≠ 0) (h4 : s.get (FLK_LINK_STAT_STATE c) ≠ 4) (hw : w ≠ 0) (hl : w.val ≤ s.lanes c)
  (hwrong : s.wrongPartner c h u m (d.map (·.val)) = true)
include h0 h4 hw hl hwrong

theorem finzaTrained_of_wrong : (finzaTrained c w h u m d).run s = (raiseCell 13 c 3).run
    ((whenU (s.get (FLK_LINK_STAT_STATE c) != 5) (set (FLK_LINK_STAT_STATE c) 2)).run ((showPartner c h d).run s)) := by
  cases d <;> simp only [finzaTrained, showPartner, Upd.run_read, hon, hen, bne_iff_ne.mpr h0, bne_iff_ne.mpr h4, bne_iff_ne.mpr hw,
    decide_eq_true hl, hwrong, Bool.and_self, whenU_true, if_true, Upd.run_seq, seqs_cons_run, seqs_nil_run, Option.elim]

theorem finzaTrained_wrong : ∃ t, Completes (.finzaTrained c w h u m d) s t ∧
    t.get (FLK_LINK_STAT_STATE c) = (if s.get (FLK_LINK_STAT_STATE c) = 5 then 5 else 2) ∧ t.bitAt (CELL_IRQ_STAT 13 c) 3 = true ∧
    t.flag (FLK_LINK_STAT_PARTNER_HOST c) = h ∧ Untouched (onPage 13) s t := by
  have hdone := completes_finzaTrained c w h u m d s
  rw [finzaTrained_of_wrong hon hen h0 h4 hw hl hwrong] at hdone
  refine ⟨_, hdone, ?state, raiseLink_bitAt_same c (by decide) _, ?host, ?foot⟩
  case state =>
    rw [raiseCell_get (linkIrq_ne_linkStat c)]
    by_cases h5 : s.get (FLK_LINK_STAT_STATE c) = 5
    · rw [h5, bne_self_eq_false, whenU_false, Upd.run_skip, showPartner_state, h5, if_pos rfl]
    · rw [bne_iff_ne.mpr h5, whenU_true, get_set_same (fits_linkState c), if_neg h5]
      rfl
  case host =>
    have hstate (b : Bool) : Keeps (·.get (FLK_LINK_STAT_PARTNER_HOST c)) (whenU b (set (FLK_LINK_STAT_STATE c) 2)) :=
      keeps_whenU fun _ => keeps_get_set 2 (fits_linkState c) (fits_linkPartnerHost c) (.inr (by simp))
    rw [State.flag, raiseCell_get (linkIrq_ne_linkStat c)]
    exact (congrArg (· != 0) (hstate _ _)).trans (showPartner_host _ _)
  case foot =>
    exact ((within_showPartner c _ _ s).trans (within_whenU (within_setLink c _ _ _) _)).trans (within_raiseLink c _ _)

end

section
variable (h5 : s.get (FLK_LINK_STAT_STATE c) = 5) (hl : s.lanes c = 2) (hright : s.wrongPartner c h u m (d.map (·.val)) = false)
include h5 hl hright

/-- A full-width retrain reports no degraded width and starts no enumeration. -/
theorem finzaTrained_of_right : (finzaTrained c 2 h u m d).run s = showRole.run
    ((grantCredits c).run ((raiseCell 13 c 2).run
      ((set (FLK_LINK_STAT_WIDTH c) 2).run ((set (FLK_LINK_STAT_STATE c) 4).run ((showPartner c h d).run s))))) := by
  have hwidth : ((2 : Fin 3) != 0) = true ∧ decide (((2 : Fin 3) : Nat) ≤ 2) = true ∧ ((2 : Fin 3) == 1) = false := by decide
  cases d <;> simp only [finzaTrained, showPartner, grantCredits, Upd.run_read, hon, hen, h5, hl, hright, hwidth, Nat.reduceBNe,
    bne_self_eq_false, Bool.and_self, Bool.false_eq_true, whenU_true, whenU_false, if_true, if_false, Upd.run_skip, Upd.run_seq,
    seqs_cons_run, seqs_nil_run, Option.elim] <;> rfl

theorem finzaTrained_right : ∃ t, Completes (.finzaTrained c 2 h u m d) s t ∧ t.get (FLK_LINK_STAT_STATE c) = 4 ∧
    t.get (FLK_LINK_STAT_WIDTH c) = 2 ∧ t.bitAt (CELL_IRQ_STAT 13 c) 2 = true ∧ SameMem s t := by
  have hdone := completes_finzaTrained c 2 h u m d s
  rw [finzaTrained_of_right hon hen h5 hl hright] at hdone
  have hrole {f : Fld} (hf : f.reg = FLK_LINK_STAT c) (r : State) : (showRole.run r).get f = r.get f := by
    simp only [State.get, showRole_reg_ne (hf ▸ devRole_ne_linkStat c)]
  refine ⟨_, hdone, ?state, ?width, ?event, ?memory⟩
  case state =>
    rw [hrole rfl, grantCredits, updPort, updFlk, upd_get, raiseCell_get (linkIrq_ne_linkStat c),
      get_set_ne (fits_linkWidth c) (fits_linkState c) (.inr (by simp)), get_set_same (fits_linkState c)]
    rfl
  case width =>
    rw [hrole rfl, grantCredits, updPort, updFlk, upd_get, raiseCell_get (linkIrq_ne_linkStat c), get_set_same (fits_linkWidth c)]
    rfl
  case event =>
    rw [bitAt_of_reg_eq (showRole_reg_ne (devRole_ne_linkIrq c) _), grantCredits, updPort, updFlk, upd_bitAt]
    exact raiseLink_bitAt_same c (by decide) _
  case memory =>
    exact ((((((within_showPartner c _ _ s).trans (within_setLink c _ _ _ _)).trans (within_setLink c _ _ _ _)).trans
      (within_raiseLink c _ _)).trans (within_updPort _ _ _)).trans (within_showRole _)).1

end

end

/-! ## Links that train again (R565) -/

section
variable {c : Fin 2} {s : State}

theorem finzaTrainTimeout_breaks (h : s.get (FLK_LINK_STAT_STATE c) = 5) : Completes (.finzaTrainTimeout c) s ((portDown c 6).run s) := by
  have hdone : Completes (.finzaTrainTimeout c) s ((finzaTrainTimeout c).run s) := completes_of_finish rfl
  rwa [finzaTrainTimeout, Upd.run_read, h, beq_self_eq_true, whenU_true] at hdone

theorem finzaDownRetry_empties (h : s.get (FLK_LINK_STAT_STATE c) = 6) :
    ∃ t, Completes (.finzaDownRetry c) s t ∧ t.port c = {} ∧ Untouched (fun _ => false) s t := by
  have hdone : Completes (.finzaDownRetry c) s ((finzaDownRetry c).run s) := completes_of_finish rfl
  rw [finzaDownRetry, Upd.run_read, h, beq_self_eq_true, whenU_true] at hdone
  exact ⟨_, hdone, port_updPort_same _ _ _, within_updPort _ _ s⟩

theorem retrain_of_up (h : s.get (FLK_LINK_STAT_STATE c) = 4) :
    (retrain c).run s = (count (FLK_CNT_RETRAIN c)).run ((set (FLK_LINK_STAT_STATE c) 5).run s) := by
  rw [retrain, Upd.run_read, h, beq_self_eq_true, whenU_true, Upd.run_seq]

theorem retrains_ne_linkStat (c : Fin 2) : FLK_CNT_RETRAIN c ≠ FLK_LINK_STAT c := by simp only [FLK_CNT_RETRAIN, FLK_LINK_STAT]; omega

theorem finzaWidthRetry_retrains (hw : s.get (FLK_LINK_STAT_WIDTH c) = 1) (h : s.get (FLK_LINK_STAT_STATE c) = 4) :
    ∃ t, Completes (.finzaWidthRetry c) s t ∧ t.get (FLK_LINK_STAT_STATE c) = 5 ∧
      t.reg (FLK_CNT_RETRAIN c) = min (2 ^ 32 - 1) (s.reg (FLK_CNT_RETRAIN c) + 1) ∧ Untouched (onPage 13) s t := by
  have hdone : Completes (.finzaWidthRetry c) s ((finzaWidthRetry c).run s) := completes_of_finish rfl
  rw [finzaWidthRetry, Upd.run_read, hw, beq_self_eq_true, whenU_true, retrain_of_up h] at hdone
  refine ⟨_, hdone, ?state, ?count, (within_setLink c _ _ _ s).trans (within_count (onPage_flkCell c (by decide)) _)⟩
  case state =>
    rw [State.get, count_reg_ne _ (retrains_ne_linkStat c)]
    exact get_set_same (fits_linkState c) 5 s
  case count => rw [reg_count_same (fits_linkRetrains c), set_reg_ne _ _ (retrains_ne_linkStat c).symm]

/-! ## Replay and timers (R569) -/

theorem replay_of_progress (h : (s.port c).replays < 3) : (replay c).run s =
    (updPort c fun x => { x with replays := x.replays + 1 }).run ((count (FLK_CNT_REPLAY c)).run s) := by
  rw [replay, Upd.run_read, Upd.run_seq, if_neg (Nat.not_le.mpr h)]

theorem finzaReplayTimeout_replays (h4 : s.get (FLK_LINK_STAT_STATE c) = 4) (hu : (s.port c).unacked ≠ []) (h : (s.port c).replays < 3) :
    ∃ t, Completes (.finzaReplayTimeout c) s t ∧ (t.port c).replays = (s.port c).replays + 1 ∧
      t.reg (FLK_CNT_REPLAY c) = min (2 ^ 32 - 1) (s.reg (FLK_CNT_REPLAY c) + 1) ∧ Untouched (onPage 13) s t := by
  have hdone : Completes (.finzaReplayTimeout c) s ((finzaReplayTimeout c).run s) := completes_of_finish rfl
  have hwaits : (s.port c).unacked.isEmpty = false := by rwa [← Bool.not_eq_true, List.isEmpty_iff]
  rw [finzaReplayTimeout, Upd.run_read, h4, hwaits, beq_self_eq_true, Bool.not_false, Bool.and_self, whenU_true, replay_of_progress h] at hdone
  refine ⟨_, hdone, ?replays, reg_count_same (fits_linkReplays c) s,
    (within_count (onPage_flkCell c (by decide)) s).trans (within_updPort _ _ _)⟩
  case replays =>
    rw [port_updPort_same]
    rfl

theorem finzaRxTimeout_counts (h : s.get (FLK_LINK_STAT_STATE c) = 4) : ∃ t, Completes (.finzaRxTimeout c) s t ∧
    t.reg (FLK_CNT_PARTIAL_DROP c) = min (2 ^ 32 - 1) (s.reg (FLK_CNT_PARTIAL_DROP c) + 1) ∧ Untouched (onPage 13) s t := by
  have hdone : Completes (.finzaRxTimeout c) s ((finzaRxTimeout c).run s) := completes_of_finish rfl
  rw [finzaRxTimeout, Upd.run_read, h, beq_self_eq_true, whenU_true] at hdone
  exact ⟨_, hdone, reg_count_same (fits_linkPartials c) s, within_count (onPage_flkCell c (by decide)) s⟩

theorem finzaAckTimer_acknowledges (c : Fin 2) (s : State) :
    ∃ t, Completes (.finzaAckTimer c) s t ∧ (t.port c).acc = 0 ∧ Untouched (fun _ => false) s t := by
  have hdone : Completes (.finzaAckTimer c) s ((finzaAckTimer c).run s) := completes_of_finish rfl
  refine ⟨_, hdone, ?_, within_updPort _ _ s⟩
  rw [finzaAckTimer, port_updPort_same]

end

/-! ## The sideband wires (R269, R579) -/

/-- A fault of a unit without a page of its own shows in the fault registers of the MSU alone (R260). -/
theorem within_report_pageless {k cls j : Nat} (hk : hasPage k = false) (hcls : 16 * k + cls < 512) (hj : 16 * k + j < 512) :
    Within faultRegs (report k none cls (some j)) := by
  refine within_read fun _ => within_read fun s => within_seqs ⟨within_skip, ?_,
    within_whenU (within_seqs ⟨within_fcuPend hj _, within_fcuPend hcls _, within_set (by decide)⟩), within_upd _⟩
  rw [hk]
  exact within_skip

section
variable {s : State} (hm : s.chainMode ≠ 0)
include hm

theorem sidebandIrqFall_raises (h : s.flag FLK_SB_STAT_OWN_IRQ = false) :
    ∃ t, Completes .sidebandIrqFall s t ∧ t.bitAt (BLK_IRQ_STAT 13) 3 = true ∧ Untouched (onPage 13) s t := by
  have hdone : Completes .sidebandIrqFall s (sidebandIrqFall.run s) := completes_of_finish rfl
  rw [sidebandIrqFall, Upd.run_read, h, bne_iff_ne.mpr hm, Bool.not_false, Bool.and_self, whenU_true] at hdone
  exact ⟨_, hdone, raise_bitAt_same (by decide) s, within_raise 13 3 s⟩

theorem sidebandFaultLow_reports (h : s.flag MSU_FAULT_STAT_FAULT_N = false) :
    Does .sidebandFaultLow (report 29 none TR (some 4)) faultRegs s := by
  have hdone : Completes .sidebandFaultLow s (sidebandFaultLow.run s) := completes_of_finish rfl
  rw [sidebandFaultLow, Upd.run_read, h, bne_iff_ne.mpr hm, Bool.not_false, Bool.and_self, whenU_true] at hdone
  exact ⟨hdone, within_report_pageless rfl (by decide) (by decide) s⟩

end

end Sys2Proof.Machine
end

section
/-!
A chain link that goes down (R576): its event stays, whatever the reset of bound functions whose owners are lost (R626, R627) does. The return
of a cell's registers to their reset values passes over the whole register file, so it leaves the event where its register is tidy.
-/
namespace Sys2Proof.Machine

/-! ## Tidy registers -/

/-- All words that the register file lists for `a` are one word, with its reserved bits at their reset value, as in every state, legal or not,
once `a` was written. -/
def tidyAt (a : Nat) (m : List (Nat × Word)) : Prop := ∃ w, ∀ e ∈ m, e.1 = a → e.2 = maskReserved a w

theorem maskReserved_idem (a : Nat) (v : Word) : maskReserved a (maskReserved a v) = maskReserved a v := by
  refine BitVec.eq_of_getLsbD_eq fun i _ => ?_
  rw [maskReserved_getLsbD, maskReserved_getLsbD]
  split <;> rfl

theorem tidyAt_put_same (a : Nat) (m : List (Nat × Word)) (v : Word) : tidyAt a (mapPut (regDefault a) m a (maskReserved a v)) := by
  refine ⟨v, fun e he hea => ?_⟩
  rcases mem_mapPut he with ⟨rfl, _⟩ | ⟨_, hne⟩
  · rfl
  · exact absurd hea hne

/-- A masked write keeps every register tidy. -/
theorem tidyAt.put {a : Nat} {m : List (Nat × Word)} (h : tidyAt a m) (c : Nat) (v : Word) :
    tidyAt a (mapPut (regDefault c) m c (maskReserved c v)) := by
  obtain ⟨w, hw⟩ := h
  by_cases hc : c = a
  · subst hc
    exact tidyAt_put_same c m v
  · refine ⟨w, fun e he hea => ?_⟩
    rcases mem_mapPut he with ⟨rfl, _⟩ | ⟨hm, _⟩
    · exact absurd hea hc
    · exact hw e hm hea

theorem tidyAt_foldl (a : Nat) (f : Nat → Word → Word) (l : List (Nat × Word)) {m : List (Nat × Word)} (h : tidyAt a m) :
    tidyAt a (l.foldl (fun m e => mapPut (regDefault e.1) m e.1 (maskReserved e.1 (f e.1 e.2))) m) := by
  induction l generalizing m with
  | nil => exact h
  | cons e l ih => exact ih (h.put _ _)

theorem tidyAt.run {a : Nat} {s : State} (h : tidyAt a s.regs) (u : Upd) : tidyAt a (u.run s).regs :=
  Upd.induct (P := fun t => tidyAt a t.regs) (fun x t ht => by
    cases x with
    | reg c v => exact ht.put c v
    | regsMap f => exact tidyAt_foldl a f _ ⟨0, fun _ he => by cases he⟩
    | mem => exact ht
    | memDrop => exact ht
    | blocks => exact ht) u h

theorem tidyAt_setReg (a v : Nat) (s : State) : tidyAt a ((setReg a v).run s).regs := tidyAt_put_same a _ _

/-- A pass over all registers that leaves `a` leaves it at the word listed for it. -/
theorem mapGet_foldl_tidy {a : Nat} {f : Nat → Word → Word} (hf : ∀ v, f a v = v) {w : Word} (l m : List (Nat × Word))
    (hl : ∀ e ∈ l, e.1 = a → e.2 = maskReserved a w) :
    mapGet (regDefault a) (l.foldl (fun m e => mapPut (regDefault e.1) m e.1 (maskReserved e.1 (f e.1 e.2))) m) a =
      mapGet (mapGet (regDefault a) m a) l a := by
  induction l generalizing m with
  | nil => rfl
  | cons e l ih =>
    have htail := fun x hx => hl x (List.mem_cons_of_mem e hx)
    rw [List.foldl_cons, ih _ htail]
    obtain ⟨c, v⟩ := e
    by_cases hc : c = a
    · subst hc
      have hv : v = maskReserved c w := hl (c, v) List.mem_cons_self rfl
      rw [mapGet_mapPut_same, hf, hv, maskReserved_idem]
      simp only [mapGet, if_true]
      rcases mapGet_default_or_mem (maskReserved c w) l c with hdef | hmem
      · exact hdef
      · exact htail _ hmem rfl
    · rw [mapGet_mapPut_ne' _ _ _ _ hc]
      simp only [mapGet, hc, if_false]

theorem regsMap_reg {a : Nat} {f : Nat → Word → Word} {s : State} (h : tidyAt a s.regs) (hf : ∀ v, f a v = v) :
    ((Act.regsMap f).run s).reg a = s.reg a := by
  obtain ⟨w, hw⟩ := h
  exact congrArg BitVec.toNat (mapGet_foldl_tidy hf s.regs [] hw)

/-! ## Updates that leave a tidy register -/

/-- In every state where register `a` is tidy, the update leaves it as it was. -/
def KeepsTidy (a : Nat) (u : Upd) : Prop := ∀ s, tidyAt a s.regs → (u.run s).reg a = s.reg a

section
variable {a : Nat} {u v : Upd}

theorem keepsTidy_of_keeps (h : Keeps (·.reg a) u) : KeepsTidy a u := fun s _ => h s

theorem keepsTidy_of_within {p : Nat → Bool} (h : Within p u) (ha : p a = false) : KeepsTidy a u := fun s _ => (h s).reg_eq ha

theorem keepsTidy_skip : KeepsTidy a .skip := fun _ _ => rfl

theorem keepsTidy_seq (hu : KeepsTidy a u) (hv : KeepsTidy a v) : KeepsTidy a (.seq u v) := fun s hs => (hv _ (hs.run u)).trans (hu s hs)

theorem keepsTidy_read {k : State → Upd} (h : ∀ s, KeepsTidy a (k s)) : KeepsTidy a (.read k) := fun s => h s s

theorem keepsTidy_whenU {c : Bool} (h : c = true → KeepsTidy a u) : KeepsTidy a (whenU c u) := by
  cases c
  · exact keepsTidy_skip
  · exact h rfl

theorem keepsTidy_ite {c : Prop} [Decidable c] (hu : c → KeepsTidy a u) (hv : ¬ c → KeepsTidy a v) : KeepsTidy a (if c then u else v) := by
  split
  · exact hu ‹_›
  · exact hv ‹_›

/-- Each update of a list leaves the tidy register; for a list written out, the conjunction of its members' statements. -/
def AllKeepTidy (a : Nat) : List Upd → Prop
  | [] => True
  | [u] => KeepsTidy a u
  | u :: l => KeepsTidy a u ∧ AllKeepTidy a l

theorem keepsTidy_seqs {l : List Upd} (h : AllKeepTidy a l) : KeepsTidy a (seqs l) := by
  induction l with
  | nil => exact keepsTidy_skip
  | cons u l ih =>
    cases l with
    | nil => exact keepsTidy_seq h keepsTidy_skip
    | cons v l =>
      obtain ⟨hu, hl⟩ := h
      exact keepsTidy_seq hu (ih hl)

theorem keepsTidy_forEach {α : Type} {l : List α} {f : α → Upd} (h : ∀ x ∈ l, KeepsTidy a (f x)) : KeepsTidy a (forEach l f) := by
  induction l with
  | nil => exact keepsTidy_skip
  | cons x l ih => exact keepsTidy_seq (h x List.mem_cons_self) (ih fun y hy => h y (List.mem_cons_of_mem x hy))

theorem keepsTidy_upd (f : Blocks → Blocks) : KeepsTidy a (upd f) := keepsTidy_of_keeps (keeps_reg_upd a f)

theorem keeps_reg_setWords (c w : Nat) (vs : List Nat) : Keeps (·.reg a) (setWords c w vs) := by
  induction vs generalizing w with
  | nil => exact keeps_skip
  | cons v vs ih => exact keeps_seq (fun s => by simp only [setMram, store, State.reg, storeBytes_regs]) (ih _)

theorem keepsTidy_resetRegs {p : Nat → Bool} (h : p a = false) : KeepsTidy a (resetRegs p) :=
  keepsTidy_seq (fun _ hs => regsMap_reg hs fun _ => by rw [h]; rfl)
    (keepsTidy_of_keeps (keeps_read fun _ => keeps_whenU fun _ => keeps_reg_upd a _))

end

/-! ## Addresses off the chain's page -/

/-- The registers that are not on the chain's page. -/
def offChain (a : Nat) : Bool := !onPage 13 a

theorem offChain_iff (a : Nat) : offChain a = true ↔ a < 0x30600000 ∨ 0x30610000 ≤ a := by
  rw [offChain, Bool.not_eq_true', onPage_eq_false_iff]
  rfl

/-- Pages and cell pages of the units before the chain lie below its page. -/
theorem offChain_unit {k o : Nat} (hk : k ≤ 12) (ho : o < 0x100000) : offChain (unitBase k + o) = true := by
  rw [offChain_iff]
  unfold unitBase
  split
  · omega
  · split <;> omega

theorem offChain_cell {k c o : Nat} (hk : k ≤ 12) (ho : 0x1000 + (unitCells k).2 * c + o < 0x100000) : offChain (cellBase k c + o) = true := by
  rw [cellBase, Nat.add_assoc, Nat.add_assoc]
  exact offChain_unit hk (by omega)

theorem offChain_lsw {x : Nat} (h : lswPages x = true) : offChain x = true := by
  simp only [lswPages, Bool.and_eq_true, decide_eq_true_eq] at h
  exact (offChain_iff x).mpr (by omega)

theorem offChain_hbr {x : Nat} (h : onPage 14 x = true) : offChain x = true := by
  simp only [onPage, unitBase_mid (k := 14) (by decide) (by decide), Bool.and_eq_true, decide_eq_true_eq] at h
  exact (offChain_iff x).mpr (by omega)

theorem offChain_can {c o : Nat} (hc : c < 16) (ho : o < 512) : offChain (cellBase 9 c + o) = true :=
  offChain_cell (by decide) (by rw [show (unitCells 9).2 = 512 from rfl]; omega)

theorem offChain_lin {n o : Nat} (hn : n < 16) (ho : o < 512) : offChain (cellBase 10 n + o) = true :=
  offChain_cell (by decide) (by rw [show (unitCells 10).2 = 256 from rfl]; omega)

theorem offChain_lswCell {d : Nat} (hd : d < 4) (x o : Nat) : offChain (cellBase (16 + d) x + o) = true := by
  rw [cellBase, unitBase_lsw d (by omega), offChain_iff]
  omega

theorem offChain_inst {n o : Nat} (hn : n < 256) (ho : o < 192) : offChain (cellBase 6 n + o) = true :=
  offChain_cell (by decide) (by rw [show (unitCells 6).2 = 192 from rfl]; omega)

theorem offChain_etp {p o : Nat} (hp : p < 25) (ho : o < 2048) : offChain (cellBase 7 p + o) = true :=
  offChain_cell (by decide) (by rw [show (unitCells 7).2 = 2048 from rfl]; omega)

/-! ## What the reset of bound functions writes off the chain's page -/

section
variable {c : Nat} (hc : c < 16)
include hc

theorem offChain_txbufCode {i : Nat} (hi : i < 32) : offChain (CAN_TXBUF_CODE c (i / 8)) = true := by
  rw [CAN_TXBUF_CODE, Nat.add_assoc]
  exact offChain_can hc (by omega)

theorem within_raiseCan (i : Nat) : Within offChain (raiseCan c i) := within_setBit (offChain_can hc (by decide))

theorem within_putPending (i : Nat) (b : Bool) : Within offChain (putPending c i b) :=
  within_ite (within_putBit (offChain_can hc (by decide))) (within_putBit (offChain_can hc (by decide)))

theorem within_showQueue : Within offChain (showQueue c) := by
  refine within_read fun s => within_seqs ⟨within_set (offChain_can hc (by decide)), within_set (offChain_can hc (by decide)), ?_⟩
  split
  · exact within_set (offChain_can hc (by decide))
  · exact within_skip

theorem within_canState (st : Nat) : Within offChain (canState c st) :=
  within_seqs ⟨within_set (offChain_can hc (by decide)), within_whenU (within_set (offChain_can hc (by decide))),
    within_whenU (within_set (offChain_can hc (by decide))), within_putBit (by decide), within_putBit (by decide)⟩

theorem within_evtAdvance (s : State) (wm : Nat) : Within offChain (fifoAdvance s c 2 wm 25 26) :=
  within_seqs ⟨within_set (offChain_can hc (by decide)), within_set (offChain_can hc (by decide)), within_set (offChain_can hc (by decide)),
    within_raiseCan hc _, within_whenU (within_raiseCan hc _)⟩

end

theorem within_lswAfterReset {g : Nat} (hg : g < 64) (cnt tj wire : Nat) : Within lswPages (lswAfterReset g cnt tj wire) :=
  within_read fun _ => within_seqs ⟨within_upd _, within_set (lswPages_cell hg (by decide)), within_set (lswPages_cell hg (by decide)),
    within_set (lswPages_cell hg (by decide)), within_set (lswPages_cell hg (by decide)),
    within_read fun _ => within_seqs ⟨within_upd _, within_read fun _ => within_set (lswPages_cell hg (by decide))⟩, within_showCh hg⟩

theorem within_raiseIom {n : Nat} (hn : n < 256) (i : Nat) : Within offChain (raiseIom n i) :=
  within_read fun _ => within_seqs ⟨within_setBit (offChain_unit (by decide) (by decide)), within_setBit (offChain_inst hn (by decide)),
    within_whenU ((within_msixSend _ _).mono fun _ => offChain_hbr)⟩

theorem offChain_ring {i : Nat} (hi : i < 32) : offChain (VLT_RING_CFG i) = true := by
  rw [VLT_RING_CFG, Nat.add_assoc]
  exact offChain_unit (by decide) (by omega)

/-- The queue set of an Ethernet port is turned off (R627). -/
theorem within_queuesOff {p q : Nat} (hp : p < 25) (hq : q < 8) : Within offChain (seqs [set (ETP_QTX_BASE_HI_EN p 0 q) 0,
    set (ETP_QRX_BASE_HI_EN p 0 q) 0, ringEnHook p q 0, ringEnHook p (8 + q) 0]) := by
  have hring {o : Nat} (ho : o < 0x600) : offChain (cellBase 7 p + o + 0 * 0 + 32 * q) = true := by
    rw [Nat.mul_zero, Nat.add_zero, Nat.add_assoc]
    exact offChain_etp hp (by omega)
  have hhook (b : Nat) : Within offChain (ringEnHook p b 0) := within_whenU (within_clrBit (offChain_etp hp (by decide)))
  exact within_seqs ⟨within_set (hring (by decide)), within_set (hring (by decide)), hhook _, hhook _⟩

/-- The cells of a binding to load channels are those of one die. -/
theorem mem_cellsOfBind_lsw {arg : Nat} {e : Nat × Nat} (h : e ∈ cellsOfBind 3 arg) : ∃ d x, d < 4 ∧ x < 16 ∧ e = (16 + d, x) := by
  obtain ⟨x, hx, rfl⟩ := List.mem_map.mp h
  exact ⟨bits arg 17 16, x, bits_lt arg 17 16, List.mem_range.mp (List.mem_filter.mp hx).1, rfl⟩

/-! ## The reset of bound functions (R626, R627) -/

section
variable {a : Nat} (ha : onPage 13 a = true)
include ha

theorem offChain_eq_false : offChain a = false := by rw [offChain, ha, Bool.not_true]

theorem keepsTidy_of_offChain {u : Upd} (h : Within offChain u) : KeepsTidy a u := keepsTidy_of_within h (offChain_eq_false ha)

theorem keepsTidy_set {f : Fld} (h : offChain f.reg = true) (v : Nat) : KeepsTidy a (set f v) := keepsTidy_of_offChain ha (within_set h)

/-! ### Cells (R81) -/

section
variable {k c : Nat} (hc : ∀ o < 512, offChain (cellBase k c + o) = true)
include hc

/-- A cell whose page lies off the chain's. -/
theorem onCell_eq_false (hw : (unitCells k).2 ≤ 512) : onCell k c a = false := by
  rw [Bool.eq_false_iff]
  intro hon
  simp only [onCell, Bool.and_eq_true, decide_eq_true_eq] at hon
  obtain ⟨hlo, hhi⟩ := hon
  have hoff := hc (a - cellBase k c) (by omega)
  rw [Nat.add_sub_cancel' hlo, offChain_eq_false ha] at hoff
  cases hoff

theorem keepsTidy_cellDrained (hw : (unitCells k).2 ≤ 512) (keep : List Nat) {rst : Upd} (hr : KeepsTidy a rst) :
    KeepsTidy a (cellDrained k c keep rst) := by
  have hset : cellResetSet k c keep a = false := by rw [cellResetSet, onCell_eq_false ha hc hw, Bool.false_and]
  exact keepsTidy_read fun _ => keepsTidy_seqs ⟨keepsTidy_set ha (hc _ (by decide)) _,
    keepsTidy_whenU fun _ => keepsTidy_seqs ⟨keepsTidy_resetRegs hset, hr, keepsTidy_set ha (hc _ (by decide)) _⟩,
    keepsTidy_read fun _ => keepsTidy_whenU fun _ => keepsTidy_set ha (hc _ (by decide)) _⟩

theorem keepsTidy_cellDrain (busy : State → Bool) {fin : Upd} (hf : KeepsTidy a fin) : KeepsTidy a (cellDrain k c busy fin) :=
  keepsTidy_seq (keepsTidy_set ha (hc _ (by decide)) _) (keepsTidy_read fun _ =>
    keepsTidy_ite (fun _ => keepsTidy_set ha (hc _ (by decide)) _) fun _ => hf)

theorem keepsTidy_boundRst {stop : Upd} (hs : KeepsTidy a stop) : KeepsTidy a (boundRst k c stop) :=
  keepsTidy_read fun _ => keepsTidy_whenU fun _ => keepsTidy_seqs ⟨keepsTidy_set ha (hc _ (by decide)) _,
    keepsTidy_set ha (hc _ (by decide)) _, keepsTidy_whenU fun _ => hs⟩

end

/-! ### CAN channels (R376, R403) -/

section
variable {c : Nat} (hc : c < 16)
include hc

/-- The event of a transmission goes to the message RAM. -/
theorem keepsTidy_txEvent (i code : Nat) : KeepsTidy a (txEvent c i code) :=
  keepsTidy_read fun s => keepsTidy_ite
    (fun _ => keepsTidy_of_offChain ha (within_seq (within_inc (offChain_can hc (by decide))) (within_raiseCan hc _)))
    fun _ => keepsTidy_seqs ⟨keepsTidy_of_keeps (keeps_reg_setWords _ _ _), keepsTidy_of_offChain ha (within_evtAdvance hc s _)⟩

theorem keepsTidy_endSlot (i code : Nat) : KeepsTidy a (endSlot c i code) :=
  keepsTidy_read fun _ => keepsTidy_seqs ⟨keepsTidy_whenU fun _ => keepsTidy_txEvent ha hc _ _,
    keepsTidy_of_offChain ha (within_putPending hc _ _),
    keepsTidy_ite (fun hi => keepsTidy_of_offChain ha (within_seq (within_set (offChain_txbufCode hc hi))
      (within_setBit (offChain_can hc (by decide))))) (fun _ => keepsTidy_of_offChain ha (within_showQueue hc)),
    keepsTidy_of_offChain ha (within_whenU (within_raiseCan hc _)), keepsTidy_of_offChain ha (within_whenU (within_raiseCan hc _)),
    keepsTidy_upd _⟩

theorem keepsTidy_canDisable : KeepsTidy a (canDisable c) :=
  have hcell : ∀ o < 512, offChain (cellBase 9 c + o) = true := fun _ ho => offChain_can hc ho
  keepsTidy_read fun _ => keepsTidy_seqs ⟨keepsTidy_read fun _ => keepsTidy_forEach fun _ _ => keepsTidy_endSlot ha hc _ _,
    keepsTidy_upd _, keepsTidy_of_offChain ha (within_whenU (within_count (by decide))), keepsTidy_set ha (hcell _ (by decide)) _,
    keepsTidy_of_offChain ha (within_canState hc _), keepsTidy_whenU fun _ => keepsTidy_set ha (hcell _ (by decide)) _,
    keepsTidy_cellDrain ha hcell _ (keepsTidy_cellDrained ha hcell (by decide) _ (keepsTidy_seq (keepsTidy_upd _) keepsTidy_skip))⟩

end

/-! ### LIN channels (R415) -/

theorem keepsTidy_linDisable {n : Nat} (hn : n < 16) : KeepsTidy a (linDisable n) := by
  have hcell : ∀ o < 512, offChain (cellBase 10 n + o) = true := fun _ ho => offChain_lin hn ho
  have hset {o : Nat} (ho : o < 512) (hi lo v : Nat) : KeepsTidy a (set ⟨cellBase 10 n + o, hi, lo⟩ v) := keepsTidy_set ha (hcell o ho) v
  have hsetReg {o : Nat} (ho : o < 512) (v : Nat) : KeepsTidy a (setReg (cellBase 10 n + o) v) :=
    keepsTidy_of_offChain ha (within_setReg (hcell o ho))
  exact keepsTidy_read fun _ => keepsTidy_seqs ⟨keepsTidy_seq (hset (by decide) _ _ _) (keepsTidy_upd _), hsetReg (by decide) _,
    hsetReg (by decide) _, keepsTidy_upd _, keepsTidy_whenU fun _ => keepsTidy_upd _,
    keepsTidy_cellDrain ha hcell _ (keepsTidy_seq (keepsTidy_cellDrained ha hcell (by decide) _ (keepsTidy_upd _))
      (keepsTidy_read fun _ => hset (by decide) _ _ _))⟩

/-! ### Load channels (R303) -/

section
variable {g : Nat} (hg : g < 64)
include hg

theorem keepsTidy_lswDisable : KeepsTidy a (lswDisable g) := by
  have hlsw {u : Upd} (h : Within lswPages u) : KeepsTidy a u := keepsTidy_of_offChain ha (h.mono fun _ => offChain_lsw)
  have hcell : ∀ o < 512, offChain (cellBase (lswUnit g) (g % 16) + o) = true := fun o _ => offChain_lswCell (by omega) _ o
  have hsize : (unitCells (lswUnit g)).2 ≤ 512 := by rw [lswUnit, unitCells_lsw _ (by omega)]; decide
  refine keepsTidy_read fun s => ?_
  have hl := lead_lt s hg
  exact keepsTidy_seqs ⟨hlsw (within_turnOff hl _ _), hlsw (within_testAbandon hl), hlsw (within_set (lswPages_cell hg (by decide))),
    hlsw (within_set (lswPages_cell hl (by decide))), hlsw (within_set (lswPages_cell hg (by decide))), keepsTidy_upd _,
    keepsTidy_cellDrain ha hcell _ (keepsTidy_read fun _ => keepsTidy_cellDrained ha hcell hsize _ (hlsw (within_lswAfterReset hg _ _ _))),
    hlsw (within_showLoad hl), hlsw (within_showCh hg)⟩

end

/-! ### The bound function, and the owner (R626, R627) -/

theorem keepsTidy_instResolve (n : Nat) : KeepsTidy a (instResolve n) := by
  refine keepsTidy_read fun s => ?_
  dsimp only
  split
  case h_1 =>
    have hc := Nat.mod_lt (s.instArg n) (show 0 < 16 by decide)
    exact keepsTidy_boundRst ha (fun _ ho => offChain_can hc ho) (keepsTidy_canDisable ha hc)
  case h_2 =>
    have hc := Nat.mod_lt (s.instArg n) (show 0 < 16 by decide)
    exact keepsTidy_boundRst ha (fun _ ho => offChain_lin hc ho) (keepsTidy_linDisable ha hc)
  case h_3 =>
    refine keepsTidy_forEach fun e he => ?_
    obtain ⟨d, x, hd, hx, rfl⟩ := mem_cellsOfBind_lsw he
    exact keepsTidy_boundRst ha (fun o _ => offChain_lswCell hd x o) (keepsTidy_lswDisable ha (by omega))
  case h_4 =>
    have hp := bits_lt (s.instArg n) 8 8
    exact keepsTidy_of_offChain ha (within_queuesOff (by omega) (Nat.mod_lt _ (by decide)))
  case h_5 => exact keepsTidy_upd _
  case h_6 => exact keepsTidy_set ha (offChain_ring (Nat.mod_lt _ (by decide))) _
  case h_7 => exact keepsTidy_skip

theorem keepsTidy_instBegin {n : Nat} (hn : n < 256) : KeepsTidy a (instBegin n) :=
  keepsTidy_read fun _ => keepsTidy_whenU fun _ => keepsTidy_seqs ⟨keepsTidy_set ha (offChain_inst hn (by decide)) _,
    keepsTidy_whenU fun _ => keepsTidy_of_offChain ha (within_seq (within_set (by decide)) (within_set (by decide))),
    keepsTidy_set ha (offChain_inst hn (by decide)) _, keepsTidy_upd _, keepsTidy_instResolve ha n⟩

theorem keepsTidy_ownerLost {n : Nat} (hn : n < 256) : KeepsTidy a (ownerLost n) :=
  keepsTidy_seqs ⟨keepsTidy_set ha (offChain_inst hn (by decide)) _, keepsTidy_of_offChain ha (within_raiseIom hn _), keepsTidy_upd _,
    keepsTidy_instBegin ha hn⟩

end

/-! ## The break (R576) -/

section
variable (c : Fin 2)

/-- The chain's own registers, which lie below the cell pages of the ports. -/
theorem chainReg_ne_linkIrq {o : Nat} (ho : o < 0x1000) : unitBase 13 + o ≠ CELL_IRQ_STAT 13 c := by
  simp only [CELL_IRQ_STAT, cellBase]
  omega

theorem keepsTidy_setChain {o : Nat} (ho : o < 0x1000) (hi lo v : Nat) : KeepsTidy (CELL_IRQ_STAT 13 c) (set ⟨unitBase 13 + o, hi, lo⟩ v) :=
  keepsTidy_of_keeps (keeps_reg_set v (chainReg_ne_linkIrq c ho))

theorem keepsTidy_setReach (m : Nat) : KeepsTidy (CELL_IRQ_STAT 13 c) (setReach m) := by
  have hirq : onPage 13 (CELL_IRQ_STAT 13 c) = true := onPage_flkCell c (by decide)
  exact keepsTidy_read fun _ => keepsTidy_seqs ⟨keepsTidy_of_keeps (keeps_seq (keeps_reg_setReg _ (chainReg_ne_linkIrq c (by decide)))
      (keeps_reg_setReg _ (chainReg_ne_linkIrq c (by decide)))), keepsTidy_setChain c (by decide) _ _ _,
    keepsTidy_forEach fun _ hn => keepsTidy_read fun _ => keepsTidy_whenU fun _ => keepsTidy_ownerLost hirq (List.mem_range.mp hn)⟩

theorem keepsTidy_breakReach (m : Nat) (ring : Bool) : KeepsTidy (CELL_IRQ_STAT 13 c) (breakReach m ring) :=
  keepsTidy_read fun _ => keepsTidy_seq (keepsTidy_whenU fun _ => keepsTidy_upd _) (keepsTidy_setReach c m)

/-- An event of a port shows until something writes its register. -/
theorem raiseLink_stays {i : Nat} (hi : i < 4) {u : Upd} (h : KeepsTidy (CELL_IRQ_STAT 13 c) u) (s : State) :
    (u.run ((raiseCell 13 c i).run s)).bitAt (CELL_IRQ_STAT 13 c) i = true :=
  (bitAt_of_reg_eq (h _ (tidyAt_setReg _ _ s)) i).trans (raiseLink_bitAt_same c hi s)

theorem linkBreak_event (s : State) : ((linkBreak c).run s).bitAt (CELL_IRQ_STAT 13 c) 0 = true := by
  simp only [linkBreak, Upd.run_read, seqs_cons_run, seqs_nil_run]
  rw [bitAt_of_reg_eq (showRole_reg_ne (devRole_ne_linkIrq c) _)]
  refine raiseLink_stays c (by decide) ?_ _
  exact keepsTidy_whenU fun _ => keepsTidy_seqs ⟨keepsTidy_setChain c (by decide) _ _ _,
    keepsTidy_setChain c (by decide) _ _ _, keepsTidy_of_keeps (keeps_read fun _ => keeps_reg_setReg _ (chainReg_ne_linkIrq c (by decide))),
    keepsTidy_breakReach c _ _, keepsTidy_whenU fun _ => keepsTidy_setChain c (by decide) _ _ _,
    keepsTidy_whenU fun _ => keepsTidy_upd _⟩

theorem portDown_of_up {c : Nat} {s : State} (h : s.portUp c = true) (st : Nat) :
    (portDown c st).run s = (linkBreak c).run ((set (FLK_LINK_STAT_STATE c) st).run s) := by
  rw [portDown, Upd.run_read, h, whenU_true, Upd.run_seq]

theorem finzaLinkDown_breaks {s : State} (h : s.portUp c = true) : ∃ t, Completes (.finzaLinkDown c) s t ∧ t = (portDown c 6).run s ∧
    t.bitAt (CELL_IRQ_STAT 13 c) 0 = true := by
  have hdone : Completes (.finzaLinkDown c) s ((finzaLinkDown c).run s) := completes_of_finish rfl
  rw [finzaLinkDown, Upd.run_read, h, whenU_true] at hdone
  refine ⟨_, hdone, rfl, ?_⟩
  rw [portDown_of_up h]
  exact linkBreak_event c _

end

end Sys2Proof.Machine

open Sys2Proof Sys2Proof.Machine

/-- Settles O36: each command completes with its operation, which its conditions reduce to the effect stated; after the break of a link
nothing writes the events of its port. -/
theorem chainLinkEvents : Obligations.ChainLinkEvents := by
  refine ⟨?wrong, ?right, ?trainTimeout, ?downRetry, ?widthRetry, ?replayTimeout, ?rxTimeout, ?ackTimer, ?linkDown, ?irqFall, ?faultLow⟩
  case wrong => exact fun _ _ _ _ _ _ _ hon hen h0 h4 hw hl hp => finzaTrained_wrong hon hen h0 h4 hw hl hp
  case right => exact fun _ _ _ _ _ _ hon hen h5 hl hp => finzaTrained_right hon hen h5 hl hp
  case trainTimeout => exact fun _ _ h => finzaTrainTimeout_breaks h
  case downRetry => exact fun _ _ h => finzaDownRetry_empties h
  case widthRetry => exact fun _ _ hw h => finzaWidthRetry_retrains hw h
  case replayTimeout => exact fun _ _ h4 hu h => finzaReplayTimeout_replays h4 hu h
  case rxTimeout => exact fun _ _ h => finzaRxTimeout_counts h
  case ackTimer => exact fun c s => finzaAckTimer_acknowledges c s
  case linkDown => exact fun c _ h => finzaLinkDown_breaks c h
  case irqFall => exact fun _ hm h => sidebandIrqFall_raises hm h
  case faultLow => exact fun _ hm h => sidebandFaultLow_reports hm h
end

section
/-!
Completion of the commands of the networks, the chain, the host bridge and the instances.
-/
open Sys2Proof Sys2Proof.Machine

/-- Settles O58: each command's meaning is its operation finished. -/
theorem networksSignalsComplete : Obligations.NetworksSignalsComplete := by
  unfold Obligations.NetworksSignalsComplete
  and_intros <;> intros <;> exact completes_of_finish rfl

/-- Settles O59: each command's meaning is its operation finished. -/
theorem wakeChainHostInstancesComplete : Obligations.WakeChainHostInstancesComplete := by
  unfold Obligations.WakeChainHostInstancesComplete
  and_intros <;> intros <;> exact completes_of_finish rfl
end

section
/-!
Where the registers of a block's page and of its cells' pages lie, for every cell at once (R50, R58, R68), and the path of an accepted
write to its register (R62, R76 to R79).
-/
namespace Sys2Proof.Machine

/-! ## The register at an offset of a page -/

section
variable {k c o : Nat} (hk : k ≤ 22)
include hk

theorem unitOf_unitBase (ho : o < 0x10000) : unitOf (unitBase k + o) = some (k, o) := by
  rcases Nat.lt_or_ge k 7 with h | h
  · rw [unitBase_low (by omega), unitOf, if_neg (by omega), if_neg (by omega), if_neg (by omega), if_neg (by omega), if_neg (by omega),
      if_pos (by omega)]
    congr 2 <;> omega
  rcases Nat.lt_or_ge k 16 with h2 | h2
  · rw [unitBase_mid h (by omega), unitOf, if_neg (by omega), if_neg (by omega), if_neg (by omega), if_neg (by omega), if_neg (by omega),
      if_neg (by omega), if_pos (by omega)]
    congr 2 <;> omega
  rcases Nat.lt_or_ge k 22 with h3 | h3
  · obtain ⟨d, rfl⟩ := Nat.exists_eq_add_of_le h2
    rw [unitBase_lsw d (by omega), unitOf, if_neg (by omega), if_neg (by omega), if_neg (by omega), if_neg (by omega), if_neg (by omega),
      if_neg (by omega), if_neg (by omega), if_pos (by omega)]
    congr 2 <;> omega
  · obtain rfl : k = 22 := by omega
    rw [show unitBase 22 = 0x50000000 from rfl, unitOf, if_neg (by omega), if_neg (by omega), if_neg (by omega), if_neg (by omega),
      if_neg (by omega), if_neg (by omega), if_neg (by omega), if_neg (by omega), if_pos (by omega)]
    congr 2; omega

theorem unitBase_aligned : unitBase k % 4 = 0 := by
  simp only [unitBase]
  split_ifs <;> omega

omit hk in
/-- The cells of a block lie within its page. -/
theorem cells_onPage (hc : c < (unitCells k).1) (ho : o < (unitCells k).2) : 0x1000 + (unitCells k).2 * c + o < 0x10000 := by
  unfold unitCells at *
  split at hc <;> simp only at ho ⊢ <;> omega

omit hk in
theorem cellStride_aligned : (unitCells k).2 % 4 = 0 := by
  unfold unitCells
  split <;> rfl

theorem locate_cell (hc : c < (unitCells k).1) (ho : o < (unitCells k).2) (h4 : o % 4 = 0) :
    locate (cellBase k c + o) = (rowAt (cellRows k) o).map fun r => ⟨k, some c, o, r⟩ := by
  have hpage := cells_onPage hc ho
  have hal := unitBase_aligned hk
  have hst := Nat.mul_mod (unitCells k).2 c 4
  rw [cellStride_aligned, Nat.zero_mul, Nat.zero_mod] at hst
  have hpos : 0 < (unitCells k).2 := by omega
  have hdiv : ((unitCells k).2 * c + o) / (unitCells k).2 = c := by
    rw [Nat.mul_add_div hpos, Nat.div_eq_of_lt ho, Nat.add_zero]
  have hmod : ((unitCells k).2 * c + o) % (unitCells k).2 = o := by rw [Nat.mul_add_mod, Nat.mod_eq_of_lt ho]
  have hoff : 0x1000 + (unitCells k).2 * c + o - 0x1000 = (unitCells k).2 * c + o := by omega
  rw [cellBase, Nat.add_assoc, Nat.add_assoc, ← Nat.add_assoc 0x1000, locate, if_neg (by omega), unitOf_unitBase hk hpage]
  dsimp only
  rw [if_pos ⟨by omega, by omega⟩, hoff, hdiv, hmod, if_pos hc]
  rfl

theorem locate_page (ho : o < 0x1000) (h4 : o % 4 = 0) :
    locate (unitBase k + o) = (rowAt (pageRows k) o).map fun r => ⟨k, none, o, r⟩ := by
  have hal := unitBase_aligned hk
  rw [locate, if_neg (by omega), unitOf_unitBase hk (by omega)]
  dsimp only
  rw [if_neg (by omega)]
  rfl

end

/-! ## Fields of a page's registers -/

/-- The register at offset `o` among `rows` defines the bits `hi:lo`. -/
def fieldAt (rows : List Row) (o hi lo : Nat) : Bool :=
  decide (lo ≤ hi) && decide (hi < 32) && (rowAt rows o).any fun r => bits r.mask hi lo == 2 ^ (hi - lo + 1) - 1

theorem fits_of_locate {a o hi lo : Nat} {rows : List Row} {f : Row → Loc} (hl : locate a = (rowAt rows o).map f) (hf : ∀ r, (f r).row = r)
    (h : fieldAt rows o hi lo = true) : (⟨a, hi, lo⟩ : Fld).fits = true := by
  simp only [fieldAt, Bool.and_eq_true, Option.any_eq_true_iff_get] at h
  obtain ⟨⟨hlo, hhi⟩, hr, hbits⟩ := h
  obtain ⟨r, hr'⟩ := Option.isSome_iff_exists.mp hr
  simp only [hr', Option.get_some] at hbits
  simp only [Fld.fits, regMask, hl, hr', Option.map_some, hf, hlo, hhi, hbits, Bool.and_self]

section
variable {k c o hi lo : Nat} (hk : k ≤ 22)
include hk

theorem fits_cell (hc : c < (unitCells k).1) (ho : o < (unitCells k).2) (h4 : o % 4 = 0) (h : fieldAt (cellRows k) o hi lo = true) :
    (⟨cellBase k c + o, hi, lo⟩ : Fld).fits = true := fits_of_locate (locate_cell hk hc ho h4) (fun _ => rfl) h

theorem fits_page (ho : o < 0x1000) (h4 : o % 4 = 0) (h : fieldAt (pageRows k) o hi lo = true) : (⟨unitBase k + o, hi, lo⟩ : Fld).fits = true :=
  fits_of_locate (locate_page hk ho h4) (fun _ => rfl) h

end

/-! ## The path of an accepted write -/

/-- A unit's register page lies in no memory and in no window. -/
theorem placeOf_of_unitOf {a k o : Nat} (h : unitOf a = some (k, o)) : placeOf a = .page k := by
  have hr : (0x10000000 ≤ a ∧ a < 0x28000000) ∨ (0x2B000000 ≤ a ∧ a < 0x2B400000) ∨ (0x2B401000 ≤ a ∧ a < 0x31000000) ∨
      (0x40000000 ≤ a ∧ a < 0x51000000) := by
    simp only [unitOf] at h
    split_ifs at h <;> omega
  have hw : windowWord a = false := by
    simp only [windowWord, Bool.or_eq_false_iff, Bool.and_eq_false_iff, decide_eq_false_iff_not]
    omega
  rw [placeOf, if_neg (by omega), if_neg (by omega), if_neg (by omega), if_neg (by omega), if_neg (by omega), if_neg (by omega),
    if_neg (by omega), if_neg (by omega), if_neg (by omega), if_neg (by simp [hw]), h]

theorem placeOf_of_locate {a : Nat} {l : Loc} (h : locate a = some l) : placeOf a = .page l.unit := by
  unfold locate at h
  split at h
  · cases h
  split at h
  · cases h
  next k o hu =>
    rw [placeOf_of_unitOf hu]
    dsimp only at h
    split at h
    · split at h
      · obtain ⟨r, _, rfl⟩ := Option.map_eq_some_iff.mp h
        rfl
      · cases h
    · obtain ⟨r, _, rfl⟩ := Option.map_eq_some_iff.mp h
      rfl

section
variable {pid : Pid} {a v : Nat} {l : Loc} {s : State} (hl : locate a = some l)
include hl

/-- What `accepts` says of a located register. -/
theorem accepts_iff : s.accepts pid a v = true ↔ s.pwr ≤ 1 ∧ s.checkAt (pid, true) a 4 1 = 0 ∧ s.writeCause false pid a v = 0 ∧
    s.closed l = false ∧ s.frozenReg l = false ∧ s.noSet l = false ∧ s.unarmed (if 32 ≤ l.unit then 6 else l.unit) = true := by
  simp only [State.accepts, hl, Bool.and_eq_true, decide_eq_true_eq, beq_iff_eq, Bool.not_eq_true', and_assoc]

theorem touched_of_locate (h32 : l.unit ≠ 32) : ∃ c, touched a = some (if 32 ≤ l.unit then 6 else l.unit, c) := by
  obtain ⟨hlt, _⟩ := locate_eq_some hl
  rw [touched, placeOf_of_locate hl]
  by_cases h33 : l.unit = 33
  · exact ⟨none, by simp only [h33]; rfl⟩
  · refine ⟨l.cell, ?_⟩
    rw [if_neg (by omega), hl]
    generalize l.unit = k at *
    split <;> simp_all

/-- An accepted write takes effect and is answered without error. -/
theorem put_of_accepts (h32 : l.unit ≠ 32) (h : s.accepts pid a v = true) :
    (put pid a v).run s = (Upd.seq (applyWrite .loc false pid a v) (answer (okResp []))).run s := by
  obtain ⟨hp, hcheck, hcause, _, _, _, hu⟩ := (accepts_iff hl).mp h
  obtain ⟨c, ht⟩ := touched_of_locate hl h32
  rw [put, wordAccess_of_admitted hp hcheck,
    wordWrite_of_accepted (pageFire_of_unarmed ht hu) (placeOf_of_locate hl) h32 answer hcause]

/-- A write that the register's unit takes without storing it. -/
theorem applyWrite_of_silent {u : Upd} (h : s.accepts pid a v = true) (hpre : s.preWrite .loc false pid a v l = (none, u)) :
    (applyWrite .loc false pid a v).run s = u.run s := by
  obtain ⟨_, _, _, hclosed, hfrozen, hset, _⟩ := (accepts_iff hl).mp h
  simp only [applyWrite, Upd.run_read, hl, hclosed, hfrozen, hset, hpre, Bool.false_eq_true, or_self, if_false, Upd.run_seq, Upd.run_skip]

/-- What a stored write starts. -/
def writeStarts (l : Loc) (pid a old v : Nat) : Upd := seqs [headerHook l old v, hookC l pid a old v, hookN l pid old v, hookP l old v]

theorem stored_run : (stored a v).run s = (setReg a (l.row.store (s.reg a) v)).run s := by
  simp only [stored, Upd.run_read, hl]

/-- A write that is stored field by field before what it starts. -/
theorem applyWrite_of_stored (h : s.accepts pid a v = true) (hpre : s.preWrite .loc false pid a v l = (some v, .skip))
    (hkeep : keepsWritten l = false) (h27 : l.unit ≠ 27) :
    (applyWrite .loc false pid a v).run s = (writeStarts l pid a (s.reg a) v).run ((stored a v).run s) := by
  obtain ⟨_, _, _, hclosed, hfrozen, hset, _⟩ := (accepts_iff hl).mp h
  simp only [applyWrite, Upd.run_read, hl, hclosed, hfrozen, hset, hpre, hkeep, h27, Bool.false_eq_true, or_self, false_and, if_false,
    Upd.run_seq, Upd.run_skip, stored_run hl, writeStarts, seqs_cons_run, seqs_nil_run]

/-! ### The commands that write a register -/

variable {c : Instr} {u : Upd} (hx : exec c s = finish (put pid a v) s) (h32 : l.unit < 27)
include hx h32

theorem writesAll_of_silent (hpre : s.preWrite .loc false pid a v l = (none, u)) : WritesAll c pid a v u s := fun h => by
  have hdone := completes_of_finish hx
  rwa [put_of_accepts hl (by omega) h, Upd.run_seq, applyWrite_of_silent hl h hpre] at hdone

theorem writesAll_of_stored (hpre : s.preWrite .loc false pid a v l = (some v, .skip)) (hkeep : keepsWritten l = false)
    (hu : (writeStarts l pid a (s.reg a) v).run ((stored a v).run s) = u.run s) : WritesAll c pid a v u s := fun h => by
  have hdone := completes_of_finish hx
  rwa [put_of_accepts hl (by omega) h, Upd.run_seq, applyWrite_of_stored hl h hpre hkeep (by omega), hu] at hdone

end

/-- A register beyond the header starts nothing of the header's. -/
theorem headerHook_of_beyond {k o : Nat} (ho : 0x40 ≤ o) (r : Row) (old v : Nat) : headerHook ⟨k, none, o, r⟩ old v = .skip := by
  simp only [headerHook]
  split <;> simp_all

/-! ### Registers of a block's page and of its cells' pages -/

section
variable {k c o v : Nat} {pid : Pid} {x : Instr} {u : Upd} {s : State} (hk : k ≤ 22)
include hk

section
variable (ho : o < 0x1000) (h4 : o % 4 = 0) (hrow : (rowAt (pageRows k) o).isSome = true) (hx : exec x s = finish (put pid (unitBase k + o) v) s)
include ho h4 hrow hx

theorem writesAll_page_silent (hpre : ∀ r, s.preWrite .loc false pid (unitBase k + o) v ⟨k, none, o, r⟩ = (none, u)) :
    WritesAll x pid (unitBase k + o) v u s := by
  obtain ⟨r, hr⟩ := Option.isSome_iff_exists.mp hrow
  exact writesAll_of_silent (by rw [locate_page hk ho h4, hr]; rfl) hx (Nat.lt_of_le_of_lt hk (by decide)) (hpre r)

theorem writesAll_page_stored (hpre : ∀ r, s.preWrite .loc false pid (unitBase k + o) v ⟨k, none, o, r⟩ = (some v, .skip))
    (hkeep : ∀ r, keepsWritten ⟨k, none, o, r⟩ = false)
    (hu : ∀ r, (writeStarts ⟨k, none, o, r⟩ pid (unitBase k + o) (s.reg (unitBase k + o)) v).run ((stored (unitBase k + o) v).run s) = u.run s) :
    WritesAll x pid (unitBase k + o) v u s := by
  obtain ⟨r, hr⟩ := Option.isSome_iff_exists.mp hrow
  exact writesAll_of_stored (by rw [locate_page hk ho h4, hr]; rfl) hx (Nat.lt_of_le_of_lt hk (by decide)) (hpre r) (hkeep r) (hu r)

end

section
variable (hc : c < (unitCells k).1) (ho : o < (unitCells k).2) (h4 : o % 4 = 0) (hrow : (rowAt (cellRows k) o).isSome = true)
  (hx : exec x s = finish (put pid (cellBase k c + o) v) s)
include hc ho h4 hrow hx

theorem writesAll_cell_silent (hpre : ∀ r, s.preWrite .loc false pid (cellBase k c + o) v ⟨k, some c, o, r⟩ = (none, u)) :
    WritesAll x pid (cellBase k c + o) v u s := by
  obtain ⟨r, hr⟩ := Option.isSome_iff_exists.mp hrow
  exact writesAll_of_silent (by rw [locate_cell hk hc ho h4, hr]; rfl) hx (Nat.lt_of_le_of_lt hk (by decide)) (hpre r)

theorem writesAll_cell_stored (hpre : ∀ r, s.preWrite .loc false pid (cellBase k c + o) v ⟨k, some c, o, r⟩ = (some v, .skip))
    (hkeep : ∀ r, keepsWritten ⟨k, some c, o, r⟩ = false)
    (hu : ∀ r, (writeStarts ⟨k, some c, o, r⟩ pid (cellBase k c + o) (s.reg (cellBase k c + o)) v).run ((stored (cellBase k c + o) v).run s) = u.run s) :
    WritesAll x pid (cellBase k c + o) v u s := by
  obtain ⟨r, hr⟩ := Option.isSome_iff_exists.mp hrow
  exact writesAll_of_stored (by rw [locate_cell hk hc ho h4, hr]; rfl) hx (Nat.lt_of_le_of_lt hk (by decide)) (hpre r) (hkeep r) (hu r)

end

end

theorem writes_of_writesAll {c : Instr} {pid a v : Nat} {u : Upd} {p : Nat → Bool} {s : State} (h : WritesAll c pid a v u s) (hu : Within p u) :
    Writes c pid a v u p s := fun ha => ⟨h ha, within_seq hu (within_answer _) s⟩

theorem within_stored {p : Nat → Bool} {a : Nat} (h : p a = true) (v : Nat) : Within p (stored a v) := by
  refine within_read fun s => ?_
  split
  · exact within_skip
  · exact within_setReg h

end Sys2Proof.Machine
end

section
/-!
The commands that write network management, the chain and the host bridge (R543 to R602): each register's hook is what the write starts.
-/
namespace Sys2Proof.Machine

/-! ## Footprints of the hooks -/

/-- The log of network management shows on its own page. -/
theorem within_showLog_nmc : Within (onPage 15) showLog := by
  refine within_read fun _ => within_seqs ⟨within_set (by decide), within_forN fun i hi => within_setReg ?_⟩
  have h : ∀ i < 4, onPage 15 (NMC_LOG_HEAD i) = true := by decide
  exact h i hi

theorem within_nmLogPopHook : Within (onPage 15) nmLogPopHook := within_seqs ⟨within_upd _, within_set (by decide), within_showLog_nmc⟩

theorem within_retrain (c : Fin 2) : Within (onPage 13) (retrain c) :=
  within_read fun _ => within_whenU (within_seq (within_setLink c _ _ _) (within_count (onPage_flkCell c (by decide))))

theorem within_linkCtrlHook (c : Fin 2) (v : Nat) : Within (onPage 13) (linkCtrlHook c v) :=
  within_seq (within_set (onPage_flkCell c (by decide))) (within_whenU (within_retrain c))

/-- A write of a semaphore touches that semaphore's register alone. -/
theorem within_semHook (i : Nat) (o : Origin) (pid v : Nat) : Within (· == HBR_SEM i) (semHook i o pid v) :=
  within_read fun _ => within_ite (within_setReg (beq_self_eq_true _)) (within_whenU (within_setReg (beq_self_eq_true _)))

/-! ## The registers of an NM channel -/

/-- What a write of an NM channel's register starts, by the register's offset among the channel's. -/
def nmChStarts (c o old v : Nat) : Upd := match o with
  | 0x14 => nmReqHook c v old
  | 0x18 => nmSreqHook c v old
  | 0x38 => ignClearHook c
  | _ => .skip

theorem hookN_nmCh {c o : Nat} (ho : o < 64) (hc : c < 36) (r : Row) (pid old v : Nat) :
    hookN ⟨15, none, 0x400 + 64 * c + o, r⟩ pid old v = nmChStarts c o old v := by
  have hdiv : (0x400 + 64 * c + o - 0x400) / 64 = c := by omega
  have hmod : (0x400 + 64 * c + o) % 64 = o := by omega
  simp only [hookN]
  rw [if_neg (by omega), if_neg (by omega), if_neg (by omega), if_neg (by omega), if_pos (by omega), hdiv, hmod]
  rfl

theorem rowAt_nmCh : ∀ c : Fin 36, ∀ o ∈ [0x14, 0x18, 0x38], (rowAt (pageRows 15) (0x400 + 64 * c + o)).isSome = true := by decide

theorem nmCh_addr (c o : Nat) : unitBase 15 + (0x400 + o) + 64 * c = unitBase 15 + (0x400 + 64 * c + o) := by omega

theorem writesAll_nmCh (o : Nat) {c : Fin 36} {a v : Nat} {pid : Pid} {x : Instr} {s : State} (ha : a = unitBase 15 + (0x400 + o) + 64 * c)
    (hx : exec x s = finish (put pid a v) s) (ho : o ∈ [0x14, 0x18, 0x38]) :
    WritesAll x pid a v (seqs [stored a v, nmChStarts c o (s.reg a) v]) s := by
  have ho' : o < 64 ∧ o % 4 = 0 := by simp only [List.mem_cons, List.not_mem_nil, or_false] at ho; omega
  subst ha
  rw [nmCh_addr] at hx ⊢
  refine writesAll_page_stored (by decide) (by omega) (by omega) (rowAt_nmCh c o ho) hx (fun _ => rfl) (fun _ => rfl) fun r => ?_
  rw [writeStarts, headerHook_of_beyond (by omega), hookN_nmCh ho'.1 c.isLt]
  rfl

/-- A register of network management below the channels', whose write is stored and starts its hook. -/
theorem writesAll_nmc {v : Nat} {pid : Pid} {x : Instr} {u : Upd} {s : State} (o : Nat) (ho : o < 0x1000 ∧ o % 4 = 0)
    (hrow : (rowAt (pageRows 15) o).isSome = true) (hx : exec x s = finish (put pid (unitBase 15 + o) v) s)
    (hu : ∀ r, (writeStarts ⟨15, none, o, r⟩ pid (unitBase 15 + o) (s.reg (unitBase 15 + o)) v).run ((stored (unitBase 15 + o) v).run s) = u.run s) :
    WritesAll x pid (unitBase 15 + o) v u s :=
  writesAll_page_stored (by decide) ho.1 ho.2 hrow hx (fun _ => rfl) (fun _ => rfl) hu

/-! ## Semaphores (R602) -/

theorem rowAt_sem : ∀ i : Fin 64, (rowAt (pageRows 14) (0x200 + 4 * i)).isSome = true := by decide

/-- A write of a semaphore's register is its hook, which stores nothing else. -/
theorem writes_semHook {v : Nat} {pid : Pid} {x : Instr} {s : State} (i : Fin 64) (hx : exec x s = finish (put pid (HBR_SEM i) v) s) :
    Writes x pid (HBR_SEM i) v (semHook i .loc pid v) (onPage 14) s := by
  have ha : HBR_SEM i = unitBase 14 + (0x200 + 4 * i.val) := Nat.add_assoc _ _ _
  have hpage : onPage 14 (HBR_SEM i) = true := by
    rw [ha]
    exact onPage_unitBase 14 (by omega)
  refine writes_of_writesAll ?_ ((within_semHook i .loc pid v).mono fun a h => by rw [beq_iff_eq.mp h, hpage])
  rw [ha] at hx ⊢
  refine writesAll_page_silent (by decide) (by omega) (by omega) (rowAt_sem i) hx fun r => ?_
  have hi : (0x200 + 4 * i.val - 0x200) / 4 = i := by omega
  simp only [State.preWrite]
  rw [if_pos (by omega), hi]

end Sys2Proof.Machine

open Sys2Proof Sys2Proof.Machine

/-- Settles O55: each command is a write of its register, which stores the word and starts the register's hook. -/
theorem networkChainAndBridgeWrites : Obligations.NetworkChainAndBridgeWrites := by
  refine ⟨?swRequest, ?rmrRequest, ?safeRequest, ?ignClear, ?isoRequest, ?isoRelease, ?isoRelease3, ?logPop, ?retrain, ?enumRestart,
    ?semTake, ?semRelease⟩
  case swRequest => exact fun _ _ _ _ => writesAll_nmCh 0x14 rfl rfl (by decide)
  case rmrRequest => exact fun _ _ _ => writesAll_nmCh 0x14 rfl rfl (by decide)
  case safeRequest => exact fun _ _ _ _ => writesAll_nmCh 0x18 rfl rfl (by decide)
  case ignClear => exact fun _ _ _ => writesAll_nmCh 0x38 rfl rfl (by decide)
  case isoRequest => exact fun _ _ _ => writesAll_nmc 0x108 (by decide) rfl rfl fun _ => rfl
  case isoRelease => exact fun _ _ _ => writesAll_nmc 0x108 (by decide) rfl rfl fun _ => rfl
  case isoRelease3 => exact fun _ _ _ => writesAll_nmc 0x10C (by decide) rfl rfl fun _ => rfl
  case logPop =>
    exact fun _ _ => writes_of_writesAll (writesAll_nmc 0x144 (by decide) rfl rfl fun _ => rfl)
      (within_seqs ⟨within_stored (by decide) _, within_nmLogPopHook⟩)
  case retrain =>
    exact fun _ c _ => writes_of_writesAll (writesAll_cell_stored (k := 13) (o := 0x24) (by decide) c.isLt (by decide) rfl rfl rfl
      (fun _ => rfl) (fun _ => rfl) fun _ => rfl)
      (within_seqs ⟨within_stored (onPage_flkCell c (by decide)) _, within_linkCtrlHook c _⟩)
  case enumRestart =>
    exact fun _ _ => writesAll_page_stored (k := 13) (o := 0x11C) (by decide) (by decide) rfl rfl rfl (fun _ => rfl) (fun _ => rfl) fun _ => rfl
  case semTake => exact fun _ i _ => writes_semHook i rfl
  case semRelease => exact fun _ i _ => writes_semHook i rfl
end

section
/-!
The commands that write the signal router (R495 to R538).
-/
namespace Sys2Proof.Machine

/-! ## Footprints of the hooks -/

theorem onPage_srtKey {i : Nat} (hi : i < 64) : onPage 11 (SRT_KEY i) = true := by
  rw [SRT_KEY, Nat.add_assoc]
  exact onPage_unitBase 11 (by omega)

theorem within_srtKeyHook {i : Nat} (hi : i < 64) (pid v : Nat) : Within (onPage 11) (srtKeyHook i pid v) :=
  within_read fun _ => within_ite
    (within_seqs ⟨within_upd _, within_set (onPage_srtKey hi), within_set (onPage_srtKey hi), within_set (onPage_srtKey hi)⟩)
    (within_seq (within_upd _) (within_set (onPage_srtKey hi)))

theorem within_shdPutHook : Within (onPage 11) shdPutHook :=
  within_read fun _ => within_ite (within_seq (within_set (by decide)) (within_raise 11 _))
    (within_seqs ⟨within_upd _, within_set (by decide), within_set (by decide), within_set (by decide)⟩)

theorem within_shdClearHook : Within (onPage 11) shdClearHook :=
  within_read fun _ => within_whenU (within_seqs ⟨within_upd _, within_set (by decide), within_set (by decide)⟩)

theorem within_epochHook (v : Nat) : Within (· == SRT_EPOCH) (epochHook v) :=
  within_seq (within_set (by decide)) (within_whenU (within_set (by decide)))

theorem within_drainCtrlHook (v : Nat) : Within (onPage 11) (drainCtrlHook v) :=
  within_seq (within_set (by decide)) (within_whenU (within_read fun _ => within_seqs (within_setReg (by decide))))

theorem within_rcPreloadHook (v : Nat) : Within (onPage 11) (rcPreloadHook v) :=
  within_read fun _ => within_seq (within_set (by decide)) (within_whenU (within_seq (within_set (by decide)) (within_upd _)))

theorem within_rcInvHook : Within (onPage 11) rcInvHook := within_seq (within_upd _) (within_set (by decide))

/-! ## Writes of the router's registers -/

/-- A register of the router whose write is stored and starts its hook. -/
theorem writesAll_srt {v : Nat} {pid : Pid} {x : Instr} {u : Upd} {s : State} (o : Nat) (ho : o < 0x1000 ∧ o % 4 = 0)
    (hrow : (rowAt (pageRows 11) o).isSome = true) (hx : exec x s = finish (put pid (unitBase 11 + o) v) s)
    (hpre : ∀ r, s.preWrite .loc false pid (unitBase 11 + o) v ⟨11, none, o, r⟩ = (some v, .skip))
    (hu : ∀ r old, writeStarts ⟨11, none, o, r⟩ pid (unitBase 11 + o) old v = seqs [.skip, .skip, u, .skip]) :
    WritesAll x pid (unitBase 11 + o) v (seqs [stored (unitBase 11 + o) v, u]) s :=
  writesAll_page_stored (by decide) ho.1 ho.2 hrow hx hpre (fun _ => rfl) fun r => by rw [hu]; rfl

theorem rowAt_srtKey : ∀ i : Fin 64, (rowAt (pageRows 11) (0x400 + 4 * i)).isSome = true := by decide

theorem writesAll_srtKey (i : Fin 64) {v : Nat} {pid : Pid} {x : Instr} {s : State} (hx : exec x s = finish (put pid (SRT_KEY i) v) s) :
    WritesAll x pid (SRT_KEY i) v (seqs [stored (SRT_KEY i) v, srtKeyHook i pid v]) s := by
  have ha : SRT_KEY i = unitBase 11 + (0x400 + 4 * i.val) := Nat.add_assoc _ _ _
  have hi : (0x400 + 4 * i.val - 0x400) / 4 = i := by omega
  rw [ha] at hx ⊢
  refine writesAll_srt _ (by omega) (rowAt_srtKey i) hx (fun r => ?_) fun r old => ?_
  · simp only [State.preWrite]
    rw [if_neg (by omega), if_neg (by omega), if_neg (by omega), if_neg (by omega), if_neg (by omega)]
  · rw [writeStarts, headerHook_of_beyond (by omega)]
    simp only [hookN]
    rw [if_pos (by omega), hi]
    rfl

end Sys2Proof.Machine

open Sys2Proof Sys2Proof.Machine

/-- Settles O54: each command is a write of its register, which stores the word or takes it, and starts the register's hook. -/
theorem signalRouterWrites : Obligations.SignalRouterWrites := by
  refine ⟨?sigWrite, ?sigRead, ?keyEnable, ?shdPut, ?shdClear, ?epochCommit, ?drainRequest, ?rcPreload, ?rcInvalidate, ?rtRead⟩
  case sigWrite => exact fun _ _ _ => writesAll_page_silent (k := 11) (o := 0x138) (by decide) (by decide) rfl rfl rfl fun _ => rfl
  case sigRead =>
    exact fun _ _ _ => writes_of_writesAll
      (writesAll_page_silent (k := 11) (o := 0x13C) (by decide) (by decide) rfl rfl rfl fun _ => rfl) (within_upd _)
  case keyEnable =>
    exact fun _ i _ _ => writes_of_writesAll (writesAll_srtKey i rfl)
      (within_seqs ⟨within_stored (onPage_srtKey i.isLt) _, within_srtKeyHook i.isLt _ _⟩)
  case shdPut =>
    exact fun _ _ => writes_of_writesAll (writesAll_srt 0x228 (by decide) rfl rfl (fun _ => rfl) fun _ _ => rfl)
      (within_seqs ⟨within_stored (by decide) _, within_shdPutHook⟩)
  case shdClear =>
    exact fun _ _ => writes_of_writesAll (writesAll_srt 0x230 (by decide) rfl rfl (fun _ => rfl) fun _ _ => rfl)
      (within_seqs ⟨within_stored (by decide) _, within_shdClearHook⟩)
  case epochCommit =>
    exact fun _ _ => writes_of_writesAll (writesAll_srt 0x210 (by decide) rfl rfl (fun _ => rfl) fun _ _ => rfl)
      (within_seqs ⟨within_stored (by decide) _, within_epochHook _⟩)
  case drainRequest =>
    exact fun _ _ _ => writes_of_writesAll (writesAll_srt 0x244 (by decide) rfl rfl (fun _ => rfl) fun _ _ => rfl)
      (within_seqs ⟨within_stored (by decide) _, within_drainCtrlHook _⟩)
  case rcPreload =>
    exact fun _ _ _ => writes_of_writesAll (writesAll_srt 0x250 (by decide) rfl rfl (fun _ => rfl) fun _ _ => rfl)
      (within_seqs ⟨within_stored (by decide) _, within_rcPreloadHook _⟩)
  case rcInvalidate =>
    exact fun _ _ => writes_of_writesAll (writesAll_srt 0x25C (by decide) rfl rfl (fun _ => rfl) fun _ _ => rfl)
      (within_seqs ⟨within_stored (by decide) _, within_rcInvHook⟩)
  case rtRead => exact fun _ _ _ => writesAll_srt 0x2A0 (by decide) rfl rfl (fun _ => rfl) fun _ _ => rfl
end

section
/-!
The commands that write Ethernet ports, the switch core and the time base (R423 to R479).
-/
namespace Sys2Proof.Machine

/-! ## Ethernet ports -/

theorem onPage_etp {p o : Nat} (hp : p < 25) (ho : o < 2048) : onPage 7 (cellBase 7 p + o) = true :=
  onPage_cell (show 0x1000 + 2048 * p + o < 0x10000 by omega)

theorem onPage_saCtrl {p e : Nat} (hp : p < 25) (he : e < 20) : onPage 7 (ETP_SA_CTRL p 0 e) = true := by
  rw [ETP_SA_CTRL, Nat.add_assoc, Nat.add_assoc]
  exact onPage_etp hp (by omega)

theorem within_raiseEtp {p : Nat} (hp : p < 25) (i : Nat) : Within (onPage 7) (raiseEtp p i) :=
  within_setBit (onPage_etp hp (by decide))

theorem within_txThrHook {p : Nat} (hp : p < 25) : Within (onPage 7) (txThrHook p) :=
  within_read fun _ => within_set (onPage_etp hp (by decide))

theorem within_saHook {p e : Nat} (hp : p < 25) (he : e < 20) (pid v : Nat) : Within (onPage 7) (saHook p e pid v) :=
  within_read fun _ => within_ite
    (within_seqs ⟨within_upd _, within_set (onPage_saCtrl hp he), within_set (onPage_saCtrl hp he), within_set (onPage_saCtrl hp he),
      within_whenU (within_raiseEtp hp 11)⟩)
    (within_seq (within_upd _) (within_set (onPage_saCtrl hp he)))

/-- A register of a port whose write is stored and starts its hook. -/
theorem writesAll_etp {p o v : Nat} {pid : Pid} {x : Instr} {u : Upd} {s : State} (hp : p < 25) (ho : 0x20 ≤ o ∧ o < 2048 ∧ o % 4 = 0)
    (hrow : (rowAt (cellRows 7) o).isSome = true) (hx : exec x s = finish (put pid (cellBase 7 p + o) v) s)
    (hunused : (etpUnused p o || decide (18 ≤ p ∧ o = 0x38)) = false) (hfilter : s.etpFilter p o (s.reg (cellBase 7 p + o)) v = (some v, false))
    (hu : ∀ r old, hookN ⟨7, some p, o, r⟩ pid old v = u) :
    WritesAll x pid (cellBase 7 p + o) v (seqs [stored (cellBase 7 p + o) v, u]) s := by
  refine writesAll_cell_stored (by decide) hp ho.2.1 ho.2.2 hrow hx (fun r => ?_) (fun r => rfl) fun r => ?_
  · have h : ¬ (etpUnused p o = true ∨ 18 ≤ p ∧ o = 0x38) := by simpa using hunused
    simp only [State.preWrite]
    rw [if_neg h, hfilter]
    rfl
  · have hhead : headerHook ⟨7, some p, o, r⟩ (s.reg (cellBase 7 p + o)) v = .skip := by
      simp only [headerHook]
      split <;> simp_all
    rw [writeStarts, hhead, hu]
    rfl

theorem rowAt_saCtrl : ∀ e : Fin 20, (rowAt (cellRows 7) (0x200 + 32 * e)).isSome = true := by decide
theorem rowAt_queueTails : ∀ q : Fin 8, (rowAt (cellRows 7) (0x508 + 32 * q)).isSome = true ∧ (rowAt (cellRows 7) (0x518 + 32 * q)).isSome = true := by
  decide

theorem saCtrl_addr (p e : Nat) : ETP_SA_CTRL p 0 e = cellBase 7 p + (0x200 + 32 * e) := by
  rw [ETP_SA_CTRL, Nat.zero_mul, Nat.add_zero, Nat.add_assoc]

theorem txTail_addr (p q : Nat) : ETP_QTX_TAIL p 0 q = cellBase 7 p + (0x508 + 32 * q) := by
  rw [ETP_QTX_TAIL, Nat.zero_mul, Nat.add_zero, Nat.add_assoc]

theorem rxTail_addr (p q : Nat) : ETP_QRX_TAIL p 0 q = cellBase 7 p + (0x518 + 32 * q) := by
  rw [ETP_QRX_TAIL, Nat.zero_mul, Nat.add_zero, Nat.add_assoc]

/-! ### The tails of the MAC's queues and the secure associations -/

section
variable {v : Nat} {pid : Pid} {x : Instr} {s : State}

/-- A ring's tail in send direction is stored and starts nothing. -/
theorem writesAll_txTail (p : Fin 2) (q : Fin 8) (hx : exec x s = finish (put pid (ETP_QTX_TAIL (20 + p.val) 0 q) v) s) :
    WritesAll x pid (ETP_QTX_TAIL (20 + p.val) 0 q) v (stored (ETP_QTX_TAIL (20 + p.val) 0 q) v) s := by
  have hunused : ∀ (p : Fin 2) (q : Fin 8), (etpUnused (20 + p.val) (0x508 + 32 * q.val) || decide (18 ≤ 20 + p.val ∧ 0x508 + 32 * q.val = 0x38)) = false := by
    decide
  have hmod : (0x508 + 32 * q.val) % 32 = 8 := by omega
  rw [txTail_addr] at hx ⊢
  refine writesAll_etp (u := .skip) (by omega) (by omega) (rowAt_queueTails q).1 hx (hunused p q) ?_ fun r old => ?_
  · simp only [State.etpFilter]
    rw [if_neg (by omega), if_neg (by omega), if_neg (by omega), if_neg (by omega), if_neg (by omega)]
  · simp only [hookN]
    rw [if_neg (by omega), if_neg (by omega), if_pos (by omega), hmod]
    rfl

/-- A ring's tail in receive direction is stored and lets the waiting frames into the ring. -/
theorem writesAll_rxTail (p : Fin 2) (q : Fin 8) (hx : exec x s = finish (put pid (ETP_QRX_TAIL (20 + p.val) 0 q) v) s) :
    WritesAll x pid (ETP_QRX_TAIL (20 + p.val) 0 q) v (seqs [stored (ETP_QRX_TAIL (20 + p.val) 0 q) v, rxTailHook (20 + p.val) q]) s := by
  have hunused : ∀ (p : Fin 2) (q : Fin 8), (etpUnused (20 + p.val) (0x518 + 32 * q.val) || decide (18 ≤ 20 + p.val ∧ 0x518 + 32 * q.val = 0x38)) = false := by
    decide
  have hdiv : (0x518 + 32 * q.val - 0x500) / 32 = q := by omega
  have hmod : (0x518 + 32 * q.val) % 32 = 0x18 := by omega
  rw [rxTail_addr] at hx ⊢
  refine writesAll_etp (by omega) (by omega) (rowAt_queueTails q).2 hx (hunused p q) ?_ fun r old => ?_
  · simp only [State.etpFilter]
    rw [if_neg (by omega), if_neg (by omega), if_neg (by omega), if_neg (by omega), if_neg (by omega)]
  · simp only [hookN]
    rw [if_neg (by omega), if_neg (by omega), if_pos (by omega), hdiv, hmod]
    rfl

variable {p : Fin 25} (e : Fin 20)

theorem etpUnused_saCtrl : ∀ (p : Fin 25) (e : Fin 20),
    (etpUnused p (0x200 + 32 * e) || decide (18 ≤ p.val ∧ 0x200 + 32 * e.val = 0x38)) = decide (p.val = 18 ∨ p.val = 19) := by decide

theorem writesAll_saCtrl (h : p.val ≠ 18 ∧ p.val ≠ 19) (hx : exec x s = finish (put pid (ETP_SA_CTRL p 0 e) v) s) :
    WritesAll x pid (ETP_SA_CTRL p 0 e) v (seqs [stored (ETP_SA_CTRL p 0 e) v, saHook p e pid v]) s := by
  have hdiv : (0x200 + 32 * e.val - 0x200) / 32 = e := by omega
  rw [saCtrl_addr] at hx ⊢
  refine writesAll_etp p.isLt (by omega) (rowAt_saCtrl e) hx ?_ ?_ fun r old => ?_
  · rw [etpUnused_saCtrl, decide_eq_false_iff_not]
    omega
  · simp only [State.etpFilter]
    rw [if_neg (by omega), if_neg (by omega), if_neg (by omega), if_neg (by omega), if_neg (by omega)]
  · simp only [hookN]
    rw [if_neg (by omega), if_pos (by omega), hdiv]

/-- The switch's own ports have no MACsec. -/
theorem writesAll_saCtrl_absent (h : p.val = 18 ∨ p.val = 19) (hx : exec x s = finish (put pid (ETP_SA_CTRL p 0 e) v) s) :
    WritesAll x pid (ETP_SA_CTRL p 0 e) v .skip s := by
  have hunused : etpUnused p (0x200 + 32 * e) = true ∨ 18 ≤ p.val ∧ 0x200 + 32 * e.val = 0x38 := by
    have := etpUnused_saCtrl p e
    rw [decide_eq_true h, Bool.or_eq_true, decide_eq_true_iff] at this
    exact this
  rw [saCtrl_addr] at hx ⊢
  refine writesAll_cell_silent (by decide) p.isLt (show _ < 2048 by omega) (by omega) (rowAt_saCtrl e) hx fun r => ?_
  simp only [State.preWrite]
  rw [if_pos hunused]

end

/-! ## The switch core -/

theorem within_pmapHook (j old : Nat) : Within (onPage 8) (pmapHook j old) :=
  within_read fun _ => within_seq (within_set (by decide)) (within_whenU (within_upd _))

theorem within_swcDrainHook (v : Nat) : Within (onPage 8) (swcDrainHook v) :=
  within_seq (within_set (by decide)) (within_whenU (within_read fun _ => within_seq (within_upd _) (within_setReg (by decide))))

theorem onPage_gclCtrl {p : Nat} (hp : p < 25) : onPage 8 (SWC_GCL_CTRL p) = true := by
  rw [SWC_GCL_CTRL, Nat.add_assoc]
  exact onPage_unitBase 8 (by omega)

theorem onPage_gclStat {p : Nat} (hp : p < 25) : onPage 8 (SWC_GCL_STAT p) = true := by
  rw [SWC_GCL_STAT, Nat.add_assoc]
  exact onPage_unitBase 8 (by omega)

theorem within_gclCtrlHook {p : Nat} (hp : p < 25) (v : Nat) : Within (onPage 8) (gclCtrlHook p v) :=
  within_seq (within_set (onPage_gclCtrl hp)) (within_read fun _ => within_whenU (within_seq (within_set (onPage_gclStat hp)) (within_upd _)))

/-- A register of the switch core whose write is stored and starts its hook. -/
theorem writesAll_swc {v : Nat} {pid : Pid} {x : Instr} {s : State} (o : Nat) (u : Upd) (ho : 0x40 ≤ o ∧ o < 0x1000 ∧ o % 4 = 0)
    (hrow : (rowAt (pageRows 8) o).isSome = true) (hx : exec x s = finish (put pid (unitBase 8 + o) v) s) (hopen : s.gclSilent o = false)
    (hu : ∀ r, hookN ⟨8, none, o, r⟩ pid (s.reg (unitBase 8 + o)) v = u) :
    WritesAll x pid (unitBase 8 + o) v (seqs [stored (unitBase 8 + o) v, u]) s := by
  refine writesAll_page_stored (by decide) ho.2.1 ho.2.2 hrow hx (fun r => ?_) (fun _ => rfl) fun r => ?_
  · simp only [State.preWrite, hopen]
    rfl
  · rw [writeStarts, headerHook_of_beyond ho.1, hu]
    rfl

theorem rowAt_pmap : ∀ j : Fin 8, (rowAt (pageRows 8) (0x140 + 4 * j)).isSome = true := by decide
theorem rowAt_gclCtrl : ∀ p : Fin 25, (rowAt (pageRows 8) (0xB10 + 32 * p)).isSome = true := by decide

theorem gclSilent_below {o : Nat} (h : o < 0xB00) (s : State) : s.gclSilent o = false := by
  rw [State.gclSilent, noGcl, gclPort, if_neg (by omega)]
  rfl

theorem gclPort_gclCtrl (p : Fin 25) : gclPort (0xB10 + 32 * p.val) = some p.val := by
  rw [gclPort, if_pos (by omega)]
  congr 1
  omega

theorem writesAll_pmap (j : Fin 9) (pid : Pid) (v : Word) (s : State) :
    WritesAll (.pmapWrite pid j v) pid (if j.val = 8 then SWC_HASH_CFG else SWC_PMAP j) v.toNat
      (seqs [stored (if j.val = 8 then SWC_HASH_CFG else SWC_PMAP j) v.toNat,
        pmapHook j (s.reg (if j.val = 8 then SWC_HASH_CFG else SWC_PMAP j))]) s := by
  have hx : exec (.pmapWrite pid j v) s = finish (put pid (if j.val = 8 then SWC_HASH_CFG else SWC_PMAP j) v.toNat) s := rfl
  by_cases hj : j.val = 8
  · rw [if_pos hj] at hx ⊢
    rw [hj]
    exact writesAll_swc 0x12C _ (by decide) rfl hx (gclSilent_below (by decide) s) fun _ => rfl
  · have ha : SWC_PMAP j = unitBase 8 + (0x140 + 4 * j.val) := Nat.add_assoc _ _ _
    have hdiv : (0x140 + 4 * j.val - 0x140) / 4 = j := by omega
    rw [if_neg hj, ha] at hx ⊢
    refine writesAll_swc _ _ (by omega) (rowAt_pmap ⟨j, by omega⟩) hx (gclSilent_below (by omega) s) fun r => ?_
    simp only [hookN]
    rw [if_neg (by omega), if_neg (by omega), if_neg (by omega), if_pos (by omega), hdiv]

theorem onPage_pmap (j : Fin 9) : onPage 8 (if j.val = 8 then SWC_HASH_CFG else SWC_PMAP j) = true := by
  revert j
  decide

theorem gclCtrl_addr (p : Nat) : SWC_GCL_CTRL p = unitBase 8 + (0xB10 + 32 * p) := Nat.add_assoc _ _ _

section
variable {p : Fin 25} {s : State}

/-- A gate control list's change request is taken while the port has lists and none is pending. -/
theorem gclSilent_gclCtrl_of_free (h : p.val ≠ 18 ∧ p.val ≠ 19) (hp : s.flag (SWC_GCL_STAT_PENDING p) = false) :
    s.gclSilent (0xB10 + 32 * p.val) = false := by
  simp only [State.gclSilent, noGcl, gclPort_gclCtrl, hp, Bool.or_false, Bool.or_eq_false_iff, beq_eq_false_iff_ne, ne_eq, Option.some.injEq]
  exact h

theorem gclSilent_gclCtrl_of_busy (h : p.val = 18 ∨ p.val = 19 ∨ s.flag (SWC_GCL_STAT_PENDING p) = true) :
    s.gclSilent (0xB10 + 32 * p.val) = true := by
  simp only [State.gclSilent, noGcl, gclPort_gclCtrl, Bool.or_eq_true, beq_iff_eq, Option.some.injEq, or_assoc]
  exact h

theorem writesAll_gclCtrl (pid : Pid) (h : p.val ≠ 18 ∧ p.val ≠ 19) (hp : s.flag (SWC_GCL_STAT_PENDING p) = false) :
    WritesAll (.gclChangeRequest pid p) pid (SWC_GCL_CTRL p) 1 (seqs [stored (SWC_GCL_CTRL p) 1, gclCtrlHook p 1]) s := by
  have hx : exec (.gclChangeRequest pid p) s = finish (put pid (SWC_GCL_CTRL p) 1) s := rfl
  have hdiv : (0xB10 + 32 * p.val - 0xB00) / 32 = p := by omega
  have hmod : (0xB10 + 32 * p.val) % 32 = 0x10 := by omega
  rw [gclCtrl_addr] at hx ⊢
  refine writesAll_swc _ _ (by omega) (rowAt_gclCtrl p) hx (gclSilent_gclCtrl_of_free h hp) fun r => ?_
  simp only [hookN]
  rw [if_neg (by omega), if_neg (by omega), if_neg (by omega), if_neg (by omega), if_pos (by omega), hdiv, hmod]
  rfl

theorem writesAll_gclCtrl_silent (pid : Pid) (h : p.val = 18 ∨ p.val = 19 ∨ s.flag (SWC_GCL_STAT_PENDING p) = true) :
    WritesAll (.gclChangeRequest pid p) pid (SWC_GCL_CTRL p) 1 .skip s := by
  have hx : exec (.gclChangeRequest pid p) s = finish (put pid (SWC_GCL_CTRL p) 1) s := rfl
  rw [gclCtrl_addr] at hx ⊢
  refine writesAll_page_silent (by decide) (by omega) (by omega) (rowAt_gclCtrl p) hx fun r => ?_
  simp only [State.preWrite, gclSilent_gclCtrl_of_busy h]
  rfl

end

/-! ## The time base -/

theorem within_slewEnd : Within (onPage 12) slewEnd :=
  within_read fun _ => within_seq (within_upd _) (within_whenU (within_seq (within_set (by decide)) (within_raise 12 4)))

theorem within_tmbAdjHook (v : Nat) : Within (onPage 12) (tmbAdjHook v) :=
  within_seq (within_set (by decide)) (within_ite within_slewEnd (within_seq (within_upd _) (within_set (by decide))))

theorem within_showStamps : Within (onPage 12) showStamps := by
  refine within_read fun _ => within_seqs ⟨within_setReg (by decide), within_forN fun i hi => within_setReg ?_⟩
  have h : ∀ i < 4, onPage 12 (TMB_TS_HEAD i) = true := by decide
  exact h i hi

theorem within_tsPopHook : Within (onPage 12) tsPopHook := within_seq (within_upd _) within_showStamps

/-- A register of the time base whose write is stored and starts its hook. -/
theorem writesAll_tmb {v : Nat} {pid : Pid} {x : Instr} {s : State} (o : Nat) (u : Upd) (ho : o < 0x1000 ∧ o % 4 = 0)
    (hrow : (rowAt (pageRows 12) o).isSome = true) (hx : exec x s = finish (put pid (unitBase 12 + o) v) s)
    (hpre : ∀ r, s.preWrite .loc false pid (unitBase 12 + o) v ⟨12, none, o, r⟩ = (some v, .skip))
    (hu : ∀ r old, writeStarts ⟨12, none, o, r⟩ pid (unitBase 12 + o) old v = seqs [.skip, .skip, u, .skip]) :
    WritesAll x pid (unitBase 12 + o) v (seqs [stored (unitBase 12 + o) v, u]) s :=
  writesAll_page_stored (by decide) ho.1 ho.2 hrow hx hpre (fun _ => rfl) fun r => by rw [hu]; rfl

/-! ### A step of device time (R470) -/

theorem keeps_reg_of_within {p : Nat → Bool} {a : Nat} {u : Upd} (h : Within p u) (ha : p a = false) : Keeps (·.reg a) u := fun s => (h s).reg_eq ha

theorem keeps_reg_storeBytes (c a : Nat) (l : List Byte) : Keeps (·.reg c) (storeBytes a l) := fun s => by simp only [State.reg, storeBytes_regs]

/-- The change of a gate control list writes registers of the switch core alone, besides the lists. -/
theorem keeps_reg_gclChange {a : Nat} (ha : onPage 8 a = false) (p : Fin 25) : Keeps (·.reg a) (gclChange p) := by
  have hne : SWC_GCL_STAT p ≠ a := fun h => by rw [← h, onPage_gclStat p.isLt] at ha; cases ha
  have hset (hi lo v : Nat) : Keeps (·.reg a) (set ⟨SWC_GCL_STAT p, hi, lo⟩ v) := keeps_reg_set v hne
  refine keeps_read fun _ => keeps_whenU fun _ => keeps_seqs ⟨keeps_reg_storeBytes a _ _, keeps_reg_storeBytes a _ _, hset _ _ _, hset _ _ _,
    hset _ _ _, hset _ _ _, keeps_reg_of_within (within_raise 8 4) ha, ?_⟩
  exact keeps_reg_upd a _

/-- A step of device time writes registers of the time base and of the switch core alone. -/
theorem keeps_reg_tmbStepHook {a : Nat} (h12 : onPage 12 a = false) (h8 : onPage 8 a = false) (v : Nat) : Keeps (·.reg a) (tmbStepHook v) := by
  have htmb (o hi lo w : Nat) (ho : o < 0x10000) : Keeps (·.reg a) (set ⟨unitBase 12 + o, hi, lo⟩ w) :=
    keeps_reg_of_within (within_set (onPage_unitBase 12 ho)) h12
  exact keeps_seq (htmb _ _ _ _ (by decide)) (keeps_whenU fun _ => keeps_read fun _ => keeps_seqs ⟨
    keeps_reg_of_within within_slewEnd h12, keeps_reg_upd a _, keeps_read fun _ => keeps_reg_upd a _,
    keeps_read fun _ => htmb _ _ _ _ (by decide), htmb _ _ _ _ (by decide), keeps_reg_of_within (within_raise 12 3) h12,
    keeps_forEach fun p => keeps_read fun _ => keeps_whenU fun _ => keeps_reg_gclChange h8 p⟩)

end Sys2Proof.Machine

open Sys2Proof Sys2Proof.Machine

/-- Settles O53: each command is a write of its register, which stores the word or takes it, and starts the register's hook. -/
theorem ethernetSwitchAndTimeWrites : Obligations.EthernetSwitchAndTimeWrites := by
  refine ⟨?txThr, ?txTail, ?rxTail, ?saEnable, ?pmap, ?tblRead, ?tblWrite, ?tblDelete, ?tblSearch, ?swcDrain, ?gclChange, ?rate, ?adj, ?step,
    ?tsPop, ?ptpTx, ?canCapture, ?saAbsent, ?gclBusy, ?stepFoot⟩
  case txThr =>
    intro pid p step start s
    refine writes_of_writesAll (writesAll_etp (o := 0x2C) (u := txThrHook p) p.isLt (by decide) rfl rfl ?_ rfl fun _ _ => rfl)
      (within_seqs ⟨within_stored (onPage_etp p.isLt (by decide)) _, within_txThrHook p.isLt⟩)
    revert p
    decide
  case txTail =>
    exact fun pid p q tail s => writes_of_writesAll (writesAll_txTail p q rfl)
      (within_stored (txTail_addr _ _ ▸ onPage_etp (by omega) (by omega)) _)
  case rxTail => exact fun pid p q tail s => writesAll_rxTail p q rfl
  case saEnable =>
    exact fun pid p e slot s h => writes_of_writesAll (writesAll_saCtrl e h rfl)
      (within_seqs ⟨within_stored (onPage_saCtrl p.isLt e.isLt) _, within_saHook p.isLt e.isLt _ _⟩)
  case pmap =>
    exact fun pid j v s => writes_of_writesAll (writesAll_pmap j pid v s)
      (within_seqs ⟨within_stored (onPage_pmap j) _, within_pmapHook j _⟩)
  case tblRead => exact fun _ _ _ s => writesAll_swc 0x104 _ (by decide) rfl rfl (gclSilent_below (by decide) s) fun _ => rfl
  case tblWrite => exact fun _ _ _ _ s => writesAll_swc 0x104 _ (by decide) rfl rfl (gclSilent_below (by decide) s) fun _ => rfl
  case tblDelete => exact fun _ _ _ _ s => writesAll_swc 0x104 _ (by decide) rfl rfl (gclSilent_below (by decide) s) fun _ => rfl
  case tblSearch => exact fun _ _ _ s => writesAll_swc 0x104 _ (by decide) rfl rfl (gclSilent_below (by decide) s) fun _ => rfl
  case swcDrain =>
    exact fun _ _ s => writes_of_writesAll (writesAll_swc 0x120 _ (by decide) rfl rfl (gclSilent_below (by decide) s) fun _ => rfl)
      (within_seqs ⟨within_stored (by decide) _, within_swcDrainHook _⟩)
  case gclChange =>
    exact fun pid p s h hp => writes_of_writesAll (writesAll_gclCtrl pid h hp)
      (within_seqs ⟨within_stored (onPage_gclCtrl p.isLt) _, within_gclCtrlHook p.isLt 1⟩)
  case rate =>
    exact fun _ _ _ => writes_of_writesAll (writesAll_page_stored (k := 12) (o := 0x10C) (by decide) (by decide) rfl rfl rfl (fun _ => rfl)
      (fun _ => rfl) fun _ => rfl) (within_stored (by decide) _)
  case adj =>
    exact fun _ _ _ => writes_of_writesAll (writesAll_page_silent (k := 12) (o := 0x110) (by decide) (by decide) rfl rfl rfl fun _ => rfl)
      (within_tmbAdjHook _)
  case step => exact fun _ _ => writesAll_tmb 0x120 _ (by decide) rfl rfl (fun _ => rfl) fun _ _ => rfl
  case tsPop =>
    exact fun _ _ => writes_of_writesAll (writesAll_tmb 0x158 _ (by decide) rfl rfl (fun _ => rfl) fun _ _ => rfl)
      (within_seqs ⟨within_stored (by decide) _, within_tsPopHook⟩)
  case ptpTx => exact fun _ _ _ _ => writesAll_tmb 0x160 _ (by decide) rfl rfl (fun _ => rfl) fun _ _ => rfl
  case canCapture => exact fun _ _ _ => writesAll_tmb 0x134 _ (by decide) rfl rfl (fun _ => rfl) fun _ _ => rfl
  case saAbsent => exact fun pid p e slot s h => writes_of_writesAll (writesAll_saCtrl_absent e h rfl) within_skip
  case gclBusy => exact fun pid p s h => writes_of_writesAll (writesAll_gclCtrl_silent pid h) within_skip
  case stepFoot =>
    intro s a ha
    rw [Bool.or_eq_false_iff] at ha
    exact keeps_reg_tmbStepHook ha.1 ha.2 1 s

end

section
/-!
Footprints of the CAN and LIN channels' operations, and the commands that write their registers (R370 to R414).
-/
namespace Sys2Proof.Machine

/-! ## Updates within a part of the registers and of memory -/

/-- No run of `u` writes a byte outside `m`, nor a register outside those that `p` names. -/
def Reaches (p : Nat → Bool) (m : Nat → Prop) (u : Upd) : Prop := ∀ s, OnlyRegs p s (u.run s) ∧ ∀ a, ¬ m a → (u.run s).byte a = s.byte a

/-- Each update of a list reaches no further than `p` and `m`. -/
def AllReach (p : Nat → Bool) (m : Nat → Prop) : List Upd → Prop
  | [] => True
  | [u] => Reaches p m u
  | u :: l => Reaches p m u ∧ AllReach p m l

section
variable {p : Nat → Bool} {m : Nat → Prop}

theorem reaches_of_within {u : Upd} (h : Within p u) : Reaches p m u := fun s => ⟨(h s).2, fun a _ => (h s).1 a⟩

theorem reaches_seq {u v : Upd} (hu : Reaches p m u) (hv : Reaches p m v) : Reaches p m (.seq u v) := fun s =>
  ⟨fun a ha => ((hv _).1 a ha).trans ((hu s).1 a ha), fun a ha => ((hv _).2 a ha).trans ((hu s).2 a ha)⟩

theorem reaches_read {k : State → Upd} (h : ∀ s, Reaches p m (k s)) : Reaches p m (.read k) := fun s => h s s

theorem allReach_cons {u : Upd} {l : List Upd} : AllReach p m (u :: l) ↔ Reaches p m u ∧ AllReach p m l := by
  cases l with
  | nil => exact ⟨fun h => ⟨h, trivial⟩, fun h => h.1⟩
  | cons v l => exact Iff.rfl

theorem reaches_seqs {l : List Upd} (h : AllReach p m l) : Reaches p m (seqs l) := by
  induction l with
  | nil => exact reaches_of_within within_skip
  | cons u l ih =>
    obtain ⟨hu, hl⟩ := allReach_cons.mp h
    exact reaches_seq hu (ih hl)

theorem reaches_whenU {c : Bool} {u : Upd} (h : c = true → Reaches p m u) : Reaches p m (whenU c u) := by
  cases c
  · exact reaches_of_within within_skip
  · exact h rfl

theorem reaches_ite {c : Prop} [Decidable c] {u v : Upd} (hu : c → Reaches p m u) (hv : ¬ c → Reaches p m v) : Reaches p m (if c then u else v) := by
  split
  next h => exact hu h
  next h => exact hv h

theorem reaches_forEach {α : Type} {l : List α} {f : α → Upd} (h : ∀ x ∈ l, Reaches p m (f x)) : Reaches p m (forEach l f) := by
  induction l with
  | nil => exact reaches_of_within within_skip
  | cons x l ih => exact reaches_seq (h x List.mem_cons_self) (ih fun y hy => h y (List.mem_cons_of_mem x hy))

theorem reaches_forN {n : Nat} {f : Nat → Upd} (h : ∀ i, i < n → Reaches p m (f i)) : Reaches p m (forN n f) :=
  reaches_forEach fun i hi => h i (List.mem_range.mp hi)

theorem reaches_store {a n : Nat} (v : Nat) (h : ∀ x, a ≤ x → x < a + n → m x) : Reaches p m (store a n v) := fun s =>
  ⟨fun c _ => by rw [store, State.reg, storeBytes_regs]; rfl, fun x hx => byte_store_ne v s <| by
    by_contra hlt
    exact hx (h x (by omega) (by omega))⟩

end

/-! ## A CAN channel's page -/

/-- The bytes of channel `c`'s message RAM. -/
def inMram (c a : Nat) : Prop := mram c ≤ a ∧ a < mram c + 0x20000

theorem onPage_can {c o : Nat} (hc : c < 16) (ho : o < 512) : onPage 9 (cellBase 9 c + o) = true :=
  onPage_cell (show 0x1000 + 512 * c + o < 0x10000 by omega)

theorem onPage_txbufCode {c i : Nat} (hc : c < 16) (hi : i < 32) : onPage 9 (CAN_TXBUF_CODE c (i / 8)) = true := by
  rw [CAN_TXBUF_CODE, Nat.add_assoc]
  exact onPage_can hc (by omega)

theorem onPage_fifoStat {c : Nat} (hc : c < 16) (sec : Nat) : onPage 9 (fifoStat c sec) = true := by
  simp only [fifoStat]
  split
  all_goals exact onPage_can hc (by decide)

section
variable {c : Nat} (hc : c < 16)
include hc

theorem within_raiseChannel (i : Nat) : Within (onPage 9) (raiseCan c i) := within_setBit (onPage_can hc (by decide))

theorem within_pending (i : Nat) (b : Bool) : Within (onPage 9) (putPending c i b) :=
  within_ite (within_putBit (onPage_can hc (by decide))) (within_putBit (onPage_can hc (by decide)))

theorem within_queueShown : Within (onPage 9) (showQueue c) := by
  refine within_read fun s => within_seqs ⟨within_set (onPage_can hc (by decide)), within_set (onPage_can hc (by decide)), ?_⟩
  split
  · exact within_set (onPage_can hc (by decide))
  · exact within_skip

theorem within_channelState (st : Nat) : Within (onPage 9) (canState c st) :=
  within_seqs ⟨within_set (onPage_can hc (by decide)), within_whenU (within_set (onPage_can hc (by decide))),
    within_whenU (within_set (onPage_can hc (by decide))), within_putBit (by decide), within_putBit (by decide)⟩

theorem within_fifoAdvance (s : State) (sec wm newBit wmBit : Nat) : Within (onPage 9) (fifoAdvance s c sec wm newBit wmBit) :=
  within_seqs ⟨within_set (onPage_fifoStat hc sec), within_set (onPage_fifoStat hc sec), within_set (onPage_fifoStat hc sec),
    within_raiseChannel hc _, within_whenU (within_raiseChannel hc _)⟩

theorem within_fifoConsume (sec : Nat) : Within (onPage 9) (fifoConsume c sec) :=
  within_read fun _ => within_whenU (within_seqs ⟨within_set (onPage_fifoStat hc sec),
    within_read fun _ => within_set (onPage_fifoStat hc sec), within_set (onPage_fifoStat hc sec)⟩)

theorem within_setLock (sec : Nat) (l : Option CanLock) : Within (onPage 9) (setLock c sec l) := by
  refine within_seq (within_upd _) (within_seqs ⟨within_putBit (onPage_can hc (by decide)), within_ite (within_set (onPage_fifoStat hc sec)) ?_⟩)
  split
  · exact within_set (onPage_can hc (by decide))
  · exact within_skip

theorem within_rxAck (sec buf : Nat) : Within (onPage 9) (rxAck c sec buf) := by
  refine within_read fun _ => within_ite (within_seq (within_setLock hc sec none) (within_fifoConsume hc sec))
    (within_seq (within_clrBit ?_) (within_whenU (within_setLock hc 3 none)))
  simp only [newReg]
  split
  all_goals exact onPage_can hc (by decide)

/-! ### Transmissions -/

omit hc in
theorem reaches_setWords (w : Nat) (l : List Nat) : Reaches (onPage 9) (inMram c) (setWords c w l) := by
  induction l generalizing w with
  | nil => exact reaches_of_within within_skip
  | cons v l ih =>
    refine reaches_seq (reaches_store v fun x hlo hhi => ?_) (ih (w + 1))
    have := Nat.mod_lt w (show 0 < 0x8000 by decide)
    exact ⟨by omega, by omega⟩

theorem reaches_txEvent (i code : Nat) : Reaches (onPage 9) (inMram c) (txEvent c i code) :=
  reaches_read fun s => reaches_ite
    (fun _ => reaches_of_within (within_seq (within_inc (onPage_can hc (by decide))) (within_raiseChannel hc _)))
    fun _ => reaches_seqs ⟨reaches_setWords _ _, reaches_of_within (within_fifoAdvance hc s _ _ _ _)⟩

theorem reaches_endSlot (i code : Nat) : Reaches (onPage 9) (inMram c) (endSlot c i code) :=
  reaches_read fun _ => reaches_seqs ⟨reaches_whenU fun _ => reaches_txEvent hc i code, reaches_of_within (within_pending hc i false),
    reaches_ite (fun hi => reaches_of_within (within_seq (within_set (onPage_txbufCode hc hi)) (within_setBit (onPage_can hc (by decide)))))
      fun _ => reaches_of_within (within_queueShown hc),
    reaches_of_within (within_whenU (within_raiseChannel hc _)), reaches_of_within (within_whenU (within_raiseChannel hc _)),
    reaches_of_within (within_upd _)⟩

theorem reaches_makePending (i : Nat) : Reaches (onPage 9) (inMram c) (makePending c i) :=
  reaches_read fun _ => reaches_seqs ⟨reaches_of_within (within_pending hc i true), reaches_of_within (within_upd _), reaches_of_within (within_upd _),
    reaches_whenU fun hi => reaches_of_within (within_set (onPage_txbufCode hc (of_decide_eq_true hi))),
    reaches_of_within (within_whenU (within_queueShown hc)), reaches_whenU fun _ => reaches_endSlot hc i 7⟩

theorem reaches_cancelSlot (i : Nat) : Reaches (onPage 9) (inMram c) (cancelSlot c i) :=
  reaches_read fun _ => reaches_whenU fun _ => reaches_ite (fun _ => reaches_of_within (within_upd _)) fun _ => reaches_endSlot hc i 5

theorem reaches_txRequest (v : Nat) : Reaches (onPage 9) (inMram c) (txRequest c v) :=
  reaches_read fun _ => reaches_whenU fun _ => reaches_forN fun i _ => reaches_whenU fun _ => reaches_makePending hc i

theorem reaches_txStopHook (v : Nat) : Reaches (onPage 9) (inMram c) (txStopHook c v) :=
  reaches_forN fun i _ => reaches_whenU fun _ => reaches_cancelSlot hc i

theorem reaches_txqStopHook (v : Nat) : Reaches (onPage 9) (inMram c) (txqStopHook c v) :=
  reaches_forN fun i _ => reaches_whenU fun _ => reaches_cancelSlot hc (32 + i)

theorem reaches_txqPush : Reaches (onPage 9) (inMram c) (txqPush c) :=
  reaches_read fun _ => reaches_ite (fun _ => reaches_of_within (within_raiseChannel hc 30)) fun _ => reaches_whenU fun _ => reaches_makePending hc _

theorem reaches_canBoCfgHook (v old : Nat) : Reaches (onPage 9) (inMram c) (canBoCfgHook c v old) :=
  reaches_read fun _ => reaches_whenU fun _ => reaches_forEach fun i _ => reaches_endSlot hc i 7

theorem within_canBoCtrlHook (v : Nat) : Within (onPage 9) (canBoCtrlHook c v) :=
  within_read fun _ => within_seq (within_set (onPage_can hc (by decide)))
    (within_whenU (within_seq (within_channelState hc 5) (within_set (onPage_can hc (by decide)))))

theorem within_rxRelease (v : Nat) : Within (onPage 9) (rxRelease c v) :=
  within_read fun _ => within_ite (within_rxAck hc _ _) (within_whenU (within_setLock hc _ none))

theorem within_rxNewHook (v base : Nat) : Within (onPage 9) (rxNewHook c v base) :=
  within_forN fun _ _ => within_whenU (within_rxAck hc 3 _)

end

theorem within_canTsSyncHook (v : Nat) : Within (onPage 9) (canTsSyncHook v) :=
  within_read fun _ => within_forN fun _ _ => within_whenU (within_upd _)

/-! ## A LIN channel's page -/

theorem onPage_lin {n o : Nat} (hn : n < 12) (ho : o < 256) : onPage 10 (cellBase 10 n + o) = true :=
  onPage_cell (show 0x1000 + 256 * n + o < 0x10000 by omega)

section
variable {n : Nat} (hn : n < 12)
include hn

theorem within_linState (st : Nat) : Within (onPage 10) (linState n st) := within_set (onPage_lin hn (by decide))

theorem within_linStop : Within (onPage 10) (linStop n) := within_seq (within_set (onPage_lin hn (by decide))) (within_upd _)

theorem within_linStart : Within (onPage 10) (linStart n) :=
  within_read fun _ => within_seq (within_upd _) (within_set (onPage_lin hn (by decide)))

theorem within_linAsleep : Within (onPage 10) (linAsleep n) := within_seqs ⟨within_linStop hn, within_linState hn 4, within_upd _⟩

theorem within_linWakeHold : Within (onPage 10) (linWakeHold n) :=
  within_read fun _ => within_whenU (within_seqs ⟨within_upd _, within_linStop hn⟩)

theorem within_linSchedHook (v old : Nat) : Within (onPage 10) (linSchedHook n v old) :=
  within_read fun _ => within_seqs ⟨within_set (onPage_lin hn (by decide)), within_whenU (within_linStart hn), within_whenU (within_upd _)⟩

theorem within_linCtrlHook (v : Nat) : Within (onPage 10) (linCtrlHook n v) :=
  within_read fun _ => within_seqs ⟨within_set (onPage_lin hn (by decide)), within_set (onPage_lin hn (by decide)),
    within_whenU (within_seqs ⟨within_whenU (within_linState hn 1), within_upd _, within_linWakeHold hn⟩),
    within_whenU (within_ite (within_upd _) (within_linAsleep hn))⟩

end

/-! ## Writes of the channels' registers -/

section
variable {o v : Nat} {pid : Pid} {x : Instr} {u : Upd} {s : State}

/-- A register of a CAN channel whose write is stored and starts its hook. -/
theorem writesAll_can (c : Fin 16) (o : Nat) (ho : o < 512 ∧ o % 4 = 0) (hrow : (rowAt (cellRows 9) o).isSome = true)
    (hx : exec x s = finish (put pid (cellBase 9 c + o) v) s)
    (hpre : ∀ r, s.preWrite .loc false pid (cellBase 9 c + o) v ⟨9, some c, o, r⟩ = (some v, .skip))
    (hu : ∀ r, writeStarts ⟨9, some c, o, r⟩ pid (cellBase 9 c + o) (s.reg (cellBase 9 c + o)) v = seqs [.skip, .skip, u, .skip]) :
    WritesAll x pid (cellBase 9 c + o) v (seqs [stored (cellBase 9 c + o) v, u]) s :=
  writesAll_cell_stored (by decide) c.isLt ho.1 ho.2 hrow hx hpre (fun _ => rfl) fun r => by rw [hu]; rfl

/-- A register of a LIN channel whose write is stored and starts its hook. -/
theorem writesAll_lin (n : Fin 12) (o : Nat) (ho : o < 256 ∧ o % 4 = 0) (hrow : (rowAt (cellRows 10) o).isSome = true)
    (hx : exec x s = finish (put pid (cellBase 10 n + o) v) s)
    (hpre : ∀ r, s.preWrite .loc false pid (cellBase 10 n + o) v ⟨10, some n, o, r⟩ = (some v, .skip))
    (hu : ∀ r, writeStarts ⟨10, some n, o, r⟩ pid (cellBase 10 n + o) (s.reg (cellBase 10 n + o)) v = seqs [.skip, .skip, u, .skip]) :
    WritesAll x pid (cellBase 10 n + o) v (seqs [stored (cellBase 10 n + o) v, u]) s :=
  writesAll_cell_stored (by decide) n.isLt ho.1 ho.2 hrow hx hpre (fun _ => rfl) fun r => by rw [hu]; rfl

end

end Sys2Proof.Machine

open Sys2Proof Sys2Proof.Machine

/-- Settles O52: each command is a write of its register, which stores the word or takes it, and starts the register's hook. -/
theorem canAndLinWrites : Obligations.CanAndLinWrites := by
  refine ⟨?request, ?cancel, ?recover, ?discard, ?tsSync, ?release, ?newClear, ?push, ?queueCancel, ?run, ?switch, ?sleep, ?wake, ?foot⟩
  case request =>
    exact fun _ c _ _ => writesAll_cell_silent (k := 9) (o := 0x64) (by decide) c.isLt (by decide) rfl rfl rfl fun _ => rfl
  case cancel =>
    exact fun _ c _ _ => writesAll_cell_silent (k := 9) (o := 0x68) (by decide) c.isLt (by decide) rfl rfl rfl fun _ => rfl
  case recover =>
    exact fun _ c _ => writes_of_writesAll (writesAll_can c 0x54 (by decide) rfl rfl (fun _ => rfl) fun _ => rfl)
      (within_seqs ⟨within_stored (onPage_can c.isLt (by decide)) _, within_canBoCtrlHook c.isLt 1⟩)
  case discard => exact fun _ c _ => writesAll_can c 0x50 (by decide) rfl rfl (fun _ => rfl) fun _ => rfl
  case tsSync =>
    exact fun _ _ _ => writes_of_writesAll (writesAll_page_stored (k := 9) (o := 0x108) (by decide) (by decide) rfl rfl rfl (fun _ => rfl)
      (fun _ => rfl) fun _ => rfl) (within_seqs ⟨within_stored (by decide) _, within_canTsSyncHook _⟩)
  case release =>
    exact fun _ c _ _ _ _ => writes_of_writesAll (writesAll_can c 0xE4 (by decide) rfl rfl (fun _ => rfl) fun _ => rfl)
      (within_seqs ⟨within_stored (onPage_can c.isLt (by decide)) _, within_rxRelease c.isLt _⟩)
  case newClear =>
    intro _ c hi _ _
    cases hi
    · exact writes_of_writesAll (writesAll_can c 0xCC (by decide) rfl rfl (fun _ => rfl) fun _ => rfl)
        (within_seqs ⟨within_stored (onPage_can c.isLt (by decide)) _, within_rxNewHook c.isLt _ _⟩)
    · exact writes_of_writesAll (writesAll_can c 0xD0 (by decide) rfl rfl (fun _ => rfl) fun _ => rfl)
        (within_seqs ⟨within_stored (onPage_can c.isLt (by decide)) _, within_rxNewHook c.isLt _ _⟩)
  case push => exact fun _ c _ => writesAll_can c 0xDC (by decide) rfl rfl (fun _ => rfl) fun _ => rfl
  case queueCancel =>
    exact fun _ c _ _ => writesAll_cell_silent (k := 9) (o := 0xE0) (by decide) c.isLt (by decide) rfl rfl rfl fun _ => rfl
  case run =>
    exact fun _ n _ _ _ => writes_of_writesAll (writesAll_lin n 0x28 (by decide) rfl rfl (fun _ => rfl) fun _ => rfl)
      (within_seqs ⟨within_stored (onPage_lin n.isLt (by decide)) _, within_linSchedHook n.isLt _ _⟩)
  case switch =>
    exact fun _ n _ _ => writes_of_writesAll (writesAll_lin n 0x28 (by decide) rfl rfl (fun _ => rfl) fun _ => rfl)
      (within_seqs ⟨within_stored (onPage_lin n.isLt (by decide)) _, within_linSchedHook n.isLt _ _⟩)
  case sleep =>
    exact fun _ n _ => writes_of_writesAll (writesAll_lin n 0x2C (by decide) rfl rfl (fun _ => rfl) fun _ => rfl)
      (within_seqs ⟨within_stored (onPage_lin n.isLt (by decide)) _, within_linCtrlHook n.isLt _⟩)
  case wake =>
    exact fun _ n _ => writes_of_writesAll (writesAll_lin n 0x2C (by decide) rfl rfl (fun _ => rfl) fun _ => rfl)
      (within_seqs ⟨within_stored (onPage_lin n.isLt (by decide)) _, within_linCtrlHook n.isLt _⟩)
  case foot =>
    intro c v s u hu
    have hreach : Reaches (onPage 9) (inMram c) u := by
      obtain rfl | rfl | rfl | rfl | ⟨old, rfl⟩ := hu
      · exact reaches_txRequest c.isLt v
      · exact reaches_txStopHook c.isLt v
      · exact reaches_txqStopHook c.isLt v
      · exact reaches_txqPush c.isLt
      · exact reaches_canBoCfgHook c.isLt v old
    refine ⟨(hreach s).1, fun a ha => (hreach s).2 a fun hin => ?_⟩
    simp only [inMram] at hin
    omega
end

section
/-!
Hardware semaphores (R602).
-/
namespace Sys2Proof.Machine

section
variable {i : Fin 64}

theorem fits_sem : ∀ i : Fin 64, (HBR_SEM_HELD i).fits = true ∧ (HBR_SEM_KIND i).fits = true ∧ (HBR_SEM_ID i).fits = true ∧
    (HBR_SEM_SUB i).fits = true := by decide

theorem flag_setReg_same {f : Fld} (hf : f.fits = true) (v : Nat) (s : State) : ((setReg f.reg v).run s).flag f = (bits v f.hi f.lo != 0) := by
  rw [State.flag, get_setReg_same hf]

/-! ## Owners -/

theorem ownerOf_kind_lt (o : Origin) (p : Nat) : (ownerOf o p).1 < 4 := by
  cases o with
  | loc => exact (by decide : 2 < 4)
  | host fn => exact (by decide : 1 < 4)
  | chain d n => exact (by decide : 3 < 4)

/-- The owner that a taken semaphore's register names. -/
theorem semOwner_setReg {k d b : Nat} (hk : k < 4) (hd : d < 64) (hb : b < 256) (s : State) :
    ((setReg (HBR_SEM i) (2 ^ 31 + k * 2 ^ 14 + d * 2 ^ 8 + b)).run s).semOwner i = (k, d, b) := by
  obtain ⟨_, hkind, hid, hsub⟩ := fits_sem i
  rw [State.semOwner, get_setReg_same hkind, get_setReg_same hid, get_setReg_same hsub]
  simp only [bits, Prod.mk.injEq]
  omega

/-! ## Taking and freeing -/

section
variable (o : Origin) (p : Nat) {s : State}

theorem semHook_take_of_free (h : s.flag (HBR_SEM_HELD i) = false) : (semHook i o p (2 ^ 31)).run s =
    (setReg (HBR_SEM i) (2 ^ 31 + (ownerOf o p).1 * 2 ^ 14 + (ownerOf o p).2.1 * 2 ^ 8 + (ownerOf o p).2.2)).run s := by
  simp only [semHook, Upd.run_read, h, Bool.false_eq_true, false_and, and_false, if_false]
  rfl

theorem semHook_take_of_held (h : s.flag (HBR_SEM_HELD i) = true) : (semHook i o p (2 ^ 31)).run s = s := by
  have h29 : bit (2 ^ 31) 29 = false := by decide
  simp only [semHook, Upd.run_read, h, h29, Bool.false_eq_true, false_and, if_false, Bool.not_true, Bool.and_false, whenU_false, Upd.run_skip]

theorem semHook_free_of_owner (h : s.flag (HBR_SEM_HELD i) = true) (ho : s.semOwner i = ownerOf o p) :
    (semHook i o p (2 ^ 29)).run s = (semFree i).run s := by
  have h29 : bit (2 ^ 29) 29 = true := by decide
  simp only [semHook, Upd.run_read, h, h29, ho, true_and, if_true]

theorem semHook_free_of_other (ho : s.semOwner i ≠ ownerOf o p) : (semHook i o p (2 ^ 29)).run s = s := by
  have h31 : bit (2 ^ 29) 31 = false := by decide
  have hno : ¬ (s.semOwner i = ((ownerOf o p).1, (ownerOf o p).2.1, (ownerOf o p).2.2)) := ho
  simp only [semHook, Upd.run_read, h31, hno, and_false, if_false, Bool.false_and, whenU_false, Upd.run_skip]

end

theorem semFree_held (s : State) : ((semFree i).run s).flag (HBR_SEM_HELD i) = false := by
  rw [semFree, flag_setReg_same (fits_sem i).1]
  exact (by decide : (bits 0 31 31 != 0) = false)

theorem semTimeout_frees {s : State} (h : s.flag (HBR_SEM_HELD i) = true) :
    ∃ t, Completes (.semTimeout i) s t ∧ t.flag (HBR_SEM_HELD i) = false ∧ t.bitAt (BLK_IRQ_STAT 14) 3 = true := by
  have hrun : (semTimeout i).run s = (raise 14 3).run ((semFree i).run s) := by
    simp only [semTimeout, Upd.run_read, h, whenU_true, Upd.run_seq]
  have hne : BLK_IRQ_STAT 14 ≠ HBR_SEM i := by simp only [BLK_IRQ_STAT, HBR_SEM]; omega
  refine ⟨_, hrun ▸ completes_of_finish rfl, ?_, raise_bitAt_same (by decide) _⟩
  rw [State.flag, get_raise hne]
  exact semFree_held s

/-! ## The access of the registers (R78, R602) -/

/-- No field of a semaphore's register asks for PID 1 or the boot, whoever writes what. -/
theorem semRow_free : ∀ i : Fin 64, ((rowAt (pageRows 14) (0x200 + 4 * i)).all fun r =>
    r.fs.all fun f => f.acc != .sp && f.acc != .spSc && f.acc != .spW1s && f.acc != .bl) = true := by decide

theorem actsSp_of_free {f : FSpec} (h : (f.acc != .sp && f.acc != .spSc && f.acc != .spW1s && f.acc != .bl) = true) (old v : Nat) :
    f.actsSp old v = false ∧ f.actsBl old v = false := by
  simp only [Bool.and_eq_true, bne_iff_ne] at h
  obtain ⟨⟨⟨hsp, hsc⟩, hs⟩, hbl⟩ := h
  refine ⟨?_, by rw [FSpec.actsBl, beq_eq_false_iff_ne.mpr hbl, Bool.false_and]⟩
  unfold FSpec.actsSp
  split <;> simp_all

theorem writeCause_sem (i : Fin 64) (p v : Nat) (s : State) : s.writeCause false p (HBR_SEM i) v = 0 := by
  have ha : HBR_SEM i = unitBase 14 + (0x200 + 4 * i.val) := Nat.add_assoc _ _ _
  obtain ⟨r, hr⟩ := Option.isSome_iff_exists.mp (rowAt_sem i)
  have hfree := semRow_free i
  rw [hr, Option.all_some, List.all_eq_true] at hfree
  have hsp (old : Nat) : r.fs.any (·.actsSp old v) = false := List.any_eq_false.mpr fun f hf => by
    rw [(actsSp_of_free (hfree f hf) old v).1]; decide
  have hbl (old : Nat) : r.fs.any (·.actsBl old v) = false := List.any_eq_false.mpr fun f hf => by
    rw [(actsSp_of_free (hfree f hf) old v).2]; decide
  rw [ha, State.writeCause, locate_page (by decide) (by omega) (by omega), hr]
  simp only [Option.map_some, hsp, hbl, Bool.false_eq_true, false_and, if_false]
  split
  · rfl
  · rw [if_neg (by omega), if_neg (by omega), if_neg (by omega), if_neg (by omega), if_pos ⟨trivial, by omega, by omega⟩]

/-! ## The granule that a semaphore covers -/

theorem semHolds_covers {f a n k : Nat} {s : State} (h : s.semHolds f a n = some k) :
    s.flag (HBR_SEM_HELD k) = true ∧ s.semOwner k ≠ (1, f, 0) ∧
      (let g := s.get (HBR_SEM_ADDR_LO_ADDR k) * 64 + s.get (HBR_SEM_ADDR_HI_ADDR_HI k) * 2 ^ 32
       a < g + 64 ∧ g < a + n) := by
  have hk := List.find?_some h
  simpa only [Bool.and_eq_true, bne_iff_ne, decide_eq_true_eq, and_assoc] using hk

end

end Sys2Proof.Machine

open Sys2Proof Sys2Proof.Machine

/-- Settles O11: a write's effect is the hook's, by the semaphore's holder and the writer. -/
theorem semaphores : Obligations.Semaphores := by
  refine ⟨?take, ?held, ?release, ?other, ?owners, ?access, ?timeout, ?granule⟩
  case take =>
    intro i o p s h hd hb
    refine ⟨?_, ?_, within_semHook i o p _ s⟩
    · rw [semHook_take_of_free o p h, flag_setReg_same (fits_sem i).1, bne_iff_ne]
      have := ownerOf_kind_lt o p
      simp only [bits]
      omega
    · rw [semHook_take_of_free o p h]
      exact semOwner_setReg (ownerOf_kind_lt o p) hd hb s
  case held => exact fun i o p s h => semHook_take_of_held o p h
  case release =>
    intro i o p s h ho
    exact ⟨by rw [semHook_free_of_owner o p h ho]; exact semFree_held s, within_semHook i o p _ s⟩
  case other => exact fun i o p s ho => semHook_free_of_other o p ho
  case owners => exact fun _ _ _ _ => ⟨rfl, rfl, rfl⟩
  case access => exact fun i p v s => writeCause_sem i p v.toNat s
  case timeout => exact fun i s h => semTimeout_frees h
  case granule => exact fun f a n k s h => semHolds_covers h
end

section
/-!
The sense inputs (R354 to R360).
-/
namespace Sys2Proof.Machine

/-- A command completes in the state that its operation makes, however that state is written. -/
theorem completes_as {c : Instr} {u : Upd} {s t : State} (h : Completes c s (u.run s)) (ht : u.run s = t) : Completes c s t := ht ▸ h

/-! ## The registers of an input -/

theorem fits_sni : ∀ n : Fin 48, (SNI_IN_VAL_VALUE n).fits = true ∧ (SNI_IN_VAL_VALID n).fits = true ∧ (SNI_IN_VAL_STATE n).fits = true ∧
    (SNI_IN_RAW_LAST n).fits = true := by decide

theorem onPage_sniVal : ∀ n : Fin 48, onPage 20 (SNI_IN_VAL n) = true ∧ onPage 20 (SNI_IN_RAW n) = true := by decide

theorem sni_irq_ne : ∀ n : Fin 48, BLK_IRQ_STAT 20 ≠ SNI_IN_VAL n := by decide

section
variable (n : Fin 48) (st : Bool)

/-- What the update of an input's state writes: the input's VAL, its bits among the states and the changes, the event. -/
def sniShows (n st o i : Nat) (ev : Bool) : Upd := seqs [
  set (SNI_IN_VAL_STATE n) st, putBit (unitBase 20 + (0x100 + o)) i (st != 0), setBit (unitBase 20 + (0x108 + o)) i, whenU ev (raise 20 0)]

theorem sniState_run (s : State) : ∃ o i ev, o < 8 ∧ (sniState n st).run s =
    (whenU (s.flag (SNI_IN_VAL_STATE n) != st) (sniShows n st.toNat o i ev)).run s := by
  have hst : (st.toNat != 0) = st := by cases st <;> rfl
  by_cases hn : n.val < 32
  · exact ⟨0, n, s.bitAt SNI_CHG_EN_LO n, by decide, by simp only [sniState, Upd.run_read, if_pos hn, sniShows, hst, Nat.add_zero]⟩
  · exact ⟨4, n - 32, s.bitAt SNI_CHG_EN_HI (n - 32), by decide, by simp only [sniState, Upd.run_read, if_neg hn, sniShows, hst]⟩

theorem within_sniShows {p : Nat → Bool} (hval : p (SNI_IN_VAL n) = true) (hlow : ∀ o < 0x400, p (unitBase 20 + o) = true) (v o i : Nat)
    (ho : o < 8) (ev : Bool) : Within p (sniShows n v o i ev) :=
  within_seqs ⟨within_set hval, within_putBit (hlow _ (by omega)), within_setBit (hlow _ (by omega)), within_whenU (within_setBit (hlow 0x10 (by decide)))⟩

/-- The update of an input's state stays in the input's VAL and the registers below the inputs'. -/
theorem within_sniState_of {p : Nat → Bool} (hval : p (SNI_IN_VAL n) = true) (hlow : ∀ o < 0x400, p (unitBase 20 + o) = true) :
    Within p (sniState n st) := fun s => by
  obtain ⟨o, i, ev, ho, hrun⟩ := sniState_run n st s
  rw [hrun]
  exact within_whenU (within_sniShows n hval hlow _ _ _ ho _) s

theorem within_sniState : Within (onPage 20) (sniState n st) :=
  within_sniState_of n st (onPage_sniVal n).1 fun o ho => onPage_unitBase 20 (Nat.lt_of_lt_of_le ho (by decide))

/-- The update of an input's state leaves the registers of the inputs, but for its VAL. -/
theorem sniState_reg_ne (s : State) {a : Nat} (hlo : unitBase 20 + 0x400 ≤ a) (h : SNI_IN_VAL n ≠ a) : ((sniState n st).run s).reg a = s.reg a := by
  refine (within_sniState_of n st (p := fun x => x != a) (bne_iff_ne.mpr h) (fun o ho => bne_iff_ne.mpr ?_) s).reg_eq (bne_self_eq_false a)
  exact Nat.ne_of_lt (Nat.lt_of_lt_of_le (Nat.add_lt_add_left ho _) hlo)

/-- What the update of an input's state does to its VAL. -/
theorem sniState_val (s : State) {f : Fld} (hf : f.reg = SNI_IN_VAL n) : ((sniState n st).run s).get f =
    if s.flag (SNI_IN_VAL_STATE n) = st then s.get f else ((set (SNI_IN_VAL_STATE n) st.toNat).run s).get f := by
  have hout {o : Nat} (ho : o < 0x400) : (unitBase 20 + o != SNI_IN_VAL n) = true := bne_iff_ne.mpr (by simp only [SNI_IN_VAL]; omega)
  obtain ⟨o, i, ev, ho, hrun⟩ := sniState_run n st s
  rw [hrun]
  split
  next h => rw [h, bne_self_eq_false, whenU_false, Upd.run_skip]
  next h =>
    have htail : Within (fun x => x != SNI_IN_VAL n) (seqs [putBit (unitBase 20 + (0x100 + o)) i (st.toNat != 0),
        setBit (unitBase 20 + (0x108 + o)) i, whenU ev (raise 20 0)]) :=
      within_seqs ⟨within_putBit (hout (by omega)), within_setBit (hout (by omega)), within_whenU (within_setBit (hout (by decide)))⟩
    rw [bne_iff_ne.mpr h, whenU_true]
    exact (htail _).get_eq (by rw [hf]; exact bne_self_eq_false _)

theorem sniState_sni (s : State) : ((sniState n st).run s).b.sni = s.b.sni := by
  obtain ⟨o, i, ev, _, hrun⟩ := sniState_run n st s
  rw [hrun]
  cases s.flag (SNI_IN_VAL_STATE n) != st
  · rfl
  · cases ev <;> rfl

theorem sniState_state (s : State) : ((sniState n st).run s).flag (SNI_IN_VAL_STATE n) = st := by
  rw [State.flag, sniState_val n st s rfl]
  split
  next h => rw [← h, State.flag]
  next => rw [get_set_same (fits_sni n).2.2.1]; cases st <;> rfl

theorem sniState_get_ne (s : State) {f : Fld} (hr : f.reg = SNI_IN_VAL n) (hf : f.fits = true) (h : f.hi < 16 ∨ 16 < f.lo) :
    ((sniState n st).run s).get f = s.get f := by
  rw [sniState_val n st s hr]
  split
  · rfl
  · exact get_set_ne (fits_sni n).2.2.1 hf (.inr h.symm) _ _

end

/-! ## SNI_SAMPLE_DUE -/

section
variable {n : Fin 48} {raw : Fin 4096} {s : State}

theorem completes_sniSampleDue (late : Bool) (hu : s.unarmed 20 = true) : Completes (.sniSampleDue n raw late) s ((sniSampleDue n raw late).run s) :=
  completes_of_work rfl hu

theorem sniSampleDue_of_off (late : Bool) (h : s.flag (SNI_IN_CFG_EN n) = false) : (sniSampleDue n raw late).run s = s := by
  simp only [sniSampleDue, Upd.run_read, h, Bool.false_and, whenU_false, Upd.run_skip]

/-- What an unfiltered sample leaves in an input's record. -/
def sniTaken (n : Fin 48) (raw : Fin 4096) (s : State) : SniIn :=
  let x := mapGet {} s.b.sni n.val
  let r := s.sniCompare n raw x.r
  ⟨r, r, 0, iirStep 4 (min 8 (max 1 (s.get (SNI_IN_FILT_FPARAM n)))) x.y raw, false⟩

/-- What an unfiltered sample does: the value stored and shown, the input's state by the comparison. -/
def sniTakes (n : Fin 48) (raw : Fin 4096) (s : State) : Upd := seqs [
  set (SNI_IN_RAW_LAST n) raw, set (SNI_IN_VAL_VALUE n) raw, set (SNI_IN_VAL_VALID n) 1, updSni n fun _ => sniTaken n raw s,
  sniState n ((sniTaken n raw s).r != s.flag (SNI_IN_THR_INVERT n))]

theorem within_sniTakes (n : Fin 48) (raw : Fin 4096) (s : State) : Within (onPage 20) (sniTakes n raw s) :=
  within_seqs ⟨within_set (onPage_sniVal n).2, within_set (onPage_sniVal n).1, within_set (onPage_sniVal n).1, within_upd _, within_sniState n _⟩

theorem sniTakes_sni (n : Fin 48) (raw : Fin 4096) (s : State) : mapGet {} ((sniTakes n raw s).run s).b.sni n = sniTaken n raw s := by
  simp only [sniTakes, seqs_cons_run, seqs_nil_run]
  rw [sniState_sni, updSni, upd_b]
  exact mapGet_mapPut_same _ _ _ _

section
variable (hen : s.flag (SNI_IN_CFG_EN n) = true) (hblk : s.flag (BLK_STAT_ENABLED 20) = true)
include hen hblk

section
variable (hfilt : s.get (SNI_IN_FILT_FILT n) = 2) (hfirst : (mapGet {} s.b.sni n).first = false) (hchg : s.flag (SNI_IN_PUB_ON_CHG n) = false)
include hfilt hfirst hchg

theorem sniSampleDue_of_unfiltered : (sniSampleDue n raw false).run s = (sniTakes n raw s).run s := by
  simp only [sniSampleDue, Upd.run_read, hen, hblk, hfilt, hfirst, hchg, Bool.and_self, Bool.and_false, whenU_true, whenU_false, sniSampleDue.free',
    Bool.false_eq_true, false_and, decide_false, if_false, false_or, ne_eq, OfNat.ofNat_ne_zero, not_false_eq_true, true_or, if_true,
    (by decide : ¬ 2 = 1), sniTakes, sniTaken, seqs_cons_run, seqs_nil_run, Upd.run_skip]

theorem sniSampleDue_takes (hu : s.unarmed 20 = true) : let r := s.sniCompare n raw (mapGet {} s.b.sni n).r
    ∃ t, Completes (.sniSampleDue n raw false) s t ∧ t.get (SNI_IN_RAW_LAST n) = raw ∧ t.get (SNI_IN_VAL_VALUE n) = raw ∧
      t.flag (SNI_IN_VAL_VALID n) = true ∧ t.flag (SNI_IN_VAL_STATE n) = (r != s.flag (SNI_IN_THR_INVERT n)) ∧
      (mapGet {} t.b.sni n).r = r ∧ Untouched (onPage 20) s t := by
  obtain ⟨hvalue, hvalid, _, hraw⟩ := fits_sni n
  have hapart : SNI_IN_RAW n ≠ SNI_IN_VAL n := by simp only [SNI_IN_RAW, SNI_IN_VAL]; omega
  refine ⟨_, completes_as (completes_sniSampleDue false hu) (sniSampleDue_of_unfiltered hen hblk hfilt hfirst hchg), ?_, ?_, ?_, ?_, ?_, ?_⟩
  · simp only [sniTakes, seqs_cons_run, seqs_nil_run]
    have hreg : ∀ t : State, ((sniState n ((sniTaken n raw s).r != s.flag (SNI_IN_THR_INVERT n))).run t).get (SNI_IN_RAW_LAST n) =
        t.get (SNI_IN_RAW_LAST n) := fun t => by
      rw [State.get, sniState_reg_ne n _ t (by simp only [SNI_IN_RAW]; omega) hapart.symm, State.get]
    rw [hreg, updSni, upd_get, get_set_ne_reg hapart.symm, get_set_ne_reg hapart.symm, get_set_same hraw]
    exact Nat.mod_eq_of_lt raw.isLt
  · simp only [sniTakes, seqs_cons_run, seqs_nil_run]
    rw [sniState_get_ne n _ _ rfl hvalue (.inl (show 11 < 16 by decide)), updSni, upd_get, get_set_ne hvalid hvalue (.inr (.inr (show 11 < 31 by decide))), get_set_same hvalue]
    exact Nat.mod_eq_of_lt raw.isLt
  · simp only [sniTakes, seqs_cons_run, seqs_nil_run, State.flag]
    rw [sniState_get_ne n _ _ rfl hvalid (.inr (show 16 < 31 by decide)), updSni, upd_get, get_set_same hvalid]
    rfl
  · simp only [sniTakes, seqs_cons_run, seqs_nil_run]
    rw [sniState_state]
    rfl
  · rw [sniTakes_sni]
    rfl
  · exact within_sniTakes n raw s s

end

/-! ## SNI_CONV_TIMEOUT -/

theorem sniConvTimeout_reports : ∃ t, Completes (.sniConvTimeout n) s t ∧ t.flag (SNI_IN_VAL_VALID n) = false ∧ t.bitAt (BLK_IRQ_STAT 20) 2 = true ∧
    t.bitAt (BLK_ERR_STAT 20) TR = true ∧ Untouched (faultFoot 20) s t := by
  have hrun : (sniConvTimeout n).run s = (report 20 none TR).run ((raise 20 2).run ((set (SNI_IN_VAL_VALID n) 0).run s)) := by
    simp only [sniConvTimeout, Upd.run_read, hen, hblk, Bool.and_self, whenU_true, seqs_cons_run, seqs_nil_run]
  have hrep : Within (reportFoot 20) (report 20 none TR) := within_report_block (by decide) (by decide)
  have hval : ∀ n : Fin 48, reportFoot 20 (SNI_IN_VAL n) = false := by decide
  refine ⟨_, completes_as (completes_of_finish rfl) hrun, ?_, ?_, report_block_errStat (by decide) (by decide) (by decide) (by decide) _, ?_⟩
  · rw [(hrep _).flag_eq (hval n), State.flag, get_raise (sni_irq_ne n), get_set_same (fits_sni n).2.1]
    rfl
  · rw [bitAt_of_reg_eq ((hrep _).reg_eq (by decide))]
    exact raise_bitAt_same (by decide) _
  · have hset : Within (onPage 20) (set (SNI_IN_VAL_VALID n) 0) := within_set (onPage_sniVal n).1
    exact (((hset s).trans (within_raise 20 2 _)).mono faultFoot_of_onPage).trans ((hrep _).mono faultFoot_of_reportFoot)

end

/-! ## SNI_PUBLISH -/

theorem sniConvTimeout_of_off (h : s.flag (SNI_IN_CFG_EN n) = false) : (sniConvTimeout n).run s = s := by
  simp only [sniConvTimeout, Upd.run_read, h, Bool.false_and, whenU_false, Upd.run_skip]

theorem sniPublish_of_off (h : s.flag (SNI_IN_CFG_EN n) = false) : (sniPublish n).run s = s := by
  simp only [sniPublish, Upd.run_read, h, Bool.false_and, Bool.and_false, whenU_false, Upd.run_skip]

theorem sniPublish_of_on (hpub : s.flag (SNI_IN_PUB_EN n) = true) (hper : s.flag (SNI_IN_PUB_CFG_PERIOD_MS n) = true)
    (hen : s.flag (SNI_IN_CFG_EN n) = true) (hblk : s.flag (BLK_STAT_ENABLED 20) = true) :
    (sniPublish n).run s = (sigInternal (s.devNum * 2 ^ 25 + s.get (SNI_IN_PUB_GSID n)) (s.reg (SNI_IN_VAL n))).run s := by
  simp only [sniPublish, sniPublishNow, Upd.run_read, hpub, hper, hen, hblk, Bool.and_self, whenU_true]

end

end Sys2Proof.Machine

open Sys2Proof Sys2Proof.Machine

/-- Settles O33: the unfiltered sample is `sniTakes`; a timeout clears VALID before its event and its report. -/
theorem senseInputEvents : Obligations.SenseInputEvents := by
  refine ⟨?sample, ?sampleOff, ?timeout, ?off, ?publish⟩
  case sample => exact fun n raw s hu hen hblk hfilt hfirst hchg => sniSampleDue_takes hen hblk hfilt hfirst hchg hu
  case sampleOff =>
    exact fun n raw late s hu h => does_of_completes (completes_sniSampleDue late hu) (sniSampleDue_of_off late h) within_skip
  case timeout => exact fun n s hen hblk => sniConvTimeout_reports hen hblk
  case off =>
    exact fun n s h => ⟨does_of_completes (completes_of_finish rfl) (sniConvTimeout_of_off h) within_skip,
      does_of_completes (completes_of_finish rfl) (sniPublish_of_off h) within_skip⟩
  case publish => exact fun n s hpub hper hen hblk => completes_as (completes_of_finish rfl) (sniPublish_of_on hpub hper hen hblk)
end

section
/-!
The time base's events (R469 to R479).
-/
namespace Sys2Proof.Machine

/-! ## Whole registers -/

/-- A register without reserved bits reads as what was written. -/
theorem reg_setReg_whole {a : Nat} (h : (whole a).fits = true) (v : Nat) (s : State) : ((setReg a v).run s).reg a = v % 2 ^ 32 := by
  rw [← get_whole]
  refine (get_setReg_same h v s).trans ?_
  simp only [bits, Nat.pow_zero, Nat.div_one]

theorem raise_bitAt_ne {k i a : Nat} (h : BLK_IRQ_STAT k ≠ a) (j : Nat) (s : State) : ((raise k i).run s).bitAt a j = s.bitAt a j :=
  bitAt_of_reg_eq (setBit_reg_ne s h) j

/-! ## Slews (R469) -/

section
variable {s : State}

theorem slewDone_run (h : s.flag TMB_STAT_SLEWING = true) : slewDone.run s = (raise 12 4).run ((set TMB_STAT_SLEWING 0).run
    ((updTmb fun x => { x with acc := ((s.b.tmb.acc : Int) + s.b.tmb.rem).toNat, rem := 0 }).run s)) := by
  simp only [slewDone, slewEnd, Upd.run_read, h, whenU_true, Upd.run_seq, updTmb, upd_flag]
  rfl

theorem slewDone_ends (h : s.flag TMB_STAT_SLEWING = true) :
    ∃ t, Completes .slewDone s t ∧ t.b.tmb.acc = ((s.b.tmb.acc : Int) + s.b.tmb.rem).toNat ∧ t.b.tmb.rem = 0 ∧
      t.flag TMB_STAT_SLEWING = false ∧ t.bitAt (BLK_IRQ_STAT 12) 4 = true ∧ Untouched (onPage 12) s t := by
  refine ⟨_, completes_as (completes_of_finish rfl) (slewDone_run h), rfl, rfl, ?_, raise_bitAt_same (by decide) _, ?_⟩
  · rw [State.flag, get_raise (by decide), get_set_same (by decide)]
    rfl
  · exact ((within_upd _ s).trans (within_set (f := TMB_STAT_SLEWING) (by decide) _)).trans (within_raise 12 4 _)

end

/-! ## The dice's copies of device time (R473) -/

/-- Bits of one register cleared one by one, each under its own condition. -/
theorem bitAt_forEach_clrBit {a o : Nat} {c : Nat → Bool} {j : Nat} (l : List Nat) (hl : ∀ i ∈ l, (⟨a, o + i, o + i⟩ : Fld).fits = true)
    (hj : (⟨a, o + j, o + j⟩ : Fld).fits = true) (s : State) :
    ((forEach l fun i => whenU (c i) (clrBit a (o + i))).run s).bitAt a (o + j) = (s.bitAt a (o + j) && !(l.contains j && c j)) := by
  induction l generalizing s with
  | nil => simp only [forEach_nil_run, List.contains_nil, Bool.false_and, Bool.not_false, Bool.and_true]
  | cons i l ih =>
    obtain ⟨hi, hl⟩ := List.forall_mem_cons.mp hl
    have hone : ((whenU (c i) (clrBit a (o + i))).run s).bitAt a (o + j) = (s.bitAt a (o + j) && !(j == i && c i)) := by
      cases hc : c i
      · simp only [whenU_false, Upd.run_skip, Bool.and_false, Bool.not_false, Bool.and_true]
      · by_cases hij : j = i
        · subst hij
          simp only [whenU_true, bitAt_clrBit_same hj, beq_self_eq_true, Bool.and_self, Bool.not_true, Bool.and_false]
        · rw [whenU_true, clrBit_eq, bitAt_eq, get_set_ne hi hj (.inr (show o + i < o + j ∨ o + j < o + i by omega)), ← bitAt_eq,
            beq_false_of_ne hij, Bool.false_and, Bool.not_false, Bool.and_true]
    rw [forEach_cons_run, ih hl, hone, List.contains_cons]
    by_cases hij : j = i
    · subst hij
      cases s.bitAt a (o + j) <;> cases c j <;> simp
    · rw [beq_false_of_ne hij, Bool.false_and, Bool.not_false, Bool.and_true, Bool.false_or]

theorem fits_dieUnsync : ∀ i < 4, (⟨TMB_STAT, 16 + i, 16 + i⟩ : Fld).fits = true := by decide

theorem dieTimeUpdate_clears (got : Fin 16) {s : State} (hu : s.unarmed 12 = true) :
    ∃ t, Completes (.dieTimeUpdate got) s t ∧ Untouched (· == TMB_STAT) s t ∧
      ∀ d : Fin 4, t.bitAt TMB_STAT (16 + d.val) = (s.bitAt TMB_STAT (16 + d.val) && !((s.die d).on && bit got d)) := by
  refine ⟨_, completes_of_work rfl hu, ?_, fun d => ?_⟩
  · have hw : Within (· == TMB_STAT) (dieTimeUpdate got) :=
      within_read fun _ => within_forN fun _ _ => within_whenU (within_clrBit (beq_self_eq_true TMB_STAT))
    exact hw s
  · have hmem : (List.range 4).contains d.val = true := List.contains_iff_mem.mpr (List.mem_range.mpr d.isLt)
    rw [dieTimeUpdate, Upd.run_read, forN, bitAt_forEach_clrBit (c := fun i => (s.die i).on && bit got i) _
      (fun i hi => fits_dieUnsync i (List.mem_range.mp hi)) (fits_dieUnsync d d.isLt), hmem, Bool.true_and]

theorem dieUnsync_reports {d : Fin 4} {s : State} (h : (s.die d).on = true) :
    ∃ t, Completes (.dieUnsync d) s t ∧ t.bitAt TMB_STAT (16 + d.val) = true ∧ t.bitAt (BLK_IRQ_STAT 12) 5 = true ∧
      t.bitAt (BLK_ERR_STAT 12) TR = true ∧ Untouched (faultFoot 12) s t := by
  have hrun : (dieUnsync d).run s = (report 12 none TR).run ((raise 12 5).run ((setBit TMB_STAT (16 + d.val)).run s)) := by
    simp only [dieUnsync, Upd.run_read, h, whenU_true, seqs_cons_run, seqs_nil_run]
  have hrep : Within (reportFoot 12) (report 12 none TR) := within_report_block (by decide) (by decide)
  have hset : Within (onPage 12) (setBit TMB_STAT (16 + d.val)) := within_setBit (by decide)
  refine ⟨_, completes_as (completes_of_finish rfl) hrun, ?_, ?_, report_block_errStat (by decide) (by decide) (by decide) (by decide) _, ?_⟩
  · rw [bitAt_of_reg_eq ((hrep _).reg_eq (by decide)), raise_bitAt_ne (by decide)]
    exact bitAt_setBit_same (fits_dieUnsync d d.isLt) s
  · rw [bitAt_of_reg_eq ((hrep _).reg_eq (by decide))]
    exact raise_bitAt_same (by decide) _
  · exact (((hset s).trans (within_raise 12 5 _)).mono faultFoot_of_onPage).trans ((hrep _).mono faultFoot_of_reportFoot)

/-! ## The pulse per second (R477, R478) -/

/-- What the edge of the pulse captures of device time, while the module does not follow it. -/
def ppsTakes (time : Nat) : Upd := seqs [setReg64 TMB_PPS_CAP_LO TMB_PPS_CAP_HI time, raise 12 2]

theorem within_ppsTakes (time : Nat) : Within (onPage 12) (ppsTakes time) :=
  within_seqs ⟨within_seq (within_setReg (by decide)) (within_setReg (by decide)), within_raise 12 2⟩

theorem ppsTakes_lo (time : Nat) (s : State) : ((ppsTakes time).run s).reg TMB_PPS_CAP_LO = time % 2 ^ 32 := by
  have hrest : Within (fun a => a == TMB_PPS_CAP_HI || a == BLK_IRQ_STAT 12) (seqs [setReg TMB_PPS_CAP_HI (time / 2 ^ 32), raise 12 2]) :=
    within_seqs ⟨within_setReg (by decide), within_setBit (by decide)⟩
  refine ((hrest _).reg_eq (by decide)).trans ?_
  rw [reg_setReg_whole (by decide), Nat.mod_mod]

theorem ppsTakes_irq (time : Nat) (s : State) : ((ppsTakes time).run s).bitAt (BLK_IRQ_STAT 12) 2 = true := raise_bitAt_same (by decide) _

section
variable {s : State} (hblk : s.flag (BLK_STAT_ENABLED 12) = true) (hfollow : s.flag TMB_PPS_CFG_FOLLOW = false)

include hblk hfollow in
theorem ppsEdge_of_unfollowed : ppsEdge.run s = (ppsTakes s.devTime).run s := by
  simp only [ppsEdge, Upd.run_read, hblk, hfollow, whenU_true, whenU_false, ppsTakes, seqs_cons_run, seqs_nil_run, Upd.run_skip]

section
variable (hsync : s.b.tmb.sync = false)
include hsync

include hblk hfollow in
theorem ppsCapture_captures : ∃ t, Completes .ppsCapture s t ∧ t.reg TMB_PPS_CAP_LO = s.devTime % 2 ^ 32 ∧ t.bitAt (BLK_IRQ_STAT 12) 2 = true ∧
    t.b.tmb.rem = s.b.tmb.rem ∧ Untouched (onPage 12) s t := by
  have hrun : ppsCapture.run s = (ppsTakes s.devTime).run s := by
    simp only [ppsCapture, Upd.run_read, hsync, Bool.not_false, whenU_true, ppsEdge_of_unfollowed hblk hfollow]
  exact ⟨_, completes_as (completes_of_finish rfl) hrun, ppsTakes_lo _ _, ppsTakes_irq _ _, rfl, within_ppsTakes _ _⟩

/-- The state in which the module drives the pulse. -/
def State.syncHigh (s : State) : State := (set FLK_SB_STAT_SYNC 1).run ((updTmb fun x => { x with sync := true }).run s)

omit hsync in
theorem syncHigh_untouched (s : State) : Untouched (· == FLK_SB_STAT) s s.syncHigh :=
  (within_upd _ s).trans (within_set (f := FLK_SB_STAT_SYNC) (by decide) _)

include hblk hfollow in
theorem ppsPulse_of_driven (hdrive : s.flag TMB_PPS_CFG_DRIVE = true) (hchain : s.get MSU_BOOT_CFG_CHAIN_MODE ≠ 0) :
    ppsPulse.run s = (ppsTakes s.devTime).run s.syncHigh := by
  have hedge : ppsEdge.run s.syncHigh = (ppsTakes s.devTime).run s.syncHigh :=
    ppsEdge_of_unfollowed (by rw [(syncHigh_untouched s).flag_eq (by decide), hblk]) (by rw [(syncHigh_untouched s).flag_eq (by decide), hfollow])
  simp only [ppsPulse, Upd.run_read, hdrive, bne_iff_ne.mpr hchain, hblk, hsync, Bool.not_false, Bool.and_self, whenU_true, seqs_cons_run,
    seqs_nil_run]
  exact hedge

include hblk hfollow in
theorem ppsPulse_drives (hu : s.unarmed 12 = true) (hdrive : s.flag TMB_PPS_CFG_DRIVE = true) (hchain : s.get MSU_BOOT_CFG_CHAIN_MODE ≠ 0) :
    ∃ t, Completes .ppsPulse s t ∧ t.b.tmb.sync = true ∧ t.flag FLK_SB_STAT_SYNC = true ∧ t.reg TMB_PPS_CAP_LO = s.devTime % 2 ^ 32 ∧
      t.bitAt (BLK_IRQ_STAT 12) 2 = true ∧ Untouched (fun a => onPage 12 a || a == FLK_SB_STAT) s t := by
  have hfoot : Untouched (fun a => onPage 12 a || a == FLK_SB_STAT) s ((ppsTakes s.devTime).run s.syncHigh) :=
    ((syncHigh_untouched s).mono fun a h => by rw [h, Bool.or_true]).trans ((within_ppsTakes _ _).mono fun a h => by rw [h, Bool.true_or])
  refine ⟨_, completes_as (completes_of_work rfl hu) (ppsPulse_of_driven hblk hfollow hsync hdrive hchain), rfl, ?_, ppsTakes_lo _ _,
    ppsTakes_irq _ _, hfoot⟩
  rw [(within_ppsTakes _ _).flag_eq (by decide), State.syncHigh, flag_set_same (by decide)]
  rfl

end

theorem ppsPulseEnd_lowers (hsync : s.b.tmb.sync = true) :
    ∃ t, Completes .ppsPulseEnd s t ∧ t.b.tmb.sync = false ∧ t.flag FLK_SB_STAT_SYNC = false ∧ Untouched (· == FLK_SB_STAT) s t := by
  have hrun : ppsPulseEnd.run s = (set FLK_SB_STAT_SYNC 0).run ((updTmb fun x => { x with sync := false }).run s) := by
    simp only [ppsPulseEnd, Upd.run_read, hsync, whenU_true, Upd.run_seq]
  refine ⟨_, completes_as (completes_of_finish rfl) hrun, rfl, ?_, (within_upd _ s).trans (within_set (f := FLK_SB_STAT_SYNC) (by decide) _)⟩
  rw [flag_set_same (by decide)]
  rfl

theorem ppsCapture_of_driven (hsync : s.b.tmb.sync = true) : ppsCapture.run s = s := by
  simp only [ppsCapture, Upd.run_read, hsync, Bool.not_true, whenU_false, Upd.run_skip]

end

/-! ## Captures of a CAN channel's counter (R479) -/

/-- What a capture stores: the channel's counter and device time. -/
def canTakes (cnt time : Nat) : Upd := seqs [setReg TMB_CAN_CNT cnt, setReg64 TMB_CAN_DT_LO TMB_CAN_DT_HI time, raise 12 6]

theorem within_canTakes (cnt time : Nat) : Within (onPage 12) (canTakes cnt time) :=
  within_seqs ⟨within_setReg (by decide), within_seq (within_setReg (by decide)) (within_setReg (by decide)), within_raise 12 6⟩

theorem canCaptureAuto_captures {s : State} (hauto : s.flag TMB_CAN_CAP_AUTO_MS = true) (hblk : s.flag (BLK_STAT_ENABLED 12) = true) :
    ∃ t, Completes .canCaptureAuto s t ∧ t.reg TMB_CAN_CNT = s.canTs (s.get TMB_CAN_CAP_CH) % 2 ^ 32 ∧ t.reg TMB_CAN_DT_LO = s.devTime % 2 ^ 32 ∧
      t.bitAt (BLK_IRQ_STAT 12) 6 = true ∧ Untouched (onPage 12) s t := by
  have hrun : canCaptureAuto.run s = (canTakes (s.canTs (s.get TMB_CAN_CAP_CH)) s.devTime).run s := by
    simp only [canCaptureAuto, canCapt, Upd.run_read, hauto, hblk, whenU_true, canTakes]
  refine ⟨_, completes_as (completes_of_finish rfl) hrun, ?_, ?_, raise_bitAt_same (by decide) _, within_canTakes _ _ _⟩
  · have hrest (lo hi : Nat) : Within (fun a => a == TMB_CAN_DT_LO || a == TMB_CAN_DT_HI || a == BLK_IRQ_STAT 12)
        (seqs [setReg TMB_CAN_DT_LO lo, setReg TMB_CAN_DT_HI hi, raise 12 6]) :=
      within_seqs ⟨within_setReg (by decide), within_setReg (by decide), within_setBit (by decide)⟩
    exact ((hrest _ _ _).reg_eq (by decide)).trans (reg_setReg_whole (by decide) _ s)
  · have hrest (hi : Nat) : Within (fun a => a == TMB_CAN_DT_HI || a == BLK_IRQ_STAT 12) (seqs [setReg TMB_CAN_DT_HI hi, raise 12 6]) :=
      within_seqs ⟨within_setReg (by decide), within_setBit (by decide)⟩
    refine ((hrest _ _).reg_eq (by decide)).trans ((reg_setReg_whole (by decide) _ _).trans ?_)
    exact Nat.mod_mod _ _

end Sys2Proof.Machine

open Sys2Proof Sys2Proof.Machine

/-- Settles O32: each event is the updates that its rule names, in their order. -/
theorem timeBaseEvents : Obligations.TimeBaseEvents := by
  refine ⟨?slew, ?dieTime, ?unsync, ?pulse, ?pulseEnd, ?capture, ?ownEdge, ?canCapture⟩
  case slew => exact fun s h => slewDone_ends h
  case dieTime => exact fun got s hu => dieTimeUpdate_clears got hu
  case unsync => exact fun d s h => dieUnsync_reports h
  case pulse => exact fun s hu hdrive hchain hblk hsync hfollow => ppsPulse_drives hblk hfollow hsync hu hdrive hchain
  case pulseEnd => exact fun s h => ppsPulseEnd_lowers h
  case capture => exact fun s hsync hblk hfollow => ppsCapture_captures hblk hfollow hsync
  case ownEdge => exact fun s h => does_of_completes (completes_of_finish rfl) (ppsCapture_of_driven h) within_skip
  case canCapture => exact fun s hauto hblk => canCaptureAuto_captures hauto hblk
end

section
/-!
The host bridge's events (R576 to R603).
-/
namespace Sys2Proof.Machine

/-! ## What an expired read tells -/

/-- The record of an expired read, its event and its count (R594, R599), as HOST_READ_TIMEOUT makes them for function `fn`. -/
def readExpired (fn : Nat) : Upd := seqs [rdErr 1 fn, raise 14 1, count HBR_CNT_RD_TIMEOUT, msixSend 0 0]

theorem msixSend_hbr (fn v : Nat) (s : State) : ∃ pba, ((msixSend fn v).run s).b.hbr = { s.b.hbr with pba := pba } := by
  rw [msixSend, Upd.run_read]
  split
  · exact (Classical.em (s.pcie && s.hostUp && s.b.hbr.msixOn.contains fn)).elim
      (fun h => ⟨_, by rw [h]; rfl⟩) fun h => ⟨s.b.hbr.pba, by rw [Bool.eq_false_iff.mpr h]; rfl⟩
  · exact ⟨s.b.hbr.pba, by cases s.pcie && s.hostUp && s.b.hbr.msixOn.contains fn <;> rfl⟩

theorem within_msixSend_cnt (fn v : Nat) : Within (· == HBR_CNT_DEV_WR) (msixSend fn v) :=
  within_read fun _ => within_whenU (within_ite (within_upd _) (within_count (beq_self_eq_true _)))

theorem within_rdErr (kind fn : Nat) : Within (onPage 14) (rdErr kind fn) :=
  within_seqs ⟨within_set (by decide), within_set (by decide), within_inc (by decide)⟩

theorem within_readExpired (fn : Nat) : Within (onPage 14) (readExpired fn) :=
  within_seqs ⟨within_rdErr 1 fn, within_raise 14 1, within_count (by decide), within_msixSend 0 0⟩

theorem readExpired_run (fn : Nat) (s : State) : (readExpired fn).run s =
    (msixSend 0 0).run ((count HBR_CNT_RD_TIMEOUT).run ((raise 14 1).run ((rdErr 1 fn).run s))) := by
  simp only [readExpired, seqs_cons_run, seqs_nil_run]

theorem rdErr_run (kind fn : Nat) (s : State) : (rdErr kind fn).run s =
    (inc HBR_RD_ERR_CNT).run ((set HBR_RD_ERR_FUNC fn).run ((set HBR_RD_ERR_KIND kind).run s)) := by
  simp only [rdErr, seqs_cons_run, seqs_nil_run]

theorem count_b (a n : Nat) (s : State) : ((count a n).run s).b = s.b := inc_b _ _ s

theorem raise_b (k i : Nat) (s : State) : ((raise k i).run s).b = s.b := setBit_b _ _ s

theorem readExpired_hbr (fn : Nat) (s : State) : ∃ pba, ((readExpired fn).run s).b.hbr = { s.b.hbr with pba := pba } := by
  obtain ⟨pba, h⟩ := msixSend_hbr 0 0 ((count HBR_CNT_RD_TIMEOUT).run ((raise 14 1).run ((rdErr 1 fn).run s)))
  refine ⟨pba, ?_⟩
  rw [readExpired_run, h, count_b, raise_b, rdErr_run, inc_b, set_b, set_b]

theorem readExpired_irq (fn : Nat) (s : State) : ((readExpired fn).run s).bitAt (BLK_IRQ_STAT 14) 1 = true := by
  rw [readExpired_run, bitAt_of_reg_eq ((within_msixSend_cnt 0 0 _).reg_eq (by decide)), bitAt_of_reg_eq (count_reg_ne _ (by decide))]
  exact raise_bitAt_same (by decide) _

theorem readExpired_kind (fn : Nat) (s : State) : ((readExpired fn).run s).get HBR_RD_ERR_KIND = 1 := by
  rw [readExpired_run, (within_msixSend_cnt 0 0 _).get_eq (by decide), State.get, count_reg_ne _ (by decide), ← State.get, get_raise (by decide),
    rdErr_run, inc_eq, get_set_ne (by decide) (by decide) (by decide), get_set_ne (by decide) (by decide) (by decide), get_set_same (by decide)]
  rfl

theorem showTrk_b (s : State) : (showTrk.run s).b = s.b := by simp only [showTrk, Upd.run_read, Upd.run_seq, set_b]

/-! ## HOST_READ_TIMEOUT -/

section
variable {i : Nat} {s : State}

theorem hostReadTimeout_of_read {r : HostRd} (h : s.b.hbr.reads[i]? = some r) : (hostReadTimeout i false).run s =
    (updFab fun f => { f with resp := { ok := false, cause := 0 } }).run ((hostRdAer r 0).run ((readExpired r.func).run (showTrk.run
      ((updHbr fun h => { h with reads := h.reads.erase r }).run s)))) := by
  simp only [hostReadTimeout, Upd.run_read, Bool.false_eq_true, if_false, h, readExpired, seqs_cons_run, seqs_nil_run]

theorem hostReadTimeout_ends {r : HostRd} (h : s.b.hbr.reads[i]? = some r) :
    ∃ t, Completes (.hostReadTimeout i false) s t ∧ t.b.hbr.reads = s.b.hbr.reads.erase r ∧ t.b.fab.resp.ok = false ∧
      t.bitAt (BLK_IRQ_STAT 14) 1 = true ∧ t.get HBR_RD_ERR_KIND = 1 ∧ Untouched (onPage 14) s t := by
  refine ⟨_, completes_as (completes_of_finish rfl) (hostReadTimeout_of_read h), ?_, ?_, ?_, ?_, ?_⟩
  · obtain ⟨pba, hpba⟩ := readExpired_hbr r.func (showTrk.run ((updHbr fun h => { h with reads := h.reads.erase r }).run s))
    rw [updFab, upd_b, hostRdAer, aerLog, upd_b, hpba, showTrk_b, updHbr, upd_b]
  · rw [updFab, upd_b]
  · rw [updFab, upd_bitAt, hostRdAer, aerLog, upd_bitAt, readExpired_irq]
  · rw [updFab, upd_get, hostRdAer, aerLog, upd_get, readExpired_kind]
  · exact ((((within_upd _ s).trans (within_showTrk _)).trans (within_readExpired r.func _)).trans (within_upd _ _)).trans (within_upd _ _)

/-! ### A barrier that a host waits for -/

theorem within_wsyncEnd (b : Barrier) (timeout : Bool) : Within (onPage 14) (wsyncEnd b timeout) := by
  refine within_read fun s => within_seqs ⟨within_upd _, within_whenU (within_setReg (by decide)), ?_, within_showTrk⟩
  split
  · exact within_upd _
  · exact within_upd _

theorem wsyncEnd_barriers (b : Barrier) (timeout : Bool) (s : State) : ((wsyncEnd b timeout).run s).b.hbr.barriers = s.b.hbr.barriers.erase b := by
  rw [wsyncEnd, Upd.run_read]
  simp only [seqs_cons_run, seqs_nil_run]
  rw [showTrk_b]
  cases b.reply with
  | some p => cases b.recN == 256 <;> rfl
  | none => cases b.recN == 256 <;> rfl

theorem hostReadTimeout_of_barrier {b : Barrier} (h : s.b.hbr.barriers.find? (·.host) = some b) : (hostReadTimeout 0 true).run s =
    (aerLog ⟨s.recFn b.recN, .abort, false, 0, if b.recN < 256 then IOM_IP_WSYNC b.recN else HBR_WSYNC, 4⟩).run
      ((readExpired (s.recFn b.recN)).run ((wsyncEnd b true).run s)) := by
  simp only [hostReadTimeout, Upd.run_read, if_true, h, readExpired, seqs_cons_run, seqs_nil_run]

theorem hostReadTimeout_endsBarrier {b : Barrier} (h : s.b.hbr.barriers.find? (·.host) = some b) :
    ∃ t, Completes (.hostReadTimeout 0 true) s t ∧ t.b.hbr.barriers = s.b.hbr.barriers.erase b ∧ t.bitAt (BLK_IRQ_STAT 14) 1 = true ∧
      Untouched (onPage 14) s t := by
  refine ⟨_, completes_as (completes_of_finish rfl) (hostReadTimeout_of_barrier h), ?_, ?_, ?_⟩
  · obtain ⟨pba, hpba⟩ := readExpired_hbr (s.recFn b.recN) ((wsyncEnd b true).run s)
    rw [aerLog, upd_b, hpba]
    exact wsyncEnd_barriers b true s
  · rw [aerLog, upd_bitAt, readExpired_irq]
  · exact ((within_wsyncEnd b true s).trans (within_readExpired _ _)).trans (within_upd _ _)

/-! ## DEV_READ_TIMEOUT -/

theorem devReadTimeout_of_read {r : DevRd} (h : s.b.hbr.devRd[i]? = some r) : (devReadTimeout i).run s =
    (devRdEnd r false []).run ((devAer r .timeout).run (showTrk.run ((raise 14 2).run ((count HBR_CNT_DEV_CPL_TO).run
      ((updHbr fun h => { h with devRd := h.devRd.erase r }).run s))))) := by
  simp only [devReadTimeout, Upd.run_read, h, seqs_cons_run, seqs_nil_run]

theorem devReadTimeout_ends {r : DevRd} (h : s.b.hbr.devRd[i]? = some r) :
    ∃ t, Completes (.devReadTimeout i) s t ∧ t.b.hbr.devRd = s.b.hbr.devRd.erase r ∧ t.bitAt (BLK_IRQ_STAT 14) 2 = true ∧
      t.reg HBR_CNT_DEV_CPL_TO = min (2 ^ 32 - 1) (s.reg HBR_CNT_DEV_CPL_TO + 1) ∧ Untouched (onPage 14) s t := by
  have htrk : Within (· == HBR_TRK_STAT) showTrk := within_read fun _ => within_seq (within_set (by decide)) (within_set (by decide))
  refine ⟨_, completes_as (completes_of_finish rfl) (devReadTimeout_of_read h), ?_, ?_, ?_, ?_⟩
  · rw [devRdEnd, flkOut, upd_b, devAer, aerLog, upd_b, showTrk_b, raise_b, count_b, updHbr, upd_b]
  · rw [devRdEnd, flkOut, upd_bitAt, devAer, aerLog, upd_bitAt, bitAt_of_reg_eq ((htrk _).reg_eq (by decide))]
    exact raise_bitAt_same (by decide) _
  · rw [devRdEnd, flkOut, upd_reg, devAer, aerLog, upd_reg, (htrk _).reg_eq (by decide), raise, setBit_reg_ne _ (by decide),
      reg_count_same (by decide), updHbr, upd_reg]
  · exact (((((within_upd _ s).trans (within_count (a := HBR_CNT_DEV_CPL_TO) (by decide) _)).trans (within_raise 14 2 _)).trans
      (within_showTrk _)).trans (within_upd _ _)).trans (within_upd _ _)

theorem devReadTimeout_of_none (h : s.b.hbr.devRd[i]? = none) : (devReadTimeout i).run s = s := by
  simp only [devReadTimeout, Upd.run_read, h, Upd.run_skip]

/-! ## Late writes (R576, R597) -/

section
variable {x : ChainWrite} (hcopy : s.b.iom.copy = none)
include hcopy

theorem lostWrite_of_unknown {v : Bool} {n w : Nat} (h : s.chainSent (if v then n else 256) w = none) : (lostWrite v n w).run s = s := by
  simp only [lostWrite, Upd.run_read, hcopy, Option.isSome_none, Bool.false_eq_true, and_false, if_false, h, Upd.run_skip]

theorem lostWrite_of_known {v : Bool} {n w : Nat} (h : s.chainSent (if v then n else 256) w = some x) (hsig : x.isSig = false) :
    (lostWrite v n w).run s = (Upd.seq (forget (if v then n else 256) w)
      (lateRecord (if v then n else 256) 2 0 x.dev x.pid x.addr x.len w x.gen x.host)).run s := by
  simp only [lostWrite, Upd.run_read, hcopy, Option.isSome_none, Bool.false_eq_true, and_false, if_false, h, hsig, false_and]

theorem writeFault_of_unknown {w0 w1 w2 w3 : Nat} (h : s.chainSent (if bit w0 0 then w1 % 256 else 256) (w1 / 2 ^ 16 % 2 ^ 16) = none) :
    (writeFault w0 w1 w2 w3).run s = s := by
  simp only [writeFault, Upd.run_read, hcopy, Option.isSome_none, Bool.false_eq_true, and_false, if_false, h, Upd.run_skip]

theorem writeFault_of_known {w0 w1 w2 w3 : Nat} (hbit : bit w0 0 = false) (h : s.chainSent 256 (w1 / 2 ^ 16 % 2 ^ 16) = some x)
    (hsig : x.isSig = false) : (writeFault w0 w1 w2 w3).run s = (Upd.seq (forget 256 (w1 / 2 ^ 16 % 2 ^ 16))
      (lateRecord 256 (bits w0 30 28) (bits w0 27 24) (bits w0 21 16) (bits w0 13 8) (w2 + bits w3 7 0 * 2 ^ 32) (bits w3 24 16)
        (w1 / 2 ^ 16 % 2 ^ 16) x.gen x.host)).run s := by
  simp only [writeFault, Upd.run_read, hcopy, hbit, Option.isSome_none, Bool.false_eq_true, and_false, if_false, h, hsig, false_and]

end

/-! ## Barriers, back-off, semaphores (R597, R601, R602) -/

theorem wsyncDone_of_answered {n : Fin 257} {b : Barrier} (h : (s.b.hbr.barriers.find? fun b => b.recN == n.val && b.devs.isEmpty) = some b)
    (hw : (s.b.hbr.heldWr.any fun w => w.recN == n.val && decide ((b.last + 65536 - w.wseq) % 65536 < 32768)) = false) :
    (wsyncDone n).run s = (wsyncEnd b false).run s := by
  simp only [wsyncDone, Upd.run_read, h, hw, Bool.not_false, whenU_true]

theorem wsyncDone_of_none {n : Fin 257} (h : (s.b.hbr.barriers.find? fun b => b.recN == n.val && b.devs.isEmpty) = none) :
    (wsyncDone n).run s = s := by
  simp only [wsyncDone, Upd.run_read, h, Upd.run_skip]

theorem backoffRetry_of_withdrawn {r : DevRd} (h : s.b.hbr.backoff[i]? = some r) : (backoffRetry i).run s =
    (Upd.seq (updHbr fun h => { h with backoff := h.backoff.erase r }) (devRdTry r)).run s := by
  simp only [backoffRetry, Upd.run_read, h]

/-- A register cleared reads 0: reserved bits do as well (R5). -/
theorem reg_setReg_zero (a : Nat) (s : State) : ((setReg a 0).run s).reg a = 0 := by
  have hzero : maskReserved a (BitVec.ofNat 32 0) = 0#32 := by
    refine BitVec.eq_of_getLsbD_eq fun i _ => ?_
    rw [maskReserved_getLsbD]
    split
    · rfl
    next h => rw [regDefault_reserved (Bool.eq_false_iff.mpr h), BitVec.getLsbD_zero]
  exact (reg_act_same a _ s).trans (by rw [hzero]; rfl)

theorem semTimeout_of_held {k : Fin 64} (h : s.flag (HBR_SEM_HELD k) = true) : (semTimeout k).run s = (raise 14 3).run ((semFree k).run s) := by
  simp only [semTimeout, Upd.run_read, h, whenU_true, Upd.run_seq]

theorem semTimeout_of_free {k : Fin 64} (h : s.flag (HBR_SEM_HELD k) = false) : (semTimeout k).run s = s := by
  simp only [semTimeout, Upd.run_read, h, whenU_false, Upd.run_skip]

theorem onPage_sem : ∀ k : Fin 64, onPage 14 (HBR_SEM k) = true := by decide

theorem semTimeout_clears {k : Fin 64} (h : s.flag (HBR_SEM_HELD k) = true) : ∃ t, Completes (.semTimeout k) s t ∧ t.reg (HBR_SEM k) = 0 ∧
    t.bitAt (BLK_IRQ_STAT 14) 3 = true ∧ Untouched (onPage 14) s t := by
  have hne : ∀ k : Fin 64, BLK_IRQ_STAT 14 ≠ HBR_SEM k := by decide
  refine ⟨_, completes_as (completes_of_finish rfl) (semTimeout_of_held h), ?_, raise_bitAt_same (by decide) _, ?_⟩
  · rw [raise, setBit_reg_ne _ (hne k)]
    exact reg_setReg_zero _ s
  · exact (within_setReg (onPage_sem k) s).trans (within_raise 14 3 _)

end

end Sys2Proof.Machine

open Sys2Proof Sys2Proof.Machine

/-- Settles O38: each event is the updates that its rule names, in their order. -/
theorem hostBridgeEvents : Obligations.HostBridgeEvents := by
  refine ⟨?hostRead, ?hostBarrier, ?devRead, ?devNone, ?lostUnknown, ?lostKnown, ?faultKnown, ?faultUnknown, ?wsync, ?wsyncNone, ?backoff,
    ?semHeld, ?semFree⟩
  case hostRead => exact fun i r s h => hostReadTimeout_ends h
  case hostBarrier => exact fun b s h => hostReadTimeout_endsBarrier h
  case devRead => exact fun i r s h => devReadTimeout_ends h
  case devNone => exact fun i s h => does_of_completes (completes_of_finish rfl) (devReadTimeout_of_none h) within_skip
  case lostUnknown =>
    exact fun v n w s hcopy h => does_of_completes (completes_of_finish rfl) (lostWrite_of_unknown hcopy h) within_skip
  case lostKnown =>
    exact fun v n w x s hcopy h hsig => completes_as (completes_of_finish rfl) (lostWrite_of_known hcopy h hsig)
  case faultKnown =>
    exact fun w0 w1 w2 w3 x s hcopy hbit h hsig => completes_as (completes_of_finish rfl) (writeFault_of_known hcopy hbit h hsig)
  case faultUnknown =>
    exact fun w0 w1 w2 w3 s hcopy h => does_of_completes (completes_of_finish rfl) (writeFault_of_unknown hcopy h) within_skip
  case wsync => exact fun n b s h hw => completes_as (completes_of_finish rfl) (wsyncDone_of_answered h hw)
  case wsyncNone => exact fun n s h => does_of_completes (completes_of_finish rfl) (wsyncDone_of_none h) within_skip
  case backoff => exact fun i r s h => completes_as (completes_of_finish rfl) (backoffRetry_of_withdrawn h)
  case semHeld => exact fun i s h => semTimeout_clears h
  case semFree => exact fun i s h => does_of_completes (completes_of_finish rfl) (semTimeout_of_free h) within_skip
end

section
/-!
The report of a fault of a cell (R257 to R264): the registers it writes, what it records, and the fields it leaves.
-/
namespace Sys2Proof.Machine

/-! ## Fields apart -/

/-- Both fields lie where the register map puts them, and they share no bit. -/
def Fld.apart (f g : Fld) : Bool := f.fits && g.fits && (f.reg != g.reg || decide (f.hi < g.lo) || decide (g.hi < f.lo))

theorem get_set_apart {f g : Fld} (h : f.apart g = true) (v : Nat) (s : State) : ((set f v).run s).get g = s.get g := by
  simp only [Fld.apart, Bool.and_eq_true, Bool.or_eq_true, bne_iff_ne, decide_eq_true_eq, or_assoc] at h
  obtain ⟨⟨hf, hg⟩, hne⟩ := h
  exact get_set_ne hf hg hne v s

theorem keeps_get_apart {f g : Fld} (h : f.apart g = true) (v : Nat) : Keeps (·.get g) (set f v) := get_set_apart h v

theorem keeps_get_inc_apart {f g : Fld} (h : f.apart g = true) (n : Nat) : Keeps (·.get g) (inc f n) := fun s => get_set_apart h _ s

theorem keeps_get_of_within {p : Nat → Bool} {g : Fld} {u : Upd} (h : Within p u) (hg : p g.reg = false) : Keeps (·.get g) u := fun s => (h s).get_eq hg

/-! ## Footprint -/

/-- The registers in which a fault of cell `c` of block `k` shows, besides the cell's FAULT bit. -/
def cellReportFoot (k c a : Nat) : Bool := reportFoot k a || a == CELL_ERR_STAT k c || a == CELL_FAULT_CNT k c

theorem finalClass_cases (s : State) (k : Nat) (cell : Option Nat) (cls : Nat) : s.finalClass k cell cls = cls ∨ s.finalClass k cell cls = PM := by
  unfold State.finalClass
  split
  · exact .inl rfl
  · split
    · exact .inr rfl
    · exact .inl rfl

theorem finalClass_lt {cls : Nat} (h : cls < 4) (s : State) (k : Nat) (cell : Option Nat) : s.finalClass k cell cls < 4 := by
  rcases finalClass_cases s k cell cls with he | he
  · rwa [he]
  · rw [he]; decide

/-- The class that a cell's fault is raised to rests on the block's threshold and the cell's level alone. -/
theorem Untouched.finalClass_eq {p : Nat → Bool} {s t : State} {k c : Nat} (h : Untouched p s t) (hth : p (MSU_FLT_CFG_PERM_TH k).reg = false)
    (hlevel : p (CELL_FAULT_CNT k c) = false) (cls : Nat) : t.finalClass k (some c) cls = s.finalClass k (some c) cls := by
  rw [State.finalClass, State.finalClass, State.permTh, State.permTh, h.get_eq hth, h.get_eq (f := CELL_FAULT_CNT_LEVEL k c) hlevel]

section
variable {k c cls : Nat} {ded : Option Nat}

/-- What holds of the registers' fields apart from FAULT: the report of a cell's fault, with all of its writes, keeps `φ`. -/
theorem keeps_reportNow_cell {α : Type} {φ : State → α} (hcls : cls < 4) (hk : k ≤ 27) (hded : ∀ j ∈ ded, j < 16)
    (hreg : ∀ u, Within (cellReportFoot k c) u → Keeps φ u) (hstat : Keeps φ (set (CELL_STAT_FAULT k c) 1)) :
    Keeps φ (reportNow k (some c) cls ded) := by
  have herr : cellReportFoot k c (CELL_ERR_STAT k c) = true := by simp only [cellReportFoot, beq_self_eq_true, Bool.or_true, Bool.true_or]
  have hcnt : cellReportFoot k c (CELL_FAULT_CNT k c) = true := by simp only [cellReportFoot, beq_self_eq_true, Bool.or_true]
  have hrep : ∀ a, reportFoot k a = true → cellReportFoot k c a = true := fun a ha => by simp only [cellReportFoot, ha, Bool.true_or]
  have hfault : ∀ a, faultRegs a = true → cellReportFoot k c a = true := fun a ha => hrep a (by simp only [reportFoot, ha, Bool.true_or])
  have hblk : cellReportFoot k c (BLK_ERR_STAT k) = true ∧ cellReportFoot k c (BLK_ERR_CNT k) = true :=
    ⟨hrep _ (by simp only [reportFoot, beq_self_eq_true, Bool.or_true, Bool.true_or]), hrep _ (by simp only [reportFoot, beq_self_eq_true, Bool.or_true])⟩
  have hbucket : Within (cellReportFoot k c) (bucket k c cls) :=
    within_ite within_skip (within_ite (within_inc hcnt) (within_read fun _ => within_set hcnt))
  have hpend (src n : Nat) (h : src < 512) : Within (cellReportFoot k c) (fcuPend src n) := (within_fcuPend h n).mono hfault
  refine keeps_read fun s => ?_
  have hfin := finalClass_lt hcls s k (some c)
  refine keeps_seqs ⟨keeps_seqs ⟨hreg _ hbucket, hreg _ (within_setBit herr), keeps_whenU fun _ => hreg _ (within_inc hcnt), keeps_whenU fun _ => hstat⟩,
    hreg _ (within_whenU (within_seq (within_setBit hblk.1) (within_inc hblk.2))), keeps_whenU fun _ => keeps_seqs ⟨?_, hreg _ (hpend _ _ (by omega)),
    hreg _ (within_set (hfault _ (by decide)))⟩, hreg _ (within_upd _)⟩
  cases ded with
  | none => exact keeps_skip
  | some j =>
    have := hded j rfl
    exact hreg _ (hpend _ _ (by omega))

theorem keeps_report_cell {α : Type} {φ : State → α} (hcls : cls < 4) (hk : k ≤ 27) (hded : ∀ j ∈ ded, j < 16)
    (hreg : ∀ u, Within (cellReportFoot k c) u → Keeps φ u) (hstat : Keeps φ (set (CELL_STAT_FAULT k c) 1)) :
    Keeps φ (report k (some c) cls ded) :=
  keeps_read fun _ => keeps_ite (fun _ => hreg _ (within_upd _)) fun _ => keeps_reportNow_cell hcls hk hded hreg hstat

theorem within_report_cell {p : Nat → Bool} (hcls : cls < 4) (hk : k ≤ 27) (hded : ∀ j ∈ ded, j < 16)
    (hreg : ∀ a, cellReportFoot k c a = true → p a = true) (hstat : p (CELL_STAT k c) = true) : Within p (report k (some c) cls ded) := fun s =>
  ⟨fun a => keeps_report_cell (φ := (·.byte a)) hcls hk hded (fun _ hu t => (hu t).1 a) (fun _ => rfl) s,
    fun a ha => keeps_report_cell (φ := (·.reg a)) hcls hk hded
      (fun _ hu => keeps_reg_of_within hu (Bool.eq_false_iff.mpr fun h => by rw [hreg a h] at ha; cases ha))
      (keeps_reg_set _ fun h => by rw [← h, hstat] at ha; cases ha) s⟩

theorem keeps_get_report_cell {g : Fld} (hcls : cls < 4) (hk : k ≤ 27) (hded : ∀ j ∈ ded, j < 16) (hg : cellReportFoot k c g.reg = false)
    (hfault : (CELL_STAT_FAULT k c).apart g = true) : Keeps (·.get g) (report k (some c) cls ded) :=
  keeps_report_cell hcls hk hded (fun _ hu => keeps_get_of_within hu hg) (keeps_get_apart hfault 1)

/-- A fault of a cell leaves every view of the records that shows nothing of the fabric's. -/
theorem keeps_b_report_cell {α : Type} {π : Blocks → α} (hfab : ∀ b f, π { b with fab := f } = π b) : Keeps (π ·.b) (report k (some c) cls ded) := by
  have hpend (src n : Nat) : Keeps (π ·.b) (fcuPend src n) := keeps_read fun _ => keeps_seqs ⟨keeps_b_setBit _ _, keeps_b_setBit _ _,
    keeps_b_set π _ _, keeps_b_set π _ _, keeps_whenU fun _ => keeps_seq (keeps_b_set π _ _) (keeps_b_set π _ _)⟩
  have hbucket : Keeps (π ·.b) (bucket k c cls) :=
    keeps_ite (fun _ => keeps_skip) fun _ => keeps_ite (fun _ => keeps_b_inc _ _) fun _ => keeps_read fun _ => keeps_b_set π _ _
  refine keeps_read fun _ => keeps_ite (fun _ => keeps_b_upd fun b => hfab b _) fun _ => keeps_read fun _ => keeps_seqs ⟨
    keeps_seqs ⟨hbucket, keeps_b_setBit _ _, keeps_whenU fun _ => keeps_b_inc _ _, keeps_whenU fun _ => keeps_b_set π _ _⟩,
    keeps_whenU fun _ => keeps_seq (keeps_b_setBit _ _) (keeps_b_inc _ _), keeps_whenU fun _ => keeps_seqs ⟨?_, hpend _ _, keeps_b_set π _ _⟩,
    keeps_b_upd fun b => hfab b _⟩
  split
  · exact hpend _ _
  · exact keeps_skip

end

theorem faultFoot_of_cellReportFoot {k c : Nat} (hc : 0x1000 + (unitCells k).2 * c + 0x14 < 0x10000) (a : Nat) (h : cellReportFoot k c a = true) :
    faultFoot k a = true := by
  simp only [cellReportFoot, Bool.or_eq_true, beq_iff_eq] at h
  rcases h with (h | rfl) | rfl
  · exact faultFoot_of_reportFoot a h
  · exact faultFoot_of_onPage _ (onPage_cell (by omega))
  · exact faultFoot_of_onPage _ (onPage_cell hc)

theorem within_report_cell_faultFoot {k c cls : Nat} {ded : Option Nat} (hcls : cls < 4) (hk : k ≤ 27) (hded : ∀ j ∈ ded, j < 16)
    (hc : 0x1000 + (unitCells k).2 * c + 0x14 < 0x10000) : Within (faultFoot k) (report k (some c) cls ded) :=
  within_report_cell hcls hk hded (faultFoot_of_cellReportFoot hc) (faultFoot_of_onPage _ (onPage_cell (by omega)))

/-! ## The class shown -/

/-- Unless the block is being reset, a cell's fault shows in the cell's error status with the class it is raised to (R262). -/
theorem report_cell_errStat {k c cls : Nat} (hcls : cls < 4) (hk : k ≤ 22) (hfit : ∀ i < 4, (⟨CELL_ERR_STAT k c, i, i⟩ : Fld).fits = true)
    {s : State} (hrst : s.flag (BLK_STAT_RST_BUSY k) = false) :
    ((report k (some c) cls).run s).bitAt (CELL_ERR_STAT k c) (s.finalClass k (some c) cls) = true := by
  have hfin := finalClass_lt hcls s k (some c)
  have hbase : 0x20000000 ≤ unitBase k := by
    unfold unitBase
    grind
  have hne (a : Nat) (h : a < 0x20000000 ∨ a = BLK_ERR_STAT k ∨ a = BLK_ERR_CNT k ∨ a = CELL_FAULT_CNT k c ∨ a = CELL_STAT k c) :
      (a != CELL_ERR_STAT k c) = true := by
    simp only [bne_iff_ne, CELL_ERR_STAT, CELL_FAULT_CNT, CELL_STAT, BLK_ERR_STAT, BLK_ERR_CNT, cellBase] at h ⊢
    omega
  have hfault : ∀ a, faultRegs a = true → (a != CELL_ERR_STAT k c) = true := fun a ha => hne a <| .inl <| by
    simp only [faultRegs, Bool.or_eq_true, beq_iff_eq, Bool.and_eq_true, decide_eq_true_eq] at ha
    omega
  have hcnt : (CELL_FAULT_CNT k c != CELL_ERR_STAT k c) = true := hne _ (.inr (.inr (.inr (.inl rfl))))
  have hfcu (src : Nat) : Within (· != CELL_ERR_STAT k c) (whenU (s.reaction k (s.finalClass k (some c) cls) != 0)
      (seqs [.skip, fcuPend (16 * k + s.finalClass k (some c) cls) (s.finalClass k (some c) cls), set MSU_FAULT_STAT_LAST_SRC src])) :=
    within_whenU (within_seqs ⟨within_skip, (within_fcuPend (by omega) _).mono hfault, within_set (hfault _ (by decide))⟩)
  have hblk : Within (· != CELL_ERR_STAT k c) (whenU (hasPage k) (.seq (setBit (BLK_ERR_STAT k) (s.finalClass k (some c) cls))
      (inc ⟨BLK_ERR_CNT k, 8 * s.finalClass k (some c) cls + 7, 8 * s.finalClass k (some c) cls⟩))) :=
    within_whenU (within_seq (within_setBit (hne _ (.inr (.inl rfl)))) (within_inc (hne _ (.inr (.inr (.inl rfl))))))
  have hcell : Within (· != CELL_ERR_STAT k c) (.seq (whenU (s.finalClass k (some c) cls != CE) (inc (CELL_FAULT_CNT_TOTAL k c)))
      (whenU (s.finalClass k (some c) cls == TR) (set (CELL_STAT_FAULT k c) 1))) :=
    within_seq (within_whenU (within_inc hcnt)) (within_whenU (within_set (hne _ (.inr (.inr (.inr (.inr rfl)))))))
  have hrest (d : Due) (src : Nat) (t : State) := (((hcell t).trans (hblk _)).trans (hfcu src _)).trans (within_upd (fun b => { b with fab := { b.fab with due := b.fab.due ++ [d] } }) _)
  have hnow : (report k (some c) cls).run s = (reportNow k (some c) cls).run s := by
    simp only [report, Upd.run_read, hrst, Bool.and_false, Bool.false_eq_true, if_false]
  rw [hnow]
  simp only [reportNow, Upd.run_read, Upd.run_seq, seqs_cons_run, seqs_nil_run] at hrest ⊢
  exact (bitAt_of_reg_eq ((hrest _ _ _).reg_eq (bne_self_eq_false _)) _).trans (bitAt_setBit_same (hfit _ hfin) _)

end Sys2Proof.Machine
end

section
/-!
A CAN channel joins the bus, arbitrates, ends its attempts and recovers from bus-off (R370 to R383).
-/
namespace Sys2Proof.Machine

/-! ## A channel's record -/

@[simp] theorem canCh_updCan_same (c : Nat) (f : CanCh → CanCh) (s : State) : ((updCan c f).run s).canCh c = f (s.canCh c) := mapGet_mapPut_same _ _ _ _
@[simp] theorem canCh_set (c : Nat) (f : Fld) (v : Nat) (s : State) : ((set f v).run s).canCh c = s.canCh c := rfl
@[simp] theorem canCh_inc (c : Nat) (f : Fld) (n : Nat) (s : State) : ((inc f n).run s).canCh c = s.canCh c := rfl
@[simp] theorem canCh_raiseCan (c k i : Nat) (s : State) : ((raiseCan k i).run s).canCh c = s.canCh c := rfl

@[simp] theorem canCh_canState (c k st : Nat) (s : State) : ((canState k st).run s).canCh c = s.canCh c :=
  congrArg (fun x => mapGet ({} : CanCh) x c) (keeps_b_canState (π := (·.can)) k st s)

/-! ## A channel's fields -/

theorem fits_can : ∀ c : Fin 16, (CAN_STATUS_STATE c).fits = true ∧ (CAN_STATUS_ACTIVITY c).fits = true ∧ (CAN_STATUS_EXC c).fits = true ∧
    (CAN_STATUS_WARN c).fits = true ∧ (CAN_STATUS_LAST_ERR c).fits = true ∧ (CAN_STATUS_LAST_ERR_DATA c).fits = true ∧
    (CAN_ERRCNT_TEC c).fits = true ∧ (CAN_ERRCNT_REC c).fits = true ∧ (CAN_BO_STAT_SEQ_CNT c).fits = true := by decide

theorem fits_canIrq : ∀ c : Fin 16, ∀ i ∈ [5, 7, 8, 9, 28], (⟨CELL_IRQ_STAT 9 c, i, i⟩ : Fld).fits = true := by decide

theorem fits_canErrStat : ∀ c : Fin 16, ∀ i < 4, (⟨CELL_ERR_STAT 9 c, i, i⟩ : Fld).fits = true := by decide

theorem raiseCan_bitAt_same (c : Fin 16) {i : Nat} (hi : i ∈ [5, 7, 8, 9, 28]) (s : State) : ((raiseCan c i).run s).bitAt (CELL_IRQ_STAT 9 c) i = true :=
  bitAt_setBit_same (fits_canIrq c i hi) s

/-- The fields of channel `c`'s status that `canState` does not write. -/
theorem canState_get_ne (c : Fin 16) {g : Fld} (st : Nat) (s : State) (hst : (CAN_STATUS_STATE c).apart g = true)
    (hact : (CAN_STATUS_ACTIVITY c).apart g = true) (hsum : g.reg ≠ CAN_BO_SUM ∧ g.reg ≠ CAN_EP_SUM) :
    ((canState c st).run s).get g = s.get g :=
  keeps_seqs (φ := (·.get g)) (l := [_, _, _, _, _]) ⟨keeps_get_apart hst _, keeps_whenU fun _ => keeps_get_apart hact _, keeps_whenU fun _ => keeps_get_apart hact _,
    keeps_get fun s => putBit_reg_ne _ s hsum.1.symm, keeps_get fun s => putBit_reg_ne _ s hsum.2.symm⟩ s

theorem canState_state (c : Fin 16) {st : Nat} (hst : st < 8) (s : State) : ((canState c st).run s).get (CAN_STATUS_STATE c) = st := by
  have hact : ∀ c : Fin 16, (CAN_STATUS_ACTIVITY c).apart (CAN_STATUS_STATE c) = true := by decide
  have hsum : ∀ c : Fin 16, CAN_BO_SUM ≠ CAN_STATUS c ∧ CAN_EP_SUM ≠ CAN_STATUS c := by decide
  obtain ⟨hbo, hep⟩ := hsum c
  have htail : Keeps (·.get (CAN_STATUS_STATE c)) (seqs [whenU (st == 1 || st == 4 || st == 5) (set (CAN_STATUS_ACTIVITY c) 3),
      whenU (st == 0 || st == 6) (set (CAN_STATUS_ACTIVITY c) 0), putBit CAN_BO_SUM c (st == 4 || st == 5), putBit CAN_EP_SUM c (st == 3)]) :=
    keeps_seqs ⟨keeps_whenU fun _ => keeps_get_apart (hact c) _, keeps_whenU fun _ => keeps_get_apart (hact c) _,
      keeps_get fun s => putBit_reg_ne _ s hbo, keeps_get fun s => putBit_reg_ne _ s hep⟩
  rw [canState, seqs, Upd.run_seq]
  exact (htail _).trans ((get_set_same (fits_can c).1 _ _).trans (Nat.mod_eq_of_lt hst))

/-! ## CAN_INTEGRATED -/

section
variable {c : Fin 16} {s : State}

theorem canIntegrated_of_out (h : s.get (CAN_STATUS_STATE c) ≠ 1 ∨ s.flag (NMC_CH_STAT_TRX_ASLEEP c) = true) : (canIntegrated c).run s = s := by
  rcases h with h | h
  · simp only [canIntegrated, Upd.run_read, beq_false_of_ne h, Bool.false_and, whenU_false, Upd.run_skip]
  · simp only [canIntegrated, Upd.run_read, h, Bool.not_true, Bool.and_false, whenU_false, Upd.run_skip]

/-- The state in which a channel joins the bus: error-passive from 128 errors on, error-active below (R375). -/
def State.joinState (s : State) (c : Nat) : Nat := if 128 ≤ s.get (CAN_ERRCNT_TEC c) ∨ 128 ≤ s.get (CAN_ERRCNT_REC c) then 3 else 2

theorem apart_joined : ∀ c : Fin 16, ∀ f ∈ [CAN_STATUS_EXC c, CAN_STATUS_ACTIVITY c], f.apart (CAN_ERRCNT_TEC c) = true ∧ f.apart (CAN_ERRCNT_REC c) = true := by decide

theorem canIntegrated_of_ready (h1 : s.get (CAN_STATUS_STATE c) = 1) (h : s.flag (NMC_CH_STAT_TRX_ASLEEP c) = false) : (canIntegrated c).run s =
    (canState c (s.joinState c)).run ((set (CAN_STATUS_ACTIVITY c) 0).run ((set (CAN_STATUS_EXC c) 0).run s)) := by
  have hexc := apart_joined c (CAN_STATUS_EXC c) (by simp)
  have hact := apart_joined c (CAN_STATUS_ACTIVITY c) (by simp)
  have hrest : (s.get (CAN_STATUS_STATE c) == 1 && !s.flag (NMC_CH_STAT_TRX_ASLEEP c)) = true := by rw [h1, h]; rfl
  simp only [canIntegrated, canJoin, Upd.run_read, hrest, whenU_true, seqs_cons_run, seqs_nil_run, get_set_apart hexc.1, get_set_apart hexc.2,
    get_set_apart hact.1, get_set_apart hact.2, State.joinState]

theorem canIntegrated_joins (h1 : s.get (CAN_STATUS_STATE c) = 1) (h : s.flag (NMC_CH_STAT_TRX_ASLEEP c) = false) :
    ∃ t, Completes (.canIntegrated c) s t ∧ t.get (CAN_STATUS_STATE c) = s.joinState c ∧ t.flag (CAN_STATUS_EXC c) = false ∧
      Untouched (onPage 9) s t := by
  have hexc : ∀ c : Fin 16, (CAN_STATUS_STATE c).apart (CAN_STATUS_EXC c) = true ∧ (CAN_STATUS_ACTIVITY c).apart (CAN_STATUS_EXC c) = true ∧
    (CAN_STATUS c ≠ CAN_BO_SUM ∧ CAN_STATUS c ≠ CAN_EP_SUM) := by decide
  obtain ⟨hst, hact, hsum⟩ := hexc c
  have hset (hi lo v : Nat) : Within (onPage 9) (set ⟨CAN_STATUS c, hi, lo⟩ v) := within_set (onPage_can c.isLt (by decide))
  refine ⟨_, completes_as (completes_of_finish rfl) (canIntegrated_of_ready h1 h), canState_state c ?_ _, ?_,
    ((hset _ _ _ s).trans (hset _ _ _ _)).trans (within_channelState c.isLt _ _)⟩
  · unfold State.joinState
    split <;> decide
  · rw [State.flag, canState_get_ne c _ _ hst hact hsum, get_set_apart hact, get_set_same (fits_can c).2.2.1]
    rfl

/-! ## CAN_ARBITRATION -/

section
variable (hu : s.unarmed 9 = true) (hact : s.canActive c = true) (hen : s.flag (CELL_STAT_ENABLED 9 c) = true) (htx : (s.canCh c).tx = none)
  (hpend : s.pendingSlots c ≠ []) (hlis : s.flag (CAN_CH_MODE_LISTEN c) = false) (hres : s.flag (CAN_CH_MODE_RESTRICT c) = false)
  (hfro : s.frozenArg 1 16 c = false)
include hact hen htx hpend hlis hres hfro

theorem canArbitration_of_ready (e : Fin 3) (w : Nat) :
    (canArbitration c e w).run s = (Upd.seq (canMramErr c e w) (whenU (e.val != 2) (canOffer c 65))).run s := by
  have hsome : (s.pendingSlots c).isEmpty = false := List.isEmpty_eq_false_iff.mpr hpend
  have hnone : (s.canCh c).tx.isNone = true := by rw [htx]; rfl
  simp only [canArbitration, Upd.run_read, hact, hen, hnone, hsome, hlis, hres, hfro, Bool.not_false, Bool.and_self, whenU_true]

include hu

theorem canArbitration_completes (e : Fin 3) (w : Nat) :
    Completes (.canArbitration c e w) s ((Upd.seq (canMramErr c e w) (whenU (e.val != 2) (canOffer c 65))).run s) :=
  completes_as (completes_of_work rfl hu) (canArbitration_of_ready hact hen htx hpend hlis hres hfro e w)

theorem canArbitration_offers (w : Nat) {i : Nat} (hi : s.txChoice c = some i) (hok : s.formatBad c i = false) :
    ∃ t, Completes (.canArbitration c 0 w) s t ∧ (t.canCh c).tx = some i ∧ t.get (CAN_STATUS_ACTIVITY c) = 2 ∧ Untouched (onPage 9) s t := by
  have hrun : (Upd.seq (canMramErr c (0 : Fin 3) w) (whenU ((0 : Fin 3).val != 2) (canOffer c 65))).run s =
      (updSlot c i fun x => { x with
        attempts := x.attempts + 1, ts := s.stamp c 0, dt := s.devTime, dtValid := s.flag (CAN_TS_CFG_DT_CAP c) }).run
        ((set (CAN_STATUS_ACTIVITY c) 2).run ((updCan c fun x => { x with tx := some i }).run s)) := by
    rw [Upd.run_seq, show canMramErr c (0 : Fin 3) w = .skip from rfl, Upd.run_skip, show ((0 : Fin 3).val != 2) = true from rfl, whenU_true, canOffer,
      Upd.run_read]
    simp only [hi, hok, Bool.false_eq_true, if_false, seqs_cons_run, seqs_nil_run]
  refine ⟨_, completes_as (canArbitration_completes hu hact hen htx hpend hlis hres hfro 0 w) hrun, ?_, ?_, ?_⟩
  · rw [updSlot, canCh_updCan_same, canCh_set, canCh_updCan_same]
  · rw [updSlot, updCan, upd_get, get_set_same (fits_can c).2.1]
    rfl
  · have hset : Within (onPage 9) (set (CAN_STATUS_ACTIVITY c) 2) := within_set (onPage_can c.isLt (by decide))
    exact ((within_upd _ s).trans (hset _)).trans (within_upd _ _)

end

/-! ## Attempts that end -/

theorem canTxSuccess_of_sending {i : Nat} (d : Option (Fin 128)) (h : (s.canCh c).tx = some i) :
    (canTxSuccess c d).run s = (seqs [canLoopDelay c d, elementOk 9 c, endSlot c i (if (s.slotInfo c i).cancelled then 9 else 1),
      set (CAN_STATUS_ACK_ALONE c) 0, updCan c fun x => { x with ackRun := 0 },
      setCounters c (s.get (CAN_ERRCNT_TEC c) - 1) (s.get (CAN_ERRCNT_REC c)), canTxOver c]).run s := by
  simp only [canTxSuccess, Upd.run_read, h]

/-- The transmission of a channel whose cell does not drain is over: it sends no element, and ACTIVITY no longer says so. -/
theorem canTxOver_of_undrained (h : s.flag (CELL_STAT_DRAINING 9 c) = false) : (canTxOver c).run s =
    (whenU (s.get (CAN_STATUS_ACTIVITY c) == 2) (set (CAN_STATUS_ACTIVITY c) 0)).run ((updCan c fun x => { x with tx := none }).run s) := by
  simp only [canTxOver, updCan, Upd.run_seq, Upd.run_read, upd_get, upd_flag, h, whenU_false, Upd.run_skip]

theorem canTxOver_untouched (h : s.flag (CELL_STAT_DRAINING 9 c) = false) : Untouched (· == CAN_STATUS c) s ((canTxOver c).run s) := by
  rw [canTxOver_of_undrained h]
  exact (within_upd _ s).trans (within_whenU (within_setOwn (CAN_STATUS_ACTIVITY c) 0) _)

theorem canTxOver_tx (h : s.flag (CELL_STAT_DRAINING 9 c) = false) : (((canTxOver c).run s).canCh c).tx = none := by
  rw [canTxOver_of_undrained h]
  cases s.get (CAN_STATUS_ACTIVITY c) == 2
  · rw [whenU_false, Upd.run_skip, canCh_updCan_same]
  · rw [whenU_true, canCh_set, canCh_updCan_same]

/-- A lost arbitration that the channel does not count only ends the attempt (R379). -/
theorem canTxError_of_uncounted {i : Nat} (h : (s.canCh c).tx = some i) (hcnt : s.flag (CAN_TX_CFG_ARB_CNT c) = false)
    (hcan : (s.slotInfo c i).cancelled = false) (hdr : s.flag (CELL_STAT_DRAINING 9 c) = false) :
    (canTxError c none none).run s = (canTxOver c).run ((updCan c fun x => { x with ackRun := 0, tx := none }).run
      ((updSlot c i fun x => { x with failed := (s.slotInfo c i).failed }).run s)) := by
  have hrun : ((0 : Nat) == 16) = false := rfl
  have hstep : ((0 : Nat) != 0) = false := rfl
  simp only [canTxError, Upd.run_read, h, hcnt, hcan, hdr, canLoopDelay, Option.isSome_none, Option.any_none, Bool.or_self, Bool.false_and,
    Bool.false_eq_true, if_false, whenU_false, hrun, hstep, seqs_cons_run, seqs_nil_run, Upd.run_skip, Bool.toNat_false, Nat.add_zero]

theorem canTxError_ends {i : Nat} (h : (s.canCh c).tx = some i) (hcnt : s.flag (CAN_TX_CFG_ARB_CNT c) = false)
    (hcan : (s.slotInfo c i).cancelled = false) (hdr : s.flag (CELL_STAT_DRAINING 9 c) = false) :
    ∃ t, Completes (.canTxError c none none) s t ∧ (t.canCh c).tx = none ∧ t.reg (CAN_ERRCNT c) = s.reg (CAN_ERRCNT c) ∧ Untouched (onPage 9) s t := by
  have hsent (f g : CanCh → CanCh) : ((updCan c g).run ((updCan c f).run s)).flag (CELL_STAT_DRAINING 9 c) = false := by
    rw [updCan, upd_flag, updCan, upd_flag, hdr]
  have hreg (f g : CanCh → CanCh) : ((updCan c g).run ((updCan c f).run s)).reg (CAN_ERRCNT c) = s.reg (CAN_ERRCNT c) := by
    rw [updCan, upd_reg, updCan, upd_reg]
  have hne : ∀ c : Fin 16, (CAN_ERRCNT c == CAN_STATUS c) = false := by decide
  have hpage : ∀ a, (a == CAN_STATUS c) = true → onPage 9 a = true := fun a ha => by
    rw [eq_of_beq ha]
    exact onPage_can c.isLt (by decide)
  refine ⟨_, completes_as (completes_of_finish rfl) (canTxError_of_uncounted h hcnt hcan hdr), canTxOver_tx (hsent _ _), ?_, ?_⟩
  · exact ((canTxOver_untouched (hsent _ _)).reg_eq (hne c)).trans (hreg _ _)
  · exact ((within_upd _ s).trans (within_upd _ _)).trans ((canTxOver_untouched (hsent _ _)).mono hpage)

end

/-! ## What an error leaves: the counter TEC, the last error and DRAINING -/

/-- The fields of a channel that the end of an attempt leaves once they are written. -/
def errFields (c : Nat) : List Fld := [CAN_ERRCNT_TEC c, CAN_STATUS_LAST_ERR c, CAN_STATUS_LAST_ERR_DATA c, CELL_STAT_DRAINING 9 c]

theorem errFields_apart : ∀ c : Fin 16, ∀ g ∈ errFields c, ∀ f ∈ [CAN_STATUS_STATE c, CAN_STATUS_ACTIVITY c, CAN_STATUS_WARN c, CAN_ERRCNT_REC c,
    CELL_STAT_FAULT 9 c, CAN_BO_STAT_BO_TOTAL c, CAN_BO_STAT_BO_IN_WIN c, CAN_BO_STAT_SEQ_CNT c], f.apart g = true := by decide

theorem errFields_reg : ∀ c : Fin 16, ∀ g ∈ errFields c, cellReportFoot 9 c g.reg = false ∧ g.reg ≠ CAN_BO_SUM ∧ g.reg ≠ CAN_EP_SUM := by decide

/-- The registers of a channel below those of its transmit buffers, but for its events. -/
theorem errFields_low : ∀ c : Fin 16, ∀ g ∈ errFields c, ∃ o < 0x60, o ≠ 8 ∧ cellBase 9 c + o = g.reg := by
  intro c g hg
  simp only [errFields, List.mem_cons, List.not_mem_nil, or_false] at hg
  rcases hg with rfl | rfl | rfl | rfl
  · exact ⟨0x48, by decide, by decide, rfl⟩
  · exact ⟨0x44, by decide, by decide, rfl⟩
  · exact ⟨0x44, by decide, by decide, rfl⟩
  · exact ⟨0x04, by decide, by decide, rfl⟩

section
variable {c o : Nat} (ho : o < 0x60) (h8 : o ≠ 8)
include ho h8

omit ho in
theorem keeps_low_raiseCan (i : Nat) : Keeps (·.reg (cellBase 9 c + o)) (raiseCan c i) := fun s => setBit_reg_ne s (by simp only [CELL_IRQ_STAT]; omega)

omit h8 in
theorem keeps_low_set {x hi lo : Nat} (hx : 0x60 ≤ x) (v : Nat) : Keeps (·.reg (cellBase 9 c + o)) (set ⟨cellBase 9 c + x, hi, lo⟩ v) :=
  keeps_reg_set v (by simp only []; omega)

theorem keeps_low_txEvent (i code : Nat) : Keeps (·.reg (cellBase 9 c + o)) (txEvent c i code) := by
  have hset (x hi lo v : Nat) (hx : 0x60 ≤ x) : Keeps (·.reg (cellBase 9 c + o)) (set ⟨cellBase 9 c + x, hi, lo⟩ v) := keeps_low_set ho hx v
  refine keeps_read fun s => keeps_ite (fun _ => keeps_seq (keeps_read fun _ => hset _ _ _ _ (by decide)) (keeps_low_raiseCan h8 _)) fun _ =>
    keeps_seqs ⟨keeps_reg_setWords _ _ _, keeps_seqs ⟨hset 0xC8 _ _ _ (by decide), hset 0xC8 _ _ _ (by decide), hset 0xC8 _ _ _ (by decide),
      keeps_low_raiseCan h8 _, keeps_whenU fun _ => keeps_low_raiseCan h8 _⟩⟩

omit h8 in
theorem keeps_low_showQueue : Keeps (·.reg (cellBase 9 c + o)) (showQueue c) := by
  refine keeps_read fun s => keeps_seqs ⟨keeps_low_set ho (x := 0xD4) (by decide) _, keeps_low_set ho (x := 0xD4) (by decide) _, ?_⟩
  split
  · exact keeps_low_set ho (x := 0xD4) (by decide) _
  · exact keeps_skip

theorem keeps_low_endSlot (i code : Nat) : Keeps (·.reg (cellBase 9 c + o)) (endSlot c i code) := by
  have hput (x j : Nat) (b : Bool) (hx : 0x60 ≤ x) : Keeps (·.reg (cellBase 9 c + o)) (putBit (cellBase 9 c + x) j b) :=
    fun s => putBit_reg_ne b s (by omega)
  refine keeps_read fun s => keeps_seqs ⟨keeps_whenU fun _ => keeps_low_txEvent ho h8 i code,
    keeps_ite (fun _ => hput 0x60 _ _ (by decide)) fun _ => hput 0xD8 _ _ (by decide),
    keeps_ite (fun _ => keeps_seq ?_ fun s => setBit_reg_ne s (by simp only [CAN_TXBUF_END]; omega)) fun _ => keeps_low_showQueue ho,
    keeps_whenU fun _ => keeps_low_raiseCan h8 _, keeps_whenU fun _ => keeps_low_raiseCan h8 _, keeps_reg_upd _ _⟩
  rw [CAN_TXBUF_CODE, Nat.add_assoc]
  exact keeps_low_set ho (by omega) _

end

/-- What `setCounters` does in state `s` once the counters are written. -/
def countersShown (c tec rec : Nat) (s : State) : Upd := seqs [
  whenU ((decide (96 ≤ tec) || decide (96 ≤ rec)) && !s.flag (CAN_STATUS_WARN c)) (raiseCan c 2),
  set (CAN_STATUS_WARN c) (decide (96 ≤ tec) || decide (96 ≤ rec)).toNat,
  whenU (s.get (CAN_STATUS_STATE c) == 2 || s.get (CAN_STATUS_STATE c) == 3) (
    if 255 < tec then busOff c
    else if (decide (128 ≤ tec) || decide (128 ≤ rec)) = true then
      whenU (s.get (CAN_STATUS_STATE c) == 2) (seqs [canState c 3, raiseCan c 3, report 9 (some c) TR])
    else canState c 2)]

theorem setCounters_run (c tec rec : Nat) (s : State) : (setCounters c tec rec).run s =
    (countersShown c tec rec s).run ((set (CAN_ERRCNT_REC c) (min 255 rec)).run ((set (CAN_ERRCNT_TEC c) (min 511 tec)).run s)) := by
  simp only [setCounters, countersShown, Upd.run_read, seqs_cons_run, seqs_nil_run]

section
variable {c : Fin 16} {g : Fld} (hg : g ∈ errFields c)
include hg

theorem keepsErr_raiseCan (i : Nat) : Keeps (·.get g) (raiseCan c i) := by
  obtain ⟨o, ho, h8, he⟩ := errFields_low c g hg
  exact keeps_get (he ▸ keeps_low_raiseCan h8 i)

theorem keepsErr_endSlot (i code : Nat) : Keeps (·.get g) (endSlot c i code) := by
  obtain ⟨o, ho, h8, he⟩ := errFields_low c g hg
  exact keeps_get (he ▸ keeps_low_endSlot ho h8 i code)

theorem keepsErr_report {cls : Nat} {ded : Option Nat} (hcls : cls < 4) (hded : ∀ j ∈ ded, j < 16) : Keeps (·.get g) (report 9 (some c) cls ded) :=
  keeps_get_report_cell hcls (by decide) hded (errFields_reg c g hg).1 (errFields_apart c g hg _ (by simp))

theorem keepsErr_canState (st : Nat) : Keeps (·.get g) (canState c st) := fun s =>
  canState_get_ne c st s (errFields_apart c g hg _ (by simp)) (errFields_apart c g hg _ (by simp)) (errFields_reg c g hg).2

theorem keepsErr_busOff : Keeps (·.get g) (busOff c) := by
  have hset {f : Fld} (h : f.apart g = true) (v : Nat) : Keeps (·.get g) (set f v) := keeps_get_apart h v
  have hbo := errFields_apart c g hg
  exact keeps_read fun s => keeps_seqs ⟨keepsErr_canState hg 4, keepsErr_raiseCan hg 4, fun _ => rfl, keeps_read fun _ => hset (hbo _ (by simp)) _,
    hset (hbo _ (by simp)) _, hset (hbo _ (by simp)) _, keeps_whenU fun _ => keeps_read fun _ => keeps_forEach fun i => keepsErr_endSlot hg i 7,
    keepsErr_report hg (by decide) (by simp), keeps_whenU fun _ => keepsErr_report hg (by decide) (by simp)⟩

theorem keepsErr_countersShown (tec rec : Nat) (s : State) : Keeps (·.get g) (countersShown c tec rec s) :=
  keeps_seqs ⟨keeps_whenU fun _ => keepsErr_raiseCan hg 2, keeps_get_apart (errFields_apart c g hg _ (by simp)) _, keeps_whenU fun _ =>
    keeps_ite (fun _ => keepsErr_busOff hg) fun _ => keeps_ite (fun _ => keeps_whenU fun _ =>
      keeps_seqs ⟨keepsErr_canState hg 3, keepsErr_raiseCan hg 3, keepsErr_report hg (by decide) (by simp)⟩) fun _ => keepsErr_canState hg 2⟩

theorem keepsErr_setCounters (hne : (CAN_ERRCNT_TEC c).apart g = true) (tec rec : Nat) : Keeps (·.get g) (setCounters c tec rec) := fun s => by
  rw [setCounters_run]
  exact ((keepsErr_countersShown hg tec rec s _).trans (get_set_apart (errFields_apart c g hg _ (by simp)) _ _)).trans (get_set_apart hne _ _)

end

theorem setCounters_tec (c : Fin 16) (tec rec : Nat) (s : State) : ((setCounters c tec rec).run s).get (CAN_ERRCNT_TEC c) = min 511 tec := by
  have hg : CAN_ERRCNT_TEC c ∈ errFields c := by simp [errFields]
  rw [setCounters_run]
  refine ((keepsErr_countersShown hg tec rec s _).trans (get_set_apart (errFields_apart c _ hg _ (by simp)) _ _)).trans ?_
  rw [get_set_same (fits_can c).2.2.2.2.2.2.1]
  exact Nat.mod_eq_of_lt (Nat.lt_of_le_of_lt (Nat.min_le_left _ _) (by decide : 511 < 512))

/-! ### An attempt that ends in an error that is signalled (R376, R379) -/

section
variable {c : Fin 16} {s : State} {i : Nat} {e : CanError} {d : Option (Fin 128)}

/-- The end of an attempt that is not acknowledged by an ACK error: the element's attempt is counted and, where no more are left or the
element was cancelled, it ends. -/
def attemptEnds (c i failed : Nat) (cancelled spent : Bool) : Upd := seqs [updSlot c i fun x => { x with failed := failed },
  if cancelled = true then endSlot c i 5 else whenU spent (endSlot c i 3), updCan c fun x => { x with ackRun := 0, tx := none }]

theorem keepsErr_attemptEnds {g : Fld} (hg : g ∈ errFields c) (failed : Nat) (cancelled spent : Bool) :
    Keeps (·.get g) (attemptEnds c i failed cancelled spent) :=
  keeps_seqs ⟨fun _ => rfl, keeps_ite (fun _ => keepsErr_endSlot hg i 5) fun _ => keeps_whenU fun _ => keepsErr_endSlot hg i 3, fun _ => rfl⟩

theorem keepsErr_canTxOver {g : Fld} (hg : g ∈ errFields c) (hdr : s.flag (CELL_STAT_DRAINING 9 c) = false) : ((canTxOver c).run s).get g = s.get g := by
  rw [canTxOver_of_undrained hdr]
  exact (keeps_whenU (φ := (·.get g)) fun _ => keeps_get_apart (errFields_apart c g hg _ (by simp)) _) _

theorem keepsErr_canLoopDelay {g : Fld} (hg : g ∈ errFields c) : Keeps (·.get g) (canLoopDelay c d) := by
  have hdly : ∀ c : Fin 16, ∀ g ∈ errFields c, (CAN_STATUS_LOOP_DLY c).apart g = true := by decide
  cases d with
  | none => exact keeps_skip
  | some d => exact keeps_get_apart (hdly c g hg) d

/-- The field in which an error of the frame's phase shows. -/
def lastErr (c : Nat) (e : CanError) : Fld := if e.dataPhase = true then CAN_STATUS_LAST_ERR_DATA c else CAN_STATUS_LAST_ERR c

/-- An error that is signalled, as the frame counter and the last error show it. -/
def errorShown (c : Nat) (e : CanError) : Upd := seqs [inc (CAN_EVT_CNT_ERR_FRAMES c), set (lastErr c e) e.code]

/-- The channel's element has no attempt left after one more that fails (R379). -/
def State.attemptsSpent (s : State) (c i : Nat) : Bool :=
  bits (s.slotWord c i 0) 23 20 != 15 && decide (1 + bits (s.slotWord c i 0) 23 20 ≤ (s.slotInfo c i).failed + 1)

section
variable (h : (s.canCh c).tx = some i) (hs : e.unsignalled = false) (h1 : e.code.val ≠ 1) (h4 : e.code.val ≠ 4)
  (hdr : s.flag (CELL_STAT_DRAINING 9 c) = false)
include h hs h1 h4 hdr

theorem canTxError_of_signalled : (canTxError c (some e) d).run s =
    (canTxOver c).run ((setCounters c (s.get (CAN_ERRCNT_TEC c) + 8) (s.get (CAN_ERRCNT_REC c))).run
      ((attemptEnds c i ((s.slotInfo c i).failed + 1) (s.slotInfo c i).cancelled (s.attemptsSpent c i)).run
        ((errorShown c e).run ((canLoopDelay c d).run s)))) := by
  have hrun : ((0 : Nat) == 16) = false := rfl
  have hstep : ((8 : Nat) != 0) = true := rfl
  simp only [canTxError, canErrorSeen, Upd.run_read, h, hs, hdr, beq_false_of_ne h1, h1, h4, Option.isSome_some, Option.any_some, Bool.true_or, Bool.true_and,
    Bool.false_and, false_and, or_self, Bool.false_eq_true, if_false, whenU_false, whenU_true, hrun, hstep, Bool.toNat_true, seqs_cons_run, seqs_nil_run,
    Upd.run_skip, attemptEnds, errorShown, lastErr, State.attemptsSpent]

/-- The last error is written first; the rest leaves it, the counter once written and DRAINING. -/
theorem canTxError_signals : ∃ t, Completes (.canTxError c (some e) d) s t ∧ (t.canCh c).tx = none ∧
    t.get (CAN_ERRCNT_TEC c) = min 511 (s.get (CAN_ERRCNT_TEC c) + 8) ∧ t.get (lastErr c e) = e.code.val := by
  have herr : ∀ c : Fin 16, (CAN_STATUS_LAST_ERR c).fits = true ∧ (CAN_STATUS_LAST_ERR_DATA c).fits = true ∧
      (CAN_ERRCNT_TEC c).apart (CAN_STATUS_LAST_ERR c) = true ∧ (CAN_ERRCNT_TEC c).apart (CAN_STATUS_LAST_ERR_DATA c) = true ∧
      (CAN_ERRCNT_TEC c).apart (CELL_STAT_DRAINING 9 c) = true ∧ (CAN_EVT_CNT_ERR_FRAMES c).apart (CELL_STAT_DRAINING 9 c) = true ∧
      (CAN_STATUS_LAST_ERR c).apart (CELL_STAT_DRAINING 9 c) = true ∧ (CAN_STATUS_LAST_ERR_DATA c).apart (CELL_STAT_DRAINING 9 c) = true := by decide
  obtain ⟨hfit, hfitD, htec, htecD, htecDr, hcntDr, herrDr, herrDDr⟩ := herr c
  have hmem : CELL_STAT_DRAINING 9 c ∈ errFields c := by simp [errFields]
  have hlast : lastErr c e ∈ errFields c ∧ (lastErr c e).fits = true ∧ (CAN_ERRCNT_TEC c).apart (lastErr c e) = true ∧
      (lastErr c e).apart (CELL_STAT_DRAINING 9 c) = true ∧ (lastErr c e).hi - (lastErr c e).lo = 2 := by
    unfold lastErr
    cases e.dataPhase
    · exact ⟨by simp [errFields], hfit, htec, herrDr, rfl⟩
    · exact ⟨by simp [errFields], hfitD, htecD, herrDDr, rfl⟩
  obtain ⟨hlmem, hlfit, hltec, hldr, hwidth⟩ := hlast
  have hshown : Keeps (·.get (CELL_STAT_DRAINING 9 c)) (errorShown c e) := keeps_seqs ⟨keeps_get_inc_apart hcntDr 1, keeps_get_apart hldr _⟩
  have hdrained : ((setCounters c (s.get (CAN_ERRCNT_TEC c) + 8) (s.get (CAN_ERRCNT_REC c))).run
      ((attemptEnds c i ((s.slotInfo c i).failed + 1) (s.slotInfo c i).cancelled (s.attemptsSpent c i)).run
        ((errorShown c e).run ((canLoopDelay c d).run s)))).flag (CELL_STAT_DRAINING 9 c) = false := by
    have hkept := (((keepsErr_setCounters hmem htecDr (s.get (CAN_ERRCNT_TEC c) + 8) (s.get (CAN_ERRCNT_REC c)) _).trans
      (keepsErr_attemptEnds (i := i) hmem ((s.slotInfo c i).failed + 1) (s.slotInfo c i).cancelled (s.attemptsSpent c i) _)).trans (hshown _)).trans
      (keepsErr_canLoopDelay (d := d) hmem s)
    exact (congrArg (· != 0) hkept).trans hdr
  refine ⟨_, completes_as (completes_of_finish rfl) (canTxError_of_signalled h hs h1 h4 hdr), canTxOver_tx hdrained, ?_, ?_⟩
  · rw [keepsErr_canTxOver (by simp [errFields]) hdrained, setCounters_tec]
  · refine (keepsErr_canTxOver hlmem hdrained).trans (((keepsErr_setCounters hlmem hltec _ _ _).trans (keepsErr_attemptEnds hlmem _ _ _ _)).trans ?_)
    simp only [errorShown, seqs_cons_run, seqs_nil_run]
    rw [get_set_same hlfit, hwidth]
    exact Nat.mod_eq_of_lt (Nat.lt_of_lt_of_le e.code.isLt (by decide : 7 ≤ 2 ^ (2 + 1)))

end

end

/-! ## Recovery, timeouts and the timestamp counter -/

section
variable {c : Fin 16} {s : State}

theorem canBoDelayExpiry_recovers (h4 : s.get (CAN_STATUS_STATE c) = 4) (ha : s.flag (CAN_BO_CFG_AUTO c) = true) :
    ∃ t, Completes (.canBoDelayExpiry c) s t ∧ t.get (CAN_STATUS_STATE c) = 5 ∧ t.get (CAN_BO_STAT_SEQ_CNT c) = 0 ∧ Untouched (onPage 9) s t := by
  have hrun : (canBoDelayExpiry c).run s = (set (CAN_BO_STAT_SEQ_CNT c) 0).run ((canState c 5).run s) := by
    have hdue : (s.get (CAN_STATUS_STATE c) == 4 && s.flag (CAN_BO_CFG_AUTO c)) = true := by rw [h4, ha]; rfl
    simp only [canBoDelayExpiry, Upd.run_read, hdue, whenU_true, Upd.run_seq]
  have hseq : ∀ c : Fin 16, (CAN_BO_STAT_SEQ_CNT c).apart (CAN_STATUS_STATE c) = true := by decide
  have hset : Within (onPage 9) (set (CAN_BO_STAT_SEQ_CNT c) 0) := within_set (onPage_can c.isLt (by decide))
  refine ⟨_, completes_as (completes_of_finish rfl) hrun, ?_, ?_, (within_channelState c.isLt 5 s).trans (hset _)⟩
  · rw [get_set_apart (hseq c), canState_state c (by decide)]
  · rw [get_set_same (fits_can c).2.2.2.2.2.2.2.2]
    rfl

/-- What the end of bus-off recovery writes before the channel is error-active again (R382). -/
def recoveryShown (c : Nat) : Upd := seqs [set (CAN_BO_STAT_SEQ_CNT c) 128, set (CAN_ERRCNT_TEC c) 0, set (CAN_ERRCNT_REC c) 0,
  set (CAN_STATUS_WARN c) 0, set (CAN_STATUS_ACTIVITY c) 0]

theorem recoveryShown_get (c : Fin 16) (s : State) : ((recoveryShown c).run s).get (CAN_ERRCNT_TEC c) = 0 ∧
    ((recoveryShown c).run s).get (CAN_ERRCNT_REC c) = 0 ∧ ((recoveryShown c).run s).get (CAN_STATUS_WARN c) = 0 := by
  have hapart : ∀ c : Fin 16, (CAN_ERRCNT_REC c).apart (CAN_ERRCNT_TEC c) = true ∧ (CAN_STATUS_WARN c).apart (CAN_ERRCNT_TEC c) = true ∧
      (CAN_STATUS_ACTIVITY c).apart (CAN_ERRCNT_TEC c) = true ∧ (CAN_STATUS_WARN c).apart (CAN_ERRCNT_REC c) = true ∧
      (CAN_STATUS_ACTIVITY c).apart (CAN_ERRCNT_REC c) = true ∧ (CAN_STATUS_ACTIVITY c).apart (CAN_STATUS_WARN c) = true := by decide
  obtain ⟨hrt, hwt, hat, hwr, har, haw⟩ := hapart c
  obtain ⟨_, _, _, hwarn, _, _, htec, hrec, _⟩ := fits_can c
  simp only [recoveryShown, seqs_cons_run, seqs_nil_run]
  refine ⟨?_, ?_, ?_⟩
  · rw [get_set_apart hat, get_set_apart hwt, get_set_apart hrt, get_set_same htec, Nat.zero_mod]
  · rw [get_set_apart har, get_set_apart hwr, get_set_same hrec, Nat.zero_mod]
  · rw [get_set_apart haw, get_set_same hwarn, Nat.zero_mod]

theorem within_recoveryShown (c : Fin 16) : Within (onPage 9) (recoveryShown c) :=
  within_seqs ⟨within_set (onPage_can c.isLt (by decide)), within_set (onPage_can c.isLt (by decide)), within_set (onPage_can c.isLt (by decide)),
    within_set (onPage_can c.isLt (by decide)), within_set (onPage_can c.isLt (by decide))⟩

theorem canIrq_ne_status : ∀ c : Fin 16, CELL_IRQ_STAT 9 c ≠ CAN_STATUS c ∧ CELL_IRQ_STAT 9 c ≠ CAN_ERRCNT c := by decide

/-- Fields of the status and the error counters that `canState` does not write. -/
theorem canState_apart : ∀ c : Fin 16, ∀ g ∈ [CAN_ERRCNT_TEC c, CAN_ERRCNT_REC c, CAN_STATUS_WARN c, CAN_STATUS_EXC c],
    (CAN_STATUS_STATE c).apart g = true ∧ (CAN_STATUS_ACTIVITY c).apart g = true ∧ g.reg ≠ CAN_BO_SUM ∧ g.reg ≠ CAN_EP_SUM := by decide

theorem canRecoveryDone_recovers (h5 : s.get (CAN_STATUS_STATE c) = 5) :
    ∃ t, Completes (.canRecoveryDone c) s t ∧ t.get (CAN_STATUS_STATE c) = 2 ∧ t.get (CAN_ERRCNT_TEC c) = 0 ∧ t.get (CAN_ERRCNT_REC c) = 0 ∧
      t.flag (CAN_STATUS_WARN c) = false ∧ t.bitAt (CELL_IRQ_STAT 9 c) 5 = true ∧ Untouched (onPage 9) s t := by
  have hrun : (canRecoveryDone c).run s = (raiseCan c 5).run ((canState c 2).run ((recoveryShown c).run s)) := by
    have hdue : (s.get (CAN_STATUS_STATE c) == 5) = true := by rw [h5]; rfl
    simp only [canRecoveryDone, Upd.run_read, hdue, whenU_true, recoveryShown, seqs_cons_run, seqs_nil_run]
  obtain ⟨hst, herr⟩ := canIrq_ne_status c
  have hget {g : Fld} (hg : g ∈ [CAN_ERRCNT_TEC c, CAN_ERRCNT_REC c, CAN_STATUS_WARN c, CAN_STATUS_EXC c]) (hr : CELL_IRQ_STAT 9 c ≠ g.reg) :
      ((raiseCan c 5).run ((canState c 2).run ((recoveryShown c).run s))).get g = ((recoveryShown c).run s).get g := by
    obtain ⟨h1, h2, h3⟩ := canState_apart c g hg
    rw [State.get, raiseCan, raiseCell, setBit_reg_ne _ hr]
    exact canState_get_ne c 2 _ h1 h2 h3
  obtain ⟨htec, hrec, hwarn⟩ := recoveryShown_get c s
  refine ⟨_, completes_as (completes_of_finish rfl) hrun, ?_, (hget (by simp) herr).trans htec, (hget (by simp) herr).trans hrec, ?_,
    raiseCan_bitAt_same c (by decide) _, ((within_recoveryShown c s).trans (within_channelState c.isLt 2 _)).trans (within_raiseChannel c.isLt 5 _)⟩
  · rw [State.get, raiseCan, raiseCell, setBit_reg_ne _ hst]
    exact canState_state c (by decide) _
  · rw [State.flag, hget (by simp) hst, hwarn]
    rfl

/-- A dominant timeout's event is raised before its fault, whose report leaves the events. -/
theorem canDomTimeout_reports (hon : s.flag (CELL_STAT_ENABLED 9 c) = true ∨ s.flag (CELL_STAT_DRAINING 9 c) = true)
    (hrst : s.flag (BLK_STAT_RST_BUSY 9) = false) : ∃ t, Completes (.canDomTimeout c) s t ∧ t.bitAt (CELL_IRQ_STAT 9 c) 9 = true ∧
      t.bitAt (CELL_ERR_STAT 9 c) (s.finalClass 9 (some c) TR) = true ∧ Untouched (faultFoot 9) s t := by
  have hrun : (canDomTimeout c).run s = (report 9 (some c) TR).run ((raiseCan c 9).run ((inc (CAN_EVT_CNT_DOM_TO_CNT c)).run s)) := by
    have hdue : (s.flag (CELL_STAT_ENABLED 9 c) || s.flag (CELL_STAT_DRAINING 9 c)) = true := by rcases hon with h | h <;> simp only [h, Bool.true_or, Bool.or_true]
    simp only [canDomTimeout, Upd.run_read, hdue, whenU_true, seqs_cons_run, seqs_nil_run]
  have hfoot : ∀ c : Fin 16, 0x1000 + (unitCells 9).2 * c + 0x14 < 0x10000 ∧ (cellReportFoot 9 c (CELL_IRQ_STAT 9 c) || CELL_IRQ_STAT 9 c == CELL_STAT 9 c) = false := by
    decide
  obtain ⟨hpage, hirq⟩ := hfoot c
  have hrep : Within (fun a => cellReportFoot 9 c a || a == CELL_STAT 9 c) (report 9 (some c.val) TR) :=
    within_report_cell (by decide) (by decide) (by simp) (fun a ha => by simp only [ha, Bool.true_or]) (by simp only [beq_self_eq_true, Bool.or_true])
  have hcnt : Within (onPage 9) (inc (CAN_EVT_CNT_DOM_TO_CNT c)) := within_inc (onPage_can c.isLt (by decide))
  have hsame : Untouched (fun a => a == CELL_IRQ_STAT 9 c || a == CAN_EVT_CNT c) s ((raiseCan c 9).run ((inc (CAN_EVT_CNT_DOM_TO_CNT c)).run s)) :=
    (within_inc (by simp) s).trans (within_setBit (by simp) _)
  have hkept : ∀ c : Fin 16, ∀ a ∈ [BLK_STAT 9, CELL_FAULT_CNT 9 c, (MSU_FLT_CFG_PERM_TH 9).reg], (a == CELL_IRQ_STAT 9 c || a == CAN_EVT_CNT c) = false := by decide
  have hstat := hkept c _ (.head _)
  have hlevel := hkept c _ (.tail _ (.head _))
  have hth := hkept c _ (.tail _ (.tail _ (.head _)))
  refine ⟨_, completes_as (completes_of_finish rfl) hrun, ?_, ?_, ?_⟩
  · rw [bitAt_of_reg_eq ((hrep _).reg_eq hirq)]
    exact raiseCan_bitAt_same c (by decide) _
  · rw [← hsame.finalClass_eq (k := 9) hth hlevel TR]
    exact report_cell_errStat (by decide) (by decide) (fits_canErrStat c) ((hsame.flag_eq hstat).trans hrst)
  · exact (((hcnt s).trans (within_raiseChannel c.isLt 9 _)).mono faultFoot_of_onPage).trans (within_report_cell_faultFoot (by decide) (by decide) (by simp) hpage _)

theorem canTsWrap_restarts (h : s.flag (CAN_TS_CFG_EN c) = true) : ∃ t, Completes (.canTsWrap c) s t ∧ (t.canCh c).tsStart = s.now ∧
    (t.canCh c).tsHeld = 0 ∧ t.bitAt (CELL_IRQ_STAT 9 c) 8 = true ∧ Untouched (onPage 9) s t := by
  have hrun : (canTsWrap c).run s = (raiseCan c 8).run ((updCan c fun x => { x with tsStart := s.now, tsHeld := 0 }).run s) := by
    simp only [canTsWrap, Upd.run_read, h, whenU_true, Upd.run_seq]
  refine ⟨_, completes_as (completes_of_finish rfl) hrun, ?_, ?_, raiseCan_bitAt_same c (by decide) _, (within_upd _ s).trans (within_raiseChannel c.isLt 8 _)⟩
  · rw [canCh_raiseCan, canCh_updCan_same]
  · rw [canCh_raiseCan, canCh_updCan_same]

end

end Sys2Proof.Machine

open Sys2Proof Sys2Proof.Machine

/-- Settles O24: an attempt's end writes the counters and the last error once, and what follows from the counters leaves them. -/
theorem canTransmitEvents : Obligations.CanTransmitEvents := by
  refine ⟨?out, ?joins, ?offers, ?arbitrates, ?success, ?lost, ?error, ?delay, ?recovered, ?dominant, ?wrap⟩
  case out => exact fun c s h => does_of_completes (completes_as (completes_of_finish rfl) (canIntegrated_of_out h)) rfl within_skip
  case joins => exact fun c s h1 h => canIntegrated_joins h1 h
  case offers => exact fun c w i s hu hact hen htx hi hpend hlis hres hfro hok => canArbitration_offers hu hact hen htx hpend hlis hres hfro w hi hok
  case arbitrates => exact fun c e w s hu hact hen htx hpend hlis hres hfro => canArbitration_completes hu hact hen htx hpend hlis hres hfro e w
  case success => exact fun c d i s h => completes_as (completes_of_finish rfl) (canTxSuccess_of_sending d h)
  case lost => exact fun c i s h hcnt hcan hdr => canTxError_ends h hcnt hcan hdr
  case error => exact fun c i e d s h hs h1 h4 _ hdr => canTxError_signals h hs h1 h4 hdr
  case delay => exact fun c s h4 ha => canBoDelayExpiry_recovers h4 ha
  case recovered => exact fun c s h5 => canRecoveryDone_recovers h5
  case dominant => exact fun c s hon hrst => canDomTimeout_reports hon hrst
  case wrap => exact fun c s h => canTsWrap_restarts h
end

section
/-!
The events of the switch: cell times, decisions, plane maps, ageing, gates and drains (R446 to R462).
-/
namespace Sys2Proof.Machine

/-! ## Decisions, plane maps and ageing -/

section
variable {s : State} {p : Fin 25} {h : List Byte}

theorem switchDecision_of_waiting {i : SwIn} (hi : s.b.swq.inp.find? (·.port == p.val) = some i) (hen : s.flag (BLK_STAT_ENABLED 8) = true) :
    (switchDecision p h none false).run s = (Upd.seq (updSw fun x => { x with inp := x.inp.erase i })
      (if s.mustStore p i.data then swDecide p i.queue i.data false i.time
      else .seq (swDecide p i.queue i.data true i.time) (.read fun s => match s.openFrame p with
        | some id => swClose id i.data
        | none => .skip))).run s := by
  simp only [switchDecision, Upd.run_read, hi, hen, whenU_false, whenU_true, seqs_cons_run, seqs_nil_run, Upd.run_skip, Upd.run_seq] <;> rfl

theorem switchDecision_of_arriving (hi : s.b.swq.inp.find? (·.port == p.val) = none) (hen : s.flag (BLK_STAT_ENABLED 8) = true)
    (hp : p.val < 20 ∨ p.val = 22) (hon : s.portOn p = true) (hopen : s.openFrame p = none) (hcut : s.b.swq.cut.contains p.val = false)
    (hst : s.mustStore p h = false) : (switchDecision p h none false).run s = (swDecide p none h true s.devTime).run s := by
  have hport : (decide (p.val < 20) || p.val == 22) = true := by simpa only [Bool.or_eq_true, decide_eq_true_eq, beq_iff_eq] using hp
  simp only [switchDecision, Upd.run_read, hi, hen, hport, hon, hopen, hcut, hst, Option.isNone_none, Bool.not_false, Bool.and_self, whenU_false, whenU_true,
    seqs_cons_run, seqs_nil_run, Upd.run_skip]

theorem pmapApply_ends (hp : s.flag SWC_PMAP_STAT_PENDING = true) (hs : (s.b.swq.stage.all fun e => e.2.isEmpty) = true) :
    ∃ t, Completes .pmapApply s t ∧ t.flag SWC_PMAP_STAT_PENDING = false ∧ t.b.swq.pmap = none ∧ Untouched (· == SWC_PMAP_STAT) s t := by
  have hrun : pmapApply.run s = (updSw fun x => { x with pmap := none }).run ((set SWC_PMAP_STAT_PENDING 0).run s) := by
    simp only [pmapApply, Upd.run_read, hp, hs, Bool.and_self, whenU_true, Upd.run_seq]
  refine ⟨_, completes_as (completes_of_finish rfl) hrun, ?_, rfl, (within_setOwn SWC_PMAP_STAT_PENDING 0 s).trans (within_upd _ _)⟩
  rw [updSw, upd_flag, flag_set_same (by decide)]
  rfl

theorem fdbAgeOut_empties (i : Fin 32768) (ha : s.flag SWC_AGE_CFG_AGE_S = true) (h31 : bit (s.swcWord 1 i 1) 31 = true)
    (h30 : bit (s.swcWord 1 i 1) 30 = false) : ∃ t, Completes (.fdbAgeOut i) s t ∧ (∀ w, t.swcWord 1 i w = 0) ∧ Untouched (fun _ => false) s t := by
  have hrun : (fdbAgeOut i).run s = (setEntry 1 i []).run s := by
    simp only [fdbAgeOut, Upd.run_read, ha, h31, h30, Bool.not_false, Bool.and_self, whenU_true]
  refine ⟨_, completes_as (completes_of_finish rfl) hrun, fun w => ?_, within_upd _ s⟩
  have hgood : s.b.swq.bad.contains (1, i.val) = false := by
    refine Bool.eq_false_iff.mpr fun hbad => ?_
    rw [State.swcWord, State.swcEntry, if_pos hbad] at h31
    exact absurd h31 (by decide)
  have hentry : ((setEntry 1 i []).run s).swcEntry 1 i = mapGet [] (mapPut [] s.b.swq.fdb i []) i := by
    simp only [State.swcEntry, setEntry, updSw, upd_b, hgood, Bool.false_eq_true, if_false, List.all_nil, if_true]
  rw [State.swcWord, hentry, mapGet_mapPut_same, List.getD_nil]

theorem fdbAgeOut_of_static {i : Fin 32768} (h30 : bit (s.swcWord 1 i 1) 30 = true) : (fdbAgeOut i).run s = s := by
  simp only [fdbAgeOut, Upd.run_read, h30, Bool.not_true, Bool.and_false, whenU_false, Upd.run_skip]

theorem wredAvgTick_averages {c : Fin 8} {q : Nat} (hq : 8 * p.val + c.val = q) (he : s.outQ p c = []) : ∃ t, Completes (.wredAvgTick p c) s t ∧
    mapGet 0 t.b.swq.avg q = avgStep (mapGet 0 s.b.swq.avg q) (bits (s.queueWord q 0) 27 24) 0 ∧ Untouched (fun _ => false) s t := by
  have hrun : (wredAvgTick p c).run s = (updSw fun x =>
      { x with avg := mapPut 0 x.avg q (avgStep (mapGet 0 x.avg q) (bits (s.queueWord q 0) 27 24) 0) }).run s := by
    simp only [wredAvgTick, Upd.run_read, he, List.isEmpty_nil, whenU_true, hq]
  exact ⟨_, completes_as (completes_of_finish rfl) hrun, mapGet_mapPut_same _ _ _ _, within_upd _ s⟩

/-! ## Copies discarded -/

theorem within_dropCopies {cnt : Nat} (hcnt : onPage 8 cnt = true) (n : Nat) (test : Nat → SwCopy → Bool) : Within (onPage 8) (dropCopies n cnt test) :=
  within_forN fun _ _ => within_read fun _ => within_seqs ⟨within_forEach fun _ _ => within_seqs ⟨within_read fun _ => within_set (by decide),
    within_upd _, within_count hcnt⟩, within_upd _⟩

theorem queueHoldExpiry_of_down (hl : s.flag (ETP_PORT_STAT_LINK_UP p) = false) :
    (queueHoldExpiry p).run s = (dropCopies p (SWC_OUT_UNAVAIL p) fun _ c => c.old).run s := by
  simp only [queueHoldExpiry, Upd.run_read, hl, Bool.not_false, whenU_true]

theorem gateFitDrop_of_head {c : Fin 8} {x : SwCopy} {xs : List SwCopy} (hq : s.outQ p c = x :: xs) (ho : s.flag (SWC_GCL_STAT_OPER p) = true) :
    (gateFitDrop p c).run s = (dropCopies p (SWC_OUT_GATE_DROP p) fun t' c' => t' == c.val && c'.fid == x.fid).run s := by
  simp only [gateFitDrop, Upd.run_read, hq, ho, whenU_true]

theorem onPage_swcOut : ∀ p : Fin 25, onPage 8 (SWC_OUT_UNAVAIL p) = true ∧ onPage 8 (SWC_OUT_GATE_DROP p) = true := by decide

/-! ## Gate control lists -/

theorem fits_gclStat : ∀ p : Fin 25, (SWC_GCL_STAT_PENDING p).fits = true ∧ (SWC_GCL_STAT_OPER p).fits = true ∧ (SWC_GCL_STAT_ENTRY p).fits = true ∧
    BLK_IRQ_STAT 8 ≠ SWC_GCL_STAT p := by decide

theorem gclStat_apart : ∀ p : Fin 25, (SWC_GCL_STAT_OPER p).apart (SWC_GCL_STAT_PENDING p) = true ∧ (SWC_GCL_STAT_BANK p).apart (SWC_GCL_STAT_PENDING p) = true ∧
    (SWC_GCL_STAT_ENTRY p).apart (SWC_GCL_STAT_PENDING p) = true ∧ (SWC_GCL_STAT_BANK p).apart (SWC_GCL_STAT_OPER p) = true ∧
    (SWC_GCL_STAT_ENTRY p).apart (SWC_GCL_STAT_OPER p) = true := by decide

@[simp] theorem gcl_updGcl_same (n : Nat) (f : GclRun → GclRun) (s : State) : ((updGcl n f).run s).gcl n = f (s.gcl n) := mapGet_mapPut_same _ _ _ _

/-- What the status shows of a list that became operational (R462). -/
def gclShown (p bank : Nat) : Upd := seqs [set (SWC_GCL_STAT_PENDING p) 0, set (SWC_GCL_STAT_OPER p) 1, set (SWC_GCL_STAT_BANK p) bank,
  set (SWC_GCL_STAT_ENTRY p) 0]

theorem within_gclShown (bank : Nat) : Within (onPage 8) (gclShown p bank) :=
  within_seqs ⟨within_set (onPage_gclStat p.isLt), within_set (onPage_gclStat p.isLt), within_set (onPage_gclStat p.isLt), within_set (onPage_gclStat p.isLt)⟩

theorem gclShown_get (bank : Nat) (s : State) : ((gclShown p bank).run s).get (SWC_GCL_STAT_PENDING p) = 0 ∧
    ((gclShown p bank).run s).get (SWC_GCL_STAT_OPER p) = 1 ∧ ((gclShown p bank).run s).get (SWC_GCL_STAT_ENTRY p) = 0 := by
  obtain ⟨hop, hbp, hep, hbo, heo⟩ := gclStat_apart p
  obtain ⟨hpend, hoper, hentry, _⟩ := fits_gclStat p
  simp only [gclShown, seqs_cons_run, seqs_nil_run]
  refine ⟨?_, ?_, ?_⟩
  · rw [get_set_apart hep, get_set_apart hbp, get_set_apart hop, get_set_same hpend, Nat.zero_mod]
  · rw [get_set_apart heo, get_set_apart hbo, get_set_same hoper]
    rfl
  · rw [get_set_same hentry, Nat.zero_mod]

/-- The two lists of port `p` trade places (R462). -/
def gclSwap (p : Nat) (s : State) : Upd := .seq (storeBytes (gclOper p) (s.bytes (gclAdmin p) 0x800)) (storeBytes (gclAdmin p) (s.bytes (gclOper p) 0x800))

theorem gclSwap_oper (n i : Nat) (hi : i < 0x800) (s : State) : ((gclSwap n s).run s).byte (gclOper n + i) = s.byte (gclAdmin n + i) := by
  have hlen : (s.bytes (gclOper n) 0x800).length = 0x800 := by simp [State.bytes]
  have hsrc : i < (s.bytes (gclAdmin n) 0x800).length := by simpa [State.bytes] using hi
  have hout : gclOper n + i < gclAdmin n ∨ gclAdmin n + (s.bytes (gclOper n) 0x800).length ≤ gclOper n + i := by
    rw [hlen, gclOper, gclAdmin]
    omega
  rw [gclSwap, Upd.run_seq, byte_storeBytes_ne _ _ _ _ hout, byte_storeBytes _ _ s i hsrc]
  simp [State.bytes]

theorem gclSwap_byte_ne {n a : Nat} (ha : a < gclAdmin n ∨ gclAdmin n + 0x1000 ≤ a) (s : State) : ((gclSwap n s).run s).byte a = s.byte a := by
  have hlen (x : Nat) : (s.bytes x 0x800).length = 0x800 := by simp [State.bytes]
  simp only [gclAdmin] at ha
  rw [gclSwap, Upd.run_seq, byte_storeBytes_ne _ _ _ _ (by rw [hlen, gclAdmin]; omega), byte_storeBytes_ne _ _ _ _ (by rw [hlen, gclOper]; omega)]

theorem gclSwap_regs (n : Nat) (s : State) : ((gclSwap n s).run s).regs = s.regs := by
  rw [gclSwap, Upd.run_seq, storeBytes_regs, storeBytes_regs]

/-- The operational list's run as a change starts it. -/
def State.gclStarted (s : State) (p : Nat) (x : GclRun) : GclRun := { x with
  cycle := x.change
  entry := x.change
  base := s.reg64 (SWC_GCL_BASE_LO p) (SWC_GCL_BASE_HI p)
  len := min 256 (max 1 (s.get (SWC_GCL_CFG_LEN p)))
  cyc := min 1000000000 (max 1000 (s.get (SWC_GCL_CYCLE_CYCLE p))) }

theorem gclChange_of_pending (hp : s.flag (SWC_GCL_STAT_PENDING p) = true) : (gclChange p).run s =
    (updGcl p (s.gclStarted p)).run ((raise 8 4).run ((gclShown p (1 - s.get (SWC_GCL_STAT_BANK p))).run ((gclSwap p s).run s))) := by
  simp only [gclChange, Upd.run_read, hp, whenU_true, gclSwap, gclShown, seqs_cons_run, seqs_nil_run, Upd.run_seq] <;> rfl

theorem gclShown_b (n bank : Nat) (s : State) : ((gclShown n bank).run s).b = s.b := by
  simp only [gclShown, seqs_cons_run, seqs_nil_run, set_b]

theorem gclSwap_gcl (n : Nat) (s : State) : ((gclSwap n s).run s).gcl n = s.gcl n := by
  rw [State.gcl, gclSwap, Upd.run_seq, storeBytes_b, storeBytes_b, State.gcl]

theorem gclChange_starts (hp : s.flag (SWC_GCL_STAT_PENDING p) = true) :
    ∃ t, Completes (.gclChange p) s t ∧ t.flag (SWC_GCL_STAT_PENDING p) = false ∧ t.flag (SWC_GCL_STAT_OPER p) = true ∧
      t.get (SWC_GCL_STAT_ENTRY p) = 0 ∧ (t.gcl p).cycle = (s.gcl p).change ∧ t.bitAt (BLK_IRQ_STAT 8) 4 = true ∧
      (∀ i < 0x800, t.byte (gclOper p + i) = s.byte (gclAdmin p + i)) ∧
      (∀ a, a < gclAdmin p ∨ gclAdmin p + 0x1000 ≤ a → t.byte a = s.byte a) ∧ OnlyRegs (onPage 8) s t := by
  obtain ⟨hpend, hoper, hentry⟩ := gclShown_get (p := p) (1 - s.get (SWC_GCL_STAT_BANK p)) ((gclSwap p s).run s)
  have hget {g : Fld} (hg : g.reg = SWC_GCL_STAT p) : ((updGcl p (s.gclStarted p)).run ((raise 8 4).run
      ((gclShown p (1 - s.get (SWC_GCL_STAT_BANK p))).run ((gclSwap p s).run s)))).get g =
      ((gclShown p (1 - s.get (SWC_GCL_STAT_BANK p))).run ((gclSwap p s).run s)).get g := by
    rw [updGcl, updSw, upd_get, get_raise (fun h => (fits_gclStat p).2.2.2 (h.trans hg))]
  have hfoot : Untouched (onPage 8) ((gclSwap p s).run s) ((updGcl p (s.gclStarted p)).run ((raise 8 4).run
      ((gclShown p (1 - s.get (SWC_GCL_STAT_BANK p))).run ((gclSwap p s).run s)))) :=
    ((within_gclShown _ _).trans (within_raise 8 4 _)).trans (within_upd _ _)
  refine ⟨_, completes_as (completes_of_finish rfl) (gclChange_of_pending hp), ?_, ?_, (hget rfl).trans hentry, ?_, ?_,
    fun i hi => (hfoot.1 _).trans (gclSwap_oper p i hi s), fun a ha => (hfoot.1 a).trans (gclSwap_byte_ne ha s), fun a ha => ?_⟩
  · rw [State.flag, hget rfl, hpend]
    rfl
  · rw [State.flag, hget rfl, hoper]
    rfl
  · have hb (u : State) : ((raise 8 4).run ((gclShown p (1 - s.get (SWC_GCL_STAT_BANK p))).run u)).gcl p = u.gcl p := by
      rw [State.gcl, raise_b, gclShown_b, State.gcl]
    rw [gcl_updGcl_same, hb, gclSwap_gcl, State.gclStarted]
  · rw [updGcl, updSw, upd_bitAt]
    exact raise_bitAt_same (by decide) _
  · exact (hfoot.2 a ha).trans (by rw [State.reg, gclSwap_regs]; rfl)

/-- The list's next entry and, past the cycle's end, its next cycle (R462). -/
theorem gclEntryAdvance_cycles (ho : s.flag (SWC_GCL_STAT_OPER p) = true)
    (hf : (s.gcl p).cycle + (s.gcl p).cyc ≤ s.entryEnd p (s.get (SWC_GCL_STAT_ENTRY p)) (s.gcl p).entry (s.gcl p).cycle) :
    ∃ t, Completes (.gclEntryAdvance p) s t ∧ t.get (SWC_GCL_STAT_ENTRY p) = 0 ∧ (s.gcl p).cycle + (s.gcl p).cyc ≤ (t.gcl p).cycle ∧
      Untouched (onPage 8) s t := by
  have hrun (start : Nat) (h : max ((s.gcl p).cycle + (s.gcl p).cyc)
      ((s.gcl p).base + (s.devTime - (s.gcl p).base) / (s.gcl p).cyc * (s.gcl p).cyc) = start) : (gclEntryAdvance p).run s =
      (updGcl p fun x => { x with cycle := start, entry := start }).run ((set (SWC_GCL_STAT_ENTRY p) 0).run s) := by
    simp only [gclEntryAdvance, Upd.run_read, ho, whenU_true, hf, if_true, Upd.run_seq, h]
  have hset : Within (onPage 8) (set (SWC_GCL_STAT_ENTRY p) 0) := within_set (onPage_gclStat p.isLt)
  refine ⟨_, completes_as (completes_of_finish rfl) (hrun _ rfl), ?_, ?_, (hset s).trans (within_upd _ _)⟩
  · rw [updGcl, updSw, upd_get, get_set_same (fits_gclStat p).2.2.1, Nat.zero_mod]
  · rw [gcl_updGcl_same]
    exact Nat.le_max_left _ _

theorem gclEntryAdvance_moves (ho : s.flag (SWC_GCL_STAT_OPER p) = true)
    (hf : ¬ (s.gcl p).cycle + (s.gcl p).cyc ≤ s.entryEnd p (s.get (SWC_GCL_STAT_ENTRY p)) (s.gcl p).entry (s.gcl p).cycle) :
    ∃ t, Completes (.gclEntryAdvance p) s t ∧ t.get (SWC_GCL_STAT_ENTRY p) = (s.get (SWC_GCL_STAT_ENTRY p) + 1) % 256 ∧
      (t.gcl p).entry = s.entryEnd p (s.get (SWC_GCL_STAT_ENTRY p)) (s.gcl p).entry (s.gcl p).cycle ∧ Untouched (onPage 8) s t := by
  have hrun : (gclEntryAdvance p).run s = (updGcl p fun x => { x with entry := s.entryEnd p (s.get (SWC_GCL_STAT_ENTRY p)) (s.gcl p).entry (s.gcl p).cycle }).run
      ((set (SWC_GCL_STAT_ENTRY p) (s.get (SWC_GCL_STAT_ENTRY p) + 1)).run s) := by
    simp only [gclEntryAdvance, Upd.run_read, ho, whenU_true, hf, if_false, Upd.run_seq]
  have hset (v : Nat) : Within (onPage 8) (set (SWC_GCL_STAT_ENTRY p) v) := within_set (onPage_gclStat p.isLt)
  refine ⟨_, completes_as (completes_of_finish rfl) hrun, ?_, ?_, (hset _ s).trans (within_upd _ _)⟩
  · rw [updGcl, updSw, upd_get, get_set_same (fits_gclStat p).2.2.1]
    rfl
  · rw [gcl_updGcl_same]

/-! ## Drains -/

/-- A drain's end shows `v` and raises event 0 (R446). -/
def swcDrained (v : Nat) : Upd := .seq (setReg SWC_DRAIN_STAT v) (raise 8 0)

theorem within_swcDrained (v : Nat) : Within (onPage 8) (swcDrained v) := within_seq (within_setReg (by decide)) (within_raise 8 0)

theorem swcDrained_flag {f : Fld} (hr : f.reg = SWC_DRAIN_STAT) (hf : f.fits = true) (v : Nat) (s : State) :
    ((swcDrained v).run s).flag f = (bits v f.hi f.lo != 0) := by
  have hne : BLK_IRQ_STAT 8 ≠ f.reg := by
    rw [hr]
    decide
  rw [swcDrained, Upd.run_seq, State.flag, get_raise hne, ← hr]
  exact flag_setReg_same hf v s

theorem swcDrained_irq (v : Nat) (s : State) : ((swcDrained v).run s).bitAt (BLK_IRQ_STAT 8) 0 = true := by
  rw [swcDrained, Upd.run_seq]
  exact raise_bitAt_same (by decide) _

theorem swcDrainDone_ends (hb : s.flag SWC_DRAIN_STAT_BUSY = true) (ho : s.olderFrames = []) :
    ∃ t, Completes .swcDrainDone s t ∧ t.flag SWC_DRAIN_STAT_BUSY = false ∧ t.flag SWC_DRAIN_STAT_DONE = true ∧
      t.bitAt (BLK_IRQ_STAT 8) 0 = true ∧ Untouched (onPage 8) s t := by
  have hrun : swcDrainDone.run s = (swcDrained (2 ^ 30)).run s := by
    simp only [swcDrainDone, Upd.run_read, hb, ho, List.isEmpty_nil, Bool.and_self, whenU_true, swcDrained]
  exact ⟨_, completes_as (completes_of_finish rfl) hrun, swcDrained_flag rfl (by decide) _ s, swcDrained_flag rfl (by decide) _ s, swcDrained_irq _ s,
    within_swcDrained _ s⟩

theorem getD_find?_range_lt {n d m : Nat} (hn : n ≤ m) (hd : d < m) (f : Nat → Bool) : ((List.range n).find? f).getD d < m := by
  cases h : (List.range n).find? f with
  | none => exact hd
  | some x => exact Nat.lt_of_lt_of_le (List.mem_range.mp (List.mem_of_find?_eq_some h)) hn

theorem swcDrainTimeout_ends (hb : s.flag SWC_DRAIN_STAT_BUSY = true) (ht : s.flag SWC_DRAIN_CTRL_TO_MS = true) :
    ∃ t, Completes .swcDrainTimeout s t ∧ t.flag SWC_DRAIN_STAT_BUSY = false ∧ t.flag SWC_DRAIN_STAT_TIMEOUT = true ∧
      t.bitAt (BLK_IRQ_STAT 8) 0 = true ∧ Untouched (onPage 8) s t := by
  have hrun : ∃ n < 32, swcDrainTimeout.run s = (swcDrained (2 ^ 29 + n * 2 ^ 24)).run s := by
    refine ⟨_, ?_, by
      simp only [swcDrainTimeout, Upd.run_read, hb, ht, Bool.and_self, whenU_true]
      rfl⟩
    exact getD_find?_range_lt (by decide) (by decide) _
  obtain ⟨n, hn, hrun⟩ := hrun
  have hbusy : ∀ n < 32, (bits (2 ^ 29 + n * 2 ^ 24) 31 31 != 0) = false ∧ (bits (2 ^ 29 + n * 2 ^ 24) 29 29 != 0) = true := by decide
  obtain ⟨hb31, hb29⟩ := hbusy n hn
  exact ⟨_, completes_as (completes_of_finish rfl) hrun, (swcDrained_flag rfl (by decide) _ s).trans hb31, (swcDrained_flag rfl (by decide) _ s).trans hb29,
    swcDrained_irq _ s, within_swcDrained _ s⟩

end

end Sys2Proof.Machine

open Sys2Proof Sys2Proof.Machine

/-- Settles O29: each event is one branch of its operation; a change of lists swaps their bytes before the status shows it. -/
theorem switchEvents : Obligations.SwitchEvents := by
  refine ⟨?cells, ?waiting, ?arriving, ?pmap, ?ages, ?static, ?average, ?hold, ?gate, ?change, ?advance, ?drained, ?timeout⟩
  case cells =>
    intro pl s m
    exact completes_as (completes_of_finish rfl) (by rw [cellTimeMatch, Upd.run_read])
  case waiting => exact fun p h i s hu hi hen => completes_as (completes_of_work rfl hu) (switchDecision_of_waiting hi hen)
  case arriving =>
    exact fun p h s hu hi hen hp hon hopen hcut hst => completes_as (completes_of_work rfl hu) (switchDecision_of_arriving hi hen hp hon hopen hcut hst)
  case pmap => exact fun s hp hs => pmapApply_ends hp hs
  case ages => exact fun i s ha h31 h30 => fdbAgeOut_empties i ha h31 h30
  case static => exact fun i s h30 => does_of_completes (completes_as (completes_of_finish rfl) (fdbAgeOut_of_static h30)) rfl within_skip
  case average => exact fun p c s he => wredAvgTick_averages rfl he
  case hold =>
    exact fun p s hl => does_of_completes (completes_as (completes_of_finish rfl) (queueHoldExpiry_of_down hl)) rfl (within_dropCopies (onPage_swcOut p).1 _ _)
  case gate =>
    exact fun p c x xs s hq ho => does_of_completes (completes_as (completes_of_finish rfl) (gateFitDrop_of_head hq ho)) rfl
      (within_dropCopies (onPage_swcOut p).2 _ _)
  case change => exact fun p s hp => gclChange_starts hp
  case advance =>
    intro p s ho
    dsimp only
    split
    next hf => exact gclEntryAdvance_cycles ho hf
    next hf => exact gclEntryAdvance_moves ho hf
  case drained => exact fun s hb ho => swcDrainDone_ends hb ho
  case timeout => exact fun s hb ht => swcDrainTimeout_ends hb ht
end

section
/-!
The chain's packets, enumeration, reads and tunnel (R562 to R580).
-/
namespace Sys2Proof.Machine

section
variable {c : Fin 2} {s : State}

/-! ## FINZA_PACKET_RX -/

theorem finzaPacketRx_of_down (i : FinzaIn) (h : s.get (FLK_LINK_STAT_STATE c) ≠ 4) : (finzaPacketRx c i).run s = s := by
  simp only [finzaPacketRx, finzaRx, Upd.run_read, beq_false_of_ne h, Bool.false_and, whenU_false, Upd.run_skip]

section
variable (h4 : s.get (FLK_LINK_STAT_STATE c) = 4) (hen : s.flag (BLK_STAT_ENABLED 13) = true) (p : Pkt) (q : Fin 4096)
include h4 hen

theorem finzaPacketRx_of_wrong : (finzaPacketRx c (.packet p q 1)).run s =
    (updPort c fun x => { x with nak := true }).run ((count (FLK_CNT_CRC_ERR c)).run s) := by
  have hup : (s.get (FLK_LINK_STAT_STATE c) == 4) = true := by rw [h4]; rfl
  have h3 : (1 : Fin 4) ≠ 3 := by decide
  have h2 : (1 : Fin 4) ≠ 2 := by decide
  simp only [finzaPacketRx, finzaRx, Upd.run_read, hup, hen, Bool.and_self, whenU_true, h3, h2, if_false, if_true, nakOut, Upd.run_seq]

theorem finzaPacketRx_naks (hu : s.unarmed 13 = true) : ∃ t, Completes (.finzaPacketRx c (.packet p q 1)) s t ∧ (t.port c).nak = true ∧
    t.reg (FLK_CNT_CRC_ERR c) = min (2 ^ 32 - 1) (s.reg (FLK_CNT_CRC_ERR c) + 1) ∧ Untouched (onPage 13) s t := by
  have hcnt : ∀ c : Fin 2, (whole (FLK_CNT_CRC_ERR c)).fits = true ∧ onPage 13 (FLK_CNT_CRC_ERR c) = true := by decide
  refine ⟨_, completes_as (completes_of_work rfl hu) (finzaPacketRx_of_wrong h4 hen p q), ?_, ?_, (within_count (hcnt c).2 s).trans (within_updPort c _ _)⟩
  · rw [port_updPort_same]
  · rw [updPort, updFlk, upd_reg, reg_count_same (hcnt c).1]

theorem finzaPacketRx_of_inOrder (hq : q.val = (s.port c).rxSeq) : (finzaPacketRx c (.packet p q 0)).run s = (seqs [
    updPort c fun x => { x with rxSeq := (x.rxSeq + 1) % 4096, nak := false, acc := if 15 ≤ x.acc then 0 else x.acc + 1 },
    count (FLK_CNT_RX_PKT c), elementOk 13 c, packetIn pktLocal c p]).run s := by
  have hup : (s.get (FLK_LINK_STAT_STATE c) == 4) = true := by rw [h4]; rfl
  have hcrc : (0 : Fin 4) ≠ 3 ∧ (0 : Fin 4) ≠ 2 ∧ (0 : Fin 4) ≠ 1 := by decide
  simp only [finzaPacketRx, finzaRx, Upd.run_read, hup, hen, Bool.and_self, whenU_true, hcrc, hq, ne_eq, not_true_eq_false, if_false]

end

/-! ## Enumeration and reads -/

theorem enumTailTimeout_of_tail (hv : s.flag FLK_DEV_VALID = true) (hb : s.moduleBelow = false) (hm : s.chainMode ≠ 0) :
    enumTailTimeout.run s = tailReport.run s := by
  simp only [enumTailTimeout, Upd.run_read, hv, hb, bne_iff_ne.mpr hm, Bool.not_false, Bool.and_self, whenU_true]

theorem enumTailTimeout_of_unnumbered (hv : s.flag FLK_DEV_VALID = false) : enumTailTimeout.run s = s := by
  simp only [enumTailTimeout, Upd.run_read, hv, Bool.false_and, whenU_false, Upd.run_skip]

theorem chainReadTimeout_of_read {g : Fin 256} {r : ChainRead} (h : s.b.flk.reads.find? (·.tag == g.val) = some r) :
    (chainReadTimeout g).run s = (Upd.seq (tagFree r.tag) (chainReadEnd r 3 0 [])).run s := by
  simp only [chainReadTimeout, Upd.run_read, h]

theorem chainReadTimeout_of_none {g : Fin 256} (h : s.b.flk.reads.find? (·.tag == g.val) = none) : (chainReadTimeout g).run s = s := by
  simp only [chainReadTimeout, Upd.run_read, h, Upd.run_skip]

/-! ## The tunnel -/

theorem tunnelReasmTimeout_drops {n : Fin 64} {r : Reasm} (h : mapGet none s.b.flk.reasm n = some r) :
    ∃ t, Completes (.tunnelReasmTimeout n) s t ∧ mapGet none t.b.flk.reasm n = none ∧ t.bitAt (BLK_IRQ_STAT 13) 5 = true ∧ Untouched (onPage 13) s t := by
  have hrun : (tunnelReasmTimeout n).run s = (raise 13 5).run ((inc FLK_TUN_CNT_DROPPED).run
      ((updFlk fun x => { x with reasm := mapPut none x.reasm n.val none }).run s)) := by
    simp only [tunnelReasmTimeout, Upd.run_read, h, Option.isSome_some, whenU_true, seqs_cons_run, seqs_nil_run]
  have hcnt : Within (onPage 13) (inc FLK_TUN_CNT_DROPPED) := within_inc (by decide)
  refine ⟨_, completes_as (completes_of_finish rfl) hrun, ?_, raise_bitAt_same (by decide) _, ((within_upd _ s).trans (hcnt _)).trans (within_raise 13 5 _)⟩
  rw [raise_b, inc_b]
  exact mapGet_mapPut_same (none : Option Reasm) s.b.flk.reasm n.val none

theorem tunnelAgeOut_removes {m : Fin 281474976710656} (h : s.flag FLK_TUN_CFG_AGE_S = true) :
    ∃ t, Completes (.tunnelAgeOut m false) s t ∧ (t.b.flk.learn.any (·.1 == m.val)) = false ∧ Untouched (fun _ => false) s t := by
  have hrun : (tunnelAgeOut m false).run s = (updFlk fun x => { x with learn := x.learn.filter (·.1 != m.val) }).run s := by
    simp only [tunnelAgeOut, Upd.run_read, h, Bool.or_true, whenU_false, whenU_true, Upd.run_seq, Upd.run_skip]
  refine ⟨_, completes_as (completes_of_finish rfl) hrun, ?_, within_upd _ s⟩
  refine List.any_eq_false.mpr fun e he => ?_
  have hne : (e.1 != m.val) = true := (List.mem_filter.mp he).2
  simpa using hne

end

end Sys2Proof.Machine

open Sys2Proof Sys2Proof.Machine

/-- Settles O37: each event is one branch of its operation. -/
theorem chainPacketEvents : Obligations.ChainPacketEvents := by
  refine ⟨?down, ?wrong, ?inOrder, ?tail, ?unnumbered, ?read, ?noRead, ?reassembly, ?age⟩
  case down => exact fun c i s hu h => does_of_completes (completes_as (completes_of_work rfl hu) (finzaPacketRx_of_down i h)) rfl within_skip
  case wrong => exact fun c p q s hu h4 hen => finzaPacketRx_naks h4 hen p q hu
  case inOrder => exact fun c p q s hu h4 hen hq => completes_as (completes_of_work rfl hu) (finzaPacketRx_of_inOrder h4 hen p q hq)
  case tail => exact fun s hv hb hm => completes_as (completes_of_finish rfl) (enumTailTimeout_of_tail hv hb hm)
  case unnumbered => exact fun s hv => does_of_completes (completes_as (completes_of_finish rfl) (enumTailTimeout_of_unnumbered hv)) rfl within_skip
  case read => exact fun g r s h => completes_as (completes_of_finish rfl) (chainReadTimeout_of_read h)
  case noRead => exact fun g s h => does_of_completes (completes_as (completes_of_finish rfl) (chainReadTimeout_of_none h)) rfl within_skip
  case reassembly => exact fun n r s h => tunnelReasmTimeout_drops h
  case age => exact fun m s h => tunnelAgeOut_removes h
end

section
/-!
What the engines' transfers (R44 to R49, R205, R209) leave: the registers of the pages of IOM and of the signal router, and the records
of the blocks that take no part in a transfer.
-/
namespace Sys2Proof.Machine

/-! ## The view -/

/-- The registers that a transfer may write: none on the pages of IOM and of the signal router. -/
def transferFoot (a : Nat) : Bool := !onPage 6 a && !onPage 11 a

theorem transferFoot_iff (a : Nat) : transferFoot a = true ↔ (a < 0x20600000 ∨ 0x20610000 ≤ a) ∧ (a < 0x30400000 ∨ 0x30410000 ≤ a) := by
  simp only [transferFoot, Bool.and_eq_true, Bool.not_eq_true', onPage_eq_false_iff]
  rfl

theorem transferFoot_unit {k o : Nat} (h6 : k ≠ 6) (h11 : k ≠ 11) (ho : o < 0x10000) : transferFoot (unitBase k + o) = true := by
  rw [transferFoot_iff]
  unfold unitBase
  repeat' split
  all_goals omega

theorem transferFoot_faultRegs {a : Nat} (h : faultRegs a = true) : transferFoot a = true := by
  simp only [faultRegs, Bool.or_eq_true, beq_iff_eq, Bool.and_eq_true, decide_eq_true_eq] at h
  rw [transferFoot_iff]
  omega

theorem transferFoot_reportFoot {k a : Nat} (h6 : k ≠ 6) (h11 : k ≠ 11) (h : reportFoot k a = true) : transferFoot a = true := by
  simp only [reportFoot, Bool.or_eq_true, beq_iff_eq] at h
  rcases h with (h | rfl) | rfl
  · exact transferFoot_faultRegs h
  · exact transferFoot_unit h6 h11 (by decide)
  · exact transferFoot_unit h6 h11 (by decide)

/-- A view of the blocks' records that shows nothing of what a transfer changes: those of the fabric, of memory, of the host bridge and
of the chain. -/
structure Aloof {β : Type} (π : Blocks → β) : Prop where
  fab : ∀ b x, π { b with fab := x } = π b
  mem : ∀ b x, π { b with mem := x } = π b
  hbr : ∀ b x, π { b with hbr := x } = π b
  flk : ∀ b x, π { b with flk := x } = π b

/-- The registers off `transferFoot`, and the records as `π` shows them. -/
def State.aside {β : Type} (π : Blocks → β) (s : State) : (Nat → Nat) × β := (fun a => if transferFoot a then 0 else s.reg a, π s.b)

/-- The update leaves the registers off `transferFoot` and the records as `π` shows them. -/
def KeepsAside {β : Type} (π : Blocks → β) (u : Upd) : Prop := Keeps (State.aside π) u

/-- The update leads from a view to one that `R` relates it to. -/
def LeadsAside {β : Type} (π : Blocks → β) (R : (Nat → Nat) × β → (Nat → Nat) × β → Prop) (u : Upd) : Prop := ∀ s, R (s.aside π) ((u.run s).aside π)

section
variable {β : Type} {π : Blocks → β}

theorem aside_reg {s t : State} (h : t.aside π = s.aside π) {a : Nat} (ha : transferFoot a = false) : t.reg a = s.reg a := by
  have hreg := congrFun (congrArg Prod.fst h) a
  simpa only [State.aside, ha, Bool.false_eq_true, if_false] using hreg

theorem aside_get {s t : State} (h : t.aside π = s.aside π) {f : Fld} (hf : transferFoot f.reg = false) : t.get f = s.get f := by
  simp only [State.get, aside_reg h hf]

theorem aside_b {s t : State} (h : t.aside π = s.aside π) : π t.b = π s.b := congrArg Prod.snd h

theorem keepsAside_of {u : Upd} (hr : ∀ a, transferFoot a = false → Keeps (·.reg a) u) (hb : Keeps (π ·.b) u) : KeepsAside π u := fun s =>
  Prod.ext (funext fun a => by
    cases ha : transferFoot a
    · simpa only [State.aside, ha, Bool.false_eq_true, if_false] using hr a ha s
    · simp only [State.aside, ha, if_true]) (hb s)

theorem keepsAside_of_within {u : Upd} (hw : Within transferFoot u) (hb : Keeps (π ·.b) u) : KeepsAside π u :=
  keepsAside_of (fun _ ha => keeps_reg_of_within hw ha) hb

theorem keepsAside_setReg {a : Nat} (h : transferFoot a = true) (v : Nat) : KeepsAside π (setReg a v) :=
  keepsAside_of_within (within_setReg h) (keeps_b_setReg π _ _)

theorem keepsAside_set {f : Fld} (h : transferFoot f.reg = true) (v : Nat) : KeepsAside π (set f v) := keepsAside_of_within (within_set h) (keeps_b_set π _ _)

theorem keepsAside_raise {k : Nat} (h6 : k ≠ 6) (h11 : k ≠ 11) (i : Nat) : KeepsAside π (raise k i) :=
  keepsAside_of_within (within_setBit (transferFoot_unit h6 h11 (by decide))) (keeps_b_setBit _ _)

theorem keepsAside_count {a : Nat} (h : transferFoot a = true) (n : Nat) : KeepsAside π (count a n) := keepsAside_of_within (within_count h) (keeps_b_inc _ _)

theorem keepsAside_storeBytes (a : Nat) (l : List Byte) : KeepsAside π (storeBytes a l) :=
  keepsAside_of (fun c _ => keeps_reg_storeBytes c a l) fun s => congrArg π (storeBytes_b a l s)

theorem keepsAside_upd {f : Blocks → Blocks} (h : ∀ b, π (f b) = π b) : KeepsAside π (upd f) := keepsAside_of_within (within_upd f) (keeps_b_upd h)

variable (hπ : Aloof π)
include hπ

theorem Aloof.updFab (f : Fab → Fab) : KeepsAside π (updFab f) := keepsAside_upd fun b => hπ.fab b _
theorem Aloof.updMem (f : Mem → Mem) : KeepsAside π (updMem f) := keepsAside_upd fun b => hπ.mem b _

theorem Aloof.report {k cls : Nat} (hk : k ≤ 27) (h6 : k ≠ 6) (h11 : k ≠ 11) (hc : cls < 16) : KeepsAside π (report k none cls) :=
  keepsAside_of_within ((within_report_block hk hc).mono fun _ => transferFoot_reportFoot h6 h11) (keeps_b_report_block hπ.fab k cls)

/-! ## Faults, refusals and accounts of a transfer -/

theorem Aloof.refuse (who a kind cause : Nat) : KeepsAside π (refuse who a kind cause) := by
  unfold Machine.refuse
  dsimp only
  split
  next r hr =>
    have hr4 := regionOf_lt hr
    exact keeps_seqs ⟨keepsAside_setReg (transferFoot_unit (by omega) (by omega) (by decide)) _,
      keepsAside_setReg (transferFoot_unit (by omega) (by omega) (by decide)) _, hπ.report (by omega) (by omega) (by omega) (by decide)⟩
  next =>
    exact keeps_seqs ⟨keepsAside_setReg (by decide) _, keepsAside_setReg (by decide) _, keepsAside_count (by decide) _,
      hπ.report (by decide) (by decide) (by decide) (by decide)⟩

theorem Aloof.memUe (kind pid line : Nat) : KeepsAside π (memUe kind pid line) :=
  keeps_seqs ⟨keeps_seqs ⟨keepsAside_setReg (by decide) _, keepsAside_setReg (by decide) _⟩, keepsAside_count (by decide) _,
    keepsAside_raise (by decide) (by decide) 1, hπ.report (by decide) (by decide) (by decide) (by decide)⟩

theorem Aloof.tcmError {x : Nat} (hx : x < 2) (port word : Nat) (ue : Bool) : KeepsAside π (tcmError x port word ue) := by
  have hcls : (if ue then PM else CE) < 16 := by cases ue <;> decide
  exact keeps_seqs ⟨keepsAside_setReg (transferFoot_unit (by omega) (by omega) (by decide)) _, keepsAside_raise (by omega) (by omega) _,
    hπ.report (by omega) (by omega) (by omega) hcls⟩

theorem Aloof.grant (r q n : Nat) : KeepsAside π (grant r q n) := by
  refine keeps_read fun s => keeps_seq (keepsAside_count ?_ 1) (keeps_whenU fun _ => hπ.updFab _)
  split <;> exact transferFoot_unit (by omega) (by omega) (by decide)

theorem Aloof.account (src i pid a n : Nat) (prom : List Nat) : KeepsAside π (account src i pid a n prom) :=
  keeps_read fun _ => keeps_seqs ⟨keeps_whenU fun _ => keepsAside_count (transferFoot_unit (by omega) (by omega) (by decide)) _,
    keeps_whenU fun _ => hπ.grant _ _ _, keeps_whenU fun _ => hπ.grant _ _ _, keeps_whenU fun _ => hπ.updFab _⟩

theorem Aloof.pageRetireDone : KeepsAside π pageRetireDone := by
  refine keeps_read fun s => ?_
  split
  · exact keeps_skip
  · have hmap : transferFoot (MEM_SPARE_MAP (s.get MEM_RETIRE_STAT_SPARE_USED)) = true := by
      have hlt : s.get MEM_RETIRE_STAT_SPARE_USED < 512 := get_lt s _
      rw [MEM_SPARE_MAP, Nat.add_assoc]
      exact transferFoot_unit (by decide) (by decide) (by omega)
    exact keeps_seqs ⟨hπ.updMem _, keepsAside_setReg hmap _, keepsAside_set (by decide) _, keepsAside_set (by decide) _,
      keepsAside_raise (by decide) (by decide) 2⟩

theorem Aloof.rekeyDone : KeepsAside π rekeyDone := by
  refine keeps_read fun s => ?_
  split
  · exact keeps_skip
  · exact keeps_whenU fun _ => keeps_seqs ⟨hπ.updMem _, keepsAside_raise (by decide) (by decide) 5⟩

theorem Aloof.engineWait (src pid a n : Nat) : KeepsAside π (engineWait src pid a n) :=
  keeps_seqs ⟨keeps_read fun _ => keeps_whenU fun _ => hπ.updFab _, keeps_read fun _ => keeps_whenU fun _ => hπ.pageRetireDone,
    keeps_read fun _ => keeps_whenU fun _ => keeps_forN fun _ _ => hπ.rekeyDone⟩

theorem Aloof.memWrite (pid a : Nat) (bs : List Byte) : KeepsAside π (memWrite pid a bs) := by
  have hline (l : Nat) : KeepsAside π (lineWrite pid a bs l) := keeps_read fun _ => keeps_ite (fun _ => hπ.memUe _ _ _) fun _ =>
    keeps_seqs ⟨hπ.updMem _, keeps_whenU fun _ => keeps_seq (keeps_whenU fun _ => keepsAside_storeBytes _ _) (hπ.updMem _), keepsAside_storeBytes _ _⟩
  exact keeps_seq (keeps_read fun _ => keeps_whenU fun _ => hπ.updMem _) (keeps_forEach hline)

theorem Aloof.queueWord (src i : Nat) (who : Nat × Bool) (a kind n : Nat) (bs : List Byte) : KeepsAside π (queueWord src i who a kind n bs) :=
  keeps_read fun _ => hπ.updFab _

theorem Aloof.flkWrite (rec d pid a : Nat) (bs : List Byte) : KeepsAside π (flkWrite rec d pid a bs) :=
  keeps_forN fun _ _ => keeps_read fun _ => keeps_seq (keepsAside_upd fun b => hπ.hbr b _)
    (keeps_read fun _ => keeps_seq (keepsAside_upd fun b => hπ.hbr b _) (keepsAside_upd fun b => hπ.flk b _))

/-! ## Transfers that go on with what they moved -/

variable {R : (Nat → Nat) × β → (Nat → Nat) × β → Prop}

omit hπ in
theorem leadsAside_read {k : State → Upd} (h : ∀ s, LeadsAside π R (k s)) : LeadsAside π R (.read k) := fun s => h s s

omit hπ in
/-- What comes before and leaves the view does not count. -/
theorem leadsAside_after {u v : Upd} (hu : KeepsAside π u) (hv : LeadsAside π R v) : LeadsAside π R (.seq u v) := fun s => by
  have h := hv (u.run s)
  rwa [hu s] at h

omit hπ in
theorem leadsAside_ite {c : Prop} [Decidable c] {u v : Upd} (hu : LeadsAside π R u) (hv : LeadsAside π R v) : LeadsAside π R (if c then u else v) := by
  split
  · exact hu
  · exact hv

theorem Aloof.leads_free {k : Nat → Upd} (hk : ∀ v, LeadsAside π R (k v)) : LeadsAside π R (free k) :=
  leadsAside_read fun _ => leadsAside_after (keepsAside_upd fun b => hπ.fab b _) (hk _)

theorem Aloof.leads_freeBytes {n : Nat} {k : List Byte → Upd} (hk : ∀ l, LeadsAside π R (k l)) : LeadsAside π R (freeBytes n k) :=
  leadsAside_read fun _ => leadsAside_after (hπ.updFab _) (hk _)

theorem Aloof.leads_memRead {pid a n : Nat} {k : Option (List Byte) → Upd} (hk : ∀ r, LeadsAside π R (k r)) : LeadsAside π R (memRead pid a n k) := by
  refine leadsAside_read fun s => ?_
  split
  next x hx =>
    split
    · exact leadsAside_after (hπ.tcmError (placeOf_tcm_lt hx) _ _ _) (hk _)
    · exact hk _
  next =>
    split
    · exact leadsAside_after (hπ.memUe _ _ _) (hk _)
    · exact hk _

theorem Aloof.leads_pieceRead {src i a n : Nat} {who : Nat × Bool} {k : Option (List Byte) → Upd} (hk : ∀ r, LeadsAside π R (k r)) :
    LeadsAside π R (pieceRead src i who a n k) := by
  have hmem (a : Nat) : LeadsAside π R (.seq (Machine.account src i who.1 a n) (memRead who.1 a n k)) :=
    leadsAside_after (hπ.account _ _ _ _ _ _) (hπ.leads_memRead hk)
  refine leadsAside_read fun s => leadsAside_ite (hk _) (leadsAside_ite (leadsAside_after (hπ.refuse _ _ _ _) (hk _))
    (leadsAside_after (hπ.engineWait _ _ _ _) ?_))
  split
  case h_1 => exact leadsAside_after (hπ.account _ _ _ _ _ _) (hπ.leads_free fun _ => leadsAside_ite (hπ.leads_freeBytes fun _ => hk _) (hk _))
  case h_2 => exact leadsAside_after (hπ.queueWord _ _ _ _ _ _ _) (hk _)
  case h_3 => exact hmem _
  case h_4 => exact hk _
  case h_5 => exact hk _
  case h_6 => exact hk _
  case h_7 => exact hmem _

theorem Aloof.leads_pieceWrite {src i a : Nat} {who : Nat × Bool} {bs : List Byte} {k : Bool → Upd} (hk : ∀ b, LeadsAside π R (k b)) :
    LeadsAside π R (pieceWrite src i who a bs k) := by
  have hqueue (a : Nat) : LeadsAside π R (.seq (Machine.queueWord src i who a 1 bs.length bs) (k true)) :=
    leadsAside_after (hπ.queueWord _ _ _ _ _ _ _) (hk _)
  refine leadsAside_read fun s => leadsAside_ite (hk _) (leadsAside_ite (leadsAside_after (hπ.refuse _ _ _ _) (hk _))
    (leadsAside_after (hπ.engineWait _ _ _ _) ?_))
  split
  case h_1 => exact leadsAside_after (hπ.account _ _ _ _ _ _) (leadsAside_after (hπ.flkWrite _ _ _ _ _) (hk _))
  case h_2 => exact hqueue _
  case h_3 => exact hqueue _
  case h_4 => exact hqueue _
  case h_5 => exact hk _
  case h_6 => exact hk _
  case h_7 => exact leadsAside_ite (hqueue _) (leadsAside_after (hπ.account _ _ _ _ _ _) (leadsAside_after (hπ.memWrite _ _ _) (hk _)))

theorem Aloof.leads_piecesRead {src i : Nat} {who : Nat × Bool} {k : Option (List Byte) → Upd} (hk : ∀ r, LeadsAside π R (k r)) (m a left : Nat)
    (got : List Byte) : LeadsAside π R (piecesRead src i who k m a left got) := by
  induction m generalizing a left got with
  | zero => exact hk _
  | succ m ih =>
    refine leadsAside_ite (hk _) (leadsAside_read fun s => hπ.leads_pieceRead fun r => ?_)
    cases r with
    | none => exact hk none
    | some d => exact ih _ _ _

theorem Aloof.leads_piecesWrite {src i : Nat} {who : Nat × Bool} {k : Bool → Upd} (hk : ∀ b, LeadsAside π R (k b)) (m a : Nat) (bs : List Byte) :
    LeadsAside π R (piecesWrite src i who k m a bs) := by
  induction m generalizing a bs with
  | zero => exact hk _
  | succ m ih => exact leadsAside_ite (hk _) (leadsAside_read fun s => hπ.leads_pieceWrite fun _ => leadsAside_ite (ih _ _) (hk _))

theorem Aloof.leads_dmaRead {i a n : Nat} {k : Option (List Byte) → Upd} (hk : ∀ r, LeadsAside π R (k r)) : LeadsAside π R (dmaRead i a n k) :=
  leadsAside_read fun _ => hπ.leads_piecesRead hk _ _ _ _

theorem Aloof.leads_dmaWrite {i a : Nat} {bs : List Byte} {k : Bool → Upd} (hk : ∀ b, LeadsAside π R (k b)) : LeadsAside π R (dmaWrite i a bs k) :=
  leadsAside_read fun _ => hπ.leads_piecesWrite hk _ _ _

end

end Sys2Proof.Machine
end

section
/-!
Resets of instances: their begin, which leaves what it wrote in the instance's status (R626 to R628).
-/
namespace Sys2Proof.Machine

/-! ## Pages apart -/

theorem offPage_of_iom {a k : Nat} (ha : onPage 6 a = true) (h6 : k ≠ 6) : onPage k a = false := by
  simp only [onPage, Bool.and_eq_true, decide_eq_true_eq] at ha
  rw [onPage_eq_false_iff]
  have h := unitBase_low (k := 6) (by decide)
  unfold unitBase
  repeat' split
  all_goals omega

theorem offLsw_of_iom {a : Nat} (ha : onPage 6 a = true) : lswPages a = false := by
  simp only [onPage, unitBase_low (k := 6) (by decide), Bool.and_eq_true, decide_eq_true_eq] at ha
  simp only [lswPages, Bool.and_eq_false_iff, decide_eq_false_iff_not]
  omega

/-! ## What the reset of a bound function leaves of IOM's page -/

section
variable {a : Nat} (ha : onPage 6 a = true)
include ha

theorem keepsTidy_page {k : Nat} {u : Upd} (hk : k ≠ 6) (h : Within (onPage k) u) : KeepsTidy a u := keepsTidy_of_within h (offPage_of_iom ha hk)

theorem keepsTidy_reaches {k : Nat} {m : Nat → Prop} {u : Upd} (hk : k ≠ 6) (h : Reaches (onPage k) m u) : KeepsTidy a u :=
  keepsTidy_of_keeps fun s => (h s).1 a (offPage_of_iom ha hk)

theorem keepsTidy_lsw {u : Upd} (h : Within lswPages u) : KeepsTidy a u := keepsTidy_of_within h (offLsw_of_iom ha)

/-! ### Cells (R81) -/

section
variable {k c : Nat} (hk : k ≠ 6) (hc : 0x1000 + (unitCells k).2 * c + (unitCells k).2 ≤ 0x10000) (hw : 0x18 ≤ (unitCells k).2)
include hk hc hw

theorem keepsTidy_cellSet {o : Nat} (ho : o < 0x18) (hi lo v : Nat) : KeepsTidy a (set ⟨cellBase k c + o, hi, lo⟩ v) :=
  keepsTidy_page ha hk (within_set (onPage_cell (by omega)))

theorem keepsTidy_cellOver (keep : List Nat) {rst : Upd} (hr : KeepsTidy a rst) : KeepsTidy a (cellDrained k c keep rst) := by
  have hset : cellResetSet k c keep a = false := by
    have hon : onCell k c a = false := by
      refine Bool.eq_false_iff.mpr fun hon => ?_
      simp only [onCell, Bool.and_eq_true, decide_eq_true_eq] at hon
      obtain ⟨hlo, hhi⟩ := hon
      have hoff := offPage_of_iom ha hk
      rw [← Nat.add_sub_cancel' hlo, onPage_cell (by omega)] at hoff
      cases hoff
    rw [cellResetSet, hon, Bool.false_and]
  have hst (hi lo v : Nat) : KeepsTidy a (set ⟨CELL_STAT k c, hi, lo⟩ v) := keepsTidy_cellSet ha hk hc hw (by decide) hi lo v
  exact keepsTidy_read fun _ => keepsTidy_seqs ⟨hst _ _ _, keepsTidy_whenU fun _ => keepsTidy_seqs ⟨keepsTidy_resetRegs hset, hr, hst _ _ _⟩,
    keepsTidy_read fun _ => keepsTidy_whenU fun _ => hst _ _ _⟩

theorem keepsTidy_cellOff (busy : State → Bool) {fin : Upd} (hf : KeepsTidy a fin) : KeepsTidy a (cellDrain k c busy fin) := by
  have hst (hi lo v : Nat) : KeepsTidy a (set ⟨CELL_STAT k c, hi, lo⟩ v) := keepsTidy_cellSet ha hk hc hw (by decide) hi lo v
  exact keepsTidy_seq (hst _ _ _) (keepsTidy_read fun _ => keepsTidy_ite (fun _ => hst _ _ _) fun _ => hf)

theorem keepsTidy_cellRst {stop : Upd} (hs : KeepsTidy a stop) : KeepsTidy a (boundRst k c stop) := by
  have hctrl (hi lo v : Nat) : KeepsTidy a (set ⟨cellBase k c + 0, hi, lo⟩ v) := keepsTidy_cellSet ha hk hc hw (by decide) hi lo v
  exact keepsTidy_read fun _ => keepsTidy_whenU fun _ => keepsTidy_seqs ⟨hctrl _ _ _, hctrl _ _ _, keepsTidy_whenU fun _ => hs⟩

end

/-! ### Channels -/

theorem keepsTidy_canOff {c : Nat} (hc : c < 16) : KeepsTidy a (canDisable c) := by
  have hcell : 0x1000 + (unitCells 9).2 * c + (unitCells 9).2 ≤ 0x10000 := by
    rw [show (unitCells 9).2 = 512 from rfl]
    omega
  have hst (hi lo v : Nat) : KeepsTidy a (set ⟨CAN_STATUS c, hi, lo⟩ v) := keepsTidy_page ha (by decide) (within_set (onPage_can hc (by decide)))
  exact keepsTidy_read fun _ => keepsTidy_seqs ⟨keepsTidy_read fun _ => keepsTidy_forEach fun _ _ => keepsTidy_reaches ha (by decide) (reaches_endSlot hc _ _),
    keepsTidy_upd _, keepsTidy_page (k := 11) ha (by decide) (within_whenU (within_count (by decide))), hst _ _ _,
    keepsTidy_page ha (by decide) (within_channelState hc _), keepsTidy_whenU fun _ => hst _ _ _,
    keepsTidy_cellOff ha (by decide) hcell (by decide) _ (keepsTidy_cellOver ha (by decide) hcell (by decide) _ (keepsTidy_seq (keepsTidy_upd _) keepsTidy_skip))⟩

theorem keepsTidy_linOff {n : Nat} (hn : n < 16) : KeepsTidy a (linDisable n) := by
  have hcell : 0x1000 + (unitCells 10).2 * n + (unitCells 10).2 ≤ 0x10000 := by
    rw [show (unitCells 10).2 = 256 from rfl]
    omega
  have hon {o : Nat} (ho : o < 256) : onPage 10 (cellBase 10 n + o) = true := onPage_cell (by rw [show (unitCells 10).2 = 256 from rfl]; omega)
  have hset {o : Nat} (ho : o < 256) (hi lo v : Nat) : KeepsTidy a (set ⟨cellBase 10 n + o, hi, lo⟩ v) :=
    keepsTidy_page ha (by decide) (within_set (hon ho))
  have hreg {o : Nat} (ho : o < 256) (v : Nat) : KeepsTidy a (setReg (cellBase 10 n + o) v) := keepsTidy_page ha (by decide) (within_setReg (hon ho))
  exact keepsTidy_read fun _ => keepsTidy_seqs ⟨keepsTidy_seq (hset (by decide) _ _ _) (keepsTidy_upd _), hreg (by decide) _, hreg (by decide) _,
    keepsTidy_upd _, keepsTidy_whenU fun _ => keepsTidy_upd _, keepsTidy_cellOff ha (by decide) hcell (by decide) _
      (keepsTidy_seq (keepsTidy_cellOver ha (by decide) hcell (by decide) _ (keepsTidy_upd _)) (keepsTidy_read fun _ => hset (by decide) _ _ _))⟩

theorem keepsTidy_lswOff {g : Nat} (hg : g < 64) : KeepsTidy a (lswDisable g) := by
  have hunit : lswUnit g ≠ 6 := by
    unfold lswUnit
    omega
  have hsize : (unitCells (lswUnit g)).2 = 256 := by rw [lswUnit, unitCells_lsw _ (by omega)]
  have hcell : 0x1000 + (unitCells (lswUnit g)).2 * (g % 16) + (unitCells (lswUnit g)).2 ≤ 0x10000 := by rw [hsize]; omega
  have hw : 0x18 ≤ (unitCells (lswUnit g)).2 := by omega
  refine keepsTidy_read fun s => ?_
  have hl := lead_lt s hg
  exact keepsTidy_seqs ⟨keepsTidy_lsw ha (within_turnOff hl _ _), keepsTidy_lsw ha (within_testAbandon hl), keepsTidy_lsw ha (within_set (lswPages_cell hg (by decide))),
    keepsTidy_lsw ha (within_set (lswPages_cell hl (by decide))), keepsTidy_lsw ha (within_set (lswPages_cell hg (by decide))), keepsTidy_upd _,
    keepsTidy_cellOff ha hunit hcell hw _ (keepsTidy_read fun _ => keepsTidy_cellOver ha hunit hcell hw _ (keepsTidy_lsw ha (within_lswAfterReset hg _ _ _))),
    keepsTidy_lsw ha (within_showLoad hl), keepsTidy_lsw ha (within_showCh hg)⟩

/-- The reset of what an instance is bound to leaves IOM's page (R627). -/
theorem keepsTidy_boundReset (n : Nat) : KeepsTidy a (instResolve n) := by
  refine keepsTidy_read fun s => ?_
  have h16 := Nat.mod_lt (s.instArg n) (show 0 < 16 by decide)
  dsimp only
  split
  case h_1 =>
    exact keepsTidy_cellRst ha (by decide) (by rw [show (unitCells 9).2 = 512 from rfl]; omega) (by decide) (keepsTidy_canOff ha h16)
  case h_2 =>
    exact keepsTidy_cellRst ha (by decide) (by rw [show (unitCells 10).2 = 256 from rfl]; omega) (by decide) (keepsTidy_linOff ha h16)
  case h_3 =>
    refine keepsTidy_forEach fun e he => ?_
    obtain ⟨d, x, hd, hx, rfl⟩ := mem_cellsOfBind_lsw he
    have hsize : (unitCells (16 + d)).2 = 256 := by rw [unitCells_lsw d (by omega)]
    exact keepsTidy_cellRst (k := 16 + d) (c := x) ha (by omega) (by rw [hsize]; omega) (by omega) (keepsTidy_lswOff ha (by omega))
  case h_4 =>
    have hp := bits_lt (s.instArg n) 8 8
    have h8 := Nat.mod_lt (s.instArg n) (show 0 < 8 by decide)
    have hring {o : Nat} (ho : o < 0x600) : onPage 7 (cellBase 7 (20 + bits (s.instArg n) 8 8) + o + 0 * 0 + 32 * (s.instArg n % 8)) = true := by
      rw [Nat.mul_zero, Nat.add_zero, Nat.add_assoc]
      exact onPage_etp (by omega) (by omega)
    have hhook (b : Nat) : KeepsTidy a (ringEnHook (20 + bits (s.instArg n) 8 8) b 0) :=
      keepsTidy_page ha (by decide) (within_whenU (within_clrBit (onPage_etp (by omega) (by decide))))
    exact keepsTidy_seqs ⟨keepsTidy_page ha (by decide) (within_set (hring (by decide))), keepsTidy_page ha (by decide) (within_set (hring (by decide))),
      hhook _, hhook _⟩
  case h_5 => exact keepsTidy_upd _
  case h_6 =>
    have h32 := Nat.mod_lt (s.instArg n) (show 0 < 32 by decide)
    refine keepsTidy_page (k := 5) ha (by decide) (within_set ?_)
    simp only [VLT_RING_CFG, Nat.add_assoc]
    exact onPage_unitBase 5 (by omega)
  case h_7 => exact keepsTidy_skip

end

end Sys2Proof.Machine
end

section
/-!
The begin of an instance's reset (R626 to R628): its mark, and the note of a removal.
-/
namespace Sys2Proof.Machine

/-! ## What the reset of a bound function leaves of IOM's records -/

theorem keeps_iom_testAbandon (l : Nat) : Keeps (·.b.iom) (testAbandon l) := keeps_read fun _ => keeps_whenU fun _ =>
  keeps_seqs ⟨keeps_b_upd (π := Blocks.iom) fun _ => rfl, keeps_b_set Blocks.iom _ _, keeps_b_set Blocks.iom _ _, keeps_b_inc (π := Blocks.iom) _ _,
    keeps_b_inc (π := Blocks.iom) _ _, keeps_b_clrBit (π := Blocks.iom) _ _⟩

theorem keeps_iom_free {k : Nat → Upd} (hk : ∀ v, Keeps (·.b.iom) (k v)) : Keeps (·.b.iom) (free k) :=
  keeps_read fun _ => keeps_seq (keeps_b_upd (π := Blocks.iom) fun _ => rfl) (hk _)

theorem keeps_iom_predict (l i0 : Nat) {k : Bool → Upd} (hk : ∀ b, Keeps (·.b.iom) (k b)) : Keeps (·.b.iom) (predict l i0 k) :=
  keeps_read fun _ => keeps_ite (fun _ => keeps_iom_free fun _ => keeps_seqs ⟨keeps_b_set Blocks.iom _ _, hk _⟩)
    fun _ => keeps_ite (fun _ => keeps_seq (keeps_b_set Blocks.iom _ _) (hk _))
      fun _ => keeps_iom_free fun _ => keeps_seq (keeps_b_set Blocks.iom _ _) (hk _)

theorem keeps_iom_turnOff (l : Nat) (how : How) (trip : Bool) : Keeps (·.b.iom) (turnOff l how trip) := by
  have hchan (f : Chan → Chan) : Keeps (·.b.iom) (updChan l f) := keeps_b_upd (π := Blocks.iom) fun _ => rfl
  refine keeps_read fun s => ?_
  dsimp only
  split
  · exact hchan _
  · exact keeps_iom_predict l _ fun _ => keeps_seqs ⟨hchan _,
      keeps_ite (fun _ => keeps_seqs ⟨hchan _, keeps_b_inc (π := Blocks.iom) _ _, keeps_whenU fun _ => keeps_b_raiseCh (π := Blocks.iom) _ _⟩) (fun _ => hchan _),
      keeps_forEach fun _ => keeps_b_set Blocks.iom _ _, keeps_b_set Blocks.iom _ _⟩
  · exact keeps_seqs ⟨hchan _, keeps_whenU fun _ => hchan _⟩

theorem keeps_iom_cellDrained (k c : Nat) (keep : List Nat) {rst : Upd} (hr : Keeps (·.b.iom) rst) : Keeps (·.b.iom) (cellDrained k c keep rst) :=
  keeps_read fun _ => keeps_seqs ⟨keeps_b_set Blocks.iom _ _,
    keeps_whenU fun _ => keeps_seqs ⟨keeps_seq (fun _ => rfl) (keeps_read fun _ => keeps_whenU fun _ => keeps_b_upd (π := Blocks.iom) fun _ => rfl), hr, keeps_b_set Blocks.iom _ _⟩,
    keeps_read fun _ => keeps_whenU fun _ => keeps_b_set Blocks.iom _ _⟩

theorem keeps_iom_lswDisable (g : Nat) : Keeps (·.b.iom) (lswDisable g) := by
  have hchan (g : Nat) (f : Chan → Chan) : Keeps (·.b.iom) (updChan g f) := keeps_b_upd (π := Blocks.iom) fun _ => rfl
  have hset (f : Fld) (v : Nat) : Keeps (·.b.iom) (set f v) := keeps_b_set Blocks.iom f v
  exact keeps_read fun _ => keeps_seqs ⟨keeps_iom_turnOff _ _ _, keeps_iom_testAbandon _, hset _ _, hset _ _, hset _ _, hchan _ _,
    keeps_b_cellDrain (π := Blocks.iom) _ _ _ (keeps_read fun _ => keeps_iom_cellDrained _ _ _ (keeps_read fun _ =>
      keeps_seqs ⟨hchan _ _, hset _ _, hset _ _, hset _ _, hset _ _,
        keeps_read fun _ => keeps_seqs ⟨hchan _ _, keeps_read fun _ => hset _ _⟩, keeps_b_showCh (π := Blocks.iom) g⟩)),
    keeps_b_showLoad (π := Blocks.iom) _, keeps_b_showCh (π := Blocks.iom) _⟩

theorem keeps_iom_canDisable (c : Nat) : Keeps (·.b.iom) (canDisable c) := by
  have hcan (f : CanCh → CanCh) : Keeps (·.b.iom) (updCan c f) := keeps_b_upd (π := Blocks.iom) fun _ => rfl
  have hset (f : Fld) (v : Nat) : Keeps (·.b.iom) (set f v) := keeps_b_set Blocks.iom f v
  have hbit (a i : Nat) : Keeps (·.b.iom) (setBit a i) := keeps_b_setBit (π := Blocks.iom) a i
  have hput (a i : Nat) (b : Bool) : Keeps (·.b.iom) (putBit a i b) := keeps_b_putBit (π := Blocks.iom) a i b
  exact keeps_read fun _ => keeps_seqs ⟨keeps_read fun _ => keeps_forEach fun _ => keeps_read fun _ => keeps_seqs
      ⟨keeps_whenU fun _ => keeps_b_txEvent (π := Blocks.iom) _ _ _, keeps_ite (fun _ => hput _ _ _) (fun _ => hput _ _ _),
        keeps_ite (fun _ => keeps_seq (hset _ _) (hbit _ _)) (fun _ => keeps_b_showQueue (π := Blocks.iom) _),
        keeps_whenU fun _ => hbit _ _, keeps_whenU fun _ => hbit _ _, hcan _⟩,
    hcan _, keeps_whenU fun _ => keeps_b_inc (π := Blocks.iom) _ _, hset _ _, keeps_b_canState (π := Blocks.iom) _ _, keeps_whenU fun _ => hset _ _,
    keeps_b_cellDrain (π := Blocks.iom) _ _ _ (keeps_iom_cellDrained _ _ _ (keeps_seq (hcan _) keeps_skip))⟩

theorem keeps_iom_linDisable (n : Nat) : Keeps (·.b.iom) (linDisable n) := by
  have hlin (f : LinCh → LinCh) : Keeps (·.b.iom) (updLin n f) := keeps_b_upd (π := Blocks.iom) fun _ => rfl
  have hset (f : Fld) (v : Nat) : Keeps (·.b.iom) (set f v) := keeps_b_set Blocks.iom f v
  exact keeps_read fun _ => keeps_seqs ⟨keeps_seq (hset _ _) (hlin _), keeps_b_setReg Blocks.iom _ _, keeps_b_setReg Blocks.iom _ _, hlin _,
    keeps_whenU fun _ => hlin _,
    keeps_b_cellDrain (π := Blocks.iom) _ _ _ (keeps_seq (keeps_iom_cellDrained _ _ _ (hlin _)) (keeps_read fun _ => hset _ _))⟩

theorem keeps_iom_instResolve (n : Nat) : Keeps (·.b.iom) (instResolve n) := by
  refine keeps_read fun s => ?_
  dsimp only
  split
  case h_1 => exact keeps_b_boundRst (π := Blocks.iom) _ _ (keeps_iom_canDisable _)
  case h_2 => exact keeps_b_boundRst (π := Blocks.iom) _ _ (keeps_iom_linDisable _)
  case h_3 => exact keeps_forEach fun _ => keeps_b_boundRst (π := Blocks.iom) _ _ (keeps_iom_lswDisable _)
  case h_4 =>
    exact keeps_seqs ⟨keeps_b_set Blocks.iom _ _, keeps_b_set Blocks.iom _ _, keeps_b_ringEnHook (π := Blocks.iom) _ _ _, keeps_b_ringEnHook (π := Blocks.iom) _ _ _⟩
  case h_5 => exact keeps_b_upd (π := Blocks.iom) fun _ => rfl
  case h_6 => exact keeps_b_set Blocks.iom _ _
  case h_7 => exact keeps_skip

/-! ## The fields of an instance's page -/

theorem fits_inst (n : Fin 256) {o hi lo : Nat} (ho : o < 192) (h4 : o % 4 = 0) (h : fieldAt (cellRows 6) o hi lo = true) :
    (⟨cellBase 6 n + o, hi, lo⟩ : Fld).fits = true := fits_cell (by decide) n.isLt ho h4 h

theorem fits_iom {o hi lo : Nat} (ho : o < 0x1000) (h4 : o % 4 = 0) (h : fieldAt (pageRows 6) o hi lo = true) :
    (⟨unitBase 6 + o, hi, lo⟩ : Fld).fits = true := fits_page (by decide) ho h4 h

theorem onPage_inst (n : Fin 256) {o : Nat} (ho : o < 192) : onPage 6 (cellBase 6 n + o) = true :=
  onPage_cell (by rw [show (unitCells 6).2 = 192 from rfl]; omega)

/-- Two fields of the status of an instance. -/
theorem apart_instStat (n : Fin 256) {hi lo hi' lo' : Nat} (hf : fieldAt (cellRows 6) 0x30 hi lo = true)
    (hg : fieldAt (cellRows 6) 0x30 hi' lo' = true) (h : hi < lo' ∨ hi' < lo) :
    Fld.apart ⟨IOM_INST_STAT n, hi, lo⟩ ⟨IOM_INST_STAT n, hi', lo'⟩ = true := by
  simp only [Fld.apart, fits_inst n (by decide) (by decide) hf, fits_inst n (by decide) (by decide) hg, bne_self_eq_false, Bool.true_and,
    Bool.false_or, Bool.or_eq_true, decide_eq_true_eq]
  exact h

theorem within_migEnd (code : Nat) : Within (· == IOM_MIG_RES) (migEnd code) := within_seq (within_set (beq_self_eq_true _)) (within_set (beq_self_eq_true _))

theorem instStat_ne_migRes (n : Nat) : IOM_INST_STAT n ≠ IOM_MIG_RES := by
  simp only [IOM_INST_STAT, IOM_MIG_RES, cellBase]
  omega

/-! ## The begin of a reset -/

/-- What a reset notes of the instance before it reaches the bound function. -/
def instMark (n : Nat) (s : State) : Upd := seqs [
  set (IOM_INST_STAT_RESETTING n) 1,
  whenU (s.flag IOM_MIG_RES_BUSY && s.get IOM_MIG_RES_INST == n && decide (s.get IOM_MIG_RES_OP ≤ 4)) (migEnd 6),
  set (IOM_INST_STAT_MIG_STATE n) 0,
  updIom fun x => { x with
    logs := (let l := mapGet [] x.logs n
      mapPut [] x.logs n (l.set 5 (l.getD 5 0 % 2 ^ 31)))
    restored := mapPut [] x.restored n [] }]

theorem instBegin_run {n : Nat} {s : State} (hb : s.flag (IOM_INST_STAT_BOUND n) = true) (hr : s.flag (IOM_INST_STAT_RESETTING n) = false) :
    (instBegin n).run s = (instResolve n).run ((instMark n s).run s) := by
  simp only [instBegin, instMark, Upd.run_read, hb, hr, Bool.not_false, Bool.and_true, whenU_true, seqs_cons_run, seqs_nil_run]

theorem instMark_resetting (n : Fin 256) (s u : State) : ((instMark n s).run u).flag (IOM_INST_STAT_RESETTING n) = true := by
  have hset : ((set (IOM_INST_STAT_RESETTING n) 1).run u).get (IOM_INST_STAT_RESETTING n) = 1 := get_set_same (fits_inst n (by decide) (by decide) (by decide)) 1 u
  have hmig (c : Bool) (u : State) : ((whenU c (migEnd 6)).run u).get (IOM_INST_STAT_RESETTING n) = u.get (IOM_INST_STAT_RESETTING n) :=
    keeps_whenU (φ := (·.get (IOM_INST_STAT_RESETTING n))) (fun _ => keeps_get_of_within (within_migEnd 6) (beq_eq_false_iff_ne.mpr (instStat_ne_migRes n))) u
  rw [instMark, State.flag]
  simp only [seqs_cons_run, seqs_nil_run]
  rw [updIom, upd_get, get_set_apart (apart_instStat n (by decide) (by decide) (by decide)), hmig, hset]
  decide

theorem instMark_migState (n : Fin 256) (s u : State) : ((instMark n s).run u).migState n = 0 := by
  rw [instMark, State.migState]
  simp only [seqs_cons_run, seqs_nil_run]
  rw [updIom, upd_get, get_set_same (fits_inst n (by decide) (by decide) (by decide))]
  exact Nat.zero_mod _

theorem keeps_removing_instMark (n : Nat) (s : State) : Keeps (·.b.iom.removing) (instMark n s) :=
  have hset (f : Fld) (v : Nat) : Keeps (·.b.iom.removing) (set f v) := keeps_b_set (·.iom.removing) f v
  keeps_seqs ⟨hset _ _, keeps_whenU fun _ => keeps_seq (hset _ _) (hset _ _), hset _ _, keeps_b_upd (π := (·.iom.removing)) fun _ => rfl⟩

/-- The mark is the last write of the status, so the bound function's reset cannot undo it. -/
theorem instMark_tidy (n : Nat) (s u : State) : tidyAt (IOM_INST_STAT n) ((instMark n s).run u).regs := by
  rw [instMark]
  simp only [seqs_cons_run, seqs_nil_run]
  exact tidyAt.run (tidyAt_setReg _ _ _) _

theorem instBegin_stat (n : Fin 256) {s : State} (hb : s.flag (IOM_INST_STAT_BOUND n) = true) (hr : s.flag (IOM_INST_STAT_RESETTING n) = false) :
    ((instBegin n).run s).reg (IOM_INST_STAT n) = ((instMark n s).run s).reg (IOM_INST_STAT n) := by
  rw [instBegin_run hb hr]
  exact keepsTidy_boundReset (onPage_inst n (by decide)) n _ (instMark_tidy n s s)

theorem instBegin_resetting (n : Fin 256) {s : State} (hb : s.flag (IOM_INST_STAT_BOUND n) = true) (hr : s.flag (IOM_INST_STAT_RESETTING n) = false) :
    ((instBegin n).run s).flag (IOM_INST_STAT_RESETTING n) = true := by
  have h := instMark_resetting n s s
  rw [State.flag, State.get] at h ⊢
  rw [instBegin_stat n hb hr]
  exact h

theorem instBegin_migState (n : Fin 256) {s : State} (hb : s.flag (IOM_INST_STAT_BOUND n) = true) (hr : s.flag (IOM_INST_STAT_RESETTING n) = false) :
    ((instBegin n).run s).migState n = 0 := by
  have h := instMark_migState n s s
  rw [State.migState, State.get] at h ⊢
  rw [instBegin_stat n hb hr]
  exact h

theorem instBegin_removing (n : Fin 256) {s : State} (hb : s.flag (IOM_INST_STAT_BOUND n) = true) (hr : s.flag (IOM_INST_STAT_RESETTING n) = false) :
    ((instBegin n).run s).b.iom.removing = s.b.iom.removing := by
  have hres := keeps_iom_instResolve n ((instMark n s).run s)
  have hmark := keeps_removing_instMark n s s
  dsimp only at hres hmark
  rw [instBegin_run hb hr, hres, hmark]

/-! ## The removal (R628) -/

/-- A write of KIND = 0 to a bound instance notes the removal and begins the reset. -/
theorem instBindHook_zero_run {n old : Nat} (h : old / 2 ^ 28 % 16 ≠ 0) (s : State) :
    (instBindHook n old 0).run s = (instBegin n).run ((updIom fun x => { x with removing := n :: x.removing.erase n }).run
      ((setReg (IOM_INST_BIND n) old).run s)) := by
  have hne : (old / 2 ^ 28 % 16 != 0) = true := bne_iff_ne.mpr h
  simp only [instBindHook, Upd.run_read, Nat.zero_div, Nat.zero_mod, if_true, Upd.run_seq, hne, whenU_true]

theorem instBindHook_removal (n : Fin 256) (old : Nat) (s : State) (hold : old / 2 ^ 28 % 16 ≠ 0) (hb : s.flag (IOM_INST_STAT_BOUND n) = true)
    (hr : s.flag (IOM_INST_STAT_RESETTING n) = false) : ((instBindHook n old 0).run s).flag (IOM_INST_STAT_RESETTING n) = true ∧
      ((instBindHook n old 0).run s).b.iom.removing.contains n.val = true := by
  have hreg : ((setReg (IOM_INST_BIND n) old).run s).reg (IOM_INST_STAT n) = s.reg (IOM_INST_STAT n) := by
    refine setReg_reg_ne _ s ?_
    simp only [IOM_INST_STAT, IOM_INST_BIND]
    omega
  have hflag (i : Nat) (f : Iom → Iom) : ((updIom f).run ((setReg (IOM_INST_BIND n) old).run s)).flag ⟨IOM_INST_STAT n, i, i⟩ = s.flag ⟨IOM_INST_STAT n, i, i⟩ := by
    rw [updIom, upd_flag, State.flag, State.get, hreg]
    rfl
  have hub := (hflag 31 fun x => { x with removing := n.val :: x.removing.erase n.val }).trans hb
  have hur := (hflag 27 fun x => { x with removing := n.val :: x.removing.erase n.val }).trans hr
  rw [instBindHook_zero_run hold, instBegin_removing n hub hur, updIom, upd_b]
  exact ⟨instBegin_resetting n hub hur, List.contains_iff_mem.mpr List.mem_cons_self⟩

end Sys2Proof.Machine
end

section
/-!
The end of an instance's reset (R626, R628), and the ends of migration work (R637, R638, R647).
-/
namespace Sys2Proof.Machine

/-! ## The parts of the end of a reset -/

/-- The mailboxes and the pending deliveries of the instance are emptied. -/
def instEmpty (n : Nat) : Upd := seqs [
  set (IOM_INST_STAT_TOMGR_FULL n) 0, set (IOM_INST_STAT_FROMMGR_FULL n) 0, clrBit (IOM_TOMGR_PEND (n / 32)) (n % 32),
  forN 4 fun k => set (IOM_DELIV1_PEND n k) 0, set (IOM_IP_APER_APER n) 0]

def instMailClear (n : Nat) : Upd := forN 16 fun i => seqs [setReg (IOM_IP_MB_OUT n i) 0, setReg (IOM_IP_MB_IN n i) 0, setReg (IOM_INST_MB_TOMGR n i) 0,
  setReg (IOM_INST_MB_FROMMGR n i) 0]

def instRenumber (n : Nat) : Upd := updHbr fun h => { h with first := mapPut 0 h.first n (mapGet 0 h.wseq n) }

def instShown (n : Nat) : Upd := seqs [
  set (IOM_INST_STAT_RESETTING n) 0, set (CELL_CTRL_CELL_RST 6 n) 0, set (CELL_STAT_DRAINING 6 n) 0, raiseIom n 2]

def instUnbind (n : Nat) : Upd := seqs [
  set (IOM_INST_BIND_KIND n) 0, set (IOM_INST_OWNER_OKIND n) 0, set (IOM_INST_STAT_BOUND n) 0,
  updIom fun x => { x with removing := x.removing.erase n }, showBound]

def instEnable (n : Nat) : Upd := .read fun s => whenU (s.flag (CELL_CTRL_EN 6 n) && !s.flag (CELL_STAT_RETIRED 6 n)) (set (CELL_STAT_ENABLED 6 n) 1)

/-- The end of a reset up to the branch on the removal. -/
def instFresh (n : Nat) : Upd := seqs [instMailClear n, instEmpty n, incWrap (IOM_INST_GEN_GEN n), instRenumber n, instShown n]

theorem instResetDone_run {n : Fin 256} {s : State} (hr : s.flag (IOM_INST_STAT_RESETTING n) = true) (hq : s.instQuiet n = true) :
    (instResetDone n).run s = (instEnable n).run ((if s.b.iom.removing.contains n.val then instUnbind n else raiseVec n 3).run ((instFresh n).run s)) := by
  simp only [instResetDone, instFresh, instMailClear, instEmpty, instRenumber, instShown, instEnable, instUnbind, Upd.run_read, hr, hq, Bool.and_self, whenU_true,
    seqs_cons_run, seqs_nil_run]

/-! ## Their footprints -/

section
variable (n : Fin 256)

/-- The instance's cell page, the ports of its functions and IOM's own registers lie apart. -/
theorem instCell_bounds {o : Nat} (ho : o < 192) : 0x20601000 ≤ cellBase 6 n + o ∧ cellBase 6 n + o < 0x20610000 := by
  have h := n.isLt
  simp only [cellBase, unitBase_low (k := 6) (by decide), show (unitCells 6).2 = 192 from rfl]
  omega

/-- Every register but the binding, the owner and the generation of the instance. -/
def offInstance (n a : Nat) : Bool := a != IOM_INST_BIND n && a != IOM_INST_OWNER n && a != IOM_INST_GEN n

theorem offInstance_cell {o : Nat} (h : o < 0x20 ∨ 0x30 ≤ o) : offInstance n (cellBase 6 n + o) = true := by
  simp only [offInstance, Bool.and_eq_true, bne_iff_ne, IOM_INST_BIND, IOM_INST_OWNER, IOM_INST_GEN]
  omega

theorem offInstance_far {a : Nat} (h : a < 0x20601000 ∨ 0x20610000 ≤ a) : offInstance n a = true := by
  have h20 := instCell_bounds n (o := 0x20) (by decide)
  have h24 := instCell_bounds n (o := 0x24) (by decide)
  have h2c := instCell_bounds n (o := 0x2C) (by decide)
  simp only [offInstance, Bool.and_eq_true, bne_iff_ne, IOM_INST_BIND, IOM_INST_OWNER, IOM_INST_GEN]
  omega

/-- Every register but the words of the two mailboxes at the instance's owner. -/
def offMailbox (n a : Nat) : Bool := decide (a < 0x2B000000 + 0x4000 * n) || decide (0x2B000080 + 0x4000 * n ≤ a)

theorem offMailbox_low {n a : Nat} (h : a < 0x2B000000) : offMailbox n a = true := by
  simp only [offMailbox, Bool.or_eq_true, decide_eq_true_eq]
  omega

theorem offMailbox_high {a : Nat} (h : 0x2B401000 ≤ a) : offMailbox n a = true := by
  have hn := n.isLt
  simp only [offMailbox, Bool.or_eq_true, decide_eq_true_eq]
  omega

theorem offMailbox_cell {o : Nat} (ho : o < 192) : offMailbox n (cellBase 6 n + o) = true := by
  have h := instCell_bounds n ho
  exact offMailbox_low (by omega)

variable {p : Nat → Bool}

theorem within_raiseIom_of (hirq : p (BLK_IRQ_STAT 6) = true) (hcell : p (CELL_IRQ_STAT 6 n) = true) (hcnt : p HBR_CNT_DEV_WR = true) (i : Nat) :
    Within p (raiseIom n i) :=
  within_read fun _ => within_seqs ⟨within_setBit hirq, within_setBit hcell, within_whenU ((within_msixSend_cnt _ _).mono fun a ha => by
    rw [beq_iff_eq.mp ha]
    exact hcnt)⟩

theorem within_instShown_of (hirq : p (BLK_IRQ_STAT 6) = true) (hcnt : p HBR_CNT_DEV_WR = true)
    (hcell : ∀ o, o < 0x20 ∨ o = 0x30 → p (cellBase 6 n + o) = true) : Within p (instShown n) :=
  within_seqs ⟨within_set (hcell _ (.inr rfl)), within_set (hcell _ (.inl (by decide))), within_set (hcell _ (.inl (by decide))),
    within_raiseIom_of n hirq (hcell _ (.inl (by decide))) hcnt _⟩

theorem within_instEnable_of (hstat : p (CELL_STAT 6 n) = true) : Within p (instEnable n) := within_read fun _ => within_whenU (within_set hstat)

theorem within_instEmpty_of (hstat : p (IOM_INST_STAT n) = true) (hpend : p (IOM_TOMGR_PEND (n / 32)) = true) (hdel : ∀ k, k < 4 → p (IOM_DELIV1 n k) = true)
    (haper : p (IOM_IP_APER n) = true) : Within p (instEmpty n) :=
  within_seqs ⟨within_set hstat, within_set hstat, within_clrBit hpend, within_forN fun k hk => within_set (hdel k hk), within_set haper⟩

theorem within_instMailClear_of (hout : ∀ i, i < 16 → p (IOM_IP_MB_OUT n i) = true) (hin : ∀ i, i < 16 → p (IOM_IP_MB_IN n i) = true)
    (hcell : ∀ o, 0x40 ≤ o → o < 192 → p (cellBase 6 n + o) = true) : Within p (instMailClear n) :=
  within_forN fun i hi => within_seqs ⟨within_setReg (hout i hi), within_setReg (hin i hi),
    within_setReg (by rw [IOM_INST_MB_TOMGR, Nat.add_assoc]; exact hcell _ (by omega) (by omega)),
    within_setReg (by rw [IOM_INST_MB_FROMMGR, Nat.add_assoc]; exact hcell _ (by omega) (by omega))⟩

theorem tomgrPend_bounds : 0x20600000 ≤ IOM_TOMGR_PEND (n / 32) ∧ IOM_TOMGR_PEND (n / 32) < 0x20601000 := by
  have h := n.isLt
  simp only [IOM_TOMGR_PEND, unitBase_low (k := 6) (by decide)]
  omega

theorem within_instShown_offInstance : Within (offInstance n) (instShown n) :=
  within_instShown_of n (offInstance_far n (by decide)) (offInstance_far n (by decide)) fun _ ho => offInstance_cell n (by omega)

theorem within_instShown_offMailbox : Within (offMailbox n) (instShown n) :=
  within_instShown_of n (offMailbox_low (by decide)) (offMailbox_high n (by decide)) fun _ ho => offMailbox_cell n (by omega)

theorem within_instEnable_offInstance : Within (offInstance n) (instEnable n) := within_instEnable_of n (offInstance_cell n (by decide))

theorem within_instEnable_offMailbox : Within (offMailbox n) (instEnable n) := within_instEnable_of n (offMailbox_cell n (by decide))

theorem within_instEmpty_offInstance : Within (offInstance n) (instEmpty n) := by
  have hpend := tomgrPend_bounds n
  exact within_instEmpty_of n (offInstance_cell n (by decide)) (offInstance_far n (by omega))
    (fun k _ => offInstance_far n (by simp only [IOM_DELIV1]; omega)) (offInstance_far n (by simp only [IOM_IP_APER]; omega))

theorem within_instEmpty_offMailbox : Within (offMailbox n) (instEmpty n) := by
  have hpend := tomgrPend_bounds n
  have hn := n.isLt
  refine within_instEmpty_of n (offMailbox_cell n (by decide)) (offMailbox_low (by omega)) (fun k _ => ?_) ?_
  all_goals
    simp only [offMailbox, Bool.or_eq_true, decide_eq_true_eq, IOM_DELIV1, IOM_IP_APER]
    omega

theorem within_instMailClear_offInstance : Within (offInstance n) (instMailClear n) :=
  within_instMailClear_of n (fun i _ => offInstance_far n (by simp only [IOM_IP_MB_OUT]; omega)) (fun i _ => offInstance_far n (by simp only [IOM_IP_MB_IN]; omega))
    fun _ ho _ => offInstance_cell n (by omega)

/-- Before the generation rises, nothing writes the binding, the owner or the generation; after it, nothing but a removal. -/
theorem instFresh_gen (s : State) : ((instFresh n).run s).get (IOM_INST_GEN_GEN n) = (s.get (IOM_INST_GEN_GEN n) + 1) % 256 := by
  have hgen : offInstance n (IOM_INST_GEN_GEN n).reg = false := by
    simp only [offInstance, bne_self_eq_false, Bool.and_false]
  rw [instFresh]
  simp only [seqs_cons_run, seqs_nil_run]
  rw [(within_instShown_offInstance n _).get_eq hgen, instRenumber, updHbr, upd_get, incWrap, Upd.run_read,
    get_set_same (fits_inst n (by decide) (by decide) (by decide)), (within_instEmpty_offInstance n _).get_eq hgen, (within_instMailClear_offInstance n _).get_eq hgen]
  rfl

theorem instFresh_kind (s : State) : ((instFresh n).run s).instKind n = s.instKind n := by
  have hbind : offInstance n (IOM_INST_BIND_KIND n).reg = false := by
    simp only [offInstance, bne_self_eq_false, Bool.false_and]
  have hgen : ∀ u : State, ((incWrap (IOM_INST_GEN_GEN n)).run u).get (IOM_INST_BIND_KIND n) = u.get (IOM_INST_BIND_KIND n) := fun u => by
    refine get_set_ne (fits_inst n (by decide) (by decide) (by decide)) (fits_inst n (by decide) (by decide) (by decide)) (.inl ?_) _ u
    dsimp only
    omega
  rw [instFresh, State.instKind]
  simp only [seqs_cons_run, seqs_nil_run]
  rw [(within_instShown_offInstance n _).get_eq hbind, instRenumber, updHbr, upd_get, hgen, (within_instEmpty_offInstance n _).get_eq hbind,
    (within_instMailClear_offInstance n _).get_eq hbind]
  rfl

/-- Every register but the status of the instance. -/
theorem instStat_ne {o : Nat} (h : o ≠ 0x30) : (IOM_INST_STAT n != cellBase 6 n + o) = true := by
  rw [bne_iff_ne, IOM_INST_STAT]
  omega

theorem instStat_ne_far {a : Nat} (h : a < 0x20601000 ∨ 0x20610000 ≤ a) : (IOM_INST_STAT n != a) = true := by
  have hb := instCell_bounds n (o := 0x30) (by decide)
  rw [bne_iff_ne, IOM_INST_STAT]
  omega

variable {hi lo : Nat}

theorem keeps_instStat {u : Upd} (h : Within (IOM_INST_STAT n != ·) u) : Keeps (·.get ⟨IOM_INST_STAT n, hi, lo⟩) u :=
  keeps_get_of_within h (bne_self_eq_false _)

theorem keeps_instStat_enable : Keeps (·.get ⟨IOM_INST_STAT n, hi, lo⟩) (instEnable n) := keeps_instStat n (within_instEnable_of n (instStat_ne n (by decide)))

theorem keeps_tomgrFull_instShown : Keeps (·.get (IOM_INST_STAT_TOMGR_FULL n)) (instShown n) :=
  keeps_seqs ⟨keeps_get_apart (apart_instStat n (by decide) (by decide) (by decide)) _,
    keeps_instStat n (within_set (instStat_ne n (o := 0) (by decide))), keeps_instStat n (within_set (instStat_ne n (o := 4) (by decide))),
    keeps_instStat n (within_raiseIom_of n (instStat_ne_far n (by decide)) (instStat_ne n (by decide)) (instStat_ne_far n (by decide)) _)⟩

theorem instEmpty_tomgrFull (s : State) : ((instEmpty n).run s).get (IOM_INST_STAT_TOMGR_FULL n) = 0 := by
  have hpend := tomgrPend_bounds n
  have hrest : Keeps (·.get (IOM_INST_STAT_TOMGR_FULL n)) (seqs [set (IOM_INST_STAT_FROMMGR_FULL n) 0, clrBit (IOM_TOMGR_PEND (n / 32)) (n % 32),
      forN 4 fun k => set (IOM_DELIV1_PEND n k) 0, set (IOM_IP_APER_APER n) 0]) := keeps_seqs ⟨keeps_get_apart (apart_instStat n (by decide) (by decide) (by decide)) _,
    keeps_instStat n (within_clrBit (instStat_ne_far n (by omega))),
    keeps_instStat n (within_forN fun k _ => within_set (instStat_ne_far n (by simp only [IOM_DELIV1]; omega))),
    keeps_instStat n (within_set (instStat_ne_far n (by simp only [IOM_IP_APER]; omega)))⟩
  rw [instEmpty, seqs_cons_run]
  exact (hrest _).trans ((get_set_same (fits_inst n (by decide) (by decide) (by decide)) 0 s).trans (Nat.zero_mod _))

theorem instFresh_tomgrFull (s : State) : ((instFresh n).run s).get (IOM_INST_STAT_TOMGR_FULL n) = 0 := by
  have hshown (u : State) : ((instShown n).run u).get (IOM_INST_STAT_TOMGR_FULL n) = u.get (IOM_INST_STAT_TOMGR_FULL n) := keeps_tomgrFull_instShown n u
  have hgen (u : State) : ((incWrap (IOM_INST_GEN_GEN n)).run u).get (IOM_INST_STAT_TOMGR_FULL n) = u.get (IOM_INST_STAT_TOMGR_FULL n) :=
    keeps_instStat n (within_read fun _ => within_set (instStat_ne n (o := 0x2C) (by decide))) u
  rw [instFresh]
  simp only [seqs_cons_run, seqs_nil_run]
  rw [hshown, instRenumber, updHbr, upd_get, hgen, instEmpty_tomgrFull]

theorem instShown_resetting (s : State) : ((instShown n).run s).get (IOM_INST_STAT_RESETTING n) = 0 := by
  have hrest : Keeps (·.get (IOM_INST_STAT_RESETTING n)) (seqs [set (CELL_CTRL_CELL_RST 6 n) 0, set (CELL_STAT_DRAINING 6 n) 0, raiseIom n 2]) := keeps_seqs ⟨
    keeps_instStat n (within_set (instStat_ne n (o := 0) (by decide))), keeps_instStat n (within_set (instStat_ne n (o := 4) (by decide))),
    keeps_instStat n (within_raiseIom_of n (instStat_ne_far n (by decide)) (instStat_ne n (by decide)) (instStat_ne_far n (by decide)) _)⟩
  rw [instShown, seqs_cons_run]
  exact (hrest _).trans ((get_set_same (fits_inst n (by decide) (by decide) (by decide)) 0 s).trans (Nat.zero_mod _))

theorem instFresh_resetting (s : State) : ((instFresh n).run s).get (IOM_INST_STAT_RESETTING n) = 0 := by
  rw [instFresh]
  simp only [seqs_cons_run, seqs_nil_run]
  rw [instShown_resetting]

/-! ## The mailboxes -/

theorem reg_zero_setReg {s : State} {a : Nat} (h : s.reg a = 0) (c : Nat) : ((setReg c 0).run s).reg a = 0 := by
  by_cases hc : c = a
  · rw [hc, reg_setReg_zero]
  · rw [setReg_reg_ne 0 s hc, h]

theorem forEach_establishes {α : Type} {P : State → Prop} {f : α → Upd} {x : α} (hx : ∀ s, P ((f x).run s)) (hkeep : ∀ y s, P s → P ((f y).run s))
    {l : List α} (hl : x ∈ l) (s : State) : P ((forEach l f).run s) := by
  have hrest (l : List α) : ∀ s, P s → P ((forEach l f).run s) := by
    induction l with
    | nil => exact fun _ h => h
    | cons y l ih => exact fun s h => ih _ (hkeep y s h)
  induction l generalizing s with
  | nil => cases hl
  | cons y l ih =>
    rcases List.mem_cons.mp hl with rfl | hl
    · exact hrest l _ (hx s)
    · exact ih hl _

theorem instMailClear_zero {i a : Nat} (hi : i < 16) (ha : a = IOM_IP_MB_OUT n i ∨ a = IOM_IP_MB_IN n i) (s : State) : ((instMailClear n).run s).reg a = 0 := by
  have hone (j : Nat) (u : State) (h : (a = IOM_IP_MB_OUT n j ∨ a = IOM_IP_MB_IN n j) ∨ u.reg a = 0) : ((seqs [setReg (IOM_IP_MB_OUT n j) 0,
      setReg (IOM_IP_MB_IN n j) 0, setReg (IOM_INST_MB_TOMGR n j) 0, setReg (IOM_INST_MB_FROMMGR n j) 0]).run u).reg a = 0 := by
    simp only [seqs_cons_run, seqs_nil_run]
    refine reg_zero_setReg (reg_zero_setReg ?_ _) _
    rcases h with (rfl | rfl) | h
    · exact reg_zero_setReg (reg_setReg_zero _ _) _
    · exact reg_setReg_zero _ _
    · exact reg_zero_setReg (reg_zero_setReg h _) _
  rw [instMailClear, forN]
  exact forEach_establishes (P := fun u => u.reg a = 0) (x := i) (fun u => hone i u (.inl ha)) (fun j u hu => hone j u (.inr hu)) (List.mem_range.mpr hi) s

theorem offMailbox_word {i a : Nat} (hi : i < 16) (ha : a = IOM_IP_MB_OUT n i ∨ a = IOM_IP_MB_IN n i) : offMailbox n a = false := by
  simp only [offMailbox, Bool.or_eq_false_iff, decide_eq_false_iff_not]
  rcases ha with rfl | rfl
  · simp only [IOM_IP_MB_OUT]
    omega
  · simp only [IOM_IP_MB_IN]
    omega

theorem instFresh_mail {i a : Nat} (hi : i < 16) (ha : a = IOM_IP_MB_OUT n i ∨ a = IOM_IP_MB_IN n i) (s : State) : ((instFresh n).run s).reg a = 0 := by
  have hoff := offMailbox_word n hi ha
  have hgen (u : State) : ((incWrap (IOM_INST_GEN_GEN n)).run u).reg a = u.reg a :=
    (within_read (p := offMailbox n) (fun _ => within_set (offMailbox_cell n (by decide))) u).reg_eq hoff
  rw [instFresh]
  simp only [seqs_cons_run, seqs_nil_run]
  rw [(within_instShown_offMailbox n _).reg_eq hoff, instRenumber, updHbr, upd_reg, hgen, (within_instEmpty_offMailbox n _).reg_eq hoff, instMailClear_zero n hi ha]

/-! ## The removal, and the vectors sent -/

theorem keeps_iom_msixSend (fn v : Nat) : Keeps (·.b.iom) (msixSend fn v) := keeps_read fun _ => keeps_whenU fun _ =>
  keeps_ite (fun _ => keeps_b_upd (π := Blocks.iom) fun _ => rfl) fun _ => keeps_b_inc (π := Blocks.iom) _ _

theorem keeps_iom_instFresh : Keeps (·.b.iom) (instFresh n) := by
  have hset (f : Fld) (v : Nat) : Keeps (·.b.iom) (set f v) := keeps_b_set Blocks.iom f v
  have hreg (a v : Nat) : Keeps (·.b.iom) (setReg a v) := keeps_b_setReg Blocks.iom a v
  have hmail : Keeps (·.b.iom) (instMailClear n) := keeps_forN fun _ _ => keeps_seqs ⟨hreg _ _, hreg _ _, hreg _ _, hreg _ _⟩
  have hempty : Keeps (·.b.iom) (instEmpty n) :=
    keeps_seqs ⟨hset _ _, hset _ _, keeps_b_clrBit (π := Blocks.iom) _ _, keeps_forN fun _ _ => hset _ _, hset _ _⟩
  have hshown : Keeps (·.b.iom) (instShown n) := keeps_seqs ⟨hset _ _, hset _ _, hset _ _, keeps_read fun _ => keeps_seqs
    ⟨keeps_b_setBit (π := Blocks.iom) _ _, keeps_b_setBit (π := Blocks.iom) _ _, keeps_whenU fun _ => keeps_iom_msixSend _ _⟩⟩
  exact keeps_seqs ⟨hmail, hempty, keeps_read fun _ => hset _ _, keeps_b_upd (π := Blocks.iom) fun _ => rfl, hshown⟩

theorem keeps_iom_instEnable : Keeps (·.b.iom) (instEnable n) := keeps_read fun _ => keeps_whenU fun _ => keeps_b_set Blocks.iom _ _

theorem keeps_vecs_instUnbind : Keeps (·.b.iom.vecs) (instUnbind n) := by
  have hset (f : Fld) (v : Nat) : Keeps (·.b.iom.vecs) (set f v) := keeps_b_set (·.iom.vecs) f v
  exact keeps_seqs ⟨hset _ _, hset _ _, hset _ _, keeps_b_upd (π := (·.iom.vecs)) fun _ => rfl, keeps_read fun _ => hset _ _⟩

theorem instUnbind_run (s : State) : (instUnbind n).run s = showBound.run ((updIom fun x => { x with removing := x.removing.erase n.val }).run
    ((set (IOM_INST_STAT_BOUND n) 0).run ((set (IOM_INST_OWNER_OKIND n) 0).run ((set (IOM_INST_BIND_KIND n) 0).run s)))) := by
  simp only [instUnbind, seqs_cons_run, seqs_nil_run]

theorem instUnbind_get {f : Fld} (hf : f = IOM_INST_BIND_KIND n ∨ f = IOM_INST_OWNER_OKIND n ∨ f = IOM_INST_STAT_BOUND n) (s : State) :
    ((instUnbind n).run s).get f = 0 := by
  have hcount (u : State) : (showBound.run u).get f = u.get f := by
    refine keeps_get_of_within (p := (· == IOM_BOUND_CNT)) (within_read fun _ => within_set (beq_self_eq_true _)) ?_ u
    rw [beq_eq_false_iff_ne, IOM_BOUND_CNT]
    rcases hf with rfl | rfl | rfl
    all_goals
      simp only [IOM_INST_BIND, IOM_INST_OWNER, IOM_INST_STAT, cellBase]
      omega
  have hzero {g : Fld} {u : State} (hfit : g.fits = true) (h : g = f ∨ g.reg ≠ f.reg ∧ u.get f = 0) : ((set g 0).run u).get f = 0 := by
    rcases h with rfl | ⟨hne, hu⟩
    · exact (get_set_same hfit 0 u).trans (Nat.zero_mod _)
    · rw [State.get, set_reg_ne _ _ hne, ← State.get, hu]
  have hapart {o o' : Nat} (h : o ≠ o') : cellBase 6 n + o ≠ cellBase 6 n + o' := fun he => h (Nat.add_left_cancel he)
  have hbind : (IOM_INST_BIND_KIND n).fits = true := fits_inst n (by decide) (by decide) (by decide)
  have howner : (IOM_INST_OWNER_OKIND n).fits = true := fits_inst n (by decide) (by decide) (by decide)
  have hbound : (IOM_INST_STAT_BOUND n).fits = true := fits_inst n (by decide) (by decide) (by decide)
  rw [instUnbind_run, hcount, updIom, upd_get]
  rcases hf with rfl | rfl | rfl
  · exact hzero hbound (.inr ⟨hapart (by decide), hzero howner (.inr ⟨hapart (by decide), hzero hbind (.inl rfl)⟩)⟩)
  · exact hzero hbound (.inr ⟨hapart (by decide), hzero howner (.inl rfl)⟩)
  · exact hzero hbound (.inl rfl)

end

end Sys2Proof.Machine
end

section
/-!
The removal of an instance (R628), resets of instances, and the ends of migration work.
-/
namespace Sys2Proof.Machine

/-! ## The end of a reset -/

section
variable {n : Fin 256} {s : State} (hr : s.flag (IOM_INST_STAT_RESETTING n) = true) (hq : s.instQuiet n = true)
include hr hq

theorem instResetDone_removed (hg : s.b.iom.removing.contains n.val = true) : ((instResetDone n).run s).instKind n = 0 ∧ ((instResetDone n).run s).okind n = 0 ∧
    ((instResetDone n).run s).flag (IOM_INST_STAT_BOUND n) = false ∧ ((instResetDone n).run s).b.iom.vecs = s.b.iom.vecs := by
  have hbind : offInstance n (IOM_INST_BIND n) = false := by simp only [offInstance, bne_self_eq_false, Bool.false_and]
  have howner : offInstance n (IOM_INST_OWNER n) = false := by simp only [offInstance, bne_self_eq_false, Bool.false_and, Bool.and_false]
  have hstat (u : State) : ((instEnable n).run u).get (IOM_INST_STAT_BOUND n) = u.get (IOM_INST_STAT_BOUND n) := keeps_instStat_enable n u
  have henable (u : State) : ((instEnable n).run u).b.iom = u.b.iom := keeps_iom_instEnable n u
  have hunbind (u : State) : ((instUnbind n).run u).b.iom.vecs = u.b.iom.vecs := keeps_vecs_instUnbind n u
  have hfresh (u : State) : ((instFresh n).run u).b.iom = u.b.iom := keeps_iom_instFresh n u
  rw [instResetDone_run hr hq, if_pos hg]
  refine ⟨?_, ?_, ?_, ?_⟩
  · rw [State.instKind, (within_instEnable_offInstance n _).get_eq hbind, instUnbind_get n (.inl rfl)]
  · rw [State.okind, (within_instEnable_offInstance n _).get_eq howner, instUnbind_get n (.inr (.inl rfl))]
  · rw [State.flag, hstat, instUnbind_get n (.inr (.inr rfl))]
    rfl
  · rw [henable, hunbind, hfresh]

theorem instResetDone_kept (hg : s.b.iom.removing.contains n.val = false) : ((instResetDone n).run s).instKind n = s.instKind n ∧
    ((instResetDone n).run s).get (IOM_INST_GEN_GEN n) = (s.get (IOM_INST_GEN_GEN n) + 1) % 256 ∧
    ((instResetDone n).run s).flag (IOM_INST_STAT_RESETTING n) = false ∧ ((instResetDone n).run s).flag (IOM_INST_STAT_TOMGR_FULL n) = false ∧
    ((instResetDone n).run s).b.iom.vecs = s.b.iom.vecs ++ [(n.val, 3)] := by
  have hbind : offInstance n (IOM_INST_BIND n) = false := by simp only [offInstance, bne_self_eq_false, Bool.false_and]
  have hgen : offInstance n (IOM_INST_GEN n) = false := by simp only [offInstance, bne_self_eq_false, Bool.and_false]
  have hstat (i : Nat) (u : State) : ((instEnable n).run u).get ⟨IOM_INST_STAT n, i, i⟩ = u.get ⟨IOM_INST_STAT n, i, i⟩ := keeps_instStat_enable n u
  have henable (u : State) : ((instEnable n).run u).b.iom = u.b.iom := keeps_iom_instEnable n u
  have hfresh (u : State) : ((instFresh n).run u).b.iom = u.b.iom := keeps_iom_instFresh n u
  rw [instResetDone_run hr hq, if_neg (ne_true_of_eq_false hg), raiseVec]
  refine ⟨?_, ?_, ?_, ?_, ?_⟩
  · rw [State.instKind, (within_instEnable_offInstance n _).get_eq hbind, upd_get]
    exact instFresh_kind n s
  · rw [(within_instEnable_offInstance n _).get_eq hgen, upd_get, instFresh_gen]
  · rw [State.flag, hstat, upd_get, instFresh_resetting]
    rfl
  · rw [State.flag, hstat, upd_get, instFresh_tomgrFull]
    rfl
  · rw [henable, upd_b]
    dsimp only
    rw [hfresh]

theorem instResetDone_mail (hg : s.b.iom.removing.contains n.val = false) {i a : Nat} (hi : i < 16) (ha : a = IOM_IP_MB_OUT n i ∨ a = IOM_IP_MB_IN n i) :
    ((instResetDone n).run s).reg a = 0 := by
  rw [instResetDone_run hr hq, if_neg (ne_true_of_eq_false hg), (within_instEnable_offMailbox n _).reg_eq (offMailbox_word n hi ha), raiseVec, upd_reg,
    instFresh_mail n hi ha]

end

theorem instResetDone_of_idle {n : Fin 256} {s : State} (h : s.flag (IOM_INST_STAT_RESETTING n) = false ∨ s.instQuiet n = false) :
    (instResetDone n).run s = s := by
  have hc : (s.flag (IOM_INST_STAT_RESETTING n) && s.instQuiet n) = false := by
    rcases h with h | h <;> simp [h]
  simp only [instResetDone, Upd.run_read, hc, whenU_false, Upd.run_skip]

theorem instReset_of_unready {n : Fin 256} {s : State} (h : s.flag (IOM_INST_STAT_BOUND n) = false ∨ s.flag (IOM_INST_STAT_RESETTING n) = true) :
    (instReset n).run s = s := by
  have hc : (s.flag (IOM_INST_STAT_BOUND n) && !s.flag (IOM_INST_STAT_RESETTING n)) = false := by
    rcases h with h | h <;> simp [h]
  simp only [instReset, instBegin, Upd.run_read, hc, whenU_false, Upd.run_skip]

/-! ## Migration (R637, R638, R647) -/

theorem migEnd_get (code : Nat) (hc : code < 16) (s : State) : ((migEnd code).run s).get IOM_MIG_RES_BUSY = 0 ∧ ((migEnd code).run s).get IOM_MIG_RES_CODE = code := by
  rw [migEnd, Upd.run_seq]
  constructor
  · rw [get_set_apart (by decide), get_set_same (by decide)]
    rfl
  · rw [get_set_same (by decide)]
    exact Nat.mod_eq_of_lt hc

/-- The migration of instance `n` has ended in state `m` with `code`. -/
def migEndedIn (n m code : Nat) (r : Nat → Nat) : Prop :=
  bits (r IOM_MIG_RES) 31 31 = 0 ∧ bits (r (IOM_INST_STAT n)) 30 28 = m ∧ bits (r IOM_MIG_RES) 27 24 = code

theorem migEndedIn_iff {n m code : Nat} {s : State} :
    migEndedIn n m code s.reg ↔ s.flag IOM_MIG_RES_BUSY = false ∧ s.migState n = m ∧ s.get IOM_MIG_RES_CODE = code := by
  rw [migEndedIn, State.flag, State.migState, bne_eq_false_iff_eq]
  rfl

theorem migEnded (n : Fin 256) {m code : Nat} (hm : m < 8) (hc : code < 16) (s : State) :
    migEndedIn n m code ((migEnd code).run ((setMig n m).run s)).reg := by
  obtain ⟨hbusy, hcode⟩ := migEnd_get code hc ((setMig n m).run s)
  refine migEndedIn_iff.mpr ⟨by rw [State.flag, hbusy]; rfl, ?_, hcode⟩
  rw [State.migState, (within_migEnd code _).get_eq (beq_eq_false_iff_ne.mpr (instStat_ne_migRes n)), setMig,
    get_set_same (fits_inst n (by decide) (by decide) (by decide))]
  exact Nat.mod_eq_of_lt hm

theorem aloof_unit : Aloof fun _ => () := ⟨fun _ _ => rfl, fun _ _ => rfl, fun _ _ => rfl, fun _ _ => rfl⟩

/-- A save ends as Saved with code 0, or as Frozen with code 5. -/
def saveEnds (n : Nat) (_ y : (Nat → Nat) × Unit) : Prop := migEndedIn n 4 0 y.1 ∨ migEndedIn n 2 5 y.1

theorem migEndedIn_aside (n : Fin 256) {m code : Nat} {s : State} : migEndedIn n m code (s.aside fun _ => ()).1 ↔ migEndedIn n m code s.reg := by
  have hb := instCell_bounds n (o := 0x30) (by decide)
  have hstat : transferFoot (IOM_INST_STAT n) = false := by
    refine Bool.eq_false_iff.mpr fun h => ?_
    rw [transferFoot_iff] at h
    simp only [IOM_INST_STAT] at h
    omega
  have hres : transferFoot IOM_MIG_RES = false := by decide
  simp only [migEndedIn, State.aside, hstat, hres, Bool.false_eq_true, if_false]

theorem leads_saveRefused (n : Fin 256) : LeadsAside (fun _ => ()) (saveEnds n) (.seq (setMig n 2) (migEnd 5)) := fun s => by
  refine .inr ((migEndedIn_aside n).mpr ?_)
  rw [Upd.run_seq]
  exact migEnded n (by decide) (by decide) s

theorem leads_saved (n : Fin 256) (u v : Upd) : LeadsAside (fun _ => ()) (saveEnds n) (seqs [u, v, setMig n 4, migEnd 0]) := fun s => by
  refine .inl ((migEndedIn_aside n).mpr ?_)
  simp only [seqs_cons_run, seqs_nil_run]
  exact migEnded n (by decide) (by decide) _

/-- What a save of instance `n` does at its end (R638). -/
def migSaveWork (n : Nat) (s : State) : Upd :=
  dmaWrite 58 (s.migBuf + 4) ((s.isb n).drop 4) fun ok => if ¬ ok then .seq (setMig n 2) (migEnd 5)
    else dmaWrite 58 s.migBuf ((s.isb n).take 4) fun ok => if ¬ ok then .seq (setMig n 2) (migEnd 5)
    else seqs [
      set IOM_MIG_LEN_LEN (s.isb n).length,
      whenU s.b.iom.jrnl (seqs [updFw fun u => { u with journal := u.journal.filter (·.kind != 8) }, journal { kind := 8, data := s.isb n }, showMigJrnl]),
      setMig n 4, migEnd 0]

theorem migSaveDone_run {s : State} (hbusy : s.flag IOM_MIG_RES_BUSY = true) (hop : s.get IOM_MIG_RES_OP = 2)
    (hst : s.migState (s.get IOM_MIG_RES_INST) = 3) : migSaveDone.run s = (migSaveWork (s.get IOM_MIG_RES_INST) s).run s := by
  simp only [migSaveDone, migSaveWork, Upd.run_read, hbusy, hop, hst, beq_self_eq_true, Bool.and_self, whenU_true]

theorem leads_migSaveWork (n : Fin 256) (s : State) : LeadsAside (fun _ => ()) (saveEnds n) (migSaveWork n s) :=
  aloof_unit.leads_dmaWrite fun _ => leadsAside_ite (leads_saveRefused n) (aloof_unit.leads_dmaWrite fun _ =>
    leadsAside_ite (leads_saveRefused n) (leads_saved n _ _))

theorem migSaveDone_ends {n : Fin 256} {s : State} (hbusy : s.flag IOM_MIG_RES_BUSY = true) (hop : s.get IOM_MIG_RES_OP = 2)
    (hn : s.get IOM_MIG_RES_INST = n) (hst : s.migState (s.get IOM_MIG_RES_INST) = 3) :
    migEndedIn n 4 0 (migSaveDone.run s).reg ∨ migEndedIn n 2 5 (migSaveDone.run s).reg := by
  rw [migSaveDone_run hbusy hop hst, hn]
  exact (leads_migSaveWork n s s).imp (migEndedIn_aside n).mp (migEndedIn_aside n).mp

theorem migFrozen_run {n : Fin 256} {s : State} (hst : s.migState n = 1) (hq : s.migQuiet n = true) : (migFrozen n).run s = (setMig n 2).run s := by
  simp only [migFrozen, Upd.run_read, hst, hq, beq_self_eq_true, Bool.and_self, whenU_true]

theorem migCopyDone_run {s : State} (hbusy : s.flag IOM_MIG_RES_BUSY = true) (hcopy : s.b.iom.copy = some 100) :
    migCopyDone.run s = (migEnd 0).run ((updIom fun x => { x with copy := none }).run s) := by
  simp only [migCopyDone, migCopyEnd, Upd.run_read, hbusy, hcopy, beq_self_eq_true, Bool.and_self, whenU_true, Upd.run_seq, if_true]

theorem keeps_iom_migEnd (code : Nat) : Keeps (·.b.iom) (migEnd code) := keeps_seq (keeps_b_set Blocks.iom _ _) (keeps_b_set Blocks.iom _ _)

end Sys2Proof.Machine

open Sys2Proof Sys2Proof.Machine

/-- Settles O12: the reset leaves its mark in the status, which the reset of the bound function does not reach; the end of the reset unbinds what is being removed. -/
theorem instanceRemoval : Obligations.InstanceRemoval := by
  refine ⟨?begins, ?removed, ?kept⟩
  case begins => exact fun n old s hold hb hr => instBindHook_removal n old s hold hb hr
  case removed => exact fun n s hr hq hg => ⟨_, completes_of_finish rfl, instResetDone_removed hr hq hg⟩
  case kept =>
    intro n s hr hq hg
    obtain ⟨hkind, -, -, -, hvecs⟩ := instResetDone_kept hr hq hg
    exact ⟨_, completes_of_finish rfl, hkind, hvecs⟩

/-- Settles O43: the resets of instances from their begin to their end, and the ends of freeze, save and copy. -/
theorem instanceEvents : Obligations.InstanceEvents := by
  have hnone {c : Instr} {u : Upd} {s : State} (hc : Completes c s (u.run s)) (h : u.run s = s) : Does c .skip (fun _ => false) s :=
    does_of_completes hc h within_skip
  refine ⟨?unbound, ?resetting, ?begins, ?idle, ?busy, ?ends, ?removed, ?frozen, ?unfrozen, ?nowork, ?copied, ?saved⟩
  case unbound => exact fun n s h => hnone (completes_of_finish rfl) (instReset_of_unready (.inl h))
  case resetting => exact fun n s h => hnone (completes_of_finish rfl) (instReset_of_unready (.inr h))
  case begins => exact fun n s hb hr => ⟨_, completes_of_finish rfl, instBegin_resetting n hb hr, instBegin_migState n hb hr⟩
  case idle => exact fun n s h => hnone (completes_of_finish rfl) (instResetDone_of_idle (.inl h))
  case busy => exact fun n s h => hnone (completes_of_finish rfl) (instResetDone_of_idle (.inr h))
  case ends =>
    intro n s hr hq hg
    obtain ⟨hkind, hgen, hreset, hfull, -⟩ := instResetDone_kept hr hq hg
    exact ⟨_, completes_of_finish rfl, hreset, hkind, hgen, hfull, fun i hi => ⟨instResetDone_mail hr hq hg hi (.inl rfl), instResetDone_mail hr hq hg hi (.inr rfl)⟩⟩
  case removed =>
    intro n s hr hq hg
    obtain ⟨hkind, hokind, hbound, -⟩ := instResetDone_removed hr hq hg
    exact ⟨_, completes_of_finish rfl, hbound, hkind, hokind⟩
  case frozen =>
    intro n s hst hq
    refine ⟨_, completes_of_finish rfl, ?_, ?_⟩
    · rw [migFrozen_run hst hq, State.migState, setMig, get_set_same (fits_inst n (by decide) (by decide) (by decide))]
      rfl
    · rw [migFrozen_run hst hq, setMig]
      exact within_set (p := (· == IOM_INST_STAT n)) (beq_self_eq_true _) s
  case unfrozen =>
    intro n s hst
    refine hnone (completes_of_finish rfl) ?_
    simp only [migFrozen, Upd.run_read, beq_eq_false_iff_ne.mpr hst, Bool.false_and, whenU_false, Upd.run_skip]
  case nowork =>
    refine fun s h => ⟨hnone (completes_of_finish rfl) ?_, hnone (completes_of_finish rfl) ?_⟩
    · simp only [migSaveDone, Upd.run_read, h, Bool.false_and, whenU_false, Upd.run_skip]
    · simp only [migCopyDone, Upd.run_read, h, Bool.false_and, whenU_false, Upd.run_skip]
  case copied =>
    intro s hbusy hcopy
    refine ⟨_, completes_of_finish rfl, ?_⟩
    rw [migCopyDone_run hbusy hcopy]
    obtain ⟨hres, hcode⟩ := migEnd_get 0 (by decide) ((updIom fun x => { x with copy := none }).run s)
    refine ⟨hcode, by rw [State.flag, hres]; rfl, congrArg Iom.copy (keeps_iom_migEnd 0 _), ?_⟩
    exact (within_upd _ s).trans (within_migEnd 0 _)
  case saved =>
    intro s hbusy hop hst
    have hn : s.get IOM_MIG_RES_INST < 256 := get_lt _ _
    refine ⟨_, completes_of_finish rfl, ?_⟩
    rcases migSaveDone_ends (n := ⟨_, hn⟩) hbusy hop rfl hst with h | h
    · obtain ⟨hidle, hstate, hcode⟩ := migEndedIn_iff.mp h
      exact ⟨hidle, .inl ⟨hstate, hcode⟩⟩
    · obtain ⟨hidle, hstate, hcode⟩ := migEndedIn_iff.mp h
      exact ⟨hidle, .inr ⟨hstate, hcode⟩⟩

end

section
/-!
The update engine: the boot record, commit steps and the fallback (R658, R672 to R681).
-/
namespace Sys2Proof.Machine

/-! ## The boot record (R658, R659) -/

/-- The record written is the one in use, under the next sequence number. -/
theorem current_write (u : Update) (r : BootRec) : (u.write r).current = { r with seq := u.current.seq + 1 } := by
  rcases ha : u.copyA with _ | a <;> rcases hb : u.copyB with _ | b
  · simp [Update.write, Update.current, ha, hb]
  · simp [Update.write, Update.current, ha, hb]
  · simp [Update.write, Update.current, ha, hb]
  · by_cases h : b.seq ≤ a.seq <;> simp [Update.write, Update.current, ha, hb, h]

/-- A write of the record changes the copies alone. -/
theorem write_eq (u : Update) (r : BootRec) : ∃ x y, u.write r = { u with copyA := x, copyB := y } := by
  unfold Update.write
  split
  · split
    · exact ⟨_, _, rfl⟩
    · exact ⟨_, _, rfl⟩
  · exact ⟨_, _, rfl⟩
  · exact ⟨_, _, rfl⟩

theorem keeps_fw_showBoot : Keeps (·.b.fw) showBoot := keeps_read fun _ => keeps_seqs ⟨keeps_b_set Blocks.fw _ _, keeps_b_set Blocks.fw _ _,
  keeps_forN fun _ _ => keeps_b_setReg Blocks.fw _ _⟩

theorem bootWrite_fw (f : BootRec → BootRec) (s : State) : ((bootWrite f).run s).b.fw = s.b.fw.write (f s.boot) := by
  have hshow (u : State) : (showBoot.run u).b.fw = u.b.fw := keeps_fw_showBoot u
  rw [bootWrite, Upd.run_seq, hshow, updFw, upd_b]
  rfl

theorem bootWrite_boot (f : BootRec → BootRec) (s : State) : ((bootWrite f).run s).boot = { f s.boot with seq := s.boot.seq + 1 } := by
  rw [State.boot, bootWrite_fw, current_write]
  rfl

/-- The result of the last command is not among what the record shows. -/
theorem keeps_stat_bootWrite {f : Fld} (hf : f = MEM_UPD_STAT_CODE ∨ f = MEM_UPD_STAT_BUSY) (g : BootRec → BootRec) : Keeps (·.get f) (bootWrite g) := by
  have hcid : ∀ i < 4, (MEM_UPD_CID i != MEM_UPD_STAT) = true := by decide
  have hcidw (n i : Nat) (hi : i < 4) : Within (· != MEM_UPD_STAT) (setReg (MEM_UPD_CID i) n) := within_setReg (hcid i hi)
  have hreg : f.reg = MEM_UPD_STAT := by rcases hf with rfl | rfl <;> rfl
  have hstate : Fld.apart MEM_UPD_STAT_STATE f = true := by rcases hf with rfl | rfl <;> decide
  have hoff : (f.reg != MEM_UPD_STAT) = false := by rw [hreg]; exact bne_self_eq_false _
  exact keeps_seq (fun s => upd_get _ s f) (keeps_read fun _ => keeps_seqs ⟨keeps_get_apart hstate _,
    keeps_get_of_within (p := (· != MEM_UPD_STAT)) (within_set (by decide)) hoff, keeps_forN fun i hi => keeps_get_of_within (hcidw _ i hi) hoff⟩)

/-! ## Commit steps (R672, R673) -/

theorem updCode_get {c : Nat} (hc : c < 16) (s : State) : ((updCode c).run s).get MEM_UPD_STAT_CODE = c := by
  rw [updCode, get_set_same (by decide)]
  exact Nat.mod_eq_of_lt hc

theorem commitIdle_busy (s : State) : (commitIdle.run s).get MEM_UPD_STAT_BUSY = 0 := by
  simp only [commitIdle, seqs_cons_run, seqs_nil_run]
  rw [get_set_apart (by decide), get_set_same (by decide)]
  rfl

theorem commitIdle_fw (s : State) : (commitIdle.run s).b.fw = { s.b.fw with steps := [], recheck := false } := by
  have hset (f : Fld) (v : Nat) (u : State) : ((set f v).run u).b.fw = u.b.fw := keeps_b_set Blocks.fw f v u
  simp only [commitIdle, seqs_cons_run, seqs_nil_run]
  rw [hset, hset, updFw, upd_b]
  dsimp only
  rw [hset, hset]

section
variable {k e : Nat} {l : List Nat} {s : State} (hsteps : s.b.fw.steps = k :: l) (hst : s.boot.state = 3) (he : entryOf s.b.fw.hdr k = some e)
include hsteps hst he

theorem commitStepDone_failed_run (hnone : ∀ j, j < 11 → (s.part j).trial = false) : (commitStepDone 1).run s =
    (bootWrite fun r => { r with state := 2 }).run ((updCode 12).run (commitIdle.run ((report 4 none TR).run s))) := by
  have hany : ((List.range 11).any fun k => (s.part k).trial) = false := by
    rw [List.any_eq_false]
    intro j hj
    rw [hnone j (List.mem_range.mp hj)]
    exact Bool.false_ne_true
  simp only [commitStepDone, Upd.run_read, hsteps, hst, he, hany, beq_self_eq_true, whenU_true, Fin.reduceEq, reduceIte, Bool.false_eq_true, Upd.run_seq, seqs_cons_run, seqs_nil_run]

/-- What a written step makes of the part's entry. -/
def PartEntry.committed (p : PartEntry) (h : List Byte) (e : Nat) : PartEntry := { p with
  present := true, trial := true, active := !p.active, svn := eSvn h e, version := eVersion h e, len := eLen h e, digest := eDigest h e }

theorem commitStepDone_written_run : (commitStepDone 0).run s =
    nextStep.run ((updFw fun u => { u with steps := l }).run ((inc MEM_UPD_STAT_DONE).run ((journal { kind := 3, part := k, cid := s.boot.cid }).run
      ((bootWrite fun r => r.setPart k fun p => p.committed s.b.fw.hdr e).run
        ((updFw fun u => { u with slots := mapPut none u.slots (2 * k + (!(s.part k).active).toNat) (some (fit 16384 s.b.fw.hdr, mapGet [] s.b.fw.staged k)),
                                  recheck := false }).run s))))) := by
  simp only [commitStepDone, Upd.run_read, hsteps, hst, he, beq_self_eq_true, whenU_true, Fin.reduceEq, reduceIte, PartEntry.committed, seqs_cons_run, seqs_nil_run]

end

/-- A commit that fails in its first part goes back to what is staged, with code 12. -/
theorem commitStepDone_failed {k e : Nat} {l : List Nat} {s : State} (hsteps : s.b.fw.steps = k :: l) (hst : s.boot.state = 3)
    (he : entryOf s.b.fw.hdr k = some e) (hnone : ∀ j, j < 11 → (s.part j).trial = false) :
    ((commitStepDone 1).run s).get MEM_UPD_STAT_CODE = 12 ∧ ((commitStepDone 1).run s).get MEM_UPD_STAT_BUSY = 0 ∧
      ((commitStepDone 1).run s).boot.state = 2 ∧ ((commitStepDone 1).run s).b.fw.steps = [] ∧ ((commitStepDone 1).run s).b.fw.hdr = s.b.fw.hdr := by
  have hreport (u : State) : ((report 4 none TR).run u).b.fw = u.b.fw := keeps_b_report_block (π := Blocks.fw) (fun _ _ => rfl) 4 TR u
  have hwrite (f : BootRec → BootRec) (u : State) (g : Fld) (hg : g = MEM_UPD_STAT_CODE ∨ g = MEM_UPD_STAT_BUSY) :
      ((bootWrite f).run u).get g = u.get g := keeps_stat_bootWrite hg f u
  rw [commitStepDone_failed_run hsteps hst he hnone]
  refine ⟨?_, ?_, ?_, ?_⟩
  · rw [hwrite _ _ _ (.inl rfl), updCode_get (by decide)]
  · rw [hwrite _ _ _ (.inr rfl), updCode, get_set_apart (by decide), commitIdle_busy]
  · rw [bootWrite_boot]
  · obtain ⟨x, y, hxy⟩ := write_eq ((updCode 12).run (commitIdle.run ((report 4 none TR).run s))).b.fw
      ({ ((updCode 12).run (commitIdle.run ((report 4 none TR).run s))).boot with state := 2 })
    rw [bootWrite_fw, hxy, updCode, set_b, commitIdle_fw]
    dsimp only
    rw [hreport]
    exact ⟨rfl, rfl⟩

/-! ## The next step -/

theorem nextStep_run {k : Nat} {l : List Nat} {s : State} (h : s.b.fw.steps = k :: l) :
    nextStep.run s = (journal { kind := 2, part := k, cid := s.boot.cid }).run ((set MEM_UPD_STAT_STEP k).run ((norBusy k).run s)) := by
  simp only [nextStep, Upd.run_read, h, seqs_cons_run, seqs_nil_run]

theorem journal_fw (r : JournalRec) (s : State) : ((journal r).run s).b.fw = { s.b.fw with journal := s.b.fw.journal ++ [r] } := by
  rw [journal, updFw, upd_b]

/-- While parts are left to write, the next step changes neither the record nor what is left. -/
theorem nextStep_fw {k : Nat} {l : List Nat} {s : State} (h : s.b.fw.steps = k :: l) :
    (nextStep.run s).b.fw = { s.b.fw with journal := s.b.fw.journal ++ [{ kind := 2, part := k, cid := s.boot.cid }] } := by
  have hnor (u : State) : ((norBusy k).run u).b.fw = u.b.fw :=
    keeps_read (φ := (·.b.fw)) (fun _ => keeps_seq (keeps_b_set Blocks.fw _ _) (keeps_b_set Blocks.fw _ _)) u
  rw [nextStep_run h, journal_fw, set_b, hnor]

/-- The record that a written part leaves. -/
theorem commitStepDone_written {k e : Nat} {l : List Nat} {s : State} (hsteps : s.b.fw.steps = k :: l) (hst : s.boot.state = 3)
    (he : entryOf s.b.fw.hdr k = some e) (hl : l ≠ []) : ((commitStepDone 0).run s).b.fw.steps = l ∧
      ∀ j, ((commitStepDone 0).run s).part j = if j = k then (s.part k).committed s.b.fw.hdr e else s.part j := by
  obtain ⟨k', l', rfl⟩ := List.exists_cons_of_ne_nil hl
  rw [commitStepDone_written_run hsteps hst he]
  generalize hu : (updFw fun u => { u with slots := mapPut none u.slots (2 * k + (!(s.part k).active).toNat) (some (fit 16384 s.b.fw.hdr, mapGet [] s.b.fw.staged k)),
                                           recheck := false }).run s = u
  have hboot : u.boot = s.boot := by rw [← hu]; rfl
  have hw := bootWrite_boot (fun r => r.setPart k fun p => p.committed s.b.fw.hdr e) u
  generalize (bootWrite fun r => r.setPart k fun p => p.committed s.b.fw.hdr e).run u = w at hw
  have hv : ((updFw fun u => { u with steps := k' :: l' }).run ((inc MEM_UPD_STAT_DONE).run ((journal { kind := 3, part := k, cid := s.boot.cid }).run w))).b.fw =
      { w.b.fw with journal := w.b.fw.journal ++ [{ kind := 3, part := k, cid := s.boot.cid }], steps := k' :: l' } := by
    rw [updFw, upd_b]
    dsimp only
    rw [inc_b, journal_fw]
  generalize (updFw fun u => { u with steps := k' :: l' }).run ((inc MEM_UPD_STAT_DONE).run ((journal { kind := 3, part := k, cid := s.boot.cid }).run w)) = v at hv
  have hnext := nextStep_fw (s := v) (k := k') (l := l') (by rw [hv])
  generalize nextStep.run v = t at hnext
  have hparts : t.boot.parts = mapPut {} s.boot.parts k ((s.part k).committed s.b.fw.hdr e) := by
    have hsame : t.boot = w.boot := by
      rw [State.boot, hnext, hv]
      rfl
    rw [hsame, hw, hboot]
    rfl
  refine ⟨by rw [hnext, hv], fun j => ?_⟩
  rw [State.part, hparts]
  split
  · next h => rw [h, mapGet_mapPut_same]
  · next h => exact mapGet_mapPut_ne _ _ _ fun hk => h hk.symm

/-! ## The fallback (R676, R681) -/

theorem state_foldl_setPart (c : PartEntry → Bool) (f : Nat → PartEntry → PartEntry) (l : List Nat) (r : BootRec) :
    (l.foldl (fun r k => r.setPart k fun p => if c p then f k p else p) r).state = r.state := by
  induction l generalizing r with
  | nil => rfl
  | cons k l ih => exact (ih _).trans rfl

/-- What the fallback makes of the record. -/
def BootRec.fellBack (r : BootRec) (s : State) : BootRec :=
  (List.range 11).foldl (fun r k => r.setPart k fun p => if p.trial then s.slotEntry k p else p) { r with state := 0 }

theorem fellBack_state (s : State) (r : BootRec) : (r.fellBack s).state = 0 := state_foldl_setPart PartEntry.trial s.slotEntry _ _

theorem fallback_run (s : State) : (fallback 1).run s = (askReset 5).run ((updCode 13).run ((set MEM_UPD_TRIAL_LEFT_S 0).run
    ((updFw fun u => { u with window := none }).run ((bootWrite (·.fellBack s)).run
      ((journal { kind := 6, cid := s.boot.cid, data := [BitVec.ofNat 8 1] }).run s))))) := by
  have hreset : ((1 : Nat) != 2) = true := rfl
  simp only [fallback, Upd.run_read, hreset, whenU_true, seqs_cons_run, seqs_nil_run]
  rfl

theorem confirmWindowExpiry_run {s : State} (hw : s.b.fw.window.isSome = true) (hst : s.boot.state = 4) : confirmWindowExpiry.run s = (fallback 1).run s := by
  simp only [confirmWindowExpiry, Upd.run_read, hw, hst, beq_self_eq_true, Bool.and_self, whenU_true]

theorem fallback_fw (s : State) : ((fallback 1).run s).boot.state = 0 ∧ ((fallback 1).run s).b.fw.window = none := by
  have hset (f : Fld) (v : Nat) (u : State) : ((set f v).run u).b.fw = u.b.fw := keeps_b_set Blocks.fw f v u
  have h := bootWrite_boot (·.fellBack s) ((journal { kind := 6, cid := s.boot.cid, data := [BitVec.ofNat 8 1] }).run s)
  rw [fallback_run]
  generalize (bootWrite (·.fellBack s)).run ((journal { kind := 6, cid := s.boot.cid, data := [BitVec.ofNat 8 1] }).run s) = w at h
  have hfw : ((askReset 5).run ((updCode 13).run ((set MEM_UPD_TRIAL_LEFT_S 0).run ((updFw fun u => { u with window := none }).run w)))).b.fw =
      { w.b.fw with window := none } := by
    rw [askReset, updFab, upd_b]
    dsimp only
    rw [updCode, hset, hset, updFw, upd_b]
  have hcur : ({ w.b.fw with window := none } : Update).current = w.boot := rfl
  rw [State.boot, hfw, hcur, h]
  dsimp only
  rw [fellBack_state]
  exact ⟨rfl, rfl⟩

theorem fallback_code (s : State) : ((fallback 1).run s).get MEM_UPD_STAT_CODE = 13 ∧ ((fallback 1).run s).b.fab.reset = some 5 := by
  rw [fallback_run, askReset, updFab, upd_get, updCode_get (by decide), upd_b]
  exact ⟨rfl, rfl⟩

end Sys2Proof.Machine

open Sys2Proof Sys2Proof.Machine

/-- Settles O44: chunks relayed, parts written and the end of the confirmation window. -/
theorem updateEvents : Obligations.UpdateEvents := by
  have hnone {c : Instr} {u : Upd} {s : State} (hc : Completes c s (u.run s)) (h : u.run s = s) : Does c .skip (fun _ => false) s :=
    does_of_completes hc h within_skip
  refine ⟨?empty, ?opens, ?belongs, ?stray, ?nosteps, ?nocommit, ?failed, ?written, ?expired, ?notrial⟩
  case empty =>
    intro s h
    refine hnone (completes_of_finish rfl) ?_
    simp only [relayChunkRx, Upd.run_read, h, Upd.run_skip]
  case opens =>
    intro bs l s h
    refine completes_as (u := relayChunkRx) (completes_of_finish rfl) ?_
    simp only [relayChunkRx, Upd.run_read, h, if_true]
  case belongs =>
    intro n bs l x s h hn hx
    refine completes_as (u := relayChunkRx) (completes_of_finish rfl) ?_
    simp only [relayChunkRx, Upd.run_read, h, hn, if_false, hx]
  case stray =>
    intro n bs l s h hn hx
    have hrun : relayChunkRx.run s = (updFw fun u => { u with relay := l }).run s := by
      simp only [relayChunkRx, Upd.run_read, h, hn, if_false, hx, seqs_cons_run, seqs_nil_run, Upd.run_skip]
    refine ⟨_, completes_of_finish rfl, ?_⟩
    rw [hrun]
    exact ⟨rfl, within_upd _ s⟩
  case nosteps =>
    intro r s h
    refine hnone (completes_of_finish rfl) ?_
    simp only [commitStepDone, Upd.run_read, h, Upd.run_skip]
  case nocommit =>
    intro r s h
    refine hnone (completes_of_finish rfl) ?_
    have hst : (s.boot.state == 3) = false := beq_eq_false_iff_ne.mpr h
    rcases hsteps : s.b.fw.steps with _ | ⟨k, l⟩
    · simp only [commitStepDone, Upd.run_read, hsteps, Upd.run_skip]
    · simp only [commitStepDone, Upd.run_read, hsteps, hst, whenU_false, Upd.run_skip]
  case failed => exact fun k e l s hsteps hst he hno => ⟨_, completes_of_finish rfl, commitStepDone_failed hsteps hst he hno⟩
  case written =>
    intro k e l s hsteps hst he hl
    obtain ⟨hleft, hparts⟩ := commitStepDone_written hsteps hst he hl
    have hk := hparts k
    rw [if_pos rfl] at hk
    refine ⟨_, completes_of_finish rfl, ?_, ?_, ?_, ?_, hleft, fun j hj => ?_⟩
    · rw [hk]; rfl
    · rw [hk]; rfl
    · rw [hk]; rfl
    · rw [hk]; rfl
    · rw [hparts, if_neg hj]
  case expired =>
    intro s hw hst
    refine ⟨_, completes_of_finish rfl, ?_⟩
    rw [confirmWindowExpiry_run hw hst]
    obtain ⟨hstate, hwindow⟩ := fallback_fw s
    obtain ⟨hcode, hreset⟩ := fallback_code s
    exact ⟨hstate, hcode, hwindow, hreset, (within_fallback 1 s).1⟩
  case notrial =>
    intro s h
    refine hnone (completes_of_finish rfl) ?_
    simp only [confirmWindowExpiry, Upd.run_read, h, Option.isSome_none, Bool.false_and, whenU_false, Upd.run_skip]

end

section
/-!
Epochs, banks, drains and preloads of the signal router (R525 to R530, R536): what a routing lookup leaves of the epoch and the banks.
-/
namespace Sys2Proof.Machine

/-! ## The epoch and the banks -/

/-- The banks of the routing table, and the preload. -/
def banks (b : Blocks) : Tbl (List Nat) × Tbl (List Nat) × Option (Nat × Nat) := (b.srt.applying, b.srt.fill, b.srt.preload)

theorem aloof_banks : Aloof banks := ⟨fun _ _ => rfl, fun _ _ => rfl, fun _ _ => rfl, fun _ _ => rfl⟩

/-- The banks and the epoch's register are as before, and event 16 is still raised. -/
def epochStays (x y : (Nat → Nat) × Tbl (List Nat) × Tbl (List Nat) × Option (Nat × Nat)) : Prop :=
  y.2 = x.2 ∧ y.1 SRT_EPOCH = x.1 SRT_EPOCH ∧ (bit (x.1 (BLK_IRQ_STAT 11)) 16 = true → bit (y.1 (BLK_IRQ_STAT 11)) 16 = true)

/-- The update leaves the epoch, the banks and event 16. -/
def EpochStays (u : Upd) : Prop := LeadsAside banks epochStays u

theorem epochStays_of {u : Upd} (hb : Keeps (banks ·.b) u) (hr : Keeps (·.reg SRT_EPOCH) u)
    (hirq : ∀ s, s.bitAt (BLK_IRQ_STAT 11) 16 = true → (u.run s).bitAt (BLK_IRQ_STAT 11) 16 = true) : EpochStays u := fun s => by
  have hepoch : transferFoot SRT_EPOCH = false := by decide
  have hstat : transferFoot (BLK_IRQ_STAT 11) = false := by decide
  refine ⟨hb s, ?_, fun h => ?_⟩
  · simp only [State.aside, hepoch, Bool.false_eq_true, if_false]
    exact hr s
  · simp only [State.aside, hstat, Bool.false_eq_true, if_false] at h ⊢
    exact hirq s h

/-- Every register but those of the epoch and of the block's events. -/
def offEpoch (a : Nat) : Bool := a != SRT_EPOCH && a != BLK_IRQ_STAT 11

theorem epochStays_of_within {u : Upd} (hw : Within offEpoch u) (hb : Keeps (banks ·.b) u) : EpochStays u :=
  epochStays_of hb (fun s => (hw s).reg_eq (by decide)) fun s h => by
    rwa [bitAt_of_reg_eq ((hw s).reg_eq (by decide))]

theorem epochStays_skip : EpochStays .skip := epochStays_of_within within_skip keeps_skip

theorem epochStays_read {k : State → Upd} (h : ∀ s, EpochStays (k s)) : EpochStays (.read k) := leadsAside_read h

theorem epochStays_seq {u v : Upd} (hu : EpochStays u) (hv : EpochStays v) : EpochStays (.seq u v) := fun s => by
  obtain ⟨hub, hur, hui⟩ := hu s
  obtain ⟨hvb, hvr, hvi⟩ := hv (u.run s)
  rw [Upd.run_seq]
  exact ⟨hvb.trans hub, hvr.trans hur, hvi ∘ hui⟩

theorem epochStays_whenU {c : Bool} {u : Upd} (h : EpochStays u) : EpochStays (whenU c u) := by
  cases c
  · exact epochStays_skip
  · exact h

theorem epochStays_forEach {α : Type} {l : List α} {f : α → Upd} (h : ∀ x, EpochStays (f x)) : EpochStays (forEach l f) := by
  induction l with
  | nil => exact epochStays_skip
  | cons x l ih => exact epochStays_seq (h x) ih

theorem epochStays_set {f : Fld} (h : offEpoch f.reg = true) (v : Nat) : EpochStays (set f v) := epochStays_of_within (within_set h) (keeps_b_set banks _ _)
theorem epochStays_setReg {a : Nat} (h : offEpoch a = true) (v : Nat) : EpochStays (setReg a v) := epochStays_of_within (within_setReg h) (keeps_b_setReg banks _ _)
theorem epochStays_count {a : Nat} (h : offEpoch a = true) (n : Nat := 1) : EpochStays (count a n) := epochStays_of_within (within_count h) (keeps_b_inc _ _)
theorem epochStays_upd {f : Blocks → Blocks} (h : ∀ b, banks (f b) = banks b) : EpochStays (upd f) := epochStays_of_within (within_upd _) (keeps_b_upd h)

theorem epochStays_raise {i : Nat} (hfit : (⟨BLK_IRQ_STAT 11, i, i⟩ : Fld).fits = true) (h16 : i ≠ 16) : EpochStays (raise 11 i) :=
  epochStays_of (keeps_b_setBit (π := banks) _ _) (fun s => setBit_reg_ne s (by decide)) fun s h =>
    (keeps_bitAt_raise hfit (by decide) h16 s).trans h

/-! ## Routing lookups (R499, R501) -/

theorem epochStays_setRc (i : Nat) (ways : List RcWay) : EpochStays (setRc i ways) :=
  epochStays_read fun _ => epochStays_seq (epochStays_upd fun _ => rfl) (epochStays_set (by decide) _)

theorem epochStays_rcFill (g : Nat) (e : List Nat) : EpochStays (rcFill g e) := epochStays_read fun _ => epochStays_setRc _ _

theorem epochStays_rtPoison (g : Nat) : EpochStays (rtPoison g) := by
  have hreport : EpochStays (report 11 none TR) := epochStays_of_within ((within_report_block (by decide) (by decide)).mono fun a ha => by
    simp only [offEpoch, Bool.and_eq_true, bne_iff_ne]
    constructor
    · rintro rfl
      exact absurd ha (by decide)
    · rintro rfl
      exact absurd ha (by decide)) (keeps_b_report_block (π := banks) (fun _ _ => rfl) 11 TR)
  exact epochStays_seq (epochStays_count (by decide)) (epochStays_seq (epochStays_raise (by decide) (by decide)) (epochStays_seq (epochStays_setReg (by decide) _)
    (epochStays_seq hreport epochStays_skip)))

theorem epochStays_srtRead {a n : Nat} {k : SrtRead → Upd} (hk : ∀ r, EpochStays (k r)) : EpochStays (srtRead a n k) :=
  epochStays_read fun _ => aloof_banks.leads_dmaRead fun _ => hk _

theorem epochStays_rtLookup (g : Nat) (old quiet : Bool) : EpochStays (rtLookup g old quiet fun _ => .skip) := by
  have hcount {a : Nat} (h : offEpoch a = true) : EpochStays (whenU (!quiet) (count a)) := epochStays_whenU (epochStays_count h)
  refine epochStays_read fun s => leadsAside_ite epochStays_skip ?_
  split
  · exact epochStays_seq (hcount (by decide)) (epochStays_seq (epochStays_setRc _ _) (epochStays_seq epochStays_skip epochStays_skip))
  · refine epochStays_seq (hcount (by decide)) (epochStays_srtRead fun r => ?_)
    cases r with
    | words e => exact epochStays_seq (epochStays_rcFill _ _) epochStays_skip
    | poison => exact epochStays_seq (epochStays_rtPoison _) epochStays_skip
    | refused => exact epochStays_skip

theorem epochStays_aheadWork (p : Pdu) : EpochStays (aheadWork p) := by
  refine epochStays_read fun s => ?_
  split
  · exact epochStays_skip
  · exact epochStays_whenU (epochStays_forEach fun _ => epochStays_whenU (epochStays_rtLookup _ _ _))

theorem epochStays_squashAhead {cnt : Nat} (h : offEpoch cnt = true) : EpochStays (squashAhead cnt) := by
  have hch (e c : Nat) (s : State) : EpochStays (match (s.canCh c).rx with
      | some r => whenU r.ahead.isSome (seqs [count cnt, aheadWork (framePdu c r.f []),
          updCan c fun x => { x with rx := x.rx.map fun r => { r with ahead := some e } }])
      | none => .skip) := by
    split
    · exact epochStays_whenU (epochStays_seq (epochStays_count h) (epochStays_seq (epochStays_aheadWork _)
        (epochStays_seq (epochStays_upd fun _ => rfl) epochStays_skip)))
    · exact epochStays_skip
  exact epochStays_read fun s => epochStays_seq (epochStays_forEach fun c => hch _ c s) (epochStays_seq (epochStays_count h _)
    (epochStays_seq (epochStays_upd fun _ => rfl) epochStays_skip))

/-! ## The epoch takes effect (R525, R526) -/

/-- The epoch rises and the filled bank applies. -/
def epochRise (s : State) : Upd := seqs [
  set SRT_EPOCH_EPOCH (s.get SRT_EPOCH_EPOCH + 1), set SRT_EPOCH_PENDING 0, set SRT_EPOCH_APPLYING 1,
  set SRT_EPOCH_BANK (1 - s.get SRT_EPOCH_BANK), set SRT_SHD_STAT_FILL 0, set SRT_SHD_STAT_FULL 0,
  updSrt fun x => { x with applying := x.fill, fill := [], dl := [] }, raise 11 16]

theorem epochTakesEffect_run {s : State} (hp : s.flag SRT_EPOCH_PENDING = true) (ha : s.flag SRT_EPOCH_APPLYING = false) :
    epochTakesEffect.run s = (squashAhead SRT_CNT_SQUASH_EPOCH).run ((epochRise s).run s) := by
  have hready : s.commitReady = true := by
    rw [State.commitReady, hp, ha]
    rfl
  simp only [epochTakesEffect, epochEffect, epochRise, Upd.run_read, hready, whenU_true, seqs_cons_run, seqs_nil_run]

theorem epochRise_run (s : State) : (epochRise s).run s = (raise 11 16).run ((updSrt fun x => { x with applying := x.fill, fill := [], dl := [] }).run
    ((set SRT_SHD_STAT_FULL 0).run ((set SRT_SHD_STAT_FILL 0).run ((set SRT_EPOCH_BANK (1 - s.get SRT_EPOCH_BANK)).run ((set SRT_EPOCH_APPLYING 1).run
      ((set SRT_EPOCH_PENDING 0).run ((set SRT_EPOCH_EPOCH (s.get SRT_EPOCH_EPOCH + 1)).run s))))))) := by
  simp only [epochRise, seqs_cons_run, seqs_nil_run]

theorem epochRise_get {f : Fld} (h : f.reg = SRT_EPOCH) (s : State) : ((epochRise s).run s).get f = ((set SRT_EPOCH_BANK (1 - s.get SRT_EPOCH_BANK)).run
    ((set SRT_EPOCH_APPLYING 1).run ((set SRT_EPOCH_PENDING 0).run ((set SRT_EPOCH_EPOCH (s.get SRT_EPOCH_EPOCH + 1)).run s)))).get f := by
  have hirq : BLK_IRQ_STAT 11 ≠ f.reg := by rw [h]; decide
  have hshd : SRT_SHD_STAT ≠ f.reg := by rw [h]; decide
  rw [epochRise_run, get_raise hirq, updSrt, upd_get, State.get, set_reg_ne _ _ hshd, set_reg_ne _ _ hshd]
  rfl

theorem epochRise_banks (s : State) : banks ((epochRise s).run s).b = (s.b.srt.fill, [], s.b.srt.preload) := by
  rw [epochRise_run, raise_b, updSrt, upd_b]
  simp only [set_b]
  rfl

theorem epochTakesEffect_banks {s : State} (hp : s.flag SRT_EPOCH_PENDING = true) (ha : s.flag SRT_EPOCH_APPLYING = false) :
    (epochTakesEffect.run s).b.srt.applying = s.b.srt.fill ∧ (epochTakesEffect.run s).b.srt.fill = [] := by
  obtain ⟨hb, -, -⟩ := epochStays_squashAhead (cnt := SRT_CNT_SQUASH_EPOCH) (by decide) ((epochRise s).run s)
  have hbanks : banks (epochTakesEffect.run s).b = (s.b.srt.fill, [], s.b.srt.preload) := by
    rw [epochTakesEffect_run hp ha, ← epochRise_banks s]
    exact hb
  exact ⟨congrArg Prod.fst hbanks, congrArg (·.2.1) hbanks⟩

theorem epochTakesEffect_get {s : State} (hp : s.flag SRT_EPOCH_PENDING = true) (ha : s.flag SRT_EPOCH_APPLYING = false) {f : Fld} (hf : f.reg = SRT_EPOCH) :
    (epochTakesEffect.run s).get f = ((epochRise s).run s).get f := by
  obtain ⟨-, hr, -⟩ := epochStays_squashAhead (cnt := SRT_CNT_SQUASH_EPOCH) (by decide) ((epochRise s).run s)
  have hfoot : transferFoot SRT_EPOCH = false := by decide
  simp only [State.aside, hfoot, Bool.false_eq_true, if_false] at hr
  rw [epochTakesEffect_run hp ha, State.get, State.get, hf, hr]

theorem epochTakesEffect_irq {s : State} (hp : s.flag SRT_EPOCH_PENDING = true) (ha : s.flag SRT_EPOCH_APPLYING = false) :
    (epochTakesEffect.run s).bitAt (BLK_IRQ_STAT 11) 16 = true := by
  obtain ⟨-, -, hi⟩ := epochStays_squashAhead (cnt := SRT_CNT_SQUASH_EPOCH) (by decide) ((epochRise s).run s)
  have hfoot : transferFoot (BLK_IRQ_STAT 11) = false := by decide
  simp only [State.aside, hfoot, Bool.false_eq_true, if_false] at hi
  rw [epochTakesEffect_run hp ha, State.bitAt]
  refine hi ?_
  have h := raise_bitAt_same (k := 11) (i := 16) (by decide)
  rw [epochRise_run]
  exact h _

/-! ## The bank has been applied; drains (R526, R530) -/

theorem bankApplyDone_run {s : State} (ha : s.flag SRT_EPOCH_APPLYING = true) : bankApplyDone.run s = (raise 11 17).run ((set SRT_EPOCH_APPLYING 0).run
    ((updSrt fun x => { x with applying := [] }).run ((forEach s.b.srt.applying fun e => bankApply s.b.srt.applying e.1 e.2).run s))) := by
  simp only [bankApplyDone, bankFinish, Upd.run_read, ha, whenU_true, seqs_cons_run, seqs_nil_run]

/-- The result of a drain, with bit `i` set and the epoch. -/
def drainEnds (i : Nat) (s : State) : Upd := .seq (setReg SRT_DRAIN_STAT (2 ^ i + s.get SRT_EPOCH_EPOCH)) (raise 11 18)

theorem drainEnds_flag {i j : Nat} (hj : j ∈ [29, 30, 31]) (s u : State) :
    ((drainEnds i s).run u).flag ⟨SRT_DRAIN_STAT, j, j⟩ = (bits (2 ^ i + s.get SRT_EPOCH_EPOCH) j j != 0) := by
  have hfit : ∀ j ∈ [29, 30, 31], (⟨SRT_DRAIN_STAT, j, j⟩ : Fld).fits = true := by decide
  rw [drainEnds, Upd.run_seq, State.flag, get_raise (show BLK_IRQ_STAT 11 ≠ SRT_DRAIN_STAT by decide), ← State.flag]
  exact flag_setReg_same (hfit j hj) _ u

theorem within_drainEnds (i : Nat) (s : State) : Within (onPage 11) (drainEnds i s) := within_seq (within_setReg (by decide)) (within_raise 11 18)

theorem drainEnds_irq (i : Nat) (s u : State) : ((drainEnds i s).run u).bitAt (BLK_IRQ_STAT 11) 18 = true := raise_bitAt_same (by decide) _

/-! ## The preload (R536) -/

/-- The lines of the preload that no way holds yet. -/
def preloadLines (start n : Nat) : Upd := forN n fun i =>
  let g := (start + i) % 2 ^ 25
  .read fun s => whenU (!(mapGet [] s.b.srt.rc (rcSet g)).any (·.gsid == g)) (
    match mapGet [] s.b.srt.applying g with
    | [] => srtRead (s.rtBase + 16 * g) 4 fun r => match r with
      | .words e => rcFill g e
      | .poison => rtPoison g
      | .refused => .skip
    | e => rcFill g e)

theorem rcPreloadDone_run {start n : Nat} {s : State} (h : s.b.srt.preload = some (start, n)) : rcPreloadDone.run s =
    (raise 11 22).run ((set SRT_RC_STAT_PRELOADING 0).run ((preloadLines start n).run ((updSrt fun x => { x with preload := none }).run s))) := by
  simp only [rcPreloadDone, preloadLines, Upd.run_read, h, seqs_cons_run, seqs_nil_run] <;> rfl

theorem epochStays_preloadLines (start n : Nat) : EpochStays (preloadLines start n) := by
  refine epochStays_forEach fun i => epochStays_read fun s => epochStays_whenU ?_
  split
  · refine epochStays_srtRead fun r => ?_
    cases r with
    | words e => exact epochStays_rcFill _ _
    | poison => exact epochStays_rtPoison _
    | refused => exact epochStays_skip
  · exact epochStays_rcFill _ _

theorem rcPreloadDone_preload {start n : Nat} {s : State} (h : s.b.srt.preload = some (start, n)) : (rcPreloadDone.run s).b.srt.preload = none := by
  obtain ⟨hb, -, -⟩ := epochStays_preloadLines start n ((updSrt fun x => { x with preload := none }).run s)
  rw [rcPreloadDone_run h, raise_b, set_b]
  exact congrArg (·.2.2) hb

end Sys2Proof.Machine

open Sys2Proof Sys2Proof.Machine

/-- Settles O31: the lookups that a new epoch squashes leave the epoch, the banks and the event, and the ends of drains and preloads are their last writes. -/
theorem signalRouterEpochs : Obligations.SignalRouterEpochs := by
  have hnone {c : Instr} {u : Upd} {s : State} (hc : Completes c s (u.run s)) (h : u.run s = s) : Does c .skip (fun _ => false) s :=
    does_of_completes hc h within_skip
  have hrun {i : Nat} {b : Bool} {s : State} (hb : b = true) : (whenU b (drainEnds i s)).run s = (drainEnds i s).run s := by rw [hb, whenU_true]
  refine ⟨?rises, ?unready, ?applied, ?idle, ?drained, ?timedOut, ?preloaded, ?noPreload⟩
  case rises =>
    intro s hp ha
    have hget {f : Fld} (hf : f.reg = SRT_EPOCH) := (epochTakesEffect_get hp ha hf).trans (epochRise_get hf s)
    obtain ⟨happ, hfill⟩ := epochTakesEffect_banks hp ha
    refine ⟨_, completes_of_finish rfl, ?_, ?_, ?_, ?_, happ, hfill, epochTakesEffect_irq hp ha⟩
    · rw [hget rfl, get_set_apart (by decide), get_set_apart (by decide), get_set_apart (by decide), get_set_same (by decide)]
    · rw [State.flag, hget rfl, get_set_apart (by decide), get_set_apart (by decide), get_set_same (by decide)]
      rfl
    · rw [State.flag, hget rfl, get_set_apart (by decide), get_set_same (by decide)]
      rfl
    · rw [hget rfl, get_set_same (by decide)]
      exact Nat.mod_eq_of_lt (by simp only [Nat.sub_self, Nat.zero_add, Nat.pow_one]; omega)
  case unready =>
    intro s h
    have hready : s.commitReady = false := by
      rw [State.commitReady]
      rcases h with h | h <;> simp [h]
    exact hnone (completes_of_finish rfl) (by simp only [epochTakesEffect, Upd.run_read, hready, whenU_false, Upd.run_skip])
  case applied =>
    intro s ha
    refine ⟨_, completes_of_finish rfl, ?_, ?_, ?_⟩
    · rw [bankApplyDone_run ha, State.flag, get_raise (by decide), get_set_same (by decide)]
      rfl
    · rw [bankApplyDone_run ha, raise_b, set_b, updSrt, upd_b]
    · rw [bankApplyDone_run ha]
      exact raise_bitAt_same (by decide) _
  case idle => exact fun s h => hnone (completes_of_finish rfl) (by simp only [bankApplyDone, bankFinish, Upd.run_read, h, whenU_false, Upd.run_skip])
  case drained =>
    intro s hb
    have hdone : srtDrainDone.run s = (drainEnds 30 s).run s := hrun hb
    have hlt : s.get SRT_EPOCH_EPOCH < 65536 := get_lt _ _
    refine ⟨_, completes_of_finish rfl, ?_⟩
    rw [hdone, drainEnds_flag (by decide), drainEnds_flag (by decide)]
    refine ⟨?_, ?_, drainEnds_irq _ _ _, within_drainEnds 30 s s⟩
    · simp only [bits, bne_eq_false_iff_eq]
      omega
    · simp only [bits, bne_iff_ne]
      omega
  case timedOut =>
    intro s hb hto
    have hdone : srtDrainTimeout.run s = (drainEnds 29 s).run s := hrun (by rw [hb, hto]; rfl)
    have hlt : s.get SRT_EPOCH_EPOCH < 65536 := get_lt _ _
    refine ⟨_, completes_of_finish rfl, ?_⟩
    rw [hdone, drainEnds_flag (by decide), drainEnds_flag (by decide)]
    refine ⟨?_, ?_, drainEnds_irq _ _ _, within_drainEnds 29 s s⟩
    · simp only [bits, bne_eq_false_iff_eq]
      omega
    · simp only [bits, bne_iff_ne]
      omega
  case preloaded =>
    intro s x hx
    refine ⟨_, completes_of_finish rfl, rcPreloadDone_preload hx, ?_, ?_⟩
    · rw [rcPreloadDone_run hx, State.flag, get_raise (by decide), get_set_same (by decide)]
      rfl
    · rw [rcPreloadDone_run hx]
      exact raise_bitAt_same (by decide) _
  case noPreload => exact fun s h => hnone (completes_of_finish rfl) (by simp only [rcPreloadDone, Upd.run_read, h, Upd.run_skip])

end

section
/-!
Network management (R542 to R549): the states of a channel, its messages and its log, and the sleep of a 1000BASE-T1 port.
-/
namespace Sys2Proof.Machine

/-! ## The registers of a channel -/

theorem unitBase_nmc : unitBase 15 = 0x30800000 := by decide

theorem fits_nmStat (c : Fin 36) : (NMC_CH_STAT_STATE c).fits = true ∧ (NMC_CH_STAT_TRX_ASLEEP c).fits = true ∧ (NMC_CH_STAT_IGN_N c).fits = true ∧
    (NMC_CH_STAT_IGNORE_ALL c).fits = true := by
  have h : ∀ c : Fin 36, (NMC_CH_STAT_STATE c).fits = true ∧ (NMC_CH_STAT_TRX_ASLEEP c).fits = true ∧ (NMC_CH_STAT_IGN_N c).fits = true ∧
    (NMC_CH_STAT_IGNORE_ALL c).fits = true := by decide
  exact h c

theorem apart_nmState (c : Fin 36) : (NMC_CH_STAT_STATE c).apart (NMC_CH_STAT_TRX_ASLEEP c) = true ∧ (NMC_CH_STAT_TRX_ASLEEP c).apart (NMC_CH_STAT_STATE c) = true := by
  have h : ∀ c : Fin 36, (NMC_CH_STAT_STATE c).apart (NMC_CH_STAT_TRX_ASLEEP c) = true ∧ (NMC_CH_STAT_TRX_ASLEEP c).apart (NMC_CH_STAT_STATE c) = true := by decide
  exact h c

theorem whole_nmAwake (c : Fin 36) : (whole (NMC_CH_AWAKE c)).fits = true := by
  have h : ∀ c : Fin 36, (whole (NMC_CH_AWAKE c)).fits = true := by decide
  exact h c

theorem onPage_nmCh {c o : Nat} (hc : c < 36) (ho : o < 64) : onPage 15 (unitBase 15 + (0x400 + o) + 64 * c) = true := by
  rw [Nat.add_assoc]
  exact onPage_unitBase 15 (by omega)

/-- Every register but the status of channel `c` and the block's events. -/
def offNmCh (c a : Nat) : Bool := a != NMC_CH_STAT c && a != BLK_IRQ_STAT 15

theorem offNmCh_iff {c a : Nat} : offNmCh c a = true ↔ a ≠ NMC_CH_STAT c ∧ a ≠ BLK_IRQ_STAT 15 := by
  simp only [offNmCh, Bool.and_eq_true, bne_iff_ne]

theorem offNmCh_of_offPage {c a : Nat} (hc : c < 36) (ha : onPage 15 a = false) : offNmCh c a = true := by
  rw [offNmCh_iff]
  constructor
  · rintro rfl
    rw [NMC_CH_STAT, onPage_nmCh (o := 0x1C) hc (by decide)] at ha
    cases ha
  · rintro rfl
    exact absurd ha (by decide)

theorem offPage_of_nmc {a k : Nat} (ha : onPage 15 a = true) (hk : k ≠ 15) : onPage k a = false := by
  simp only [onPage, unitBase_nmc, Bool.and_eq_true, decide_eq_true_eq] at ha
  rw [onPage_eq_false_iff]
  unfold unitBase
  repeat' split
  all_goals omega

theorem offNmCh_unit {c k o : Nat} (hc : c < 36) (hk : k ≠ 15) (ho : o < 0x10000) : offNmCh c (unitBase k + o) = true := by
  refine offNmCh_of_offPage hc ?_
  rw [onPage_eq_false_iff, unitBase_nmc]
  unfold unitBase
  repeat' split
  all_goals omega

/-- Registers of the block outside the channels' status words and the events. -/
theorem offNmCh_nmc {c o : Nat} (h : o % 64 ≠ 0x1C) (h8 : o ≠ 0x10) : offNmCh c (unitBase 15 + o) = true := by
  simp only [offNmCh_iff, NMC_CH_STAT, BLK_IRQ_STAT]
  omega

/-! ## What a channel shows -/

/-- The state of a channel, whether its transceiver sleeps, and event `i`. -/
def State.nmShown (c i : Nat) (s : State) : Nat × Nat × Bool := (s.nmState c, s.get (NMC_CH_STAT_TRX_ASLEEP c), s.bitAt (BLK_IRQ_STAT 15) i)

section
variable {c i : Nat} {u : Upd}

theorem keeps_nmShown_of_within (h : Within (offNmCh c) u) : Keeps (State.nmShown c i) u := fun s => by
  have hstat : offNmCh c (NMC_CH_STAT c) = false := by simp only [offNmCh, bne_self_eq_false, Bool.false_and]
  have hirq : offNmCh c (BLK_IRQ_STAT 15) = false := by simp only [offNmCh, bne_self_eq_false, Bool.and_false]
  simp only [State.nmShown, State.nmState, State.get, (h s).reg_eq hstat, bitAt_of_reg_eq ((h s).reg_eq hirq)]

theorem keeps_nmShown_of_offPage {k : Nat} (hc : c < 36) (hk : k ≠ 15) (h : Within (onPage k) u) : Keeps (State.nmShown c i) u :=
  keeps_nmShown_of_within (h.mono fun a ha => offNmCh_of_offPage hc (by
    rw [Bool.eq_false_iff]
    intro h15
    rw [offPage_of_nmc h15 hk] at ha
    cases ha))

theorem keeps_nmShown_of_reaches {k : Nat} {m : Nat → Prop} (hc : c < 36) (hk : k ≠ 15) (h : Reaches (onPage k) m u) : Keeps (State.nmShown c i) u := fun s => by
  have hreg (a : Nat) (ha : onPage 15 a = true) : (u.run s).reg a = s.reg a := (h s).1 a (offPage_of_nmc ha hk)
  have hstat := hreg (NMC_CH_STAT c) (onPage_nmCh (o := 0x1C) hc (by decide))
  simp only [State.nmShown, State.nmState, State.get, hstat, bitAt_of_reg_eq (hreg (BLK_IRQ_STAT 15) (by decide))]

theorem keeps_nmShown_raise {j : Nat} (hi : (⟨BLK_IRQ_STAT 15, i, i⟩ : Fld).fits = true) (hj : (⟨BLK_IRQ_STAT 15, j, j⟩ : Fld).fits = true) (h : j ≠ i) :
    Keeps (State.nmShown c i) (raise 15 j) := fun s => by
  have hne : BLK_IRQ_STAT 15 ≠ NMC_CH_STAT c := by
    simp only [BLK_IRQ_STAT, NMC_CH_STAT]
    omega
  simp only [State.nmShown, State.nmState, get_raise (f := NMC_CH_STAT_STATE c) hne, get_raise (f := NMC_CH_STAT_TRX_ASLEEP c) hne]
  exact congrArg _ (congrArg _ (keeps_bitAt_raise hj hi h s))

end

/-! ## The log (R549), a message (R544) -/

section
variable {c i : Nat} (hc : c < 36) (hi : (⟨BLK_IRQ_STAT 15, i, i⟩ : Fld).fits = true)
include hc hi

omit hc in
theorem keeps_nmShown_logAdd (h5 : i ≠ 5) (kind ch low w1 : Nat) : Keeps (State.nmShown c i) (logAdd kind ch low w1) := by
  have hshow : Within (offNmCh c) showLog := within_read fun _ => within_seq (within_set (offNmCh_nmc (by decide) (by decide)))
    (within_forN fun j hj => within_setReg (by rw [NMC_LOG_HEAD, Nat.add_assoc]; exact offNmCh_nmc (by omega) (by omega)))
  exact keeps_read fun _ => keeps_ite
    (fun _ => keeps_seq (keeps_nmShown_of_within (within_set (offNmCh_nmc (by decide) (by decide)))) (keeps_nmShown_raise hi (by decide) (Ne.symm h5)))
    (fun _ => keeps_seq (keeps_nmShown_of_within (within_upd _)) (keeps_nmShown_of_within hshow))

theorem keeps_nmShown_nmSend (h7 : i ≠ 7) : Keeps (State.nmShown c i) (nmSend c) := by
  have hcnt (hi lo : Nat) : Keeps (State.nmShown c i) (inc ⟨NMC_CH_CNT c, hi, lo⟩) := keeps_nmShown_of_within (within_inc (by
    simp only [offNmCh_iff, NMC_CH_CNT, NMC_CH_STAT, BLK_IRQ_STAT]
    omega))
  have hfail : Keeps (State.nmShown c i) (.seq (inc (NMC_CH_CNT_TX_FAIL c)) (raise 15 7)) := keeps_seq (hcnt _ _) (keeps_nmShown_raise hi (by decide) (Ne.symm h7))
  have hswitch (p : Nat) (f : Frame) : Keeps (State.nmShown c i) (enqueue 31 p 7 f) := keeps_nmShown_of_offPage (k := 8) hc (by decide)
    (within_read fun _ => within_seq (within_upd _) (within_seq (within_read fun _ => within_set (by decide)) (within_upd _)))
  refine keeps_read fun s => keeps_whenU fun _ => keeps_ite (fun h16 => keeps_ite (fun _ => hfail) fun _ => ?_)
    fun _ => keeps_ite (fun _ => hfail) fun _ => keeps_seq (hswitch _ _) (hcnt _ _)
  exact keeps_seqs ⟨keeps_nmShown_of_reaches (k := 9) hc (by decide) (reaches_setWords _ _), keeps_nmShown_of_reaches (k := 9) hc (by decide) (reaches_makePending h16 _), hcnt _ _⟩

end

/-! ## The states of a channel (R542) -/

section
variable (c : Fin 36)

theorem within_sleepBit (b : Bool) : Within (fun a => a == NMC_SLEEP_SUM_LO || a == NMC_SLEEP_SUM_HI) (sleepBit c b) :=
  within_ite (within_putBit (by simp only [beq_self_eq_true, Bool.true_or])) (within_putBit (by simp only [beq_self_eq_true, Bool.or_true]))

/-- What the entry of a state other than 0 does after it shows the state. -/
def nmEntered (c st : Nat) : Upd :=
  seqs [raise 15 0, sleepBit c false, whenU (st != 1) (updNm c fun x => { x with rmr := false }), whenU (st == 1) (nmSend c)]

theorem nmEnter_run {st : Nat} (h0 : st ≠ 0) (s : State) : (nmEnter c st).run s = (nmEntered c st).run ((set (NMC_CH_STAT_STATE c) st).run s) := by
  have hz : (st == 0) = false := beq_eq_false_iff_ne.mpr h0
  simp only [nmEnter, nmEntered, Upd.run_read, hz, Bool.false_and, whenU_false, seqs_cons_run, seqs_nil_run, Upd.run_skip]

theorem keeps_nmShown_nmEntered {i : Nat} (st : Nat) (hi : i ≠ 0) (hi7 : i ≠ 7) (hfit : (⟨BLK_IRQ_STAT 15, i, i⟩ : Fld).fits = true) :
    Keeps (State.nmShown c i) (nmEntered c st) :=
  keeps_seqs ⟨keeps_nmShown_raise hfit (by decide) (Ne.symm hi), keeps_nmShown_of_within ((within_sleepBit c false).mono fun a ha => by
      simp only [Bool.or_eq_true, beq_iff_eq] at ha
      rcases ha with rfl | rfl
      · exact offNmCh_nmc (by decide) (by decide)
      · exact offNmCh_nmc (by decide) (by decide)),
    keeps_whenU fun _ => keeps_nmShown_of_within (within_upd _), keeps_whenU fun _ => keeps_nmShown_nmSend c.isLt hfit hi7⟩

/-- The entry of a state shows the state, and leaves the transceiver and event `i`. -/
theorem nmEnter_shown {i st : Nat} (h0 : st ≠ 0) (hst : st < 8) (hi : i ≠ 0) (hi7 : i ≠ 7) (hfit : (⟨BLK_IRQ_STAT 15, i, i⟩ : Fld).fits = true) (s : State) :
    ((nmEnter c st).run s).nmState c = st ∧ ((nmEnter c st).run s).get (NMC_CH_STAT_TRX_ASLEEP c) = s.get (NMC_CH_STAT_TRX_ASLEEP c) ∧
      ((nmEnter c st).run s).bitAt (BLK_IRQ_STAT 15) i = s.bitAt (BLK_IRQ_STAT 15) i := by
  have hshown := keeps_nmShown_nmEntered c st hi hi7 hfit ((set (NMC_CH_STAT_STATE c) st).run s)
  rw [← nmEnter_run c h0] at hshown
  obtain ⟨hstate, hrest⟩ := Prod.mk.inj hshown
  obtain ⟨hasleep, hirq⟩ := Prod.mk.inj hrest
  obtain ⟨hfits, -, -, -⟩ := fits_nmStat c
  have hne : NMC_CH_STAT c ≠ BLK_IRQ_STAT 15 := by
    simp only [NMC_CH_STAT, BLK_IRQ_STAT]
    omega
  refine ⟨?_, ?_, ?_⟩
  · rw [hstate, State.nmState, get_set_same hfits]
    exact Nat.mod_eq_of_lt hst
  · rw [hasleep, get_set_apart (apart_nmState c).1]
  · rw [hirq]
    exact bitAt_of_reg_eq (set_reg_ne _ _ hne) i

theorem onPage_nmStat : onPage 15 (NMC_CH_STAT c) = true := onPage_nmCh (o := 0x1C) c.isLt (by decide)

theorem within_nmEnter_quiet {st : Nat} (h0 : st ≠ 0) (h1 : st ≠ 1) : Within (onPage 15) (nmEnter c st) := by
  have hz : (st == 0) = false := beq_eq_false_iff_ne.mpr h0
  have ho : (st == 1) = false := beq_eq_false_iff_ne.mpr h1
  refine within_read fun s => ?_
  rw [hz, ho, Bool.false_and]
  exact within_seqs ⟨within_set (onPage_nmStat c), within_raise 15 0, within_ite (within_putBit (by decide)) (within_putBit (by decide)),
    within_whenU (within_upd _), within_skip, within_skip⟩

theorem nmEnter_irq {st : Nat} (h0 : st ≠ 0) (h1 : st ≠ 1) (s : State) : ((nmEnter c st).run s).bitAt (BLK_IRQ_STAT 15) 0 = true := by
  have h1' : (st == 1) = false := beq_eq_false_iff_ne.mpr h1
  have hsleep (b : Bool) (u : State) : ((sleepBit c b).run u).reg (BLK_IRQ_STAT 15) = u.reg (BLK_IRQ_STAT 15) := (within_sleepBit c b u).reg_eq (by decide)
  have hnm (b : Bool) (u : State) : ((whenU b (updNm c fun x => { x with rmr := false })).run u).reg (BLK_IRQ_STAT 15) = u.reg (BLK_IRQ_STAT 15) :=
    keeps_whenU (φ := (·.reg (BLK_IRQ_STAT 15))) (fun _ => keeps_reg_upd _ _) u
  rw [nmEnter_run c h0, nmEntered, h1']
  simp only [seqs_cons_run, seqs_nil_run, whenU_false, Upd.run_skip]
  rw [bitAt_of_reg_eq (hnm _ _), bitAt_of_reg_eq (hsleep _ _)]
  exact raise_bitAt_same (by decide) _

end

end Sys2Proof.Machine
end

section
/-!
The sleep of a 1000BASE-T1 port (R546, R548): what the loss of its link leaves of what the port shows.
-/
namespace Sys2Proof.Machine

section
variable (p : Fin 18)

/-! ## The registers of a port -/

theorem fits_port {o hi lo : Nat} (ho : o < 0x800) (h4 : o % 4 = 0) (h : fieldAt (cellRows 7) o hi lo = true) : (⟨cellBase 7 p + o, hi, lo⟩ : Fld).fits = true :=
  fits_cell (by decide) (Nat.lt_of_lt_of_le p.isLt (by decide)) ho h4 h

theorem portCell_bounds {o : Nat} (ho : o < 0x800) : 0x30001000 ≤ cellBase 7 p + o ∧ cellBase 7 p + o < 0x3000A800 := by
  have h := p.isLt
  simp only [cellBase, show unitBase 7 = 0x30000000 by decide, show (unitCells 7).2 = 2048 from rfl]
  omega

/-- Every register but those in which the port's link, its sleep and its events show. -/
def offT1 (p a : Nat) : Bool :=
  a != CELL_IRQ_STAT 7 p && a != ETP_PORT_STAT p && a != ETP_T1_SLEEP p && a != NMC_CH_STAT (16 + p)

theorem offT1_iff {a : Nat} : offT1 p a = true ↔ a ≠ CELL_IRQ_STAT 7 p ∧ a ≠ ETP_PORT_STAT p ∧ a ≠ ETP_T1_SLEEP p ∧ a ≠ NMC_CH_STAT (16 + p) := by
  simp only [offT1, Bool.and_eq_true, bne_iff_ne, and_assoc]

theorem offT1_cell {o : Nat} (ho : o < 0x800) (h8 : o ≠ 8) (h28 : o ≠ 0x28) (h38 : o ≠ 0x38) : offT1 p (cellBase 7 p + o) = true := by
  have hb := portCell_bounds p ho
  rw [offT1_iff]
  simp only [CELL_IRQ_STAT, ETP_PORT_STAT, ETP_T1_SLEEP, NMC_CH_STAT, unitBase_nmc]
  omega

/-- The switch's registers, whatever port they count for. -/
theorem offT1_switch {a : Nat} (ha : 0x30100000 ≤ a) (h : a % 64 ≠ 0x1C) : offT1 p a = true := by
  have h8 := portCell_bounds p (o := 8) (by decide)
  have h28 := portCell_bounds p (o := 0x28) (by decide)
  have h38 := portCell_bounds p (o := 0x38) (by decide)
  rw [offT1_iff]
  simp only [CELL_IRQ_STAT, ETP_PORT_STAT, ETP_T1_SLEEP, NMC_CH_STAT, unitBase_nmc] at *
  omega

/-! ## What a port shows -/

/-- Whether the port's PHY and its transceiver sleep, and event 16. -/
def State.t1Shown (p : Nat) (s : State) : Nat × Nat × Bool := (s.get (ETP_T1_SLEEP_STATE p), s.get (NMC_CH_STAT_TRX_ASLEEP (16 + p)), s.bitAt (CELL_IRQ_STAT 7 p) 16)

/-- Besides, whether its link is up. -/
def State.t1LinkShown (p : Nat) (s : State) : Nat × Nat × Nat × Bool := (s.get (ETP_PORT_STAT_LINK_UP p), s.t1Shown p)

variable {p} {u : Upd}

theorem keeps_t1Shown_of (hstat : Keeps (·.reg (ETP_T1_SLEEP p)) u) (hnm : Keeps (·.reg (NMC_CH_STAT (16 + p))) u)
    (hirq : Keeps (·.bitAt (CELL_IRQ_STAT 7 p) 16) u) : Keeps (State.t1Shown p) u := fun s => by
  have h1 := hstat s
  have h2 := hnm s
  have h3 := hirq s
  dsimp only at h1 h2 h3
  simp only [State.t1Shown, State.get, h1, h2, h3]

theorem keeps_t1Link_of_within (h : Within (offT1 p) u) : Keeps (State.t1LinkShown p) u := fun s => by
  have hoff {a : Nat} (ha : ¬ (a ≠ CELL_IRQ_STAT 7 p ∧ a ≠ ETP_PORT_STAT p ∧ a ≠ ETP_T1_SLEEP p ∧ a ≠ NMC_CH_STAT (16 + p))) : (u.run s).reg a = s.reg a :=
    (h s).reg_eq (Bool.eq_false_iff.mpr fun hp => ha ((offT1_iff p).mp hp))
  simp only [State.t1LinkShown, State.t1Shown, State.get, hoff (a := ETP_PORT_STAT p) (fun hx => hx.2.1 rfl), hoff (a := ETP_T1_SLEEP p) (fun hx => hx.2.2.1 rfl),
    hoff (a := NMC_CH_STAT (16 + p)) (fun hx => hx.2.2.2 rfl), bitAt_of_reg_eq (hoff (a := CELL_IRQ_STAT 7 p) (fun hx => hx.1 rfl))]

variable (p)

theorem keeps_t1Link_raise {i : Nat} (hi : i < 16) (hfit : fieldAt (cellRows 7) 8 i i = true) : Keeps (State.t1LinkShown p) (raiseEtp p i) := fun s => by
  have hb := portCell_bounds p (o := 8) (by decide)
  have hreg {a : Nat} (ha : CELL_IRQ_STAT 7 p ≠ a) : ((raiseEtp p i).run s).reg a = s.reg a := setBit_reg_ne s ha
  have hirq : ((raiseEtp p i).run s).bitAt (CELL_IRQ_STAT 7 p) 16 = s.bitAt (CELL_IRQ_STAT 7 p) 16 := by
    rw [raiseEtp, raiseCell, bitAt_eq, bitAt_eq, setBit_eq, get_set_ne (fits_port p (by decide) (by decide) hfit) (fits_port p (by decide) (by decide) (by decide))
      (.inr (.inl hi))]
  have hne : CELL_IRQ_STAT 7 p ≠ ETP_PORT_STAT p ∧ CELL_IRQ_STAT 7 p ≠ ETP_T1_SLEEP p ∧ CELL_IRQ_STAT 7 p ≠ NMC_CH_STAT (16 + p) := by
    simp only [CELL_IRQ_STAT, ETP_PORT_STAT, ETP_T1_SLEEP, NMC_CH_STAT, unitBase_nmc] at *
    omega
  obtain ⟨h1, h2, h3⟩ := hne
  simp only [State.t1LinkShown, State.t1Shown, State.get, hreg h1, hreg h2, hreg h3, hirq]

/-- A field of the port's status besides LINK_UP. -/
theorem keeps_t1Link_portStat {hi lo : Nat} (hhi : hi < 31) (hfit : fieldAt (cellRows 7) 0x28 hi lo = true) (v : Nat) :
    Keeps (State.t1LinkShown p) (set ⟨ETP_PORT_STAT p, hi, lo⟩ v) := fun s => by
  have hb := portCell_bounds p (o := 0x28) (by decide)
  have hreg {a : Nat} (ha : ETP_PORT_STAT p ≠ a) : ((set ⟨ETP_PORT_STAT p, hi, lo⟩ v).run s).reg a = s.reg a := set_reg_ne _ _ ha
  have hne : ETP_PORT_STAT p ≠ CELL_IRQ_STAT 7 p ∧ ETP_PORT_STAT p ≠ ETP_T1_SLEEP p ∧ ETP_PORT_STAT p ≠ NMC_CH_STAT (16 + p) := by
    simp only [CELL_IRQ_STAT, ETP_PORT_STAT, ETP_T1_SLEEP, NMC_CH_STAT, unitBase_nmc] at *
    omega
  obtain ⟨h1, h2, h3⟩ := hne
  have hlink := get_set_ne (f := ⟨ETP_PORT_STAT p, hi, lo⟩) (g := ETP_PORT_STAT_LINK_UP p) (fits_port p (by decide) (by decide) hfit)
    (fits_port p (by decide) (by decide) (by decide)) (.inr (.inl hhi)) v s
  simp only [State.t1LinkShown, hlink]
  simp only [State.t1Shown, State.get, hreg h2, hreg h3, bitAt_of_reg_eq (hreg h1)]

/-! ## The link goes down -/

/-- What the loss of the link does after the link shows down. -/
def linkLost (p : Nat) : Upd := seqs [
  clrBit ETP_LINK_SUM p, inc (ETP_PORT_STAT_LINK_DOWNS p), raiseEtp p 0,
  lpiLeave p, set (ETP_EEE_STAT_CAPABLE p) 0,
  updSw fun x => { x with out := x.out.map fun e =>
    if e.1 / 8 = p then (e.1, e.2.map fun c => { c with old := true }) else e }]

theorem linkGone_run (s : State) : (linkGone p).run s = (linkLost p).run ((set (ETP_PORT_STAT_LINK_UP p) 0).run s) := by
  simp only [linkGone, linkLost, seqs_cons_run, seqs_nil_run]

theorem keeps_t1Link_linkLost : Keeps (State.t1LinkShown p) (linkLost p) := by
  have hsum : offT1 p ETP_LINK_SUM = true := by
    have hb := portCell_bounds p (o := 0) (by decide)
    rw [offT1_iff]
    simp only [CELL_IRQ_STAT, ETP_PORT_STAT, ETP_T1_SLEEP, NMC_CH_STAT, ETP_LINK_SUM, unitBase_nmc, show unitBase 7 = 0x30000000 by decide] at *
    omega
  exact keeps_seqs ⟨keeps_t1Link_of_within (within_clrBit hsum), keeps_read fun _ => keeps_t1Link_portStat p (by decide) (by decide) _,
    keeps_t1Link_raise p (by decide) (by decide),
    keeps_read fun _ => keeps_whenU fun _ => keeps_seqs ⟨keeps_t1Link_portStat p (by decide) (by decide) _, keeps_t1Link_portStat p (by decide) (by decide) _,
      keeps_t1Link_raise p (by decide) (by decide)⟩,
    keeps_t1Link_of_within (within_set (offT1_cell p (by decide) (by decide) (by decide) (by decide))), keeps_t1Link_of_within (within_upd _)⟩

theorem within_freeCells_offT1 (n : Nat) : Within (offT1 p) (freeCells n) := within_read fun _ => within_set (offT1_switch p (by decide) (by decide))

theorem within_count64_of {q : Nat → Bool} {a : Nat} (h : q a = true) (n : Nat := 1) : Within q (count64 a n) :=
  within_read fun _ => within_seqs ⟨within_setReg h, within_upd _⟩

theorem within_cutAbort_offT1 (fid : Nat) : Within (offT1 p) (cutAbort fid) := by
  have hin (q : Nat) : offT1 p (SWC_IN_CUT_ABORT q) = true := by
    rw [SWC_IN_CUT_ABORT, show unitBase 8 = 0x30100000 by decide]
    exact offT1_switch p (by omega) (by omega)
  have hout (q : Nat) : offT1 p (SWC_OUT_CUT_ABORT q) = true := by
    rw [SWC_OUT_CUT_ABORT, show unitBase 8 = 0x30100000 by decide]
    exact offT1_switch p (by omega) (by omega)
  have hcopies (q : Nat) (test : Nat → SwCopy → Bool) : Within (offT1 p) (dropCopies q (SWC_OUT_CUT_ABORT q) test) :=
    within_forN fun _ _ => within_read fun _ => within_seqs ⟨within_forEach fun _ _ => within_seqs ⟨within_freeCells_offT1 p _, within_upd _, within_count (hout q)⟩,
      within_upd _⟩
  refine within_read fun s => ?_
  split
  · exact within_skip
  · refine within_seqs ⟨within_forN fun q _ => within_seqs ⟨hcopies q _, within_read fun s => ?_⟩, within_count (hin _), within_upd _⟩
    split
    · exact within_whenU (within_seqs ⟨within_freeCells_offT1 p _, within_upd _, within_count (hout q), within_upd _⟩)
    · exact within_skip

/-- What else the loss of the link does: the frames under way are given up. -/
def linkEnds (p : Nat) (s : State) : Upd := seqs [
  match mapGet none s.b.swq.tx p with
  | some c => .seq (txAbort p c) (count64 (ETP_CNT_TX_LINK_ABORT p))
  | none => .skip,
  match s.openFrame p with
  | some id => .seq (macDrop p (ETP_CNT_RX_PHY_ERR p)) (cutAbort id)
  | none => .skip,
  cutEnds p]

theorem within_linkEnds (s : State) : Within (offT1 p) (linkEnds p s) := by
  have hcnt {o : Nat} (ho : o < 0x800) (h8 : o ≠ 8) (h28 : o ≠ 0x28) (h38 : o ≠ 0x38) : Within (offT1 p) (count64 (cellBase 7 p + o)) :=
    within_count64_of (offT1_cell p ho h8 h28 h38)
  refine within_seqs ⟨?_, ?_, within_upd _⟩
  · split
    · exact within_seq (within_seqs ⟨within_freeCells_offT1 p _, within_upd _, within_upd _⟩) (hcnt (by decide) (by decide) (by decide) (by decide))
    · exact within_skip
  · split
    · exact within_seq (within_seq (hcnt (by decide) (by decide) (by decide) (by decide)) (within_upd _)) (within_cutAbort_offT1 p _)
    · exact within_skip

theorem linkDown_of_up {s : State} (h : s.flag (ETP_PORT_STAT_LINK_UP p) = true) : (linkDown p).run s = (linkEnds p s).run ((linkGone p).run s) := by
  simp only [linkDown, linkEnds, Upd.run_read, h, whenU_true, seqs_cons_run, seqs_nil_run] <;> rfl

theorem linkDown_of_down {s : State} (h : s.flag (ETP_PORT_STAT_LINK_UP p) = false) : (linkDown p).run s = s := by
  simp only [linkDown, Upd.run_read, h, whenU_false, Upd.run_skip]

/-- The link is down afterwards; the rest of what the port shows is as before. -/
theorem linkDown_shown (s : State) : ((linkDown p).run s).t1LinkShown p = (0, s.t1Shown p) := by
  cases h : s.flag (ETP_PORT_STAT_LINK_UP p)
  · rw [linkDown_of_down p h, State.t1LinkShown]
    rw [State.flag, bne_eq_false_iff_eq] at h
    rw [h]
  · have hb := portCell_bounds p (o := 0x28) (by decide)
    have hreg {a : Nat} (ha : ETP_PORT_STAT p ≠ a) : ((set (ETP_PORT_STAT_LINK_UP p) 0).run s).reg a = s.reg a := set_reg_ne _ _ ha
    have hne : ETP_PORT_STAT p ≠ CELL_IRQ_STAT 7 p ∧ ETP_PORT_STAT p ≠ ETP_T1_SLEEP p ∧ ETP_PORT_STAT p ≠ NMC_CH_STAT (16 + p) := by
      simp only [CELL_IRQ_STAT, ETP_PORT_STAT, ETP_T1_SLEEP, NMC_CH_STAT, unitBase_nmc] at *
      omega
    obtain ⟨h1, h2, h3⟩ := hne
    have hlink : ((set (ETP_PORT_STAT_LINK_UP p) 0).run s).get (ETP_PORT_STAT_LINK_UP p) = 0 :=
      (get_set_same (fits_port p (by decide) (by decide) (by decide)) 0 s).trans (Nat.zero_mod _)
    rw [linkDown_of_up p h, keeps_t1Link_of_within (within_linkEnds p s), linkGone_run, keeps_t1Link_linkLost p]
    simp only [State.t1LinkShown, hlink]
    simp only [State.t1Shown, State.get, hreg h2, hreg h3, bitAt_of_reg_eq (hreg h1)]

end

end Sys2Proof.Machine
end

section
/-!
The events of network management (R542 to R549).
-/
namespace Sys2Proof.Machine

/-! ## A port's partner asks for sleep (R546) -/

section
variable (p : Fin 18)

theorem t1PartnerSleepReq_refused {s : State} (hen : s.flag (ETP_T1_SLEEP_TC10_EN p) = true) (hp : s.pwr ≤ 1) (hst : s.get (ETP_T1_SLEEP_STATE p) ≠ 2)
    (hacc : s.flag (ETP_T1_SLEEP_SLEEP_ACCEPT p) = false) (hown : s.get (ETP_T1_SLEEP_STATE p) ≠ 1) : (t1PartnerSleepReq p).run s = (raiseCell 7 p 16).run s := by
  have hst' : (s.get (ETP_T1_SLEEP_STATE p) != 2) = true := bne_iff_ne.mpr hst
  have hown' : (s.get (ETP_T1_SLEEP_STATE p) == 1) = false := beq_eq_false_iff_ne.mpr hown
  simp only [t1PartnerSleepReq, Upd.run_read, hen, decide_eq_true hp, hst', hacc, hown', Bool.and_self, Bool.or_self, whenU_true, whenU_false, Upd.run_seq, Upd.run_skip]

theorem t1PartnerSleepReq_accepted {s : State} (hen : s.flag (ETP_T1_SLEEP_TC10_EN p) = true) (hp : s.pwr ≤ 1) (hst : s.get (ETP_T1_SLEEP_STATE p) ≠ 2)
    (hacc : s.flag (ETP_T1_SLEEP_SLEEP_ACCEPT p) = true ∨ s.get (ETP_T1_SLEEP_STATE p) = 1) :
    (t1PartnerSleepReq p).run s = (t1Asleep p).run ((raiseCell 7 p 16).run s) := by
  have hst' : (s.get (ETP_T1_SLEEP_STATE p) != 2) = true := bne_iff_ne.mpr hst
  have hor : (s.flag (ETP_T1_SLEEP_SLEEP_ACCEPT p) || s.get (ETP_T1_SLEEP_STATE p) == 1) = true := by
    rcases hacc with h | h <;> simp [h]
  simp only [t1PartnerSleepReq, Upd.run_read, hen, decide_eq_true hp, hst', hor, Bool.and_self, whenU_true, Upd.run_seq]

theorem t1Asleep_run (s : State) : (t1Asleep p).run s =
    (raiseCell 7 p 17).run ((linkDown p).run ((set (NMC_CH_STAT_TRX_ASLEEP (16 + p)) 1).run ((set (ETP_T1_SLEEP_STATE p) 2).run s))) := by
  have hwhen (u : State) : (whenU (u.flag (ETP_PORT_STAT_LINK_UP p)) (linkDown p)).run u = (linkDown p).run u := by
    cases h : u.flag (ETP_PORT_STAT_LINK_UP p)
    · rw [whenU_false, Upd.run_skip, linkDown_of_down p h]
    · rw [whenU_true]
  simp only [t1Asleep, seqs_cons_run, seqs_nil_run, Upd.run_read, hwhen]

/-- The registers in which a port's sleep shows are four. -/
theorem t1_regs_ne : CELL_IRQ_STAT 7 p ≠ ETP_T1_SLEEP p ∧ CELL_IRQ_STAT 7 p ≠ ETP_PORT_STAT p ∧ CELL_IRQ_STAT 7 p ≠ NMC_CH_STAT (16 + p) ∧
    ETP_T1_SLEEP p ≠ NMC_CH_STAT (16 + p) := by
  have h8 := portCell_bounds p (o := 8) (by decide)
  have h38 := portCell_bounds p (o := 0x38) (by decide)
  simp only [CELL_IRQ_STAT, ETP_PORT_STAT, ETP_T1_SLEEP, NMC_CH_STAT, unitBase_nmc] at *
  omega

/-- The PHY sleeps, the transceiver sleeps, the link is down; events 16 and 17 show. -/
theorem t1PartnerSleepReq_sleeps {s : State} (hen : s.flag (ETP_T1_SLEEP_TC10_EN p) = true) (hp : s.pwr ≤ 1) (hst : s.get (ETP_T1_SLEEP_STATE p) ≠ 2)
    (hacc : s.flag (ETP_T1_SLEEP_SLEEP_ACCEPT p) = true ∨ s.get (ETP_T1_SLEEP_STATE p) = 1) : let t := (t1PartnerSleepReq p).run s
    t.bitAt (CELL_IRQ_STAT 7 p) 16 = true ∧ t.bitAt (CELL_IRQ_STAT 7 p) 17 = true ∧ t.get (ETP_T1_SLEEP_STATE p) = 2 ∧
      t.flag (NMC_CH_STAT_TRX_ASLEEP (16 + p.val)) = true ∧ t.flag (ETP_PORT_STAT_LINK_UP p) = false := by
  obtain ⟨hi1, hi2, hi3, h13⟩ := t1_regs_ne p
  have hfit16 : (⟨CELL_IRQ_STAT 7 p, 16, 16⟩ : Fld).fits = true := fits_port p (by decide) (by decide) (by decide)
  have hfit17 : (⟨CELL_IRQ_STAT 7 p, 17, 17⟩ : Fld).fits = true := fits_port p (by decide) (by decide) (by decide)
  have hfitS : (ETP_T1_SLEEP_STATE p).fits = true := fits_port p (by decide) (by decide) (by decide)
  have hfitA : (NMC_CH_STAT_TRX_ASLEEP (16 + p)).fits = true := (fits_nmStat ⟨16 + p, by omega⟩).2.1
  generalize hu : (set (NMC_CH_STAT_TRX_ASLEEP (16 + p)) 1).run ((set (ETP_T1_SLEEP_STATE p) 2).run ((raiseCell 7 p 16).run s)) = u
  have hrun : (t1PartnerSleepReq p).run s = (raiseCell 7 p 17).run ((linkDown p).run u) := by
    rw [t1PartnerSleepReq_accepted p hen hp hst hacc, t1Asleep_run, hu]
  have hstate : u.get (ETP_T1_SLEEP_STATE p) = 2 := by
    rw [← hu, get_set_ne_reg (Ne.symm h13), get_set_same hfitS]
    rfl
  have hasleep : u.get (NMC_CH_STAT_TRX_ASLEEP (16 + p)) = 1 := by
    rw [← hu, get_set_same hfitA]
    rfl
  have hirq : u.bitAt (CELL_IRQ_STAT 7 p) 16 = true := by
    rw [← hu, bitAt_of_reg_eq (set_reg_ne _ _ (Ne.symm hi3)), bitAt_of_reg_eq (set_reg_ne _ _ (Ne.symm hi1))]
    exact bitAt_setBit_same hfit16 s
  have hdown := linkDown_shown p u
  rw [State.t1LinkShown, State.t1Shown, State.t1Shown, hstate, hasleep, hirq] at hdown
  generalize (linkDown p).run u = w at hdown hrun
  obtain ⟨hlink, hrest⟩ := Prod.mk.inj hdown
  obtain ⟨hs2, hrest⟩ := Prod.mk.inj hrest
  obtain ⟨ha1, hb16⟩ := Prod.mk.inj hrest
  have hreg {f : Fld} (h : CELL_IRQ_STAT 7 p ≠ f.reg) : ((raiseCell 7 p 17).run w).get f = w.get f := by
    rw [State.get, State.get, raiseCell, setBit_reg_ne w h]
  have hkeep : ((raiseCell 7 p 17).run w).bitAt (CELL_IRQ_STAT 7 p) 16 = w.bitAt (CELL_IRQ_STAT 7 p) 16 := by
    rw [raiseCell, bitAt_eq, bitAt_eq, setBit_eq, get_set_ne hfit17 hfit16 (.inr (.inr (show 16 < 17 by decide)))]
  dsimp only
  rw [hrun]
  refine ⟨hkeep.trans hb16, bitAt_setBit_same hfit17 w, (hreg hi1).trans hs2, ?_, ?_⟩
  · rw [State.flag, hreg hi3, ha1]
    rfl
  · rw [State.flag, hreg hi2, hlink]
    rfl

end

/-! ## A transceiver wakes (R548) -/

section
variable (c : Fin 36)

/-- What a channel does when its transceiver wakes by the bus. -/
def nmBusWake (c : Nat) (s : State) : Upd := whenU (s.nmAvail c && s.nmState c == 0)
  (if s.get (NMC_CH_STAT_IGN_N c) = 0 ∧ ¬ s.flag (NMC_CH_STAT_IGNORE_ALL c) then .seq (set (NMC_CH_STAT_ACTIVE_WAKE c) 0) (nmEnter c 1) else nmEnter c 3)

theorem trxWakes_run (id : Nat) (s : State) : (trxWakes c id false).run s =
    (nmBusWake c s).run ((logAdd 4 c 0 id).run ((raise 15 3).run ((trxAwake c).run s))) := by
  simp only [trxWakes, nmBusWake, Upd.run_read, Bool.false_eq_true, if_false, seqs_cons_run, seqs_nil_run]

theorem trxWake_of_asleep {id : Option (Fin 4294967296)} {tx : Bool} {s : State} (h : s.flag (NMC_CH_STAT_TRX_ASLEEP c) = true) (hp : s.pwr ≤ 1) (hd : s.pdPhase ≠ 3)
    (hby : (if tx then s.flag (BLK_STAT_ENABLED 15) && s.flag (NMC_CH_CFG_TX_WAKE c) && s.nmPending c else decide (8 ≤ c.val) || s.flag (NMC_SWK_STAT_ARMED c)) = true) :
    (trxWake c id tx).run s = (trxWakes c (if tx then 0 else (id.map (·.val)).getD 0) tx).run s := by
  rw [State.pwr] at hp
  have hd' : (s.get PSM_TRANS_STAT_PHASE != 3) = true := bne_iff_ne.mpr hd
  simp only [trxWake, Upd.run_read, h, decide_eq_true hp, hd', hby, Bool.and_self, whenU_true]

/-- What the wake of a transceiver does besides showing it awake. -/
def trxRoused (c : Nat) : Upd := if c < 8 then set (NMC_SWK_STAT_ARMED c) 0 else .read fun s => whenU (decide (16 ≤ c) && decide (c < 34))
  (if s.get (ETP_T1_SLEEP_STATE (c - 16)) = 2 then .seq (set (ETP_T1_SLEEP_STATE (c - 16)) 3) (raiseCell 7 (c - 16) 18)
  else whenU (s.get (ETP_T1_SLEEP_STATE (c - 16)) == 1) (set (ETP_T1_SLEEP_STATE (c - 16)) 0))

theorem trxAwake_run (s : State) : (trxAwake c).run s = (trxRoused c).run ((set (NMC_CH_STAT_TRX_ASLEEP c) 0).run s) := by
  rw [trxAwake, Upd.run_seq]
  rfl

/-- It reaches the selective-wake register of a CAN channel or the sleep of a port. -/
theorem within_trxRoused {q : Nat → Bool} (hswk : c.val < 8 → q (NMC_SWK_STAT c) = true)
    (hport : ∀ o < 2048, c.val < 34 → q (cellBase 7 (c - 16) + o) = true) : Within q (trxRoused c) := by
  unfold trxRoused
  split
  next h => exact within_set (hswk h)
  next =>
    refine within_read fun s => ?_
    by_cases h34 : c.val < 34
    · exact within_whenU (within_ite (within_seq (within_set (hport _ (by decide) h34)) (within_setBit (hport _ (by decide) h34)))
        (within_whenU (within_set (hport _ (by decide) h34))))
    · rw [decide_eq_false h34, Bool.and_false]
      exact within_skip

theorem keeps_nmShown_trxRoused : Keeps (State.nmShown c 3) (trxRoused c) := by
  refine keeps_nmShown_of_within (within_trxRoused c (fun h => ?_) fun o ho h => ?_)
  · rw [show NMC_SWK_STAT c = unitBase 15 + (0xE14 + 32 * c.val) from Nat.add_assoc _ _ _]
    exact offNmCh_nmc (by omega) (by omega)
  · refine offNmCh_of_offPage c.isLt ?_
    rw [Bool.eq_false_iff]
    intro h15
    have hoff := offPage_of_nmc h15 (show 7 ≠ 15 by decide)
    rw [onPage_etp (by omega) ho] at hoff
    cases hoff

theorem within_trxAwake : Within (fun a => onPage 15 a || onPage 7 a) (trxAwake c) := by
  refine within_seq (within_set (by rw [onPage_nmStat, Bool.true_or])) (within_trxRoused c (fun h => ?_) fun o ho h => ?_)
  · rw [show NMC_SWK_STAT c = unitBase 15 + (0xE14 + 32 * c.val) from Nat.add_assoc _ _ _, onPage_unitBase 15 (by omega), Bool.true_or]
  · rw [onPage_etp (by omega) ho, Bool.or_true]

theorem trxAwake_shown (s : State) : ((trxAwake c).run s).nmState c = s.nmState c ∧ ((trxAwake c).run s).get (NMC_CH_STAT_TRX_ASLEEP c) = 0 := by
  obtain ⟨hfits, hfitA, -, -⟩ := fits_nmStat c
  have h := keeps_nmShown_trxRoused c ((set (NMC_CH_STAT_TRX_ASLEEP c) 0).run s)
  rw [← trxAwake_run] at h
  obtain ⟨hstate, h⟩ := Prod.mk.inj h
  obtain ⟨hasleep, -⟩ := Prod.mk.inj h
  refine ⟨?_, ?_⟩
  · rw [hstate, State.nmState, get_set_apart (apart_nmState c).2]
    rfl
  · rw [hasleep, get_set_same hfitA, Nat.zero_mod]

/-- Before what the channel does, the transceiver is awake, the state is as before, and event 3 shows. -/
theorem trxWoken_shown (id : Nat) (s : State) :
    ((logAdd 4 c 0 id).run ((raise 15 3).run ((trxAwake c).run s))).nmShown c 3 = (s.nmState c, 0, true) := by
  obtain ⟨hstate, hasleep⟩ := trxAwake_shown c s
  have hne : BLK_IRQ_STAT 15 ≠ NMC_CH_STAT c := by
    simp only [BLK_IRQ_STAT, NMC_CH_STAT]
    omega
  have hirq := raise_bitAt_same (k := 15) (i := 3) (by decide) ((trxAwake c).run s)
  rw [keeps_nmShown_logAdd (by decide) (by decide), State.nmShown, hirq, State.nmState, get_raise hne, get_raise hne, hasleep, ← hstate]
  rfl

theorem trxWakes_shown (id : Nat) (s : State) : ((trxWakes c id false).run s).get (NMC_CH_STAT_TRX_ASLEEP c) = 0 ∧
    ((trxWakes c id false).run s).bitAt (BLK_IRQ_STAT 15) 3 = true ∧ (s.nmAvail c = true → s.nmState c = 0 → ((trxWakes c id false).run s).nmState c =
      if s.get (NMC_CH_STAT_IGN_N c) = 0 ∧ s.flag (NMC_CH_STAT_IGNORE_ALL c) = false then 1 else 3) := by
  have hwoken := trxWoken_shown c id s
  rw [trxWakes_run]
  generalize (logAdd 4 c 0 id).run ((raise 15 3).run ((trxAwake c).run s)) = u at hwoken
  obtain ⟨hstate, hrest⟩ := Prod.mk.inj hwoken
  obtain ⟨hasleep, hirq⟩ := Prod.mk.inj hrest
  have henter {st : Nat} (h0 : st ≠ 0) (h8 : st < 8) (v : State) (hva : v.get (NMC_CH_STAT_TRX_ASLEEP c) = 0) (hvi : v.bitAt (BLK_IRQ_STAT 15) 3 = true) :
      ((nmEnter c st).run v).get (NMC_CH_STAT_TRX_ASLEEP c) = 0 ∧ ((nmEnter c st).run v).bitAt (BLK_IRQ_STAT 15) 3 = true ∧ ((nmEnter c st).run v).nmState c = st := by
    obtain ⟨hs, ha, hb⟩ := nmEnter_shown c (i := 3) h0 h8 (by decide) (by decide) (by decide) v
    exact ⟨ha.trans hva, hb.trans hvi, hs⟩
  rw [nmBusWake]
  by_cases hav : s.nmAvail c = true ∧ s.nmState c = 0
  · obtain ⟨havail, hzero⟩ := hav
    rw [havail, hzero, beq_self_eq_true, Bool.and_self, whenU_true]
    by_cases hign : s.get (NMC_CH_STAT_IGN_N c) = 0 ∧ s.flag (NMC_CH_STAT_IGNORE_ALL c) = false
    · have hact : ∀ c : Fin 36, (NMC_CH_STAT_ACTIVE_WAKE c).apart (NMC_CH_STAT_TRX_ASLEEP c) = true := by decide
      have hne : NMC_CH_STAT c ≠ BLK_IRQ_STAT 15 := by
        simp only [NMC_CH_STAT, BLK_IRQ_STAT]
        omega
      obtain ⟨ha, hb, hs⟩ := henter (st := 1) (by decide) (by decide) ((set (NMC_CH_STAT_ACTIVE_WAKE c) 0).run u)
        (by rw [get_set_apart (hact c), hasleep]) (by rw [bitAt_of_reg_eq (set_reg_ne _ _ hne), hirq])
      rw [if_pos (by rw [hign.2]; exact ⟨hign.1, Bool.false_ne_true⟩), Upd.run_seq]
      exact ⟨ha, hb, fun _ _ => by rw [hs, if_pos hign]⟩
    · obtain ⟨ha, hb, hs⟩ := henter (st := 3) (by decide) (by decide) u hasleep hirq
      rw [if_neg (by rwa [Bool.not_eq_true])]
      exact ⟨ha, hb, fun _ _ => by rw [hs, if_neg hign]⟩
  · have hoff : (s.nmAvail c && s.nmState c == 0) = false := by
      refine Bool.eq_false_iff.mpr fun h => hav ?_
      simpa only [Bool.and_eq_true, beq_iff_eq] using h
    rw [hoff, whenU_false, Upd.run_skip]
    exact ⟨hasleep, hirq, fun h1 h2 => absurd ⟨h1, h2⟩ hav⟩

theorem within_logAdd_nmc (kind ch low w1 : Nat) : Within (onPage 15) (logAdd kind ch low w1) :=
  within_read fun _ => within_ite (within_seq (within_set (by decide)) (within_raise 15 5)) (within_seq (within_upd _) within_showLog_nmc)

theorem within_trxWakes_idle (id : Nat) {s : State} (h : s.nmAvail c = false) : Untouched (fun a => onPage 15 a || onPage 7 a) s ((trxWakes c id false).run s) := by
  have hnmc {u : Upd} (hu : Within (onPage 15) u) : Within (fun a => onPage 15 a || onPage 7 a) u := hu.mono fun a ha => by rw [ha, Bool.true_or]
  rw [trxWakes_run, nmBusWake, h, Bool.false_and, whenU_false, Upd.run_skip]
  exact ((within_trxAwake c s).trans (hnmc (within_raise 15 3) _)).trans (hnmc (within_logAdd_nmc _ _ _ _) _)

/-! ## A channel is awake too long (R549) -/

/-- Every register but the channel's awake time and the block's events. -/
def offAwake (c a : Nat) : Bool := a != NMC_CH_AWAKE c && a != BLK_IRQ_STAT 15

theorem offAwake_nmc {o : Nat} (h : o % 64 ≠ 0x34) (h8 : o ≠ 0x10) : offAwake c (unitBase 15 + o) = true := by
  simp only [offAwake, Bool.and_eq_true, bne_iff_ne, NMC_CH_AWAKE, BLK_IRQ_STAT]
  omega

/-- The awake time a channel shows, and event 2. -/
def State.awakeShown (c : Nat) (s : State) : Nat × Bool := (s.reg (NMC_CH_AWAKE c), s.bitAt (BLK_IRQ_STAT 15) 2)

theorem keeps_awakeShown_of_within {u : Upd} (h : Within (offAwake c) u) : Keeps (State.awakeShown c) u := fun s => by
  have hawake : offAwake c (NMC_CH_AWAKE c) = false := by simp only [offAwake, bne_self_eq_false, Bool.false_and]
  have hirq : offAwake c (BLK_IRQ_STAT 15) = false := by simp only [offAwake, bne_self_eq_false, Bool.and_false]
  simp only [State.awakeShown, (h s).reg_eq hawake, bitAt_of_reg_eq ((h s).reg_eq hirq)]

theorem keeps_awakeShown_raise : Keeps (State.awakeShown c) (raise 15 5) := fun s => by
  have hne : BLK_IRQ_STAT 15 ≠ NMC_CH_AWAKE c := by
    simp only [BLK_IRQ_STAT, NMC_CH_AWAKE]
    omega
  have hreg : ((raise 15 5).run s).reg (NMC_CH_AWAKE c) = s.reg (NMC_CH_AWAKE c) := setBit_reg_ne s hne
  rw [State.awakeShown, hreg]
  exact congrArg _ (keeps_bitAt_raise (by decide) (by decide) (by decide) s)

theorem keeps_awakeShown_logAdd (kind ch low w1 : Nat) : Keeps (State.awakeShown c) (logAdd kind ch low w1) := by
  have hshow : Within (offAwake c) showLog := within_read fun _ => within_seq (within_set (offAwake_nmc c (by decide) (by decide)))
    (within_forN fun j hj => within_setReg (by rw [NMC_LOG_HEAD, Nat.add_assoc]; exact offAwake_nmc c (by omega) (by omega)))
  exact keeps_read fun _ => keeps_ite
    (fun _ => keeps_seq (keeps_awakeShown_of_within c (within_set (offAwake_nmc c (by decide) (by decide)))) (keeps_awakeShown_raise c))
    (fun _ => keeps_seq (keeps_awakeShown_of_within c (within_upd _)) (keeps_awakeShown_of_within c hshow))

end

end Sys2Proof.Machine
end

section
/-!
The events of network management, settled.
-/
namespace Sys2Proof.Machine

section
variable (c : Fin 36)

/-- What is ignored of a channel that was awake too long, and its log entry (R549). -/
def maxAwakeIgnores (c ign n : Nat) (all : Bool) (low w : Nat) : Upd :=
  seqs [setReg (NMC_CH_IGN c) ign, set (NMC_CH_STAT_IGN_N c) n, whenU all (set (NMC_CH_STAT_IGNORE_ALL c) 1), logAdd 1 c low w]

theorem keeps_awakeShown_maxAwakeIgnores (ign n : Nat) (all : Bool) (low w : Nat) : Keeps (State.awakeShown c) (maxAwakeIgnores c ign n all low w) := by
  have hch {o : Nat} (ho : o % 64 ≠ 0x34) (h8 : o ≠ 0x10) : offAwake c (unitBase 15 + o) = true := offAwake_nmc c ho h8
  have hstat : offAwake c (NMC_CH_STAT c) = true := by
    rw [NMC_CH_STAT, Nat.add_assoc]
    exact hch (by omega) (by omega)
  have hign : offAwake c (NMC_CH_IGN c) = true := by
    rw [NMC_CH_IGN, Nat.add_assoc]
    exact hch (by omega) (by omega)
  exact keeps_seqs ⟨keeps_awakeShown_of_within c (within_setReg hign), keeps_awakeShown_of_within c (within_set hstat),
    keeps_whenU fun _ => keeps_awakeShown_of_within c (within_set hstat), keeps_awakeShown_logAdd c _ _ _ _⟩

theorem within_maxAwakeIgnores (ign n : Nat) (all : Bool) (low w : Nat) : Within (onPage 15) (maxAwakeIgnores c ign n all low w) :=
  within_seqs ⟨within_setReg (onPage_nmCh (o := 0x30) c.isLt (by decide)), within_set (onPage_nmStat c), within_whenU (within_set (onPage_nmStat c)),
    within_logAdd_nmc _ _ _ _⟩

/-- The event, the time shown, and then what is ignored or logged. -/
theorem maxAwakeReached_run {s : State} (hn : s.nmCounts c = true) (hm : s.flag NMC_CFG_MAX_AWAKE = true) : ∃ tail : Upd,
    (maxAwakeReached c).run s = tail.run ((setReg (NMC_CH_AWAKE c) (if s.chainSize ≤ 8 then min 65535 (60 * min 1440 (s.get NMC_CFG_MAX_AWAKE)) else 0)).run
      ((updNm c fun x => { x with since := some s.now }).run ((raise 15 2).run s))) ∧ Keeps (State.awakeShown c) tail ∧ Within (onPage 15) tail := by
  by_cases h8 : s.chainSize ≤ 8
  · have hrun : ∃ ign n all low w, (maxAwakeReached c).run s = (maxAwakeIgnores c ign n all low w).run
        ((setReg (NMC_CH_AWAKE c) (min 65535 (60 * min 1440 (s.get NMC_CFG_MAX_AWAKE)))).run
          ((updNm c fun x => { x with since := some s.now }).run ((raise 15 2).run s))) := by
      simp only [maxAwakeReached, maxAwakeIgnores, Upd.run_read, hn, hm, Bool.and_self, whenU_true, if_pos h8, seqs_cons_run, seqs_nil_run]
      exact ⟨_, _, _, _, _, rfl⟩
    obtain ⟨ign, n, all, low, w, hrun⟩ := hrun
    rw [if_pos h8]
    exact ⟨_, hrun, keeps_awakeShown_maxAwakeIgnores c _ _ _ _ _, within_maxAwakeIgnores c _ _ _ _ _⟩
  · have hrun : ∃ low w, (maxAwakeReached c).run s = (logAdd 2 c low w).run ((setReg (NMC_CH_AWAKE c) 0).run
        ((updNm c fun x => { x with since := some s.now }).run ((raise 15 2).run s))) := by
      simp only [maxAwakeReached, Upd.run_read, hn, hm, Bool.and_self, whenU_true, if_neg h8, seqs_cons_run, seqs_nil_run, Upd.run_seq]
      exact ⟨_, _, rfl⟩
    obtain ⟨low, w, hrun⟩ := hrun
    rw [if_neg h8]
    exact ⟨_, hrun, keeps_awakeShown_logAdd c _ _ _ _, within_logAdd_nmc _ _ _ _⟩

theorem maxAwakeReached_shown {s : State} (hn : s.nmCounts c = true) (hm : s.flag NMC_CFG_MAX_AWAKE = true) :
    ((maxAwakeReached c).run s).bitAt (BLK_IRQ_STAT 15) 2 = true ∧
      ((maxAwakeReached c).run s).reg (NMC_CH_AWAKE c) = (if s.chainSize ≤ 8 then min 65535 (60 * min 1440 (s.get NMC_CFG_MAX_AWAKE)) else 0) ∧
      Untouched (onPage 15) s ((maxAwakeReached c).run s) := by
  obtain ⟨tail, hrun, hkeep, hin⟩ := maxAwakeReached_run c hn hm
  generalize hv : (if s.chainSize ≤ 8 then min 65535 (60 * min 1440 (s.get NMC_CFG_MAX_AWAKE)) else 0) = v at hrun
  have hlt : v < 2 ^ 32 := by
    rw [← hv]
    split <;> omega
  have hne : NMC_CH_AWAKE c ≠ BLK_IRQ_STAT 15 := by
    simp only [NMC_CH_AWAKE, BLK_IRQ_STAT]
    omega
  have hshown := hkeep ((setReg (NMC_CH_AWAKE c) v).run ((updNm c fun x => { x with since := some s.now }).run ((raise 15 2).run s)))
  rw [← hrun] at hshown
  obtain ⟨hawake, hirq⟩ := Prod.mk.inj hshown
  refine ⟨?_, ?_, ?_⟩
  · rw [hirq, bitAt_of_reg_eq (setReg_reg_ne _ _ hne), updNm, upd_bitAt]
    exact raise_bitAt_same (by decide) s
  · rw [hawake, reg_setReg_whole (whole_nmAwake c), Nat.mod_eq_of_lt hlt]
  · rw [hrun]
    exact (((within_raise 15 2 s).trans (within_upd _ _)).trans (within_setReg (onPage_nmCh (o := 0x34) c.isLt (by decide)) _)).trans (hin _)

/-! ## Messages and timers (R542, R544) -/

theorem nmMsgCycle_run {s : State} (ha : s.nmAvail c = true) (hst : s.nmState c = 1 ∨ s.nmState c = 2) : (nmMsgCycle c).run s = (nmSend c).run s := by
  have hor : (s.nmState c == 1 || s.nmState c == 2) = true := by
    rcases hst with h | h <;> simp [h]
  simp only [nmMsgCycle, Upd.run_read, ha, hor, Bool.and_self, whenU_true]

/-- A message on a port whose link is down fails. -/
theorem nmSend_of_linkDown {s : State} (h16 : 16 ≤ c.val) (hp : s.powerDown = false) (hl : s.flag (ETP_PORT_STAT_LINK_UP (c.val - 16)) = false) :
    (nmSend c).run s = (raise 15 7).run ((inc (NMC_CH_CNT_TX_FAIL c)).run s) := by
  have hlt : ¬ c.val < 16 := by omega
  simp only [nmSend, Upd.run_read, hp, hl, hlt, Bool.not_false, whenU_true, Bool.false_eq_true, not_false_eq_true, if_true, if_false, Upd.run_seq]

end

end Sys2Proof.Machine

open Sys2Proof Sys2Proof.Machine

/-- Settles O27: the states of a channel by their entries, and the sleep and the wake of transceivers by what the rest of the work leaves of what they show. -/
theorem networkManagementEvents : Obligations.NetworkManagementEvents := by
  have hnone {c : Instr} {u : Upd} {s : State} (hc : Completes c s (u.run s)) (h : u.run s = s) : Does c .skip (fun _ => false) s :=
    does_of_completes hc h within_skip
  refine ⟨?sends, ?fails, ?repeats, ?timer, ?sleeps, ?handshake, ?partner, ?awake, ?woken, ?byTx, ?maxAwake⟩
  case sends => exact fun c s hu ha hst => completes_as (completes_of_work rfl hu) (nmMsgCycle_run c ha hst)
  case fails =>
    intro c s hu ha hst h16 hp hl
    refine ⟨_, completes_as (completes_of_work rfl hu) ((nmMsgCycle_run c ha hst).trans (nmSend_of_linkDown c h16 hp hl)), raise_bitAt_same (by decide) _, ?_⟩
    exact (within_inc (onPage_nmCh (o := 0x3C) c.isLt (by decide)) s).trans (within_raise 15 7 _)
  case repeats =>
    intro c s ha hst
    refine completes_as (u := nmRepeatExpiry c) (completes_of_finish rfl) ?_
    simp only [nmRepeatExpiry, Upd.run_read, ha, hst, beq_self_eq_true, Bool.and_self, whenU_true]
  case timer =>
    intro c s ha hst
    have hrun : (nmTimerExpiry c).run s = (nmEnter c 4).run s := by
      simp only [nmTimerExpiry, Upd.run_read, ha, hst, beq_self_eq_true, Bool.and_self, whenU_true]
    obtain ⟨hstate, -, -⟩ := nmEnter_shown c (i := 3) (st := 4) (by decide) (by decide) (by decide) (by decide) (by decide) s
    exact ⟨_, completes_as (completes_of_finish rfl) hrun, hstate, nmEnter_irq c (by decide) (by decide) s, within_nmEnter_quiet c (by decide) (by decide) s⟩
  case sleeps =>
    intro c s ha hst
    refine completes_as (u := nmWaitSleepExpiry c) (completes_of_finish rfl) ?_
    simp only [nmWaitSleepExpiry, Upd.run_read, ha, hst, beq_self_eq_true, Bool.and_self, whenU_true]
  case handshake =>
    intro p s hst
    have hrun : (t1SleepHandshakeFail p).run s = (raiseCell 7 p 19).run ((set (ETP_T1_SLEEP_STATE p) 0).run s) := by
      simp only [t1SleepHandshakeFail, Upd.run_read, hst, beq_self_eq_true, whenU_true, Upd.run_seq]
    obtain ⟨hne, -, -, -⟩ := t1_regs_ne p
    have hp := p.isLt
    refine ⟨_, completes_as (completes_of_finish rfl) hrun, ?_, bitAt_setBit_same (fits_port p (by decide) (by decide) (by decide)) _, ?_⟩
    · have hreg (u : State) : ((raiseCell 7 p 19).run u).get (ETP_T1_SLEEP_STATE p) = u.get (ETP_T1_SLEEP_STATE p) := by
        rw [State.get, State.get, raiseCell, setBit_reg_ne _ hne]
      rw [hreg, get_set_same (fits_port p (by decide) (by decide) (by decide))]
      rfl
    · exact (within_set (onPage_etp (by omega) (by decide)) s).trans (within_setBit (onPage_etp (by omega) (by decide)) _)
  case partner =>
    intro p s hen hp hst
    have hlt := p.isLt
    refine ⟨fun hacc hown => ?_, fun hacc => ⟨_, completes_of_finish rfl, t1PartnerSleepReq_sleeps p hen hp hst hacc⟩⟩
    exact does_of_completes (completes_of_finish rfl) (t1PartnerSleepReq_refused p hen hp hst hacc hown) (within_setBit (onPage_etp (by omega) (by decide)))
  case awake =>
    intro c id tx s h
    refine hnone (completes_of_finish rfl) ?_
    simp only [trxWake, Upd.run_read, h, Bool.false_and, whenU_false, Upd.run_skip]
  case woken =>
    intro c id s h hp hd hby
    have hby' : (decide (8 ≤ c.val) || s.flag (NMC_SWK_STAT_ARMED c)) = true := by
      simpa only [Bool.or_eq_true, decide_eq_true_eq] using hby
    have hrun := trxWake_of_asleep c (id := id) (tx := false) h hp hd (by simpa only [Bool.false_eq_true, if_false] using hby')
    rw [if_neg Bool.false_ne_true] at hrun
    obtain ⟨hawake, hirq, hstate⟩ := trxWakes_shown c ((id.map (·.val)).getD 0) s
    refine ⟨_, completes_as (completes_of_finish rfl) hrun, by rw [State.flag, hawake]; rfl, hirq, hstate, fun hav => within_trxWakes_idle c _ hav⟩
  case byTx =>
    intro c id s h hp hd hen hpend
    refine ⟨fun htx => completes_as (completes_of_finish rfl) (trxWake_of_asleep c (id := id) (tx := true) h hp hd ?_), fun htx => hnone (completes_of_finish rfl) ?_⟩
    · rw [if_pos rfl, hen, htx, hpend]
      rfl
    · simp only [trxWake, Upd.run_read, htx, if_true, Bool.and_false, Bool.false_and, whenU_false, Upd.run_skip]
  case maxAwake => exact fun c s hn hm => ⟨_, completes_of_finish rfl, maxAwakeReached_shown c hn hm⟩

end

section
/-!
The unmask of a delivery entry (R621): at entry 3 the write reaches the block header's LOCK, whose offset the entry's word 1 shares.
-/
namespace Sys2Proof.Machine

/-- Bit 0 of the word 1 of entry 3 of instance 0 is set, and a word is listed at 0x2B40100C, where no register lies but where the header's
status word of the delivery page would. -/
def strayHeader : State := { State.reset with regs := [(0x2B40100C, 1#32), (IOM_DELIV1 0 3, 1#32)] }

/-- What the entry's word 1 is to hold after the unmask. -/
def strayUnmasked : Nat := withBits (strayHeader.reg (IOM_DELIV1 0 3)) 30 30 0

/-- The effect that the unmask is said to have. -/
def strayStored : Upd := .seq (seqs [stored (IOM_DELIV1 0 3) strayUnmasked, delivHook 0 3 strayUnmasked]) (answer (okResp []))

theorem strayHeader_accepts : strayHeader.accepts 1 (IOM_DELIV1 0 3) strayUnmasked = true := by decide

/-- A write that is stored leaves the stray word. -/
theorem strayStored_keeps : (settle.run (strayStored.run strayHeader)).reg 0x2B40100C = 1 := by decide +kernel

/-- The command does not: the header's hook of offset 0x34 writes LOCKED, at the address of the stray word. -/
theorem deliveryUnmask_drops : (settle.run ((deliveryUnmask 1 0 3).run strayHeader)).reg 0x2B40100C = 0 := by decide +kernel

/-- The stray word is gone after the command, and there after the effect claimed. -/
theorem not_writesAll_strayUnmask : ¬ WritesAll (.deliveryUnmask 1 0 3) 1 (IOM_DELIV1 0 3) strayUnmasked
    (seqs [stored (IOM_DELIV1 0 3) strayUnmasked, delivHook 0 3 strayUnmasked]) strayHeader := by
  intro h
  have hclaim : Completes (.deliveryUnmask 1 0 3) strayHeader (strayStored.run strayHeader) := h strayHeader_accepts
  have hdone : Completes (.deliveryUnmask 1 0 3) strayHeader ((deliveryUnmask 1 0 3).run strayHeader) := completes_of_finish rfl
  have hsame := Host.Outcome.next.inj (hdone.symm.trans hclaim)
  have hreg := congrArg (·.reg 0x2B40100C) hsame
  rw [deliveryUnmask_drops, strayStored_keeps] at hreg
  cases hreg

end Sys2Proof.Machine

open Sys2Proof Sys2Proof.Machine

/-- Refutes O51: the write of DELIV1 of entry 3 with bit 0 set also reaches the header's LOCK hook, as in `strayHeader`. -/
theorem not_instanceMigrationAndUpdateWrites : ¬ Obligations.InstanceMigrationAndUpdateWrites := by
  rintro ⟨-, -, -, -, hunmask, -⟩
  exact not_writesAll_strayUnmask (hunmask 1 0 3 strayHeader)

end

section
/-!
The operations of a load: what they write on the pages of its die, and what they leave there. A footprint that admits the die's registers
and the cell pages of its channels but the raw sample admits every operation of a load; beside, none changes the sums of the millisecond's
samples.
-/
namespace Sys2Proof.Machine

/-! ## Steps that leave the samples of the channels -/

/-- The wire temperature of a channel and the sums of the millisecond's samples. -/
def Chan.samples (c : Chan) : Nat × Nat × Nat × Nat := (c.t, c.num, c.sum, c.sq)

/-- From `s` to `t` at most registers of `p` change, and no channel's samples of the millisecond (R294, R312). -/
structure Calm (p : Nat → Bool) (s t : State) : Prop where
  untouched : Untouched p s t
  samples : ∀ g, (t.chan g).samples = (s.chan g).samples

theorem Calm.refl (p : Nat → Bool) (s : State) : Calm p s s := ⟨Untouched.refl p s, fun _ => rfl⟩

theorem Calm.trans {p : Nat → Bool} {s t u : State} (h : Calm p s t) (h' : Calm p t u) : Calm p s u :=
  ⟨h.untouched.trans h'.untouched, fun g => (h'.samples g).trans (h.samples g)⟩

/-- Every run of `u` is such a step. -/
def Calms (p : Nat → Bool) (u : Upd) : Prop := ∀ s, Calm p s (u.run s)

section
variable {p : Nat → Bool}

theorem Calms.within {u : Upd} (h : Calms p u) : Within p u := fun s => (h s).untouched

def AllCalm (p : Nat → Bool) : List Upd → Prop
  | [] => True
  | [u] => Calms p u
  | u :: l => Calms p u ∧ AllCalm p l

theorem allCalm_cons {u : Upd} {l : List Upd} : AllCalm p (u :: l) ↔ Calms p u ∧ AllCalm p l := by
  cases l with
  | nil => exact ⟨fun h => ⟨h, trivial⟩, fun h => h.1⟩
  | cons v l => exact Iff.rfl

theorem calms_skip : Calms p .skip := Calm.refl p

theorem calms_seq {u v : Upd} (hu : Calms p u) (hv : Calms p v) : Calms p (.seq u v) := fun s => (hu s).trans (hv _)

theorem calms_read {k : State → Upd} (h : ∀ s, Calms p (k s)) : Calms p (.read k) := fun s => h s s

theorem calms_seqs {l : List Upd} (h : AllCalm p l) : Calms p (seqs l) := by
  induction l with
  | nil => exact calms_skip
  | cons u l ih =>
    obtain ⟨hu, hl⟩ := allCalm_cons.mp h
    exact calms_seq hu (ih hl)

theorem calms_whenU {c : Bool} {u : Upd} (h : Calms p u) : Calms p (whenU c u) := by
  cases c
  · exact calms_skip
  · exact h

theorem calms_ite {c : Prop} [Decidable c] {u v : Upd} (hu : Calms p u) (hv : Calms p v) : Calms p (if c then u else v) := by
  split
  · exact hu
  · exact hv

theorem calms_forEach {α : Type} {l : List α} {f : α → Upd} (h : ∀ x ∈ l, Calms p (f x)) : Calms p (forEach l f) := by
  induction l with
  | nil => exact calms_skip
  | cons x l ih => exact calms_seq (h x List.mem_cons_self) (ih fun y hy => h y (List.mem_cons_of_mem x hy))

/-- A change of the records beside the channels'. -/
theorem calms_upd {f : Blocks → Blocks} (h : ∀ b, (f b).lsw.ch = b.lsw.ch) : Calms p (upd f) := fun s =>
  ⟨within_upd f s, fun g => by
    have e : ((upd f).run s).chan g = s.chan g := congrArg (mapGet ({} : Chan) · g) (h s.b)
    rw [e]⟩

theorem calms_updChan (g : Nat) {f : Chan → Chan} (h : ∀ c, (f c).samples = c.samples) : Calms p (updChan g f) := fun s =>
  ⟨within_upd _ s, fun _ => keeps_chan Chan.samples h s⟩

theorem calms_setReg {a v : Nat} (h : p a = true) : Calms p (setReg a v) := fun s => ⟨within_setReg h s, fun _ => rfl⟩

theorem calms_set {f : Fld} {v : Nat} (h : p f.reg = true) : Calms p (set f v) := calms_read fun _ => calms_setReg h
theorem calms_setBit {a i : Nat} (h : p a = true) : Calms p (setBit a i) := calms_read fun _ => calms_setReg h
theorem calms_clrBit {a i : Nat} (h : p a = true) : Calms p (clrBit a i) := calms_read fun _ => calms_setReg h
theorem calms_putBit {a i : Nat} {b : Bool} (h : p a = true) : Calms p (putBit a i b) := calms_read fun _ => calms_setReg h
theorem calms_inc {f : Fld} {n : Nat} (h : p f.reg = true) : Calms p (inc f n) := calms_read fun _ => calms_set h
theorem calms_dec {f : Fld} {n : Nat} (h : p f.reg = true) : Calms p (dec f n) := calms_read fun _ => calms_set h

theorem calms_free {k : Nat → Upd} (h : ∀ v, Calms p (k v)) : Calms p (free k) :=
  calms_read fun _ => calms_seq (calms_upd fun _ => rfl) (h _)

theorem calms_rounded {num den : Nat} {k : Nat → Upd} (h : ∀ v, Calms p (k v)) : Calms p (rounded num den k) :=
  calms_ite (h _) (calms_free fun _ => h _)

end

/-! ## The registers of a die -/

/-- `p` admits what an operation of a load of die `d` writes. -/
structure DieFoot (p : Nat → Bool) (d : Nat) : Prop where
  block : ∀ o < 0x1000, p (unitBase (16 + d) + o) = true
  cell : ∀ x < 64, x / 16 = d → ∀ o < 0x100, o ≠ 0x5C → p (lswCell x + o) = true

theorem calms_latchModes {p : Nat → Bool} (l : Nat) : Calms p (latchModes l) := calms_read fun _ => calms_updChan _ (fun _ => rfl)

section
variable {p : Nat → Bool} {l : Nat} (hl : l < 64) (hp : DieFoot p (l / 16))
include hl hp

theorem own_admitted {o : Nat} (ho : o < 0x100 ∧ o ≠ 0x5C) : p (lswCell l + o) = true := hp.cell l hl rfl o ho.1 ho.2

/-! ## Status, diagnostics, compensation -/

theorem members_die {s : State} {x : Nat} (h : x ∈ s.members l) : x < 64 ∧ x / 16 = l / 16 := by
  rcases mem_members h with rfl | ⟨rfl, _⟩ <;> omega

theorem member_admitted {s : State} {x o : Nat} (h : x ∈ s.members l) (ho : o < 0x100 ∧ o ≠ 0x5C) : p (lswCell x + o) = true := by
  obtain ⟨hx, hd⟩ := members_die hl hp h
  exact hp.cell x hx hd o ho.1 ho.2

theorem calms_raiseCh (i : Nat) : Calms p (raiseCh l i) :=
  calms_seq (calms_setBit (hp.block _ (by decide))) (calms_setBit (own_admitted hl hp (by decide)))

theorem calms_testAbandon : Calms p (testAbandon l) :=
  calms_read fun _ => calms_whenU (calms_seqs ⟨calms_updChan _ (fun _ => rfl), calms_set (own_admitted hl hp (by decide)),
    calms_set (own_admitted hl hp (by decide)), calms_inc (hp.block _ (by decide)), calms_inc (own_admitted hl hp (by decide)),
    calms_clrBit (hp.block _ (by decide))⟩)

theorem calms_compUpdate : Calms p (compUpdate l) :=
  calms_read fun _ => calms_seqs ⟨calms_updChan _ (fun _ => rfl), calms_whenU (calms_raiseCh hl hp 20),
    calms_set (own_admitted hl hp (by decide))⟩

theorem calms_showCh : Calms p (showCh l) :=
  calms_read fun _ => calms_seqs ⟨calms_setReg (own_admitted hl hp (by decide)), calms_set (own_admitted hl hp (by decide)),
    calms_set (own_admitted hl hp (by decide)), calms_putBit (own_admitted hl hp (by decide)), calms_putBit (hp.block _ (by decide)),
    calms_putBit (hp.block _ (by decide)), calms_putBit (hp.block 0x204 (by decide))⟩

theorem calms_showLoad : Calms p (showLoad l) := calms_read fun _ => calms_forEach fun x hx => by
  obtain ⟨hlt, hd⟩ := members_die hl hp hx
  exact calms_showCh hlt (hd ▸ hp)

/-! ## Turning off and on -/

theorem calms_predict {i0 : Nat} {k : Bool → Upd} (h : ∀ b, Calms p (k b)) : Calms p (predict l i0 k) :=
  calms_read fun _ => calms_ite (calms_free fun _ => calms_seqs ⟨calms_set (own_admitted hl hp (by decide)), h _⟩)
    (calms_rounded fun _ => calms_seq (calms_set (own_admitted hl hp (by decide))) (h _))

theorem calms_beginRamp (b : Bool) : Calms p (beginRamp l b) :=
  calms_seqs ⟨calms_updChan _ (fun _ => rfl), calms_inc (hp.block _ (by decide)), calms_whenU (calms_raiseCh hl hp 11)⟩

theorem calms_turnOff (how : How) (trip : Bool) : Calms p (turnOff l how trip) := by
  refine calms_read fun s => ?_
  dsimp only
  split
  · exact calms_updChan _ (fun _ => rfl)
  · exact calms_predict hl hp fun _ => calms_seqs ⟨calms_updChan _ (fun _ => rfl),
      calms_ite (calms_beginRamp hl hp _) (calms_updChan _ (fun _ => rfl)),
      calms_forEach fun _ hx => calms_set (member_admitted hl hp hx (by decide)), calms_set (own_admitted hl hp (by decide))⟩
  · exact calms_seqs ⟨calms_updChan _ (fun _ => rfl), calms_whenU (calms_updChan _ (fun _ => rfl))⟩

theorem calms_turnOn : Calms p (turnOn l) :=
  calms_read fun _ => calms_ite (calms_updChan _ (fun _ => rfl)) (calms_seqs ⟨calms_testAbandon hl hp,
    calms_updChan _ (fun _ => rfl), calms_forEach fun _ _ => calms_whenU (calms_updChan _ (fun _ => rfl)),
    calms_compUpdate hl hp, calms_set (own_admitted hl hp (by decide))⟩)

theorem calms_enterSafe : Calms p (enterSafe l) := by
  refine calms_read fun s => calms_whenU (calms_seqs ⟨calms_updChan _ (fun _ => rfl), ?_, calms_showLoad hl hp⟩)
  split
  · exact calms_whenU (calms_seqs ⟨calms_whenU (calms_latchModes l), calms_updChan _ (fun _ => rfl),
      calms_ite (calms_turnOn hl hp) (calms_ite (calms_compUpdate hl hp) (calms_updChan _ (fun _ => rfl)))⟩)
  · exact calms_skip
  · exact calms_turnOff hl hp _ _

theorem calms_restart : Calms p (restart l) :=
  calms_read fun _ => calms_seqs ⟨calms_dec (own_admitted hl hp (by decide)), calms_updChan _ (fun _ => rfl),
    calms_set (own_admitted hl hp (by decide)), calms_turnOn hl hp, calms_showLoad hl hp⟩

/-! ## Energies and windows -/

theorem calms_clampEnergy (uj : Nat) (clamped : Bool) : Calms p (clampEnergy l uj clamped) :=
  calms_rounded fun _ => calms_seqs ⟨calms_set (own_admitted hl hp (by decide)), calms_inc (own_admitted hl hp (by decide)),
    calms_whenU (calms_updChan _ (fun _ => rfl)), calms_read fun _ => calms_rounded fun _ => calms_set (own_admitted hl hp (by decide))⟩

theorem calms_windowEnd : Calms p (windowEnd l) :=
  calms_read fun _ => calms_seqs ⟨calms_updChan _ (fun _ => rfl),
    calms_forEach fun _ _ => calms_updChan _ (fun _ => rfl), calms_showLoad hl hp⟩

theorem calms_olonCompare (sum num : Nat) : Calms p (olonCompare l sum num) :=
  calms_read fun _ => calms_whenU (calms_seqs ⟨calms_updChan _ (fun _ => rfl), calms_whenU (calms_seqs
    ⟨calms_set (own_admitted hl hp (by decide)), calms_set (own_admitted hl hp (by decide)), calms_raiseCh hl hp _⟩)⟩)

end

/-! ## Faults and trips -/

/-- `p` admits what a trip of a load of die `d` writes: what its operations write, the fault registers of the MSU, the interrupt register of Glade. -/
structure TripFoot (p : Nat → Bool) (d : Nat) : Prop extends DieFoot p d where
  fault : ∀ a, faultRegs a = true → p a = true
  glade : p 0x50000010 = true

section
variable {p : Nat → Bool} {l : Nat} (hl : l < 64) (hp : TripFoot p (l / 16))
include hp

theorem calms_fcuPend {src : Nat} (h : src < 512) (cls : Nat) : Calms p (fcuPend src cls) :=
  have hf {a : Nat} (h : faultRegs a = true) : p a = true := hp.fault a h
  calms_read fun _ => calms_seqs ⟨calms_setBit (hf (faultRegs_fcuPend (by omega))), calms_setBit (hf (by decide)), calms_set (hf (by decide)),
    calms_set (hf (by decide)), calms_whenU (calms_seq (calms_set (hf (by decide))) (calms_set (hf (by decide))))⟩

theorem calms_dloadFault (g : Nat) : Calms p (dloadFault g) :=
  calms_read fun _ => calms_whenU (calms_setBit hp.glade)

include hl

theorem calms_bucket (cls : Nat) : Calms p (bucket (lswUnit l) (l % 16) cls) :=
  calms_ite calms_skip (calms_ite (calms_inc (own_admitted hl hp.toDieFoot (by decide)))
    (calms_read fun _ => calms_set (own_admitted hl hp.toDieFoot (by decide))))

/-- A fault of the channel's cell is recorded. -/
theorem calms_reportNow {cls : Nat} (hcls : cls < 4) : Calms p (reportNow (lswUnit l) (some (l % 16)) cls none) := by
  refine calms_read fun s => ?_
  have hfin := finalClass_lt hcls s (lswUnit l) (some (l % 16))
  have hu : lswUnit l ≤ 19 := by unfold lswUnit; omega
  have hown {o : Nat} (ho : o < 0x100 ∧ o ≠ 0x5C) : p (lswCell l + o) = true := own_admitted hl hp.toDieFoot ho
  exact calms_seqs ⟨calms_seqs ⟨calms_bucket hl hp cls, calms_setBit (hown (by decide)), calms_whenU (calms_inc (hown (by decide))),
      calms_whenU (calms_set (hown (by decide)))⟩,
    calms_whenU (calms_seq (calms_setBit (hp.block _ (by decide))) (calms_inc (hp.block _ (by decide)))),
    calms_whenU (calms_seqs ⟨calms_skip, calms_fcuPend hp (by omega) _, calms_set (hp.fault _ (by decide))⟩), calms_upd fun _ => rfl⟩

theorem calms_report_channel {cls : Nat} (hcls : cls < 4) : Calms p (report (lswUnit l) (some (l % 16)) cls) :=
  calms_read fun _ => calms_ite (calms_upd fun _ => rfl)
    (calms_reportNow hl hp hcls)

end

theorem calms_tripCnt {p : Nat → Bool} {g : Nat} (hg : g < 64) (hp : DieFoot p (g / 16)) (cause : Nat) : Calms p (inc (tripCnt g cause)) := by
  refine calms_inc ?_
  unfold tripCnt
  split <;> exact own_admitted hg hp (by decide)

/-- A trip of channel `g`: its load turns off, the fault is recorded for the channel (R307, R326). -/
theorem calms_trip {p : Nat → Bool} {g : Nat} (hg : g < 64) (hp : TripFoot p (g / 16)) (cause : Nat) : Calms p (trip g cause) := by
  refine calms_read fun s => ?_
  have hl := lead_lt s hg
  have hd : DieFoot p (s.lead g / 16) := (lead_die s g).symm ▸ hp.toDieFoot
  have hch (x : Nat) (f : Chan → Chan) (h : ∀ c, (f c).samples = c.samples) : Calms p (updChan x f) := calms_updChan x h
  refine calms_seqs ⟨calms_turnOff hl hd _ _, calms_set (own_admitted hg hp.toDieFoot (by decide)),
    calms_forEach fun x _ => hch x _ (fun _ => rfl), calms_tripCnt hg hp.toDieFoot cause, calms_inc (hp.block _ (by decide)),
    calms_raiseCh hg hp.toDieFoot _, calms_whenU (calms_raiseCh hg hp.toDieFoot _), calms_whenU (calms_raiseCh hg hp.toDieFoot _),
    hch _ _ (fun _ => rfl), calms_dloadFault hp g, calms_whenU (calms_dloadFault hp _),
    calms_whenU (calms_raiseCh hg hp.toDieFoot _), calms_report_channel hg hp ?_, calms_showLoad hl hd⟩
  split <;> decide

/-! ## The governor and commands, on all dice -/

section
variable {p : Nat → Bool} (hp : ∀ d < 4, DieFoot p d)
include hp

theorem dieFoot_of {l : Nat} (hl : l < 64) : DieFoot p (l / 16) := hp _ (by omega)

theorem calms_shedLoad {l : Nat} (hl : l < 64) (kind : Shed) (how : How) : Calms p (shedLoad l kind how) :=
  have hd := dieFoot_of hp hl
  calms_seqs ⟨calms_turnOff hl hd _ _, calms_updChan _ (fun _ => rfl), calms_read fun _ => calms_upd fun _ => rfl,
    calms_updChan _ (fun _ => rfl), calms_whenU (calms_seq (calms_raiseCh hl hd _) (calms_inc ((hp 0 (by decide)).block _ (by decide)))),
    calms_showLoad hl hd⟩

theorem calms_admitLoad {l : Nat} (hl : l < 64) : Calms p (admitLoad l) := by
  have hd := dieFoot_of hp hl
  refine calms_read fun s => ?_
  dsimp only
  split
  next ls hls =>
    exact calms_seqs ⟨calms_forEach fun x hx => calms_shedLoad hp (shedOrder_lt (mem_takeUntil hls x hx)) _ _, calms_turnOn hl hd, calms_upd fun _ => rfl⟩
  next => exact calms_seqs ⟨calms_updChan _ (fun _ => rfl), calms_raiseCh hl hd _, calms_inc ((hp 0 (by decide)).block _ (by decide))⟩

theorem calms_apply {l : Nat} (hl : l < 64) (w src : Nat) : Calms p (apply l w src) := by
  have hd := dieFoot_of hp hl
  refine calms_read fun s => calms_seqs ⟨calms_updChan _ (fun _ => rfl), calms_set (own_admitted hl hd (by decide)), calms_ite ?_
    (calms_ite (calms_updChan _ (fun _ => rfl)) (calms_turnOff hl hd _ _))⟩
  split
  · exact calms_seqs ⟨calms_updChan _ (fun _ => rfl), calms_whenU (calms_updChan _ (fun _ => rfl)),
      calms_whenU (calms_compUpdate hl hd)⟩
  · exact calms_ite calms_skip (calms_admitLoad hp hl)
  · exact calms_updChan _ (fun _ => rfl)

theorem calms_applyGated {l : Nat} (hl : l < 64) (src : Nat) : Calms p (applyGated l src) :=
  calms_read fun _ => calms_ite (calms_seq (calms_updChan _ (fun _ => rfl)) (calms_apply hp hl _ _))
    (calms_updChan _ (fun _ => rfl))

theorem calms_gateTry {l : Nat} (hl : l < 64) : Calms p (gateTry l) :=
  have hd := dieFoot_of hp hl
  calms_read fun _ => calms_ite calms_skip (calms_ite (calms_restart hl hd) (calms_ite
    (calms_seq (calms_applyGated hp hl _) (calms_showLoad hl hd)) (calms_ite (calms_seqs ⟨calms_updChan _ (fun _ => rfl),
      calms_whenU (calms_apply hp hl _ _), calms_showLoad hl hd⟩) calms_skip)))

theorem calms_slowSample {g : Nat} (hg : g < 64) (x : SlowSample) : Calms p (slowSample g x) :=
  have hd := dieFoot_of hp hg
  calms_read fun s => calms_seqs ⟨calms_set (own_admitted hg hd (by decide)), calms_set (own_admitted hg hd (by decide)), calms_set (own_admitted hg hd (by decide)),
    calms_gateTry hp (lead_lt s hg)⟩

end

/-! ## The footprints that the statements name -/

theorem dieFoot_onPage {g : Nat} (hg : g < 64) : DieFoot (onPage (lswUnit g)) (g / 16) where
  block o ho := onPage_unitBase _ (by omega)
  cell x hx hd o ho _ := by
    rw [lswCell_eq hx]
    simp only [onPage, unitBase_lswUnit hg, Bool.and_eq_true, decide_eq_true_eq]
    omega

theorem tripFoot_of_onPage {g a : Nat} (h : onPage (lswUnit g) a = true) : tripFoot g a = true := by
  simp only [tripFoot, h, Bool.true_or]

theorem dieFoot_tripFoot {g : Nat} (hg : g < 64) : TripFoot (tripFoot g) (g / 16) where
  block o ho := tripFoot_of_onPage ((dieFoot_onPage hg).block o ho)
  cell x hx hd o ho hne := tripFoot_of_onPage ((dieFoot_onPage hg).cell x hx hd o ho hne)
  fault a h := by simp only [tripFoot, h, Bool.or_true, Bool.true_or]
  glade := by simp only [tripFoot, beq_self_eq_true, Bool.or_true]

theorem dieFoot_lead {p : Nat → Bool} {g : Nat} (hp : DieFoot p (g / 16)) (s : State) : DieFoot p (s.lead g / 16) := (lead_die s g).symm ▸ hp

theorem dieFoot_lswPages {d : Nat} (hd : d < 4) : DieFoot lswPages d where
  block o ho := lswPages_die hd (by omega)
  cell x hx _ o ho _ := lswPages_cell hx ho

end Sys2Proof.Machine
end

section
/-!
Diagnostics of loads (R337 to R343): off-state tests, the on-state detection, a die whose firmware stops.
-/
namespace Sys2Proof.Machine

/-! ## Registers told apart by the low byte of their address -/

/-- The registers at offsets of `offs` on cell pages of channels, and the block registers of dice whose low byte is of `offs`. -/
def lowByte (offs : List Nat) (a : Nat) : Bool := offs.contains (a % 0x100)

theorem lowByte_cell {offs : List Nat} {x o : Nat} (hx : x < 64) (ho : offs.contains (o % 0x100) = true) : lowByte offs (lswCell x + o) = true := by
  rw [lowByte, lswCell_eq hx, show (0x40001000 + 0x100000 * (x / 16) + 256 * (x % 16) + o) % 0x100 = o % 0x100 by omega]
  exact ho

theorem lowByte_cell_false {offs : List Nat} {x o : Nat} (hx : x < 64) (ho : offs.contains (o % 0x100) = false) : lowByte offs (lswCell x + o) = false := by
  rw [lowByte, lswCell_eq hx, show (0x40001000 + 0x100000 * (x / 16) + 256 * (x % 16) + o) % 0x100 = o % 0x100 by omega]
  exact ho

theorem lowByte_block {offs : List Nat} {d o : Nat} (hd : d < 4) (ho : offs.contains (o % 0x100) = true) : lowByte offs (unitBase (16 + d) + o) = true := by
  rw [lowByte, unitBase_lsw d (by omega), show (0x40000000 + 0x100000 * d + o) % 0x100 = o % 0x100 by omega]
  exact ho

theorem lowByte_showLoad {l : Nat} (hl : l < 64) : Within (lowByte [0x04, 0x08, 0x40, 0x7C]) (showLoad l) :=
  within_read fun _ => within_forEach fun x hx => by
    have hx := members_lt hl hx
    exact within_read fun _ => within_seqs ⟨within_setReg (lowByte_cell hx (by decide)), within_set (lowByte_cell hx (by decide)),
      within_set (lowByte_cell hx (by decide)), within_putBit (lowByte_cell hx (by decide)), within_putBit (lowByte_block (by omega) (by decide)),
      within_putBit (lowByte_block (by omega) (by decide)), within_putBit (lowByte_block (by omega) (by decide))⟩

theorem lowByte_raiseCh {offs : List Nat} {l : Nat} (hl : l < 64) (h : offs.contains 0x10 = true ∧ offs.contains 0x08 = true) (i : Nat) :
    Within (lowByte offs) (raiseCh l i) :=
  within_seq (within_setBit (lowByte_block (o := 0x10) (by omega) h.1)) (within_setBit (lowByte_cell (o := 0x08) hl h.2))

/-! ## The end of an off-state test (R337, R340) -/

/-- The result of a test whose conversion reads `v`: between OL_TH and SB_TH an open load, above it a short to the battery. -/
def State.testResult (s : State) (l v : Nat) : Nat := if v < s.olTh l then 1 else if v < s.sbTh l then 2 else 3

/-- The channel's record after a test with result `r`. -/
def Chan.tested (c : Chan) (r : Nat) : Chan :=
  { c with test := false, runOl := if r = 2 then c.runOl + 1 else 0, runSb := if r = 3 then c.runSb + 1 else 0,
           runNotOl := if r = 2 then 0 else c.runNotOl + 1, runNotSb := if r = 3 then 0 else c.runNotSb + 1 }

/-- The test of load `l` on die `d` ends with result `r` at voltage `v`. -/
def testEnds (l d r v : Nat) (c : Chan) : Upd := seqs [
  updChan l fun x => { x with test := false, runOl := (c.tested r).runOl, runSb := (c.tested r).runSb,
                              runNotOl := (c.tested r).runNotOl, runNotSb := (c.tested r).runNotSb },
  clrBit (LSW_DG_STAT d) (l % 16), set (LSW_DG_RESULT_LAST l) r, set (LSW_CH_STATUS0_DG_LAST l) r,
  set (LSW_DG_RESULT_V_TEST l) v, set (LSW_DG_RESULT_AGE_MS l) 0]

/-- The verdicts of the runs of results, with the load's status (R340). -/
def testVerdicts (l d deb : Nat) (c : Chan) : Upd := seqs [
  inc (LSW_DG_CNT_TESTS d),
  verdict l (LSW_CH_STATUS0_OL_OFF l) c.runOl c.runNotOl deb 16 (LSW_DG_EVT_CNT_OL l),
  verdict l (LSW_CH_STATUS0_SB l) c.runSb c.runNotSb deb 17 (LSW_DG_EVT_CNT_SB l),
  showLoad l]

theorem offstateTestDone_run {g : Fin 64} {v : Fin 4096} {s : State} (h : (s.chan (s.lead g)).test = true) :
    (offstateTestDone g v).run s =
      (testVerdicts (s.lead g) (g.val / 16) (max 1 (s.get (LSW_DG_OFF_CFG_DEB (s.lead g)))) ((s.chan (s.lead g)).tested (s.testResult (s.lead g) v))).run
        ((testEnds (s.lead g) (g.val / 16) (s.testResult (s.lead g) v) v (s.chan (s.lead g))).run s) := by
  simp only [offstateTestDone, Upd.run_read, h, whenU_true, testVerdicts, testEnds, Chan.tested, State.testResult, seqs_cons_run, seqs_nil_run]
  rfl

section
variable {l : Nat} (hl : l < 64) (d deb : Nat) (c : Chan)
include hl

theorem calms_verdict {p : Nat → Bool} (hp : DieFoot p (l / 16)) {f cnt : Fld} (hf : f.reg = LSW_CH_STATUS0 l) (hcnt : cnt.reg = LSW_DG_EVT_CNT l)
    (run other irq : Nat) : Calms p (verdict l f run other deb irq cnt) := by
  have hset (v : Nat) : Calms p (set f v) := calms_set (hf ▸ own_admitted hl hp (by decide))
  exact calms_read fun _ => calms_seqs ⟨calms_whenU (calms_seqs ⟨hset _, calms_raiseCh hl hp _, calms_inc (hcnt ▸ own_admitted hl hp (by decide))⟩),
    calms_whenU (calms_seqs ⟨hset _, calms_raiseCh hl hp _⟩)⟩

theorem calms_testVerdicts {p : Nat → Bool} (hp : DieFoot p (l / 16)) : Calms p (testVerdicts l (l / 16) deb c) :=
  calms_seqs ⟨calms_inc (hp.block _ (by decide)), calms_verdict hl deb hp rfl rfl _ _ _, calms_verdict hl deb hp rfl rfl _ _ _,
    calms_showLoad hl hp⟩

theorem calms_testEnds {p : Nat → Bool} (hp : DieFoot p (l / 16)) (r v : Nat) : Calms p (testEnds l (l / 16) r v c) :=
  calms_seqs ⟨calms_updChan _ (fun _ => rfl), calms_clrBit (hp.block _ (by decide)), calms_set (own_admitted hl hp (by decide)),
    calms_set (own_admitted hl hp (by decide)), calms_set (own_admitted hl hp (by decide)), calms_set (own_admitted hl hp (by decide))⟩

theorem lowByte_verdict {offs : List Nat} (h : offs.contains 0x10 = true ∧ offs.contains 0x08 = true) {f cnt : Fld} (hf : lowByte offs f.reg = true)
    (hcnt : lowByte offs cnt.reg = true) (run other irq : Nat) : Within (lowByte offs) (verdict l f run other deb irq cnt) :=
  within_read fun _ => within_seqs ⟨within_whenU (within_seqs ⟨within_set hf, lowByte_raiseCh hl h _, within_inc hcnt⟩),
    within_whenU (within_seqs ⟨within_set hf, lowByte_raiseCh hl h _⟩)⟩

/-- The verdicts and the status lie apart from the test's result. -/
theorem keeps_result_testVerdicts (hd : d < 4) {f : Fld} (hf : f.reg = LSW_DG_RESULT l) : Keeps (·.get f) (testVerdicts l d deb c) := by
  refine keeps_get_of_within (p := lowByte [0x04, 0x08, 0x10, 0x40, 0x7C, 0xBC]) (within_seqs ⟨within_inc (lowByte_block hd (by decide)),
    lowByte_verdict hl deb (by decide) (lowByte_cell hl (by decide)) (lowByte_cell hl (by decide)) _ _ _,
    lowByte_verdict hl deb (by decide) (lowByte_cell hl (by decide)) (lowByte_cell hl (by decide)) _ _ _, (lowByte_showLoad hl).mono ?_⟩)
    (hf ▸ lowByte_cell_false hl (by decide))
  intro a ha
  simp only [lowByte, List.contains_eq_mem, decide_eq_true_eq, List.mem_cons, List.not_mem_nil, or_false] at ha ⊢
  omega

end

theorem keeps_b_verdict {α : Type} {π : Blocks → α} (l run other deb irq : Nat) (f cnt : Fld) : Keeps (π ·.b) (verdict l f run other deb irq cnt) :=
  keeps_read fun _ => keeps_seqs ⟨keeps_whenU fun _ => keeps_seqs ⟨keeps_b_set π _ _, keeps_b_raiseCh _ _, keeps_b_inc _ _⟩,
    keeps_whenU fun _ => keeps_seqs ⟨keeps_b_set π _ _, keeps_b_raiseCh _ _⟩⟩

theorem keeps_chan_testVerdicts (l d deb : Nat) (c : Chan) (x : Nat) : Keeps (·.chan x) (testVerdicts l d deb c) :=
  keeps_seqs (φ := fun s => mapGet ({} : Chan) s.b.lsw.ch x) ⟨keeps_b_inc (π := fun b => mapGet ({} : Chan) b.lsw.ch x) _ _,
    keeps_b_verdict (π := fun b => mapGet ({} : Chan) b.lsw.ch x) _ _ _ _ _ _ _, keeps_b_verdict (π := fun b => mapGet ({} : Chan) b.lsw.ch x) _ _ _ _ _ _ _,
    keeps_b_showLoad (π := fun b => mapGet ({} : Chan) b.lsw.ch x) _⟩

theorem set_chan (f : Fld) (v l : Nat) (s : State) : ((set f v).run s).chan l = s.chan l := (rfl)
theorem clrBit_chan (a i l : Nat) (s : State) : ((clrBit a i).run s).chan l = s.chan l := (rfl)

theorem testEnds_chan (l d r v : Nat) (s : State) : ((testEnds l d r v (s.chan l)).run s).chan l = (s.chan l).tested r := by
  simp only [testEnds, seqs_cons_run, seqs_nil_run, set_chan, clrBit_chan, chan_updChan_same]
  rfl

theorem fits_dgResult : ∀ l : Fin 64, (LSW_DG_RESULT_LAST l).fits = true ∧ (LSW_DG_RESULT_V_TEST l).fits = true ∧ (LSW_DG_RESULT_AGE_MS l).fits = true := by
  decide

/-- The result, the voltage and the age that the end of a test shows. -/
theorem testEnds_result {l : Nat} (hl : l < 64) (d r v : Nat) (c : Chan) (s : State) (hr : r < 8) (hv : v < 4096) :
    ((testEnds l d r v c).run s).get (LSW_DG_RESULT_LAST l) = r ∧ ((testEnds l d r v c).run s).get (LSW_DG_RESULT_V_TEST l) = v ∧
      ((testEnds l d r v c).run s).get (LSW_DG_RESULT_AGE_MS l) = 0 := by
  obtain ⟨hlast, hvt, hage⟩ := fits_dgResult ⟨l, hl⟩
  have hst : (LSW_CH_STATUS0_DG_LAST l).reg ≠ LSW_DG_RESULT l := (show LSW_CH_STATUS0 l ≠ LSW_DG_RESULT l by simp only [LSW_CH_STATUS0, LSW_DG_RESULT]; omega)
  simp only [testEnds, seqs_cons_run, seqs_nil_run]
  generalize (clrBit (LSW_DG_STAT d) (l % 16)).run _ = u
  refine ⟨?last, ?volt, ?age⟩
  case last =>
    rw [get_set_ne hage hlast (.inr (.inl (show 15 < 29 by decide))), get_set_ne hvt hlast (.inr (.inl (show 27 < 29 by decide))), get_set_ne_reg hst, get_set_same hlast]
    exact Nat.mod_eq_of_lt hr
  case volt =>
    rw [get_set_ne hage hvt (.inr (.inl (show 15 < 16 by decide))), get_set_same hvt]
    exact Nat.mod_eq_of_lt hv
  case age => exact get_set_same hage 0 _

/-! ## The obligation -/

theorem State.testResult_lt (s : State) (l v : Nat) : s.testResult l v < 8 := by
  unfold State.testResult
  split
  · decide
  split <;> decide

theorem fits_dgStat : ∀ d : Fin 4, (LSW_DG_STAT_FW_RUN d).fits = true ∧ (LSW_DG_STAT_FW_VER d).fits = true ∧
    (⟨BLK_IRQ_STAT (16 + d), 21, 21⟩ : Fld).fits = true := by decide

theorem dgStat_ne_irq : ∀ d : Fin 4, BLK_IRQ_STAT (16 + d) ≠ LSW_DG_STAT d := by decide

theorem calms_olonFound {p : Nat → Bool} {l : Nat} (hl : l < 64) (hp : DieFoot p (l / 16)) : Calms p (seqs [set (LSW_DG_OLON_STAT_OLON l) 1,
    set (LSW_CH_STATUS0_OL_ON l) 1, inc (LSW_DG_OLON_STAT_OLON_CNT l), inc (LSW_DG_EVT_CNT_OLON l), raiseCh l 18]) :=
  calms_seqs ⟨calms_set (own_admitted hl hp (by decide)), calms_set (own_admitted hl hp (by decide)), calms_inc (own_admitted hl hp (by decide)),
    calms_inc (own_admitted hl hp (by decide)), calms_raiseCh hl hp _⟩

theorem within_dgFwStop (d : Fin 4) : Within (onPage (16 + d.val)) (dgFwStop d) :=
  within_seqs ⟨within_set (onPage_unitBase _ (by decide)), within_set (onPage_unitBase _ (by decide)), within_setBit (onPage_unitBase _ (by decide))⟩

/-- The firmware of a die stops: it neither runs nor has a version, and event 21 says so. -/
theorem dgFwStop_shows (d : Fin 4) (s : State) : ((dgFwStop d).run s).flag (LSW_DG_STAT_FW_RUN d) = false ∧
    ((dgFwStop d).run s).get (LSW_DG_STAT_FW_VER d) = 0 ∧ ((dgFwStop d).run s).bitAt (BLK_IRQ_STAT (16 + d.val)) 21 = true := by
  obtain ⟨hrun, hver, hraise⟩ := fits_dgStat d
  rw [dgFwStop, seqs_cons_run, seqs_cons_run, seqs_cons_run, seqs_nil_run, State.flag, get_raise (dgStat_ne_irq d), get_raise (dgStat_ne_irq d),
    get_set_ne hver hrun (.inr (.inl (show 23 < 31 by decide))), get_set_same hrun, get_set_same hver]
  exact ⟨rfl, Nat.zero_mod _, raise_bitAt_same hraise _⟩

/-- The end of a test: its result, its voltage and an age of 0, the runs of the verdicts. -/
theorem offstateTestDone_shows (g : Fin 64) (v : Fin 4096) (s : State) (h : (s.chan (s.lead g)).test = true) :
    let l := s.lead g; let r := s.testResult l v; let t := (offstateTestDone g v).run s
    t.get (LSW_DG_RESULT_LAST l) = r ∧ t.get (LSW_DG_RESULT_V_TEST l) = v.val ∧ t.get (LSW_DG_RESULT_AGE_MS l) = 0 ∧
      t.chan l = (s.chan l).tested r ∧ Untouched (onPage (lswUnit g)) s t := by
  dsimp only
  have hl := lead_lt s g.isLt
  have hd : s.lead g / 16 = g.val / 16 := lead_die s g
  have hp := dieFoot_lead (dieFoot_onPage g.isLt) s
  obtain ⟨hlast, hvolt, hage⟩ := testEnds_result hl (g.val / 16) (s.testResult (s.lead g) v) v (s.chan (s.lead g)) s (s.testResult_lt _ _) v.isLt
  have hresult {f : Fld} (hf : f.reg = LSW_DG_RESULT (s.lead g)) (deb : Nat) (c : Chan) (u : State) :
      ((testVerdicts (s.lead g) (g.val / 16) deb c).run u).get f = u.get f := keeps_result_testVerdicts hl _ deb c (by omega) hf u
  have hchan (deb : Nat) (c : Chan) (u : State) : ((testVerdicts (s.lead g) (g.val / 16) deb c).run u).chan (s.lead g) = u.chan (s.lead g) :=
    keeps_chan_testVerdicts _ _ deb c _ u
  have hends := (calms_testEnds hl (s.chan (s.lead g)) hp (s.testResult (s.lead g) v) v).within s
  have hshows (deb : Nat) (c : Chan) (u : State) := (calms_testVerdicts hl deb c hp).within u
  rw [hd] at hends
  simp only [hd] at hshows
  rw [offstateTestDone_run h]
  exact ⟨(hresult rfl _ _ _).trans hlast, (hresult rfl _ _ _).trans hvolt, (hresult rfl _ _ _).trans hage,
    (hchan _ _ _).trans (testEnds_chan _ _ _ _ _), hends.trans (hshows _ _ _)⟩

end Sys2Proof.Machine

open Sys2Proof Sys2Proof.Machine

/-- Settles O18: each event runs its own rule; what it writes lies on the page of the load's die, and the verdicts and the status that follow
the result of a test leave that result. -/
theorem loadDiagnosticEvents : Obligations.LoadDiagnosticEvents := by
  unfold Obligations.LoadDiagnosticEvents
  refine ⟨?start, ?done, ?olon, ?stop⟩
  case start =>
    intro g t s l d harm hen hfw htest hidle
    have hl := lead_lt s g.isLt
    have hp := dieFoot_lead (dieFoot_onPage g.isLt) s
    have hd : s.lead g / 16 = g.val / 16 := lead_die s g
    have hdone : Completes (.offstateTestStart g t) s _ := completes_of_work rfl harm
    split
    next hskip =>
      refine does_of_completes hdone ?_ (within_seqs ⟨?_, ?_, ?_⟩)
      · simp only [offstateTestStart, Upd.run_read, show s.flag (LSW_DG_OFF_CFG_EN (s.lead g)) = true from hen,
          show s.flag (LSW_DG_STAT_FW_RUN (g.val / 16)) = true from hfw, show s.testable (s.lead g) t = true from htest,
          show (s.chan (s.lead g)).test = false from hidle, Bool.not_false, Bool.and_true, whenU_true]
        rw [if_pos hskip]
      · exact (calms_set (own_admitted hl hp (by decide))).within
      · exact (calms_set (own_admitted hl hp (by decide))).within
      · exact (calms_inc ((dieFoot_onPage g.isLt).block _ (by decide))).within
    next hrun =>
      refine does_of_completes hdone ?_ (within_seqs ⟨within_upd _, ?_, (calms_showLoad hl hp).within⟩)
      · simp only [offstateTestStart, Upd.run_read, show s.flag (LSW_DG_OFF_CFG_EN (s.lead g)) = true from hen,
          show s.flag (LSW_DG_STAT_FW_RUN (g.val / 16)) = true from hfw, show s.testable (s.lead g) t = true from htest,
          show (s.chan (s.lead g)).test = false from hidle, Bool.not_false, Bool.and_true, whenU_true]
        rw [if_neg hrun]
      · exact (calms_setBit ((dieFoot_onPage g.isLt).block _ (by decide))).within
  case done =>
    intro g v s l c r htest
    obtain ⟨hlast, hvolt, hage, hchan, huntouched⟩ := offstateTestDone_shows g v s htest
    refine ⟨_, completes_of_finish rfl, hlast, hvolt, hage, ?_, ?_, ?_, huntouched⟩
    · rw [hchan]; rfl
    · rw [hchan]; rfl
    · rw [hchan]; rfl
  case olon =>
    intro g s l hrun hen hon hclear
    have hl := lead_lt s g.isLt
    have hp := dieFoot_lead (dieFoot_onPage g.isLt) s
    refine does_of_completes (completes_of_finish rfl) ?_ (calms_olonFound hl hp).within
    simp only [olonDetect, Upd.run_read, show (s.chan (s.lead g)).olonRun = true from hrun,
      show s.flag (LSW_DG_OLON_CFG_OLON_EN (s.lead g)) = true from hen, show s.chState (s.lead g) = 1 from hon,
      show s.flag (LSW_DG_OLON_STAT_OLON (s.lead g)) = false from hclear, beq_self_eq_true, Bool.not_false, Bool.and_true, whenU_true]
    rfl
  case stop =>
    intro d s
    obtain ⟨hrun, hver, hraise⟩ := dgFwStop_shows d s
    exact ⟨_, completes_of_finish rfl, hrun, hver, hraise, within_dgFwStop d s⟩

end

section
/-!
The phases of a load's mode (R281 to R290, R310, R325, R346, R347): PWM periods and on-phases, motor steps, the ends of windows.
-/
namespace Sys2Proof.Machine

/-! ## Views of a channel's record -/

/-- What `ψ` shows of the record of channel `l`. -/
def chanView {α : Type} (ψ : Chan → α) (l : Nat) (b : Blocks) : α := ψ (mapGet {} b.lsw.ch l)

section
variable {α : Type} {ψ : Chan → α} {l : Nat}

theorem keeps_chan_showLoad (x : Nat) : Keeps (fun s => ψ (s.chan l)) (showLoad x) := keeps_b_showLoad (π := chanView ψ l) x

theorem keeps_chan_testAbandon (h : ∀ c : Chan, ψ { c with test := false } = ψ c) (x : Nat) : Keeps (fun s => ψ (s.chan l)) (testAbandon x) :=
  keeps_read fun _ => keeps_whenU fun _ => keeps_seqs ⟨keeps_chan ψ h, keeps_b_set (chanView ψ l) _ _, keeps_b_set (chanView ψ l) _ _,
    keeps_b_inc (π := chanView ψ l) _ _, keeps_b_inc (π := chanView ψ l) _ _, keeps_b_clrBit (π := chanView ψ l) _ _⟩

end

theorem showLoad_get_status3 {l : Nat} (hl : l < 64) {f : Fld} (hf : f.reg = LSW_CH_STATUS3 l) (s : State) : ((showLoad l).run s).get f = s.get f :=
  keeps_get_of_within (lowByte_showLoad hl) (hf ▸ lowByte_cell_false hl (by decide)) s

/-! ## PWM periods (R289, R290) -/

/-- What a PWM period shows in a channel's record. -/
def Chan.pwm (c : Chan) : Nat × Nat × Nat × Bool × Bool := (c.start, c.period, c.onNs, c.phase, c.wait)

/-- A PWM period of `p` ns with `on` ns of on-time and duty `d` begins at `t`. -/
def periodBegins (l t p on d : Nat) : Upd := seqs [
  updChan l fun c => { c with wait := false, phase := on != 0, start := t, period := p, onNs := on, onSum := 0, onNum := 0 },
  whenU (on != 0) (testAbandon l), set (LSW_CH_STATUS3_EFF_DUTY l) d, showLoad l]

theorem fits_effDuty {l : Nat} (hl : l < 64) : (LSW_CH_STATUS3_EFF_DUTY l).fits = true := fits_lsw hl (by decide)

theorem periodBegins_shows {l : Nat} (hl : l < 64) (t p on d : Nat) (s : State) :
    (((periodBegins l t p on d).run s).chan l).pwm = (t, p, on, on != 0, false) ∧
      ((periodBegins l t p on d).run s).get (LSW_CH_STATUS3_EFF_DUTY l) = d % 4096 := by
  have htest (u : State) : (((whenU (on != 0) (testAbandon l)).run u).chan l).pwm = (u.chan l).pwm :=
    keeps_whenU (φ := fun s => (s.chan l).pwm) (fun _ => keeps_chan_testAbandon (fun _ => rfl) l) u
  have hshow (u : State) : (((showLoad l).run u).chan l).pwm = (u.chan l).pwm := keeps_chan_showLoad (ψ := Chan.pwm) l u
  simp only [periodBegins, seqs_cons_run, seqs_nil_run, hshow, set_chan, htest, chan_updChan_same, showLoad_get_status3 hl (f := LSW_CH_STATUS3_EFF_DUTY l) rfl,
    get_set_same (fits_effDuty hl)]
  exact ⟨rfl, rfl⟩

section
variable {p : Nat → Bool} {l : Nat} (hl : l < 64) (hp : DieFoot p (l / 16))
include hl hp

theorem calms_periodBegins (t per on d : Nat) : Calms p (periodBegins l t per on d) :=
  calms_seqs ⟨calms_updChan _ (fun _ => rfl), calms_whenU (calms_testAbandon hl hp), calms_set (own_admitted hl hp (by decide)), calms_showLoad hl hp⟩

theorem calms_setAvg (sum num : Nat) : Calms p (setAvg l sum num) :=
  calms_whenU (calms_rounded fun _ => calms_set (own_admitted hl hp (by decide)))

theorem calms_periodAvg : Calms p (periodAvg l) := calms_read fun _ => calms_forEach fun x hx => by
  obtain ⟨hlt, hd⟩ := members_die hl hp hx
  exact calms_seqs ⟨calms_setAvg hlt (hd ▸ hp) _ _, calms_updChan _ (fun _ => rfl)⟩

end

theorem pwmPeriodStart_run {g : Fin 64} {t : Nat} {s : State} (hon : (s.chan (s.lead g)).out = .on) (hpwm : s.inPwm (s.lead g) = true)
    (hal : s.aligned (s.lead g) t = true) (hdue : ((s.chan (s.lead g)).wait || decide ((s.chan (s.lead g)).start + (s.chan (s.lead g)).period ≤ t)) = true) :
    (pwmPeriodStart g t).run s = (periodBegins (s.lead g) t (s.pwmPeriod (s.lead g)) (onTime (s.lead g) (s.pwmPeriod (s.lead g)) (s.nextDuty (s.lead g)))
      (s.nextDuty (s.lead g))).run ((whenU (!(s.chan (s.lead g)).wait) (periodAvg (s.lead g))).run s) := by
  simp only [pwmPeriodStart, Upd.run_read, hon, hpwm, hal, hdue, beq_self_eq_true, Bool.and_true, whenU_true, periodBegins, seqs_cons_run, seqs_nil_run]

/-! ## The end of an on-phase (R281, R325) -/

theorem tripFoot_lead (s : State) {g : Nat} (hg : g < 64) : TripFoot (tripFoot g) (s.lead g / 16) := (lead_die s g).symm ▸ dieFoot_tripFoot hg

/-- The on-phase of load `l` ends with `uj` µJ clamped; `xs` are the load's channels. -/
def phaseEnds (l uj : Nat) (xs : List Nat) : Upd := seqs [updChan l fun c => { c with phase := false },
  forEach xs fun x => set (LSW_CH_STATUS0_LIMIT x) 0, clampEnergy l uj true, showLoad l]

theorem pwmOnPhaseEnd_run {g : Fin 64} {t uj : Nat} {s : State} (hon : (s.chan (s.lead g)).out = .on) (hpwm : s.inPwm (s.lead g) = true)
    (hphase : (s.chan (s.lead g)).phase = true) (hwait : (s.chan (s.lead g)).wait = false)
    (hdue : (s.chan (s.lead g)).start + (s.chan (s.lead g)).onNs ≤ t)
    (hedge : ((s.chan (s.lead g)).onNs != (s.chan (s.lead g)).period || !s.aligned (s.lead g) t) = true) (hpaused : s.olonPaused (s.lead g) = true) :
    (pwmOnPhaseEnd g t uj).run s =
      (willExceed (s.lead g) fun exceeds => if exceeds then trip (s.lead g) 5 else phaseEnds (s.lead g) uj (s.members (s.lead g))).run s := by
  simp only [pwmOnPhaseEnd, Upd.run_read, hon, hpwm, hphase, hwait, decide_eq_true hdue, hedge, hpaused, beq_self_eq_true, Bool.not_false, Bool.not_true,
    Bool.and_true, Bool.false_and, whenU_true, whenU_false, seqs_cons_run, seqs_nil_run, Upd.run_skip, phaseEnds]

theorem calms_phaseEnds {p : Nat → Bool} {l : Nat} (hl : l < 64) (hp : DieFoot p (l / 16)) (s : State) (uj : Nat) :
    Calms p (phaseEnds l uj (s.members l)) :=
  calms_seqs ⟨calms_updChan _ (fun _ => rfl), calms_forEach fun _ hx => calms_set (member_admitted hl hp hx (by decide)),
    calms_clampEnergy hl hp _ _, calms_showLoad hl hp⟩

/-! ## The end of a window (R310) -/

theorem self_mem_members (s : State) (l : Nat) : l ∈ s.members l := by
  unfold State.members
  split <;> exact List.mem_cons_self

/-- The windows and the time in limit of a channel's record. -/
def Chan.windows (c : Chan) : Bool × Bool := (c.win, c.inrush)

/-- The windows of load `l` close. -/
def windowsShut (l : Nat) : Upd := updChan l fun c => { c with win := false, inrush := false }

/-- The time in limit of the channels `xs` starts again. -/
def limitsRestart (xs : List Nat) : Upd := forEach xs fun g => updChan g fun c => { c with limUs := 0, high := false }

theorem windowEnd_run (l : Nat) (s : State) : (windowEnd l).run s = (showLoad l).run ((limitsRestart (s.members l)).run ((windowsShut l).run s)) := by
  simp only [windowEnd, Upd.run_read, seqs_cons_run, seqs_nil_run, limitsRestart, windowsShut]

theorem keeps_windows_limitsRestart (xs : List Nat) (l : Nat) : Keeps (fun s => (s.chan l).windows) (limitsRestart xs) :=
  keeps_forEach fun _ => keeps_chan Chan.windows fun _ => rfl

theorem limitsRestart_limUs {xs : List Nat} {l : Nat} (h : l ∈ xs) (s : State) : (((limitsRestart xs).run s).chan l).limUs = 0 := by
  refine forEach_establishes (P := fun s => (s.chan l).limUs = 0) (x := l) (fun u => ?_) (fun y u hu => ?_) h s
  · rw [chan_updChan_same]
  · by_cases e : y = l
    · rw [e, chan_updChan_same]
    · rwa [chan_updChan_ne _ u e]

theorem windowEnd_windows (l : Nat) (s : State) : (((windowEnd l).run s).chan l).windows = (false, false) := by
  have hshow (u : State) : (((showLoad l).run u).chan l).windows = (u.chan l).windows := keeps_chan_showLoad (ψ := Chan.windows) l u
  have hkeep (xs : List Nat) (u : State) : (((limitsRestart xs).run u).chan l).windows = (u.chan l).windows := keeps_windows_limitsRestart xs l u
  rw [windowEnd_run, hshow, hkeep, windowsShut, chan_updChan_same]
  rfl

theorem windowEnd_limUs (l : Nat) (s : State) : (((windowEnd l).run s).chan l).limUs = 0 := by
  have hshow (u : State) : (((showLoad l).run u).chan l).limUs = (u.chan l).limUs := keeps_chan_showLoad (ψ := Chan.limUs) l u
  rw [windowEnd_run, hshow, limitsRestart_limUs (self_mem_members s l)]

/-! ## The recomputed duty (R346) -/

theorem fits_compSat {l : Nat} (hl : l < 64) : (LSW_CH_STATUS0_COMP_SAT l).fits = true := fits_lsw hl (by decide)

theorem compUpdate_chan (l : Nat) (s : State) : ((compUpdate l).run s).chan l = { s.chan l with effNext := min 4095 (s.askedDuty l) } := by
  have hraise (b : Bool) (u : State) : ((whenU b (raiseCh l 20)).run u).chan l = u.chan l :=
    keeps_whenU (φ := (·.chan l)) (fun _ => keeps_b_raiseCh (π := chanView id l) l 20) u
  simp only [compUpdate, Upd.run_read, seqs_cons_run, seqs_nil_run, set_chan, hraise, chan_updChan_same]

theorem compUpdate_sat {l : Nat} (hl : l < 64) (s : State) :
    ((compUpdate l).run s).flag (LSW_CH_STATUS0_COMP_SAT l) = decide (4095 < s.askedDuty l) := by
  simp only [compUpdate, Upd.run_read, seqs_cons_run, seqs_nil_run, flag_set_same (fits_compSat hl)]
  cases decide (4095 < s.askedDuty l) <;> rfl

/-- A valve's peak phase ends: the duty of the hold phase follows (R288). -/
theorem askedDuty_hold {l : Nat} {s : State} (hm : s.mode l = 6) (hp : (s.chan l).peak = false) : s.askedDuty l = s.holdDuty l := by
  simp only [State.askedDuty, hm, hp, Bool.false_eq_true, if_false]

theorem askedDuty_lamp {l : Nat} {s : State} (hm : s.mode l = 3 ∨ s.mode l = 5) : s.askedDuty l = s.lampDuty l (cmdDuty (s.chan l).applied) := by
  rcases hm with hm | hm <;> simp only [State.askedDuty, hm]

/-- The valve of load `l` goes over to its hold phase. -/
def holdBegins (l : Nat) : Upd := updChan l fun c => { c with peak := false, wait := true }

theorem holdBegins_askedDuty {l : Nat} {s : State} (hm : s.mode l = 6) : ((holdBegins l).run s).askedDuty l = s.holdDuty l := by
  have hchan : ((holdBegins l).run s).chan l = { s.chan l with peak := false, wait := true } := chan_updChan_same l _ s
  have hmode : ((holdBegins l).run s).mode l = 6 := hm
  rw [askedDuty_hold hmode (by rw [hchan])]
  simp only [State.holdDuty, hchan]
  rfl

/-- The end of a valve's peak phase. -/
theorem valvePeakEnd_shows {g : Fin 64} {s : State} (hon : (s.chan (s.lead g)).out = .on) (hm : s.mode (s.lead g) = 6)
    (hpeak : (s.chan (s.lead g)).peak = true) : let l := s.lead g; let t := (valvePeakEnd g).run s
    (t.chan l).peak = false ∧ (t.chan l).wait = true ∧ (t.chan l).effNext = min 4095 (s.holdDuty l) ∧ Untouched (onPage (lswUnit g)) s t := by
  dsimp only
  have hl := lead_lt s g.isLt
  have hp := dieFoot_lead (dieFoot_onPage g.isLt) s
  have hrun : (valvePeakEnd g).run s = (seqs [holdBegins (s.lead g), compUpdate (s.lead g), showLoad (s.lead g)]).run s := by
    simp only [valvePeakEnd, Upd.run_read, hon, hpeak, beq_self_eq_true, Bool.and_true, whenU_true, holdBegins]
  have hshow (u : State) : ((showLoad (s.lead g)).run u).chan (s.lead g) = u.chan (s.lead g) := keeps_chan_showLoad (ψ := id) _ u
  have hchan : ((valvePeakEnd g).run s).chan (s.lead g) = { s.chan (s.lead g) with peak := false, wait := true, effNext := min 4095 (s.holdDuty (s.lead g)) } := by
    rw [hrun, seqs_cons_run, seqs_cons_run, seqs_cons_run, seqs_nil_run, hshow, compUpdate_chan, holdBegins_askedDuty hm, holdBegins, chan_updChan_same]
  have hfoot : Within (onPage (lswUnit g)) (seqs [holdBegins (s.lead g), compUpdate (s.lead g), showLoad (s.lead g)]) :=
    within_seqs ⟨within_upd _, (calms_compUpdate hl hp).within, (calms_showLoad hl hp).within⟩
  rw [hchan]
  refine ⟨rfl, rfl, rfl, ?_⟩
  rw [hrun]
  exact hfoot s

end Sys2Proof.Machine

open Sys2Proof Sys2Proof.Machine

/-- Settles O14: each event of a load in the phase that it ends runs its own rule; the fields it leaves are those of the channel's record, and the
status that follows changes neither them nor the effective duty. -/
theorem loadPhaseEvents : Obligations.LoadPhaseEvents := by
  unfold Obligations.LoadPhaseEvents
  refine ⟨?period, ?onPhase, ?step, ?down, ?motor, ?inrush, ?valve, ?lamp⟩
  case period =>
    intro g t s l c harm hon hpwm hal hdue
    have hl := lead_lt s g.isLt
    have hp := dieFoot_lead (dieFoot_onPage g.isLt) s
    have hrun := pwmPeriodStart_run hon hpwm hal hdue
    obtain ⟨hview, hduty⟩ := periodBegins_shows hl t (s.pwmPeriod l) (onTime l (s.pwmPeriod l) (s.nextDuty l)) (s.nextDuty l)
      ((whenU (!(s.chan l).wait) (periodAvg l)).run s)
    have hfoot := (calms_seq (calms_whenU (c := !(s.chan l).wait) (calms_periodAvg hl hp))
      (calms_periodBegins hl hp t (s.pwmPeriod l) (onTime l (s.pwmPeriod l) (s.nextDuty l)) (s.nextDuty l))).within s
    rw [Upd.run_seq] at hfoot
    obtain ⟨hstart, hperiod, honNs, hphase, hwait⟩ : _ ∧ _ ∧ _ ∧ _ ∧ _ := by simpa only [Chan.pwm, Prod.mk.injEq] using hview
    exact ⟨_, completes_as (completes_of_work rfl harm) hrun, hstart, hperiod, honNs, hphase, hwait, hduty, hfoot⟩
  case onPhase =>
    intro g t uj s l c harm hon hpwm hphase hwait hdue hedge hpaused ends
    have hl := lead_lt s g.isLt
    have hp := dieFoot_lead (dieFoot_onPage g.isLt) s
    have htrip := tripFoot_lead s g.isLt
    have hrun := pwmOnPhaseEnd_run (uj := uj) hon hpwm hphase hwait hdue hedge hpaused
    have hdone : Completes (.pwmOnPhaseEnd g t uj) s _ := completes_of_work rfl harm
    refine ⟨fun hv hover => does_of_completes hdone ?_ (calms_trip hl htrip 5).within,
      fun hv hover => does_of_completes hdone ?_ (calms_phaseEnds hl hp s uj).within,
      fun hv => does_of_completes hdone ?_ (within_free fun v => within_ite (calms_trip hl htrip 5).within (calms_phaseEnds hl htrip.toDieFoot s uj).within)⟩
    · rw [hrun, willExceed, Upd.run_read, if_neg (Nat.not_le.mpr hv), hover, if_pos rfl]
    · rw [hrun, willExceed, Upd.run_read, if_neg (Nat.not_le.mpr hv), hover, if_neg Bool.false_ne_true]
      rfl
    · rw [hrun, willExceed, Upd.run_read, if_pos hv]
      rfl
  case step =>
    intro g s l c r goal harm hon hm hdown hr
    have hl := lead_lt s g.isLt
    have hp := dieFoot_lead (dieFoot_onPage g.isLt) s
    refine does_of_completes (completes_of_work rfl harm) ?_ (within_seq (within_upd _) (calms_showLoad hl hp).within)
    simp only [motorRampStep, Upd.run_read, show (s.chan (s.lead g)).out = .on from hon, show s.mode (s.lead g) = 4 from hm,
      show (s.chan (s.lead g)).down = false from hdown, Bool.false_and, Bool.false_eq_true, if_false, beq_self_eq_true, Bool.and_true, whenU_true, whenU_false,
      seqs_cons_run, seqs_nil_run, Upd.run_seq, Upd.run_skip]
    rw [if_neg hr]
  case down =>
    intro g s l c harm hon hm hdown hpos hle
    have hl := lead_lt s g.isLt
    have hp := dieFoot_lead (dieFoot_onPage g.isLt) s
    refine does_of_completes (completes_of_work rfl harm) ?_
      (within_seqs ⟨within_upd _, (calms_turnOff hl hp _ _).within, (calms_showLoad hl hp).within⟩)
    have hr : bits (s.chan (s.lead g)).motor 15 0 ≠ 0 := Nat.ne_of_gt (Nat.lt_of_lt_of_le hpos hle)
    have hz : (s.chan (s.lead g)).effNext - bits (s.chan (s.lead g)).motor 15 0 = 0 := Nat.sub_eq_zero_of_le hle
    have hgt : ¬ (s.chan (s.lead g)).effNext ≤ 0 := Nat.not_le.mpr hpos
    simp only [motorRampStep, Upd.run_read, show (s.chan (s.lead g)).out = .on from hon, show s.mode (s.lead g) = 4 from hm,
      show (s.chan (s.lead g)).down = true from hdown, if_true, if_neg hr, if_neg hgt, hz, Nat.max_self, beq_self_eq_true,
      Bool.and_true, whenU_true, l]
  case motor =>
    intro g s l hwin huv
    have hl := lead_lt s g.isLt
    have hp := dieFoot_lead (dieFoot_onPage g.isLt) s
    have hrun : (motorStartWindowEnd g).run s = (windowEnd l).run s := by
      simp only [motorStartWindowEnd, Upd.run_read, show (s.chan (s.lead g)).win = true from hwin, huv, Bool.not_false, Bool.and_true, whenU_true, l]
    exact ⟨_, completes_as (completes_of_finish rfl) hrun, congrArg Prod.fst (windowEnd_windows l s), windowEnd_limUs l s, (calms_windowEnd hl hp).within s⟩
  case inrush =>
    intro g s l hin huv
    have hl := lead_lt s g.isLt
    have hp := dieFoot_lead (dieFoot_onPage g.isLt) s
    have hrun : (inrushWindowEnd g).run s = (windowEnd l).run s := by
      simp only [inrushWindowEnd, Upd.run_read, show (s.chan (s.lead g)).inrush = true from hin, huv, Bool.not_false, Bool.and_true, whenU_true, l]
    exact ⟨_, completes_as (completes_of_finish rfl) hrun, congrArg Prod.snd (windowEnd_windows l s), windowEnd_limUs l s, (calms_windowEnd hl hp).within s⟩
  case valve =>
    intro g s l hon hm hpeak
    exact ⟨_, completes_of_finish rfl, valvePeakEnd_shows hon hm hpeak⟩
  case lamp =>
    intro g s l hon hm
    have hl := lead_lt s g.isLt
    have hp := dieFoot_lead (dieFoot_onPage g.isLt) s
    have hrun : (lampCompUpdate g).run s = (compUpdate l).run s := by
      rcases hm with hm | hm <;>
        simp only [lampCompUpdate, Upd.run_read, show (s.chan (s.lead g)).out = .on from hon, show s.mode (s.lead g) = _ from hm, beq_self_eq_true, Bool.true_and,
          Bool.true_or, Bool.or_true, whenU_true, l]
    refine ⟨_, completes_as (completes_of_finish rfl) hrun, ?_, ?_, (calms_compUpdate hl hp).within s⟩
    · rw [compUpdate_chan, askedDuty_lamp hm]
    · rw [compUpdate_sat hl, askedDuty_lamp hm]

end

section
/-!
Protection of loads (R307 to R327): trips, thermal shutdown and latches, the clamp and the soft ramp, retries and waits.
-/
namespace Sys2Proof.Machine

/-! ## Thermal latches (R317) -/

theorem whenU_decide_run (c : Prop) [Decidable c] (u : Upd) (s : State) : (whenU (decide c) u).run s = (if c then u else .skip).run s := by
  by_cases h : c
  · rw [decide_eq_true h, whenU_true, if_pos h]
  · rw [decide_eq_false h, whenU_false, if_neg h]

theorem lswPages_allDice : ∀ d < 4, DieFoot lswPages d := fun _ => dieFoot_lswPages

/-- The latch of channel `g` that a clear names goes where its temperature has fallen. -/
def latchFalls (s : State) (g : Nat) (wire : Bool) : Upd :=
  if wire then (if (s.chan g).t ≤ s.tRel g * 2 ^ 32 then set (LSW_PR_STAT_LATCH_WIRE g) 0 else .skip)
  else (if s.tj g ≤ 214 then set (LSW_PR_STAT_LATCH_TJ g) 0 else .skip)

theorem thermalLatchClear_run (g : Fin 64) (wire : Bool) (s : State) :
    (thermalLatchClear g wire).run s = (seqs [latchFalls s g wire, showCh g, gateTry (s.lead g)]).run s := by
  cases wire <;>
    simp only [thermalLatchClear, latchFalls, Upd.run_read, seqs_cons_run, whenU_decide_run, if_true, if_false, Bool.false_eq_true]

theorem calms_latchFalls {p : Nat → Bool} {g : Nat} (hg : g < 64) (hp : DieFoot p (g / 16)) (s : State) (wire : Bool) : Calms p (latchFalls s g wire) :=
  calms_ite (calms_ite (calms_set (own_admitted hg hp (by decide))) calms_skip) (calms_ite (calms_set (own_admitted hg hp (by decide))) calms_skip)

/-! ## The clamp's budget (R321, R324) -/

/-- The fault of a trip of channel `x` is PM in place of TR. -/
def tripWorsens (x : Nat) : Upd := seqs [raiseCh x 12, retract (lswUnit x) (x % 16), report (lswUnit x) (some (x % 16)) PM]

theorem calms_tripWorsens {p : Nat → Bool} {x : Nat} (hx : x < 64) (hp : TripFoot p (x / 16)) : Calms p (tripWorsens x) :=
  calms_seqs ⟨calms_raiseCh hx hp.toDieFoot _, calms_seqs ⟨calms_dec (own_admitted hx hp.toDieFoot (by decide)),
    calms_dec (hp.block _ (by decide))⟩, calms_report_channel hx hp (by decide)⟩

theorem within_tripsWorsen (s : State) {g : Nat} (hg : g < 64) (q : Nat → Bool) :
    Within (tripFoot g) (forEach ((s.members (s.lead g)).filter q) tripWorsens) := within_forEach fun x hx => by
  have hp := tripFoot_lead s hg
  obtain ⟨hlt, hd⟩ := members_die (lead_lt s hg) hp.toDieFoot (List.mem_filter.mp hx).1
  exact (calms_tripWorsens hlt (hd ▸ hp)).within

theorem clampBudgetExceeded_not_clamping {g : Fin 64} {s : State} (h : (s.chan (s.lead g)).out ≠ .clamp) : (clampBudgetExceeded g).run s = s := by
  simp only [clampBudgetExceeded, Upd.run_read, beq_eq_false_iff_ne.mpr h, whenU_false, Upd.run_skip]

theorem clampBudgetExceeded_fixed {g : Fin 64} {s : State} (h : (s.chan (s.lead g)).out = .clamp) (hf : (s.chan (s.lead g)).fixed = true) :
    (clampBudgetExceeded g).run s = (whenU ((s.chan (s.lead g)).tripOff && !s.loadRetired (s.lead g))
      (forEach ((s.members (s.lead g)).filter fun x => (s.chan x).detected) tripWorsens)).run s := by
  simp only [clampBudgetExceeded, Upd.run_read, h, beq_self_eq_true, whenU_true, hf, if_true]
  rfl

theorem clampBudgetExceeded_free {g : Fin 64} {s : State} (h : (s.chan (s.lead g)).out = .clamp) (hf : (s.chan (s.lead g)).fixed = false) :
    (clampBudgetExceeded g).run s = (seqs [updChan (s.lead g) fun c => { c with eRep := c.eRep + c.budUJ }, beginRamp (s.lead g) true,
      showLoad (s.lead g)]).run s := by
  simp only [clampBudgetExceeded, Upd.run_read, h, beq_self_eq_true, whenU_true, hf, Bool.false_eq_true, if_false]

/-! ## Retries (R326, R327) -/

/-- The load waits to cool. -/
def coolBegins (l ms : Nat) : Upd := updChan l fun c => { c with retryWait := false, coolWait := true, coolMs := ms }

theorem retryDelayExpiry_waits {g : Fin 64} {s : State} (hw : (s.chan (s.lead g)).retryWait = true) (hoff : (s.chan (s.lead g)).out = .off)
    (hgate : s.gateOpen (s.lead g) = false) : (retryDelayExpiry g).run s =
      (showLoad (s.lead g)).run ((coolBegins (s.lead g) (max 1 (s.get (LSW_PR_THERM_COOL_MAX (s.lead g))) * 100)).run s) := by
  simp only [retryDelayExpiry, Upd.run_read, hw, hoff, beq_self_eq_true, Bool.and_true, whenU_true, hgate, Bool.false_eq_true, if_false, seqs_cons_run,
    seqs_nil_run, coolBegins]

theorem fits_retryLeft {l : Nat} (hl : l < 64) : (LSW_CH_STATUS3_RETRY_LEFT l).fits = true := fits_lsw hl (by decide)

/-- The faults of the channels `xs` clear. -/
def faultsClear (xs : List Nat) : Upd := forEach xs fun x => set (CELL_STAT_FAULT (lswUnit x) (x % 16)) 0

theorem keeps_chan_faultsClear {α : Type} (ψ : Chan → α) (l : Nat) (xs : List Nat) : Keeps (fun s => ψ (s.chan l)) (faultsClear xs) :=
  keeps_forEach fun _ => keeps_b_set (chanView ψ l) _ _

theorem lowByte_faultsClear (s : State) {l : Nat} (hl : l < 64) : Within (lowByte [0x04]) (faultsClear (s.members l)) :=
  within_forEach fun _ hx => within_set (lowByte_cell (o := 0x04) (members_lt hl hx) (by decide))

theorem calms_faultsClear (s : State) {p : Nat → Bool} {l : Nat} (hl : l < 64) (hp : DieFoot p (l / 16)) : Calms p (faultsClear (s.members l)) :=
  calms_forEach fun _ hx => calms_set (member_admitted (o := 0x04) hl hp hx (by decide))

/-- The retry budget of load `l` is full again. -/
def retriesFill (l n : Nat) : Upd := seqs [set (LSW_CH_STATUS3_RETRY_LEFT l) n, updChan l fun c => { c with restarted := false }]

theorem retryBudgetRefill_run {g : Fin 64} {s : State} (hr : (s.chan (s.lead g)).restarted = true) (hon : (s.chan (s.lead g)).out = .on) :
    (retryBudgetRefill g).run s = (faultsClear (s.members (s.lead g))).run ((retriesFill (s.lead g) (s.get (LSW_PR_RETRY_RETRY_MAX (s.lead g)))).run s) := by
  simp only [retryBudgetRefill, Upd.run_read, hr, hon, beq_self_eq_true, Bool.and_true, whenU_true, seqs_cons_run, seqs_nil_run, faultsClear, retriesFill]

theorem retriesFill_shows {l : Nat} (hl : l < 64) (n : Nat) (s : State) :
    ((retriesFill l n).run s).get (LSW_CH_STATUS3_RETRY_LEFT l) = n % 16 ∧ (((retriesFill l n).run s).chan l).restarted = false := by
  have hget (f : Chan → Chan) (u : State) : ((updChan l f).run u).get (LSW_CH_STATUS3_RETRY_LEFT l) = u.get (LSW_CH_STATUS3_RETRY_LEFT l) := by
    rw [updChan, upd_get]
  rw [retriesFill, seqs_cons_run, seqs_cons_run, seqs_nil_run, hget, get_set_same (fits_retryLeft hl), chan_updChan_same]
  exact ⟨rfl, rfl⟩

end Sys2Proof.Machine

open Sys2Proof Sys2Proof.Machine

/-- Settles O16: each event runs its own rule; a trip and its consequences stay on the page of the load's die, the fault registers and the
interrupt register of Glade. -/
theorem loadProtectionEvents : Obligations.LoadProtectionEvents := by
  unfold Obligations.LoadProtectionEvents
  refine ⟨?limit, ?repetitive, ?shutdown, ?latch, ?clampFree, ?clampTrip, ?clampNone, ?hot, ?retry, ?cool, ?refill, ?expiry⟩
  case limit =>
    intro g s l hallow hon
    refine does_of_completes (completes_of_finish rfl) ?_ (calms_trip g.isLt (dieFoot_tripFoot g.isLt) 2).within
    simp only [limitTimeTrip, Upd.run_read, show s.limitAllow (s.lead g) ≤ (s.chan g).limUs from hallow, show (s.chan (s.lead g)).out = .on from hon,
      decide_true, beq_self_eq_true, Bool.and_true, whenU_true]
  case repetitive =>
    intro g s l hon hrep
    refine does_of_completes (completes_of_finish rfl) ?_ (calms_trip g.isLt (dieFoot_tripFoot g.isLt) 5).within
    simp only [repetitiveClampTrip, Upd.run_read, show (s.chan (s.lead g)).out = .on from hon, decide_eq_true hrep, l, beq_self_eq_true,
      Bool.true_and, whenU_true]
  case shutdown =>
    intro g s l
    have hl := lead_lt s g.isLt
    have hp := dieFoot_lead (dieFoot_onPage g.isLt) s
    have hg := dieFoot_onPage g.isLt
    have hdone : Completes (.thermalShutdown g) s _ := completes_of_finish rfl
    have hoff (h : (s.chan l).out ≠ .off ∧ (s.chan l).out ≠ .on) : Does (.thermalShutdown g) (seqs [set (LSW_PR_STAT_LATCH_TJ g) 1, raiseCh g 10,
        turnOff l .clamp (s.chan l).tripOff, showLoad l]) (onPage (lswUnit g)) s := by
      refine does_of_completes hdone ?_ (within_seqs ⟨(calms_set (own_admitted g.isLt hg (by decide))).within, (calms_raiseCh g.isLt hg _).within,
        (calms_turnOff hl hp _ _).within, (calms_showLoad hl hp).within⟩)
      simp only [thermalShutdown, Upd.run_read]
      split
      next e => exact absurd e h.1
      next e => exact absurd e h.2
      next => rfl
    split
    next h => exact does_of_completes hdone (by simp only [thermalShutdown, Upd.run_read, show (s.chan (s.lead g)).out = .off from h]) within_skip
    next h =>
      refine does_of_completes hdone ?_ (within_seq (calms_set (own_admitted g.isLt (dieFoot_tripFoot g.isLt).toDieFoot (by decide))).within
        (calms_trip g.isLt (dieFoot_tripFoot g.isLt) 3).within)
      simp only [thermalShutdown, Upd.run_read, show (s.chan (s.lead g)).out = .on from h]
    next h h' => exact hoff ⟨h, h'⟩
  case latch =>
    intro g wire s
    exact does_of_completes (completes_of_finish rfl) (thermalLatchClear_run g wire s) (within_seqs
      ⟨(calms_latchFalls g.isLt (dieFoot_lswPages (by omega)) s wire).within, within_showCh g.isLt, (calms_gateTry lswPages_allDice (lead_lt s g.isLt)).within⟩)
  case clampFree =>
    intro g s l c hc hf
    have hl := lead_lt s g.isLt
    have hp := dieFoot_lead (dieFoot_onPage g.isLt) s
    exact does_of_completes (completes_of_finish rfl) (clampBudgetExceeded_free hc hf)
      (within_seqs ⟨within_upd _, (calms_beginRamp hl hp _).within, (calms_showLoad hl hp).within⟩)
  case clampTrip =>
    intro g s l c hc hf htrip hret
    refine does_of_completes (completes_of_finish rfl) ?_ (within_tripsWorsen s g.isLt _)
    rw [clampBudgetExceeded_fixed hc hf, show (s.chan (s.lead g)).tripOff = true from htrip, show s.loadRetired (s.lead g) = false from hret]
    rfl
  case clampNone =>
    intro g s l c h
    refine does_of_completes (completes_of_finish rfl) ?_ within_skip
    by_cases hc : (s.chan (s.lead g)).out = .clamp
    · obtain ⟨hf, hnone⟩ := h.resolve_left (not_not_intro hc)
      rw [clampBudgetExceeded_fixed hc hf]
      rcases hnone with ht | hr
      · rw [show (s.chan (s.lead g)).tripOff = false from ht, Bool.false_and, whenU_false]
      · rw [show s.loadRetired (s.lead g) = true from hr, Bool.not_true, Bool.and_false, whenU_false]
    · rw [clampBudgetExceeded_not_clamping hc, Upd.run_skip]
  case hot =>
    intro g s hramp
    have hrun : (softRampHot g).run s = (updChan (s.lead g) fun c => { c with steep := true }).run s := by
      simp only [softRampHot, Upd.run_read, hramp, beq_self_eq_true, whenU_true]
    exact ⟨_, completes_as (completes_of_finish rfl) hrun, by rw [chan_updChan_same], within_upd _ s⟩
  case retry =>
    intro g s l c hw hoff hgate
    refine does_of_completes (completes_of_finish rfl) ?_ (calms_restart (lead_lt s g.isLt) (dieFoot_lead (dieFoot_onPage g.isLt) s)).within
    simp only [retryDelayExpiry, Upd.run_read, show (s.chan (s.lead g)).retryWait = true from hw, show (s.chan (s.lead g)).out = .off from hoff,
      show s.gateOpen (s.lead g) = true from hgate, beq_self_eq_true, Bool.and_true, whenU_true, if_true, l]
  case cool =>
    intro g s l c hw hoff hgate
    have hl := lead_lt s g.isLt
    have hp := dieFoot_lead (dieFoot_onPage g.isLt) s
    have hrun := retryDelayExpiry_waits hw hoff hgate
    have hchan (ms : Nat) : ((showLoad l).run ((coolBegins l ms).run s)).chan l = { s.chan l with retryWait := false, coolWait := true, coolMs := ms } := by
      have hshow (u : State) : ((showLoad l).run u).chan l = u.chan l := keeps_chan_showLoad (ψ := id) l u
      rw [hshow, coolBegins, chan_updChan_same]
    refine ⟨_, completes_as (completes_of_finish rfl) hrun, ?_, ?_, ?_, (within_upd _ s).trans ((calms_showLoad hl hp).within _)⟩
    · rw [hchan]
    · rw [hchan]
    · rw [hchan]
  case refill =>
    intro g s l hr hon
    have hl := lead_lt s g.isLt
    have hp := dieFoot_lead (dieFoot_onPage g.isLt) s
    obtain ⟨hleft, hrest⟩ := retriesFill_shows hl (s.get (LSW_PR_RETRY_RETRY_MAX l)) s
    have hfill : Within (onPage (lswUnit g)) (retriesFill l (s.get (LSW_PR_RETRY_RETRY_MAX l))) :=
      within_seqs ⟨(calms_set (own_admitted hl hp (by decide))).within, within_upd _⟩
    exact ⟨_, completes_as (completes_of_finish rfl) (retryBudgetRefill_run hr hon),
      (keeps_get_of_within (lowByte_faultsClear s hl) (lowByte_cell_false hl (by decide)) _).trans hleft,
      (keeps_chan_faultsClear Chan.restarted l _ _).trans hrest, (hfill s).trans ((calms_faultsClear s hl hp).within _)⟩
  case expiry =>
    intro g s l hw
    have hl := lead_lt s g.isLt
    have hp := tripFoot_lead s g.isLt
    refine does_of_completes (completes_of_finish rfl) ?_ (within_seqs ⟨within_upd _, (calms_raiseCh hl hp.toDieFoot _).within,
      (calms_report_channel hl hp (by decide)).within, (calms_showLoad hl hp.toDieFoot).within⟩)
    simp only [coolWaitExpiry, Upd.run_read, show (s.chan (s.lead g)).coolWait = true from hw, whenU_true, l]

end

section
/-!
Samples of a load channel, its published values, bound signals and the wire model (R293 to R297, R312 to R315).
-/
namespace Sys2Proof.Machine

/-! ## Samples (R293, R308, R309) -/

/-- The footprint of a sample of channel `g` beside the raw sample itself. -/
def sampleFoot (g a : Nat) : Bool := (lswPages a || faultRegs a || a == 0x50000010) && a != LSW_CH_MEAS_RAW g

theorem faultRegs_lt {a : Nat} (h : faultRegs a = true) : a < 0x20000000 := by
  simp only [faultRegs, Bool.or_eq_true, Bool.and_eq_true, beq_iff_eq, decide_eq_true_eq] at h
  omega

theorem tripFoot_sampleFoot {g d : Nat} (hg : g < 64) (hd : d < 4) : TripFoot (sampleFoot g) d where
  block o ho := by
    have hne : unitBase (16 + d) + o ≠ LSW_CH_MEAS_RAW g := by rw [LSW_CH_MEAS_RAW, lswCell_eq hg, unitBase_lsw d (by omega)]; omega
    simp only [sampleFoot, lswPages_die hd (show o < 0x10000 by omega), Bool.true_or, Bool.true_and, bne_iff_ne.mpr hne]
  cell x hx _ o ho hne := by
    have h : lswCell x + o ≠ LSW_CH_MEAS_RAW g := by rw [LSW_CH_MEAS_RAW, lswCell_eq hg, lswCell_eq hx]; omega
    simp only [sampleFoot, lswPages_cell hx ho, Bool.true_or, Bool.true_and, bne_iff_ne.mpr h]
  fault a h := by
    have hlt := faultRegs_lt h
    have hne : a ≠ LSW_CH_MEAS_RAW g := by rw [LSW_CH_MEAS_RAW, lswCell_eq hg]; omega
    simp only [sampleFoot, h, Bool.or_true, Bool.true_or, Bool.true_and, bne_iff_ne.mpr hne]
  glade := by
    have hne : 0x50000010 ≠ LSW_CH_MEAS_RAW g := by rw [LSW_CH_MEAS_RAW, lswCell_eq hg]; omega
    simp only [sampleFoot, beq_self_eq_true, Bool.or_true, Bool.true_and, bne_iff_ne.mpr hne]

theorem calms_tripLevel {p : Nat → Bool} {l : Nat} {k : Nat → Upd} (h : ∀ n, Calms p (k n)) : Calms p (tripLevel l k) :=
  calms_read fun _ => calms_ite (h _) (calms_free fun _ => h _)

/-- What a sample leads to: the window's time, the slow sample, the limit loop's state, the comparison with the trip level. -/
def sampleActs (g : Fin 64) (x : LoadSample) (s0 : State) : Upd :=
  let l := s0.lead g
  let c := s0.chan l
  let inOn := c.out == .on && c.phase
  seqs [
    whenU (g.val == l && ((c.inrush && !c.wait) || c.win) && !s0.flag (LSW_PR_DIE_STAT_UV (g.val / 16)))
      (updChan l fun c => { c with winUs := c.winUs + 1 }),
    match x.slow with | some v => slowSample g v | none => .skip,
    set (LSW_CH_STATUS0_LIMIT g) (inOn && x.limit).toNat,
    if ¬ inOn then updChan g fun c => { c with high := false } else tripLevel l fun level => .read fun s =>
      let hi := decide (level ≤ s.loadUA l) && !c.win
      if hi && (s.chan g).high then trip g 1
      else seqs [
        updChan g fun c => { c with high := hi },
        whenU (x.limit && s.flag (LSW_PR_DIE_STAT_HOT (g.val / 16)))
          (if c.inrush || c.win then
            whenU (s.flag (LSW_PR_DIE_STAT_SHEDDING (g.val / 16)) && !s.neverShed l) (shedLoad l .heat .clamp)
           else trip g 6)]]

theorem calms_sampleActs {p : Nat → Bool} (hp : ∀ d < 4, TripFoot p d) (g : Fin 64) (x : LoadSample) (s : State) : Calms p (sampleActs g x s) := by
  have hl := lead_lt s g.isLt
  have hg : TripFoot p (g.val / 16) := hp _ (by omega)
  have hall : ∀ d < 4, DieFoot p d := fun d hd => (hp d hd).toDieFoot
  refine calms_seqs ⟨calms_whenU (calms_updChan _ (fun _ => rfl)), ?slow, calms_set (own_admitted g.isLt hg.toDieFoot (by decide)),
    calms_ite (calms_updChan _ (fun _ => rfl)) (calms_tripLevel fun _ => calms_read fun _ => calms_ite (calms_trip g.isLt hg 1)
      (calms_seqs ⟨calms_updChan _ (fun _ => rfl), calms_whenU (calms_ite (calms_whenU (calms_shedLoad hall hl _ _)) (calms_trip g.isLt hg 6))⟩))⟩
  case slow =>
    split
    · exact calms_slowSample hall g.isLt _
    · exact calms_skip

/-- The raw sample of channel `g` and whether it is valid. -/
def rawStored (g code valid : Nat) : Upd := seqs [set (LSW_CH_MEAS_RAW_SAMPLE g) code, set (LSW_CH_MEAS_RAW_VALID g) valid]

/-- A sample of a powered die: the raw sample, the sums, then what follows from it. -/
theorem currentSample_run (g : Fin 64) (x : LoadSample) (s : State) (hon : (s.die (g.val / 16)).on = true) : ∃ f : Chan → Chan,
    (∀ c, (f c).num = c.num + 1 ∧ (f c).sum = c.sum + x.code.val ∧ (f c).tripped = c.tripped) ∧
      (currentSample g x).run s = (sampleActs g x s).run ((updChan g f).run
        ((rawStored g x.code (s.get (CELL_STAT_ENABLED (lswUnit g) (g.val % 16)))).run s)) := by
  refine ⟨?f, ?fields, ?run⟩
  case run =>
    simp only [currentSample, Upd.run_read, hon, whenU_true, sampleActs, rawStored, seqs_cons_run, seqs_nil_run]
    rfl
  case fields => exact fun c => ⟨rfl, rfl, rfl⟩

theorem currentSample_unpowered (g : Fin 64) (x : LoadSample) (s : State) (hoff : (s.die (g.val / 16)).on = false) : (currentSample g x).run s = s := by
  simp only [currentSample, Upd.run_read, hoff, whenU_false, Upd.run_skip]

theorem fits_measRaw : ∀ g : Fin 64, (LSW_CH_MEAS_RAW_SAMPLE g).fits = true ∧ (LSW_CH_MEAS_RAW_VALID g).fits = true := by decide

theorem rawStored_shows (g : Fin 64) {code : Nat} (hcode : code < 16384) (f : Fld) (hf : f.lo = f.hi) (s : State) :
    ((rawStored g code (s.get f)).run s).get (LSW_CH_MEAS_RAW_SAMPLE g) = code ∧ ((rawStored g code (s.get f)).run s).flag (LSW_CH_MEAS_RAW_VALID g) = s.flag f := by
  obtain ⟨hsample, hvalid⟩ := fits_measRaw g
  have hlt : s.get f < 2 := by have := get_lt s f; rwa [hf, Nat.sub_self] at this
  rw [rawStored, seqs_cons_run, seqs_cons_run, seqs_nil_run, get_set_ne hvalid hsample (.inr (.inr (show 13 < 31 by decide))), get_set_same hsample,
    flag_set_same hvalid, State.flag]
  exact ⟨Nat.mod_eq_of_lt hcode, congrArg (· != 0) (Nat.mod_eq_of_lt hlt)⟩

/-- The sample and the sums of a channel outlast what the sample leads to. -/
theorem currentSample_shows (g : Fin 64) (x : LoadSample) (s : State) (hon : (s.die (g.val / 16)).on = true) : let t := (currentSample g x).run s
    t.get (LSW_CH_MEAS_RAW_SAMPLE g) = x.code.val ∧ t.flag (LSW_CH_MEAS_RAW_VALID g) = s.flag (CELL_STAT_ENABLED (lswUnit g) (g.val % 16)) ∧
      (t.chan g).num = (s.chan g).num + 1 ∧ (t.chan g).sum = (s.chan g).sum + x.code.val := by
  dsimp only
  obtain ⟨f, hf, hrun⟩ := currentSample_run g x s hon
  obtain ⟨hsample, hvalid⟩ := rawStored_shows g x.code.isLt (CELL_STAT_ENABLED (lswUnit g) (g.val % 16)) rfl s
  have hchan : ((rawStored g x.code (s.get (CELL_STAT_ENABLED (lswUnit g) (g.val % 16)))).run s).chan g = s.chan g := by
    rw [rawStored, seqs_cons_run, seqs_cons_run, seqs_nil_run, set_chan, set_chan]
  have hraw : sampleFoot g (LSW_CH_MEAS_RAW g) = false := by simp only [sampleFoot, bne_self_eq_false, Bool.and_false]
  rw [hrun]
  generalize (rawStored g x.code (s.get (CELL_STAT_ENABLED (lswUnit g) (g.val % 16)))).run s = u at hsample hvalid hchan ⊢
  have hcalm := calms_sampleActs (fun _ hd => tripFoot_sampleFoot g.isLt hd) g x s ((updChan g f).run u)
  have hupd : ((updChan g f).run u).get (LSW_CH_MEAS_RAW_SAMPLE g) = u.get (LSW_CH_MEAS_RAW_SAMPLE g) ∧
      ((updChan g f).run u).flag (LSW_CH_MEAS_RAW_VALID g) = u.flag (LSW_CH_MEAS_RAW_VALID g) := by
    rw [updChan, upd_get, upd_flag]
    exact ⟨rfl, rfl⟩
  have hf' := hf (s.chan g)
  have hsums := hcalm.samples g
  rw [chan_updChan_same, hchan, Chan.samples, Chan.samples, hf'.1, hf'.2.1, Prod.mk.injEq, Prod.mk.injEq, Prod.mk.injEq] at hsums
  have hget := hcalm.untouched.get_eq (f := LSW_CH_MEAS_RAW_SAMPLE g) hraw
  have hflag := hcalm.untouched.flag_eq (f := LSW_CH_MEAS_RAW_VALID g) hraw
  rw [hget, hupd.1, hflag, hupd.2]
  exact ⟨hsample, hvalid, hsums.2.1, hsums.2.2.1⟩

/-- A sample writes on the pages of the dice, the fault registers and the interrupt register of Glade. -/
theorem within_currentSample (g : Fin 64) (x : LoadSample) : Within (fun a => lswPages a || faultRegs a || a == 0x50000010) (currentSample g x) := by
  intro s
  have hp : ∀ d < 4, TripFoot (fun a => lswPages a || faultRegs a || a == 0x50000010) d := fun d hd =>
    { dieFoot_lswPages hd with
      block := fun o ho => by simp only [(dieFoot_lswPages hd).block o ho, Bool.true_or]
      cell := fun x hx hd' o ho hne => by simp only [(dieFoot_lswPages hd).cell x hx hd' o ho hne, Bool.true_or]
      fault := fun a h => by simp only [h, Bool.or_true, Bool.true_or]
      glade := by simp only [beq_self_eq_true, Bool.or_true] }
  cases hon : (s.die (g.val / 16)).on with
  | false =>
    rw [currentSample_unpowered g x s hon]
    exact Untouched.refl _ s
  | true =>
    have hraw : (fun a => lswPages a || faultRegs a || a == 0x50000010) (LSW_CH_MEAS_RAW g) = true := by
      simp only [lswPages_cell (o := 0x5C) g.isLt (by decide), Bool.true_or]
    obtain ⟨f, -, hrun⟩ := currentSample_run g x s hon
    have hstored (code valid : Nat) : Within (fun a => lswPages a || faultRegs a || a == 0x50000010) (rawStored g code valid) :=
      within_seqs ⟨within_set hraw, within_set hraw⟩
    rw [hrun]
    exact ((hstored _ _ s).trans (within_upd _ _)).trans ((calms_sampleActs hp g x s).within _)

/-! ## A sample outside the on-phase -/

theorem sampleActs_idle (g : Fin 64) (x : LoadSample) (s : State) (hidle : (s.chan (s.lead g)).out = .on → (s.chan (s.lead g)).phase = false)
    (hslow : x.slow = none) (hwin : (s.chan (s.lead g)).win = false) (hin : (s.chan (s.lead g)).inrush = false) (u : State) :
    (sampleActs g x s).run u = (updChan g fun c => { c with high := false }).run ((set (LSW_CH_STATUS0_LIMIT g) 0).run u) := by
  have hoff : ((s.chan (s.lead g)).out == .on && (s.chan (s.lead g)).phase) = false := by
    by_cases h : (s.chan (s.lead g)).out = .on
    · rw [hidle h, Bool.and_false]
    · rw [beq_eq_false_iff_ne.mpr h, Bool.false_and]
  simp only [sampleActs, hoff, hslow, hwin, hin, Bool.false_and, Bool.or_false, Bool.and_false, whenU_false, Bool.toNat_false, Bool.false_eq_true,
    not_false_eq_true, if_true, seqs_cons_run, seqs_nil_run, Upd.run_skip]

theorem fits_limit {g : Nat} (hg : g < 64) : (LSW_CH_STATUS0_LIMIT g).fits = true := fits_lsw hg (by decide)

/-- Outside the on-phase a sample trips nothing and writes on its die's page only. -/
theorem currentSample_idle (g : Fin 64) (x : LoadSample) (s : State) (hon : (s.die (g.val / 16)).on = true)
    (hidle : (s.chan (s.lead g)).out = .on → (s.chan (s.lead g)).phase = false)
    (hslow : x.slow = none) (hwin : (s.chan (s.lead g)).win = false) (hin : (s.chan (s.lead g)).inrush = false) : let t := (currentSample g x).run s
    t.flag (LSW_CH_STATUS0_LIMIT g) = false ∧ (t.chan g).tripped = (s.chan g).tripped ∧ Untouched (onPage (lswUnit g)) s t := by
  dsimp only
  obtain ⟨f, hf, hrun⟩ := currentSample_run g x s hon
  have hcell {o : Nat} (ho : o < 0x100) : onPage (lswUnit g) (lswCell g + o) = true := by
    rw [lswCell_eq g.isLt]
    simp only [onPage, unitBase_lswUnit g.isLt, Bool.and_eq_true, decide_eq_true_eq]
    omega
  have hfoot : Within (onPage (lswUnit g)) (seqs [rawStored g x.code (s.get (CELL_STAT_ENABLED (lswUnit g) (g.val % 16))), updChan g f,
      set (LSW_CH_STATUS0_LIMIT g) 0, updChan g fun c => { c with high := false }]) :=
    within_seqs ⟨within_seqs ⟨within_set (hcell (by decide)), within_set (hcell (by decide))⟩, within_upd _, within_set (hcell (by decide)), within_upd _⟩
  have hrun' := hrun.trans (sampleActs_idle g x s hidle hslow hwin hin _)
  have hsame := hfoot s
  rw [seqs_cons_run, seqs_cons_run, seqs_cons_run, seqs_cons_run, seqs_nil_run, ← hrun'] at hsame
  refine ⟨?_, ?_, hsame⟩
  · rw [hrun', updChan, upd_flag, flag_set_same (fits_limit g.isLt)]
    rfl
  · rw [hrun', chan_updChan_same, set_chan, chan_updChan_same, (hf _).2.2, rawStored, seqs_cons_run, seqs_cons_run, seqs_nil_run, set_chan, set_chan]

end Sys2Proof.Machine
end

section
/-!
The wire model of a channel (R312 to R315), bound signals and published values (R294 to R297).
-/
namespace Sys2Proof.Machine

/-! ## The wire model (R312) -/

/-- What follows the new wire temperature: the warning, the accumulator, the age of the last test, the on-state comparison, the latch. -/
def wireActs (g l warn eRep sum num : Nat) (compare hot : Bool) : Upd := seqs [
  set (LSW_CH_STATUS0_WIRE_WARN g) warn,
  rounded eRep 1000 fun e => set (LSW_PR_ENERGY_E_REP g) (min 65535 e),
  inc (LSW_DG_RESULT_AGE_MS g),
  whenU compare (olonCompare l sum num),
  whenU hot (set (LSW_PR_STAT_LATCH_WIRE g) 1),
  showCh g]

/-- The channel's record after a step to the temperature `t`: the next millisecond's sums start (R294, R325). -/
def Chan.wireTo (c : Chan) (t : Nat) : Chan := { c with t := t, sum := 0, sq := 0, num := 0, coolMs := c.coolMs - 1, eRep := c.eRep - c.eRep / 1000 }

/-- What follows the new temperature of channel `g` of load `l`, whose record was `c`. -/
def wireFollows (g l : Nat) (c : Chan) : Upd := .read fun s =>
  let t := (s.chan g).t
  let hot := decide (s.tTrip g * 2 ^ 32 ≤ t)
  seqs [
    set (LSW_CH_STATUS2_T_WIRE g) (min 255 (t / 2 ^ 32)),
    set (LSW_CH_STATUS0_WIRE_WARN g) (decide (s.tRel g * 2 ^ 32 ≤ t)).toNat,
    rounded (s.chan g).eRep 1000 fun e => set (LSW_PR_ENERGY_E_REP g) (min 65535 e),
    inc (LSW_DG_RESULT_AGE_MS g),
    whenU (g == l && (s.mode l == 1 || (s.mode l == 6 && !(s.chan l).peak && s.nextDuty l == 4095)) && c.num != 0)
      (olonCompare l (c.sum + (if s.scale l = 2 then (s.chan (l + 1)).sum else 0)) c.num),
    whenU (hot && g == l) (.seq (set (LSW_PR_STAT_LATCH_WIRE g) 1) (whenU ((s.chan l).out == .on) (trip g 4))),
    showCh g]

/-- The state after one free value has been drawn. -/
def State.drawn (s : State) : State := (upd fun b => { b with fab := { b.fab with free := b.fab.free + 1 } }).run s

/-- The temperature after a step of 1 ms, rounded up where `r` is 1. -/
def State.wireNext (s : State) (g r : Nat) (c : Chan) : Nat :=
  (wireStep (fullUA g) (s.wire g) (s.ambient g * 2 ^ 32) c.t c.sq (max 1 (s.chan g).num)).toNat + r

theorem wireModelStep_run (g : Fin 64) (s : State) : ∃ r < 2, (wireModelStep g).run s = (wireFollows g (s.lead g) (s.chan g)).run
    ((updChan g fun c => c.wireTo (s.wireNext g r c)).run s.drawn) := by
  refine ⟨(Config.freeValue s.b.fab.free).toNat % 2, Nat.mod_lt _ (by decide), ?_⟩
  have hwire : s.drawn.wire g = s.wire g := by unfold State.drawn State.wire; simp only [upd_get]
  have hamb : s.drawn.ambient g = s.ambient g := by unfold State.drawn State.ambient; simp only [upd_get, upd_flag]; rfl
  unfold State.drawn at hwire hamb ⊢
  simp only [wireModelStep, free, Upd.run_read, Upd.run_seq, hwire, hamb, wireFollows, State.wireNext, Chan.wireTo, seqs_cons_run, seqs_nil_run]

theorem whenU_seq_skip_run (b : Bool) (u : Upd) (s : State) : (whenU b (.seq u .skip)).run s = (whenU b u).run s := by cases b <;> rfl

/-- While the load is not on nothing trips. -/
theorem wireFollows_run (g l : Nat) (c : Chan) (u : State) (hoff : (u.chan l).out ≠ .on) : ∃ warn eRep sum num compare hot,
    (wireFollows g l c).run u = (wireActs g l warn eRep sum num compare hot).run ((set (LSW_CH_STATUS2_T_WIRE g) (min 255 ((u.chan g).t / 2 ^ 32))).run u) := by
  refine ⟨?warn, ?eRep, ?sum, ?num, ?compare, ?hot, ?run⟩
  case run =>
    simp only [wireFollows, Upd.run_read, beq_eq_false_iff_ne.mpr hoff, whenU_false, seqs_cons_run, seqs_nil_run, whenU_seq_skip_run, wireActs]
    rfl

section
variable {g : Nat} (hg : g < 64)
include hg

theorem calms_wireActs {p : Nat → Bool} (hp : DieFoot p (g / 16)) {l : Nat} (hl : l < 64) (hd : l / 16 = g / 16) (warn eRep sum num : Nat) (compare hot : Bool) :
    Calms p (wireActs g l warn eRep sum num compare hot) :=
  calms_seqs ⟨calms_set (own_admitted hg hp (by decide)), calms_rounded fun _ => calms_set (own_admitted hg hp (by decide)), calms_inc (own_admitted hg hp (by decide)),
    calms_whenU (calms_olonCompare hl (hd ▸ hp) _ _), calms_whenU (calms_set (own_admitted hg hp (by decide))), calms_showCh hg hp⟩

theorem lowByte_wireActs {l : Nat} (hl : l < 64) (warn eRep sum num : Nat) (compare hot : Bool) :
    Within (lowByte [0x04, 0x08, 0x10, 0x40, 0x7C, 0x80, 0xAC, 0xB8]) (wireActs g l warn eRep sum num compare hot) :=
  within_seqs ⟨within_set (lowByte_cell hg (by decide)), within_rounded fun _ => within_set (lowByte_cell hg (by decide)), within_inc (lowByte_cell hg (by decide)),
    within_whenU (within_read fun _ => within_whenU (within_seqs ⟨within_upd _, within_whenU (within_seqs ⟨within_set (lowByte_cell hl (by decide)),
      within_set (lowByte_cell hl (by decide)), lowByte_raiseCh hl (by decide) _⟩)⟩)),
    within_whenU (within_set (lowByte_cell hg (by decide))), within_read fun _ => within_seqs ⟨within_setReg (lowByte_cell hg (by decide)),
      within_set (lowByte_cell hg (by decide)), within_set (lowByte_cell hg (by decide)), within_putBit (lowByte_cell hg (by decide)),
      within_putBit (lowByte_block (by omega) (by decide)), within_putBit (lowByte_block (by omega) (by decide)), within_putBit (lowByte_block (by omega) (by decide))⟩⟩

end

theorem Chan.wireTo_t (c : Chan) (t : Nat) : (c.wireTo t).t = t := rfl

theorem Chan.wireTo_samples (c : Chan) (t : Nat) : (c.wireTo t).samples = (t, 0, 0, 0) := rfl

theorem fits_wireTemp {g : Nat} (hg : g < 64) : (LSW_CH_STATUS2_T_WIRE g).fits = true := fits_lsw hg (by decide)

/-- A step of the wire model of a load that is not on. -/
theorem wireModelStep_shows (g : Fin 64) (s : State) (hoff : (s.chan (s.lead g)).out ≠ .on) : let t := (wireModelStep g).run s
    ∃ r < 2, (t.chan g).samples = (s.wireNext g r (s.chan g), 0, 0, 0) ∧
      t.get (LSW_CH_STATUS2_T_WIRE g) = min 255 (s.wireNext g r (s.chan g) / 2 ^ 32) ∧ Untouched (onPage (lswUnit g)) s t := by
  dsimp only
  have hp := dieFoot_onPage g.isLt
  obtain ⟨r, hr, hrun⟩ := wireModelStep_run g s
  have hchan : ((updChan g fun c => c.wireTo (s.wireNext g r c)).run s.drawn).chan g = (s.chan g).wireTo (s.wireNext g r (s.chan g)) := by
    rw [chan_updChan_same]
    rfl
  have hkeep (f : Chan → Chan) (hf : ∀ c, (f c).out = c.out) (u : State) : (((updChan g f).run u).chan (s.lead g)).out = (u.chan (s.lead g)).out :=
    keeps_chan (·.out) hf u
  have hout : (((updChan g fun c => c.wireTo (s.wireNext g r c)).run s.drawn).chan (s.lead g)).out = (s.chan (s.lead g)).out := by
    rw [hkeep (fun c => c.wireTo (s.wireNext g r c)) fun _ => rfl]
    rfl
  have hfoot : Untouched (onPage (lswUnit g)) s ((updChan g fun c => c.wireTo (s.wireNext g r c)).run s.drawn) :=
    (within_upd _ s).trans (within_upd _ s.drawn)
  generalize (updChan g fun c => c.wireTo (s.wireNext g r c)).run s.drawn = u at hrun hchan hout hfoot
  obtain ⟨warn, eRep, sum, num, compare, hot, hacts⟩ := wireFollows_run g (s.lead g) (s.chan g) u (hout ▸ hoff)
  have hget (v : State) : ((wireActs g (s.lead g) warn eRep sum num compare hot).run v).get (LSW_CH_STATUS2_T_WIRE g) = v.get (LSW_CH_STATUS2_T_WIRE g) :=
    keeps_get_of_within (lowByte_wireActs g.isLt (lead_lt s g.isLt) _ _ _ _ _ _) (lowByte_cell_false g.isLt (by decide)) v
  have hcalm (v : State) := calms_wireActs g.isLt hp (lead_lt s g.isLt) (lead_die s g) warn eRep sum num compare hot v
  refine ⟨r, hr, ?_, ?_, ?_⟩
  · rw [hrun, hacts, (hcalm _).samples g, set_chan, hchan, Chan.wireTo_samples]
  · rw [hrun, hacts, hget, get_set_same (fits_wireTemp g.isLt), hchan, Chan.wireTo_t]
    exact Nat.mod_eq_of_lt (Nat.lt_succ_of_le (Nat.min_le_left _ _))
  · rw [hrun, hacts]
    exact hfoot.trans (((calms_set (own_admitted g.isLt hp (by decide))).within u).trans
      (hcalm _).untouched)

/-! ## Published values and bound signals (R294, R296, R297) -/

/-- The signals of a channel's current, voltage and temperature whose enables are set. -/
def publishes (g : Fin 64) (s : State) : Upd := seqs [
  whenU (s.flag (LSW_CH_PUBLISH_EN_I g)) (sigInternal (s.devNum * 2 ^ 25 + s.get (LSW_CH_PUBLISH_GSID_BASE g)) (2 * s.get (LSW_CH_STATUS1_I_AVG g))),
  whenU (s.flag (LSW_CH_PUBLISH_EN_V g)) (.read fun t => sigInternal (s.devNum * 2 ^ 25 + s.get (LSW_CH_PUBLISH_GSID_BASE g) + 1) (10 * t.get (LSW_CH_STATUS1_V_OUT g))),
  whenU (s.flag (LSW_CH_PUBLISH_EN_T g)) (.read fun t => sigInternal (s.devNum * 2 ^ 25 + s.get (LSW_CH_PUBLISH_GSID_BASE g) + 2) ((t.tj g + 2 ^ 32 - 64) % 2 ^ 32))]

theorem channelPublish_run (g : Fin 64) (s : State) :
    (channelPublish g).run s = (whenU (decide (s.get (LSW_CH_PUBLISH_GSID_BASE g) ≤ 0x1FFFFFD)) (publishes g s)).run s := by
  simp only [channelPublish, Upd.run_read, publishes]

/-- The oldest update under way to channel `g` is taken from the queue. -/
def boundTaken (u : Nat × Nat × Nat × Nat) : Upd := upd fun b => { b with lsw := { b.lsw with bound := b.lsw.bound.erase u } }

/-- The channel ignores the update `u`. -/
def State.boundIgnored (s : State) (g : Nat) (u : Nat × Nat × Nat × Nat) : Bool :=
  s.moduleSafe || s.lswRetired g || !s.loadEnabled g || s.lead g != g || !s.flag (LSW_CH_BIND_EN g) || u.2.2.2 != s.reg (LSW_CH_BIND g) % 2 ^ 31

theorem boundSignalUpdate_run {g : Fin 64} {s : State} {u : Nat × Nat × Nat × Nat} (h : s.b.lsw.bound.find? (·.1 = g.val) = some u) :
    (boundSignalUpdate g).run s = (if s.boundIgnored g u then boundTaken u
      else if s.flag (LSW_CH_SAFETY_SAFETY g) && u.2.2.1 != 1 then .seq (boundTaken u) (raiseCh g 4)
      else seqs [boundTaken u, updChan g fun c => { c with bindTo := false }, set (LSW_CH_STATUS0_BIND_STALE g) 0,
        command g (boundWord (s.get (LSW_CH_BIND_MAP_FORMAT g)) (u.2.1 % 2 ^ 32)) 2 false]).run s := by
  have hrun : (boundSignalUpdate g).run s = (seqs [boundTaken u, if s.boundIgnored g u then .skip
      else if s.flag (LSW_CH_SAFETY_SAFETY g) && u.2.2.1 != 1 then raiseCh g 4
      else seqs [updChan g fun c => { c with bindTo := false }, set (LSW_CH_STATUS0_BIND_STALE g) 0,
        command g (boundWord (s.get (LSW_CH_BIND_MAP_FORMAT g)) (u.2.1 % 2 ^ 32)) 2 false]]).run s := by
    simp only [boundSignalUpdate, Upd.run_read, h, boundTaken, State.boundIgnored]
    rfl
  rw [hrun, seqs_cons_run, seqs_cons_run, seqs_nil_run]
  split
  · exact Upd.run_skip _
  · split
    · rw [Upd.run_seq]
    · simp only [seqs_cons_run, seqs_nil_run]

/-- The binding of channel `g` is stale. -/
def bindStale (g : Nat) : Upd := .seq (set (LSW_CH_STATUS0_BIND_STALE g) 1) (raiseCh g 3)

/-- What a timeout of the binding does by TO_ACT. -/
def staleActs (g : Nat) (s : State) : Upd := match s.get (LSW_CH_BIND_MAP_TO_ACT g) with
  | 0 => .skip
  | 2 => .seq (updChan g fun c => { c with bindTo := true }) (whenU (s.loadEnabled g && !s.lswRetired g) (enterSafe g))
  | _ => command g (s.get (LSW_CH_CMD_DUTY g)) 2 false

theorem staleActs_mark {g : Nat} {s : State} (h : s.get (LSW_CH_BIND_MAP_TO_ACT g) = 0) : staleActs g s = .skip := by
  simp only [staleActs, h]

theorem staleActs_safe {g : Nat} {s : State} (h : s.get (LSW_CH_BIND_MAP_TO_ACT g) = 2) : staleActs g s =
    .seq (updChan g fun c => { c with bindTo := true }) (whenU (s.loadEnabled g && !s.lswRetired g) (enterSafe g)) := by
  simp only [staleActs, h]

theorem staleActs_command {g : Nat} {s : State} (h : s.get (LSW_CH_BIND_MAP_TO_ACT g) ≠ 0) (h' : s.get (LSW_CH_BIND_MAP_TO_ACT g) ≠ 2) :
    staleActs g s = command g (s.get (LSW_CH_CMD_DUTY g)) 2 false := by
  unfold staleActs
  split
  next e => exact absurd e h
  next e => exact absurd e h'
  next => rfl

theorem bindTimeout_run {g : Fin 64} {s : State} (hen : s.flag (LSW_CH_BIND_EN g) = true) (hto : s.flag (LSW_CH_BIND_MAP_TO_MS g) = true)
    (hlead : s.lead g = g) : (bindTimeout g).run s = (staleActs g s).run ((bindStale g).run s) := by
  simp only [bindTimeout, Upd.run_read, hen, hto, hlead, beq_self_eq_true, Bool.and_true, whenU_true, seqs_cons_run, seqs_nil_run, bindStale, Upd.run_seq,
    staleActs] <;> rfl

end Sys2Proof.Machine

open Sys2Proof Sys2Proof.Machine

/-- Settles O15: a sample's code and sums outlast what the sample leads to, which writes neither; a step of the wire model of a load that is not on
trips nothing; the signals of a channel run their own rules. -/
theorem loadSampleEvents : Obligations.LoadSampleEvents := by
  unfold Obligations.LoadSampleEvents
  refine ⟨?sample, ?unpowered, ?idle, ?publish, ?noGsid, ?bound, ?stale, ?wire⟩
  case sample =>
    intro g x s harm hon
    obtain ⟨hsample, hvalid, hnum, hsum⟩ := currentSample_shows g x s hon
    exact ⟨_, completes_of_work rfl harm, hsample, hvalid, hnum, hsum, within_currentSample g x s⟩
  case unpowered =>
    intro g x s harm hoff
    exact does_of_completes (completes_of_work rfl harm) (currentSample_unpowered g x s hoff) within_skip
  case idle =>
    intro g x s harm hon hidle hslow hwin hin
    obtain ⟨hsample, hvalid, hnum, hsum⟩ := currentSample_shows g x s hon
    obtain ⟨hlimit, htripped, hpage⟩ := currentSample_idle g x s hon hidle hslow hwin hin
    exact ⟨_, completes_of_work rfl harm, hsample, hvalid, hnum, hsum, hlimit, htripped, hpage⟩
  case publish =>
    intro g s base addr harm hbase
    refine completes_as (completes_of_work rfl harm) ?_
    rw [channelPublish_run, decide_eq_true hbase, whenU_true]
    rfl
  case noGsid =>
    intro g s harm hbase
    refine does_of_completes (completes_of_work rfl harm) ?_ within_skip
    rw [channelPublish_run, decide_eq_false (Nat.not_le.mpr hbase), whenU_false]
  case bound =>
    intro g s u hu ignored taken
    have hrun := boundSignalUpdate_run hu
    have hg := dieFoot_onPage g.isLt
    have hdone : Completes (.boundSignalUpdate g) s _ := completes_of_finish rfl
    split
    next hig => exact does_of_completes hdone (hrun.trans (by rw [if_pos (show s.boundIgnored g u = true from hig)]; rfl)) (within_upd _)
    next hig =>
      rw [if_neg (show ¬ s.boundIgnored g u = true from hig)] at hrun
      split
      next href =>
        have h : (s.flag (LSW_CH_SAFETY_SAFETY g) && u.2.2.1 != 1) = true := by
          rw [href.1, Bool.true_and]
          exact bne_iff_ne.mpr href.2
        rw [if_pos h] at hrun
        exact does_of_completes hdone hrun (within_seq (within_upd _) (calms_raiseCh g.isLt hg _).within)
      next href =>
        have h : ¬ (s.flag (LSW_CH_SAFETY_SAFETY g) && u.2.2.1 != 1) = true := fun h => by
          rw [Bool.and_eq_true] at h
          exact href ⟨h.1, bne_iff_ne.mp h.2⟩
        rw [if_neg h] at hrun
        exact does_of_completes hdone hrun (within_seqs ⟨within_upd _, within_upd _, within_set (lswPages_cell g.isLt (by decide)), within_command g.isLt _ _ _⟩)
  case stale =>
    intro g s hen hto hlead mark
    have hrun := bindTimeout_run hen hto hlead
    have hg := dieFoot_onPage g.isLt
    have hmark : Within (onPage (lswUnit g)) (bindStale g) :=
      within_seq (calms_set (own_admitted g.isLt hg (by decide))).within (calms_raiseCh g.isLt hg _).within
    have hmark' : Within lswPages (bindStale g) := within_seq (within_set (lswPages_cell g.isLt (by decide))) (within_raiseCh g.isLt _)
    have hdone : Completes (.bindTimeout g) s _ := completes_of_finish rfl
    split
    next h =>
      rw [staleActs_mark h, Upd.run_skip] at hrun
      exact does_of_completes hdone hrun hmark
    next h =>
      refine does_of_completes hdone ?_ (within_seqs ⟨hmark, within_upd _, within_whenU (calms_enterSafe g.isLt hg).within⟩)
      rw [hrun, staleActs_safe h, Upd.run_seq, seqs_cons_run, seqs_cons_run, seqs_cons_run, seqs_nil_run]
      rfl
    next h h' =>
      refine does_of_completes hdone ?_ (within_seq hmark' (within_command g.isLt _ _ _))
      rw [hrun, staleActs_command h h', Upd.run_seq]
      rfl
  case wire =>
    intro g s hoff
    obtain ⟨r, hr, hview, htemp, hpage⟩ := wireModelStep_shows g s hoff
    obtain ⟨ht, hnum, hsum, hsq⟩ : _ ∧ _ ∧ _ ∧ _ := by simpa only [Chan.samples, Prod.mk.injEq] using hview
    exact ⟨_, r, completes_of_finish rfl, hr, hnum, hsum, hsq, ht, by rw [htemp, ht], hpage⟩

end

section
/-!
The signal router's events (R485 to R503): what its sends, destinations and updates leave of event 2 of the block (R489).
-/
namespace Sys2Proof.Machine

/-! ## The event of a reception timeout stays -/

/-- Event 2 of the router, once raised, is still raised. -/
def eventStays (x y : (Nat → Nat) × Unit) : Prop := bit (x.1 (BLK_IRQ_STAT 11)) 2 = true → bit (y.1 (BLK_IRQ_STAT 11)) 2 = true

/-- The update leaves event 2 raised. -/
def EventStays (u : Upd) : Prop := LeadsAside (fun _ => ()) eventStays u

theorem aloof_unitView : Aloof (fun _ : Blocks => ()) := ⟨fun _ _ => rfl, fun _ _ => rfl, fun _ _ => rfl, fun _ _ => rfl⟩

theorem eventStays_iff {u : Upd} : EventStays u ↔ ∀ s, s.bitAt (BLK_IRQ_STAT 11) 2 = true → (u.run s).bitAt (BLK_IRQ_STAT 11) 2 = true := by
  have hstat : transferFoot (BLK_IRQ_STAT 11) = false := by decide
  simp only [EventStays, LeadsAside, eventStays, State.aside, hstat, Bool.false_eq_true, if_false]
  exact Iff.rfl

/-- Every register but the router's events. -/
def offEvents (a : Nat) : Bool := a != BLK_IRQ_STAT 11

theorem eventStays_of_reg {u : Upd} (h : Keeps (·.reg (BLK_IRQ_STAT 11)) u) : EventStays u :=
  eventStays_iff.mpr fun s hs => by rwa [bitAt_of_reg_eq (h s)]

theorem eventStays_of_within {u : Upd} (hw : Within offEvents u) : EventStays u := eventStays_of_reg fun s => (hw s).reg_eq (bne_self_eq_false _)

section
variable {u v : Upd}

theorem eventStays_skip : EventStays .skip := eventStays_of_within within_skip
theorem eventStays_read {k : State → Upd} (h : ∀ s, EventStays (k s)) : EventStays (.read k) := leadsAside_read h
theorem eventStays_seq (hu : EventStays u) (hv : EventStays v) : EventStays (.seq u v) := fun s hs => hv (u.run s) (hu s hs)
theorem eventStays_ite {c : Prop} [Decidable c] (hu : EventStays u) (hv : EventStays v) : EventStays (if c then u else v) := leadsAside_ite hu hv

theorem eventStays_whenU {c : Bool} (h : EventStays u) : EventStays (whenU c u) := by
  cases c
  · exact eventStays_skip
  · exact h

/-- Each update of a list leaves event 2 raised. -/
def AllStay : List Upd → Prop
  | [] => True
  | [u] => EventStays u
  | u :: l => EventStays u ∧ AllStay l

theorem eventStays_seqs {l : List Upd} (h : AllStay l) : EventStays (seqs l) := by
  induction l with
  | nil => exact eventStays_skip
  | cons u l ih =>
    cases l with
    | nil => exact eventStays_seq h eventStays_skip
    | cons v l =>
      obtain ⟨hu, hl⟩ := h
      exact eventStays_seq hu (ih hl)

theorem eventStays_forEach {α : Type} {l : List α} {f : α → Upd} (h : ∀ x, EventStays (f x)) : EventStays (forEach l f) := by
  induction l with
  | nil => exact eventStays_skip
  | cons x l ih => exact eventStays_seq (h x) ih

end

theorem eventStays_upd (f : Blocks → Blocks) : EventStays (upd f) := eventStays_of_within (within_upd f)
theorem eventStays_updSrt (f : Srt → Srt) : EventStays (updSrt f) := eventStays_upd _
theorem eventStays_set {f : Fld} (h : offEvents f.reg = true) (v : Nat) : EventStays (set f v) := eventStays_of_within (within_set h)
theorem eventStays_setReg {a : Nat} (h : offEvents a = true) (v : Nat) : EventStays (setReg a v) := eventStays_of_within (within_setReg h)
theorem eventStays_count {a : Nat} (h : offEvents a = true) (n : Nat := 1) : EventStays (count a n) := eventStays_of_within (within_count h)
theorem eventStays_storeBytes (a : Nat) (l : List Byte) : EventStays (storeBytes a l) := eventStays_of_reg fun s => keeps_reg_storeBytes _ a l s
theorem eventStays_free {k : Nat → Upd} (hk : ∀ v, EventStays (k v)) : EventStays (free k) := eventStays_read fun _ => eventStays_seq (eventStays_upd _) (hk _)

theorem eventStays_raise {i : Nat} (hfit : (⟨BLK_IRQ_STAT 11, i, i⟩ : Fld).fits = true) (h2 : i ≠ 2) : EventStays (raise 11 i) :=
  eventStays_iff.mpr fun s hs => (keeps_bitAt_raise hfit (by decide) h2 s).trans hs

theorem eventStays_report : EventStays (report 11 none TR) := eventStays_of_within ((within_report_block (by decide) (by decide)).mono fun a ha =>
  bne_iff_ne.mpr fun e => by
    rw [e] at ha
    exact absurd ha (by decide))

/-! ## The router's caches and slots (R499, R501, R521) -/

theorem eventStays_setRc (i : Nat) (ways : List RcWay) : EventStays (setRc i ways) :=
  eventStays_read fun _ => eventStays_seq (eventStays_updSrt _) (eventStays_set (by decide) _)

theorem eventStays_rtPoison (g : Nat) : EventStays (rtPoison g) :=
  eventStays_seqs ⟨eventStays_count (by decide), eventStays_raise (by decide) (by decide), eventStays_setReg (by decide) _, eventStays_report⟩

theorem eventStays_srtRead {a n : Nat} {k : SrtRead → Upd} (hk : ∀ r, EventStays (k r)) : EventStays (srtRead a n k) :=
  eventStays_read fun _ => aloof_unitView.leads_dmaRead fun _ => hk _

theorem eventStays_rtLookup {g : Nat} {old quiet : Bool} {k : Option (List Nat) → Upd} (hk : ∀ r, EventStays (k r)) : EventStays (rtLookup g old quiet k) := by
  refine eventStays_read fun s => eventStays_ite (hk _) ?_
  split
  · exact eventStays_seqs ⟨eventStays_whenU (eventStays_count (by decide)), eventStays_setRc _ _, hk _⟩
  · refine eventStays_seq (eventStays_whenU (eventStays_count (by decide))) (eventStays_srtRead fun r => ?_)
    cases r with
    | words e => exact eventStays_seq (eventStays_read fun _ => eventStays_setRc _ _) (hk _)
    | poison => exact eventStays_seq (eventStays_rtPoison _) (hk _)
    | refused => exact hk _

theorem eventStays_slotBack (n : Nat) : EventStays (slotBack n) := by
  refine eventStays_read fun s => ?_
  split
  · exact eventStays_skip
  · exact eventStays_seq (aloof_unitView.leads_dmaWrite fun _ => eventStays_skip) (eventStays_updSrt _)

theorem eventStays_slotKeep (n : Nat) (l : List Nat) : EventStays (slotKeep n l) :=
  eventStays_read fun _ => eventStays_seq (eventStays_whenU (eventStays_free fun _ => eventStays_slotBack _)) (eventStays_updSrt _)

theorem eventStays_slotFetch {n : Nat} {k : SrtRead → Upd} (hk : ∀ r, EventStays (k r)) : EventStays (slotFetch n k) := by
  refine eventStays_read fun s => ?_
  split
  · refine eventStays_srtRead fun r => ?_
    cases r with
    | words l => exact eventStays_seq (eventStays_slotKeep _ _) (hk _)
    | poison => exact hk _
    | refused => exact hk _
  · exact hk _

theorem eventStays_dlRead (i : Nat) {k : SrtRead → Upd} (hk : ∀ r, EventStays (k r)) : EventStays (dlRead i k) := by
  refine eventStays_read fun s => ?_
  dsimp only
  split
  · exact eventStays_seq (eventStays_updSrt _) (hk _)
  · refine eventStays_seq (eventStays_count (by decide)) (eventStays_srtRead fun r => eventStays_seq ?_ (hk r))
    cases r with
    | words l => exact eventStays_updSrt _
    | poison => exact eventStays_skip
    | refused => exact eventStays_skip

/-! ## Sends on CAN, LIN and port SR (R503) -/

theorem eventStays_can {m : Nat → Prop} {u : Upd} (h : Reaches (onPage 9) m u) : EventStays u := eventStays_of_reg fun s => (h s).1 _ (by decide)

theorem eventStays_count64 {a : Nat} (h : offEvents a = true) (n : Nat := 1) : EventStays (count64 a n) := eventStays_of_within (within_count64_of h n)

/-- The packet numbers of port SR's channels lie beside the router's events. -/
theorem offEvents_saPn {o : Nat} (h : o % 32 ≠ 16) (e : Nat) : offEvents (cellBase 7 23 + o + 0 * 0 + 32 * e) = true := by
  have hport : cellBase 7 23 % 32 = 0 := by decide
  have hirq : BLK_IRQ_STAT 11 % 32 = 16 := by decide
  refine bne_iff_ne.mpr fun he => ?_
  rw [← he] at hirq
  omega

theorem eventStays_setSaPn (e v : Nat) : EventStays (setSaPn 23 e v) :=
  eventStays_seq (eventStays_setReg (offEvents_saPn (by decide) e) _) (eventStays_setReg (offEvents_saPn (by decide) e) _)

theorem eventStays_msecRx (f : Frame) {k : Option Frame → Upd} (hk : ∀ r, EventStays (k r)) : EventStays (msecRx 23 f k) := by
  have hend {a : Nat} (h : offEvents a = true) (r : Option Frame) : EventStays (.seq (count64 a) (k r)) := eventStays_seq (eventStays_count64 h) (hk _)
  refine eventStays_read fun s => eventStays_ite (hk _) (eventStays_ite (hend (by decide) _) (eventStays_ite (hend (by decide) _) ?_))
  extract_lets chan sa
  clear_value sa
  rcases sa with _ | ⟨e, key⟩ <;> dsimp -zeta only
  · exact hend (by decide) _
  · extract_lets next high pn lowest late scil aad inp plain good seen
    have hseen : EventStays seen := eventStays_whenU (eventStays_setSaPn _ _)
    clear_value plain good seen late
    refine eventStays_ite (hend (by decide) _) (eventStays_ite (hend (by decide) _) (eventStays_ite
      (eventStays_ite (hend (by decide) _) (hend (by decide) _)) (eventStays_seqs ⟨hseen, ?_, hk _⟩)))
    split <;> exact eventStays_count64 (by decide)

theorem eventStays_macDrop {cnt : Nat} (h : offEvents cnt = true) : EventStays (macDrop 23 cnt) := eventStays_seq (eventStays_count64 h) (eventStays_upd _)

theorem eventStays_macCheck (f : Frame) (phyErr fcsErr : Bool) {bad : Upd} {good : Frame → Upd} (hbad : EventStays bad) (hgood : ∀ g, EventStays (good g)) :
    EventStays (macCheck 23 f phyErr fcsErr bad good) := by
  have hdrop {a : Nat} (h : offEvents a = true) : EventStays (.seq (macDrop 23 a) bad) := eventStays_seq (eventStays_macDrop h) hbad
  have hcount : EventStays (rxCount 23 f) := eventStays_seqs ⟨eventStays_count64 (by decide) _, eventStays_count64 (by decide),
    eventStays_ite (eventStays_count64 (by decide)) (eventStays_whenU (eventStays_count64 (by decide)))⟩
  refine eventStays_read fun s => eventStays_ite (hdrop (by decide)) (eventStays_ite (hdrop (by decide)) (eventStays_ite (hdrop (by decide))
    (eventStays_ite (hdrop (by decide)) (eventStays_ite (eventStays_seq (eventStays_count64 (by decide)) hbad)
      (eventStays_seq hcount (eventStays_msecRx _ fun r => ?_))))))
  cases r with
  | none => exact hbad
  | some g => exact hgood g

/-- Port SR is port 23 of the switch, of which NMC has no channel (R541). -/
theorem eventStays_macRx_sr (f : Frame) (time : Nat) : EventStays (macRx 23 none f time false false) := by
  have hnm (g : Frame) : EventStays (nmOfferEth 23 g) := eventStays_read fun s => by
    rw [State.nmFrame, show decide (23 < 20) = false from rfl, Bool.false_and, Bool.false_and]
    exact eventStays_skip
  exact eventStays_read fun _ => eventStays_whenU (eventStays_macCheck _ _ _ eventStays_skip fun g => eventStays_seq (hnm g)
    (eventStays_whenU (eventStays_read fun _ => eventStays_whenU (eventStays_upd _))))

theorem eventStays_srFlush : EventStays srFlush :=
  eventStays_read fun _ => eventStays_whenU (eventStays_seq (eventStays_macRx_sr _ _) (eventStays_updSrt _))

theorem eventStays_srSend (r : List Byte) : EventStays (srSend r) :=
  eventStays_read fun _ => eventStays_seqs ⟨eventStays_whenU eventStays_srFlush, eventStays_updSrt _, eventStays_whenU eventStays_srFlush⟩

theorem eventStays_srtDeliver (d : Nat) (data : List Byte) : EventStays (srtDeliver d data) := eventStays_read fun s => by
  dsimp only
  split
  next hport => exact eventStays_seq (eventStays_can (reaches_setWords _ _)) (eventStays_can (reaches_makePending hport _))
  next => exact eventStays_ite (eventStays_storeBytes _ _) (eventStays_srSend _)

theorem eventStays_sendBuild (d : Nat) : EventStays (sendBuild d) :=
  eventStays_read fun _ => eventStays_ite (eventStays_count (by decide)) (eventStays_seqs ⟨eventStays_storeBytes _ _, eventStays_whenU (eventStays_storeBytes _ _),
    eventStays_updSrt _, eventStays_srtDeliver _ _, eventStays_count (by decide)⟩)

theorem eventStays_withDesc (d : Nat) (tx : Bool) {yes no : Upd} (hyes : EventStays yes) (hno : EventStays no) : EventStays (withDesc d tx yes no) :=
  eventStays_read fun _ => eventStays_ite hno (eventStays_ite (eventStays_seq (eventStays_raise (by decide) (by decide)) hno) (eventStays_ite hyes hno))

theorem eventStays_txBusy : EventStays txBusy := eventStays_seq (eventStays_count (by decide)) (eventStays_raise (by decide) (by decide))

theorem eventStays_sendTry (d : Nat) : EventStays (sendTry d) := by
  refine eventStays_withDesc _ _ (eventStays_read fun s => ?_) (eventStays_updSrt _)
  split
  · exact eventStays_seq (eventStays_updSrt _) (eventStays_sendBuild d)
  · exact eventStays_seq (eventStays_whenU eventStays_txBusy) (eventStays_updSrt _)
  · exact eventStays_seq eventStays_txBusy (eventStays_updSrt _)

theorem eventStays_srtPack : EventStays srtPack := by
  have hdue (d : Nat) : EventStays (sendDue d) :=
    eventStays_read fun _ => eventStays_whenU (eventStays_ite (eventStays_updSrt _) (eventStays_whenU (eventStays_sendTry d)))
  exact eventStays_read fun _ => eventStays_seq (eventStays_updSrt _) (eventStays_forEach hdue)

/-! ## Destinations and updates (R498, R500, R520) -/

theorem eventStays_sigRemote (d addr v pid : Nat) : EventStays (sigRemote d addr v pid) := by
  have hchain (rec : Nat) (p : Pkt) (a : Nat) : EventStays (chainWrite rec p a) :=
    eventStays_read fun _ => eventStays_seq (eventStays_upd _) (eventStays_read fun _ => eventStays_seq (eventStays_upd _) (eventStays_upd _))
  exact eventStays_read fun _ => eventStays_ite (eventStays_seq (eventStays_count (by decide)) (hchain _ _ _)) (eventStays_count (by decide))

theorem eventStays_destApply (u : SigUpd) (w0 w1 : Nat) : EventStays (destApply u w0 w1) := by
  have hbad : EventStays (count SRT_CNT_DEST_BAD) := eventStays_count (by decide)
  refine eventStays_read fun s => eventStays_ite eventStays_skip (eventStays_ite (eventStays_count (by decide)) ?_)
  split
  · refine eventStays_withDesc _ _ (eventStays_ite hbad (eventStays_whenU ?_)) hbad
    exact eventStays_seq (eventStays_storeBytes _ _) (eventStays_whenU (eventStays_updSrt _))
  · exact eventStays_upd _
  · exact eventStays_ite hbad (eventStays_sigRemote _ _ _ _)

theorem eventStays_destsApply (u : SigUpd) (e : List Nat) : EventStays (destsApply u e) := by
  have hbad (n : Nat) : EventStays (count SRT_CNT_DEST_BAD n) := eventStays_count (by decide) _
  refine eventStays_ite eventStays_skip (eventStays_ite (eventStays_destApply _ _ _) (eventStays_forEach fun j =>
    eventStays_read fun s => eventStays_ite (hbad _) (eventStays_dlRead _ fun r => ?_)))
  cases r with
  | words l => exact eventStays_forEach fun _ => eventStays_destApply _ _ _
  | poison => exact eventStays_seq (eventStays_count (by decide)) eventStays_report
  | refused => exact hbad _

theorem eventStays_sigStore (u : SigUpd) (e : List Nat) : EventStays (sigStore u e) := by
  have hupd : EventStays (count SRT_CNT_SIG_UPD) := eventStays_count (by decide)
  refine eventStays_ite (eventStays_seq hupd (eventStays_destsApply _ _)) (eventStays_slotFetch fun r => ?_)
  cases r with
  | words l => exact eventStays_read fun _ => eventStays_seqs ⟨eventStays_slotKeep _ _, hupd, eventStays_destsApply _ _⟩
  | poison => exact eventStays_report
  | refused => exact eventStays_skip

end Sys2Proof.Machine
end

section
/-!
The signal router's events: PDUs in, reception timeouts, sends, the bundle of port SR, signals from other devices (R487 to R503).
-/
namespace Sys2Proof.Machine

/-! ## Reception timeouts (R489) -/

/-- Field `i` of descriptor `d` takes its default: its signal is stale (R489). -/
def fieldStale (s : State) (d i : Nat) : Upd := whenU (s.fUsed (s.dField d i)) (
  rtLookup (s.fGsid (s.dField d i)) false false fun e => match e with
  | none => .skip
  | some w =>
    let go (bad : Bool) (v : Nat) : Upd := if ¬ bit (w.getD 0 0) 31 then noRoute
      else sigStore ⟨s.fGsid (s.dField d i), v, (s.ctxPid 59).1, d, true, bad, false, true⟩ w
    if bit (w.getD 0 0) 31 ∧ bit (w.getD 0 0) 28 then slotFetch (bits (w.getD 0 0) 19 0) fun r => match r with
      | .words l => go (bit (l.getD 2 0) 29) (l.getD 0 0 + 2 ^ 32 * l.getD 1 0)
      | _ => free (go false)
    else free (go false))

theorem eventStays_fieldStale (s : State) (d i : Nat) : EventStays (fieldStale s d i) := by
  refine eventStays_whenU (eventStays_rtLookup fun e => ?_)
  cases e with
  | none => exact eventStays_skip
  | some w =>
    have hroute : EventStays noRoute := eventStays_seq (eventStays_count (by decide)) (eventStays_raise (by decide) (by decide))
    have hgo (bad : Bool) (v : Nat) : EventStays (if ¬ bit (w.getD 0 0) 31 then noRoute
        else sigStore ⟨s.fGsid (s.dField d i), v, (s.ctxPid 59).1, d, true, bad, false, true⟩ w) := eventStays_ite hroute (eventStays_sigStore _ _)
    refine eventStays_ite (eventStays_slotFetch fun r => ?_) (eventStays_free (hgo false))
    cases r with
    | words l => exact hgo _ _
    | poison => exact eventStays_free (hgo false)
    | refused => exact eventStays_free (hgo false)

/-- The fields of descriptor `d` go stale, and what they changed is packed. -/
def fieldsStale (s : State) (d : Nat) : Upd := .seq (forEach (List.range (s.dFields d)) (fieldStale s d)) srtPack

theorem withDesc_disabled {d : Nat} {tx : Bool} {yes no : Upd} {s : State} (h : s.descEn d = false) : (withDesc d tx yes no).run s = no.run s := by
  rw [withDesc, Upd.run_read, h, if_pos Bool.false_ne_true]

theorem withDesc_run {d : Nat} {tx : Bool} {yes no : Upd} {s : State} (hen : s.descEn d = true) (hok : s.descOk d = true) (hdir : s.dDir d = tx) :
    (withDesc d tx yes no).run s = yes.run s := by
  rw [withDesc, Upd.run_read, if_neg (not_not_intro hen), if_neg (not_not_intro hok), if_pos hdir]

theorem pduRxTimeout_run {d : Fin 65536} {s : State} (hen : s.descEn d = true) (hok : s.descOk d = true) (hdir : s.dDir d = false)
    (hon : s.flag (BLK_STAT_ENABLED 11) = true) (ht : s.dTime d ≠ 0) :
    (pduRxTimeout d).run s = (fieldsStale s d).run ((raise 11 2).run ((count SRT_CNT_TIMEOUT).run s)) := by
  have ht' : (s.dTime d != 0) = true := bne_iff_ne.mpr ht
  rw [pduRxTimeout, withDesc_run hen hok hdir]
  simp only [Upd.run_read, hon, ht', Bool.and_true, whenU_true, seqs_cons_run, seqs_nil_run, fieldsStale, Upd.run_seq]
  rfl

theorem pduRxTimeout_event {d : Fin 65536} {s : State} (hen : s.descEn d = true) (hok : s.descOk d = true) (hdir : s.dDir d = false)
    (hon : s.flag (BLK_STAT_ENABLED 11) = true) (ht : s.dTime d ≠ 0) : ((pduRxTimeout d).run s).bitAt (BLK_IRQ_STAT 11) 2 = true := by
  have hstays : EventStays (fieldsStale s d) := eventStays_seq (eventStays_forEach fun i => eventStays_fieldStale s d i) eventStays_srtPack
  rw [pduRxTimeout_run hen hok hdir hon ht]
  exact eventStays_iff.mp hstays _ (raise_bitAt_same (by decide) _)

/-! ## PDUs in (R487, R488) -/

/-- The oldest waiting PDU is taken; `ps` wait on. -/
def inputTaken (ps : List Pdu) : Upd := updSrt fun x => { x with input := ps }

theorem classify_inputTaken (ps : List Pdu) (s : State) (p : Pdu) : ((inputTaken ps).run s).classify p = s.classify p := rfl

theorem pduIngress_empty {c e : Option Nat} {ce : Bool} {s : State} (h : s.b.srt.input = []) : (pduIngress c e ce).run s = s := by
  simp only [pduIngress, Upd.run_read, h, Upd.run_skip]

theorem pduIngress_unclassified {c : Option Nat} {p : Pdu} {ps : List Pdu} {s : State} (h : s.b.srt.input = p :: ps) (hc : s.classify p = none) :
    (pduIngress c none false).run s = (count SRT_CNT_NO_PDU).run ((inputTaken ps).run s) := by
  have hc' : ((updSrt fun x => { x with input := ps }).run s).classify p = none := (classify_inputTaken ps s p).trans hc
  simp only [pduIngress, Upd.run_read, h, seqs_cons_run, seqs_nil_run, whenU_false, Upd.run_skip, hc', inputTaken]

theorem pduIngress_classified {c : Option Nat} {p : Pdu} {ps : List Pdu} {d : Nat} {s : State} (h : s.b.srt.input = p :: ps) (hc : s.classify p = some d) :
    (pduIngress c none false).run s = (withDesc d false (pduRun d p c) (count SRT_CNT_NO_PDU)).run ((inputTaken ps).run s) := by
  have hc' : ((updSrt fun x => { x with input := ps }).run s).classify p = some d := (classify_inputTaken ps s p).trans hc
  simp only [pduIngress, Upd.run_read, h, seqs_cons_run, seqs_nil_run, whenU_false, Upd.run_skip, hc', inputTaken]

/-! ## Sends (R497, R503) -/

/-- The gap after a send of descriptor `d` ends. -/
def gapEnds (d : Nat) : Upd := updTx d fun x => { x with gap := false }

theorem minGapEnd_run (d : Fin 65536) (s : State) : (minGapEnd d).run s =
    (whenU ((mapGet {} s.b.srt.tx d).due && s.flag (BLK_STAT_ENABLED 11)) (sendTry d)).run ((gapEnds d).run s) := by
  simp only [minGapEnd, Upd.run_read, Upd.run_seq, gapEnds]

theorem gapEnds_gap (d : Nat) (s : State) : (mapGet {} ((gapEnds d).run s).b.srt.tx d).gap = false := by
  rw [gapEnds, updTx, updSrt, upd_b]
  exact congrArg SrtTx.gap (mapGet_mapPut_same ({} : SrtTx) s.b.srt.tx d { mapGet {} s.b.srt.tx d with gap := false })

theorem srFlush_empty {s : State} (h : s.b.srt.bundle = []) : srFlush.run s = s := by
  rw [srFlush, Upd.run_read, h]
  rfl

theorem srFlush_bundle (s : State) : (srFlush.run s).b.srt.bundle = [] := by
  cases hb : s.b.srt.bundle with
  | nil => rw [srFlush_empty hb, hb]
  | cons r l =>
    have hsome : (!s.b.srt.bundle.isEmpty) = true := by rw [hb]; rfl
    rw [srFlush, Upd.run_read, hsome, whenU_true, Upd.run_seq, updSrt, upd_b]

end Sys2Proof.Machine

open Sys2Proof Sys2Proof.Machine

/-- Settles O30: each event runs its own rule; event 2, raised by a reception timeout, stays raised through the updates of the descriptor's signals
and the sends that they lead to. -/
theorem signalRouterEvents : Obligations.SignalRouterEvents := by
  unfold Obligations.SignalRouterEvents
  refine ⟨?noInput, ?unknown, ?known, ?rxDisabled, ?rxTimeout, ?cyclic, ?gapOver, ?gapDue, ?held, ?noBundle, ?bundle, ?remote, ?remoteStopped⟩
  case noInput =>
    intro c e ce s harm h
    exact does_of_completes (completes_of_work rfl harm) (pduIngress_empty h) within_skip
  case unknown =>
    intro c p ps s harm h hc
    have hfoot : Within (onPage 11) (.seq (inputTaken ps) (count SRT_CNT_NO_PDU)) := within_seq (within_upd _) (within_count (by decide))
    refine ⟨_, completes_as (completes_of_work rfl harm) (pduIngress_unclassified h hc), ?_, ?_, ?_⟩
    · rw [count_b, inputTaken, updSrt, upd_b]
    · rw [reg_count_same (by decide), inputTaken, updSrt, upd_reg]
    · rw [← Upd.run_seq]
      exact hfoot s
  case known =>
    intro c p ps d s harm h hc
    refine completes_as (completes_of_work rfl harm) ?_
    rw [pduIngress_classified h hc, Upd.run_seq]
    rfl
  case rxDisabled =>
    intro d s h
    exact does_of_completes (completes_of_finish rfl) (withDesc_disabled h) within_skip
  case rxTimeout =>
    intro d s hen hok hdir hon ht
    exact ⟨_, completes_of_finish rfl, pduRxTimeout_event hen hok hdir hon ht⟩
  case cyclic =>
    intro d s harm htrig htime
    have hdue : ((s.dTrig d == 1 || s.dTrig d == 2) && s.dTime d != 0) = true := by
      rw [bne_iff_ne.mpr htime, Bool.and_true, Bool.or_eq_true, beq_iff_eq, beq_iff_eq]
      exact htrig
    refine completes_as (completes_of_work rfl harm) ?_
    rw [cyclicSendDue, Upd.run_read, hdue, whenU_true]
  case gapOver =>
    intro d s hdue
    refine ⟨_, completes_as (completes_of_finish rfl) ?_, gapEnds_gap d s, within_upd _ s⟩
    rw [minGapEnd_run, hdue, Bool.false_and, whenU_false, Upd.run_skip]
  case gapDue =>
    intro d s hdue hon
    refine completes_as (completes_of_finish rfl) ?_
    rw [minGapEnd_run, hdue, hon, Bool.true_and, whenU_true, Upd.run_seq]
    rfl
  case held =>
    intro d s hbusy hon
    refine completes_as (completes_of_finish rfl) ?_
    rw [heldSendRelease, Upd.run_read, hbusy, hon, Bool.true_and, whenU_true]
  case noBundle =>
    intro s h
    exact does_of_completes (completes_of_finish rfl) (srFlush_empty h) within_skip
  case bundle =>
    intro s h
    exact ⟨_, completes_of_finish rfl, srFlush_bundle s⟩
  case remote =>
    intro pid a v s harm hon
    refine completes_as (completes_of_work rfl harm) ?_
    simp only [remoteSignalIn, sigByAddr, Upd.run_read, hon, whenU_true, Bool.true_or, if_true]
  case remoteStopped =>
    intro pid a v s harm hoff
    refine does_of_completes (completes_of_work rfl harm) ?_ within_skip
    rw [remoteSignalIn, sigByAddr, Upd.run_read, hoff, whenU_false]

end
